-- ==== Sys2Proof/Word.lean ====
section
/-! DEFINITION. The word types of the TBG-8128 and their plainest views (R3, R4). -/

namespace Sys2Proof

/-- One byte. -/
abbrev Byte := BitVec 8

/-- A register word (R7: registers are 32 bits wide). -/
abbrev Word := BitVec 32

/-- A string of bytes, byte 0 first. -/
abbrev Bytes := List Byte

end Sys2Proof
end

