-- ==== Sys2Proof/Syntax.lean ====
section
/-! DEFINITION. The commands of the TBG-8128: one constructor of `Instr` for each row of the operation table,
and the operand types they carry.  The table gives no operand fields; each operand below is what the rule named at the
constructor needs from outside the device (DESIGN CHOICE, log entry 2). -/

namespace Sys2Proof

/-- A descriptor as the device holds it after its fetch (R67): `flags` is byte 1, `rsv` bytes 2-3 (low) and 8-15 of the
common part, `tag` bytes 4-7, `ops` the 48 operand bytes (operand byte k is bits 8k+7:8k).  `sq` is the queue it came
from, `sqHead` that queue's head index after it (R71), and `mbx` says that a tile received it by mailbox (R76). -/
structure Desc where
  sq : Nat
  mbx : Bool
  sqHead : BitVec 16
  flags : Byte
  rsv : BitVec 80
  tag : Word
  ops : BitVec 384
  deriving DecidableEq, Repr

/-- Bytes read from outside the device (host memory over PCIe), and whether the transfer completed without a PCIe
error. -/
structure HostData where
  bytes : Bytes
  ok : Bool
  deriving DecidableEq, Repr

/-- A 66-bit block as a lane receives it (R84): its sync header (0b01 data, 0b10 control) and its payload, the bit that
arrives first in bit 0. -/
structure Block where
  header : BitVec 2
  payload : BitVec 64
  deriving DecidableEq, Repr

/-- One class-5 message of a return slot (R115): the port that receives the slot, the slot's index in its Trail cycle and its
256 bytes, and the message's place in the payload. -/
structure RetMsg where
  port : Nat
  at0 : Nat
  slot : Bytes
  idx : Nat
  deriving DecidableEq, Repr

/-- The strap balls at the rising edge of PORn (R348). -/
structure StrapBalls where
  role : Bool
  side1 : Bool
  side0 : Bool
  boot1 : Bool
  boot0 : Bool
  test : Bool
  deriving DecidableEq, Repr

/-- One sample row of an ST 2110-20 payload (R130): line, byte offset in the line, and the bytes. -/
structure VideoRow where
  line : Nat
  offset : Nat
  bytes : Bytes
  deriving DecidableEq, Repr

/-- An E1.31 data packet as R137 and R138 read it. -/
structure SacnPacket where
  startCode : Byte
  preview : Bool
  syncPkt : Bool
  terminated : Bool
  cid : BitVec 128
  prio : Nat
  seq : Byte
  univ : BitVec 16
  slots : Bytes
  deriving DecidableEq, Repr

/-- The content of an RTP packet: video rows (with the extended sequence number's high half and the field bit, R130),
audio samples in frame order (R136), or anything else. -/
inductive RtpBody where
  | video (seqHi : BitVec 16) (fieldBit : Bool) (rows : List VideoRow)
  | audio (rate48 : Bool) (l24 : Bool) (ptime125 : Bool) (channels : Nat) (samples : List (BitVec 24))
  | other
  deriving DecidableEq, Repr

/-- The payload of a UDP datagram, as far as the flow path reads it. -/
inductive UdpBody where
  | rtp (version : BitVec 2) (pt : BitVec 7) (ssrc : Word) (seq : BitVec 16) (ts : Word) (body : RtpBody)
  | sacn (p : SacnPacket)
  | other
  deriving DecidableEq, Repr

/-- The content of an Ethernet frame, as the rows of R125 read it. -/
inductive NetBody where
  /-- EtherType 0x88F7: PTP over IEEE 802.3. -/
  | ptpEth
  /-- IPv6 with UDP. -/
  | udp6 (dport : BitVec 16)
  | udp4 (options : Bool) (fragment : Bool) (checksumOk : Bool) (src dst : Word) (dport : BitVec 16) (u : UdpBody)
  | other
  deriving DecidableEq, Repr

/-- A received Ethernet frame (R125): the bytes, the destination MAC address first, go to the host under row 4 and for KIND 3 and
5 flows; `fecCorr` counts the FEC codewords corrected in receiving it (R147). -/
structure NetFrame where
  port : Nat
  fcsErr : Bool
  fecErr : Bool
  fecCorr : Nat
  overflow : Bool
  len : Nat
  vlan : Option (BitVec 12)
  doubleTagged : Bool
  pause : Bool
  body : NetBody
  raw : Bytes
  deriving DecidableEq, Repr

/-- A reading of one temperature sensor against its two selected reference stacks (R311, R312, R322): in quarter degrees, before the
trimmed offset is added, and whether the two references disagree by more than 4 °C. -/
structure SensorReading where
  quarter : Int
  disagree : Bool
  deriving DecidableEq, Repr

/-- What a Local Memory or Seedbank codeword read as (R296). -/
inductive EccRead where
  | clean | corr1 | corr2 | uncorr
  deriving DecidableEq, Repr

/-- The instructions of the test access port (R378); `unlisted` is any other code. -/
inductive TapInstr where
  | bypass | idcode | samplePreload | extest | clamp | highz | unlisted
  deriving DecidableEq, Repr

/-- The outcome of testing one memory instance (R325): proposed repair records (8 bytes each) and whether failures
exceed the free spares. -/
structure BistResult where
  records : List (BitVec 64)
  beyond : Bool
  deriving DecidableEq, Repr

/-- The commands: one constructor for each row of the operation table, in the table's order. -/
inductive Instr where
  /-- R346 -/
  | pornAssert
  /-- R348: the strap balls at the edge. -/
  | pornRelease (straps : StrapBalls)
  /-- R346 -/
  | perst
  /-- R20 -/
  | rootLock
  /-- R339 -/
  | bootLoad
  /-- R303 -/
  | rangerRunning
  /-- R36 -/
  | refLoss
  /-- R36 -/
  | fbclkLoss
  /-- R24 -/
  | holdoverExpiry
  /-- R25 -/
  | slewComplete
  /-- R36 -/
  | rootUnlock
  /-- R28 -/
  | frameBoundary
  /-- R29 -/
  | fixFrameStart
  /-- R122 -/
  | frameLatch
  /-- R31 -/
  | subframeBoundary
  /-- R228: the group, the pad samples of its branches where they differ from the bits driven (R235), and the return
  levels on BRI, for each CENSUS read in turn at the ends of its bit periods and of the seven that follow (R238, R374). -/
  | scriptRunEnd (group : Nat) (pads : List (Nat × List Bool)) (bri : List (Nat × List Bool))
  /-- R33: the word written. -/
  | frmCfgWrite (v : Word)
  /-- R34 -/
  | frmRun
  /-- R36 -/
  | frmStop
  /-- R34 -/
  | frmReseed
  /-- R43: the entry's index in the step table. -/
  | stepDispatch (entry : Nat)
  /-- R178 -/
  | bandJudgment (band : Nat)
  /-- R181 -/
  | bandComposed (band : Nat)
  /-- R181 -/
  | passComplete
  /-- R181 -/
  | bandAbandon (band : Nat)
  /-- R38 -/
  | bankRetire
  /-- R203 -/
  | gladeVerdict (glade : Nat)
  /-- R203 -/
  | substitutionDone (glade : Nat)
  /-- R204: the word written to CNP.GLADE_RELEASE. -/
  | gladeRelease (v : Word)
  /-- R40 -/
  | standLoad (d : Desc)
  /-- R58 -/
  | standUnload (d : Desc)
  /-- R45 -/
  | overlayLoad (d : Desc)
  /-- R58 -/
  | overlayUnload (d : Desc)
  /-- R392 -/
  | shadowStand (d : Desc)
  /-- R392 -/
  | shadowOverlays (d : Desc)
  /-- R171 -/
  | shadowLayer (d : Desc)
  /-- R183 -/
  | shadowBuffer (d : Desc)
  /-- R217 -/
  | shadowTables (d : Desc)
  /-- R200 -/
  | shadowGlade (d : Desc)
  /-- R253 -/
  | shadowPattern (d : Desc)
  /-- R216 -/
  | shadowDimmer (d : Desc)
  /-- R53 -/
  | shadowRevert (d : Desc)
  /-- R49 -/
  | commit (d : Desc)
  /-- R49 -/
  | commitPrepare
  /-- R49 -/
  | commitValidate
  /-- R51 -/
  | cutoff
  /-- R48 -/
  | localCommitDecide
  /-- R56 -/
  | commitCancel (d : Desc)
  /-- R58 -/
  | excludeSet (d : Desc)
  /-- R58 -/
  | commitStatus (d : Desc)
  /-- R65: the doorbell words read, by SQ. -/
  | doorbellPoll (words : List (Nat × Word))
  /-- R68: the 64 bytes read at the served queue's head index. -/
  | descriptorFetch (data : HostData)
  /-- R66: the re-read head word, if the device reads it before the post, and whether the completion write is
  accepted. -/
  | completionPost (cq : Nat) (headWord : Option Word) (ok : Bool)
  /-- R66 -/
  | headWordRead (cq : Nat) (word : Word)
  /-- R66 -/
  | acqHeadWrite (v : Word)
  /-- R73 -/
  | coalesceTimer (cq : Nat)
  /-- R393: the word written to HQS.CTRL. -/
  | hqsEnable (v : Word)
  /-- R393: the HQS offset and the word written. -/
  | adminQueueSetup (off : Nat) (v : Word)
  /-- R60: offset in the aperture; the bytes written, or none with the length read. -/
  | bar4Access (off : Nat) (write : Option Bytes) (len : Nat)
  /-- R67 -/
  | nop (d : Desc)
  /-- R63 -/
  | sqCreate (d : Desc)
  /-- R75 -/
  | sqDelete (d : Desc)
  /-- R63 -/
  | cqCreate (d : Desc)
  /-- R75 -/
  | cqDelete (d : Desc)
  /-- R75 -/
  | queueQuery (d : Desc)
  /-- R79 -/
  | mbxResync (d : Desc)
  /-- R76 -/
  | tileRegRead (d : Desc)
  /-- R76 -/
  | tileRegWrite (d : Desc)
  /-- R76: the host bytes read. -/
  | tileWrite (d : Desc) (src : HostData)
  /-- R76 -/
  | tileRead (d : Desc)
  /-- R77: the host bytes read. -/
  | localWrite (d : Desc) (src : HostData)
  /-- R77: whether the writes to host memory are accepted. -/
  | localRead (d : Desc) (ok : Bool)
  /-- R78: the port, the index of the class-3 slot in its Trail cycle, and its 256 bytes. -/
  | mailbox (port : Nat) (index : Nat) (slot : Bytes)
  /-- R78 -/
  | remoteWrite (port : Nat) (index : Nat) (slot : Bytes)
  /-- R78 -/
  | regRead (port : Nat) (index : Nat) (slot : Bytes)
  /-- R386 -/
  | regWrite (port : Nat) (index : Nat) (slot : Bytes)
  /-- R78 -/
  | resync (port : Nat) (index : Nat) (slot : Bytes)
  /-- R78 -/
  | readReq (port : Nat) (index : Nat) (slot : Bytes)
  /-- R78 -/
  | tileMailboxPoll
  /-- R79 -/
  | mbxAck (m : RetMsg)
  /-- R79 -/
  | mbxRetransmit (tile : Nat)
  /-- R76 -/
  | completion (m : RetMsg)
  /-- R80 -/
  | regReply (m : RetMsg)
  /-- R81: the message, and whether the completion write is accepted. -/
  | event (m : RetMsg) (ok : Bool)
  /-- R76 -/
  | readData (m : RetMsg) (ok : Bool)
  /-- R89 -/
  | trlEnable (port : Nat)
  /-- R89 -/
  | trlDisable (port : Nat)
  /-- R89: whether a termination is sensed. -/
  | detectSense (port : Nat) (sensed : Bool)
  /-- R89: the polarity the receiver detected, and the PRBS31 errors of the Train. -/
  | trainEnd (port : Nat) (inverted : Byte) (prbsErrors : Nat)
  /-- R95 -/
  | prbsDetect (port : Nat)
  /-- R89: the blocks of each physical lane since the last command that brought any (`rx` here and below). -/
  | blockLock (port : Nat) (rx : List (List Block))
  /-- R89: in two marker rounds, each physical lane's marker with its position in stripes. -/
  | deskewDone (port : Nat) (round1 round2 : List (Nat × Block)) (rx : List (List Block))
  /-- R89 -/
  | lockTimeout (port : Nat) (rx : List (List Block))
  /-- R89 -/
  | deskewTimeout (port : Nat) (rx : List (List Block))
  /-- R89 -/
  | capTimeout (port : Nat) (rx : List (List Block))
  /-- R91: two consecutive copies of the partner's 56-byte message. -/
  | capabilityAccept (port : Nat) (copy1 copy2 : Bytes) (rx : List (List Block))
  /-- R93 -/
  | portActive (port : Nat)
  /-- R95 -/
  | signalLoss (port : Nat)
  /-- R95 -/
  | lockLoss (port : Nat) (rx : List (List Block))
  /-- R95: at two consecutive marker positions, each physical lane's block there with its position in stripes. -/
  | deskewLoss (port : Nat) (round1 round2 : List (Nat × Block)) (rx : List (List Block))
  /-- R95 -/
  | hiBer (port : Nat)
  /-- R95 -/
  | retrain (port : Nat)
  /-- R97 -/
  | peerSleep (port : Nat)
  /-- R97 -/
  | dormantEnter (port : Nat)
  /-- R98 -/
  | dormantClear (port : Nat)
  /-- R98 -/
  | wakeDetect (port : Nat)
  /-- R98 -/
  | wakeRelock (port : Nat)
  /-- R110 -/
  | trailCycleStart (port : Nat)
  /-- R110 -/
  | chunkDrop (port : Nat)
  /-- R107: the 256 bytes of the marker slot, and the blocks before its marker stripe. -/
  | markerReceive (port : Nat) (slot : Bytes) (rx : List (List Block))
  /-- R107 -/
  | markerMissing (port : Nat) (rx : List (List Block))
  /-- R104 -/
  | chunkReceive (port : Nat) (index : Nat) (slot : Bytes)
  /-- R104 -/
  | broadcastSlot (port : Nat) (index : Nat) (slot : Bytes)
  /-- R105 -/
  | bcastGapTimer (stream : Nat)
  /-- R105 -/
  | bcastGap (m : RetMsg)
  /-- R51 -/
  | commitReply (m : RetMsg)
  /-- R123 -/
  | lockReport (m : RetMsg)
  /-- R114 -/
  | emptySlotArrive (port : Nat) (index : Nat)
  /-- R120 -/
  | echoReq (port : Nat) (index : Nat) (slot : Bytes)
  /-- R120: the slot, at the port's receive reference now. -/
  | echoRsp (port : Nat) (index : Nat) (slot : Bytes)
  /-- R120 -/
  | echoTimeout (port : Nat) (eseq : BitVec 16)
  /-- R123 -/
  | echoStale
  /-- R144 -/
  | previewReturn (port : Nat) (index : Nat) (slot : Bytes)
  /-- R116 -/
  | epochAdvance
  /-- R355 -/
  | rosterTimeout (port : Nat) (tile : Nat)
  /-- R125 -/
  | netFrameReceive (f : NetFrame)
  /-- R185: the start check's GEN, the image bytes, the end check's GEN; `ok` says that the copy completed without
  error and in time. -/
  | hostFetchComplete (source : Nat) (gen1 : Word) (image : HostData) (gen2 : Word)
  /-- R186: whether the completion write is accepted. -/
  | referenceRelease (ok : Bool)
  /-- R138 -/
  | sacnSourceTimeout (universeIndex : Nat) (cid : BitVec 128)
  /-- R139 -/
  | sacnCommit
  /-- R139 -/
  | sacnHeldWrite
  /-- R140 -/
  | sacnCueCommit
  /-- R126 -/
  | netLinkDown (port : Nat)
  /-- R147: the word written to NET.CFG. -/
  | netModeWrite (port : Nat) (v : Word)
  /-- R141 -/
  | pacedLaunch (flow : Nat)
  /-- R158 -/
  | timedLaunch (port : Nat)
  /-- R127 -/
  | flowSet (d : Desc)
  /-- R127 -/
  | flowClear (d : Desc)
  /-- R129 -/
  | sourceSet (d : Desc)
  /-- R146 -/
  | rxPost (d : Desc)
  /-- R158: the frame bytes read. -/
  | txSend (d : Desc) (src : HostData)
  /-- R146 -/
  | flowStats (d : Desc) (ok : Bool)
  /-- R139 -/
  | sacnMap (d : Desc)
  /-- R140 -/
  | sacnCue (d : Desc)
  /-- R145 -/
  | previewSet (d : Desc)
  /-- R141 -/
  | txflowSet (d : Desc)
  /-- R149 -/
  | timeNsRead
  /-- R149 -/
  | timeSet
  /-- R154: OFFSET (s23.8 ns) and MEAS_TIME. -/
  | rangerOffsetFeed (offset : Word) (measTime : Word)
  /-- R153 -/
  | servoFeed (d : Desc)
  /-- R156 -/
  | servoHoldover
  /-- R155 -/
  | timeStep (d : Desc)
  /-- R164 -/
  | timeRead (d : Desc)
  /-- R162 -/
  | tsFetch (d : Desc) (ok : Bool)
  /-- R174 -/
  | geometryCheck (d : Desc)
  /-- R187 -/
  | canopyStats (d : Desc) (ok : Bool)
  /-- R219: the source bytes of both reads (from a local host). -/
  | tableWrite (d : Desc) (src src2 : HostData)
  /-- R220: the record list (from a local host). -/
  | tablePatch (d : Desc) (src : HostData)
  /-- R220 -/
  | patchApply
  /-- R218 -/
  | tableVerify (d : Desc)
  /-- R243 -/
  | censusRun (d : Desc)
  /-- R243 -/
  | branchStats (d : Desc) (ok : Bool)
  /-- R246 -/
  | holdSet (d : Desc)
  /-- R249 -/
  | nightEntry
  /-- R254: the edge's direction (rising or falling). -/
  | fsyncEdge (rising : Bool)
  /-- R254 -/
  | fsyncLost
  /-- R254 -/
  | fsyncZeroPulse
  /-- R255 -/
  | standaloneExit
  /-- R259 -/
  | audioRun
  /-- R265: the 64 samples per channel that receive sides deliver, by (port, slot). -/
  | audioBlockBoundary (captured : List (Nat × List (BitVec 24)))
  /-- R260 -/
  | fbStartPulse
  /-- R260 -/
  | fbsLost
  /-- R262: the port and the side (true = RX). -/
  | asrcUnlock (port : Nat) (rx : Bool)
  /-- R262: the measured rate offset in 0.1 ppm. -/
  | asrcLock (port : Nat) (rx : Bool) (offset : BitVec 16)
  /-- R266: the channel (port × 16 + slot of the transmit side, or 256 + flow × 64 + channel for a capture). -/
  | silentChangeApply (channel : Nat)
  /-- R266 -/
  | zcTimeout (channel : Nat)
  /-- R261 -/
  | portSet (d : Desc)
  /-- R263 -/
  | streamSet (d : Desc)
  /-- R263 -/
  | routeSet (d : Desc)
  /-- R264 -/
  | captureSet (d : Desc)
  /-- R264 -/
  | txaudSet (d : Desc)
  /-- R263 -/
  | groupSet (d : Desc)
  /-- R273 -/
  | claim
  /-- R280 -/
  | takeoverDecision
  /-- R274 -/
  | resign
  /-- R275: the corrected errors of Local Memory and other memories since the last update are counted by their own
  commands. -/
  | healthUpdate
  /-- R278 -/
  | arbSelect
  /-- R278 -/
  | arbDeselect
  /-- R281: the 64 bytes, and the own CK_CORE count at their first bit is now. -/
  | fbSerFrame (frame : Bytes)
  /-- R281 -/
  | serLost
  /-- R279 -/
  | overlapTimeout
  /-- R285: whether the completion write is accepted. -/
  | healthReport (ok : Bool)
  /-- R285: whether the nets compared equal, and whether the Local Memory read found an uncorrectable word. -/
  | patrolTest (netsEqual : Bool) (uncorr : Bool)
  /-- R288 -/
  | handover (d : Desc)
  /-- R288 -/
  | pairStatus (d : Desc)
  /-- R284 -/
  | digestReset (d : Desc)
  /-- R290: block index and source bit. -/
  | faultEvent (block : Nat) (source : Nat)
  /-- R293 -/
  | blockReset (block : Nat)
  /-- R293 -/
  | quiesceEnd (block : Nat)
  /-- R295 -/
  | resetLimitEnd
  /-- R291: the word written. -/
  | blkReactWrite (block : Nat) (v : Word)
  /-- R297: what one codeword read as. -/
  | lmcScrub (addr : Nat) (read : EccRead)
  /-- R299: the rail (0 VDD_CORE ... 4 VDDIO_BR). -/
  | supplyDip (rail : Nat)
  /-- R299 -/
  | dipRecovery
  /-- R300 -/
  | supplyReset (rail : Nat)
  /-- R300: whether VDD_AUX stayed above 1.2 V, and the straps at the release. -/
  | supplyResetRelease (auxKept : Bool) (straps : StrapBalls)
  /-- R302 -/
  | wdgKick
  /-- R302 -/
  | preExpire
  /-- R302 -/
  | expired
  /-- R305: the work class 1-6. -/
  | busy (cls : Nat)
  /-- R307 -/
  | faultSnapshot (d : Desc) (ok : Bool)
  /-- R307 -/
  | rangerRestart (d : Desc)
  /-- R314: the 16 readings. -/
  | thermalSample (readings : List SensorReading)
  /-- R320 -/
  | peakReset
  /-- R326 -/
  | trimApply
  /-- R326 -/
  | trimChange
  /-- R328 -/
  | trimSave (d : Desc) (ok : Bool)
  /-- R328 -/
  | trimRestore (d : Desc) (src : HostData)
  /-- R325 -/
  | memBist (d : Desc) (results : List BistResult) (ok : Bool)
  /-- R334: the blocks read. -/
  | imageWrite (d : Desc) (src : HostData)
  /-- R335 -/
  | imageActivate (d : Desc)
  /-- R337 -/
  | imageConfirm (d : Desc)
  /-- R336 -/
  | imageRevert (d : Desc)
  /-- R340 -/
  | migrationReport (d : Desc) (ok : Bool)
  /-- R341 -/
  | imageBroadcast (d : Desc) (src : HostData)
  /-- R342 -/
  | sdbQuery (d : Desc)
  /-- R336 -/
  | trialWindowExpiry
  /-- R330: what one codeword at a Seedbank offset read as. -/
  | seedbankScrub (offset : Nat) (read : EccRead)
  /-- R354: the word written, and whether it came through a Trail register slot. -/
  | tileIdWrite (v : Word) (trail : Bool)
  /-- R382: the BAR0 offset and the word written. -/
  | loHiPairWrite (off : Nat) (v : Word)
  /-- R385 -/
  | shadowFieldWrite (off : Nat) (v : Word)
  /-- R381: BAR0 offset, word, byte enables. -/
  | registerWrite (off : Nat) (v : Word) (be : BitVec 4)
  /-- R378 -/
  | jtagInstruction (code : TapInstr)
  /-- R126: the speed, 1 100G or 2 200G, and whether auto-negotiation completed. -/
  | netLinkUp (port : Nat) (speed : BitVec 2) (anDone : Bool)
  /-- R23 -/
  | fbclkPresent
  /-- R272 -/
  | fbActInRise
  /-- R31 -/
  | freeRunFrameStart
  deriving DecidableEq, Repr

end Sys2Proof
end

