-- ==== Sys2Proof/Decode.lean ====
section
/-! DEFINITION. The command a word of the operation table spells: the table gives no row any bits (log entry 5). -/

namespace Sys2Proof

/-- The table has no row with bits, so no word spells a command. -/
def decodeTableWord (_nbits _w : Nat) : Option Instr := none

end Sys2Proof
end

