-- ==== Sys2Proof/Machine/Data.lean ====
section
/-! DEFINITION. The plain data the state is built from: sparse maps in canonical form, bytes and words, and bit fields
(R3, R4, R6, R9).  A sparse map is a list of keys and values, keys strictly rising, that never lists the value an
unlisted key reads as. -/

namespace Sys2Proof.Machine

/-- A sparse map from numbers. -/
abbrev Map (α : Type) := List (Nat × α)

/-- A sparse byte store: an unlisted byte reads 0. -/
abbrev Store := List Host.Cell

/-- What a key holds, if it is listed. -/
def Map.find {α : Type} (m : Map α) (k : Nat) : Option α :=
  match m with
  | [] => none
  | (j, v) :: m' => if j = k then some v else Map.find m' k

/-- The map without a key. -/
def Map.del {α : Type} (m : Map α) (k : Nat) : Map α := m.filter (fun c => c.1 != k)

/-- Insert before the first larger key. -/
def Map.ins {α : Type} (m : Map α) (k : Nat) (v : α) : Map α :=
  match m with
  | [] => [(k, v)]
  | (j, w) :: m' => if k < j then (k, v) :: (j, w) :: m' else (j, w) :: Map.ins m' k v

/-- Set a key's value. -/
def Map.put {α : Type} (m : Map α) (k : Nat) (v : α) : Map α := (Map.del m k).ins k v

/-- A key's value, with the value of an unlisted key. -/
def Map.getD {α : Type} (m : Map α) (k : Nat) (d : α) : α := (Map.find m k).getD d

/-- Set a key's value in a map whose unlisted keys read `d`. -/
def Map.set {α : Type} [DecidableEq α] (m : Map α) (k : Nat) (v d : α) : Map α :=
  if v = d then Map.del m k else Map.put m k v

/-- Every key of a list is below the next. -/
def Map.rising {α : Type} (m : Map α) : Bool :=
  match m with
  | [] => true
  | [_] => true
  | a :: b :: m' => decide (a.1 < b.1) && Map.rising (b :: m')

/-- The canonical form of a byte store: addresses strictly rising, no entry 0 (the byte an unlisted address reads). -/
def Store.wf (m : Store) : Bool := Map.rising m && m.all (fun c => c.2 != 0)

/-- One byte of a store. -/
def Store.get (m : Store) (a : Nat) : Byte := Map.getD m a 0

/-- Write one byte. -/
def Store.put (m : Store) (a : Nat) (v : Byte) : Store := Map.set m a v 0

/-- The bytes at rising offsets `a, a + 1, …` of a list of cells, `k` of them, from the cells listed in the range. -/
def Store.fill (cells : Store) (a : Nat) : Nat → Bytes
  | 0 => []
  | k + 1 =>
    match cells with
    | [] => 0 :: Store.fill [] (a + 1) k
    | (j, v) :: r => if j = a then v :: Store.fill r (a + 1) k else 0 :: Store.fill ((j, v) :: r) (a + 1) k

/-- `len` bytes from address `a`. -/
def Store.range (m : Store) (a len : Nat) : Bytes :=
  Store.fill (m.filter (fun c => decide (a ≤ c.1) && decide (c.1 < a + len))) a len

/-- Write bytes at `a, a + 1, …`. -/
def Store.write (m : Store) (a : Nat) (bs : Bytes) : Store :=
  match bs with
  | [] => m
  | b :: bs' => Store.write (Store.put m a b) (a + 1) bs'

/-- The listed cells of a range, moved to offset 0: a copy of the range without its zero bytes. -/
def Store.copy (m : Store) (a len : Nat) : Store :=
  (m.filter (fun c => decide (a ≤ c.1) && decide (c.1 < a + len))).map (fun c => (c.1 - a, c.2))

/-- Little-endian value of bytes (R3). -/
def leNat (bs : Bytes) : Nat :=
  match bs with
  | [] => 0
  | b :: bs' => b.toNat + 256 * leNat bs'

/-- Big-endian value of bytes. -/
def beNat (bs : Bytes) : Nat := bs.foldl (fun n b => 256 * n + b.toNat) 0

/-- `n` little-endian bytes of a number (R3). -/
def leBytes (n v : Nat) : Bytes :=
  match n with
  | 0 => []
  | n + 1 => BitVec.ofNat 8 v :: leBytes n (v / 256)

/-- Byte `i` of a string of bytes, 0 past its end. -/
def byteAt (bs : Bytes) (i : Nat) : Byte := bs.getD i 0

/-- `n` bytes from offset `i`, little-endian. -/
def numAt (bs : Bytes) (i n : Nat) : Nat := leNat ((bs.drop i).take n)

/-- Bits lo + len - 1 : lo of a number (R4). -/
def bits (v lo len : Nat) : Nat := v / 2 ^ lo % 2 ^ len

/-- Bit `i` of a number (R4). -/
def bit (v i : Nat) : Bool := v / 2 ^ i % 2 == 1

/-- A Bool as a bit. -/
def b2n (b : Bool) : Nat := if b then 1 else 0

/-- Set bit `i` of a number. -/
def setBit (v i : Nat) : Nat := if bit v i then v else v + 2 ^ i

/-- Clear bit `i` of a number. -/
def clrBit (v i : Nat) : Nat := if bit v i then v - 2 ^ i else v

/-- The bits of `v` that are not set in `m`, below bit 64. -/
def andNot (v m : Nat) : Nat := v - (v &&& m)

/-- Are `n` bytes from offset `i` all 0 (a reserved field, R5)? -/
def zeroAt (bs : Bytes) (i n : Nat) : Bool := numAt bs i n == 0

/-- The signed value of the low `n` bits (R6). -/
def sval (v n : Nat) : Int :=
  let u := v % 2 ^ n
  if u < 2 ^ (n - 1) then (u : Int) else (u : Int) - 2 ^ n

/-- The two's complement bits of a number in `n` bits (R6). -/
def sbits (v : Int) (n : Nat) : Nat := (v % (2 ^ n : Int)).toNat

/-- Clamp to a range. -/
def clampI (v lo hi : Int) : Int := if v < lo then lo else if hi < v then hi else v

/-- The difference R9 judges by. -/
def diff32 (a b : Nat) : Nat := (a + 2 ^ 32 - b % 2 ^ 32) % 2 ^ 32

/-- `a` is later than `b` by R9. -/
def later32 (a b : Nat) : Bool := decide (1 ≤ diff32 a b) && decide (diff32 a b ≤ 2 ^ 31)

/-- `a` has been reached at `now` by R9: it equals it or is earlier. -/
def reached32 (a now : Nat) : Bool := !later32 a now

/-- `a` is later than `b` by the rule of R9 on 16 bits (R79, R104). -/
def later16 (a b : Nat) : Bool :=
  let d := (a + 65536 - b % 65536) % 65536
  decide (1 ≤ d) && decide (d ≤ 32768)

/-- Replace element `i` of a list. -/
def setAt {α : Type} (l : List α) (i : Nat) (v : α) : List α :=
  match l, i with
  | [], _ => []
  | _ :: l', 0 => v :: l'
  | a :: l', i + 1 => a :: setAt l' i v

/-- Division rounding up. -/
def ceilDiv (a b : Nat) : Nat := (a + b - 1) / b

/-- Division rounding to nearest, halves up. -/
def roundDiv (a : Int) (b : Nat) : Int := (2 * a + b) / (2 * b)

end Sys2Proof.Machine
end

