-- ==== Sys2Proof/Machine/Crc.lean ====
section
/-! DEFINITION. The two check codes (R40, R102, R235): CRC-32C and CRC-32 over bytes, both in the reflected form with
all-ones initial value and final complement (PRESUMED from the codes' published definitions, log entry 10). -/

namespace Sys2Proof.Machine

/-- One bit of a reflected 32-bit code with generator `g`. -/
def crcBit (g c : BitVec 32) : BitVec 32 := if c.getLsbD 0 then (c >>> 1) ^^^ g else c >>> 1

/-- One byte. -/
def crcByte (g c : BitVec 32) (b : Byte) : BitVec 32 :=
  let c := c ^^^ b.setWidth 32
  crcBit g (crcBit g (crcBit g (crcBit g (crcBit g (crcBit g (crcBit g (crcBit g c)))))))

/-- The code of a string of bytes. -/
def crc (g : BitVec 32) (bs : Bytes) : BitVec 32 := ~~~ (bs.foldl (crcByte g) 0xFFFFFFFF)

/-- CRC-32C (Castagnoli). -/
def crc32c (bs : Bytes) : BitVec 32 := crc 0x82F63B78 bs

/-- CRC-32. -/
def crc32 (bs : Bytes) : BitVec 32 := crc 0xEDB88320 bs

/-- The bytes with `n` of them from offset `i` read as 0. -/
def blank (bs : Bytes) (i n : Nat) : Bytes := bs.take i ++ List.replicate n 0 ++ bs.drop (i + n)

end Sys2Proof.Machine
end

