-- ==== Sys2Proof/Machine/Errs.lean ====
section
/-! DEFINITION. The fault sources (R290): the block and sticky bit of each, and their default reactions, from the error
tables of R36, R59, R82, R100, R124, R147, R165, R188, R207, R222, R245, R257, R269, R289, R308 - R310, R320, R329, R344
and R357.  A pair is block window index and bit. -/

namespace Sys2Proof.Machine

/-- GLB.BLK_STICKY.SLOT_CRC. -/
def E.GLB_SLOT_CRC : Nat × Nat := (0, 0)
/-- GLB.BLK_STICKY.HDR_BAD. -/
def E.GLB_HDR_BAD : Nat × Nat := (0, 1)
/-- GLB.BLK_STICKY.FEED_CHANGE. -/
def E.GLB_FEED_CHANGE : Nat × Nat := (0, 2)
/-- GLB.BLK_STICKY.FEED_LOST. -/
def E.GLB_FEED_LOST : Nat × Nat := (0, 3)
/-- GLB.BLK_STICKY.LOCK_LOST. -/
def E.GLB_LOCK_LOST : Nat × Nat := (0, 4)
/-- GLB.BLK_STICKY.ECHO_STALE. -/
def E.GLB_ECHO_STALE : Nat × Nat := (0, 5)
/-- GLB.BLK_STICKY.INS_CONFLICT. -/
def E.GLB_INS_CONFLICT : Nat × Nat := (0, 6)
/-- GLB.BLK_STICKY.MASK_BUSY. -/
def E.GLB_MASK_BUSY : Nat × Nat := (0, 7)
/-- GLB.BLK_STICKY.PLAN_OVERRUN. -/
def E.GLB_PLAN_OVERRUN : Nat × Nat := (0, 8)
/-- GLB.BLK_STICKY.TAKE_LATE. -/
def E.GLB_TAKE_LATE : Nat × Nat := (0, 9)
/-- GLB.BLK_STICKY.BCAST_GAP. -/
def E.GLB_BCAST_GAP : Nat × Nat := (0, 10)
/-- GLB.BLK_STICKY.RETURN_FULL. -/
def E.GLB_RETURN_FULL : Nat × Nat := (0, 11)
/-- GLB.BLK_STICKY.STRAP_BAD. -/
def E.GLB_STRAP_BAD : Nat × Nat := (0, 12)
/-- GLB.BLK_STICKY.RECOVERY. -/
def E.GLB_RECOVERY : Nat × Nat := (0, 13)
/-- GLB.BLK_STICKY.ID_CHANGE. -/
def E.GLB_ID_CHANGE : Nat × Nat := (0, 14)
/-- CLK.BLK_STICKY.REF_LOSS. -/
def E.CLK_REF_LOSS : Nat × Nat := (1, 0)
/-- CLK.BLK_STICKY.FBCLK_LOSS. -/
def E.CLK_FBCLK_LOSS : Nat × Nat := (1, 1)
/-- CLK.BLK_STICKY.ROOT_UNLOCK. -/
def E.CLK_ROOT_UNLOCK : Nat × Nat := (1, 2)
/-- CLK.BLK_STICKY.MODE_REJECT. -/
def E.CLK_MODE_REJECT : Nat × Nat := (1, 3)
/-- CLK.BLK_STICKY.SEED_REJECT. -/
def E.CLK_SEED_REJECT : Nat × Nat := (1, 4)
/-- CLK.BLK_STICKY.PHASE_LOST. -/
def E.CLK_PHASE_LOST : Nat × Nat := (1, 5)
/-- STP.BLK_STICKY.STAND_REJECT. -/
def E.STP_STAND_REJECT : Nat × Nat := (2, 0)
/-- STP.BLK_STICKY.OVERLAY_REJECT. -/
def E.STP_OVERLAY_REJECT : Nat × Nat := (2, 1)
/-- STP.BLK_STICKY.COMMIT_ABORT. -/
def E.STP_COMMIT_ABORT : Nat × Nat := (2, 2)
/-- STP.BLK_STICKY.SHADOW_BUSY. -/
def E.STP_SHADOW_BUSY : Nat × Nat := (2, 3)
/-- STP.BLK_STICKY.EPOCH_MISMATCH. -/
def E.STP_EPOCH_MISMATCH : Nat × Nat := (2, 4)
/-- STP.BLK_STICKY.STEP_LATE. -/
def E.STP_STEP_LATE : Nat × Nat := (2, 5)
/-- STP.BLK_STICKY.BANK_ECC. -/
def E.STP_BANK_ECC : Nat × Nat := (2, 6)
/-- HQS.BLK_STICKY.DB_RANGE. -/
def E.HQS_DB_RANGE : Nat × Nat := (3, 0)
/-- HQS.BLK_STICKY.FETCH_ERR. -/
def E.HQS_FETCH_ERR : Nat × Nat := (3, 1)
/-- HQS.BLK_STICKY.CQ_FULL. -/
def E.HQS_CQ_FULL : Nat × Nat := (3, 2)
/-- HQS.BLK_STICKY.CQ_WRITE_ERR. -/
def E.HQS_CQ_WRITE_ERR : Nat × Nat := (3, 3)
/-- HQS.BLK_STICKY.EVT_OVERFLOW. -/
def E.HQS_EVT_OVERFLOW : Nat × Nat := (3, 4)
/-- HQS.BLK_STICKY.TILE_UNREACHABLE. -/
def E.HQS_TILE_UNREACHABLE : Nat × Nat := (3, 5)
/-- HQS.BLK_STICKY.DESC_ECC. -/
def E.HQS_DESC_ECC : Nat × Nat := (3, 6)
/-- TRL.BLK_STICKY.SIGNAL_LOSS. -/
def E.TRL_SIGNAL_LOSS (p : Nat) : Nat × Nat := (4 + p, 0)
/-- TRL.BLK_STICKY.LOCK_LOSS. -/
def E.TRL_LOCK_LOSS (p : Nat) : Nat × Nat := (4 + p, 1)
/-- TRL.BLK_STICKY.DESKEW_LOSS. -/
def E.TRL_DESKEW_LOSS (p : Nat) : Nat × Nat := (4 + p, 2)
/-- TRL.BLK_STICKY.HI_BER. -/
def E.TRL_HI_BER (p : Nat) : Nat × Nat := (4 + p, 3)
/-- TRL.BLK_STICKY.BRINGUP_FAIL. -/
def E.TRL_BRINGUP_FAIL (p : Nat) : Nat × Nat := (4 + p, 4)
/-- TRL.BLK_STICKY.CAP_REFUSED. -/
def E.TRL_CAP_REFUSED (p : Nat) : Nat × Nat := (4 + p, 5)
/-- TRL.BLK_STICKY.CAP_CRC. -/
def E.TRL_CAP_CRC (p : Nat) : Nat × Nat := (4 + p, 6)
/-- TRL.BLK_STICKY.PEER_SLEEP. -/
def E.TRL_PEER_SLEEP (p : Nat) : Nat × Nat := (4 + p, 7)
/-- TRL.BLK_STICKY.WAKE_IGNORED. -/
def E.TRL_WAKE_IGNORED (p : Nat) : Nat × Nat := (4 + p, 8)
/-- NET.BLK_STICKY.LINK_DOWN. -/
def E.NET_LINK_DOWN (p : Nat) : Nat × Nat := (8 + p, 0)
/-- NET.BLK_STICKY.FEC_UNCORR. -/
def E.NET_FEC_UNCORR (p : Nat) : Nat × Nat := (8 + p, 1)
/-- NET.BLK_STICKY.RX_OVF. -/
def E.NET_RX_OVF (p : Nat) : Nat × Nat := (8 + p, 2)
/-- NET.BLK_STICKY.FMT_ERR. -/
def E.NET_FMT_ERR (p : Nat) : Nat × Nat := (8 + p, 3)
/-- NET.BLK_STICKY.INTERLACED. -/
def E.NET_INTERLACED (p : Nat) : Nat × Nat := (8 + p, 4)
/-- NET.BLK_STICKY.MERGE_LATE. -/
def E.NET_MERGE_LATE (p : Nat) : Nat × Nat := (8 + p, 5)
/-- NET.BLK_STICKY.ALIGN_FAIL. -/
def E.NET_ALIGN_FAIL (p : Nat) : Nat × Nat := (8 + p, 6)
/-- NET.BLK_STICKY.HOST_DROP. -/
def E.NET_HOST_DROP (p : Nat) : Nat × Nat := (8 + p, 7)
/-- NET.BLK_STICKY.SACN_LOSS. -/
def E.NET_SACN_LOSS (p : Nat) : Nat × Nat := (8 + p, 8)
/-- NET.BLK_STICKY.SACN_CONFLICT. -/
def E.NET_SACN_CONFLICT (p : Nat) : Nat × Nat := (8 + p, 9)
/-- NET.BLK_STICKY.CUE_HELD. -/
def E.NET_CUE_HELD (p : Nat) : Nat × Nat := (8 + p, 10)
/-- NET.BLK_STICKY.PREVIEW_LATE. -/
def E.NET_PREVIEW_LATE (p : Nat) : Nat × Nat := (8 + p, 11)
/-- NET.BLK_STICKY.TX_LATE. -/
def E.NET_TX_LATE (p : Nat) : Nat × Nat := (8 + p, 12)
/-- PTP.BLK_STICKY.HOLDOVER. -/
def E.PTP_HOLDOVER : Nat × Nat := (10, 0)
/-- PTP.BLK_STICKY.STEPPED. -/
def E.PTP_STEPPED : Nat × Nat := (10, 1)
/-- PTP.BLK_STICKY.OFS_CLAMP. -/
def E.PTP_OFS_CLAMP : Nat × Nat := (10, 2)
/-- PTP.BLK_STICKY.OFS_STALE. -/
def E.PTP_OFS_STALE : Nat × Nat := (10, 3)
/-- PTP.BLK_STICKY.ADDEND_LIMIT. -/
def E.PTP_ADDEND_LIMIT : Nat × Nat := (10, 4)
/-- PTP.BLK_STICKY.TSQ_OVF. -/
def E.PTP_TSQ_OVF : Nat × Nat := (10, 5)
/-- PTP.BLK_STICKY.SET_REJECT. -/
def E.PTP_SET_REJECT : Nat × Nat := (10, 6)
/-- CNP.BLK_STICKY.GEN_MISMATCH. -/
def E.CNP_GEN_MISMATCH : Nat × Nat := (11, 0)
/-- CNP.BLK_STICKY.HOST_FETCH. -/
def E.CNP_HOST_FETCH : Nat × Nat := (11, 1)
/-- CNP.BLK_STICKY.NOT_READY. -/
def E.CNP_NOT_READY : Nat × Nat := (11, 2)
/-- CNP.BLK_STICKY.HOLD_EMPTY. -/
def E.CNP_HOLD_EMPTY : Nat × Nat := (11, 3)
/-- CNP.BLK_STICKY.COMPOSE_LATE. -/
def E.CNP_COMPOSE_LATE : Nat × Nat := (11, 4)
/-- CNP.BLK_STICKY.CHUNK_BAD. -/
def E.CNP_CHUNK_BAD : Nat × Nat := (11, 5)
/-- CNP.BLK_STICKY.AFTER_DL. -/
def E.CNP_AFTER_DL : Nat × Nat := (11, 6)
/-- CNP.BLK_STICKY.STORE_FULL. -/
def E.CNP_STORE_FULL : Nat × Nat := (11, 7)
/-- CNP.BLK_STICKY.UND_ECC. -/
def E.CNP_UND_ECC : Nat × Nat := (11, 8)
/-- CNP.BLK_STICKY.REL_WAIT. -/
def E.CNP_REL_WAIT : Nat × Nat := (11, 9)
/-- CNP.BLK_STICKY.STORE_ECC. -/
def E.CNP_STORE_ECC : Nat × Nat := (11, 10)
/-- CNP.BLK_STICKY.PREVIEW_DECIM. -/
def E.CNP_PREVIEW_DECIM : Nat × Nat := (11, 11)
/-- CNP.BLK_STICKY.GLADE_MISMATCH. -/
def E.CNP_GLADE_MISMATCH : Nat × Nat := (11, 16)
/-- CNP.BLK_STICKY.GLADE_ALERT. -/
def E.CNP_GLADE_ALERT : Nat × Nat := (11, 17)
/-- CNP.BLK_STICKY.GLADE_SUBST_LATE. -/
def E.CNP_GLADE_SUBST_LATE : Nat × Nat := (11, 18)
/-- CNP.BLK_STICKY.GLADE_UNARMED. -/
def E.CNP_GLADE_UNARMED : Nat × Nat := (11, 19)
/-- CNP.BLK_STICKY.SUB_ECC. -/
def E.CNP_SUB_ECC : Nat × Nat := (11, 20)
/-- CNP.BLK_STICKY.CONV_ECC. -/
def E.CNP_CONV_ECC : Nat × Nat := (11, 21)
/-- LCR.BLK_STICKY.ENTRY_FORMAT. -/
def E.LCR_ENTRY_FORMAT : Nat × Nat := (12, 0)
/-- LCR.BLK_STICKY.TABLE_ECC. -/
def E.LCR_TABLE_ECC : Nat × Nat := (12, 1)
/-- LCR.BLK_STICKY.DCT_ECC. -/
def E.LCR_DCT_ECC : Nat × Nat := (12, 2)
/-- LCR.BLK_STICKY.CODE_LATE. -/
def E.LCR_CODE_LATE : Nat × Nat := (12, 3)
/-- BRN.BLK_STICKY.READBACK. -/
def E.BRN_READBACK : Nat × Nat := (13, 0)
/-- BRN.BLK_STICKY.SCRIPT_OVERRUN. -/
def E.BRN_SCRIPT_OVERRUN : Nat × Nat := (13, 1)
/-- BRN.BLK_STICKY.UNDERRUN. -/
def E.BRN_UNDERRUN : Nat × Nat := (13, 2)
/-- BRN.BLK_STICKY.FB_ECC. -/
def E.BRN_FB_ECC : Nat × Nat := (13, 3)
/-- BRN.BLK_STICKY.MAP_ECC. -/
def E.BRN_MAP_ECC : Nat × Nat := (13, 4)
/-- BRN.BLK_STICKY.SCRIPT_ECC. -/
def E.BRN_SCRIPT_ECC : Nat × Nat := (13, 5)
/-- BRN.BLK_STICKY.CEN_FAULT. -/
def E.BRN_CEN_FAULT : Nat × Nat := (13, 6)
/-- PAT.BLK_STICKY.FSYNC_LOST. -/
def E.PAT_FSYNC_LOST : Nat × Nat := (14, 0)
/-- PAT.BLK_STICKY.FSYNC_EARLY. -/
def E.PAT_FSYNC_EARLY : Nat × Nat := (14, 1)
/-- PAT.BLK_STICKY.NIGHT_AUTO. -/
def E.PAT_NIGHT_AUTO : Nat × Nat := (14, 2)
/-- PAT.BLK_STICKY.PAT_ECC. -/
def E.PAT_PAT_ECC : Nat × Nat := (14, 3)
/-- AUD.BLK_STICKY.UNDERRUN. -/
def E.AUD_UNDERRUN : Nat × Nat := (15, 0)
/-- AUD.BLK_STICKY.LATE. -/
def E.AUD_LATE : Nat × Nat := (15, 1)
/-- AUD.BLK_STICKY.EARLY. -/
def E.AUD_EARLY : Nat × Nat := (15, 2)
/-- AUD.BLK_STICKY.ASRC_UNLOCK. -/
def E.AUD_ASRC_UNLOCK : Nat × Nat := (15, 3)
/-- AUD.BLK_STICKY.FBS_LOST. -/
def E.AUD_FBS_LOST : Nat × Nat := (15, 4)
/-- AUD.BLK_STICKY.STEP_RESYNC. -/
def E.AUD_STEP_RESYNC : Nat × Nat := (15, 5)
/-- AUD.BLK_STICKY.ZC_TIMEOUT. -/
def E.AUD_ZC_TIMEOUT : Nat × Nat := (15, 6)
/-- AUD.BLK_STICKY.SEED_REJECT. -/
def E.AUD_SEED_REJECT : Nat × Nat := (15, 7)
/-- AUD.BLK_STICKY.AUD_ECC. -/
def E.AUD_AUD_ECC : Nat × Nat := (15, 8)
/-- FBK.BLK_STICKY.RESIGNED. -/
def E.FBK_RESIGNED : Nat × Nat := (16, 0)
/-- FBK.BLK_STICKY.TOOK_OVER. -/
def E.FBK_TOOK_OVER : Nat × Nat := (16, 1)
/-- FBK.BLK_STICKY.SER_LOST. -/
def E.FBK_SER_LOST : Nat × Nat := (16, 2)
/-- FBK.BLK_STICKY.SER_CRC. -/
def E.FBK_SER_CRC : Nat × Nat := (16, 3)
/-- FBK.BLK_STICKY.DIVERGE. -/
def E.FBK_DIVERGE : Nat × Nat := (16, 4)
/-- FBK.BLK_STICKY.ACT_STUCK. -/
def E.FBK_ACT_STUCK : Nat × Nat := (16, 5)
/-- FBK.BLK_STICKY.CLAIM_RACE. -/
def E.FBK_CLAIM_RACE : Nat × Nat := (16, 6)
/-- FBK.BLK_STICKY.PATROL_FAIL. -/
def E.FBK_PATROL_FAIL : Nat × Nat := (16, 7)
/-- SUP.BLK_STICKY.DIP_WARN. -/
def E.SUP_DIP_WARN : Nat × Nat := (17, 0)
/-- SUP.BLK_STICKY.SUPPLY_RESET. -/
def E.SUP_SUPPLY_RESET : Nat × Nat := (17, 1)
/-- THM.BLK_STICKY.WARN. -/
def E.THM_WARN : Nat × Nat := (18, 0)
/-- THM.BLK_STICKY.THROTTLE. -/
def E.THM_THROTTLE : Nat × Nat := (18, 1)
/-- THM.BLK_STICKY.SHUTDOWN. -/
def E.THM_SHUTDOWN : Nat × Nat := (18, 2)
/-- THM.BLK_STICKY.SENSOR_FAULT. -/
def E.THM_SENSOR_FAULT : Nat × Nat := (18, 3)
/-- THM.BLK_STICKY.THR_DROP. -/
def E.THM_THR_DROP : Nat × Nat := (18, 4)
/-- TRM.BLK_STICKY.TRIM_REJECT. -/
def E.TRM_TRIM_REJECT : Nat × Nat := (19, 0)
/-- TRM.BLK_STICKY.STAGE_BUSY. -/
def E.TRM_STAGE_BUSY : Nat × Nat := (19, 1)
/-- TRM.BLK_STICKY.REPAIR_ECC. -/
def E.TRM_REPAIR_ECC : Nat × Nat := (19, 2)
/-- TRM.BLK_STICKY.BIST_FAIL. -/
def E.TRM_BIST_FAIL : Nat × Nat := (19, 3)
/-- SDB.BLK_STICKY.FALLBACK. -/
def E.SDB_FALLBACK : Nat × Nat := (20, 0)
/-- SDB.BLK_STICKY.BOOT_ALT. -/
def E.SDB_BOOT_ALT : Nat × Nat := (20, 1)
/-- SDB.BLK_STICKY.BOOTREC_BAD. -/
def E.SDB_BOOTREC_BAD : Nat × Nat := (20, 2)
/-- SDB.BLK_STICKY.SCRUB_UNCORR. -/
def E.SDB_SCRUB_UNCORR : Nat × Nat := (20, 3)
/-- SDB.BLK_STICKY.CTR_EXHAUSTED. -/
def E.SDB_CTR_EXHAUSTED : Nat × Nat := (20, 4)
/-- SDB.BLK_STICKY.IMAGE_REJECT. -/
def E.SDB_IMAGE_REJECT : Nat × Nat := (20, 5)
/-- WDG.BLK_STICKY.EXPIRED. -/
def E.WDG_EXPIRED : Nat × Nat := (21, 0)
/-- WDG.BLK_STICKY.PRE_EXPIRE. -/
def E.WDG_PRE_EXPIRE : Nat × Nat := (21, 1)
/-- WDG.BLK_STICKY.RESTART_LOOP. -/
def E.WDG_RESTART_LOOP : Nat × Nat := (21, 2)
/-- WDG.BLK_STICKY.BUSY. -/
def E.WDG_BUSY : Nat × Nat := (21, 3)
/-- WDG.BLK_STICKY.RESET_LIMIT. -/
def E.WDG_RESET_LIMIT : Nat × Nat := (21, 4)
/-- LMC.BLK_STICKY.UNCORR. -/
def E.LMC_UNCORR : Nat × Nat := (22, 0)

/-- The default reactions of a block's sources (R291): source and CODE, for every source the block defines. -/
def reactDefaults (b : Nat) : Map Nat :=
  match b with
  | 0 => [(0, 0), (1, 0), (2, 1), (3, 1), (4, 1), (5, 1), (6, 0), (7, 0), (8, 1), (9, 0), (10, 0), (11, 0), (12, 1), (13, 1), (14, 0)]
  | 1 => [(0, 1), (1, 1), (2, 3), (3, 0), (4, 1), (5, 1)]
  | 2 => [(0, 0), (1, 0), (2, 1), (3, 0), (4, 1), (5, 1), (6, 1)]
  | 3 => [(0, 0), (1, 1), (2, 1), (3, 1), (4, 0), (5, 1), (6, 1)]
  | 4 => [(0, 1), (1, 1), (2, 1), (3, 1), (4, 0), (5, 1), (6, 0), (7, 0), (8, 0)]
  | 5 => [(0, 1), (1, 1), (2, 1), (3, 1), (4, 0), (5, 1), (6, 0), (7, 0), (8, 0)]
  | 6 => [(0, 1), (1, 1), (2, 1), (3, 1), (4, 0), (5, 1), (6, 0), (7, 0), (8, 0)]
  | 7 => [(0, 1), (1, 1), (2, 1), (3, 1), (4, 0), (5, 1), (6, 0), (7, 0), (8, 0)]
  | 8 => [(0, 1), (1, 0), (2, 1), (3, 0), (4, 1), (5, 0), (6, 1), (7, 0), (8, 1), (9, 0), (10, 0), (11, 0), (12, 0)]
  | 9 => [(0, 1), (1, 0), (2, 1), (3, 0), (4, 1), (5, 0), (6, 1), (7, 0), (12, 0)]
  | 10 => [(0, 1), (1, 1), (2, 0), (3, 0), (4, 0), (5, 0), (6, 0)]
  | 11 => [(0, 1), (1, 1), (2, 0), (3, 0), (4, 1), (5, 0), (6, 0), (7, 1), (8, 1), (9, 0), (10, 1), (11, 0), (16, 0), (17, 1), (18, 1), (19, 1), (20, 1), (21, 1)]
  | 12 => [(0, 0), (1, 1), (2, 1), (3, 0)]
  | 13 => [(0, 1), (1, 1), (2, 1), (3, 1), (4, 1), (5, 1), (6, 1)]
  | 14 => [(0, 1), (1, 0), (2, 0), (3, 1)]
  | 15 => [(0, 0), (1, 0), (2, 0), (3, 1), (4, 1), (5, 1), (6, 0), (7, 1), (8, 1)]
  | 16 => [(0, 1), (1, 1), (2, 1), (3, 0), (4, 1), (5, 1), (6, 0), (7, 1)]
  | 17 => [(0, 1), (1, 0)]
  | 18 => [(0, 1), (1, 1), (2, 1), (3, 1), (4, 0)]
  | 19 => [(0, 0), (1, 0), (2, 1), (3, 1)]
  | 20 => [(0, 1), (1, 1), (2, 1), (3, 1), (4, 0), (5, 0)]
  | 21 => [(0, 1), (1, 1), (2, 1), (3, 1), (4, 0)]
  | 22 => [(0, 0)]
  | _ => []

end Sys2Proof.Machine
end

