-- ==== Sys2Proof/Machine/Parts.lean ====
section
/-! DEFINITION. The parts of the state that Power, Root Clock and Frame Timing, the Step Engine, the host queues, the
tile mailboxes and the Trail (chapters 02 to 06, 16 and 20 of spec/) give the machine.  Each field's comment names the
rule it comes from and its reset value. -/

namespace Sys2Proof.Machine

/-- What holds the device: PORn low (R346), a supply reset (R300), or nothing. -/
inductive PowerPhase where
  | porn | supply | run
  deriving DecidableEq, Repr

/-- The Ranger complex (R303, R304, R349): being started, running, or held in reset by the restart loop. -/
inductive RangerPhase where
  | starting | running | halted
  deriving DecidableEq, Repr

/-- Fused identity (R389, R343): die revision, unit ID, key hash and the counters of the Seedbank chapter. -/
structure Fuses where
  /-- Die revision; R90, R389; fused. -/
  dieRev : Byte
  /-- Unit ID; R90, R389; fused. -/
  unitId : BitVec 128
  /-- Key hash; R343; fused. -/
  keyHash : BitVec 256
  /-- Security counter; R343; fused. -/
  secCtr : Nat
  /-- Fuse raises spent; R343; fused. -/
  ctrRaises : Nat
  deriving DecidableEq, Repr

/-- Power, straps and Ranger. -/
structure Power where
  /-- What holds the device; R346, R300; run. -/
  phase : PowerPhase
  /-- The strap balls sampled at the release; R1, R348; all 0. -/
  straps : StrapBalls
  /-- CK_CORE, CK_PIX, CK_SCAN and CK_SYS run; R20; stopped until Root locks. -/
  clocks : Bool
  /-- Ranger; R303, R349; starting. -/
  ranger : RangerPhase
  /-- Shutdown flag held on VDD_AUX; R317; clear. -/
  shutFlag : Bool
  /-- SUP.LAST_RESET's flag held on VDD_AUX; R300; 0. -/
  lastReset : Nat
  /-- PCIe link up (PERST# deasserted); R346; up. -/
  pcie : Bool
  /-- FB_CLK is present at the input; R23; absent. -/
  fbclk : Bool
  /-- Rails below their warning level now (table order of R298); R299; none. -/
  dips : Nat
  /-- CK_CORE cycle at which Root entered holdover; R24, R25; none. -/
  holdAt : Option Nat
  /-- CK_CORE cycle from which ROOT_STAT.FREQ_OFS counts down in a head's slew towards REFCLK; R24; none. -/
  slewAt : Option Nat
  /-- The head forwards FB_CLK; R23; no. -/
  fbclkOut : Bool
  deriving DecidableEq, Repr

/-- A frame start the head has fixed (R29), its target in schedule ticks, with the L and D_ring_max latched then
(R55). -/
structure FixedStart where
  tgt : Nat
  cycle : Nat
  num : Word
  lead : Nat
  dring : Nat
  deriving DecidableEq, Repr

/-- A reseed that waits for the next frame start not yet fixed (R34): start in schedule ticks and its number. -/
structure Reseed where
  tgt : Nat
  num : Word
  deriving DecidableEq, Repr

/-- Frame schedule and frame in progress (R28 - R31). -/
structure Frames where
  /-- Target time T of the next boundary, in 1/576 ns; R28; 0. -/
  tgt : Nat
  /-- Refresh sub-frame index of the next boundary (0 is a frame start); R28; 0. -/
  k : Nat
  /-- Number of the next frame start; R28; 0. -/
  next : Word
  /-- The fixed frame start, from R29 until it comes; none. -/
  fixed : Option FixedStart
  /-- Accepted reseed not yet reached; R34; none. -/
  reseed : Option Reseed
  /-- CK_CORE cycle at which the frame in progress started; R30, R31; 0. -/
  start : Nat
  /-- A frame has started since the schedule began; R30; no. -/
  begun : Bool
  /-- PHASE_LOST's condition: boundaries are counted in Root cycles at nominal P; R30; no. -/
  lost : Bool
  /-- Frame starts since `lostAt` in that condition; R30; 0. -/
  lostN : Nat
  /-- The frame start from which nominal P is counted; R30; 0. -/
  lostAt : Nat
  /-- C, by which a tile lays out the frame in progress, in CK_CORE cycles; R31; 0. -/
  len : Nat
  /-- The next frame to start is the first after frame lock was gained, so its C is nominal; R31; no. -/
  nominal : Bool
  /-- A frame start has been announced since the tile gained a feeder; R123; no. -/
  told : Bool
  /-- Sub-frame in progress on a tile; R31; 0. -/
  sub : Nat
  /-- The latch scheduled on a tile: cycle and frame number; R122; none. -/
  latch : Option (Nat × Word)
  /-- The port whose marker scheduled that latch; R118, R122; 0. -/
  latchBy : Nat
  /-- The frame now in progress took the tile out of lock by R121's first rule; no. -/
  jumped : Bool
  deriving DecidableEq, Repr

/-- One section of a loaded Stand (R41). -/
structure Sect where
  typ : Nat
  patch : Bool
  off : Nat
  len : Nat
  items : Nat
  deriving DecidableEq, Repr

/-- A Stand in one of the 8 indexes (R40). -/
structure Stand where
  base : Nat
  id : Word
  mode : Byte
  total : Nat
  sects : List Sect
  deriving DecidableEq, Repr

/-- A record of an overlay (R45). -/
structure OvlRec where
  sect : Nat
  off : Nat
  mask : Word
  val : Word
  deriving DecidableEq, Repr

/-- An overlay in the overlay store (R45, R58). -/
structure Overlay where
  stand : Word
  recs : List OvlRec
  deriving DecidableEq, Repr

/-- One PATCH section of a working image (R42, R46). -/
structure ImgSect where
  typ : Nat
  len : Nat
  items : Nat
  cells : Store
  deriving DecidableEq, Repr

/-- A bank item with one value for every tile and own values for some (R50): on a tile only `all` is used. -/
structure PerTile where
  all : Bytes
  each : Map Bytes
  deriving DecidableEq, Repr

/-- One bank (R37). -/
structure Bank where
  /-- Selected Stand index; R37, R58; none. -/
  stand : Option Nat
  /-- Overlay set; R37; 0. -/
  ovl : BitVec 64
  /-- Layer-table section, 34,816 bytes; R37, R171; all 0. -/
  layers : Store
  /-- Buffer items, by 64 * KIND + SOURCE: the SHADOW_BUFFER operand bytes; R37, R183; none. -/
  bufs : Map Bytes
  /-- Understory item; R50, R183; all 0. -/
  under : PerTile
  /-- Table pointers (SHADOW_TABLES operand bytes 0-39); R37, R217; all 0. -/
  ptrs : PerTile
  /-- Glade records, 16 of 32 bytes; R37, R199; all 0. -/
  glades : Store
  /-- Glade tile entries, by 512 * glade + tile (tile 511 the tile's own); R37, R199; none. -/
  gladeT : Map Bytes
  /-- Pattern engines, 8 of 48 bytes (P0-P15, then the region); R37, R252; all 0. -/
  pats : Store
  /-- PH_ENTER and PH_EXIT, 8 bytes; R252; 0. -/
  hold : Store
  /-- Master dimmer M; R216; 0xFFFF. -/
  dimM : Nat
  /-- Brightness code K; R216; 0xFFFF. -/
  dimK : Nat
  /-- RWS fields, by register key, that differ from the values in force; R385; none. -/
  rws : Map Nat
  /-- Working image; R42, R46; none. -/
  img : List ImgSect
  deriving DecidableEq, Repr

/-- Where a COMMIT came from: a descriptor, the sACN commit of R139, or a cue of R140. -/
inductive CommitSrc where
  | host | mailbox | sacn | cue (v : Nat)
  deriving DecidableEq, Repr

/-- A commit as the commit engine holds it (R48 - R57). -/
structure Commit where
  src : CommitSrc
  desc : Desc
  asap : Bool
  loc : Bool
  target : Word
  nakAddr : Nat
  nakMax : Nat
  /-- Its commit ID once prepared. -/
  id : BitVec 16
  /-- 0 queued, 1 preparing, 2 awaiting ACKs, 3 decided. -/
  phase : Nat
  /-- CK_CORE cycle at which the last prepare slot was sent (R51). -/
  sentAt : Nat
  /-- Tiles required when the prepare began (R48). -/
  required : List Nat
  acks : List Nat
  /-- NAKs a standby head has received: tile and reason (R283). -/
  naks : List (Nat × Nat)
  postp : Nat
  /-- The frame decided. -/
  frame : Word
  deriving DecidableEq, Repr

/-- The tile's staging of a prepare (R49). -/
structure Staged where
  id : BitVec 16
  bank : Bank
  /-- An apply decision received: target frame, and the CK_CORE cycle at which it arrived (R54). -/
  apply : Option (Word × Nat)
  deriving DecidableEq, Repr

/-- The walk of the step table in the frame in progress (R43). -/
structure Stepping where
  /-- CK_CORE cycles of the frame's sub-frame boundaries so far, from the frame latch; R43; none. -/
  subAt : List Nat
  /-- CK_CORE cycle at which each band of the frame was composed; R43; none. -/
  bandAt : Map Nat
  /-- CK_CORE cycle at which the frame's composition pass delivered its first value; R213; none. -/
  valueAt : Option Nat
  /-- CK_CORE cycle at which an entry's unit reported done, by entry; R43; none. -/
  doneAt : Map Nat
  /-- Sub-frames for which an entry of every sub-frame has been dispatched, by entry; R43; 0. -/
  ran : Map Nat
  /-- CK_CORE cycle of the last dispatch; R43; none. -/
  lastAt : Option Nat
  /-- Entries that have come due and wait for their unit; R44; none. -/
  late : List Nat
  deriving DecidableEq, Repr

/-- The Step Engine (R37 - R58). -/
structure Step where
  /-- Stands, by index; R40; none. -/
  stands : Map Stand
  /-- Overlay store, by number; R58; none. -/
  ovls : Map Overlay
  /-- Overlay numbers marked failed; R58; none. -/
  ovlFailed : BitVec 64
  /-- Active bank; R37. -/
  active : Bank
  /-- Shadow bank; R37. -/
  shadow : Bank
  /-- Retiring bank; R38; none. -/
  retiring : Option Bank
  /-- The shadow bank holds a host edit since the last commit or SHADOW_REVERT; R139; no. -/
  hostEdit : Bool
  /-- Tile items written since the last commit: ITEM, TILE and INDEX of the prepare record; R50; none. -/
  dirty : List (Nat × Nat × Nat)
  /-- Local items the shadow changes; R57; no. -/
  dirtyLocal : Bool
  /-- Commits waiting and in flight, first the one in flight; R49; none. -/
  commits : List Commit
  /-- Next commit ID; R49; 1. -/
  nextId : BitVec 16
  /-- Commit field of the markers: COMMIT_ID, STATE, TARGET; R54; 0. -/
  fieldId : BitVec 16
  fieldState : Nat
  fieldTarget : Word
  /-- The last commit finished: ID, PHASE 4 or 5, postponements, TARGET; R58; idle. -/
  lastCommit : Option (BitVec 16 × Nat × Nat × Word)
  /-- Entries armed this frame and not yet dispatched, by index; R43; none. -/
  armed : List Nat
  /-- The walk of the step table; R43. -/
  walk : Stepping
  /-- The bank that was active in the frame before; R59; empty. -/
  prev : Bank
  /-- An uncorrectable read of the active working image awaits the unit started next; R59; no. -/
  imgBad : Bool
  /-- Tile: staging; R49; none. -/
  staged : Option Staged
  /-- Tile: complete prepare content waiting for validation: commit ID and the content; R50; none. -/
  prepIn : Option (BitVec 16 × Bytes)
  /-- Tile: complete layer-table content by commit ID; R50, R106; none. -/
  layerIn : Option (BitVec 16 × Bytes)
  /-- Head: the exclude list in effect since the last Cutoff, a bit for each tile; R51; none. -/
  excl : BitVec 512
  deriving DecidableEq, Repr

/-- A submission queue (R63, R69, R75). -/
structure Sq where
  base : Nat
  depth : Nat
  cq : Nat
  prio : Nat
  mailbox : Bool
  burst : Nat
  head : Nat
  tail : Nat
  halted : Bool
  deriving DecidableEq, Repr

/-- A completion queue (R63, R66, R73, R75). -/
structure Cq where
  base : Nat
  depth : Nat
  headAddr : Nat
  vector : Nat
  irqEn : Bool
  coalCount : Nat
  coalTime : Nat
  tail : Nat
  phase : Bool
  head : Nat
  halted : Bool
  /-- Completions posted since the last message, and the CK_CORE cycle of the first (R73). -/
  unsig : Nat
  unsigAt : Nat
  deriving DecidableEq, Repr

/-- What a finished descriptor's completion carries (R71). -/
structure Done where
  status : Nat
  result : BitVec 64
  frame : Word
  time : Word
  fromTile : Option Nat
  deriving DecidableEq, Repr

/-- A fetched descriptor on its way to its completion (R68). -/
structure Flight where
  sq : Nat
  sqHead : BitVec 16
  op : Nat
  flags : Byte
  tag : Word
  ops : BitVec 384
  /-- The completion queue its SQ was bound to when it was fetched (R63). -/
  cq : Nat
  /-- Ranger holds it (R74). -/
  ranger : Bool
  /-- It has started and runs to completion even if its SQ is deleted (R75). -/
  started : Bool
  done : Option Done
  /-- CK_CORE cycle at which it was fetched (R255). -/
  at0 : Nat
  deriving DecidableEq, Repr

/-- A quiesce window (R293): the block reset, the mask of the blocks it covers, and the CK_CORE cycle of the reset. -/
structure Window where
  block : Nat
  mask : Nat
  start : Nat
  deriving DecidableEq, Repr

/-- A descriptor the digest chain waits for (R284): its queue and head index, its 64 bytes, and once it has completed
whether it counts. -/
structure ChainItem where
  sq : Nat
  sqHead : BitVec 16
  bytes : Bytes
  counts : Option Bool
  deriving DecidableEq, Repr

/-- Host queues (R60 - R75, R393). -/
structure Queues where
  /-- Created submission queues; R63; SQ 0. -/
  sqs : Map Sq
  /-- Created completion queues; R63; CQ 0. -/
  cqs : Map Cq
  /-- Fetched descriptors whose completion is not posted, oldest first; R68; none. -/
  flights : List Flight
  /-- Queue served last and descriptors left of its burst, by priority; R69; none. -/
  serving : Map (Nat × Nat)
  /-- Event entries of cue commits waiting to be posted: CQ and the 32 bytes without PHASE; R140; none. -/
  events : List (Nat × Bytes)
  /-- SQ_DELETEs that wait for started descriptors of their queue; R75; none. -/
  deleting : List (Nat × Desc)
  /-- State descriptors in fetch order that are not in the digest chain yet; R284; none. -/
  chain : List ChainItem
  /-- Held _LO writes, by offset; R382; none. -/
  loHeld : Map Word
  /-- Captured _HI values, by offset of _HI; R382; none. -/
  hiCap : Map Word
  /-- Words of BAR2's MSI-X table that differ from their reset values, by word; R60, R62; address and data 0, vectors masked. -/
  msixTab : Map Nat
  /-- MSI-X pending-bit array; R60, R62; none. -/
  msixPend : List Nat
  deriving DecidableEq, Repr

/-- A tile's class-3 link as the head keeps it (R79). -/
structure MbxLink where
  /-- SEQ of the next slot. -/
  seq : BitVec 16
  /-- Unacknowledged slots, oldest first: SEQ and payload. -/
  unacked : List (BitVec 16 × Bytes)
  /-- Slots waiting for the window. -/
  waiting : List Bytes
  /-- Trail cycle count (CK_CORE cycle) of the last ACK progress or retransmission. -/
  since : Nat
  retx : Nat
  unreachable : Bool
  /-- A MBX_RESYNC waits for the acknowledgement of SEQ 0. -/
  resync : Option Desc
  /-- Index of the next descriptor in the tile's mailbox ring, and descriptors whose completions are out, by their index. -/
  ring : Nat
  out : List (Nat × Desc)
  /-- TILE_REG_READ and TILE_REG_WRITE awaiting REG_REPLY: SEQ and descriptor. -/
  regs : List (BitVec 16 × Desc)
  /-- TILE_READ awaiting READ_DATA: descriptor, next tile address, bytes left. -/
  reads : List (Desc × Nat × Nat)
  /-- TILE_WRITE awaiting acknowledgement: the last SEQ and the descriptor. -/
  writes : List (BitVec 16 × Desc)
  deriving DecidableEq, Repr

/-- A return slot a tile has built (R114, R115): RSEQ, class 5 or 7, FRAME_LO, payload, ports it is still owed on. -/
structure RetSlot where
  rseq : BitVec 16
  cls : Nat
  frameLo : Byte
  payload : Bytes
  owed : List Nat
  deriving DecidableEq, Repr

/-- An open or closed broadcast of one STREAM on a tile (R104, R105). -/
structure Bcast where
  bid : BitVec 16
  total : Nat
  /-- Slots held, by BSEQ. -/
  slots : Map Bytes
  /-- CK_CORE cycle of the last new slot. -/
  last : Nat
  opened : Bool
  deriving DecidableEq, Repr

/-- A tile's view of the feed on one of its ports (R117, R121, R122). -/
structure Feed where
  /-- Received slot cycles whose FEEDER KIND is 0, 1 or 2; R117; none. -/
  headFed : Bool
  /-- Consecutive markers missing; R117; 0. -/
  missing : Nat
  /-- The feed stopped being live and must hold; R117; no. -/
  dropped : Bool
  /-- Trail cycles it has been live since; R117; 0. -/
  liveFor : Nat
  /-- CK_CORE cycle of the arrival of the last good marker, or of the due position of the last counted missing; R107. -/
  arr : Nat
  /-- CYCLE of that marker; R107; 0. -/
  cycle : Word
  /-- ACTIVE of the last good marker; R117; no. -/
  active : Bool
  /-- FEEDER of the last good marker; R107; 0. -/
  feeder : Nat
  /-- The last good marker's bytes 64-251 of this feed; R107; none. -/
  fields : Bytes
  /-- Latest D_LAST with D_VALID, and the CK_CORE cycle of its REQ; R121; none. -/
  dLast : Option (Nat × Nat)
  /-- A D has been applied; R121; no. -/
  dApplied : Bool
  deriving DecidableEq, Repr

/-- A source chunk queued for a port (R102, R110): the CK_CORE cycle of queueing, class 1 or 2, SOURCE, LINE, CHUNK, LAST,
FRAME_LO and its LEN bytes. -/
structure QChunk where
  since : Nat
  cls : Nat
  source : Nat
  line : Nat
  chunk : Nat
  last : Bool
  frameLo : Nat
  bytes : Bytes
  deriving DecidableEq, Repr

/-- A class-4 slot queued for a port (R102, R106). -/
structure QBcast where
  since : Nat
  stream : Nat
  bid : Nat
  bseq : Nat
  total : Nat
  payload : Bytes
  deriving DecidableEq, Repr

/-- A head's REQ that is out (R120): ESEQ, the tile and LAUNCH as the CK_CORE count. -/
structure EchoReq where
  eseq : Nat
  tile : Nat
  launch : Nat
  deriving DecidableEq, Repr

/-- A tile's RSP that waits for an empty slot (R120): port, ESEQ, the copied LAUNCH and FEEDER, and the CK_CORE cycle of
the REQ at the receive reference. -/
structure EchoRspWait where
  port : Nat
  eseq : Nat
  launch : Nat
  feeder : Nat
  since : Nat
  deriving DecidableEq, Repr

/-- The settings a port took at its last entry to Detect or Train (R100). -/
structure PortCfg where
  /-- TRAIN_CFG.TIME, FAST, LOCK_TO and CAP_TO; R100; 96, 16, 8, 64. -/
  time : Nat
  fast : Nat
  lockTo : Nat
  capTo : Nat
  /-- DET_CFG.INTERVAL; R100; 96. -/
  interval : Nat
  /-- BER_CFG.THRESH and CYCLES; R100; 16, 4. -/
  thresh : Nat
  berCycles : Nat
  /-- TXEQ0 - TXEQ7 as words; R100; PRE 2, MAIN 26, POST 4. -/
  txeq : List Nat
  deriving DecidableEq, Repr

/-- What a receive lane keeps from block to block (R84, R87). -/
structure LaneRx where
  /-- The last 58 payload bits received, the latest in bit 0; none until a block has filled them; R84; none. -/
  scr : Option (BitVec 58)
  /-- XOR of the payload bytes since the last marker, none before a first marker; R87; none. -/
  bip : Option Byte
  deriving DecidableEq, Repr

/-- One Trail port (R89 - R100, R110, R120). -/
structure Port where
  /-- Stored adaptation from a Train; R89; none. -/
  adapted : Bool
  /-- This Train uses the Dormant-exit time; R98; no. -/
  fast : Bool
  /-- CK_CORE cycle at which the state was entered or its count restarted; R89; 0. -/
  since : Nat
  /-- PRBS31 recognised in this Train; R89; no. -/
  seenPrbs : Bool
  /-- Trail cycle number at the transmitter and the CK_CORE cycle of its start; R107; 0. -/
  cycle : Word
  cycleAt : Nat
  /-- Head: the first slot of the cycle in progress that is not filled yet; R110; 1. -/
  slotAt : Nat
  /-- A Dormant port is waking: its burst goes out and its PLL relocks; R98; no. -/
  sleeping : Bool
  /-- The settings in effect; R100; the reset values. -/
  cfg : PortCfg
  /-- Terminations sensed for in this Detect; R89; 0. -/
  senses : Nat
  /-- The eight physical receive lanes; R84, R87; none. -/
  rx : List LaneRx
  /-- The markers' positions by physical lane at deskew, from the earliest; R89, R95; none. -/
  offs : List Nat
  /-- Consecutive Trail cycles with BER_CFG.THRESH invalid headers or more; R95; 0. -/
  berRun : Nat
  /-- CK_CORE cycle since which the port sends PEER_SEEN = 1 and READY = 1; R93; none. -/
  readySince : Option Nat
  /-- CK_CORE cycle and cause of the last exit under R95; R96; none. -/
  left : Option (Nat × Nat)
  /-- The port ends for Dormant with its Trail cycle: by CTRL.DORMANT, or not (a SLEEP on the tile's other port); R97; none. -/
  closing : Option Bool
  /-- Head: plan set in force in the Trail cycle in progress; R109; 0. -/
  plan : Nat
  /-- Head: chunks queued, oldest first; R110; none. -/
  pool : List QChunk
  /-- Head: unicast queue: the CK_CORE cycle of queueing, the tile and the class-3 payload; R110; none. -/
  uni : List (Nat × Nat × Bytes)
  /-- Head: broadcast queue; R110; none. -/
  bc : List QBcast
  /-- Head: REQs out; R120; none. -/
  echo : List EchoReq
  /-- Head: next ESEQ and the tile last addressed; R120; 0. -/
  eseq : BitVec 16
  echoTile : Nat
  /-- Head: latest D by tile; R120; none. -/
  dTile : Map Nat
  /-- Head: CK_CORE cycle of the last copy from each tile of the roster; R355; none. -/
  heard : Map Nat
  /-- Tile: the feed received; R117. -/
  feed : Feed
  deriving DecidableEq, Repr

/-- Trail state common to the ports (R103 - R119). -/
structure Trail where
  /-- TRL0 - TRL3; R89. -/
  ports : List Port
  /-- Head: plan set in force at the next Trail cycle; R109; 0. -/
  planNext : Nat
  /-- Head: EPOCH_AT of a pending announcement; R116; none. -/
  epochAt : Option Word
  /-- Head: BIDs of STREAM 3 and 4; R106; 0. -/
  bid : BitVec 16
  /-- Head: broadcasts kept for retransmission: STREAM, BID and slot payloads; R105; none. -/
  sent : List (Nat × Nat × List Bytes)
  /-- Head: a descriptor that completes when its broadcast's last slot is sent: STREAM, BID, descriptor; R58; none. -/
  sentDesc : List (Nat × Nat × Desc)
  /-- Head: RSEQs taken, by tile; R115; none. -/
  rseq : Map (List Nat)
  /-- Head: BCAST_GAP requests served: port, tile, 64 * RSEQ + place; R105; none. -/
  gaps : List (Nat × Nat × Nat)
  /-- Head: class-3 links, by tile; R79; none. -/
  links : Map MbxLink
  /-- Head: the current LOCK_REPORT of each tile; R115; none. -/
  locks : Map Bytes
  /-- Tile: chunks held: FRAME_LO, SOURCE, LINE, CHUNK; R104; none. -/
  chunks : List (Nat × Nat × Nat × Nat)
  /-- Tile: broadcasts by STREAM; R104; none. -/
  bcasts : Map Bcast
  /-- Tile: expected class-3 SEQ, none until a RESYNC; R79; none. -/
  expect : Option (BitVec 16)
  /-- Tile: a class-3 slot was received this Trail cycle; R79; no. -/
  ackDue : Bool
  /-- Tile: next descriptor of the mailbox ring, and next completion entry; R78; 0. -/
  mbxHead : Nat
  mbxPost : Nat
  /-- Tile: descriptors fetched from the mailbox ring whose completions have not been posted, in ring order; R76, R78; none. -/
  mbxFly : List Flight
  /-- Tile: next RSEQ; R114; 0. -/
  rseqNext : BitVec 16
  /-- Tile: latest values pending: COMMIT_REPLY, MBX_ACK, BCAST_GAP, LOCK_REPORT; R115; none. -/
  pendReply : Option Bytes
  pendAck : Option Bytes
  pendGap : Option Bytes
  pendLock : Option Bytes
  /-- Tile: other class-5 messages in the order produced; R115; none. -/
  msgs : List Bytes
  /-- Tile: COMPLETION and READ_DATA messages that wait while 64 built slots wait; R115; none. -/
  paused : List Bytes
  /-- Tile: class-7 payloads waiting: FRAME_LO and payload; R115, R144; none. -/
  previews : List (Byte × Bytes)
  /-- Tile: built return slots, oldest first; R115; none. -/
  built : List RetSlot
  /-- Tile: blocks that have sent an EVENT this Trail cycle, and blocks with one waiting; R81; none. -/
  evSent : Nat
  evWait : Nat
  /-- Tile: echo RSPs waiting for an empty slot; R120; none. -/
  rsps : List EchoRspWait
  /-- Tile: the feeder change that waits for the new feeder's marker; R118; none. -/
  prefNext : Option Nat
  /-- Tile: a TILE_ID, or a write that ends the Trail path, that waits for its REG_REPLY to be sent; R354, R386. -/
  afterReply : List (Nat × Word)
  /-- Tile: Trail cycles since the last LOCK_REPORT without a D; R355; 0. -/
  lockAge : Nat
  deriving DecidableEq, Repr

end Sys2Proof.Machine
end

