-- ==== Sys2Proof/Machine/PartsAudio.lean ====
section
/-! DEFINITION. The part of the state that Audio Ports, Clocks and Alignment (chapter 14 of spec/) gives the machine. -/

namespace Sys2Proof.Machine

/-- One side of an audio port (R261, R262). -/
structure AudSide where
  /-- Bytes 2-3 of PORT_SET; 0 (off). -/
  cfg : Nat
  /-- It sends zeros until the next block boundary; no. -/
  restart : Bool
  /-- A slave side's converter is locked; no. -/
  locked : Bool
  /-- Samples left of the fade-in after a relock; 0. -/
  fade : Nat
  deriving DecidableEq, Repr

/-- How a side's frames look at its pins (R261): slots of 32 bits in a frame, the bit clock in Hz, BCLK periods from the edge of FS to
the first bit of slot 0, periods for which FS stands at its level of slot 0 and that level, whether data changes as BCLK falls, and
whether the side drives BCLK and FS. -/
structure AudFrame where
  slots : Nat
  bclk : Nat
  delay : Nat
  fsLen : Nat
  fsHigh : Bool
  onFall : Bool
  master : Bool
  deriving DecidableEq, Repr

/-- A pending silent change of a channel (R266): the source (valid, source, group), gain and mute it sets, the CK_CORE cycle
its timeout counts from, its descriptor, and its stage: 0 waiting, 1 the old source ramps down, 2 waiting to unmute the new
source, 3 the last ramp, 4 over. -/
structure AudChange where
  src : Option (Bool × Nat × Nat)
  gain : Option Nat
  mute : Option Bool
  since : Nat
  desc : Desc
  stage : Nat
  ramped : Bool
  deriving DecidableEq, Repr

/-- A transmit channel's route, or a transmit flow channel's capture (R263, R264). -/
structure AudRoute where
  valid : Bool
  /-- Source: 64 * STREAM + CHAN for a route, 16 * PORT + SLOT for a capture. -/
  src : Nat
  group : Nat
  gain : Nat
  mute : Bool
  change : Option AudChange
  /-- Its part in a GROUP_SET (R263): 0 none, 1 waiting to mute, 2 ramping down, 3 muted, 4 waiting to unmute, 5 ramping up;
  and the CK_CORE cycle its timeout counts from. -/
  gstage : Nat
  gsince : Nat
  /-- In underrun; R265. -/
  under : Bool
  /-- Samples left of the fall after an underrun begins, the sample it falls from, and samples left of the fade-in; R265. -/
  fall : Nat
  hold : Int
  rise : Nat
  /-- Samples left of a ramp, and the gain it starts from; R266. -/
  ramp : Nat
  oldGain : Nat
  /-- Input samples of the block in progress. -/
  input : List Int
  /-- Last input sample and last output sample. -/
  prev : Int
  last : Int
  deriving DecidableEq, Repr

/-- Audio (R258 - R267). -/
structure Audio where
  /-- Target time of the next block boundary, in thirds of a ns modulo 2^32 ns, and its sample number; R259; 0. -/
  tgt : Nat
  num : Word
  /-- A block is in progress, and the samples of it already played; R259; no. -/
  playing : Bool
  pos : Nat
  /-- Sides, by 2 * PORT + SIDE; R261; off. -/
  sides : Map AudSide
  /-- Streams, by number: STREAM_SET operand bytes 1-3; R263; off. -/
  streams : Map Nat
  /-- Routes, by 16 * PORT + SLOT; R263; none. -/
  routes : Map AudRoute
  /-- Captures, by 64 * FLOW + channel; R264; none. -/
  captures : Map AudRoute
  /-- TXAUD_SET operand bytes 1-2, by flow; R264; none. -/
  txaud : Map Nat
  /-- First sample number of the flow's next packet; R264; none. -/
  nextPkt : Map Nat
  /-- Delays of the groups, in samples; R263; 0. -/
  groups : Map Nat
  /-- GROUP_SETs under way: group, delay, descriptor, and whether the delay has changed; R263; none. -/
  regroup : List (Nat × Nat × Desc × Bool)
  /-- Sample numbers the rings hold, by 65536 * channel + position; R263; none. -/
  held : Map Word
  /-- Captured samples of each flow channel, the last one the newest, by 64 * FLOW + channel; R264; none. -/
  packs : Map (List Int)
  /-- A schedule jump that waits for the next block boundary, in ns; R259; none. -/
  jump : Option Int
  /-- Every transmit side sends zeros in the block in progress; R259; no. -/
  silent : Bool
  /-- What a small counter step leaves between the schedule and the counter, in thirds of a ns, slewed away; R259; 0. -/
  slew : Int
  /-- CK_CORE cycle of the last FB_START pulse seen, or from which one is awaited; R260; none. -/
  pulse : Option Nat
  deriving DecidableEq, Repr

end Sys2Proof.Machine
end

