-- ==== Sys2Proof/Machine/PartsCanopy.lean ====
section
/-! DEFINITION. The parts of the state that the Canopy, the Glades, lamp correction, the branch engine and the hold states
(chapters 09 to 13 of spec/) give the machine.  Each field's comment names the rule it comes from and its reset value. -/

namespace Sys2Proof.Machine

/-- One envelope line of the source store (R176, R177, R180). -/
structure Line where
  /-- Frame whose chunks the FILL copy holds, and its chunks by CHUNK. -/
  fill : Option Word
  fillC : Map Bytes
  /-- Frame of the HELD copy, and its chunks. -/
  held : Option Word
  heldC : Map Bytes
  /-- The latest frame all of whose judgments that cover the line have been made. -/
  judged : Option Word
  /-- Judgments made so far for later frames: frame, bands, and whether each found the source ready. -/
  marks : List (Word × List Nat × Bool)
  deriving DecidableEq, Repr

/-- A word that could not be read while a band was composed: of the source store, by source, line and 8-byte word of the line (R188),
or of Canopy SRAM, in a conversion block or a point of a LUT (R207). -/
inductive CanopyEcc where
  | store (source line word : Nat)
  | conv (block : Nat)
  | lut (k point : Nat)
  deriving DecidableEq, Repr

/-- A judged band of a pass (R178, R179): the outcome of each layer, and the source lines it is composed from, by
8192 * SOURCE + LINE. -/
structure BandJ where
  /-- Outcome of L0 - L7: 0 off, 1 ready, 2 held, 3 cleared. -/
  outs : List Nat
  lines : Map (Map Bytes)
  composed : Bool
  /-- Composed working values, by lamp, and drive-tap values, by emitter, until the pass ends; R196, R201. -/
  vals : Map Nat
  taps : Map Nat
  /-- Words found uncorrectable while it was composed; R188, R207; none. -/
  eccs : List CanopyEcc
  deriving DecidableEq, Repr

/-- A frame whose composition has been armed and is not finished (R178, R181); in Frame mode band 0 is the whole grid. -/
structure Pass where
  frame : Word
  /-- CK_CORE cycle of FS(F). -/
  fs : Nat
  rolling : Bool
  /-- The bank it reads, with the FB_BASE in force (R37, R38, R59). -/
  bank : Bank
  /-- That bank is retiring (R38). -/
  old : Bool
  /-- PWM scale of the frame; R214. -/
  scale : Nat
  /-- Bands judged, by band; R178. -/
  bands : Map BandJ
  /-- Bands abandoned; R181. -/
  lost : List Nat
  /-- Glades armed, Glades with a verdict, and Glades whose substitution is still to be written; R202, R203. -/
  armed : Nat
  verdicts : Nat
  subst : Nat
  /-- Glades whose substitution has been written. -/
  subd : Nat
  /-- Glades latched under its bank, once that bank retires; R204. -/
  latched : Nat
  /-- Glades whose lamps the rows of each band meet, by band; R205. -/
  meets : List Nat
  deriving DecidableEq, Repr

/-- The confidence preview that a head composes (R143, R187). -/
structure Preview where
  frame : Word
  bank : Bank
  /-- Outcome of L0 - L7, as BandJ. -/
  outs : List Nat
  /-- The buffer each source is read from, by source: Local Memory address of line 0. -/
  src : Map Nat
  /-- Words found uncorrectable meanwhile; R207; none. -/
  eccs : List CanopyEcc
  deriving DecidableEq, Repr

/-- An open host-buffer reference (R186): the buffer item of a bank names it by its number. -/
structure BufRef where
  id : Nat
  source : Nat
  addr : Nat
  gen : Nat
  rtag : Nat
  /-- Last wall frame for which a fetch read the buffer. -/
  lastF : Word
  deriving DecidableEq, Repr

/-- The Canopy and the Glades (R166 - R206). -/
structure Canopy where
  /-- Source store lines, by 8192 * SOURCE + LINE; R176; none. -/
  lines : Map Line
  /-- Armed frames, oldest first; R178; none. -/
  passes : List Pass
  /-- Bands judged and not yet composed, in the order of judgment; the first is being composed; R178; none. -/
  queue : List (Word × Nat)
  /-- CK_CORE cycle at which that composition, or a head's preview, began; R181; 0. -/
  since : Nat
  /-- CK_CORE cycle of the last change of the throttle pauses, and the work units of that composition done by then; R315; 0. -/
  paceAt : Nat
  paceDone : Nat
  /-- The intake FIFO is full: the next chunk is discarded; R315; no. -/
  fifoFull : Bool
  /-- Bands composed that wait for their swap, with their frames; R35, R205; none. -/
  due : Map Word
  /-- Frame whose content each band's live half holds; R215, R231; none. -/
  shown : Map Word
  /-- Working value of each lamp of the last composition, packed as R182; R196; 0. -/
  work : Map Nat
  /-- Glades that substitute whatever their verdict; R204; none. -/
  latched : Nat
  /-- The cycle of the last judgment, and the bands judged in it; R178; none. -/
  judgedIn : Option (Nat × List (Word × Nat))
  /-- Judgments that were ready and that were not, by layer; R187; 0. -/
  okCount : Map Nat
  missCount : Map Nat
  /-- Open references; R186; none. -/
  refs : List BufRef
  /-- The number of the next reference; R186; 0. -/
  refNext : Nat
  /-- Host-layer fetches in progress: source, frame and reference; R185; none. -/
  fetching : List (Nat × Word × Nat)
  /-- The frame of the last complete staging copy, by source; R185, R187; none. -/
  staged : Map Word
  /-- The preview being composed on a head; R143, R187; none. -/
  preview : Option Preview
  deriving DecidableEq, Repr

/-- A code block (R214): I, the B_e of LCR.CUR_DEF, and the Driver Current Table's bytes where the bank names one. -/
structure Code where
  i : Nat
  cur : Nat
  table : Option Store
  /-- The four codes of an IC whose entry could not be read, as in the frame before, by 64 * BRANCH + IC; R222; none. -/
  kept : Map Bytes
  deriving DecidableEq, Repr

/-- A checked TABLE_PATCH that waits for the gap after a correction pass (R220): descriptor, and for each record the Local
Memory address and its bytes. -/
structure Patch where
  desc : Desc
  recs : List (Nat × Bytes)
  /-- A correction pass has ended since the check; R220. -/
  ready : Bool
  deriving DecidableEq, Repr

/-- Lamp correction (R208 - R220). -/
structure Corr where
  /-- Code block in effect; R215; I full, B all 255. -/
  code : Code
  /-- Code blocks not yet in effect, newest first, by frame; R215; none. -/
  next : List (Word × Code)
  /-- Patches waiting; R220; none. -/
  patches : List Patch
  /-- Pattern engines that count as disabled in a frame, by engine, since their parameters could not be read; R257; none. -/
  patOff : Option (Word × Nat)
  deriving DecidableEq, Repr

/-- A group's script run in progress (R228). -/
structure Run where
  start : Nat
  sub : Nat
  /-- Live halves of the bands at the start of the run; R231. -/
  live : Nat
  /-- Primitive index it starts at, and a second script that follows it directly; R228, R248. -/
  first : Nat
  next : Option Nat
  /-- It runs in a Census frame; R236. -/
  census : Bool
  /-- CK_CORE cycle at which a block reset cut it; R293. -/
  cut : Option Nat
  /-- Words that came late and are sent as 0, by branch, row and channel; R241. -/
  dark : List (Nat × Nat × Nat)
  /-- BRI_LAT of its group when it started; R374. -/
  lat : Nat
  deriving DecidableEq, Repr

/-- The branch engine (R223 - R245). -/
structure Branch where
  /-- Runs in progress, by group; R228; none. -/
  runs : Map Run
  /-- Longest run that has ended in the sub-frame in progress; R245; 0. -/
  longest : Nat
  /-- Intended and sampled CRC-32 registers of the span in progress, by branch; R235; none. -/
  spans : Map (Word × Word)
  /-- The pins were high-Z for part of the span; R235; no. -/
  hiz : Bool
  /-- Branches whose span is not compared, since a trim change reached their pads; R327; none. -/
  skip : List Nat
  /-- Read-back mismatches and comparisons, by branch; R243; 0. -/
  bad : Map Nat
  compared : Map Nat
  /-- Groups whose run was cut at the boundary in progress: their next run starts 8 CK_SCAN cycles after it; R228; none. -/
  overran : List Nat
  /-- The frame in progress is a Census frame; R236; none. -/
  census : Option Word
  /-- CENSUS_RUN descriptors that wait for their frame, and those whose frame is in progress; R243; none. -/
  wanted : List Desc
  running : List Desc
  deriving DecidableEq, Repr

/-- Hold states and standalone timing (R246 - R255). -/
structure Hold where
  /-- HOLD_SETs that wait, oldest first: state, descriptor, CK_CORE cycle of the fetch; R246; none. -/
  want : List (Nat × Desc × Nat)
  /-- Night was entered from a local host; R249; no. -/
  byHost : Bool
  /-- After Night: the pins wait for frame lock and a swapped frame; R249; no. -/
  waking : Bool
  /-- FSYNC: the next frame start takes SA_ZERO; R254; no. -/
  zero : Bool
  deriving DecidableEq, Repr

end Sys2Proof.Machine
end

