-- ==== Sys2Proof/Machine/PartsNet.lean ====
section
/-! DEFINITION. The parts of the state that Network Ports, Flows and Ingest and Network Time and Timed Launch (chapters
07 and 08 of spec/) give the machine. -/

namespace Sys2Proof.Machine

/-- Counters of one flow entry (R145's FLOW_STATS record). -/
structure FlowCount where
  taken : Nat
  dup : Nat
  late : Nat
  fmt : Nat
  frames : Nat
  repeats : Nat
  drops : Nat
  diffNs : Nat
  deriving DecidableEq, Repr

/-- The merge record of a protection group (R132): sequence numbers taken in the last 50 ms with the CK_CORE cycle and
the leg (flow index) of each, newest first. -/
structure MergeItem where
  seq : Nat
  cycle : Nat
  leg : Nat
  deriving DecidableEq, Repr

/-- A source frame being received (R130, R133): RTP timestamp, CK_CORE cycle of its first packet, buffer, and the byte
ranges in. -/
structure OpenFrame where
  ts : Word
  first : Nat
  buf : Nat
  got : List (Nat × Nat)
  /-- Lines and chunks already queued in pass-through (R134), by 256 * LINE + CHUNK. -/
  sent : List Nat
  /-- Wall frame number it is tagged with (R134). -/
  tag : Word
  /-- Its first packet passed the alignment test's time part, and its timestamp step part. -/
  aligned : Bool
  deriving DecidableEq, Repr

/-- A read-out under the SYNC rule (R134): source, class, FRAME_LO, address, first cycle, span, next line. -/
structure ReadOut where
  source : Nat
  cls : Nat
  frameLo : Nat
  addr : Nat
  start : Nat
  span : Nat
  line : Nat
  deriving DecidableEq, Repr

/-- A network source (R129 - R135). -/
structure Source where
  /-- The 12 operand bytes of SOURCE_SET. -/
  cfg : Bytes
  cur : Option OpenFrame
  /-- Newest complete frame: buffer, RTP timestamp, and the wall frame it was tagged with. -/
  ready : Option (Nat × Word × Word)
  /-- The buffer being read. -/
  reading : Option Nat
  /-- The newest complete frame has been selected (R134). -/
  selected : Bool
  /-- The last frame's RTP timestamp (R134). -/
  lastTs : Option Word
  /-- Consecutive frames that passed the alignment test. -/
  passes : Nat
  deriving DecidableEq, Repr

/-- One sACN source of a universe (R138). -/
structure SacnSrc where
  cid : BitVec 128
  prio : Nat
  seq : Byte
  /-- CK_CORE cycle of its last packet. -/
  last : Nat
  deriving DecidableEq, Repr

/-- The confidence preview as a transmit flow sends it (R141, R143). -/
structure VideoTx where
  /-- The wall frame in which its packets launch, and that frame's start in CK_CORE cycles. -/
  frame : Word
  start : Nat
  /-- The wall frame whose preview is sent. -/
  shown : Word
  /-- The next packet. -/
  next : Nat
  deriving DecidableEq, Repr

/-- A frame of a TX_SEND in a port's queue (R158): descriptor data and the frame. -/
structure TimedTx where
  desc : Desc
  launch : Word
  bytes : Bytes
  deriving DecidableEq, Repr

/-- Network ingest and network time. -/
structure Net where
  /-- Flow table, by index; R127; no entry valid. -/
  flows : Map Bytes
  /-- Flow counters, by index; R145; 0. -/
  counts : Map FlowCount
  /-- Merge records, by 256 * KIND + TARGET; R132; none. -/
  merge : Map (List MergeItem)
  /-- Sources, by number; R129; off. -/
  sources : Map Source
  /-- Read-outs in progress; R134, R135; none. -/
  outs : List ReadOut
  /-- RX_POST buffers, oldest first; R145; none. -/
  rx : List Desc
  /-- Sources of each universe in the order first heard, by index; R138; none. -/
  univs : Map (List SacnSrc)
  /-- Map entries, by number: bytes 1-7 of SACN_MAP; R139; unused. -/
  smap : Map Bytes
  /-- Cue entries, by number: overlay set; R140; none valid. -/
  cues : Map (BitVec 64)
  /-- Last value of each CUE slot, by map entry; R140; 0. -/
  cueVal : Map Nat
  /-- Values held while the shadow bank is frozen, with their map entries, the latest first; R139; none. -/
  sacnHeld : List (Nat × Nat)
  /-- A DIMMER or PATTERN value has changed since the last sACN commit; R139; no. -/
  sacnDirty : Bool
  /-- The cues to be committed, oldest first, and the cue held over pending host edits; R140; none. -/
  cue : List Nat
  cueHeld : Option Nat
  /-- Transmit flows, by index: TXFLOW_SET operand bytes; R141; unset. -/
  txflows : Map Bytes
  /-- PREVIEW_SET operand bytes of TARGET 0, 1 and 2 in force; R145; off. -/
  pvw : Map Bytes
  /-- PREVIEW_SET operand bytes that wait for the next frame start; R145; none. -/
  pvwSet : Map Bytes
  /-- Head: the frame number whose confidence preview is composed; R143; none. -/
  pvwDone : Option Word
  /-- Head: the confidence preview being sent; R141, R143; none. -/
  vtx : Option VideoTx
  /-- Timed queues of NET0 and NET1, in launch order; R158; empty. -/
  timed0 : List TimedTx
  timed1 : List TimedTx
  /-- Untimed frames of NET0 and NET1 that wait for the port or for a pending launch, oldest first; R158; empty. -/
  plain0 : List TimedTx
  plain1 : List TimedTx
  /-- CK_CORE cycle until which NET0 and NET1 send a frame and its inter-packet gap; R158; 0. -/
  busy0 : Nat
  busy1 : Nat
  /-- Transmit timestamp stores of NET0 and NET1, oldest first; R162; empty. -/
  ts0 : List Bytes
  ts1 : List Bytes
  /-- Settings that wait for a link restart: MODE, AN, ADV100, MTU in force, by port; R147; reset values. -/
  inForce : Map (Nat × Nat × Nat × Nat)
  deriving DecidableEq, Repr

/-- The servo and the counter's housekeeping (R148 - R157). -/
structure Servo where
  /-- Frequency estimate i in 2^-16 ppb; R154; 0. -/
  i : Int
  /-- Correction y in 2^-16 ppb; R154; 0. -/
  y : Int
  /-- Counter value (32-bit ns) and CK_CORE cycle of the last step or SET; R153; none. -/
  lastStep : Option (Word × Nat)
  /-- CK_CORE cycle of the last accepted offset; R156; none. -/
  fedAt : Option Nat
  /-- The PTP master that Ranger has selected, by its 10-byte port identity; R152; none. -/
  master : Option Bytes
  deriving DecidableEq, Repr

end Sys2Proof.Machine
end

