-- ==== Sys2Proof/Machine/PartsPair.lean ====
section
/-! DEFINITION. The parts of the state that the pair, the watchdog and the thermal chapters (15, 16 and 17 of spec/) give
the machine. -/

namespace Sys2Proof.Machine

/-- One half of a pair (R270 - R288). -/
structure Pair where
  /-- CK_CORE cycle at which FB_ACT_IN last fell, none while it is high; R272; low since the start. -/
  actLow : Option Nat
  /-- CK_CORE cycle at which the claim was taken; R273, R280; none. -/
  claimAt : Option Nat
  /-- CK_CORE cycle of the last resignation while its overlap window is open; R279; none. -/
  overlap : Option Nat
  /-- The takeover's commit decision is still to be made; R280; no. -/
  takeover : Bool
  /-- Latest good frame from the peer and the own count at its first bit; R281; none. -/
  peer : Option (Bytes × Nat)
  /-- Consecutive good frames; R281; 0. -/
  good : Nat
  /-- Sources whose resign reaction has fired and whose sticky bit is still set; R275; none. -/
  resigners : List (Nat × Nat)
  /-- Forced causes present: ROOT_UNLOCK, WATCHDOG, HOST; R275; no. -/
  rootBad : Bool
  wdgBad : Bool
  hostBad : Bool
  /-- Health updates made; R275; 0. -/
  updates : Nat
  /-- Update at which the last uncorrectable error, and the last Patrol failure, fell; R275; none. -/
  uncorrAt : Option Nat
  patrolAt : Option Nat
  /-- Corrected errors by update; R275; none. -/
  corr : Map Nat
  /-- Consecutive updates that meet R276; 0. -/
  dwell : Nat
  /-- The HANDOVER that waits for the peer's claim; R288; none. -/
  handover : Option Desc
  /-- The last 16 (DSEQ, DIGEST) pairs, newest first; R284; none. -/
  digests : List (Nat × Nat)
  /-- CK_CORE cycle since which FB_ACT_IN is high while the peer shows CLAIM = 0; R287; none. -/
  stuckAt : Option Nat
  /-- Patrol failures since the last report; R285; 0. -/
  fails : Nat
  deriving DecidableEq, Repr

/-- Supply monitor, watchdog and thermal control (R298 - R317). -/
structure Care where
  /-- CK_CORE cycle of the last watchdog kick; R302; 0. -/
  kickAt : Nat
  /-- The count runs (it stops from a restart to the first kick); R302, R306; no. -/
  counting : Bool
  /-- PRE_EXPIRE has been set in this count; R302; no. -/
  preDone : Bool
  /-- CK_CORE cycles of the watchdog restarts; R304; none. -/
  restarts : List Nat
  /-- RANGER_RESTART that waits for Ranger; R307; none. -/
  restartDesc : Option Desc
  /-- The commit and the mailbox descriptor that are over their budgets, and the cue; R305; none. -/
  lateCommit : Option Desc
  lateMbx : Option Desc
  lateCue : Option Nat
  /-- CK_CORE cycle of the last thermal sample; R313; none. -/
  sampleAt : Option Nat
  /-- CK_SYS cycles spent at throttle level 1 or above; R320; 0. -/
  thrAcc : Nat
  /-- Consecutive samples at 130 °C or above; R314; 0. -/
  hotRun : Nat
  /-- The stage of shutdown is in force: outputs high-Z, data path stopped; R316; no. -/
  shut : Bool
  deriving DecidableEq, Repr

end Sys2Proof.Machine
end

