-- ==== Sys2Proof/Machine/PartsSeed.lean ====
section
/-! DEFINITION. The part of the state that Seedbank, Firmware Images and Settings and Reset, Straps and Start-Up (chapters
19 and 20 of spec/) give the boot engine besides the Seedbank's bytes, its registers and the fuses. -/

namespace Sys2Proof.Machine

/-- The boot engine and the two firmware slots (R330 - R341, R351). -/
structure Seed where
  /-- State of slot A, a code of SDB_QUERY (R342): 0 EMPTY, 1 WRITING, 2 WRITTEN, 3 ACTIVE, 4 TRIAL, 5 INVALID; kept in the
  Seedbank; EMPTY. -/
  slotA : Nat
  /-- State of slot B; R342; EMPTY. -/
  slotB : Nat
  /-- The slot booted: 0 A, 1 B; R334, R339; 0. -/
  booted : Nat
  /-- Payload blocks of the slot being written that are present and checked; R334; none. -/
  got : List Nat
  /-- Writes that wait for a supply dip to end: opcode, descriptor and the host bytes read; R299, R342; none. -/
  waiting : List (Nat × Desc × Bytes)
  /-- Firmware has been loaded and Ranger is about to run it; R339, R349; no. -/
  loaded : Bool
  /-- Recovery boot has taken an image: its source, 2 PCIe or 3 Trail; R351; none. -/
  source : Option Nat
  /-- An IMAGE_ACTIVATE that waits for the new firmware to run; R335; none. -/
  going : Option Desc
  /-- CK_CORE cycle at which the trial window ends; R335; no trial window. -/
  deadline : Option Nat
  /-- The migration report; R340; none. -/
  report : Option Bytes
  /-- Tile: the STREAM 4 broadcast being gathered: its BID and the blocks already written; R341; none. -/
  stage : Option (Nat × List Nat)
  /-- Tile: BID of the last STREAM 4 broadcast skipped; R341; none. -/
  skipped : Option Nat
  deriving DecidableEq, Repr

end Sys2Proof.Machine
end

