-- ==== Sys2Proof/Machine/PartsTrim.lean ====
section
/-! DEFINITION. The part of the state that Trim and Memory Repair (chapter 18 of spec/) gives the machine besides its
registers, which hold the staged values. -/

namespace Sys2Proof.Machine

/-- Trim and repair (R321 - R328). -/
structure Trim where
  /-- Values in force, by register key, that differ from the defaults; R326; none. -/
  inForce : Map Nat
  /-- The APPLY under way: WHEN, and the TRIM_RESTORE it belongs to; R326, R328; none. -/
  going : Option (Bool × Option Desc)
  /-- Its repair copies have run and it waits for the next frame latch; R326; no. -/
  armed : Bool
  deriving DecidableEq, Repr

end Sys2Proof.Machine
end

