-- ==== Sys2Proof/Machine/Regs.lean ====
section
/-! DEFINITION. The register fields of BAR0 (R36, R59, R82, R100, R124, R147, R165, R188, R207, R222, R245, R257, R269,
R289, R290, R308-R310, R320, R329, R344, R357, R374, R389, R390): each field's offset, place, width and reset value, and
the table of all fields by which an access finds them (R380, R381).  Each field's value has one home, the sparse map
`State.regs`, keyed by 32 * offset + low bit. -/

namespace Sys2Proof.Machine

/-- One field of one register: BAR0 offset, lowest bit, width and reset value. -/
structure Fld where
  off : Nat
  lo : Nat
  len : Nat
  reset : Nat
  deriving DecidableEq, Repr

/-- The access types of R7. -/
inductive Acc where
  | rw | ro | wo | w1c | rws
  deriving DecidableEq, Repr

/-- The device that has a field (R2, R380): every role, one role, NET0 or TRL0 only, or one side of a pair. -/
inductive RegRole where
  | both | head | tile | pair | net0 | trl0
  deriving DecidableEq, Repr

/-- A row of the register tables: `blk` is the first block window that holds it and `nblk` how many do, `off` the offset
in the window, `n` and `stride` its copies, `mn` and `mx` the range a write must lie in. -/
structure RegRow where
  blk : Nat
  nblk : Nat
  off : Nat
  lo : Nat
  len : Nat
  reset : Nat
  n : Nat
  stride : Nat
  acc : Acc
  role : RegRole
  mn : Nat
  mx : Nat
  deriving DecidableEq, Repr

/-- CLK ROOT_CFG.HOLD_S, R36. -/
def F.CLK_ROOT_CFG_HOLD_S : Fld := ⟨0x10040, 0, 8, 10⟩
/-- CLK ROOT_CFG.SLEW, R36. -/
def F.CLK_ROOT_CFG_SLEW : Fld := ⟨0x10040, 8, 7, 100⟩
/-- CLK ROOT_CFG.FBCLK_OUT, R36. -/
def F.CLK_ROOT_CFG_FBCLK_OUT : Fld := ⟨0x10040, 16, 1, 1⟩
/-- CLK ROOT_STAT.REF, R36. -/
def F.CLK_ROOT_STAT_REF : Fld := ⟨0x10044, 0, 3, 0⟩
/-- CLK ROOT_STAT.LOCK, R36. -/
def F.CLK_ROOT_STAT_LOCK : Fld := ⟨0x10044, 3, 1, 0⟩
/-- CLK ROOT_STAT.SLEWING, R36. -/
def F.CLK_ROOT_STAT_SLEWING : Fld := ⟨0x10044, 4, 1, 0⟩
/-- CLK ROOT_STAT.FREQ_OFS, R36. -/
def F.CLK_ROOT_STAT_FREQ_OFS : Fld := ⟨0x10044, 16, 16, 0⟩
/-- CLK FRM_CFG.RATE, R36. -/
def F.CLK_FRM_CFG_RATE : Fld := ⟨0x10050, 0, 4, 9⟩
/-- CLK FRM_CFG.MULT, R36. -/
def F.CLK_FRM_CFG_MULT : Fld := ⟨0x10050, 4, 2, 1⟩
/-- CLK FRM_CFG.ROLL, R36. -/
def F.CLK_FRM_CFG_ROLL : Fld := ⟨0x10050, 8, 1, 0⟩
/-- CLK FRM_CTRL.RUN, R36. -/
def F.CLK_FRM_CTRL_RUN : Fld := ⟨0x10054, 0, 1, 0⟩
/-- CLK FRM_CTRL.RESEED, R36. -/
def F.CLK_FRM_CTRL_RESEED : Fld := ⟨0x10054, 1, 1, 0⟩
/-- CLK FRM_SEED_NUM, R36. -/
def F.CLK_FRM_SEED_NUM : Fld := ⟨0x10058, 0, 32, 0⟩
/-- CLK FRM_SEED_TIME, R36. -/
def F.CLK_FRM_SEED_TIME : Fld := ⟨0x1005C, 0, 32, 0⟩
/-- CLK FRM_SEED_REM, R36. -/
def F.CLK_FRM_SEED_REM : Fld := ⟨0x10060, 0, 10, 0⟩
/-- CLK FRM_NOW, R36. -/
def F.CLK_FRM_NOW : Fld := ⟨0x10064, 0, 32, 0⟩
/-- CLK FRM_LEN, R36. -/
def F.CLK_FRM_LEN : Fld := ⟨0x10068, 0, 32, 0⟩

/-- STP CFG.POSTPONE, R59. -/
def F.STP_CFG_POSTPONE : Fld := ⟨0x20040, 0, 4, 3⟩
/-- STP CFG.ACK_WIN, R59. -/
def F.STP_CFG_ACK_WIN : Fld := ⟨0x20040, 8, 8, 16⟩
/-- STP LEAD_MIN.CYCLES, R59. -/
def F.STP_LEAD_MIN_CYCLES : Fld := ⟨0x20044, 0, 24, 0⟩
/-- STP LEAD, R59. -/
def F.STP_LEAD : Fld := ⟨0x20048, 0, 24, 0⟩
/-- STP DRING, R59. -/
def F.STP_DRING : Fld := ⟨0x2004C, 0, 24, 0⟩
/-- STP STATE.ACTIVE_STAND, R59. -/
def F.STP_STATE_ACTIVE_STAND : Fld := ⟨0x20050, 0, 3, 0⟩
/-- STP STATE.SHADOW_STAND, R59. -/
def F.STP_STATE_SHADOW_STAND : Fld := ⟨0x20050, 4, 3, 0⟩
/-- STP STATE.FROZEN, R59. -/
def F.STP_STATE_FROZEN : Fld := ⟨0x20050, 8, 1, 0⟩
/-- STP STATE.RETIRING, R59. -/
def F.STP_STATE_RETIRING : Fld := ⟨0x20050, 9, 1, 0⟩
/-- STP STATE.ACTIVE_NONE, R59. -/
def F.STP_STATE_ACTIVE_NONE : Fld := ⟨0x20050, 10, 1, 1⟩
/-- STP STATE.SHADOW_NONE, R59. -/
def F.STP_STATE_SHADOW_NONE : Fld := ⟨0x20050, 11, 1, 1⟩
/-- STP STATE.COMMIT_ID, R59. -/
def F.STP_STATE_COMMIT_ID : Fld := ⟨0x20050, 16, 16, 0⟩
/-- STP LAST_F, R59. -/
def F.STP_LAST_F : Fld := ⟨0x20054, 0, 32, 0⟩
/-- STP OVL_LO, R59. -/
def F.STP_OVL_LO : Fld := ⟨0x20058, 0, 32, 0⟩
/-- STP OVL_HI, R59. -/
def F.STP_OVL_HI : Fld := ⟨0x2005C, 0, 32, 0⟩
/-- STP EXCL, R59. -/
def F.STP_EXCL (i : Nat) : Fld := ⟨0x20100 + 4 * i, 0, 32, 0⟩

/-- HQS ASQ_BASE_LO, R82. -/
def F.HQS_ASQ_BASE_LO : Fld := ⟨0x30040, 0, 32, 0⟩
/-- HQS ASQ_BASE_HI, R82. -/
def F.HQS_ASQ_BASE_HI : Fld := ⟨0x30044, 0, 32, 0⟩
/-- HQS ASQ_CFG.DEPTH_LOG2, R82. -/
def F.HQS_ASQ_CFG_DEPTH_LOG2 : Fld := ⟨0x30048, 0, 4, 4⟩
/-- HQS ACQ_BASE_LO, R82. -/
def F.HQS_ACQ_BASE_LO : Fld := ⟨0x30050, 0, 32, 0⟩
/-- HQS ACQ_BASE_HI, R82. -/
def F.HQS_ACQ_BASE_HI : Fld := ⟨0x30054, 0, 32, 0⟩
/-- HQS ACQ_CFG.DEPTH_LOG2, R82. -/
def F.HQS_ACQ_CFG_DEPTH_LOG2 : Fld := ⟨0x30058, 0, 4, 4⟩
/-- HQS ACQ_CFG.VECTOR, R82. -/
def F.HQS_ACQ_CFG_VECTOR : Fld := ⟨0x30058, 8, 8, 23⟩
/-- HQS ACQ_HEAD, R82. -/
def F.HQS_ACQ_HEAD : Fld := ⟨0x3005C, 0, 16, 0⟩
/-- HQS DB_BASE_LO, R82. -/
def F.HQS_DB_BASE_LO : Fld := ⟨0x30060, 0, 32, 0⟩
/-- HQS DB_BASE_HI, R82. -/
def F.HQS_DB_BASE_HI : Fld := ⟨0x30064, 0, 32, 0⟩
/-- HQS POLL.CYCLES, R82. -/
def F.HQS_POLL_CYCLES : Fld := ⟨0x30068, 0, 13, 201⟩
/-- HQS CTRL.EN, R82. -/
def F.HQS_CTRL_EN : Fld := ⟨0x3006C, 0, 1, 0⟩
/-- HQS DMA_CFG.PCIE_MAX, R82. -/
def F.HQS_DMA_CFG_PCIE_MAX : Fld := ⟨0x30070, 0, 11, 256⟩
/-- HQS EVT_CQ.CQ, R82. -/
def F.HQS_EVT_CQ_CQ : Fld := ⟨0x30074, 0, 8, 0⟩
/-- HQS EVT_CQ.EN, R82. -/
def F.HQS_EVT_CQ_EN : Fld := ⟨0x30074, 8, 1, 0⟩
/-- HQS MBX_CFG.RETX, R82. -/
def F.HQS_MBX_CFG_RETX : Fld := ⟨0x30078, 0, 8, 4⟩
/-- HQS MBX_CFG.RETRIES, R82. -/
def F.HQS_MBX_CFG_RETRIES : Fld := ⟨0x30078, 8, 4, 8⟩
/-- HQS MBX_CFG.WINDOW, R82. -/
def F.HQS_MBX_CFG_WINDOW : Fld := ⟨0x30078, 16, 5, 16⟩
/-- HQS EVT_DROP, R82. -/
def F.HQS_EVT_DROP : Fld := ⟨0x3007C, 0, 32, 0⟩
/-- HQS MBX_BAD, R82. -/
def F.HQS_MBX_BAD : Fld := ⟨0x30080, 0, 32, 0⟩
/-- HQS TWIN_BASE_LO, R82. -/
def F.HQS_TWIN_BASE_LO : Fld := ⟨0x30084, 0, 32, 4294836224⟩
/-- HQS TWIN_BASE_HI, R82. -/
def F.HQS_TWIN_BASE_HI : Fld := ⟨0x30088, 0, 32, 1⟩
/-- HQS LMW_BASE_LO, R82. -/
def F.HQS_LMW_BASE_LO : Fld := ⟨0x3008C, 0, 32, 0⟩
/-- HQS LMW_BASE_HI, R82. -/
def F.HQS_LMW_BASE_HI : Fld := ⟨0x30090, 0, 32, 0⟩

/-- TRL CTRL.EN, R100. -/
def F.TRL_CTRL_EN (p : Nat) : Fld := ⟨0x40040 + 0x10000 * p, 0, 1, 1⟩
/-- TRL CTRL.DORMANT, R100. -/
def F.TRL_CTRL_DORMANT (p : Nat) : Fld := ⟨0x40040 + 0x10000 * p, 1, 1, 0⟩
/-- TRL CTRL.RETRAIN, R100. -/
def F.TRL_CTRL_RETRAIN (p : Nat) : Fld := ⟨0x40040 + 0x10000 * p, 2, 1, 0⟩
/-- TRL CTRL.RETIMED, R100. -/
def F.TRL_CTRL_RETIMED (p : Nat) : Fld := ⟨0x40040 + 0x10000 * p, 3, 1, 0⟩
/-- TRL CTRL.POL_AUTO, R100. -/
def F.TRL_CTRL_POL_AUTO (p : Nat) : Fld := ⟨0x40040 + 0x10000 * p, 4, 1, 1⟩
/-- TRL TRAIN_CFG.TIME, R100. -/
def F.TRL_TRAIN_CFG_TIME (p : Nat) : Fld := ⟨0x40044 + 0x10000 * p, 0, 8, 96⟩
/-- TRL TRAIN_CFG.FAST, R100. -/
def F.TRL_TRAIN_CFG_FAST (p : Nat) : Fld := ⟨0x40044 + 0x10000 * p, 8, 8, 16⟩
/-- TRL TRAIN_CFG.LOCK_TO, R100. -/
def F.TRL_TRAIN_CFG_LOCK_TO (p : Nat) : Fld := ⟨0x40044 + 0x10000 * p, 16, 8, 8⟩
/-- TRL TRAIN_CFG.CAP_TO, R100. -/
def F.TRL_TRAIN_CFG_CAP_TO (p : Nat) : Fld := ⟨0x40044 + 0x10000 * p, 24, 8, 64⟩
/-- TRL DET_CFG.INTERVAL, R100. -/
def F.TRL_DET_CFG_INTERVAL (p : Nat) : Fld := ⟨0x40048 + 0x10000 * p, 0, 8, 96⟩
/-- TRL BER_CFG.THRESH, R100. -/
def F.TRL_BER_CFG_THRESH (p : Nat) : Fld := ⟨0x4004C + 0x10000 * p, 0, 8, 16⟩
/-- TRL BER_CFG.CYCLES, R100. -/
def F.TRL_BER_CFG_CYCLES (p : Nat) : Fld := ⟨0x4004C + 0x10000 * p, 8, 4, 4⟩
/-- TRL TXEQ.PRE, R100. -/
def F.TRL_TXEQ_PRE (p : Nat) (i : Nat) : Fld := ⟨0x40050 + 0x10000 * p + 4 * i, 0, 5, 2⟩
/-- TRL TXEQ.MAIN, R100. -/
def F.TRL_TXEQ_MAIN (p : Nat) (i : Nat) : Fld := ⟨0x40050 + 0x10000 * p + 4 * i, 8, 5, 26⟩
/-- TRL TXEQ.POST, R100. -/
def F.TRL_TXEQ_POST (p : Nat) (i : Nat) : Fld := ⟨0x40050 + 0x10000 * p + 4 * i, 16, 5, 4⟩
/-- TRL POL.INV, R100. -/
def F.TRL_POL_INV (p : Nat) : Fld := ⟨0x40070 + 0x10000 * p, 0, 8, 0⟩
/-- TRL LANE_MAP, R100. -/
def F.TRL_LANE_MAP (p : Nat) : Fld := ⟨0x40074 + 0x10000 * p, 0, 24, 0⟩
/-- TRL SKEW, R100. -/
def F.TRL_SKEW (p : Nat) : Fld := ⟨0x40078 + 0x10000 * p, 0, 6, 0⟩
/-- TRL STAT.STATE, R100. -/
def F.TRL_STAT_STATE (p : Nat) : Fld := ⟨0x40080 + 0x10000 * p, 0, 3, 0⟩
/-- TRL STAT.SIGNAL, R100. -/
def F.TRL_STAT_SIGNAL (p : Nat) : Fld := ⟨0x40080 + 0x10000 * p, 3, 1, 0⟩
/-- TRL STAT.BLOCK_LOCK, R100. -/
def F.TRL_STAT_BLOCK_LOCK (p : Nat) : Fld := ⟨0x40080 + 0x10000 * p, 4, 8, 0⟩
/-- TRL STAT.DESKEWED, R100. -/
def F.TRL_STAT_DESKEWED (p : Nat) : Fld := ⟨0x40080 + 0x10000 * p, 12, 1, 0⟩
/-- TRL STAT.READY_LOCAL, R100. -/
def F.TRL_STAT_READY_LOCAL (p : Nat) : Fld := ⟨0x40080 + 0x10000 * p, 13, 1, 0⟩
/-- TRL STAT.READY_PEER, R100. -/
def F.TRL_STAT_READY_PEER (p : Nat) : Fld := ⟨0x40080 + 0x10000 * p, 14, 1, 0⟩
/-- TRL STAT.ACCEPTED, R100. -/
def F.TRL_STAT_ACCEPTED (p : Nat) : Fld := ⟨0x40080 + 0x10000 * p, 15, 1, 0⟩
/-- TRL STAT.REFUSE, R100. -/
def F.TRL_STAT_REFUSE (p : Nat) : Fld := ⟨0x40080 + 0x10000 * p, 16, 4, 0⟩
/-- TRL STAT.PEER_REFUSE, R100. -/
def F.TRL_STAT_PEER_REFUSE (p : Nat) : Fld := ⟨0x40080 + 0x10000 * p, 20, 4, 0⟩
/-- TRL STAT.LAST_CAUSE, R100. -/
def F.TRL_STAT_LAST_CAUSE (p : Nat) : Fld := ⟨0x40080 + 0x10000 * p, 24, 3, 0⟩
/-- TRL STAT.LINK_CYCLES, R100. -/
def F.TRL_STAT_LINK_CYCLES (p : Nat) : Fld := ⟨0x40080 + 0x10000 * p, 27, 1, 0⟩
/-- TRL RETRAINS, R100. -/
def F.TRL_RETRAINS (p : Nat) : Fld := ⟨0x40084 + 0x10000 * p, 0, 32, 0⟩
/-- TRL SYNC_ERR, R100. -/
def F.TRL_SYNC_ERR (p : Nat) : Fld := ⟨0x40088 + 0x10000 * p, 0, 32, 0⟩
/-- TRL PRBS_ERR, R100. -/
def F.TRL_PRBS_ERR (p : Nat) : Fld := ⟨0x4008C + 0x10000 * p, 0, 32, 0⟩
/-- TRL BIP_ERR, R100. -/
def F.TRL_BIP_ERR (p : Nat) : Fld := ⟨0x40090 + 0x10000 * p, 0, 32, 0⟩
/-- TRL CAP_CFG.TILE_ID_REQ, R100. -/
def F.TRL_CAP_CFG_TILE_ID_REQ (p : Nat) : Fld := ⟨0x40094 + 0x10000 * p, 0, 9, 0⟩
/-- TRL CAP_CFG.ID_VALID, R100. -/
def F.TRL_CAP_CFG_ID_VALID (p : Nat) : Fld := ⟨0x40094 + 0x10000 * p, 15, 1, 0⟩
/-- TRL CAP_CFG.PAIR, R100. -/
def F.TRL_CAP_CFG_PAIR (p : Nat) : Fld := ⟨0x40094 + 0x10000 * p, 16, 1, 0⟩
/-- TRL COMPAT, R100. -/
def F.TRL_COMPAT (p : Nat) : Fld := ⟨0x40098 + 0x10000 * p, 0, 16, 0⟩
/-- TRL FW_VERSION, R100. -/
def F.TRL_FW_VERSION (p : Nat) : Fld := ⟨0x4009C + 0x10000 * p, 0, 32, 0⟩
/-- TRL CAP_RX, R100. -/
def F.TRL_CAP_RX (p : Nat) (i : Nat) : Fld := ⟨0x400C0 + 0x10000 * p + 4 * i, 0, 32, 0⟩
/-- TRL CAP_TX, R100. -/
def F.TRL_CAP_TX (p : Nat) (i : Nat) : Fld := ⟨0x40100 + 0x10000 * p + 4 * i, 0, 32, 0⟩

/-- GLB FEED_CFG.PREF, R124. -/
def F.GLB_FEED_CFG_PREF : Fld := ⟨0x200, 0, 2, 0⟩
/-- GLB FEED_CFG.HOLD, R124. -/
def F.GLB_FEED_CFG_HOLD : Fld := ⟨0x200, 8, 8, 96⟩
/-- GLB FEED_CFG.MISS, R124. -/
def F.GLB_FEED_CFG_MISS : Fld := ⟨0x200, 16, 4, 4⟩
/-- GLB ECHO_CFG.MAX_AGE, R124. -/
def F.GLB_ECHO_CFG_MAX_AGE : Fld := ⟨0x204, 0, 16, 1024⟩
/-- GLB EPOCH_CFG.LEAD, R124. -/
def F.GLB_EPOCH_CFG_LEAD : Fld := ⟨0x208, 0, 8, 16⟩
/-- GLB EPOCH_CMD.ADVANCE, R124. -/
def F.GLB_EPOCH_CMD_ADVANCE : Fld := ⟨0x20C, 0, 1, 0⟩
/-- GLB EPOCH_STAT.EPOCH, R124. -/
def F.GLB_EPOCH_STAT_EPOCH : Fld := ⟨0x210, 0, 8, 0⟩
/-- GLB EPOCH_STAT.PENDING, R124. -/
def F.GLB_EPOCH_STAT_PENDING : Fld := ⟨0x210, 8, 1, 0⟩
/-- GLB FEED_STAT.PREF, R124. -/
def F.GLB_FEED_STAT_PREF : Fld := ⟨0x214, 0, 2, 0⟩
/-- GLB FEED_STAT.W_LIVE, R124. -/
def F.GLB_FEED_STAT_W_LIVE : Fld := ⟨0x214, 2, 1, 0⟩
/-- GLB FEED_STAT.E_LIVE, R124. -/
def F.GLB_FEED_STAT_E_LIVE : Fld := ⟨0x214, 3, 1, 0⟩
/-- GLB FEED_STAT.LOCK, R124. -/
def F.GLB_FEED_STAT_LOCK : Fld := ⟨0x214, 4, 1, 0⟩
/-- GLB D_WEST.D, R124. -/
def F.GLB_D_WEST_D : Fld := ⟨0x218, 0, 24, 0⟩
/-- GLB D_WEST.VALID, R124. -/
def F.GLB_D_WEST_VALID : Fld := ⟨0x218, 31, 1, 0⟩
/-- GLB D_EAST.D, R124. -/
def F.GLB_D_EAST_D : Fld := ⟨0x21C, 0, 24, 0⟩
/-- GLB D_EAST.VALID, R124. -/
def F.GLB_D_EAST_VALID : Fld := ⟨0x21C, 31, 1, 0⟩
/-- GLB FEED_CHANGES, R124. -/
def F.GLB_FEED_CHANGES : Fld := ⟨0x220, 0, 32, 0⟩
/-- GLB PLAN, R124. -/
def F.GLB_PLAN : Fld := ⟨0x224, 0, 3, 0⟩
/-- GLB DMAX, R124. -/
def F.GLB_DMAX (i : Nat) : Fld := ⟨0x230 + 4 * i, 0, 24, 0⟩
/-- GLB SLOT.TAKEN, R124. -/
def F.GLB_SLOT_TAKEN (i : Nat) : Fld := ⟨0x240 + 32 * i, 0, 32, 0⟩
/-- GLB SLOT.CRC_ERR, R124. -/
def F.GLB_SLOT_CRC_ERR (i : Nat) : Fld := ⟨0x244 + 32 * i, 0, 32, 0⟩
/-- GLB SLOT.HDR_BAD, R124. -/
def F.GLB_SLOT_HDR_BAD (i : Nat) : Fld := ⟨0x248 + 32 * i, 0, 32, 0⟩
/-- GLB SLOT.DUP, R124. -/
def F.GLB_SLOT_DUP (i : Nat) : Fld := ⟨0x24C + 32 * i, 0, 32, 0⟩
/-- GLB SLOT.LATE, R124. -/
def F.GLB_SLOT_LATE (i : Nat) : Fld := ⟨0x250 + 32 * i, 0, 32, 0⟩
/-- GLB SLOT.INS_DEFER, R124. -/
def F.GLB_SLOT_INS_DEFER (i : Nat) : Fld := ⟨0x254 + 32 * i, 0, 32, 0⟩
/-- GLB SLOT.PLAN_DROP, R124. -/
def F.GLB_SLOT_PLAN_DROP (i : Nat) : Fld := ⟨0x258 + 32 * i, 0, 32, 0⟩
/-- GLB SLOT.MARKER_MISS, R124. -/
def F.GLB_SLOT_MARKER_MISS (i : Nat) : Fld := ⟨0x25C + 32 * i, 0, 32, 0⟩
/-- GLB MASK0, R124. -/
def F.GLB_MASK0 (i : Nat) : Fld := ⟨0x300 + 4 * i, 0, 32, 4294967295⟩
/-- GLB MASK1, R124. -/
def F.GLB_MASK1 (i : Nat) : Fld := ⟨0x380 + 4 * i, 0, 32, 4294967295⟩
/-- GLB INTEREST, R124. -/
def F.GLB_INTEREST (i : Nat) : Fld := ⟨0x400 + 4 * i, 0, 32, 0⟩
/-- GLB BOOT_STAT.NOT_READY, R357. -/
def F.GLB_BOOT_STAT_NOT_READY : Fld := ⟨0x40, 0, 1, 1⟩
/-- GLB BOOT_STAT.RECOVERY, R357. -/
def F.GLB_BOOT_STAT_RECOVERY : Fld := ⟨0x40, 1, 1, 0⟩
/-- GLB BOOT_STAT.BOOTED, R357. -/
def F.GLB_BOOT_STAT_BOOTED : Fld := ⟨0x40, 2, 2, 0⟩
/-- GLB STRAPS.ROLE, R357. -/
def F.GLB_STRAPS_ROLE : Fld := ⟨0x44, 0, 1, 0⟩
/-- GLB STRAPS.SIDE, R357. -/
def F.GLB_STRAPS_SIDE : Fld := ⟨0x44, 2, 2, 0⟩
/-- GLB STRAPS.BOOT_SRC, R357. -/
def F.GLB_STRAPS_BOOT_SRC : Fld := ⟨0x44, 4, 2, 0⟩
/-- GLB STRAPS.TEST_MODE, R357. -/
def F.GLB_STRAPS_TEST_MODE : Fld := ⟨0x44, 6, 1, 0⟩
/-- GLB TILE_ID.ID, R357. -/
def F.GLB_TILE_ID_ID : Fld := ⟨0x48, 0, 9, 0⟩
/-- GLB TILE_ID.VALID, R357. -/
def F.GLB_TILE_ID_VALID : Fld := ⟨0x48, 9, 1, 0⟩
/-- GLB TILE_ID.SRC, R357. -/
def F.GLB_TILE_ID_SRC : Fld := ⟨0x48, 10, 2, 0⟩
/-- GLB ROSTER, R357. -/
def F.GLB_ROSTER (i : Nat) : Fld := ⟨0x500 + 4 * i, 0, 32, 0⟩
/-- GLB GPIO_DIR0, R366. -/
def F.GLB_GPIO_DIR0 : Fld := ⟨0x600, 0, 32, 0⟩
/-- GLB GPIO_DIR1, R366. -/
def F.GLB_GPIO_DIR1 : Fld := ⟨0x604, 0, 32, 0⟩
/-- GLB GPIO_DIR2, R366. -/
def F.GLB_GPIO_DIR2 : Fld := ⟨0x608, 0, 16, 0⟩
/-- GLB GPIO_OUT0, R366. -/
def F.GLB_GPIO_OUT0 : Fld := ⟨0x610, 0, 32, 0⟩
/-- GLB GPIO_OUT1, R366. -/
def F.GLB_GPIO_OUT1 : Fld := ⟨0x614, 0, 32, 0⟩
/-- GLB GPIO_OUT2, R366. -/
def F.GLB_GPIO_OUT2 : Fld := ⟨0x618, 0, 16, 0⟩
/-- GLB GPIO_IN, R366. -/
def F.GLB_GPIO_IN (i : Nat) : Fld := ⟨0x620 + 4 * i, 0, 32, 0⟩
/-- GLB DEVICE.HW_TYPE, R389. -/
def F.GLB_DEVICE_HW_TYPE : Fld := ⟨0x50, 0, 16, 33064⟩
/-- GLB DEVICE.DIE_REV, R389. -/
def F.GLB_DEVICE_DIE_REV : Fld := ⟨0x50, 16, 8, 0⟩
/-- GLB UNIT_ID, R389. -/
def F.GLB_UNIT_ID (i : Nat) : Fld := ⟨0x60 + 4 * i, 0, 32, 0⟩
/-- GLB REG_DENIED, R389. -/
def F.GLB_REG_DENIED : Fld := ⟨0x70, 0, 32, 0⟩
/-- GLB REG_LAST.OFFSET, R389. -/
def F.GLB_REG_LAST_OFFSET : Fld := ⟨0x74, 0, 21, 0⟩
/-- GLB REG_LAST.CAUSE, R389. -/
def F.GLB_REG_LAST_CAUSE : Fld := ⟨0x74, 28, 2, 0⟩
/-- GLB REG_LAST.TRAIL, R389. -/
def F.GLB_REG_LAST_TRAIL : Fld := ⟨0x74, 31, 1, 0⟩
/-- GLB SCRATCH, R389. -/
def F.GLB_SCRATCH (i : Nat) : Fld := ⟨0x80 + 4 * i, 0, 32, 0⟩

/-- NET CFG.MODE, R147. -/
def F.NET_CFG_MODE (p : Nat) : Fld := ⟨0x80040 + 0x10000 * p, 0, 3, 0⟩
/-- NET CFG.AN, R147. -/
def F.NET_CFG_AN (p : Nat) : Fld := ⟨0x80040 + 0x10000 * p, 3, 1, 1⟩
/-- NET CFG.ADV100, R147. -/
def F.NET_CFG_ADV100 (p : Nat) : Fld := ⟨0x80040 + 0x10000 * p, 4, 1, 0⟩
/-- NET MTU, R147. -/
def F.NET_MTU (p : Nat) : Fld := ⟨0x80044 + 0x10000 * p, 0, 14, 9216⟩
/-- NET HOST_CFG.MCAST, R147. -/
def F.NET_HOST_CFG_MCAST (p : Nat) : Fld := ⟨0x80048 + 0x10000 * p, 0, 1, 0⟩
/-- NET MAC_LO, R147. -/
def F.NET_MAC_LO (p : Nat) : Fld := ⟨0x8004C + 0x10000 * p, 0, 32, 0⟩
/-- NET MAC_HI, R147. -/
def F.NET_MAC_HI (p : Nat) : Fld := ⟨0x80050 + 0x10000 * p, 0, 16, 0⟩
/-- NET IP_ADDR, R147. -/
def F.NET_IP_ADDR (p : Nat) : Fld := ⟨0x80054 + 0x10000 * p, 0, 32, 0⟩
/-- NET STAT.LINK, R147. -/
def F.NET_STAT_LINK (p : Nat) : Fld := ⟨0x80058 + 0x10000 * p, 0, 1, 0⟩
/-- NET STAT.SPEED, R147. -/
def F.NET_STAT_SPEED (p : Nat) : Fld := ⟨0x80058 + 0x10000 * p, 1, 2, 0⟩
/-- NET STAT.AN_DONE, R147. -/
def F.NET_STAT_AN_DONE (p : Nat) : Fld := ⟨0x80058 + 0x10000 * p, 3, 1, 0⟩
/-- NET RX_FRAMES, R147. -/
def F.NET_RX_FRAMES (p : Nat) : Fld := ⟨0x80060 + 0x10000 * p, 0, 32, 0⟩
/-- NET RX_FCS, R147. -/
def F.NET_RX_FCS (p : Nat) : Fld := ⟨0x80064 + 0x10000 * p, 0, 32, 0⟩
/-- NET FEC_CORR, R147. -/
def F.NET_FEC_CORR (p : Nat) : Fld := ⟨0x80068 + 0x10000 * p, 0, 32, 0⟩
/-- NET FEC_UNCORR, R147. -/
def F.NET_FEC_UNCORR (p : Nat) : Fld := ⟨0x8006C + 0x10000 * p, 0, 32, 0⟩
/-- NET RX_OVF, R147. -/
def F.NET_RX_OVF (p : Nat) : Fld := ⟨0x80070 + 0x10000 * p, 0, 32, 0⟩
/-- NET NOFLOW, R147. -/
def F.NET_NOFLOW (p : Nat) : Fld := ⟨0x80074 + 0x10000 * p, 0, 32, 0⟩
/-- NET HOST_DROP, R147. -/
def F.NET_HOST_DROP (p : Nat) : Fld := ⟨0x80078 + 0x10000 * p, 0, 32, 0⟩
/-- NET FMT_ERR, R147. -/
def F.NET_FMT_ERR (p : Nat) : Fld := ⟨0x8007C + 0x10000 * p, 0, 32, 0⟩
/-- NET MERGE_LATE, R147. -/
def F.NET_MERGE_LATE (p : Nat) : Fld := ⟨0x80080 + 0x10000 * p, 0, 32, 0⟩
/-- NET TX_LATE, R147. -/
def F.NET_TX_LATE (p : Nat) : Fld := ⟨0x80084 + 0x10000 * p, 0, 32, 0⟩
/-- NET SACN_CFG.AUTO, R147. -/
def F.NET_SACN_CFG_AUTO (p : Nat) : Fld := ⟨0x80100 + 0x10000 * p, 0, 1, 0⟩
/-- NET SACN_COMMITS, R147. -/
def F.NET_SACN_COMMITS (p : Nat) : Fld := ⟨0x80104 + 0x10000 * p, 0, 32, 0⟩
/-- NET SACN_UNIV, R147. -/
def F.NET_SACN_UNIV (p : Nat) (i : Nat) : Fld := ⟨0x80140 + 0x10000 * p + 4 * i, 0, 16, 0⟩
/-- NET SRC_STAT.PATH, R147. -/
def F.NET_SRC_STAT_PATH (p : Nat) (i : Nat) : Fld := ⟨0x80200 + 0x10000 * p + 4 * i, 0, 2, 0⟩
/-- NET SRC_STAT.ALIGNED, R147. -/
def F.NET_SRC_STAT_ALIGNED (p : Nat) (i : Nat) : Fld := ⟨0x80200 + 0x10000 * p + 4 * i, 2, 1, 0⟩

/-- PTP CFG.STACK, R165. -/
def F.PTP_CFG_STACK : Fld := ⟨0xA0040, 0, 1, 0⟩
/-- PTP CFG.PTP_PORT, R165. -/
def F.PTP_CFG_PTP_PORT : Fld := ⟨0xA0040, 1, 1, 0⟩
/-- PTP CFG.SLAVE_ONLY, R165. -/
def F.PTP_CFG_SLAVE_ONLY : Fld := ⟨0xA0040, 2, 1, 1⟩
/-- PTP CFG.TWO_STEP, R165. -/
def F.PTP_CFG_TWO_STEP : Fld := ⟨0xA0040, 3, 1, 1⟩
/-- PTP CFG.DELAY, R165. -/
def F.PTP_CFG_DELAY : Fld := ⟨0xA0040, 4, 1, 0⟩
/-- PTP CFG.DOMAIN, R165. -/
def F.PTP_CFG_DOMAIN : Fld := ⟨0xA0040, 8, 8, 127⟩
/-- PTP SERVO_CFG.SYNC_LOG, R165. -/
def F.PTP_SERVO_CFG_SYNC_LOG : Fld := ⟨0xA0044, 0, 4, 13⟩
/-- PTP SERVO_CFG.FEED, R165. -/
def F.PTP_SERVO_CFG_FEED : Fld := ⟨0xA0044, 4, 1, 0⟩
/-- PTP SERVO_CFG.AUTO_STEP, R165. -/
def F.PTP_SERVO_CFG_AUTO_STEP : Fld := ⟨0xA0044, 5, 2, 1⟩
/-- PTP SERVO_KP, R165. -/
def F.PTP_SERVO_KP : Fld := ⟨0xA0048, 0, 16, 512⟩
/-- PTP SERVO_KI, R165. -/
def F.PTP_SERVO_KI : Fld := ⟨0xA004C, 0, 16, 64⟩
/-- PTP SERVO_LIMIT, R165. -/
def F.PTP_SERVO_LIMIT : Fld := ⟨0xA0050, 0, 10, 200⟩
/-- PTP STEP_NS, R165. -/
def F.PTP_STEP_NS : Fld := ⟨0xA0054, 0, 32, 100000⟩
/-- PTP ADDEND_LO, R165. -/
def F.PTP_ADDEND_LO : Fld := ⟨0xA0058, 0, 32, 3758747137⟩
/-- PTP ADDEND_HI, R165. -/
def F.PTP_ADDEND_HI : Fld := ⟨0xA005C, 0, 16, 158⟩
/-- PTP TIME_NS, R165. -/
def F.PTP_TIME_NS : Fld := ⟨0xA0060, 0, 32, 0⟩
/-- PTP TIME_FRAC, R165. -/
def F.PTP_TIME_FRAC : Fld := ⟨0xA0064, 0, 24, 0⟩
/-- PTP SET_NS, R165. -/
def F.PTP_SET_NS : Fld := ⟨0xA0068, 0, 32, 0⟩
/-- PTP CMD.SET, R165. -/
def F.PTP_CMD_SET : Fld := ⟨0xA006C, 0, 1, 0⟩
/-- PTP STATE.SERVO, R165. -/
def F.PTP_STATE_SERVO : Fld := ⟨0xA0070, 0, 2, 0⟩
/-- PTP LAST_OFS, R165. -/
def F.PTP_LAST_OFS : Fld := ⟨0xA0074, 0, 32, 0⟩
/-- PTP RX_ADJ0, R165. -/
def F.PTP_RX_ADJ0 : Fld := ⟨0xA0078, 0, 18, 0⟩
/-- PTP RX_ADJ1, R165. -/
def F.PTP_RX_ADJ1 : Fld := ⟨0xA007C, 0, 18, 0⟩
/-- PTP TX_ADJ0, R165. -/
def F.PTP_TX_ADJ0 : Fld := ⟨0xA0080, 0, 18, 0⟩
/-- PTP TX_ADJ1, R165. -/
def F.PTP_TX_ADJ1 : Fld := ⟨0xA0084, 0, 18, 0⟩
/-- PTP TSQ_DROP0, R165. -/
def F.PTP_TSQ_DROP0 : Fld := ⟨0xA0088, 0, 32, 0⟩
/-- PTP TSQ_DROP1, R165. -/
def F.PTP_TSQ_DROP1 : Fld := ⟨0xA008C, 0, 32, 0⟩
/-- PTP TSQ_LEVEL0, R165. -/
def F.PTP_TSQ_LEVEL0 : Fld := ⟨0xA0090, 0, 7, 0⟩
/-- PTP TSQ_LEVEL1, R165. -/
def F.PTP_TSQ_LEVEL1 : Fld := ⟨0xA0090, 16, 7, 0⟩

/-- CNP STORE_BASE_LO, R188. -/
def F.CNP_STORE_BASE_LO : Fld := ⟨0xB0040, 0, 32, 0⟩
/-- CNP STORE_BASE_HI, R188. -/
def F.CNP_STORE_BASE_HI : Fld := ⟨0xB0044, 0, 32, 0⟩
/-- CNP STORE_SIZE, R188. -/
def F.CNP_STORE_SIZE : Fld := ⟨0xB0048, 0, 13, 256⟩
/-- CNP REL_CFG.CQ, R188. -/
def F.CNP_REL_CFG_CQ : Fld := ⟨0xB004C, 0, 8, 0⟩
/-- CNP PVW_W, R188. -/
def F.CNP_PVW_W : Fld := ⟨0xB0050, 0, 20, 7680⟩
/-- CNP PVW_H, R188. -/
def F.CNP_PVW_H : Fld := ⟨0xB0054, 0, 20, 4320⟩
/-- CNP PASS_LAST, R188. -/
def F.CNP_PASS_LAST : Fld := ⟨0xB0058, 0, 24, 0⟩
/-- CNP REF_OPEN, R188. -/
def F.CNP_REF_OPEN : Fld := ⟨0xB005C, 0, 7, 0⟩
/-- CNP LAYSTAT.LAST, R188. -/
def F.CNP_LAYSTAT_LAST (i : Nat) : Fld := ⟨0xB0060 + 4 * i, 0, 2, 0⟩
/-- CNP LAYSTAT.MISSES, R188. -/
def F.CNP_LAYSTAT_MISSES (i : Nat) : Fld := ⟨0xB0060 + 4 * i, 8, 24, 0⟩
/-- CNP CHUNK_BAD, R188. -/
def F.CNP_CHUNK_BAD : Fld := ⟨0xB0080, 0, 32, 0⟩
/-- CNP AFTER_DL, R188. -/
def F.CNP_AFTER_DL : Fld := ⟨0xB0084, 0, 32, 0⟩
/-- CNP GEN_FAIL, R188. -/
def F.CNP_GEN_FAIL : Fld := ⟨0xB0088, 0, 32, 0⟩
/-- CNP STORE_USED, R188. -/
def F.CNP_STORE_USED : Fld := ⟨0xB008C, 0, 23, 0⟩
/-- CNP GLADE_STICKY, R207. -/
def F.CNP_GLADE_STICKY : Fld := ⟨0xB0100, 0, 16, 0⟩
/-- CNP GLADE_SUBST, R207. -/
def F.CNP_GLADE_SUBST : Fld := ⟨0xB0104, 0, 16, 0⟩
/-- CNP GLADE_RELEASE, R207. -/
def F.CNP_GLADE_RELEASE : Fld := ⟨0xB0108, 0, 16, 0⟩
/-- CNP GLADE_ARMED, R207. -/
def F.CNP_GLADE_ARMED : Fld := ⟨0xB010C, 0, 16, 0⟩
/-- CNP GLADE_FRAME, R207. -/
def F.CNP_GLADE_FRAME : Fld := ⟨0xB0110, 0, 32, 0⟩
/-- CNP GLADE_SIG, R207. -/
def F.CNP_GLADE_SIG (i : Nat) : Fld := ⟨0xB0140 + 4 * i, 0, 32, 0⟩
/-- CNP GLADE_MISS, R207. -/
def F.CNP_GLADE_MISS (i : Nat) : Fld := ⟨0xB0180 + 4 * i, 0, 32, 0⟩

/-- LCR CUR_DEF, R222. -/
def F.LCR_CUR_DEF : Fld := ⟨0xC0040, 0, 32, 4294967295⟩
/-- LCR DIM.M, R222. -/
def F.LCR_DIM_M : Fld := ⟨0xC0044, 0, 16, 65535⟩
/-- LCR DIM.K, R222. -/
def F.LCR_DIM_K : Fld := ⟨0xC0044, 16, 16, 65535⟩
/-- LCR SPLIT.S, R222. -/
def F.LCR_SPLIT_S : Fld := ⟨0xC0048, 0, 17, 65536⟩
/-- LCR SPLIT.I, R222. -/
def F.LCR_SPLIT_I : Fld := ⟨0xC004C, 0, 16, 65535⟩
/-- LCR LAMP_BASE_LO, R222. -/
def F.LCR_LAMP_BASE_LO : Fld := ⟨0xC0050, 0, 32, 0⟩
/-- LCR LAMP_BASE_HI, R222. -/
def F.LCR_LAMP_BASE_HI : Fld := ⟨0xC0054, 0, 32, 0⟩
/-- LCR EMIT_BASE_LO, R222. -/
def F.LCR_EMIT_BASE_LO : Fld := ⟨0xC0058, 0, 32, 0⟩
/-- LCR EMIT_BASE_HI, R222. -/
def F.LCR_EMIT_BASE_HI : Fld := ⟨0xC005C, 0, 32, 0⟩
/-- LCR LSM_BASE_LO, R222. -/
def F.LCR_LSM_BASE_LO : Fld := ⟨0xC0060, 0, 32, 0⟩
/-- LCR LSM_BASE_HI, R222. -/
def F.LCR_LSM_BASE_HI : Fld := ⟨0xC0064, 0, 32, 0⟩
/-- LCR DCT_BASE_LO, R222. -/
def F.LCR_DCT_BASE_LO : Fld := ⟨0xC0068, 0, 32, 0⟩
/-- LCR DCT_BASE_HI, R222. -/
def F.LCR_DCT_BASE_HI : Fld := ⟨0xC006C, 0, 32, 0⟩
/-- LCR ENTRY_BAD, R222. -/
def F.LCR_ENTRY_BAD : Fld := ⟨0xC0070, 0, 32, 0⟩
/-- LCR ECC_ZERO, R222. -/
def F.LCR_ECC_ZERO : Fld := ⟨0xC0074, 0, 32, 0⟩
/-- LCR PATCHES, R222. -/
def F.LCR_PATCHES : Fld := ⟨0xC0078, 0, 32, 0⟩
/-- LCR CODE_FRAME, R222. -/
def F.LCR_CODE_FRAME : Fld := ⟨0xC007C, 0, 32, 0⟩

/-- BRN OUT_CTRL.EN, R245. -/
def F.BRN_OUT_CTRL_EN : Fld := ⟨0xD0040, 0, 1, 0⟩
/-- BRN FB_BASE_LO, R245. -/
def F.BRN_FB_BASE_LO : Fld := ⟨0xD0044, 0, 32, 0⟩
/-- BRN FB_BASE_HI, R245. -/
def F.BRN_FB_BASE_HI : Fld := ⟨0xD0048, 0, 32, 0⟩
/-- BRN CEN_CFG.THRESH, R245. -/
def F.BRN_CEN_CFG_THRESH : Fld := ⟨0xD004C, 0, 16, 65535⟩
/-- BRN CEN_CFG.CODE, R245. -/
def F.BRN_CEN_CFG_CODE : Fld := ⟨0xD004C, 16, 8, 0⟩
/-- BRN FB_LIVE, R245. -/
def F.BRN_FB_LIVE : Fld := ⟨0xD0050, 0, 16, 0⟩
/-- BRN SCRIPT_LEN, R245. -/
def F.BRN_SCRIPT_LEN : Fld := ⟨0xD0054, 0, 24, 0⟩
/-- BRN CEN_FRAME, R245. -/
def F.BRN_CEN_FRAME : Fld := ⟨0xD0058, 0, 32, 0⟩
/-- BRN NEW_FAULTS, R245. -/
def F.BRN_NEW_FAULTS : Fld := ⟨0xD005C, 0, 32, 0⟩
/-- BRN RB_FAIL, R245. -/
def F.BRN_RB_FAIL : Fld := ⟨0xD0060, 0, 32, 0⟩
/-- BRN RB_SKIP, R245. -/
def F.BRN_RB_SKIP : Fld := ⟨0xD0064, 0, 32, 0⟩
/-- BRN UNDERRUN, R245. -/
def F.BRN_UNDERRUN : Fld := ⟨0xD0068, 0, 32, 0⟩
/-- BRN OVERRUN, R245. -/
def F.BRN_OVERRUN : Fld := ⟨0xD006C, 0, 32, 0⟩
/-- BRN RB_STICKY, R245. -/
def F.BRN_RB_STICKY (i : Nat) : Fld := ⟨0xD0080 + 4 * i, 0, 32, 0⟩
/-- BRN BRI_LAT_0, R374. -/
def F.BRN_BRI_LAT_0 : Fld := ⟨0xD0090, 0, 3, 0⟩
/-- BRN BRI_LAT_1, R374. -/
def F.BRN_BRI_LAT_1 : Fld := ⟨0xD0090, 4, 3, 0⟩
/-- BRN BRI_LAT_2, R374. -/
def F.BRN_BRI_LAT_2 : Fld := ⟨0xD0090, 8, 3, 0⟩
/-- BRN BRI_LAT_3, R374. -/
def F.BRN_BRI_LAT_3 : Fld := ⟨0xD0090, 12, 3, 0⟩
/-- BRN BRI_LAT_4, R374. -/
def F.BRN_BRI_LAT_4 : Fld := ⟨0xD0090, 16, 3, 0⟩
/-- BRN BRI_LAT_5, R374. -/
def F.BRN_BRI_LAT_5 : Fld := ⟨0xD0090, 20, 3, 0⟩
/-- BRN BRI_LAT_6, R374. -/
def F.BRN_BRI_LAT_6 : Fld := ⟨0xD0090, 24, 3, 0⟩
/-- BRN BRI_LAT_7, R374. -/
def F.BRN_BRI_LAT_7 : Fld := ⟨0xD0090, 28, 3, 0⟩
/-- BRN BRI_LAT_8, R374. -/
def F.BRN_BRI_LAT_8 : Fld := ⟨0xD0094, 0, 3, 0⟩
/-- BRN BRI_LAT_9, R374. -/
def F.BRN_BRI_LAT_9 : Fld := ⟨0xD0094, 4, 3, 0⟩
/-- BRN BRI_LAT_10, R374. -/
def F.BRN_BRI_LAT_10 : Fld := ⟨0xD0094, 8, 3, 0⟩
/-- BRN BRI_LAT_11, R374. -/
def F.BRN_BRI_LAT_11 : Fld := ⟨0xD0094, 12, 3, 0⟩
/-- BRN BRI_LAT_12, R374. -/
def F.BRN_BRI_LAT_12 : Fld := ⟨0xD0094, 16, 3, 0⟩
/-- BRN BRI_LAT_13, R374. -/
def F.BRN_BRI_LAT_13 : Fld := ⟨0xD0094, 20, 3, 0⟩
/-- BRN BRI_LAT_14, R374. -/
def F.BRN_BRI_LAT_14 : Fld := ⟨0xD0094, 24, 3, 0⟩
/-- BRN BRI_LAT_15, R374. -/
def F.BRN_BRI_LAT_15 : Fld := ⟨0xD0094, 28, 3, 0⟩

/-- PAT HOLD_CFG.AUTO_NIGHT, R257. -/
def F.PAT_HOLD_CFG_AUTO_NIGHT : Fld := ⟨0xE0040, 0, 1, 1⟩
/-- PAT HOLD_STAT.STATE, R257. -/
def F.PAT_HOLD_STAT_STATE : Fld := ⟨0xE0044, 0, 2, 0⟩
/-- PAT HOLD_STAT.PENDING, R257. -/
def F.PAT_HOLD_STAT_PENDING : Fld := ⟨0xE0044, 2, 1, 0⟩
/-- PAT HOLD_FRAME, R257. -/
def F.PAT_HOLD_FRAME : Fld := ⟨0xE0048, 0, 32, 0⟩
/-- PAT SA_CFG.FSYNC, R257. -/
def F.PAT_SA_CFG_FSYNC : Fld := ⟨0xE004C, 0, 1, 0⟩
/-- PAT SA_CFG.POL, R257. -/
def F.PAT_SA_CFG_POL : Fld := ⟨0xE004C, 1, 1, 0⟩
/-- PAT SA_ZERO, R257. -/
def F.PAT_SA_ZERO : Fld := ⟨0xE0050, 0, 32, 0⟩
/-- PAT SA_STAT.STANDALONE, R257. -/
def F.PAT_SA_STAT_STANDALONE : Fld := ⟨0xE0054, 0, 1, 0⟩
/-- PAT SA_STAT.FSYNC_LOCK, R257. -/
def F.PAT_SA_STAT_FSYNC_LOCK : Fld := ⟨0xE0054, 1, 1, 0⟩
/-- PAT FSYNC_EARLY, R257. -/
def F.PAT_FSYNC_EARLY : Fld := ⟨0xE0058, 0, 32, 0⟩
/-- PAT FSYNC_MISS, R257. -/
def F.PAT_FSYNC_MISS : Fld := ⟨0xE005C, 0, 32, 0⟩
/-- PAT ENG_ON, R257. -/
def F.PAT_ENG_ON : Fld := ⟨0xE0060, 0, 8, 0⟩
/-- PAT TIME, R257. -/
def F.PAT_TIME (i : Nat) : Fld := ⟨0xE0080 + 4 * i, 0, 32, 0⟩

/-- AUD CTRL.RUN, R269. -/
def F.AUD_CTRL_RUN : Fld := ⟨0xF0040, 0, 1, 0⟩
/-- AUD SEED_NUM, R269. -/
def F.AUD_SEED_NUM : Fld := ⟨0xF0044, 0, 32, 0⟩
/-- AUD SEED_TIME, R269. -/
def F.AUD_SEED_TIME : Fld := ⟨0xF0048, 0, 32, 0⟩
/-- AUD SEED_REM, R269. -/
def F.AUD_SEED_REM : Fld := ⟨0xF004C, 0, 2, 0⟩
/-- AUD ZC_TO, R269. -/
def F.AUD_ZC_TO : Fld := ⟨0xF0050, 0, 7, 20⟩
/-- AUD BUF_BASE_LO, R269. -/
def F.AUD_BUF_BASE_LO : Fld := ⟨0xF0054, 0, 32, 0⟩
/-- AUD BUF_BASE_HI, R269. -/
def F.AUD_BUF_BASE_HI : Fld := ⟨0xF0058, 0, 32, 0⟩
/-- AUD FBS_ADJ, R269. -/
def F.AUD_FBS_ADJ : Fld := ⟨0xF005C, 0, 16, 0⟩
/-- AUD STAT.RUNNING, R269. -/
def F.AUD_STAT_RUNNING : Fld := ⟨0xF0060, 0, 1, 0⟩
/-- AUD STAT.FBS_LOCK, R269. -/
def F.AUD_STAT_FBS_LOCK : Fld := ⟨0xF0060, 1, 1, 0⟩
/-- AUD SMP_NOW, R269. -/
def F.AUD_SMP_NOW : Fld := ⟨0xF0064, 0, 32, 0⟩
/-- AUD UNDERRUNS, R269. -/
def F.AUD_UNDERRUNS : Fld := ⟨0xF0068, 0, 32, 0⟩
/-- AUD LATE, R269. -/
def F.AUD_LATE : Fld := ⟨0xF006C, 0, 32, 0⟩
/-- AUD EARLY, R269. -/
def F.AUD_EARLY : Fld := ⟨0xF0070, 0, 32, 0⟩
/-- AUD ZC_TIMEOUTS, R269. -/
def F.AUD_ZC_TIMEOUTS : Fld := ⟨0xF0074, 0, 32, 0⟩
/-- AUD PORT_STAT, R269. -/
def F.AUD_PORT_STAT (i : Nat) : Fld := ⟨0xF0100 + 8 * i, 0, 4, 0⟩
/-- AUD PORT_OFS_TX, R269. -/
def F.AUD_PORT_OFS_TX (i : Nat) : Fld := ⟨0xF0104 + 8 * i, 0, 16, 0⟩
/-- AUD PORT_OFS_RX, R269. -/
def F.AUD_PORT_OFS_RX (i : Nat) : Fld := ⟨0xF0104 + 8 * i, 16, 16, 0⟩

/-- FBK CTRL.CLAIM_EN, R289. -/
def F.FBK_CTRL_CLAIM_EN : Fld := ⟨0x100040, 0, 1, 0⟩
/-- FBK CTRL.ARB, R289. -/
def F.FBK_CTRL_ARB : Fld := ⟨0x100040, 1, 1, 0⟩
/-- FBK CTRL.PATROL, R289. -/
def F.FBK_CTRL_PATROL : Fld := ⟨0x100040, 2, 1, 0⟩
/-- FBK HEALTH_CFG.THRESH, R289. -/
def F.FBK_HEALTH_CFG_THRESH : Fld := ⟨0x100044, 0, 8, 64⟩
/-- FBK HEALTH_CFG.MARGIN, R289. -/
def F.FBK_HEALTH_CFG_MARGIN : Fld := ⟨0x100044, 8, 8, 32⟩
/-- FBK HEALTH_CFG.DWELL, R289. -/
def F.FBK_HEALTH_CFG_DWELL : Fld := ⟨0x100044, 16, 8, 10⟩
/-- FBK HEALTH_CFG.ECC_LIM, R289. -/
def F.FBK_HEALTH_CFG_ECC_LIM : Fld := ⟨0x100044, 24, 8, 16⟩
/-- FBK PATROL_CFG.CQ, R289. -/
def F.FBK_PATROL_CFG_CQ : Fld := ⟨0x100048, 0, 8, 0⟩
/-- FBK PATROL_CFG.EN, R289. -/
def F.FBK_PATROL_CFG_EN : Fld := ⟨0x100048, 8, 1, 0⟩
/-- FBK STAT.CLAIM_OUT, R289. -/
def F.FBK_STAT_CLAIM_OUT : Fld := ⟨0x10004C, 0, 1, 0⟩
/-- FBK STAT.CLAIM_IN, R289. -/
def F.FBK_STAT_CLAIM_IN : Fld := ⟨0x10004C, 1, 1, 0⟩
/-- FBK STAT.ARB_IN, R289. -/
def F.FBK_STAT_ARB_IN : Fld := ⟨0x10004C, 2, 1, 0⟩
/-- FBK STAT.DRIVING, R289. -/
def F.FBK_STAT_DRIVING : Fld := ⟨0x10004C, 3, 1, 0⟩
/-- FBK STAT.SER_LOCK, R289. -/
def F.FBK_STAT_SER_LOCK : Fld := ⟨0x10004C, 4, 1, 0⟩
/-- FBK STAT.PEER_READY, R289. -/
def F.FBK_STAT_PEER_READY : Fld := ⟨0x10004C, 5, 1, 0⟩
/-- FBK STAT.STATE, R289. -/
def F.FBK_STAT_STATE : Fld := ⟨0x10004C, 8, 2, 0⟩
/-- FBK HEALTH.SCORE, R289. -/
def F.FBK_HEALTH_SCORE : Fld := ⟨0x100050, 0, 8, 0⟩
/-- FBK HEALTH.CAUSES, R289. -/
def F.FBK_HEALTH_CAUSES : Fld := ⟨0x100050, 8, 16, 0⟩
/-- FBK PEER_HEALTH.SCORE, R289. -/
def F.FBK_PEER_HEALTH_SCORE : Fld := ⟨0x100054, 0, 8, 0⟩
/-- FBK PEER_HEALTH.CAUSES, R289. -/
def F.FBK_PEER_HEALTH_CAUSES : Fld := ⟨0x100054, 8, 16, 0⟩
/-- FBK PEER_HEALTH.AGE, R289. -/
def F.FBK_PEER_HEALTH_AGE : Fld := ⟨0x100054, 24, 8, 255⟩
/-- FBK PAIR_OFS, R289. -/
def F.FBK_PAIR_OFS : Fld := ⟨0x100058, 0, 32, 0⟩
/-- FBK SER_RTT, R289. -/
def F.FBK_SER_RTT : Fld := ⟨0x10005C, 0, 32, 0⟩
/-- FBK SWITCHES, R289. -/
def F.FBK_SWITCHES : Fld := ⟨0x100060, 0, 32, 0⟩
/-- FBK LAST_GAP, R289. -/
def F.FBK_LAST_GAP : Fld := ⟨0x100064, 0, 16, 0⟩
/-- FBK DSEQ, R289. -/
def F.FBK_DSEQ : Fld := ⟨0x100068, 0, 32, 0⟩
/-- FBK DIGEST, R289. -/
def F.FBK_DIGEST : Fld := ⟨0x10006C, 0, 32, 0⟩
/-- FBK DIVERGE_SEQ, R289. -/
def F.FBK_DIVERGE_SEQ : Fld := ⟨0x100070, 0, 32, 0⟩
/-- FBK SER_ERR, R289. -/
def F.FBK_SER_ERR : Fld := ⟨0x100074, 0, 32, 0⟩
/-- FBK PATROL_FAILS, R289. -/
def F.FBK_PATROL_FAILS : Fld := ⟨0x100078, 0, 32, 0⟩

/-- BLK BLK_ID.INDEX, R290. -/
def F.BLK_ID_INDEX (p : Nat) : Fld := ⟨0x0 + 0x10000 * p, 0, 8, 0⟩
/-- BLK BLK_ID.VERSION, R290. -/
def F.BLK_ID_VERSION (p : Nat) : Fld := ⟨0x0 + 0x10000 * p, 8, 8, 1⟩
/-- BLK BLK_ID.HW_TYPE, R290. -/
def F.BLK_ID_HW_TYPE (p : Nat) : Fld := ⟨0x0 + 0x10000 * p, 16, 16, 33064⟩
/-- BLK BLK_CTRL.RESET, R290. -/
def F.BLK_CTRL_RESET (p : Nat) : Fld := ⟨0x4 + 0x10000 * p, 0, 1, 0⟩
/-- BLK BLK_STICKY, R290. -/
def F.BLK_STICKY (p : Nat) : Fld := ⟨0x10 + 0x10000 * p, 0, 32, 0⟩
/-- BLK BLK_IRQ_EN, R290. -/
def F.BLK_IRQ_EN (p : Nat) : Fld := ⟨0x14 + 0x10000 * p, 0, 32, 4294967295⟩
/-- BLK BLK_IRQ_PEND, R290. -/
def F.BLK_IRQ_PEND (p : Nat) : Fld := ⟨0x18 + 0x10000 * p, 0, 32, 0⟩
/-- BLK BLK_REACT.SRC, R290. -/
def F.BLK_REACT_SRC (p : Nat) : Fld := ⟨0x1C + 0x10000 * p, 0, 5, 0⟩
/-- BLK BLK_REACT.CODE, R290. -/
def F.BLK_REACT_CODE (p : Nat) : Fld := ⟨0x1C + 0x10000 * p, 8, 2, 0⟩
/-- BLK BLK_REACT.WE, R290. -/
def F.BLK_REACT_WE (p : Nat) : Fld := ⟨0x1C + 0x10000 * p, 31, 1, 0⟩
/-- BLK BLK_MASKED, R290. -/
def F.BLK_MASKED (p : Nat) : Fld := ⟨0x20 + 0x10000 * p, 0, 32, 0⟩

/-- WDG CFG.TIMEOUT, R308. -/
def F.WDG_CFG_TIMEOUT : Fld := ⟨0x150040, 0, 14, 100⟩
/-- WDG CFG.SETTLE, R308. -/
def F.WDG_CFG_SETTLE : Fld := ⟨0x150044, 0, 14, 1000⟩
/-- WDG CFG.LOOP_MAX, R308. -/
def F.WDG_CFG_LOOP_MAX : Fld := ⟨0x150048, 0, 4, 3⟩
/-- WDG CFG.LOOP_WIN, R308. -/
def F.WDG_CFG_LOOP_WIN : Fld := ⟨0x150048, 8, 8, 60⟩
/-- WDG STAT.RUNNING, R308. -/
def F.WDG_STAT_RUNNING : Fld := ⟨0x15004C, 0, 1, 0⟩
/-- WDG STAT.HALTED, R308. -/
def F.WDG_STAT_HALTED : Fld := ⟨0x15004C, 1, 1, 0⟩
/-- WDG STAT.RECENT, R308. -/
def F.WDG_STAT_RECENT : Fld := ⟨0x15004C, 4, 4, 0⟩
/-- WDG RESTARTS, R308. -/
def F.WDG_RESTARTS : Fld := ⟨0x150050, 0, 32, 0⟩
/-- WDG LOAD, R308. -/
def F.WDG_LOAD : Fld := ⟨0x150054, 0, 6, 0⟩
/-- WDG BUSY_COUNT, R308. -/
def F.WDG_BUSY_COUNT : Fld := ⟨0x150058, 0, 32, 0⟩

/-- SUP CFG.BR_EN, R309. -/
def F.SUP_CFG_BR_EN : Fld := ⟨0x110040, 0, 1, 0⟩
/-- SUP CFG.BR_LEVEL, R309. -/
def F.SUP_CFG_BR_LEVEL : Fld := ⟨0x110040, 1, 2, 0⟩
/-- SUP STAT.BELOW_WARN, R309. -/
def F.SUP_STAT_BELOW_WARN : Fld := ⟨0x110044, 0, 5, 0⟩
/-- SUP STAT.SDB_SUSPENDED, R309. -/
def F.SUP_STAT_SDB_SUSPENDED : Fld := ⟨0x110044, 8, 1, 0⟩
/-- SUP LAST_RESET, R309. -/
def F.SUP_LAST_RESET : Fld := ⟨0x110048, 0, 8, 0⟩
/-- SUP DIPS, R309. -/
def F.SUP_DIPS : Fld := ⟨0x11004C, 0, 32, 0⟩

/-- LMC ECC_CORR1, R310. -/
def F.LMC_ECC_CORR1 : Fld := ⟨0x160040, 0, 32, 0⟩
/-- LMC ECC_CORR2, R310. -/
def F.LMC_ECC_CORR2 : Fld := ⟨0x160044, 0, 32, 0⟩
/-- LMC ECC_UNCORR, R310. -/
def F.LMC_ECC_UNCORR : Fld := ⟨0x160048, 0, 32, 0⟩
/-- LMC SCRUB.PERIOD, R310. -/
def F.LMC_SCRUB_PERIOD : Fld := ⟨0x16004C, 0, 16, 256⟩
/-- LMC SCRUB.FIX1, R310. -/
def F.LMC_SCRUB_FIX1 : Fld := ⟨0x16004C, 16, 1, 1⟩

/-- THM CFG.THR_EN, R320. -/
def F.THM_CFG_THR_EN : Fld := ⟨0x120040, 0, 1, 1⟩
/-- THM STAT.TMAX, R320. -/
def F.THM_STAT_TMAX : Fld := ⟨0x120044, 0, 11, 0⟩
/-- THM STAT.LEVEL, R320. -/
def F.THM_STAT_LEVEL : Fld := ⟨0x120044, 12, 3, 0⟩
/-- THM STAT.WARN, R320. -/
def F.THM_STAT_WARN : Fld := ⟨0x120044, 16, 1, 0⟩
/-- THM STAT.FAST, R320. -/
def F.THM_STAT_FAST : Fld := ⟨0x120044, 17, 1, 0⟩
/-- THM STAT.SHUTDOWN, R320. -/
def F.THM_STAT_SHUTDOWN : Fld := ⟨0x120044, 18, 1, 0⟩
/-- THM STAT.SD_PRIOR, R320. -/
def F.THM_STAT_SD_PRIOR : Fld := ⟨0x120044, 19, 1, 0⟩
/-- THM HOT, R320. -/
def F.THM_HOT : Fld := ⟨0x120048, 0, 4, 0⟩
/-- THM FAILED, R320. -/
def F.THM_FAILED : Fld := ⟨0x12004C, 0, 16, 0⟩
/-- THM PEAK, R320. -/
def F.THM_PEAK : Fld := ⟨0x120050, 0, 11, 0⟩
/-- THM CMD.PEAK_RESET, R320. -/
def F.THM_CMD_PEAK_RESET : Fld := ⟨0x120054, 0, 1, 0⟩
/-- THM THR_TIME, R320. -/
def F.THM_THR_TIME : Fld := ⟨0x120058, 0, 32, 0⟩
/-- THM THR_DROP, R320. -/
def F.THM_THR_DROP : Fld := ⟨0x12005C, 0, 32, 0⟩
/-- THM SENSOR.T, R320. -/
def F.THM_SENSOR_T (i : Nat) : Fld := ⟨0x120080 + 4 * i, 0, 11, 0⟩
/-- THM SENSOR.FAIL, R320. -/
def F.THM_SENSOR_FAIL (i : Nat) : Fld := ⟨0x120080 + 4 * i, 31, 1, 0⟩

/-- TRM APPLY.GO, R329. -/
def F.TRM_APPLY_GO : Fld := ⟨0x130040, 0, 1, 0⟩
/-- TRM APPLY.WHEN, R329. -/
def F.TRM_APPLY_WHEN : Fld := ⟨0x130040, 1, 1, 0⟩
/-- TRM STAT.PENDING, R329. -/
def F.TRM_STAT_PENDING : Fld := ⟨0x130044, 0, 1, 0⟩
/-- TRM STAT.DIRTY, R329. -/
def F.TRM_STAT_DIRTY : Fld := ⟨0x130044, 1, 1, 0⟩
/-- TRM REPAIRS, R329. -/
def F.TRM_REPAIRS : Fld := ⟨0x130048, 0, 13, 0⟩
/-- TRM APPLY_FRAME, R329. -/
def F.TRM_APPLY_FRAME : Fld := ⟨0x13004C, 0, 32, 0⟩
/-- TRM PIN.DELAY, R329. -/
def F.TRM_PIN_DELAY (i : Nat) : Fld := ⟨0x130100 + 4 * i, 0, 5, 0⟩
/-- TRM PIN.SEG_EN, R329. -/
def F.TRM_PIN_SEG_EN (i : Nat) : Fld := ⟨0x130100 + 4 * i, 8, 12, 255⟩
/-- TRM SENS.REF_A, R329. -/
def F.TRM_SENS_REF_A (i : Nat) : Fld := ⟨0x130400 + 4 * i, 0, 2, 0⟩
/-- TRM SENS.REF_B, R329. -/
def F.TRM_SENS_REF_B (i : Nat) : Fld := ⟨0x130400 + 4 * i, 2, 2, 1⟩
/-- TRM SENS.OFS, R329. -/
def F.TRM_SENS_OFS (i : Nat) : Fld := ⟨0x130400 + 4 * i, 8, 8, 0⟩
/-- TRM REPAIR_LO, R390. -/
def F.TRM_REPAIR_LO (i : Nat) : Fld := ⟨0x131000 + 8 * i, 0, 32, 0⟩
/-- TRM REPAIR_HI, R390. -/
def F.TRM_REPAIR_HI (i : Nat) : Fld := ⟨0x131004 + 8 * i, 0, 32, 0⟩

/-- SDB CFG.WINDOW, R344. -/
def F.SDB_CFG_WINDOW : Fld := ⟨0x140040, 0, 17, 600⟩
/-- SDB CFG.SCRUB_DAYS, R344. -/
def F.SDB_CFG_SCRUB_DAYS : Fld := ⟨0x140044, 0, 9, 30⟩
/-- SDB STAGE_BASE_LO, R344. -/
def F.SDB_STAGE_BASE_LO : Fld := ⟨0x140048, 0, 32, 4269670400⟩
/-- SDB STAGE_BASE_HI, R344. -/
def F.SDB_STAGE_BASE_HI : Fld := ⟨0x14004C, 0, 32, 1⟩
/-- SDB STAT.ACTIVE, R344. -/
def F.SDB_STAT_ACTIVE : Fld := ⟨0x140050, 0, 1, 0⟩
/-- SDB STAT.TRIAL, R344. -/
def F.SDB_STAT_TRIAL : Fld := ⟨0x140050, 1, 1, 0⟩
/-- SDB STAT.SET_CUR, R344. -/
def F.SDB_STAT_SET_CUR : Fld := ⟨0x140050, 2, 1, 0⟩
/-- SDB STAT.FB_CAUSE, R344. -/
def F.SDB_STAT_FB_CAUSE : Fld := ⟨0x140050, 4, 3, 0⟩
/-- SDB TRIAL_LEFT, R344. -/
def F.SDB_TRIAL_LEFT : Fld := ⟨0x140054, 0, 17, 0⟩
/-- SDB VER_A, R344. -/
def F.SDB_VER_A : Fld := ⟨0x140058, 0, 32, 0⟩
/-- SDB VER_B, R344. -/
def F.SDB_VER_B : Fld := ⟨0x14005C, 0, 32, 0⟩
/-- SDB SEC_CTR_LO, R344. -/
def F.SDB_SEC_CTR_LO : Fld := ⟨0x140060, 0, 32, 0⟩
/-- SDB SEC_CTR_HI, R344. -/
def F.SDB_SEC_CTR_HI : Fld := ⟨0x140064, 0, 32, 0⟩
/-- SDB CTR_RAISES, R344. -/
def F.SDB_CTR_RAISES : Fld := ⟨0x140068, 0, 8, 0⟩
/-- SDB BCAST_SKIP, R344. -/
def F.SDB_BCAST_SKIP : Fld := ⟨0x14006C, 0, 32, 0⟩
/-- SDB KEY_HASH, R344. -/
def F.SDB_KEY_HASH (i : Nat) : Fld := ⟨0x140080 + 4 * i, 0, 32, 0⟩

/-- Rows of the CLK registers. -/
def regRowsCLK0 : List RegRow :=
  [⟨1, 1, 0x40, 0, 8, 10, 1, 4, .rw, .both, 0, 255⟩,
   ⟨1, 1, 0x40, 8, 7, 100, 1, 4, .rw, .both, 1, 100⟩,
   ⟨1, 1, 0x40, 16, 1, 1, 1, 4, .rw, .both, 0, 1⟩,
   ⟨1, 1, 0x44, 0, 3, 0, 1, 4, .ro, .both, 0, 7⟩,
   ⟨1, 1, 0x44, 3, 1, 0, 1, 4, .ro, .both, 0, 1⟩,
   ⟨1, 1, 0x44, 4, 1, 0, 1, 4, .ro, .both, 0, 1⟩,
   ⟨1, 1, 0x44, 16, 16, 0, 1, 4, .ro, .both, 0, 65535⟩,
   ⟨1, 1, 0x50, 0, 4, 9, 1, 4, .rw, .both, 0, 15⟩,
   ⟨1, 1, 0x50, 4, 2, 1, 1, 4, .rws, .both, 0, 3⟩,
   ⟨1, 1, 0x50, 8, 1, 0, 1, 4, .rws, .both, 0, 1⟩,
   ⟨1, 1, 0x54, 0, 1, 0, 1, 4, .rw, .both, 0, 1⟩,
   ⟨1, 1, 0x54, 1, 1, 0, 1, 4, .wo, .both, 0, 1⟩,
   ⟨1, 1, 0x58, 0, 32, 0, 1, 4, .rw, .both, 0, 4294967295⟩,
   ⟨1, 1, 0x5C, 0, 32, 0, 1, 4, .rw, .both, 0, 4294967295⟩,
   ⟨1, 1, 0x60, 0, 10, 0, 1, 4, .rw, .both, 0, 575⟩,
   ⟨1, 1, 0x64, 0, 32, 0, 1, 4, .ro, .both, 0, 4294967295⟩,
   ⟨1, 1, 0x68, 0, 32, 0, 1, 4, .ro, .both, 0, 4294967295⟩]

/-- Rows of the STP registers. -/
def regRowsSTP0 : List RegRow :=
  [⟨2, 1, 0x40, 0, 4, 3, 1, 4, .rw, .both, 0, 15⟩,
   ⟨2, 1, 0x40, 8, 8, 16, 1, 4, .rw, .both, 2, 255⟩,
   ⟨2, 1, 0x44, 0, 24, 0, 1, 4, .rw, .both, 0, 16777215⟩,
   ⟨2, 1, 0x48, 0, 24, 0, 1, 4, .ro, .both, 0, 16777215⟩,
   ⟨2, 1, 0x4C, 0, 24, 0, 1, 4, .ro, .both, 0, 16777215⟩,
   ⟨2, 1, 0x50, 0, 3, 0, 1, 4, .ro, .both, 0, 7⟩,
   ⟨2, 1, 0x50, 4, 3, 0, 1, 4, .ro, .both, 0, 7⟩,
   ⟨2, 1, 0x50, 8, 1, 0, 1, 4, .ro, .both, 0, 1⟩,
   ⟨2, 1, 0x50, 9, 1, 0, 1, 4, .ro, .both, 0, 1⟩,
   ⟨2, 1, 0x50, 10, 1, 1, 1, 4, .ro, .both, 0, 1⟩,
   ⟨2, 1, 0x50, 11, 1, 1, 1, 4, .ro, .both, 0, 1⟩,
   ⟨2, 1, 0x50, 16, 16, 0, 1, 4, .ro, .both, 0, 65535⟩,
   ⟨2, 1, 0x54, 0, 32, 0, 1, 4, .ro, .both, 0, 4294967295⟩,
   ⟨2, 1, 0x58, 0, 32, 0, 1, 4, .ro, .both, 0, 4294967295⟩,
   ⟨2, 1, 0x5C, 0, 32, 0, 1, 4, .ro, .both, 0, 4294967295⟩,
   ⟨2, 1, 0x100, 0, 32, 0, 16, 4, .ro, .both, 0, 4294967295⟩]

/-- Rows of the HQS registers. -/
def regRowsHQS0 : List RegRow :=
  [⟨3, 1, 0x40, 0, 32, 0, 1, 4, .rw, .both, 0, 4294967295⟩,
   ⟨3, 1, 0x44, 0, 32, 0, 1, 4, .rw, .both, 0, 4294967295⟩,
   ⟨3, 1, 0x48, 0, 4, 4, 1, 4, .rw, .both, 4, 14⟩,
   ⟨3, 1, 0x50, 0, 32, 0, 1, 4, .rw, .both, 0, 4294967295⟩,
   ⟨3, 1, 0x54, 0, 32, 0, 1, 4, .rw, .both, 0, 4294967295⟩,
   ⟨3, 1, 0x58, 0, 4, 4, 1, 4, .rw, .both, 4, 14⟩,
   ⟨3, 1, 0x58, 8, 8, 23, 1, 4, .rw, .both, 0, 255⟩,
   ⟨3, 1, 0x5C, 0, 16, 0, 1, 4, .rw, .both, 0, 65535⟩,
   ⟨3, 1, 0x60, 0, 32, 0, 1, 4, .rw, .both, 0, 4294967295⟩,
   ⟨3, 1, 0x64, 0, 32, 0, 1, 4, .rw, .both, 0, 4294967295⟩,
   ⟨3, 1, 0x68, 0, 13, 201, 1, 4, .rw, .both, 26, 6445⟩,
   ⟨3, 1, 0x6C, 0, 1, 0, 1, 4, .rw, .both, 0, 1⟩,
   ⟨3, 1, 0x70, 0, 11, 256, 1, 4, .rw, .both, 16, 1020⟩,
   ⟨3, 1, 0x74, 0, 8, 0, 1, 4, .rw, .head, 0, 255⟩,
   ⟨3, 1, 0x74, 8, 1, 0, 1, 4, .rw, .head, 0, 1⟩,
   ⟨3, 1, 0x78, 0, 8, 4, 1, 4, .rw, .both, 1, 255⟩,
   ⟨3, 1, 0x78, 8, 4, 8, 1, 4, .rw, .both, 1, 15⟩,
   ⟨3, 1, 0x78, 16, 5, 16, 1, 4, .rw, .both, 1, 31⟩,
   ⟨3, 1, 0x7C, 0, 32, 0, 1, 4, .ro, .both, 0, 4294967295⟩,
   ⟨3, 1, 0x80, 0, 32, 0, 1, 4, .ro, .tile, 0, 4294967295⟩,
   ⟨3, 1, 0x84, 0, 32, 4294836224, 1, 4, .rw, .tile, 0, 4294967295⟩,
   ⟨3, 1, 0x88, 0, 32, 1, 1, 4, .rw, .tile, 0, 4294967295⟩,
   ⟨3, 1, 0x8C, 0, 32, 0, 1, 4, .rw, .both, 0, 4294967295⟩,
   ⟨3, 1, 0x90, 0, 32, 0, 1, 4, .rw, .both, 0, 4294967295⟩]

/-- Rows of the TRL registers. -/
def regRowsTRL0 : List RegRow :=
  [⟨4, 4, 0x40, 0, 1, 1, 1, 4, .rw, .both, 0, 1⟩,
   ⟨4, 4, 0x40, 1, 1, 0, 1, 4, .rw, .both, 0, 1⟩,
   ⟨4, 4, 0x40, 2, 1, 0, 1, 4, .wo, .both, 0, 1⟩,
   ⟨4, 4, 0x40, 3, 1, 0, 1, 4, .rw, .both, 0, 1⟩,
   ⟨4, 4, 0x40, 4, 1, 1, 1, 4, .rw, .both, 0, 1⟩,
   ⟨4, 4, 0x44, 0, 8, 96, 1, 4, .rw, .both, 16, 255⟩,
   ⟨4, 4, 0x44, 8, 8, 16, 1, 4, .rw, .both, 8, 255⟩,
   ⟨4, 4, 0x44, 16, 8, 8, 1, 4, .rw, .both, 1, 255⟩,
   ⟨4, 4, 0x44, 24, 8, 64, 1, 4, .rw, .both, 4, 255⟩,
   ⟨4, 4, 0x48, 0, 8, 96, 1, 4, .rw, .both, 1, 255⟩,
   ⟨4, 4, 0x4C, 0, 8, 16, 1, 4, .rw, .both, 1, 255⟩,
   ⟨4, 4, 0x4C, 8, 4, 4, 1, 4, .rw, .both, 1, 15⟩,
   ⟨4, 4, 0x50, 0, 5, 2, 8, 4, .rw, .both, 0, 31⟩,
   ⟨4, 4, 0x50, 8, 5, 26, 8, 4, .rw, .both, 0, 31⟩,
   ⟨4, 4, 0x50, 16, 5, 4, 8, 4, .rw, .both, 0, 31⟩,
   ⟨4, 4, 0x70, 0, 8, 0, 1, 4, .rw, .both, 0, 255⟩,
   ⟨4, 4, 0x74, 0, 24, 0, 1, 4, .ro, .both, 0, 16777215⟩,
   ⟨4, 4, 0x78, 0, 6, 0, 1, 4, .ro, .both, 0, 63⟩,
   ⟨4, 4, 0x80, 0, 3, 0, 1, 4, .ro, .both, 0, 7⟩,
   ⟨4, 4, 0x80, 3, 1, 0, 1, 4, .ro, .both, 0, 1⟩,
   ⟨4, 4, 0x80, 4, 8, 0, 1, 4, .ro, .both, 0, 255⟩,
   ⟨4, 4, 0x80, 12, 1, 0, 1, 4, .ro, .both, 0, 1⟩,
   ⟨4, 4, 0x80, 13, 1, 0, 1, 4, .ro, .both, 0, 1⟩,
   ⟨4, 4, 0x80, 14, 1, 0, 1, 4, .ro, .both, 0, 1⟩,
   ⟨4, 4, 0x80, 15, 1, 0, 1, 4, .ro, .both, 0, 1⟩,
   ⟨4, 4, 0x80, 16, 4, 0, 1, 4, .ro, .both, 0, 15⟩,
   ⟨4, 4, 0x80, 20, 4, 0, 1, 4, .ro, .both, 0, 15⟩,
   ⟨4, 4, 0x80, 24, 3, 0, 1, 4, .ro, .both, 0, 7⟩,
   ⟨4, 4, 0x80, 27, 1, 0, 1, 4, .ro, .both, 0, 1⟩,
   ⟨4, 4, 0x84, 0, 32, 0, 1, 4, .ro, .both, 0, 4294967295⟩]

/-- Rows of the TRL registers. -/
def regRowsTRL1 : List RegRow :=
  [⟨4, 4, 0x88, 0, 32, 0, 1, 4, .ro, .both, 0, 4294967295⟩,
   ⟨4, 4, 0x8C, 0, 32, 0, 1, 4, .ro, .both, 0, 4294967295⟩,
   ⟨4, 4, 0x90, 0, 32, 0, 1, 4, .ro, .both, 0, 4294967295⟩,
   ⟨4, 4, 0x94, 0, 9, 0, 1, 4, .ro, .trl0, 0, 511⟩,
   ⟨4, 4, 0x94, 15, 1, 0, 1, 4, .ro, .trl0, 0, 1⟩,
   ⟨4, 4, 0x94, 16, 1, 0, 1, 4, .rw, .trl0, 0, 1⟩,
   ⟨4, 4, 0x98, 0, 16, 0, 1, 4, .rw, .trl0, 0, 65535⟩,
   ⟨4, 4, 0x9C, 0, 32, 0, 1, 4, .rw, .trl0, 0, 4294967295⟩,
   ⟨4, 4, 0xC0, 0, 32, 0, 14, 4, .ro, .both, 0, 4294967295⟩,
   ⟨4, 4, 0x100, 0, 32, 0, 14, 4, .ro, .both, 0, 4294967295⟩]

/-- Rows of the GLB registers. -/
def regRowsGLB0 : List RegRow :=
  [⟨0, 1, 0x200, 0, 2, 0, 1, 4, .rw, .tile, 0, 2⟩,
   ⟨0, 1, 0x200, 8, 8, 96, 1, 4, .rw, .tile, 1, 255⟩,
   ⟨0, 1, 0x200, 16, 4, 4, 1, 4, .rw, .tile, 2, 15⟩,
   ⟨0, 1, 0x204, 0, 16, 1024, 1, 4, .rw, .tile, 64, 65535⟩,
   ⟨0, 1, 0x208, 0, 8, 16, 1, 4, .rw, .head, 4, 255⟩,
   ⟨0, 1, 0x20C, 0, 1, 0, 1, 4, .wo, .head, 0, 1⟩,
   ⟨0, 1, 0x210, 0, 8, 0, 1, 4, .ro, .both, 0, 255⟩,
   ⟨0, 1, 0x210, 8, 1, 0, 1, 4, .ro, .both, 0, 1⟩,
   ⟨0, 1, 0x214, 0, 2, 0, 1, 4, .ro, .tile, 0, 3⟩,
   ⟨0, 1, 0x214, 2, 1, 0, 1, 4, .ro, .tile, 0, 1⟩,
   ⟨0, 1, 0x214, 3, 1, 0, 1, 4, .ro, .tile, 0, 1⟩,
   ⟨0, 1, 0x214, 4, 1, 0, 1, 4, .ro, .tile, 0, 1⟩,
   ⟨0, 1, 0x218, 0, 24, 0, 1, 4, .ro, .tile, 0, 16777215⟩,
   ⟨0, 1, 0x218, 31, 1, 0, 1, 4, .ro, .tile, 0, 1⟩,
   ⟨0, 1, 0x21C, 0, 24, 0, 1, 4, .ro, .tile, 0, 16777215⟩,
   ⟨0, 1, 0x21C, 31, 1, 0, 1, 4, .ro, .tile, 0, 1⟩,
   ⟨0, 1, 0x220, 0, 32, 0, 1, 4, .ro, .tile, 0, 4294967295⟩,
   ⟨0, 1, 0x224, 0, 3, 0, 1, 4, .ro, .head, 0, 7⟩,
   ⟨0, 1, 0x230, 0, 24, 0, 4, 4, .ro, .head, 0, 16777215⟩,
   ⟨0, 1, 0x240, 0, 32, 0, 4, 32, .ro, .both, 0, 4294967295⟩,
   ⟨0, 1, 0x244, 0, 32, 0, 4, 32, .ro, .both, 0, 4294967295⟩,
   ⟨0, 1, 0x248, 0, 32, 0, 4, 32, .ro, .both, 0, 4294967295⟩,
   ⟨0, 1, 0x24C, 0, 32, 0, 4, 32, .ro, .both, 0, 4294967295⟩,
   ⟨0, 1, 0x250, 0, 32, 0, 4, 32, .ro, .both, 0, 4294967295⟩,
   ⟨0, 1, 0x254, 0, 32, 0, 4, 32, .ro, .both, 0, 4294967295⟩,
   ⟨0, 1, 0x258, 0, 32, 0, 4, 32, .ro, .head, 0, 4294967295⟩,
   ⟨0, 1, 0x25C, 0, 32, 0, 4, 32, .ro, .both, 0, 4294967295⟩,
   ⟨0, 1, 0x300, 0, 32, 4294967295, 32, 4, .rw, .tile, 0, 4294967295⟩,
   ⟨0, 1, 0x380, 0, 32, 4294967295, 32, 4, .rw, .tile, 0, 4294967295⟩,
   ⟨0, 1, 0x400, 0, 32, 0, 64, 4, .ro, .tile, 0, 4294967295⟩]

/-- Rows of the GLB registers. -/
def regRowsGLB1 : List RegRow :=
  [⟨0, 1, 0x40, 0, 1, 1, 1, 4, .ro, .both, 0, 1⟩,
   ⟨0, 1, 0x40, 1, 1, 0, 1, 4, .ro, .both, 0, 1⟩,
   ⟨0, 1, 0x40, 2, 2, 0, 1, 4, .ro, .both, 0, 3⟩,
   ⟨0, 1, 0x44, 0, 1, 0, 1, 4, .ro, .both, 0, 1⟩,
   ⟨0, 1, 0x44, 2, 2, 0, 1, 4, .ro, .both, 0, 3⟩,
   ⟨0, 1, 0x44, 4, 2, 0, 1, 4, .ro, .both, 0, 3⟩,
   ⟨0, 1, 0x44, 6, 1, 0, 1, 4, .ro, .both, 0, 1⟩,
   ⟨0, 1, 0x48, 0, 9, 0, 1, 4, .rw, .tile, 0, 511⟩,
   ⟨0, 1, 0x48, 9, 1, 0, 1, 4, .ro, .tile, 0, 1⟩,
   ⟨0, 1, 0x48, 10, 2, 0, 1, 4, .ro, .tile, 0, 3⟩,
   ⟨0, 1, 0x500, 0, 32, 0, 64, 4, .ro, .head, 0, 4294967295⟩,
   ⟨0, 1, 0x600, 0, 32, 0, 1, 4, .rw, .head, 0, 4294967295⟩,
   ⟨0, 1, 0x604, 0, 32, 0, 1, 4, .rw, .head, 0, 4294967295⟩,
   ⟨0, 1, 0x608, 0, 16, 0, 1, 4, .rw, .head, 0, 65535⟩,
   ⟨0, 1, 0x610, 0, 32, 0, 1, 4, .rw, .head, 0, 4294967295⟩,
   ⟨0, 1, 0x614, 0, 32, 0, 1, 4, .rw, .head, 0, 4294967295⟩,
   ⟨0, 1, 0x618, 0, 16, 0, 1, 4, .rw, .head, 0, 65535⟩,
   ⟨0, 1, 0x620, 0, 32, 0, 7, 4, .ro, .head, 0, 4294967295⟩,
   ⟨0, 1, 0x50, 0, 16, 33064, 1, 4, .ro, .both, 0, 65535⟩,
   ⟨0, 1, 0x50, 16, 8, 0, 1, 4, .ro, .both, 0, 255⟩,
   ⟨0, 1, 0x60, 0, 32, 0, 4, 4, .ro, .both, 0, 4294967295⟩,
   ⟨0, 1, 0x70, 0, 32, 0, 1, 4, .ro, .both, 0, 4294967295⟩,
   ⟨0, 1, 0x74, 0, 21, 0, 1, 4, .ro, .both, 0, 2097151⟩,
   ⟨0, 1, 0x74, 28, 2, 0, 1, 4, .ro, .both, 0, 3⟩,
   ⟨0, 1, 0x74, 31, 1, 0, 1, 4, .ro, .both, 0, 1⟩,
   ⟨0, 1, 0x80, 0, 32, 0, 4, 4, .rw, .both, 0, 4294967295⟩]

/-- Rows of the NET registers. -/
def regRowsNET0 : List RegRow :=
  [⟨8, 2, 0x40, 0, 3, 0, 1, 4, .rw, .head, 0, 5⟩,
   ⟨8, 2, 0x40, 3, 1, 1, 1, 4, .rw, .head, 0, 1⟩,
   ⟨8, 2, 0x40, 4, 1, 0, 1, 4, .rw, .head, 0, 1⟩,
   ⟨8, 2, 0x44, 0, 14, 9216, 1, 4, .rw, .head, 1518, 9216⟩,
   ⟨8, 2, 0x48, 0, 1, 0, 1, 4, .rw, .head, 0, 1⟩,
   ⟨8, 2, 0x4C, 0, 32, 0, 1, 4, .rw, .head, 0, 4294967295⟩,
   ⟨8, 2, 0x50, 0, 16, 0, 1, 4, .rw, .head, 0, 65535⟩,
   ⟨8, 2, 0x54, 0, 32, 0, 1, 4, .rw, .head, 0, 4294967295⟩,
   ⟨8, 2, 0x58, 0, 1, 0, 1, 4, .ro, .head, 0, 1⟩,
   ⟨8, 2, 0x58, 1, 2, 0, 1, 4, .ro, .head, 0, 3⟩,
   ⟨8, 2, 0x58, 3, 1, 0, 1, 4, .ro, .head, 0, 1⟩,
   ⟨8, 2, 0x60, 0, 32, 0, 1, 4, .ro, .head, 0, 4294967295⟩,
   ⟨8, 2, 0x64, 0, 32, 0, 1, 4, .ro, .head, 0, 4294967295⟩,
   ⟨8, 2, 0x68, 0, 32, 0, 1, 4, .ro, .head, 0, 4294967295⟩,
   ⟨8, 2, 0x6C, 0, 32, 0, 1, 4, .ro, .head, 0, 4294967295⟩,
   ⟨8, 2, 0x70, 0, 32, 0, 1, 4, .ro, .head, 0, 4294967295⟩,
   ⟨8, 2, 0x74, 0, 32, 0, 1, 4, .ro, .head, 0, 4294967295⟩,
   ⟨8, 2, 0x78, 0, 32, 0, 1, 4, .ro, .head, 0, 4294967295⟩,
   ⟨8, 2, 0x7C, 0, 32, 0, 1, 4, .ro, .head, 0, 4294967295⟩,
   ⟨8, 2, 0x80, 0, 32, 0, 1, 4, .ro, .head, 0, 4294967295⟩,
   ⟨8, 2, 0x84, 0, 32, 0, 1, 4, .ro, .head, 0, 4294967295⟩,
   ⟨8, 2, 0x100, 0, 1, 0, 1, 4, .rw, .net0, 0, 1⟩,
   ⟨8, 2, 0x104, 0, 32, 0, 1, 4, .ro, .net0, 0, 4294967295⟩,
   ⟨8, 2, 0x140, 0, 16, 0, 32, 4, .rw, .net0, 0, 63999⟩,
   ⟨8, 2, 0x200, 0, 2, 0, 16, 4, .ro, .net0, 0, 3⟩,
   ⟨8, 2, 0x200, 2, 1, 0, 16, 4, .ro, .net0, 0, 1⟩]

/-- Rows of the PTP registers. -/
def regRowsPTP0 : List RegRow :=
  [⟨10, 1, 0x40, 0, 1, 0, 1, 4, .rw, .head, 0, 1⟩,
   ⟨10, 1, 0x40, 1, 1, 0, 1, 4, .rw, .head, 0, 1⟩,
   ⟨10, 1, 0x40, 2, 1, 1, 1, 4, .rw, .head, 0, 1⟩,
   ⟨10, 1, 0x40, 3, 1, 1, 1, 4, .rw, .head, 0, 1⟩,
   ⟨10, 1, 0x40, 4, 1, 0, 1, 4, .rw, .head, 0, 1⟩,
   ⟨10, 1, 0x40, 8, 8, 127, 1, 4, .rw, .head, 0, 127⟩,
   ⟨10, 1, 0x44, 0, 4, 13, 1, 4, .rw, .head, 9, 15⟩,
   ⟨10, 1, 0x44, 4, 1, 0, 1, 4, .rw, .head, 0, 1⟩,
   ⟨10, 1, 0x44, 5, 2, 1, 1, 4, .rw, .head, 0, 2⟩,
   ⟨10, 1, 0x48, 0, 16, 512, 1, 4, .rw, .head, 0, 65535⟩,
   ⟨10, 1, 0x4C, 0, 16, 64, 1, 4, .rw, .head, 0, 65535⟩,
   ⟨10, 1, 0x50, 0, 10, 200, 1, 4, .rw, .head, 1, 500⟩,
   ⟨10, 1, 0x54, 0, 32, 100000, 1, 4, .rw, .head, 1000, 2147483647⟩,
   ⟨10, 1, 0x58, 0, 32, 3758747137, 1, 4, .ro, .head, 0, 4294967295⟩,
   ⟨10, 1, 0x5C, 0, 16, 158, 1, 4, .ro, .head, 0, 65535⟩,
   ⟨10, 1, 0x60, 0, 32, 0, 1, 4, .ro, .both, 0, 4294967295⟩,
   ⟨10, 1, 0x64, 0, 24, 0, 1, 4, .ro, .both, 0, 16777215⟩,
   ⟨10, 1, 0x68, 0, 32, 0, 1, 4, .rw, .both, 0, 4294967295⟩,
   ⟨10, 1, 0x6C, 0, 1, 0, 1, 4, .wo, .both, 0, 1⟩,
   ⟨10, 1, 0x70, 0, 2, 0, 1, 4, .ro, .head, 0, 3⟩,
   ⟨10, 1, 0x74, 0, 32, 0, 1, 4, .ro, .head, 0, 4294967295⟩,
   ⟨10, 1, 0x78, 0, 18, 0, 1, 4, .rw, .head, 0, 262143⟩,
   ⟨10, 1, 0x7C, 0, 18, 0, 1, 4, .rw, .head, 0, 262143⟩,
   ⟨10, 1, 0x80, 0, 18, 0, 1, 4, .rw, .head, 0, 262143⟩,
   ⟨10, 1, 0x84, 0, 18, 0, 1, 4, .rw, .head, 0, 262143⟩,
   ⟨10, 1, 0x88, 0, 32, 0, 1, 4, .ro, .head, 0, 4294967295⟩,
   ⟨10, 1, 0x8C, 0, 32, 0, 1, 4, .ro, .head, 0, 4294967295⟩,
   ⟨10, 1, 0x90, 0, 7, 0, 1, 4, .ro, .head, 0, 127⟩,
   ⟨10, 1, 0x90, 16, 7, 0, 1, 4, .ro, .head, 0, 127⟩]

/-- Rows of the CNP registers. -/
def regRowsCNP0 : List RegRow :=
  [⟨11, 1, 0x40, 0, 32, 0, 1, 4, .rws, .both, 0, 4294967295⟩,
   ⟨11, 1, 0x44, 0, 32, 0, 1, 4, .rws, .both, 0, 4294967295⟩,
   ⟨11, 1, 0x48, 0, 13, 256, 1, 4, .rws, .both, 1, 4096⟩,
   ⟨11, 1, 0x4C, 0, 8, 0, 1, 4, .rw, .head, 0, 255⟩,
   ⟨11, 1, 0x50, 0, 20, 7680, 1, 4, .rw, .head, 0, 1048575⟩,
   ⟨11, 1, 0x54, 0, 20, 4320, 1, 4, .rw, .head, 0, 1048575⟩,
   ⟨11, 1, 0x58, 0, 24, 0, 1, 4, .ro, .both, 0, 16777215⟩,
   ⟨11, 1, 0x5C, 0, 7, 0, 1, 4, .ro, .head, 0, 127⟩,
   ⟨11, 1, 0x60, 0, 2, 0, 8, 4, .ro, .both, 0, 3⟩,
   ⟨11, 1, 0x60, 8, 24, 0, 8, 4, .ro, .both, 0, 16777215⟩,
   ⟨11, 1, 0x80, 0, 32, 0, 1, 4, .ro, .both, 0, 4294967295⟩,
   ⟨11, 1, 0x84, 0, 32, 0, 1, 4, .ro, .both, 0, 4294967295⟩,
   ⟨11, 1, 0x88, 0, 32, 0, 1, 4, .ro, .head, 0, 4294967295⟩,
   ⟨11, 1, 0x8C, 0, 23, 0, 1, 4, .ro, .both, 0, 8388607⟩,
   ⟨11, 1, 0x100, 0, 16, 0, 1, 4, .w1c, .tile, 0, 65535⟩,
   ⟨11, 1, 0x104, 0, 16, 0, 1, 4, .ro, .tile, 0, 65535⟩,
   ⟨11, 1, 0x108, 0, 16, 0, 1, 4, .wo, .tile, 0, 65535⟩,
   ⟨11, 1, 0x10C, 0, 16, 0, 1, 4, .ro, .tile, 0, 65535⟩,
   ⟨11, 1, 0x110, 0, 32, 0, 1, 4, .ro, .tile, 0, 4294967295⟩,
   ⟨11, 1, 0x140, 0, 32, 0, 16, 4, .ro, .tile, 0, 4294967295⟩,
   ⟨11, 1, 0x180, 0, 32, 0, 16, 4, .ro, .tile, 0, 4294967295⟩]

/-- Rows of the LCR registers. -/
def regRowsLCR0 : List RegRow :=
  [⟨12, 1, 0x40, 0, 32, 4294967295, 1, 4, .rws, .tile, 0, 4294967295⟩,
   ⟨12, 1, 0x44, 0, 16, 65535, 1, 4, .ro, .tile, 0, 65535⟩,
   ⟨12, 1, 0x44, 16, 16, 65535, 1, 4, .ro, .tile, 0, 65535⟩,
   ⟨12, 1, 0x48, 0, 17, 65536, 1, 4, .ro, .tile, 0, 131071⟩,
   ⟨12, 1, 0x4C, 0, 16, 65535, 1, 4, .ro, .tile, 0, 65535⟩,
   ⟨12, 1, 0x50, 0, 32, 0, 1, 4, .ro, .tile, 0, 4294967295⟩,
   ⟨12, 1, 0x54, 0, 32, 0, 1, 4, .ro, .tile, 0, 4294967295⟩,
   ⟨12, 1, 0x58, 0, 32, 0, 1, 4, .ro, .tile, 0, 4294967295⟩,
   ⟨12, 1, 0x5C, 0, 32, 0, 1, 4, .ro, .tile, 0, 4294967295⟩,
   ⟨12, 1, 0x60, 0, 32, 0, 1, 4, .ro, .tile, 0, 4294967295⟩,
   ⟨12, 1, 0x64, 0, 32, 0, 1, 4, .ro, .tile, 0, 4294967295⟩,
   ⟨12, 1, 0x68, 0, 32, 0, 1, 4, .ro, .tile, 0, 4294967295⟩,
   ⟨12, 1, 0x6C, 0, 32, 0, 1, 4, .ro, .tile, 0, 4294967295⟩,
   ⟨12, 1, 0x70, 0, 32, 0, 1, 4, .ro, .tile, 0, 4294967295⟩,
   ⟨12, 1, 0x74, 0, 32, 0, 1, 4, .ro, .tile, 0, 4294967295⟩,
   ⟨12, 1, 0x78, 0, 32, 0, 1, 4, .ro, .tile, 0, 4294967295⟩,
   ⟨12, 1, 0x7C, 0, 32, 0, 1, 4, .ro, .tile, 0, 4294967295⟩]

/-- Rows of the BRN registers. -/
def regRowsBRN0 : List RegRow :=
  [⟨13, 1, 0x40, 0, 1, 0, 1, 4, .rw, .tile, 0, 1⟩,
   ⟨13, 1, 0x44, 0, 32, 0, 1, 4, .rws, .tile, 0, 4294967295⟩,
   ⟨13, 1, 0x48, 0, 32, 0, 1, 4, .rws, .tile, 0, 4294967295⟩,
   ⟨13, 1, 0x4C, 0, 16, 65535, 1, 4, .rws, .tile, 0, 65535⟩,
   ⟨13, 1, 0x4C, 16, 8, 0, 1, 4, .rws, .tile, 0, 255⟩,
   ⟨13, 1, 0x50, 0, 16, 0, 1, 4, .ro, .tile, 0, 65535⟩,
   ⟨13, 1, 0x54, 0, 24, 0, 1, 4, .ro, .tile, 0, 16777215⟩,
   ⟨13, 1, 0x58, 0, 32, 0, 1, 4, .ro, .tile, 0, 4294967295⟩,
   ⟨13, 1, 0x5C, 0, 32, 0, 1, 4, .ro, .tile, 0, 4294967295⟩,
   ⟨13, 1, 0x60, 0, 32, 0, 1, 4, .ro, .tile, 0, 4294967295⟩,
   ⟨13, 1, 0x64, 0, 32, 0, 1, 4, .ro, .tile, 0, 4294967295⟩,
   ⟨13, 1, 0x68, 0, 32, 0, 1, 4, .ro, .tile, 0, 4294967295⟩,
   ⟨13, 1, 0x6C, 0, 32, 0, 1, 4, .ro, .tile, 0, 4294967295⟩,
   ⟨13, 1, 0x80, 0, 32, 0, 4, 4, .w1c, .tile, 0, 4294967295⟩,
   ⟨13, 1, 0x90, 0, 3, 0, 1, 4, .rw, .tile, 0, 7⟩,
   ⟨13, 1, 0x90, 4, 3, 0, 1, 4, .rw, .tile, 0, 7⟩,
   ⟨13, 1, 0x90, 8, 3, 0, 1, 4, .rw, .tile, 0, 7⟩,
   ⟨13, 1, 0x90, 12, 3, 0, 1, 4, .rw, .tile, 0, 7⟩,
   ⟨13, 1, 0x90, 16, 3, 0, 1, 4, .rw, .tile, 0, 7⟩,
   ⟨13, 1, 0x90, 20, 3, 0, 1, 4, .rw, .tile, 0, 7⟩,
   ⟨13, 1, 0x90, 24, 3, 0, 1, 4, .rw, .tile, 0, 7⟩,
   ⟨13, 1, 0x90, 28, 3, 0, 1, 4, .rw, .tile, 0, 7⟩,
   ⟨13, 1, 0x94, 0, 3, 0, 1, 4, .rw, .tile, 0, 7⟩,
   ⟨13, 1, 0x94, 4, 3, 0, 1, 4, .rw, .tile, 0, 7⟩,
   ⟨13, 1, 0x94, 8, 3, 0, 1, 4, .rw, .tile, 0, 7⟩,
   ⟨13, 1, 0x94, 12, 3, 0, 1, 4, .rw, .tile, 0, 7⟩,
   ⟨13, 1, 0x94, 16, 3, 0, 1, 4, .rw, .tile, 0, 7⟩,
   ⟨13, 1, 0x94, 20, 3, 0, 1, 4, .rw, .tile, 0, 7⟩,
   ⟨13, 1, 0x94, 24, 3, 0, 1, 4, .rw, .tile, 0, 7⟩,
   ⟨13, 1, 0x94, 28, 3, 0, 1, 4, .rw, .tile, 0, 7⟩]

/-- Rows of the PAT registers. -/
def regRowsPAT0 : List RegRow :=
  [⟨14, 1, 0x40, 0, 1, 1, 1, 4, .rw, .tile, 0, 1⟩,
   ⟨14, 1, 0x44, 0, 2, 0, 1, 4, .ro, .tile, 0, 3⟩,
   ⟨14, 1, 0x44, 2, 1, 0, 1, 4, .ro, .tile, 0, 1⟩,
   ⟨14, 1, 0x48, 0, 32, 0, 1, 4, .ro, .tile, 0, 4294967295⟩,
   ⟨14, 1, 0x4C, 0, 1, 0, 1, 4, .rw, .tile, 0, 1⟩,
   ⟨14, 1, 0x4C, 1, 1, 0, 1, 4, .rw, .tile, 0, 1⟩,
   ⟨14, 1, 0x50, 0, 32, 0, 1, 4, .rw, .tile, 0, 4294967295⟩,
   ⟨14, 1, 0x54, 0, 1, 0, 1, 4, .ro, .tile, 0, 1⟩,
   ⟨14, 1, 0x54, 1, 1, 0, 1, 4, .ro, .tile, 0, 1⟩,
   ⟨14, 1, 0x58, 0, 32, 0, 1, 4, .ro, .tile, 0, 4294967295⟩,
   ⟨14, 1, 0x5C, 0, 32, 0, 1, 4, .ro, .tile, 0, 4294967295⟩,
   ⟨14, 1, 0x60, 0, 8, 0, 1, 4, .ro, .tile, 0, 255⟩,
   ⟨14, 1, 0x80, 0, 32, 0, 8, 4, .ro, .tile, 0, 4294967295⟩]

/-- Rows of the AUD registers. -/
def regRowsAUD0 : List RegRow :=
  [⟨15, 1, 0x40, 0, 1, 0, 1, 4, .rw, .head, 0, 1⟩,
   ⟨15, 1, 0x44, 0, 32, 0, 1, 4, .rw, .head, 0, 4294967295⟩,
   ⟨15, 1, 0x48, 0, 32, 0, 1, 4, .rw, .head, 0, 4294967295⟩,
   ⟨15, 1, 0x4C, 0, 2, 0, 1, 4, .rw, .head, 0, 2⟩,
   ⟨15, 1, 0x50, 0, 7, 20, 1, 4, .rw, .head, 1, 100⟩,
   ⟨15, 1, 0x54, 0, 32, 0, 1, 4, .rw, .head, 0, 4294967295⟩,
   ⟨15, 1, 0x58, 0, 32, 0, 1, 4, .rw, .head, 0, 4294967295⟩,
   ⟨15, 1, 0x5C, 0, 16, 0, 1, 4, .rw, .head, 0, 65535⟩,
   ⟨15, 1, 0x60, 0, 1, 0, 1, 4, .ro, .head, 0, 1⟩,
   ⟨15, 1, 0x60, 1, 1, 0, 1, 4, .ro, .head, 0, 1⟩,
   ⟨15, 1, 0x64, 0, 32, 0, 1, 4, .ro, .head, 0, 4294967295⟩,
   ⟨15, 1, 0x68, 0, 32, 0, 1, 4, .ro, .head, 0, 4294967295⟩,
   ⟨15, 1, 0x6C, 0, 32, 0, 1, 4, .ro, .head, 0, 4294967295⟩,
   ⟨15, 1, 0x70, 0, 32, 0, 1, 4, .ro, .head, 0, 4294967295⟩,
   ⟨15, 1, 0x74, 0, 32, 0, 1, 4, .ro, .head, 0, 4294967295⟩,
   ⟨15, 1, 0x100, 0, 4, 0, 16, 8, .ro, .head, 0, 15⟩,
   ⟨15, 1, 0x104, 0, 16, 0, 16, 8, .ro, .head, 0, 65535⟩,
   ⟨15, 1, 0x104, 16, 16, 0, 16, 8, .ro, .head, 0, 65535⟩]

/-- Rows of the FBK registers. -/
def regRowsFBK0 : List RegRow :=
  [⟨16, 1, 0x40, 0, 1, 0, 1, 4, .rw, .pair, 0, 1⟩,
   ⟨16, 1, 0x40, 1, 1, 0, 1, 4, .rw, .pair, 0, 1⟩,
   ⟨16, 1, 0x40, 2, 1, 0, 1, 4, .rw, .pair, 0, 1⟩,
   ⟨16, 1, 0x44, 0, 8, 64, 1, 4, .rw, .pair, 1, 255⟩,
   ⟨16, 1, 0x44, 8, 8, 32, 1, 4, .rw, .pair, 0, 255⟩,
   ⟨16, 1, 0x44, 16, 8, 10, 1, 4, .rw, .pair, 1, 255⟩,
   ⟨16, 1, 0x44, 24, 8, 16, 1, 4, .rw, .pair, 1, 255⟩,
   ⟨16, 1, 0x48, 0, 8, 0, 1, 4, .rw, .pair, 0, 255⟩,
   ⟨16, 1, 0x48, 8, 1, 0, 1, 4, .rw, .pair, 0, 1⟩,
   ⟨16, 1, 0x4C, 0, 1, 0, 1, 4, .ro, .pair, 0, 1⟩,
   ⟨16, 1, 0x4C, 1, 1, 0, 1, 4, .ro, .pair, 0, 1⟩,
   ⟨16, 1, 0x4C, 2, 1, 0, 1, 4, .ro, .pair, 0, 1⟩,
   ⟨16, 1, 0x4C, 3, 1, 0, 1, 4, .ro, .pair, 0, 1⟩,
   ⟨16, 1, 0x4C, 4, 1, 0, 1, 4, .ro, .pair, 0, 1⟩,
   ⟨16, 1, 0x4C, 5, 1, 0, 1, 4, .ro, .pair, 0, 1⟩,
   ⟨16, 1, 0x4C, 8, 2, 0, 1, 4, .ro, .pair, 0, 3⟩,
   ⟨16, 1, 0x50, 0, 8, 0, 1, 4, .ro, .pair, 0, 255⟩,
   ⟨16, 1, 0x50, 8, 16, 0, 1, 4, .ro, .pair, 0, 65535⟩,
   ⟨16, 1, 0x54, 0, 8, 0, 1, 4, .ro, .pair, 0, 255⟩,
   ⟨16, 1, 0x54, 8, 16, 0, 1, 4, .ro, .pair, 0, 65535⟩,
   ⟨16, 1, 0x54, 24, 8, 255, 1, 4, .ro, .pair, 0, 255⟩,
   ⟨16, 1, 0x58, 0, 32, 0, 1, 4, .ro, .pair, 0, 4294967295⟩,
   ⟨16, 1, 0x5C, 0, 32, 0, 1, 4, .ro, .pair, 0, 4294967295⟩,
   ⟨16, 1, 0x60, 0, 32, 0, 1, 4, .ro, .pair, 0, 4294967295⟩,
   ⟨16, 1, 0x64, 0, 16, 0, 1, 4, .ro, .pair, 0, 65535⟩,
   ⟨16, 1, 0x68, 0, 32, 0, 1, 4, .ro, .pair, 0, 4294967295⟩,
   ⟨16, 1, 0x6C, 0, 32, 0, 1, 4, .ro, .pair, 0, 4294967295⟩,
   ⟨16, 1, 0x70, 0, 32, 0, 1, 4, .ro, .pair, 0, 4294967295⟩,
   ⟨16, 1, 0x74, 0, 32, 0, 1, 4, .ro, .pair, 0, 4294967295⟩,
   ⟨16, 1, 0x78, 0, 32, 0, 1, 4, .ro, .pair, 0, 4294967295⟩]

/-- Rows of the BLK registers. -/
def regRowsBLK0 : List RegRow :=
  [⟨0, 23, 0x0, 0, 8, 0, 1, 4, .ro, .both, 0, 255⟩,
   ⟨0, 23, 0x0, 8, 8, 1, 1, 4, .ro, .both, 0, 255⟩,
   ⟨0, 23, 0x0, 16, 16, 33064, 1, 4, .ro, .both, 0, 65535⟩,
   ⟨0, 23, 0x4, 0, 1, 0, 1, 4, .wo, .both, 0, 1⟩,
   ⟨0, 23, 0x10, 0, 32, 0, 1, 4, .w1c, .both, 0, 4294967295⟩,
   ⟨0, 23, 0x14, 0, 32, 4294967295, 1, 4, .rw, .both, 0, 4294967295⟩,
   ⟨0, 23, 0x18, 0, 32, 0, 1, 4, .w1c, .both, 0, 4294967295⟩,
   ⟨0, 23, 0x1C, 0, 5, 0, 1, 4, .rw, .both, 0, 31⟩,
   ⟨0, 23, 0x1C, 8, 2, 0, 1, 4, .rw, .both, 0, 3⟩,
   ⟨0, 23, 0x1C, 31, 1, 0, 1, 4, .wo, .both, 0, 1⟩,
   ⟨0, 23, 0x20, 0, 32, 0, 1, 4, .rw, .both, 0, 4294967295⟩]

/-- Rows of the WDG registers. -/
def regRowsWDG0 : List RegRow :=
  [⟨21, 1, 0x40, 0, 14, 100, 1, 4, .rw, .both, 10, 10000⟩,
   ⟨21, 1, 0x44, 0, 14, 1000, 1, 4, .rw, .both, 100, 10000⟩,
   ⟨21, 1, 0x48, 0, 4, 3, 1, 4, .rw, .both, 1, 15⟩,
   ⟨21, 1, 0x48, 8, 8, 60, 1, 4, .rw, .both, 10, 255⟩,
   ⟨21, 1, 0x4C, 0, 1, 0, 1, 4, .ro, .both, 0, 1⟩,
   ⟨21, 1, 0x4C, 1, 1, 0, 1, 4, .ro, .both, 0, 1⟩,
   ⟨21, 1, 0x4C, 4, 4, 0, 1, 4, .ro, .both, 0, 15⟩,
   ⟨21, 1, 0x50, 0, 32, 0, 1, 4, .ro, .both, 0, 4294967295⟩,
   ⟨21, 1, 0x54, 0, 6, 0, 1, 4, .ro, .both, 0, 63⟩,
   ⟨21, 1, 0x58, 0, 32, 0, 1, 4, .ro, .both, 0, 4294967295⟩]

/-- Rows of the SUP registers. -/
def regRowsSUP0 : List RegRow :=
  [⟨17, 1, 0x40, 0, 1, 0, 1, 4, .rw, .both, 0, 1⟩,
   ⟨17, 1, 0x40, 1, 2, 0, 1, 4, .rw, .both, 0, 2⟩,
   ⟨17, 1, 0x44, 0, 5, 0, 1, 4, .ro, .both, 0, 31⟩,
   ⟨17, 1, 0x44, 8, 1, 0, 1, 4, .ro, .both, 0, 1⟩,
   ⟨17, 1, 0x48, 0, 8, 0, 1, 4, .ro, .both, 0, 255⟩,
   ⟨17, 1, 0x4C, 0, 32, 0, 1, 4, .ro, .both, 0, 4294967295⟩]

/-- Rows of the LMC registers. -/
def regRowsLMC0 : List RegRow :=
  [⟨22, 1, 0x40, 0, 32, 0, 1, 4, .ro, .both, 0, 4294967295⟩,
   ⟨22, 1, 0x44, 0, 32, 0, 1, 4, .ro, .both, 0, 4294967295⟩,
   ⟨22, 1, 0x48, 0, 32, 0, 1, 4, .ro, .both, 0, 4294967295⟩,
   ⟨22, 1, 0x4C, 0, 16, 256, 1, 4, .rw, .both, 0, 65535⟩,
   ⟨22, 1, 0x4C, 16, 1, 1, 1, 4, .rw, .both, 0, 1⟩]

/-- Rows of the THM registers. -/
def regRowsTHM0 : List RegRow :=
  [⟨18, 1, 0x40, 0, 1, 1, 1, 4, .rw, .both, 0, 1⟩,
   ⟨18, 1, 0x44, 0, 11, 0, 1, 4, .ro, .both, 0, 2047⟩,
   ⟨18, 1, 0x44, 12, 3, 0, 1, 4, .ro, .both, 0, 7⟩,
   ⟨18, 1, 0x44, 16, 1, 0, 1, 4, .ro, .both, 0, 1⟩,
   ⟨18, 1, 0x44, 17, 1, 0, 1, 4, .ro, .both, 0, 1⟩,
   ⟨18, 1, 0x44, 18, 1, 0, 1, 4, .ro, .both, 0, 1⟩,
   ⟨18, 1, 0x44, 19, 1, 0, 1, 4, .ro, .both, 0, 1⟩,
   ⟨18, 1, 0x48, 0, 4, 0, 1, 4, .ro, .both, 0, 15⟩,
   ⟨18, 1, 0x4C, 0, 16, 0, 1, 4, .ro, .both, 0, 65535⟩,
   ⟨18, 1, 0x50, 0, 11, 0, 1, 4, .ro, .both, 0, 2047⟩,
   ⟨18, 1, 0x54, 0, 1, 0, 1, 4, .wo, .both, 0, 1⟩,
   ⟨18, 1, 0x58, 0, 32, 0, 1, 4, .ro, .both, 0, 4294967295⟩,
   ⟨18, 1, 0x5C, 0, 32, 0, 1, 4, .ro, .both, 0, 4294967295⟩,
   ⟨18, 1, 0x80, 0, 11, 0, 16, 4, .ro, .both, 0, 2047⟩,
   ⟨18, 1, 0x80, 31, 1, 0, 16, 4, .ro, .both, 0, 1⟩]

/-- Rows of the TRM registers. -/
def regRowsTRM0 : List RegRow :=
  [⟨19, 1, 0x40, 0, 1, 0, 1, 4, .wo, .both, 0, 1⟩,
   ⟨19, 1, 0x40, 1, 1, 0, 1, 4, .rw, .both, 0, 1⟩,
   ⟨19, 1, 0x44, 0, 1, 0, 1, 4, .ro, .both, 0, 1⟩,
   ⟨19, 1, 0x44, 1, 1, 0, 1, 4, .ro, .both, 0, 1⟩,
   ⟨19, 1, 0x48, 0, 13, 0, 1, 4, .ro, .both, 0, 8191⟩,
   ⟨19, 1, 0x4C, 0, 32, 0, 1, 4, .ro, .both, 0, 4294967295⟩,
   ⟨19, 1, 0x100, 0, 5, 0, 176, 4, .rw, .both, 0, 31⟩,
   ⟨19, 1, 0x100, 8, 12, 255, 176, 4, .rw, .both, 0, 4095⟩,
   ⟨19, 1, 0x400, 0, 2, 0, 16, 4, .rw, .both, 0, 3⟩,
   ⟨19, 1, 0x400, 2, 2, 1, 16, 4, .rw, .both, 0, 3⟩,
   ⟨19, 1, 0x400, 8, 8, 0, 16, 4, .rw, .both, 0, 255⟩,
   ⟨19, 1, 0x1000, 0, 32, 0, 4096, 8, .rw, .both, 0, 4294967295⟩,
   ⟨19, 1, 0x1004, 0, 32, 0, 4096, 8, .rw, .both, 0, 4294967295⟩]

/-- Rows of the SDB registers. -/
def regRowsSDB0 : List RegRow :=
  [⟨20, 1, 0x40, 0, 17, 600, 1, 4, .rw, .both, 60, 86400⟩,
   ⟨20, 1, 0x44, 0, 9, 30, 1, 4, .rw, .both, 1, 365⟩,
   ⟨20, 1, 0x48, 0, 32, 4269670400, 1, 4, .rw, .tile, 0, 4294967295⟩,
   ⟨20, 1, 0x4C, 0, 32, 1, 1, 4, .rw, .tile, 0, 4294967295⟩,
   ⟨20, 1, 0x50, 0, 1, 0, 1, 4, .ro, .both, 0, 1⟩,
   ⟨20, 1, 0x50, 1, 1, 0, 1, 4, .ro, .both, 0, 1⟩,
   ⟨20, 1, 0x50, 2, 1, 0, 1, 4, .ro, .both, 0, 1⟩,
   ⟨20, 1, 0x50, 4, 3, 0, 1, 4, .ro, .both, 0, 7⟩,
   ⟨20, 1, 0x54, 0, 17, 0, 1, 4, .ro, .both, 0, 131071⟩,
   ⟨20, 1, 0x58, 0, 32, 0, 1, 4, .ro, .both, 0, 4294967295⟩,
   ⟨20, 1, 0x5C, 0, 32, 0, 1, 4, .ro, .both, 0, 4294967295⟩,
   ⟨20, 1, 0x60, 0, 32, 0, 1, 4, .ro, .both, 0, 4294967295⟩,
   ⟨20, 1, 0x64, 0, 32, 0, 1, 4, .ro, .both, 0, 4294967295⟩,
   ⟨20, 1, 0x68, 0, 8, 0, 1, 4, .ro, .both, 0, 255⟩,
   ⟨20, 1, 0x6C, 0, 32, 0, 1, 4, .ro, .both, 0, 4294967295⟩,
   ⟨20, 1, 0x80, 0, 32, 0, 8, 4, .ro, .both, 0, 4294967295⟩]

/-- Every register field of the part. -/
def regRows : List RegRow :=
  regRowsCLK0 ++ regRowsSTP0 ++ regRowsHQS0 ++ regRowsTRL0 ++ regRowsTRL1 ++ regRowsGLB0 ++ regRowsGLB1 ++ regRowsNET0 ++ regRowsPTP0 ++ regRowsCNP0 ++ regRowsLCR0 ++ regRowsBRN0 ++ regRowsPAT0 ++ regRowsAUD0 ++ regRowsFBK0 ++ regRowsBLK0 ++ regRowsWDG0 ++ regRowsSUP0 ++ regRowsLMC0 ++ regRowsTHM0 ++ regRowsTRM0 ++ regRowsSDB0

end Sys2Proof.Machine
end

