-- ==== Sys2Proof/Machine/Geometry.lean ====
section
/-! DEFINITION. Placement, layer records and the geometry of layers on a tile (R129, R166 - R176, R195). -/

namespace Sys2Proof.Machine

/-- A tile placement section (R167). -/
structure Place where
  x0 : Nat
  y0 : Nat
  u : Nat
  v : Nat
  emit : Nat
  dl : List Nat
  deriving DecidableEq, Repr

/-- The placement in 96 bytes. -/
def Place.parse (bs : Bytes) : Place :=
  { x0 := bits (numAt bs 0 4) 0 19, y0 := bits (numAt bs 4 4) 0 19, u := numAt bs 8 2, v := numAt bs 10 2,
    emit := numAt bs 12 1, dl := (List.range 16).map (fun b => numAt bs (16 + 4 * b) 4) }

/-- Reserved fields and ranges of R167; `limit` is 3/2 of the nominal frame length. -/
def Place.ok (bs : Bytes) (limit : Nat) : Bool :=
  let p := Place.parse bs
  bs.length == 96 && bits (numAt bs 0 4) 19 13 == 0 && bits (numAt bs 4 4) 19 13 == 0 && zeroAt bs 13 3 &&
    zeroAt bs 80 16 && decide (1 ≤ p.u) && decide (p.u ≤ 2048) && decide (1 ≤ p.v) && decide (p.v ≤ 2048) &&
    decide (1 ≤ p.emit) && decide (p.emit ≤ 4) && decide (p.u * p.v ≤ 524288) && decide (p.x0 + p.u ≤ 524288) &&
    decide (p.y0 + p.v ≤ 524288) && p.dl.all (fun d => decide (d ≤ limit))

/-- Lamps of a tile. -/
def Place.lamps (p : Place) : Nat := p.u * p.v

/-- First row of band `b`, and of the band after it (R168). -/
def Place.bandFrom (p : Place) (b : Nat) : Nat := b * p.v / 16

/-- The rows of a band; in Frame mode band 0 is every row. -/
def Place.rows (p : Place) (rolling : Bool) (b : Nat) : Nat × Nat :=
  if rolling then (p.bandFrom b, p.bandFrom (b + 1)) else (0, p.v)

/-- A band holds no rows (R168). -/
def Place.empty (p : Place) (b : Nat) : Bool := p.bandFrom b == p.bandFrom (b + 1)

/-- The empty bands from band `b` on, up to the next band with rows: they count as composed with their predecessor (R168). -/
def Place.emptyFrom (p : Place) (b : Nat) : List Nat := ((List.range (16 - b)).map (· + b)).takeWhile p.empty

/-- The band of a row. -/
def Place.bandOf (p : Place) (row : Nat) : Nat := ((List.range 16).find? (fun b => decide (row < p.bandFrom (b + 1)))).getD 15

/-- A layer record (R170). -/
structure Layer where
  en : Bool
  clear : Bool
  blend : Nat
  filter : Nat
  source : Nat
  key : Nat
  keyed : Bool
  conv : Nat
  dstX : Int
  dstY : Int
  dstW : Nat
  dstH : Nat
  srcX : Nat
  srcY : Nat
  srcW : Nat
  srcH : Nat
  opacity : Nat
  deriving DecidableEq, Repr

/-- The layer record in 32 bytes. -/
def Layer.parse (bs : Bytes) : Layer :=
  let a := numAt bs 0 1; let b := numAt bs 1 1
  { en := bit a 0, clear := bit a 1, blend := bits a 2 2, filter := bits a 4 2, source := bits b 0 4, key := bits b 4 3,
    keyed := bit b 7, conv := bits (numAt bs 2 1) 0 4, dstX := sval (numAt bs 4 4) 32, dstY := sval (numAt bs 8 4) 32,
    dstW := numAt bs 12 4, dstH := numAt bs 16 4, srcX := numAt bs 20 2, srcY := numAt bs 22 2, srcW := numAt bs 24 2,
    srcH := numAt bs 26 2, opacity := numAt bs 28 2 }

/-- Reserved bits of a layer record. -/
def layerReserved (bs : Bytes) : Bool :=
  bits (numAt bs 0 1) 6 2 == 0 && bits (numAt bs 2 1) 4 4 == 0 && zeroAt bs 3 1 && zeroAt bs 30 2

/-- Fields of an enabled layer within their ranges (R170, R195). -/
def layerRanges (bs : Bytes) : Bool :=
  let l := Layer.parse bs
  l.filter != 3 && l.blend != 3 && decide (4096 ≤ l.dstW) && decide (4096 ≤ l.dstH) && decide (l.srcX ≤ 7679) &&
    decide (l.srcY ≤ 4319) && decide (1 ≤ l.srcW) && decide (l.srcW ≤ 7680) && decide (1 ≤ l.srcH) &&
    decide (l.srcH ≤ 4320) && decide (l.opacity ≤ 0x8000)

/-- A layer record is lawful by itself (R171). -/
def layerOk (bs : Bytes) : Bool := layerReserved bs && (!(Layer.parse bs).en || layerRanges bs)

/-- A source format entry (R169). -/
structure Fmt where
  sampling : Nat
  depth : Nat
  valid : Bool
  width : Nat
  height : Nat
  deriving DecidableEq, Repr

/-- The source format entry in 8 bytes. -/
def Fmt.parse (bs : Bytes) : Fmt :=
  let a := numAt bs 0 1
  { sampling := bits a 0 4, depth := bits a 4 2, valid := bit a 7, width := numAt bs 2 2, height := numAt bs 4 2 }

/-- Samplings and depths that exist: the formats of R130, and RGBA 8-bit (R129). -/
def fmtCombo (sampling depth : Nat) : Bool :=
  (sampling == 0 && decide (depth < 3)) || (sampling == 1 && (depth == 1 || depth == 2)) ||
    (sampling == 2 && decide (depth < 3)) || (sampling == 3 && depth == 0)

/-- A source format entry is lawful (R169, R171). -/
def fmtOk (bs : Bytes) : Bool :=
  let f := Fmt.parse bs
  bits (numAt bs 0 1) 6 1 == 0 && zeroAt bs 1 1 && zeroAt bs 6 2 &&
    (!f.valid || (fmtCombo f.sampling f.depth && decide (1 ≤ f.width) && decide (f.width ≤ 7680) && decide (1 ≤ f.height) &&
      decide (f.height ≤ 4320)))

/-- Pixels and bytes of a pixel group (R175). -/
def Fmt.group (f : Fmt) : Nat × Nat :=
  match f.sampling, f.depth with
  | 0, 0 => (2, 4) | 0, 1 => (2, 5) | 0, _ => (2, 6)
  | 3, _ => (1, 4)
  | 2, 0 => (1, 3)
  | _, 1 => (4, 15)
  | _, _ => (2, 9)

/-- Bits of a code. -/
def Fmt.codeBits (f : Fmt) : Nat := 8 + 2 * f.depth

/-- Component samples of a pixel (R174). -/
def Fmt.samples (f : Fmt) : Nat := if f.sampling = 0 then 2 else if f.sampling = 3 then 4 else 3

/-- Bytes of a line (R129). -/
def Fmt.lineBytes (f : Fmt) : Nat := ceilDiv f.width f.group.1 * f.group.2

/-- Chunks of a line (R129). -/
def Fmt.chunks (f : Fmt) : Nat := ceilDiv f.lineBytes 240

/-- One axis of a layer: destination, source, and the step (R172). -/
structure Axis where
  dst : Int
  len : Nat
  src : Nat
  n : Nat
  deriving DecidableEq, Repr

def Layer.ax (l : Layer) : Axis := ⟨l.dstX, l.dstW, l.srcX, l.srcW⟩
def Layer.ay (l : Layer) : Axis := ⟨l.dstY, l.dstH, l.srcY, l.srcH⟩

/-- step as u4.20, an exact half rounded up (R172). -/
def Axis.step (a : Axis) : Nat := if a.len = 0 then 0 else (2 * a.n * 2 ^ 32 + a.len) / (2 * a.len)

/-- Is lamp coordinate `x` inside (R172)? -/
def Axis.inside (a : Axis) (x : Nat) : Bool :=
  let c : Int := (2 * x + 1) * 2048
  decide (a.dst ≤ c) && decide (c < a.dst + a.len)

/-- The source position of a lamp with 32 fraction bits (R172). -/
def Axis.pos (a : Axis) (x : Nat) : Int :=
  (a.src : Int) * 2 ^ 32 + (((2 * x + 1) * 2048 : Nat) - a.dst) * a.step - 2 ^ 31

/-- A lamp's centre as a wall coordinate, numerator and denominator (R166). -/
def lampPt (x : Nat) : Nat × Nat := (2 * x + 1, 2)

/-- R172 at any wall coordinate: inside, i0 and the phase (R187). -/
def Axis.insideAt (a : Axis) (p : Nat × Nat) : Bool :=
  decide (a.dst * (p.2 : Int) ≤ ((p.1 * 4096 : Nat) : Int)) && decide (((p.1 * 4096 : Nat) : Int) < (a.dst + a.len) * (p.2 : Int))
def Axis.tapAt (a : Axis) (p : Nat × Nat) : Int × Nat :=
  let d : Int := ((2 ^ 32 * p.2 : Nat) : Int)
  let v : Int := (a.src : Int) * d + (((p.1 * 4096 : Nat) : Int) - a.dst * (p.2 : Int)) * a.step - ((2 ^ 31 * p.2 : Nat) : Int)
  (v / d, ((v % d).toNat * 64) / (2 ^ 32 * p.2))

/-- i0 and the phase (R172). -/
def Axis.tap (a : Axis) (x : Nat) : Int × Nat := (a.pos x / 2 ^ 32, (a.pos x % 2 ^ 32).toNat / 2 ^ 26)

/-- A source index clamped to the source rectangle. -/
def Axis.clamp (a : Axis) (i : Int) : Nat := (clampI i a.src (a.src + a.n - 1)).toNat

/-- The first and last lamp of [lo, hi) inside, if any. -/
def Axis.range (a : Axis) (lo hi : Nat) : Option (Nat × Nat) :=
  let f : Int := -((2048 - a.dst) / 4096)
  let e : Int := -((2048 - (a.dst + a.len)) / 4096)
  let first := max (lo : Int) f
  let last := min (hi : Int) e - 1
  if first ≤ last then some (first.toNat, last.toNat) else none

/-- The first and last source index read by the lamps of [lo, hi) (R172, R175). -/
def Axis.reads (a : Axis) (lo hi : Nat) : Option (Nat × Nat) :=
  match a.range lo hi with
  | none => none
  | some (f, l) => some (a.clamp ((a.tap f).1 - 3), a.clamp ((a.tap l).1 + 4))

/-- The first and last source index read at rising wall coordinates (R172, R187). -/
def Axis.readsAt (a : Axis) (ps : List (Nat × Nat)) : Option (Nat × Nat) :=
  match (ps.filter a.insideAt).head?, (ps.filter a.insideAt).getLast? with
  | some f, some l => some (a.clamp ((a.tapAt f).1 - 3), a.clamp ((a.tapAt l).1 + 4))
  | _, _ => none

/-- An Interest Table entry (R111): source, first and last line, first and last chunk. -/
structure Interest where
  source : Nat
  l0 : Nat
  l1 : Nat
  c0 : Nat
  c1 : Nat
  deriving DecidableEq, Repr

/-- The entry of a layer over the given rows of a tile (R175). -/
def interestOf (p : Place) (l : Layer) (f : Fmt) (r0 r1 : Nat) : Option Interest :=
  match l.ax.reads p.x0 (p.x0 + p.u), l.ay.reads (p.y0 + r0) (p.y0 + r1) with
  | some (c0, c1), some (l0, l1) =>
    let g := f.group
    some ⟨l.source, l0, l1, c0 / g.1 * g.2 / 240, (c1 / g.1 * g.2 + g.2 - 1) / 240⟩
  | _, _ => none

/-- The span of a layer in component samples (R174). -/
def spanOf (p : Place) (l : Layer) (f : Fmt) : Nat :=
  match l.ax.reads p.x0 (p.x0 + p.u), l.ay.reads p.y0 (p.y0 + p.v) with
  | some (c0, c1), some _ => (c1 - c0 + 1) * f.samples
  | _, _ => 0

/-- Does any lamp of the tile lie inside? -/
def Layer.meets (l : Layer) (p : Place) : Bool :=
  (l.ax.range p.x0 (p.x0 + p.u)).isSome && (l.ay.range p.y0 (p.y0 + p.v)).isSome

/-- Scale within 1/8 to 16 (R174 check 2), exactly. -/
def Axis.scaleOk (a : Axis) : Bool := decide (a.len ≤ 16 * a.n * 4096) && decide (a.n * 4096 ≤ 8 * a.len)

/-- An entry in the 16 bytes of the Interest Table (R111). -/
def Interest.bytes : Option Interest → Bytes
  | none => List.replicate 16 0
  | some i => leBytes 1 1 ++ leBytes 1 i.source ++ leBytes 2 i.l0 ++ leBytes 2 i.l1 ++ leBytes 1 i.c0 ++ leBytes 1 i.c1 ++
      List.replicate 8 0

/-- The envelope of a source over Interest entries (R176). -/
def envelope (es : List Interest) (source : Nat) : Option Interest :=
  es.foldl (fun o e =>
    if e.source != source then o
    else
      match o with
      | none => some e
      | some v => some ⟨source, min v.l0 e.l0, max v.l1 e.l1, min v.c0 e.c0, max v.c1 e.c1⟩) none

/-- Bytes of the source store an envelope takes: two copies of each line (R176). -/
def Interest.store (e : Interest) : Nat := 2 * (e.l1 - e.l0 + 1) * (ceilDiv ((e.c1 - e.c0 + 1) * 240) 64 * 64)

/-- Bytes of the source store a set of entries takes (R176). -/
def storeNeed (es : List Interest) : Nat :=
  (List.range 16).foldl (fun n k => n + (match envelope es k with
    | some e => e.store
    | none => 0)) 0

/-- Does a chunk of a line match an entry (R111)? -/
def Interest.takes (e : Interest) (source line chunk : Nat) : Bool :=
  e.source == source && decide (e.l0 ≤ line) && decide (line ≤ e.l1) && decide (e.c0 ≤ chunk) && decide (chunk ≤ e.c1)

end Sys2Proof.Machine
end

