-- ==== Sys2Proof/Machine/Script.lean ====
section
/-! DEFINITION. Frame Scripts: header, group records and primitives, their checks and lengths, and what a run drives
(R225 - R229, R233, R235, R237, R238). -/

namespace Sys2Proof.Machine

/-- A BGC pin (R224, R232): the grey clock of period 2 * GDIV CK_SCAN cycles, or a level. -/
inductive GreyPin where
  | clock (gdiv : Nat)
  | level (high : Bool)
  deriving DecidableEq, Repr

/-- What the pins of a group carry over a stretch of CK_SCAN cycles (R224): `periods` bit periods, in each of which BCK is low for
`half` cycles and then high for as long, with BLE and the BRD bits of the group's branches; BCK, BLE and BRD are low in what
remains. -/
structure Stretch where
  cycles : Nat
  half : Nat
  periods : Nat
  ble : List Bool
  brd : List (List Bool)
  bgc : GreyPin
  deriving DecidableEq, Repr

/-- The Frame Scripts header (R225). -/
structure Scripts where
  scan : Nat
  chmax : Nat
  prims : Nat
  primOfs : Nat
  fwdOfs : Nat
  retOfs : Nat
  deriving DecidableEq, Repr

/-- The header in the section's first 192 bytes. -/
def Scripts.parse (bs : Bytes) : Scripts := ⟨numAt bs 0 2, numAt bs 2 2, numAt bs 4 4, numAt bs 8 4, numAt bs 12 4, numAt bs 16 4⟩

/-- A group record (R225). -/
structure Group where
  en : Bool
  plane : Bool
  oePol : Bool
  rsv : Nat
  div : Nat
  gdiv : Nat
  ret : Nat
  start : Nat
  codew : Nat
  nic : Nat
  deriving DecidableEq, Repr

/-- Group record `g` of the header. -/
def Group.parse (hdr : Bytes) (g : Nat) : Group :=
  let o := 64 + 8 * g; let a := numAt hdr o 1
  { en := bit a 0, plane := bit a 1, oePol := bit a 2, rsv := bits a 3 5, div := numAt hdr (o + 1) 1,
    gdiv := numAt hdr (o + 2) 1, ret := numAt hdr (o + 3) 1, start := numAt hdr (o + 4) 2, codew := numAt hdr (o + 6) 1,
    nic := numAt hdr (o + 7) 1 }

/-- A group record is lawful (R225, R229). -/
def Group.ok (g : Group) (emit : Nat) : Bool :=
  g.rsv == 0 && (!g.en ||
    ((g.plane || !g.oePol) && decide (1 ≤ g.div) && (g.plane || decide (1 ≤ g.gdiv)) &&
      (g.codew == 0 || (!g.plane && decide (8 * emit ≤ g.codew))) && decide (1 ≤ g.nic) && decide (g.nic ≤ 64)))

/-- Fields of a primitive (R226). -/
def pOp (p : Nat) : Nat := bits p 0 4
def pC (p : Nat) : Bool := bit p 5
def pCond (p : Nat) : Nat := bits p 6 2
def pN (p : Nat) : Nat := bits p 32 16 + 1
def pK (p : Nat) : Nat := bits p 8 5

/-- A primitive without reserved values and within its ranges (R226, R229). -/
def primOk (scan chmax p : Nat) : Bool :=
  match pOp p with
  | 0 | 7 => bits p 4 60 == 0
  | 1 =>
    pCond p != 3 && decide (bits p 8 4 ≤ 4) && decide (bits p 13 5 ≤ min 31 (pN p)) && bits p 18 14 == 0 &&
      (bits p 8 4 == 3 || bits p 48 16 == 0)
  | 2 => pCond p != 3 && decide (1 ≤ pK p) && bits p 14 50 == 0
  | 3 => pCond p != 3 && decide (1 ≤ bits p 8 24) && bits p 32 32 == 0
  | 4 => pCond p != 3 && decide (1 ≤ pK p) && bits p 14 50 == 0
  | 5 => pCond p != 3 && bits p 8 2 != 3 && bits p 11 21 == 0 && decide (pN p ≤ chmax) && bits p 48 16 == 0
  | 6 => bits p 4 4 == 0 && bits p 24 40 == 0
  | 8 => bits p 4 4 == 0 && bits p 8 2 != 3 && bits p 10 6 == 0 && decide (bits p 16 6 < scan) && bits p 22 42 == 0
  | 9 => bits p 4 4 == 0 && decide (bits p 8 2 < 2) && bits p 10 6 == 0 && bits p 20 44 == 0
  | _ => false

/-- Bit periods of a primitive (R226). -/
def primBits (p : Nat) : Nat :=
  match pOp p with
  | 1 => pN p
  | 2 => pK p
  | 4 => 8 + pK p
  | 5 => pN p * (if bits p 8 2 = 0 then 2 else 1)
  | _ => 0

/-- Duration of a primitive in CK_SCAN cycles (R226). -/
def primTime (div p : Nat) : Nat := if pOp p = 3 then bits p 8 24 else 2 * div * primBits p

/-- Does a primitive run in a sub-frame (R226, R228)? -/
def primRuns (sub p : Nat) : Bool :=
  match pCond p with
  | 1 => sub == 0
  | 2 => sub != 0
  | _ => true

/-- Does an operation take COND (R226)? -/
def hasCond (p : Nat) : Bool := decide (1 ≤ pOp p) && decide (pOp p ≤ 5)

/-- The length of a run from primitive `pc` to its END (R229 checks 1 and 2): none where the script breaks check 1.  The
stack holds the open loops: COUNT and the time before the loop. -/
def scriptLen (prim : Nat → Nat) (div sub : Nat) (fuel pc acc : Nat) (stack : List (Nat × Nat)) : Option Nat :=
  match fuel with
  | 0 => none
  | fuel + 1 =>
    let p := prim pc
    match pOp p with
    | 0 => if stack.isEmpty then some acc else none
    | 6 => if 2 ≤ stack.length then none else scriptLen prim div sub fuel (pc + 1) 0 ((bits p 8 16 + 1, acc) :: stack)
    | 7 =>
      match stack with
      | [] => none
      | (n, before) :: rest => scriptLen prim div sub fuel (pc + 1) (before + n * acc) rest
    | _ =>
      let t := if hasCond p && !primRuns sub p then 0 else primTime div p
      scriptLen prim div sub fuel (pc + 1) (acc + t) stack

/-- The primitives of a script in order, from `pc` to its END. -/
def scriptPrims (prim : Nat → Nat) (fuel pc : Nat) : List Nat :=
  match fuel with
  | 0 => []
  | fuel + 1 => let p := prim pc; if pOp p = 0 then [p] else p :: scriptPrims prim fuel (pc + 1)

/-- Checks 3 and 4 of R229 on one script. -/
def scriptRules (g : Group) (ps : List Nat) : Bool :=
  let rows := (ps.filter (fun p => pOp p == 4)).map pK
  let les := (ps.filter (fun p => pOp p == 2)).map pK ++ (ps.filter (fun p => pOp p == 1)).map (fun p => bits p 13 5)
  rows.all (fun k => rows.all (fun j => j == k) && !les.contains k) &&
    ps.all (fun p => !(pOp p == 1 && ((g.plane && bits p 8 4 == 2) || (!g.plane && bits p 8 4 == 1)))) &&
    (g.plane || !g.oePol || ps.all (fun p => !(hasCond p && bit p 4)))

/-- One stretch of bit periods of a run: the primitive, its first and last bit period driven, ROW and PLANE, and the
positions at its start in the word stream, in bits of 16 to a word, and in the code stream (R227; a PLANE bit takes a whole word,
DEDUCED, log entry 190). -/
structure Seg where
  prim : Nat
  /-- CK_SCAN cycles it takes. -/
  time : Nat
  n : Nat
  row : Nat
  plane : Nat
  cur : Nat
  code : Nat
  deriving DecidableEq, Repr

/-- Where a run stands. -/
structure Walk where
  pc : Nat
  stack : List (Nat × Nat)
  row : Nat
  plane : Nat
  cur : Nat
  code : Nat
  time : Nat
  segs : List Seg
  ended : Bool
  deriving DecidableEq, Repr

/-- A run at the start of a script (R227, R228). -/
def Walk.at0 (pc time : Nat) (segs : List Seg) : Walk := ⟨pc, [], 0, 0, 0, 0, time, segs, false⟩

/-- Play a script: primitives back to back up to END, or up to a limit in CK_SCAN cycles, where the primitive under way is
cut (R228).  Segments are newest first. -/
def play (prim : Nat → Nat) (div sub scan limit : Nat) (fuel : Nat) (w : Walk) : Walk :=
  match fuel with
  | 0 => w
  | fuel + 1 =>
    let p := prim w.pc
    match pOp p with
    | 0 => { w with ended := true }
    | 6 => play prim div sub scan limit fuel { w with pc := w.pc + 1, stack := (bits p 8 16 + 1, w.pc + 1) :: w.stack }
    | 7 =>
      match w.stack with
      | [] => w
      | (n, from0) :: rest =>
        if n ≤ 1 then play prim div sub scan limit fuel { w with pc := w.pc + 1, stack := rest }
        else play prim div sub scan limit fuel { w with pc := from0, stack := (n - 1, from0) :: rest }
    | 8 =>
      let row := match bits p 8 2 with
        | 0 => bits p 16 6
        | 1 => (w.row + 1) % scan
        | _ => sub % scan
      play prim div sub scan limit fuel { w with pc := w.pc + 1, row := row, cur := 0 }
    | 9 =>
      let plane := if bits p 8 2 = 0 then bits p 16 4 else (w.plane + 1) % 16
      play prim div sub scan limit fuel { w with pc := w.pc + 1, plane := plane, cur := 0 }
    | _ =>
      if !primRuns sub p then play prim div sub scan limit fuel { w with pc := w.pc + 1 }
      else
        let t := primTime div p
        if limit < w.time + t then
          let n := min (primBits p) ((limit - w.time) / (2 * div))
          { w with time := limit, segs := ⟨p, limit - w.time, n, w.row, w.plane, w.cur, w.code⟩ :: w.segs }
        else
          let src := bits p 8 4
          let cur := if pOp p = 1 && src ≤ 1 then w.cur + (if src = 1 then 16 else 1) * pN p else w.cur
          let code := if pOp p = 1 && src = 2 then w.code + pN p else w.code
          play prim div sub scan limit fuel
            { w with pc := w.pc + 1, time := w.time + t, cur := cur, code := code
                     segs := ⟨p, t, primBits p, w.row, w.plane, w.cur, w.code⟩ :: w.segs }

/-- The row word of a ROWCAST (R233). -/
def rowWord (row : Nat) (blank : Bool) : Nat :=
  let v := if blank then 64 else row
  let ones := ((List.range 7).filter (fun i => bit v i)).length
  v + 128 * b2n (ones % 2 == 0)

/-- Bit `i` of a segment on one branch (R226, R227, R233, R237), given the word at (row, channel), the code byte of
(IC, colour), and the Census pattern of (row, channel) where the run is a Census frame's. -/
def segBit (g : Group) (emit chmax : Nat) (word : Nat → Nat → Nat) (code : Nat → Nat → Nat) (s : Seg) (i : Nat) : Bool :=
  let p := s.prim
  match pOp p with
  | 1 =>
    match bits p 8 4 with
    | 0 =>
      let pos := s.cur + i
      let w := if pos / 16 < chmax then word s.row (pos / 16) else 0
      if bit p 12 then bit w (pos % 16) else bit w (15 - pos % 16)
    | 1 =>
      let pos := s.cur / 16 + i
      let w := if pos < chmax then word s.row pos else 0
      bit w (15 - s.plane)
    | 2 =>
      let pos := s.code + i
      let ic := pos / g.codew; let k := pos % g.codew; let pad := g.codew - 8 * emit
      if g.codew = 0 || g.nic ≤ ic || k < pad then false
      else bit (code ic (emit - 1 - (k - pad) / 8)) (7 - (k - pad) % 8)
    | 3 => if bit p 12 then bit (bits p 48 16) (i % 16) else bit (bits p 48 16) (15 - i % 16)
    | _ => false
  | 2 => bit p 13
  | 4 => if i < 8 then bit (rowWord s.row (bit p 13)) (7 - i) else false
  | _ => false

/-- BLE in bit period `i` of a segment (R226, R233): high in the last LEK of a SHIFT, in an LE, and in a ROWCAST after its row word. -/
def segLe (s : Seg) (i : Nat) : Bool :=
  let p := s.prim
  match pOp p with
  | 1 => decide (pN p ≤ i + bits p 13 5)
  | 2 => true
  | 4 => decide (8 ≤ i)
  | _ => false

/-- A segment that is Census-only in a frame that is not a Census frame idles (R236). -/
def segIdle (census : Bool) (s : Seg) : Bool := pC s.prim && !census

/-- BGC over a segment (R225, R226, R232): the grey clock, or in Plane mode the output enable at its polarity. -/
def segGc (g : Group) (census : Bool) (s : Seg) : GreyPin :=
  let on := bit s.prim 4 && !segIdle census s
  if g.plane then .level (on != g.oePol) else if on then .clock g.gdiv else .level false

/-- The pins of a group over a segment (R224, R226, R232): its bit periods with BCK, BLE and the BRD bits of its eight branches, or,
idle or in a WAIT, all low. -/
def segPins (g : Group) (census : Bool) (brd : List (List Bool)) (s : Seg) : Stretch :=
  let n := if segIdle census s then 0 else s.n
  { cycles := s.time, half := g.div, periods := n, ble := (List.range n).map (segLe s)
    brd := if segIdle census s then [] else brd, bgc := segGc g census s }

/-- The 8 CK_SCAN cycles of low pins after an overrun (R228). -/
def cutPins (g : Group) : Stretch := { cycles := 8, half := g.div, periods := 0, ble := [], brd := [], bgc := .level (g.plane && g.oePol) }

/-- One bit into a reflected CRC-32 (R235). -/
def crcBitIn (c : BitVec 32) (b : Bool) : BitVec 32 :=
  let x := c ^^^ (if b then 1 else 0)
  if x.getLsbD 0 then (x >>> 1) ^^^ 0xEDB88320 else x >>> 1

/-- Status of a channel from its return bits (R238): format, the bits, and L. -/
def censusStatus (fmt : Nat) (b0 b1 lit : Bool) : Nat :=
  let open0 := fmt != 2 && b0
  let short := if fmt = 0 then b1 else fmt == 2 && b0
  if short then 2 else if open0 then 1 else if lit then 0 else 3

end Sys2Proof.Machine
end

