-- ==== Sys2Proof/Machine/State.lean ====
section
/-! DEFINITION. The state of the TBG-8128: everything the spec gives the machine, as plain data, with its value right
after the release of PORn, and the reasons for which a step can stop. -/

namespace Sys2Proof.Machine

/-- An RTP packet as it leaves (R141): its launch time in ns, whether it was late, its Ethernet, VLAN, IPv4, UDP and RTP header
fields, and its samples (audio) or sample bytes (video). -/
structure RtpOut where
  flow : Nat
  port : Nat
  time : Nat
  late : Bool
  srcMac : Nat
  dstMac : Nat
  vlan : Option (Nat × Nat)
  srcIp : Nat
  dstIp : Nat
  srcPort : Nat
  dstPort : Nat
  dscp : Nat
  ttl : Nat
  pt : Nat
  ssrc : Nat
  seq : Nat
  ts : Nat
  samples : List Int
  payload : Bytes
  deriving DecidableEq, Repr

/-- What leaves the device: the model's own record of it, newest first. -/
inductive Out where
  /-- A write to host memory over PCIe. -/
  | hostWrite (addr : Nat) (bytes : Bytes)
  /-- An MSI-X message (R62): the vector, and its entry's address and data. -/
  | vector (v addr data : Nat)
  /-- A payload slot sent on a Trail port: slot index, class, SUB, KEY and payload (R102). -/
  | slot (port idx cls sub : Nat) (key payload : Bytes)
  /-- A marker slot sent on a Trail port: bytes 64-255 (R107). -/
  | marker (port : Nat) (fields : Bytes)
  /-- Consecutive stripes of one link-control block type, or the marker stripe of a cycle, sent on a Trail port: the type, how
  many, and the 64 payload bytes of one before the scrambler (R86, R87). -/
  | stripe (port typ n : Nat) (payload : Bytes)
  /-- A slot that a tile forwards out of a Trail port: its index and bytes (R112). -/
  | relay (port index : Nat) (slot : Bytes)
  /-- The pins of a branch group from a CK_CORE cycle on (R224, R228). -/
  | script (group start : Nat) (pins : List Stretch)
  /-- A wake burst on a Trail port (R98). -/
  | burst (port : Nat)
  /-- FB_CLK starts or stops being forwarded (R23). -/
  | fbclk (on : Bool)
  /-- A frame sent on a NET port at a counter value (R158). -/
  | frame (port : Nat) (time : Nat) (bytes : Bytes)
  /-- An RTP packet of a transmit flow (R141, R264). -/
  | rtp (p : RtpOut)
  /-- 32-bit slot words of a transmit side's slot at 48 kHz, before any converter (R261 - R263): 16 * PORT + SLOT. -/
  | audio (channel : Nat) (words : List Nat)
  /-- A side of an audio port, 2 * PORT + SIDE, starts in a format, or is off with its pins high-Z (R258, R261). -/
  | audioSide (side : Nat) (frame : Option AudFrame)
  /-- FB_START goes high for that many CK_SYS cycles (R260). -/
  | fbStart (cycles : Nat)
  /-- A PTP message handed to Ranger with its timestamp, in ns and in 2^-24 ns (R151). -/
  | ptpToRanger (port ns frac : Nat) (bytes : Bytes)
  /-- A PTP message that Ranger sends (R152): port, message type, domain, whether two-step, and the time at the balls in ns. -/
  | ptpSent (port typ domain : Nat) (twoStep : Bool) (ns : Nat)
  /-- An ST 2059-2 synchronization metadata message that Ranger has decoded for the host (R152). -/
  | ptpMeta (port : Nat) (bytes : Bytes)
  /-- An FB_SER frame (R281). -/
  | ser (bytes : Bytes)
  deriving DecidableEq, Repr

/-- The state. -/
structure State where
  /-- Commands waiting, first in first out; the block's queue; empty. -/
  pending : List Instr
  /-- Power, straps, Ranger; R346 - R349. -/
  power : Power
  /-- Fuses; R389, R343. -/
  fuses : Fuses
  /-- CK_CORE cycles since the dividers started; R21; 0. -/
  core : Nat
  /-- The time counter: 32-bit ns, 40 fraction bits; R148; 0. -/
  ptp : BitVec 72
  /-- Register fields that differ from their reset values; R7; none. -/
  regs : Map Nat
  /-- Reactions that differ from their defaults, by 32 * block + source; R291; none. -/
  react : Map Nat
  /-- The CK_SYS cycle in which `rose` was set; R7; 0. -/
  roseAt : Nat
  /-- W1C bits that hardware set in that cycle, by register key; R7; none. -/
  rose : Map Nat
  /-- Quiesce windows; R293; none. -/
  quiesce : List Window
  /-- CK_CORE cycle of the last block reset while R295's limit runs; none. -/
  limitFrom : Option Nat
  /-- Local Memory; R60, R61; every byte 0. -/
  lm : Store
  /-- Local Memory codewords (address / 8) known to hold an uncorrectable error; R296; none. -/
  lmBad : List Nat
  /-- Seedbank; R330; every byte 0. -/
  sdb : Store
  /-- Frame timing; R28 - R31. -/
  frames : Frames
  /-- Step Engine; R37 - R58. -/
  stp : Step
  /-- Host queues; R63 - R75. -/
  hq : Queues
  /-- Trail; R89 - R123. -/
  trail : Trail
  /-- Network; R125 - R147, R158. -/
  net : Net
  /-- Servo; R153 - R156. -/
  servo : Servo
  /-- Pair; R270 - R288. -/
  pair : Pair
  /-- Supply monitor, watchdog, thermal; R298 - R317. -/
  care : Care
  /-- Canopy and Glades; R166 - R206. -/
  cnp : Canopy
  /-- Lamp correction; R208 - R220. -/
  lcr : Corr
  /-- Branch engine; R223 - R245. -/
  brn : Branch
  /-- Hold states; R246 - R255. -/
  hold : Hold
  /-- Audio; R258 - R267. -/
  aud : Audio
  /-- Trim and repair; R321 - R328. -/
  trm : Trim
  /-- Boot engine and firmware slots; R330 - R341, R351. -/
  seed : Seed
  /-- Instruction of the test access port; R378; IDCODE. -/
  tap : TapInstr
  /-- What has left the device, newest first; the model's own field; none. -/
  out : List Out
  /-- Free values drawn so far; the model's own field; 0. -/
  free : Nat
  deriving DecidableEq, Repr

/-- A fault: none of this block's commands stops with one; an event the spec does not describe is a refusal. -/
inductive Fault where
  /-- No meaning raises it (safe). -/
  | unused
  deriving DecidableEq, Repr

/-- Why a command has no meaning. -/
inductive Refusal where
  /-- The command has no meaning in this model yet (safe). -/
  | notModelled (mnemonic : String)
  /-- PORn was released with the TEST_MODE strap high: R348 puts that behaviour outside the manual (safe). -/
  | testMode
  deriving DecidableEq, Repr

/-- Strap balls all tied to ground: a single head that boots from the Seedbank (log entry 1). -/
def strapsLow : StrapBalls := ⟨false, false, false, false, false, false⟩

/-- Fuse contents the model names for reset (log entry 3). -/
def Fuses.blank : Fuses := ⟨0, 0, 0, 0, 0⟩

/-- Power right after a release of PORn with the given straps; what VDD_AUX keeps stays. -/
def Power.fresh (straps : StrapBalls) (flag : Bool) (last : Nat) (pcie : Bool) : Power :=
  { phase := .run, straps := straps, clocks := false, ranger := .starting, shutFlag := flag, lastReset := last,
    pcie := pcie, fbclk := false, dips := 0, holdAt := none, slewAt := none, fbclkOut := false }

def Frames.fresh : Frames :=
  { tgt := 0, k := 0, next := 0, fixed := none, reseed := none, start := 0, begun := false, lost := false, lostN := 0,
    lostAt := 0, len := 0, nominal := false, told := false, sub := 0, latch := none, latchBy := 0, jumped := false }

/-- A bank item no one has set. -/
def PerTile.fresh : PerTile := ⟨[], []⟩

/-- A bank after reset: no Stand, no overlay, every item empty, the dimmer full (R216). -/
def Bank.fresh : Bank :=
  { stand := none, ovl := 0, layers := [], bufs := [], under := .fresh, ptrs := .fresh, glades := [], gladeT := [],
    pats := [], hold := [], dimM := 0xFFFF, dimK := 0xFFFF, rws := [], img := [] }

def Stepping.fresh : Stepping := ⟨[], [], none, [], [], none, []⟩

def Step.fresh : Step :=
  { stands := [], ovls := [], ovlFailed := 0, active := .fresh, shadow := .fresh, retiring := none, hostEdit := false,
    dirty := [], dirtyLocal := false, commits := [], nextId := 1, fieldId := 0, fieldState := 0, fieldTarget := 0,
    lastCommit := none, armed := [], walk := .fresh, prev := .fresh, imgBad := false, staged := none, prepIn := none, layerIn := none,
    excl := 0 }

/-- SQ 0 as the admin registers set it up at reset (R63, R82). -/
def Sq.admin : Sq :=
  { base := 0, depth := 16, cq := 0, prio := 3, mailbox := false, burst := 1, head := 0, tail := 0, halted := false }

/-- CQ 0 as the admin registers set it up at reset (R63, R73, R82). -/
def Cq.admin : Cq :=
  { base := 0, depth := 16, headAddr := 0, vector := 23, irqEn := true, coalCount := 1, coalTime := 0, tail := 0,
    phase := true, head := 0, halted := false, unsig := 0, unsigAt := 0 }

def Queues.fresh : Queues :=
  { sqs := [(0, .admin)], cqs := [(0, .admin)], flights := [], serving := [], events := [], deleting := [], chain := [], loHeld := [],
    hiCap := [], msixTab := [], msixPend := [] }

def Feed.fresh : Feed :=
  { headFed := false, missing := 0, dropped := false, liveFor := 0, arr := 0, cycle := 0, active := false, feeder := 0,
    fields := [], dLast := none, dApplied := false }

/-- The reset values of TRAIN_CFG, DET_CFG, BER_CFG and TXEQ (R100). -/
def PortCfg.fresh : PortCfg := ⟨96, 16, 8, 64, 96, 16, 4, List.replicate 8 (2 + 256 * 26 + 65536 * 4)⟩

def Port.fresh : Port :=
  { adapted := false, fast := false, since := 0, seenPrbs := false, cycle := 0, cycleAt := 0, slotAt := 1024, sleeping := false,
    cfg := .fresh, senses := 0, rx := List.replicate 8 ⟨none, none⟩, offs := [], berRun := 0, readySince := none, left := none,
    closing := none, plan := 0,
    pool := [], uni := [], bc := [], echo := [], eseq := 0, echoTile := 0, dTile := [], heard := [], feed := .fresh }

def Trail.fresh : Trail :=
  { ports := [.fresh, .fresh, .fresh, .fresh], planNext := 0, epochAt := none, bid := 0, sent := [], sentDesc := [],
    rseq := [], gaps := [], links := [], locks := [], chunks := [], bcasts := [], expect := none, ackDue := false, mbxHead := 0,
    mbxPost := 0, mbxFly := [], rseqNext := 0, pendReply := none, pendAck := none, pendGap := none, pendLock := none, msgs := [], paused := [],
    previews := [], built := [], evSent := 0, evWait := 0, rsps := [], prefNext := none, afterReply := [], lockAge := 0 }

def Net.fresh : Net :=
  { flows := [], counts := [], merge := [], sources := [], outs := [], rx := [], univs := [], smap := [], cues := [],
    cueVal := [], sacnHeld := [], sacnDirty := false, cue := [], cueHeld := none, txflows := [], pvw := [], pvwSet := [],
    pvwDone := none, vtx := none, timed0 := [], timed1 := [], plain0 := [], plain1 := [], busy0 := 0, busy1 := 0, ts0 := [], ts1 := [], inForce := [] }

def Servo.fresh : Servo := ⟨0, 0, none, none, none⟩

def Pair.fresh : Pair :=
  { actLow := some 0, claimAt := none, overlap := none, takeover := false, peer := none, good := 0,
    resigners := [], rootBad := false, wdgBad := false, hostBad := false, updates := 0, uncorrAt := none,
    patrolAt := none, corr := [], dwell := 0, handover := none, digests := [], stuckAt := none, fails := 0 }

def Care.fresh : Care :=
  { kickAt := 0, counting := false, preDone := false, restarts := [], restartDesc := none, lateCommit := none, lateMbx := none, lateCue := none,
    sampleAt := none, thrAcc := 0, hotRun := 0, shut := false }

def Canopy.fresh : Canopy :=
  { lines := [], passes := [], queue := [], since := 0, paceAt := 0, paceDone := 0, fifoFull := false, due := [], shown := [], work := [], latched := 0,
    judgedIn := none, okCount := [], missCount := [], refs := [], refNext := 0, fetching := [], staged := [], preview := none }

def Corr.fresh : Corr := { code := ⟨65535, 0xFFFFFFFF, none, []⟩, next := [], patches := [], patOff := none }

def Branch.fresh : Branch :=
  { runs := [], longest := 0, spans := [], hiz := false, skip := [], bad := [], compared := [], overran := [], census := none,
    wanted := [], running := [] }

def Hold.fresh : Hold := ⟨[], false, false, false⟩

def Trim.fresh : Trim := ⟨[], none, false⟩

/-- Slots as a device without firmware images holds them (log entry 3). -/
def Seed.fresh : Seed :=
  { slotA := 0, slotB := 0, booted := 0, got := [], waiting := [], loaded := false, source := none, going := none,
    deadline := none, report := none, stage := none, skipped := none }

/-- A slot that a reset finds half written is EMPTY (R342). -/
def slotKept (v : Nat) : Nat := if v = 1 then 0 else v

/-- What the Seedbank keeps of the slots through a reset (R347). -/
def Seed.kept (x : Seed) : Seed := { Seed.fresh with slotA := slotKept x.slotA, slotB := slotKept x.slotB, booted := x.booted }

def Audio.fresh : Audio :=
  { tgt := 0, num := 0, playing := false, pos := 0, sides := [], streams := [], routes := [], captures := [], txaud := [],
    nextPkt := [], groups := [], regroup := [], held := [], packs := [], jump := none, silent := false, slew := 0, pulse := none }

/-- The state right after a release of PORn (R347): everything fresh but the Seedbank, the fuses and the flags. -/
def State.released (straps : StrapBalls) (fuses : Fuses) (flag : Bool) (last : Nat) (pcie : Bool) (sdb : Store)
    (seed : Seed) : State :=
  { pending := [], power := .fresh straps flag last pcie, fuses := fuses, core := 0, ptp := 0, regs := [], react := [], roseAt := 0, rose := [],
    quiesce := [], limitFrom := none, lm := [], lmBad := [], sdb := sdb, frames := .fresh, stp := .fresh, hq := .fresh,
    trail := .fresh, net := .fresh, servo := .fresh, pair := .fresh, care := .fresh, cnp := .fresh, lcr := .fresh,
    brn := .fresh, hold := .fresh, aud := .fresh, trm := .fresh, seed := seed.kept, tap := .idcode, out := [], free := 0 }

/-- The machine right after reset: PORn released with every strap ball low (log entry 1). -/
def State.reset : State := .released strapsLow .blank false 0 true [] .fresh

end Sys2Proof.Machine
end

