-- ==== Sys2Proof/Machine/Time.lean ====
section
/-! DEFINITION. Register fields as state, the device's role, and the passing of CK_CORE cycles (R7, R21, R148). -/

namespace Sys2Proof.Machine

/-- The key of a field in the register map. -/
def Fld.key (f : Fld) : Nat := 32 * f.off + f.lo

/-- A field's value. -/
def State.rd (s : State) (f : Fld) : Nat := Map.getD s.regs f.key f.reset

/-- Set a field, cut to its width. -/
def State.wr (s : State) (f : Fld) (v : Nat) : State :=
  { s with regs := Map.set s.regs f.key (v % 2 ^ f.len) f.reset }

/-- Add to a saturating counter field. -/
def State.incBy (s : State) (f : Fld) (n : Nat) : State := s.wr f (min (s.rd f + n) (2 ^ f.len - 1))

/-- Count one in a saturating counter field. -/
def State.inc (s : State) (f : Fld) : State := s.incBy f 1

/-- Is a one-bit field set? -/
def State.on (s : State) (f : Fld) : Bool := s.rd f != 0

/-- The 64-bit value of a _LO and _HI pair. -/
def State.pairRd (s : State) (lo hi : Fld) : Nat := s.rd lo + 2 ^ 32 * s.rd hi

/-- Set a _LO and _HI pair. -/
def State.pairWr (s : State) (lo hi : Fld) (v : Nat) : State := (s.wr lo v).wr hi (v / 2 ^ 32)

/-- The tile role (R1, R348). -/
def State.isTile (s : State) : Bool := s.power.straps.role

/-- The head role. -/
def State.isHead (s : State) : Bool := !s.power.straps.role

/-- The decoded side: 0 single, 1 A, 2 B (R348). -/
def State.side (s : State) : Nat :=
  match s.power.straps.side1, s.power.straps.side0 with
  | false, true => 1
  | true, false => 2
  | _, _ => 0

/-- The decoded boot source: 0 Seedbank, 1 PCIe, 2 Trail (R348). -/
def State.bootSrc (s : State) : Nat :=
  match s.power.straps.boot1, s.power.straps.boot0 with
  | false, true => 1
  | true, false => if s.power.straps.role then 2 else 1
  | _, _ => 0

/-- One device of a redundant pair of heads or of a tile pair. -/
def State.isPair (s : State) : Bool := s.side != 0

/-- The device is released and its derived clocks run (R20, R346). -/
def State.live (s : State) : Bool := decide (s.power.phase = .run) && s.power.clocks

/-- µs as CK_CORE cycles (R21). -/
def usCycles (n : Nat) : Nat := n * 103125 / 64

/-- The outcome of a command that acts only while the clocked blocks are out of reset (R20). -/
def onLive (s : State) (f : State → State) : Host.Outcome State Fault Refusal :=
  .next (if s.live then f s else s)

/-- The outcome of a command of the engines that a thermal shutdown stops (R316). -/
def onRun (s : State) (f : State → State) : Host.Outcome State Fault Refusal :=
  .next (if s.live && !s.care.shut then f s else s)

/-- Leave one thing for the outside. -/
def State.emit (s : State) (o : Out) : State := { s with out := o :: s.out }

/-- Draw a free value (Config.freeNat). -/
def State.drawn (s : State) : State := { s with free := s.free + 1 }

/-- The addend in force: 48 bits in 2^-40 ns (R148). -/
def State.addend (s : State) : Nat := s.pairRd F.PTP_ADDEND_LO F.PTP_ADDEND_HI

/-- `n` CK_CORE cycles pass: the core count and the time counter move on (R148). -/
def State.advance (s : State) (n : Nat) : State :=
  { s with core := s.core + n, ptp := s.ptp + BitVec.ofNat 72 (n * s.addend) }

/-- CK_CORE cycles pass up to a cycle, if it lies ahead. -/
def State.advanceTo (s : State) (cycle : Nat) : State := s.advance (cycle - s.core)

/-- One idle cycle. -/
def idle (s : State) : State := if s.live then s.advance 1 else s

/-- The counter's nanoseconds (R149). -/
def State.ns (s : State) : Nat := s.ptp.toNat / 2 ^ 40

/-- The counter's 24-bit fraction (R148). -/
def State.frac (s : State) : Nat := s.ptp.toNat / 2 ^ 16 % 2 ^ 24

/-- CK_CORE cycles of one Trail cycle (R87). -/
def trailCycle : Nat := 16896

/-- CK_CORE cycles of one CK_SYS cycle (R21). -/
def sysCycle : Nat := 16

/-- CK_CORE cycles of one second at nominal Root (R21). -/
def rootSec : Nat := 1611328125

/-- Hardware sets bit `i` of a W1C field, and it is noted that the bit rose in this CK_SYS cycle (R7). -/
def State.raise (s : State) (f : Fld) (i : Nat) : State :=
  let now := s.core / sysCycle
  let m : Map Nat := if s.roseAt = now then s.rose else []
  { s.wr f (setBit (s.rd f) i) with roseAt := now, rose := Map.put m f.key (setBit (Map.getD m f.key 0) i) }

/-- Hardware writes a field that the host writes too, and it is noted that it did so in this CK_SYS cycle (R383). -/
def State.wrHard (s : State) (f : Fld) (v : Nat) : State :=
  let now := s.core / sysCycle
  { s.wr f v with roseAt := now, rose := Map.put (if s.roseAt = now then s.rose else []) f.key 1 }

/-- The bits of a W1C field that rose in the CK_SYS cycle in progress: a write of 1 does not clear them (R7). -/
def State.risen (s : State) (f : Fld) : Nat := if s.roseAt = s.core / sysCycle then Map.getD s.rose f.key 0 else 0

/-- The shadow bank is frozen (R53). -/
def State.frozen (s : State) : Bool := s.on F.STP_STATE_FROZEN

/-- A frame's number in progress. -/
def State.frameNow (s : State) : Word := BitVec.ofNat 32 (s.rd F.CLK_FRM_NOW)

/-- A port of the Trail. -/
def State.port (s : State) (k : Nat) : Port := s.trail.ports.getD k .fresh

/-- Set a port of the Trail. -/
def State.setPort (s : State) (k : Nat) (p : Port) : State :=
  { s with trail := { s.trail with ports := setAt s.trail.ports k p } }

/-- The Trail ports a device has: four on a head, West and East on a tile (R2). -/
def State.portCount (s : State) : Nat := if s.isTile then 2 else 4

/-- A port's state code (R89). -/
def State.lst (s : State) (k : Nat) : Nat := s.rd (F.TRL_STAT_STATE k)

/-- Is a Trail port Active? -/
def State.portActive (s : State) (k : Nat) : Bool := decide (k < s.portCount) && s.rd (F.TRL_STAT_STATE k) == 6

/-- Is any Trail port Active? -/
def State.anyActive (s : State) : Bool := (List.range 4).any s.portActive

end Sys2Proof.Machine
end

