-- ==== Sys2Proof/Machine/Cap.lean ====
section
/-! DEFINITION. The capability message a Trail port sends, and READY (R90 - R92, R100). -/

namespace Sys2Proof.Machine

/-- PEER_SEEN as the port sends it: a message is accepted and not refused (R90, R91). -/
def State.peerSeen (s : State) (k : Nat) : Bool := s.on (F.TRL_STAT_ACCEPTED k) && s.rd (F.TRL_STAT_REFUSE k) == 0

/-- The capability message a port sends (R90). -/
def State.capMsg (s : State) (k : Nat) : Bytes :=
  let side := if s.isHead then s.side else 0
  let locked := s.on F.CLK_ROOT_STAT_LOCK && !s.on F.CLK_ROOT_STAT_SLEWING
  let flags := b2n (s.peerSeen k) + 2 * s.rd (F.TRL_STAT_READY_LOCAL k) + 4 * s.rd (F.TRL_CAP_CFG_PAIR 0) + 8 * b2n locked
  let idw := if s.isTile then s.rd F.GLB_TILE_ID_ID + 32768 * s.rd F.GLB_TILE_ID_VALID else 0
  let body := leBytes 1 1 ++ leBytes 1 (b2n s.isTile + 4 * side + 16 * k) ++ leBytes 1 8 ++
    leBytes 1 (s.rd F.CLK_ROOT_STAT_REF) ++ leBytes 1 flags ++ leBytes 1 (s.rd (F.TRL_STAT_REFUSE k)) ++ leBytes 2 idw ++
    leBytes 2 0x8128 ++ [s.fuses.dieRev, 0] ++ leBytes 2 (s.rd (F.TRL_COMPAT 0)) ++ [0, 0] ++
    leBytes 4 (s.rd (F.TRL_FW_VERSION 0)) ++ leBytes 16 s.fuses.unitId.toNat ++ List.replicate 16 0
  body ++ leBytes 4 (crc32c body).toNat

/-- CAP_TX keeps the message last sent as the port leaves Capability (R90, R100). -/
def State.keepCap (s : State) (k : Nat) : State :=
  if s.lst k = 5 then
    let m := s.capMsg k
    (List.range 14).foldl (fun s n => s.wr (F.TRL_CAP_TX k n) (numAt m (4 * n) 4)) s
  else s

/-- The partner's last accepted message (R91). -/
def State.capRx (s : State) (k : Nat) : Bytes :=
  (List.range 14).flatMap (fun n => leBytes 4 (s.rd (F.TRL_CAP_RX k n)))

/-- Root is locked to a recovered clock, with or without a slew in progress, or is in holdover (R92). -/
def State.rootFed (s : State) : Bool :=
  let ref := s.rd F.CLK_ROOT_STAT_REF
  ref == 4 || ((ref == 2 || ref == 3) && (s.on F.CLK_ROOT_STAT_LOCK || s.on F.CLK_ROOT_STAT_SLEWING))

/-- READY by R92. -/
def State.readyNow (s : State) (k : Nat) : Bool :=
  s.peerSeen k &&
    (s.isHead || s.rootFed ||
      (let m := s.capRx k
       bits (numAt m 1 1) 0 2 == 0 || (let r := bits (numAt m 3 1) 0 3; r == 2 || r == 3 || r == 4)))

/-- A port in Capability sends READY as it now stands (R92, R93). -/
def State.refreshPort (s : State) (k : Nat) : State :=
  if s.lst k = 5 then
    let now := s.readyNow k
    let p := s.port k
    (s.wr (F.TRL_STAT_READY_LOCAL k) (b2n now)).setPort k { p with
      readySince := if now then some (p.readySince.getD s.core) else none }
  else s

/-- Every port in Capability sends READY as it now stands (R92). -/
def State.refreshReady (s : State) : State := (List.range s.portCount).foldl (fun s k => s.refreshPort k) s

end Sys2Proof.Machine
end

