-- ==== Sys2Proof/Config.lean ====
section
/-! DEFINITION. What the spec leaves open: a constant without a value, so that nothing proved of the model depends on one
(log entry 20). -/

namespace Sys2Proof

/-- A value the spec leaves open, by the count of such values drawn so far. -/
opaque Config.freeNat : Nat → Nat

/-- The PCIe vendor ID and revision ID, which R60 leaves out. -/
opaque Config.pcieVendor : Nat
opaque Config.pcieRevision : Nat

/-- What R141 and R143 leave to ST 2110: the RTP timestamp of a wall frame's start, the code of the
working values of a pixel group by SAMPLING and DEPTH, the sample bytes of a paced video packet, and
TRO and TRS in CK_CORE cycles for a frame rate, width and height. -/
opaque Config.rtpStamp : Nat → Nat
opaque Config.previewCode : Nat → Nat → List Nat → Nat
opaque Config.videoPayload : Nat
opaque Config.videoTro : Nat → Nat → Nat → Nat
opaque Config.videoTrs : Nat → Nat → Nat → Nat

end Sys2Proof
end

