-- ==== Sys2Proof/Machine/Lanes.lean ====
section
/-! DEFINITION. Lanes: 66-bit blocks, the scrambler, alignment markers, the link-control block types and what a receiver
counts (R84 - R88). -/

namespace Sys2Proof.Machine

/-- Sync headers (R84). -/
def dataHeader : BitVec 2 := 0b01
def ctrlHeader : BitVec 2 := 0b10

/-- The scrambler's feedback x^58 + x^39 + 1 on the last 58 bits, the latest in bit 0 (R84). -/
def tap (st : BitVec 58) : Bool := st.getLsbD 38 ^^ st.getLsbD 57

/-- A bit enters the last 58 bits. -/
def shiftIn (st : BitVec 58) (b : Bool) : BitVec 58 := (st.shiftLeft 1) ||| (if b then 1 else 0)

/-- The scrambler, over bits in the order they are sent (R84). -/
def scramble (st : BitVec 58) (l : List Bool) : List Bool × BitVec 58 :=
  match l with
  | [] => ([], st)
  | b :: r =>
    let o := b ^^ tap st
    let x := scramble (shiftIn st o) r
    (o :: x.1, x.2)

/-- The descrambler, over bits in the order they arrive (R84). -/
def descramble (st : BitVec 58) (l : List Bool) : List Bool × BitVec 58 :=
  match l with
  | [] => ([], st)
  | b :: r =>
    let x := descramble (shiftIn st b) r
    ((b ^^ tap st) :: x.1, x.2)

/-- A number's bits, lowest first, and back. -/
def blockBits (n v : Nat) : List Bool := (List.range n).map (bit v)
def bitsNat (l : List Bool) : Nat := l.foldr (fun b n => b2n b + 2 * n) 0

/-- A block's payload bytes (R85). -/
def blockBytes (b : Block) : Bytes := leBytes 8 b.payload.toNat

/-- The alignment marker of logical lane L with a BIP byte (R87). -/
def laneMarker (lane : Nat) (bip : Byte) : Bytes :=
  let h : Bytes := [0xA5, BitVec.ofNat 8 (0xB0 + lane), bip, 0]
  h ++ h.map (fun b => ~~~b)

/-- A valid marker (R87). -/
def blockMarks (b : Block) : Bool :=
  let p := (blockBytes b)
  b.header == ctrlHeader && byteAt p 0 == 0xA5 && numAt p 1 1 / 8 == 0b10110 &&
    (List.range 4).all (fun i => byteAt p (4 + i) == ~~~(byteAt p i))

/-- The lane number a marker names (R87). -/
def blockLane (b : Block) : Nat := numAt (blockBytes b) 1 1 % 8

/-- The 64 bytes of a stripe from the payloads of its logical lanes: byte j of lane L is byte 8L + j (R85). -/
def stripeOf (lanes : List Bytes) : Bytes := lanes.flatten

/-- The payload of logical lane L in a stripe (R85). -/
def laneOf (stripe : Bytes) (lane : Nat) : Bytes := (stripe.drop (8 * lane)).take 8

/-- A stripe of one link-control type (R86): IDLE 0x1E, SLEEP 0xE1, or CAPABILITY 0xC3 with message bytes 7L to 7L + 6 on
logical lane L. -/
def ctrlStripe (typ : Nat) (msg : Bytes) : Bytes :=
  stripeOf ((List.range 8).map (fun l => BitVec.ofNat 8 typ :: (List.range 7).map (fun j => byteAt msg (7 * l + j))))

/-- What a received block is (R84, R86): a control block's type is known once 58 bits have filled the descrambler. -/
inductive BlockKind where
  | invalid | data | marker | control (typ : Option Nat)
  deriving DecidableEq, Repr

/-- A block as a lane takes it: its kind, whether it is a marker with a wrong BIP, and the lane after it (R84, R87). -/
def LaneRx.take (r : LaneRx) (b : Block) : BlockKind × Bool × LaneRx :=
  if blockMarks b then
    (.marker, (match r.bip with
      | some x => x != byteAt (blockBytes b) 2
      | none => false), { r with bip := some 0 })
  else
    let l := blockBits 64 b.payload.toNat
    let d := descramble (r.scr.getD 0) l
    let typ := r.scr.map (fun _ => bitsNat d.1 % 256)
    let bip := r.bip.map (fun x => (blockBytes b).foldl (fun x y => x ^^^ y) x)
    let kind := if b.header = dataHeader then .data else if b.header = ctrlHeader then .control typ else .invalid
    (kind, false, ⟨some d.2, bip⟩)

/-- A lane's blocks in order: their kinds, the BIP mismatches, and the lane after them. -/
def LaneRx.walk (r : LaneRx) (l : List Block) : List BlockKind × Nat × LaneRx :=
  match l with
  | [] => ([], 0, r)
  | b :: l' =>
    let x := r.take b
    let y := x.2.2.walk l'
    (x.1 :: y.1, b2n x.2.1 + y.2.1, y.2.2)

/-- The block may belong to a link-control cycle of an Active port: a marker or IDLE (R86, R94). -/
def BlockKind.idle (k : BlockKind) : Bool :=
  match k with
  | .marker => true
  | .control none => true
  | .control (some t) => t == 0x1E
  | _ => false

/-- A block counts as an invalid sync header (R86): outside Active, all but the listed control blocks; in Active, a control
block too that is no part of a whole link-control cycle. -/
def BlockKind.bad (active whole : Bool) (k : BlockKind) : Bool :=
  match k with
  | .invalid => true
  | .marker => false
  | .data => !active
  | .control t => if active then !whole else (match t with
    | some t => !([0x1E, 0xC3, 0xE1].contains t)
    | none => false)

/-- The walks of a port's physical lanes over the blocks a command brings. -/
def State.walks (s : State) (k : Nat) (rx : List (List Block)) : List (List BlockKind × Nat × LaneRx) :=
  ((s.port k).rx.zip rx).map (fun x => x.1.walk x.2)

/-- By physical lane, which of the blocks count as invalid sync headers (R84, R86). -/
def State.badBlocks (s : State) (k : Nat) (rx : List (List Block)) : List (List Bool) :=
  let ws := s.walks k rx
  let whole := ws.all (fun w => w.1.all BlockKind.idle)
  ws.map (fun w => w.1.map (BlockKind.bad (s.portActive k) whole))

/-- How many blocks count as invalid sync headers, summed over the lanes. -/
def State.badCount (s : State) (k : Nat) (rx : List (List Block)) : Nat :=
  ((s.badBlocks k rx).map (fun l => l.count true)).foldl (· + ·) 0

/-- A port takes blocks: TRL.SYNC_ERR and BIP_ERR count, and its lanes move on (R84, R86, R87). -/
def State.takeBlocks (s : State) (k : Nat) (rx : List (List Block)) : State :=
  if rx.isEmpty then s
  else
    let ws := s.walks k rx
    let s' := s.incBy (F.TRL_SYNC_ERR k) (s.badCount k rx)
    let s' := s'.incBy (F.TRL_BIP_ERR k) ((ws.map (·.2.1)).foldl (· + ·) 0)
    s'.setPort k { s'.port k with rx := ws.map (·.2.2) }

/-- Block lock on every lane: the last 64 sync headers of each are valid (R89). -/
def lanesLocked (bad : List (List Bool)) : Bool :=
  decide (bad.length = 8) && bad.all (fun l => decide (64 ≤ l.length) && (l.drop (l.length - 64)).all (fun b => !b))

/-- Block lock is lost on a lane: 16 invalid sync headers in 64 blocks (R95). -/
def laneLost (l : List Bool) : Bool := (List.range l.length).any (fun i => decide (16 ≤ ((l.drop i).take 64).count true))

/-- The earliest position of a marker round, and the positions from it. -/
def roundBase (r : List (Nat × Block)) : Nat := (r.map (·.1)).foldl min ((r.map (·.1)).foldl max 0)
def roundOffs (r : List (Nat × Block)) : List Nat := r.map (fun x => x.1 - roundBase r)

/-- Deskew holds over two marker rounds (R89). -/
def deskewHolds (r1 r2 : List (Nat × Block)) : Bool :=
  [r1, r2].all (fun r => decide (r.length = 8) && r.all (fun x => blockMarks x.2) &&
    (List.range 8).all (fun l => r.any (fun x => blockLane x.2 == l)) && (roundOffs r).all (fun d => decide (d ≤ 32))) &&
    roundOffs r1 == roundOffs r2 && r1.map (fun x => blockLane x.2) == r2.map (fun x => blockLane x.2)

/-- LANE_MAP: the physical lane that carries each logical lane (R85, R100). -/
def laneMapOf (r : List (Nat × Block)) : Nat :=
  ((List.range 8).map (fun l => ((r.map (fun x => blockLane x.2)).idxOf l) * 8 ^ l)).foldl (· + ·) 0

/-- At one marker position, a marker is missing or the lane offsets have changed (R95). -/
def State.roundLost (s : State) (k : Nat) (r : List (Nat × Block)) : Bool :=
  r.any (fun x => !blockMarks x.2) || roundOffs r != (s.port k).offs

/-- BIP bytes of a marker stripe a port sends: they follow scrambler contents that the spec does not give. -/
def State.markerStripe (s : State) : Bytes :=
  stripeOf ((List.range 8).map (fun l => laneMarker l (BitVec.ofNat 8 (Config.freeNat s.free / 256 ^ l))))

/-- A port sends stripes of one type (R86). -/
def State.sendStripes (s : State) (k typ n : Nat) (payload : Bytes) : State := s.emit (.stripe k typ n payload)

/-- A port sends the marker stripe of a cycle (R87). -/
def State.sendMarker (s : State) (k : Nat) : State := s.drawn.sendStripes k 0xA5 1 s.markerStripe

/-- A port sends a link-control cycle (R90, R94): the marker stripe, then IDLE stripes, and in Capability one capability stripe
every 16 among them. -/
def State.sendLink (s : State) (k : Nat) (cap : Option Bytes) : State :=
  let s := s.sendMarker k
  match cap with
  | none => s.sendStripes k 0x1E 4095 (ctrlStripe 0x1E [])
  | some m => (s.sendStripes k 0xC3 256 (ctrlStripe 0xC3 m)).sendStripes k 0x1E 3839 (ctrlStripe 0x1E [])

end Sys2Proof.Machine
end

