-- ==== Sys2Proof/Machine/Ops.lean ====
section
/-! DEFINITION. The operations every family shares: Local Memory ranges, interrupts and tile events, the fault sources and
their reactions, block reset and resignation (R61, R62, R81, R290 - R295, R274). -/

namespace Sys2Proof.Machine

/-- Bytes of Local Memory (R58, R61). -/
def lmSize : Nat := 2 ^ 33

/-- Does a range touch the Ranger private region (R61)? -/
def touchesPrivate (a len : Nat) : Bool := decide (a < 0x1F0000000) && decide (0x1E0000000 < a + len)

/-- A Local Memory range a host-visible function may use: inside Local Memory and clear of the private region. -/
def lmOk (a len : Nat) : Bool := decide (a + len ≤ lmSize) && !touchesPrivate a len

/-- Read Local Memory. -/
def State.lmRead (s : State) (a len : Nat) : Bytes := Store.range s.lm a len

/-- Write Local Memory: a codeword written whole is good again (R296). -/
def State.lmWrite (s : State) (a : Nat) (bs : Bytes) : State :=
  { s with lm := Store.write s.lm a bs
           lmBad := s.lmBad.filter (fun w => decide (8 * w < a) || decide (a + bs.length < 8 * w + 8)) }

/-- Does a range of Local Memory hold an uncorrectable codeword (R296)? -/
def State.lmBadIn (s : State) (a len : Nat) : Bool :=
  s.lmBad.any (fun w => decide (a < 8 * w + 8) && decide (8 * w < a + len))

/-- A word of BAR2's MSI-X table (R60): each vector has an address, data and control word, and is masked at reset. -/
def State.msixWord (s : State) (i : Nat) : Nat := Map.getD s.hq.msixTab i (if i % 4 = 3 then 1 else 0)

/-- A vector is not masked (R62). -/
def State.vectorOpen (s : State) (v : Nat) : Bool := !bit (s.msixWord (4 * v + 3)) 0

/-- The message of a vector: its entry's data, written to its entry's address (R62). -/
def State.vectorOut (s : State) (v : Nat) : Out :=
  .vector v (s.msixWord (4 * v) + 2 ^ 32 * s.msixWord (4 * v + 1)) (s.msixWord (4 * v + 2))

/-- Send an MSI-X vector, or pend it where BAR2 masks it (R62). -/
def State.sendVector (s : State) (v : Nat) : State :=
  if s.power.pcie then
    if s.vectorOpen v then s.emit (s.vectorOut v)
    else { s with hq := { s.hq with msixPend := if s.hq.msixPend.contains v then s.hq.msixPend else v :: s.hq.msixPend } }
  else s

/-- A trim value in force (R326). -/
def State.trimRd (s : State) (f : Fld) : Nat := Map.getD s.trm.inForce f.key f.reset

/-- A class-5 message: KIND, LENGTH, bytes 2-3, and the rest (R80). -/
def retMsg (kind : Nat) (field : Nat) (body : Bytes) : Bytes :=
  BitVec.ofNat 8 kind :: BitVec.ofNat 8 (4 + body.length) :: (leBytes 2 field ++ body)

/-- A tile queues a class-5 message (R115). -/
def State.pushMsg (s : State) (m : Bytes) : State := { s with trail := { s.trail with msgs := s.trail.msgs ++ [m] } }

/-- The EVENT message of a block (R80). -/
def State.eventMsg (s : State) (b : Nat) : Bytes :=
  retMsg 4 0 (leBytes 4 (s.rd (F.BLK_IRQ_PEND b)) ++ leBytes 4 b ++ leBytes 4 s.ns ++ leBytes 4 s.frameNow.toNat)

/-- A tile raises an EVENT for a block: at most one for each block in a Trail cycle (R81). -/
def State.raiseEvent (s : State) (b : Nat) : State :=
  if bit s.trail.evSent b then { s with trail := { s.trail with evWait := setBit s.trail.evWait b } }
  else
    let s := s.pushMsg (s.eventMsg b)
    { s with trail := { s.trail with evSent := setBit s.trail.evSent b } }

/-- A block's interrupt leaves the device: a vector, or on a tile an EVENT and, with a local host, the vector (R62,
R81). -/
def State.notify (s : State) (b : Nat) : State :=
  if s.isTile then
    (s.raiseEvent b).sendVector b
  else s.sendVector b

/-- Set a pending bit; the block's vector goes out when an enabled bit becomes set (R62, R290). -/
def State.setPend (s : State) (b i : Nat) : State :=
  if bit (s.rd (F.BLK_IRQ_PEND b)) i then s
  else
    let s := s.raise (F.BLK_IRQ_PEND b) i
    if bit (s.rd (F.BLK_IRQ_EN b)) i then s.notify b else s

/-- A source's reaction code (R291). -/
def State.codeOf (s : State) (b i : Nat) : Nat :=
  match Map.find (reactDefaults b) i with
  | none => 0
  | some d => Map.getD s.react (32 * b + i) d

/-- The sources that a quiesce window never masks (R294): THM, SUP, WDG, CLK.ROOT_UNLOCK and FBK's claim logic: RESIGNED,
TOOK_OVER, ACT_STUCK and CLAIM_RACE (DEDUCED, log entry 192). -/
def neverMasked (b i : Nat) : Bool :=
  b == 17 || b == 18 || b == 21 || (b == 1 && i == 2) || (b == 16 && [0, 1, 5, 6].contains i)

/-- The cycle at which a quiesce window ends: SETTLE µs after the reset completes, 65,536 cycles after it began (R293, log entry
192). -/
def State.windowEnd (s : State) (w : Window) : Nat := w.start + 65536 + usCycles (s.rd F.WDG_CFG_SETTLE)

/-- Is an event of a block's source inside a quiesce window (R293, R294)? -/
def State.masked (s : State) (b i : Nat) : Bool :=
  !neverMasked b i && s.quiesce.any (fun w => bit w.mask b && decide (s.core < s.windowEnd w))

/-- Record a source: sticky bit, and for reactions 1 to 3 the pending bit; reaction 3 raises cause BLOCK_RESIGN (R290,
R292, R275). -/
def State.record (s : State) (b i : Nat) : State :=
  let s := s.raise (F.BLK_STICKY b) i
  let s := if s.codeOf b i = 0 then s else s.setPend b i
  if s.codeOf b i = 3 && !s.pair.resigners.contains (b, i) then
    { s with pair := { s.pair with resigners := (b, i) :: s.pair.resigners } }
  else s

/-- A source fires where no reaction beyond an interrupt may follow. -/
def State.flag (s : State) (e : Nat × Nat) : State :=
  if s.masked e.1 e.2 then s.inc (F.BLK_MASKED e.1) else s.record e.1 e.2

/-- Native mode of a pair (R273, R276). -/
def State.native (s : State) : Bool := s.isPair && !s.on F.FBK_CTRL_ARB

/-- The device holds the claim (FB_ACT_OUT); a single device acts as the claiming one (R270). -/
def State.claims (s : State) : Bool := s.on F.FBK_STAT_CLAIM_OUT

/-- Single, or active in a pair (R119, R142, R271). -/
def State.authority (s : State) : Bool := !s.isPair || s.claims

/-- A forced cause of R275 is present. -/
def State.forced (s : State) : Bool :=
  s.pair.rootBad || s.pair.wdgBad || s.power.shutFlag || !s.pair.resigners.isEmpty || s.pair.hostBad

/-- A head of a pair forwards FB_CLK while it is active, its interlocked drivers are on and CLK.ROOT_CFG.FBCLK_OUT is 1 (R23,
R272). -/
def State.driveFbclk (s : State) : State :=
  let on := s.isHead && s.isPair && s.claims && s.on F.FBK_STAT_DRIVING && s.on F.CLK_ROOT_CFG_FBCLK_OUT
  if on == s.power.fbclkOut then s else { s with power := { s.power with fbclkOut := on } }.emit (.fbclk on)

/-- Root takes FB_CLK by phase build-out, which ends a holdover or slew (R23, R24, R26). -/
def State.takeFbclk (s : State) : State :=
  let s := ((s.wr F.CLK_ROOT_STAT_REF 1).wr F.CLK_ROOT_STAT_LOCK 1).wr F.CLK_ROOT_STAT_SLEWING 0
  { s with power := { s.power with holdAt := none, slewAt := none } }.refreshReady

/-- The branch pins are high-Z (R223, R249, R272, and HIGHZ of R378). -/
def State.pinsOff (s : State) : Bool :=
  !s.on F.BRN_OUT_CTRL_EN || s.care.shut || s.rd F.PAT_HOLD_STAT_STATE == 3 || s.hold.waking ||
    (s.isPair && !s.on F.FBK_STAT_DRIVING) || s.tap == .highz

/-- Pattern engines that count as disabled in a frame (R257). -/
def State.patOffAt (s : State) (f : Word) : Nat :=
  match s.lcr.patOff with
  | some (g, m) => if g = f then m else 0
  | none => 0

/-- The span in progress has pins high-Z for part of it where they are so now, or EXTEST holds them (R235, R378). -/
def State.noteHiz (s : State) : State := { s with brn := { s.brn with hiz := s.brn.hiz || s.pinsOff || s.tap == .extest } }

/-- Resign (R274, R279): the claim and the interlocked drivers end and the overlap window opens. -/
def State.resign (s : State) : State :=
  if s.claims then
    let s := ((s.wr F.FBK_STAT_CLAIM_OUT 0).wr F.FBK_STAT_DRIVING 0).wr F.FBK_STAT_STATE 3
    let s := { s with pair := { s.pair with claimAt := none, overlap := some s.core, takeover := false } }
    let s := { s.noteHiz.driveFbclk with aud := { s.aud with pulse := some s.core } }
    let s := if s.isHead && s.power.fbclk then s.takeFbclk else s
    s.flag E.FBK_RESIGNED
  else s

/-- Resign for a cause that resigns only in native mode (R274, R292). -/
def State.resignNative (s : State) : State := if s.native then s.resign else s

/-- The blocks that a block's reset quiesces, as a mask: the block and its dependents; none where the block has no reset
(R293). -/
def resetMask (b : Nat) : Option Nat :=
  if 4 ≤ b && b ≤ 7 then some (2 ^ b + 2 ^ 0 + 2 ^ 3)
  else if b = 8 || b = 9 then some (2 ^ b + 2 ^ 10 + 2 ^ 15)
  else if b = 10 then some (2 ^ 10 + 2 ^ 1 + 2 ^ 15)
  else if b = 11 then some (2 ^ 11 + 2 ^ 12 + 2 ^ 13)
  else if b = 12 then some (2 ^ 12 + 2 ^ 13)
  else if b = 13 then some (2 ^ 13)
  else if b = 14 then some (2 ^ 14 + 2 ^ 12)
  else if b = 15 then some (2 ^ 15)
  else if b = 3 then some (2 ^ 3)
  else none

/-- The settings of a port as its registers hold them (R100). -/
def State.portCfg (s : State) (k : Nat) : PortCfg :=
  { time := s.rd (F.TRL_TRAIN_CFG_TIME k), fast := s.rd (F.TRL_TRAIN_CFG_FAST k), lockTo := s.rd (F.TRL_TRAIN_CFG_LOCK_TO k)
    capTo := s.rd (F.TRL_TRAIN_CFG_CAP_TO k), interval := s.rd (F.TRL_DET_CFG_INTERVAL k)
    thresh := s.rd (F.TRL_BER_CFG_THRESH k), berCycles := s.rd (F.TRL_BER_CFG_CYCLES k)
    txeq := (List.range 8).map (fun n => s.rd (F.TRL_TXEQ_PRE k n) + 256 * s.rd (F.TRL_TXEQ_MAIN k n) + 65536 * s.rd (F.TRL_TXEQ_POST k n)) }

/-- A Trail port changes state: the state code, and the cycle of entry (R89); entry to Detect or Train puts the settings in
effect (R100), and in Lock the receive lanes start afresh. -/
def State.enterState (s : State) (k code : Nat) : State :=
  let s := s.wr (F.TRL_STAT_STATE k) code
  let p := s.port k
  s.setPort k { p with
    since := s.core, seenPrbs := false, senses := 0
    cfg := if code = 1 || code = 2 then s.portCfg k else p.cfg
    rx := if code = 3 then Port.fresh.rx else p.rx }

/-- A tile's feed through a port ends (R95). -/
def State.endFeed (s : State) (k : Nat) : State :=
  let p := s.port k
  let f := { Feed.fresh with dropped := p.feed.dropped || decide (0 < p.feed.liveFor), dLast := p.feed.dLast, dApplied := p.feed.dApplied }
  let s := s.setPort k { p with feed := f, pool := [], uni := [], bc := [], echo := [] }
  if s.isTile then s.wr (if k = 0 then F.GLB_FEED_STAT_W_LIVE else F.GLB_FEED_STAT_E_LIVE) 0 else s

/-- A Trail port leaves its state for a state outside Active: lock, deskew and message flags fall (R89, R95). -/
def State.dropPort (s : State) (k code : Nat) : State :=
  let s := s.keepCap k
  let s := s.setPort k { s.port k with readySince := none, closing := none, berRun := 0, sleeping := false }
  let s := (((s.wr (F.TRL_STAT_BLOCK_LOCK k) 0).wr (F.TRL_STAT_DESKEWED k) 0).wr (F.TRL_STAT_READY_LOCAL k) 0)
  let s := ((s.wr (F.TRL_STAT_READY_PEER k) 0).wr (F.TRL_STAT_ACCEPTED k) 0).wr (F.TRL_STAT_LINK_CYCLES k) 0
  (s.enterState k code).endFeed k

/-- Does a flow entry carry packets of a source from a NET port (R127)? -/
def flowFeeds (e : Bytes) (k p : Nat) : Bool :=
  bit (numAt e 16 1) 0 && numAt e 17 1 == 1 && numAt e 18 1 == k && (bits (numAt e 16 1) 2 2 == 2 || bits (numAt e 16 1) 2 2 == p)

/-- The open frame of a source that a port's flows feed closes incomplete (R133, R134, R293). -/
def State.cutSource (s : State) (p : Nat) (x : Nat × Source) : State :=
  match x.2.cur with
  | none => s
  | some o =>
    if s.net.flows.any (fun e => flowFeeds e.2 x.1 p) then
      let y := { x.2 with cur := none, lastTs := some o.ts, passes := 0 }
      let s := { s with net := { s.net with sources := Map.put s.net.sources x.1 y } }
      let s := if numAt y.cfg 1 1 = 1 then s.wr (F.NET_SRC_STAT_PATH 0 x.1) 1 else s
      let s := s.wr (F.NET_SRC_STAT_ALIGNED 0 x.1) 0
      if bit (numAt y.cfg 3 1) 0 then s.flag (E.NET_ALIGN_FAIL p) else s
    else s

/-- The state a port that has nothing to keep enters: Detect, which a port with CTRL.DORMANT = 1 leaves for Dormant at once
(R89, R97). -/
def State.detectCode (s : State) (k : Nat) : Nat := if s.on (F.TRL_CTRL_DORMANT k) then 7 else 1

/-- The link of a NET port restarts with its settings, and its flows' open frames close (R147, R293). -/
def State.resetNet (s : State) (p : Nat) : State :=
  let s := ((s.wr (F.NET_STAT_LINK p) 0).wr (F.NET_STAT_SPEED p) 0).wr (F.NET_STAT_AN_DONE p) 0
  let v := (s.rd (F.NET_CFG_MODE p), s.rd (F.NET_CFG_AN p), s.rd (F.NET_CFG_ADV100 p), s.rd (F.NET_MTU p))
  s.net.sources.foldl (fun s x => s.cutSource p x) { s with net := { s.net with
    inForce := Map.put s.net.inForce p v, busy0 := if p = 0 then 0 else s.net.busy0, busy1 := if p = 0 then s.net.busy1 else 0 } }

/-- P_n: the CK_CORE cycles for which the Canopy pauses after each work unit (R315). -/
def State.throttlePause (s : State) : Nat :=
  if s.on F.THM_CFG_THR_EN then [0, 16, 32, 96, 224].getD (s.rd F.THM_STAT_LEVEL) 224 else 0

/-- The cycle from which the work of the composition in progress counts at the pace in force, and the units done before (R315). -/
def State.pace (s : State) : Nat × Nat := if s.cnp.paceAt ≤ s.cnp.since then (s.cnp.since, 0) else (s.cnp.paceAt, s.cnp.paceDone)

/-- The pace is about to change: a work unit of 64 lamps takes 32 CK_CORE cycles and a pause (R315). -/
def State.notePace (s : State) : State :=
  let p := s.pace
  { s with cnp := { s.cnp with paceAt := s.core, paceDone := p.2 + (s.core - p.1) / (32 + s.throttlePause) } }

/-- The cycle by which the composition in progress has worked through `n` lamps, with its pauses (R315). -/
def State.workEnd (s : State) (n : Nat) : Nat := s.pace.1 + (ceilDiv n 64 - s.pace.2) * (32 + s.throttlePause)

/-- The bands of a pass: in Frame mode band 0 is the whole grid. -/
def bandsOf (rolling : Bool) : List Nat := if rolling then List.range 16 else [0]

/-- A band of a pass has been composed. -/
def Pass.done (p : Pass) (b : Nat) : Bool :=
  match Map.find p.bands b with
  | some j => j.composed
  | none => false

/-- Armed Glades whose rows a band meets (R205). -/
def Pass.gladesOf (p : Pass) (b : Nat) : List Nat := (List.range 16).filter (fun g => bit p.armed g && bit (p.meets.getD b 0) g)

/-- A band waits for the verdict of a substituting Glade, or for its substitution (R205). -/
def Pass.guards (p : Pass) (b : Nat) : Bool :=
  (p.gladesOf b).any (fun g => bits (p.bank.glades.get (32 * g)).toNat 2 2 == 2 && (!bit p.verdicts g || bit p.subst g))

/-- An armed Glade gets no verdict: a band it needs was abandoned before it was composed. -/
def Pass.hopeless (p : Pass) (g : Nat) : Bool := p.lost.any (fun b => !p.done b && (p.gladesOf b).contains g)

/-- A pass has nothing left to do: every band composed or abandoned, every armed Glade that can be judged judged, every substitute
written, and no band left that a Glade holds back (R203, R205). -/
def Pass.finished (p : Pass) : Bool :=
  (bandsOf p.rolling).all (fun b => p.lost.contains b || (p.done b && !p.guards b)) &&
    (List.range 16).all (fun g => !bit p.armed g || bit p.verdicts g || p.hopeless g) && p.subst == 0

/-- The pass or band in progress is abandoned as late (R181, R293). -/
def State.abandonPass (s : State) : State :=
  match s.cnp.queue with
  | [] => s
  | (f, b) :: q =>
    let ps := s.cnp.passes.map (fun p => if p.frame = f then { p with lost := b :: p.lost } else p)
    { s with cnp := { s.cnp with passes := ps.filter (fun p => !p.finished), queue := q, since := s.core } }.flag E.CNP_COMPOSE_LATE

/-- Each script run in progress is cut as an overrun (R228, R293). -/
def State.cutByReset (s : State) : State :=
  let s := (s.brn.runs.filter (fun x => x.2.cut.isNone)).foldl (fun s _ => (s.inc F.BRN_OVERRUN).flag E.BRN_SCRIPT_OVERRUN) s
  { s with brn := { s.brn with runs := s.brn.runs.map (fun x => (x.1, { x.2 with cut := some (x.2.cut.getD s.core) })) } }

/-- Every audio side sends zeros to the next block boundary (R293). -/
def State.resetAudio (s : State) : State :=
  let s := (s.aud.sides.filter (fun x => bits x.2.cfg 2 3 != 0)).foldl (fun s x =>
    let f := F.AUD_PORT_STAT (x.1 / 2)
    s.wr f (clrBit (s.rd f) (x.1 % 2))) s
  { s with aud := { s.aud with sides := s.aud.sides.map (fun x => (x.1, { x.2 with restart := true })) } }

/-- What a block reset does (R293).  The servo, the launch queues, the pattern engines (whose phase is the frame's) and the
host queues have nothing in this state to lose. -/
def State.resetEffect (s : State) (b : Nat) : State :=
  if 4 ≤ b && b ≤ 7 then
    if s.on (F.TRL_CTRL_EN (b - 4)) && decide (b - 4 < s.portCount) then s.dropPort (b - 4) (s.detectCode (b - 4)) else s
  else if b = 8 || b = 9 then s.resetNet (b - 8)
  else if b = 11 || b = 12 then s.abandonPass
  else if b = 13 then s.cutByReset
  else if b = 15 then s.resetAudio
  else s

/-- Start a block reset: its effect, its quiesce window and the limit of R295. -/
def State.blockReset (s : State) (b : Nat) : State :=
  match resetMask b with
  | none => s
  | some m =>
    let s := { s with quiesce := s.quiesce ++ [Window.mk b m s.core], limitFrom := some s.core }
    s.resetEffect b

/-- The limit of R295 runs: 1,007,080 CK_SYS cycles from the last block reset. -/
def State.limited (s : State) : Bool :=
  match s.limitFrom with
  | some c => decide (s.core < c + sysCycle * 1007080)
  | none => false

/-- A second source of a block calls for its reset in the CK_SYS cycle of the reset: one reset and one window, and both sticky bits
are set (R306). -/
def State.sameReset (s : State) (e : Nat × Nat) : Bool :=
  s.codeOf e.1 e.2 == 2 && s.quiesce.any (fun w => w.block == e.1 && w.start / sysCycle == s.core / sysCycle)

/-- A source's detector fires (R290 - R295, R306). -/
def State.detect (s : State) (e : Nat × Nat) : State :=
  if s.sameReset e then s.record e.1 e.2
  else if s.masked e.1 e.2 then s.inc (F.BLK_MASKED e.1)
  else
    let s := s.record e.1 e.2
    match s.codeOf e.1 e.2 with
    | 0 => s
    | 1 => s
    | 2 => if s.limited then s.flag E.WDG_RESET_LIMIT else s.blockReset e.1
    | _ => s.resignNative

/-- Fire a source if a condition holds. -/
def State.detectIf (s : State) (c : Bool) (e : Nat × Nat) : State := if c then s.detect e else s

/-- Count corrected errors for health cause ECC_CORR (R275, R297). -/
def State.countCorr (s : State) : State :=
  { s with pair := { s.pair with corr := Map.put s.pair.corr s.pair.updates (Map.getD s.pair.corr s.pair.updates 0 + 1) } }

/-- Note an uncorrectable error for health cause ECC_UNCORR (R275, R297). -/
def State.countUncorr (s : State) : State := { s with pair := { s.pair with uncorrAt := some s.pair.updates } }

/-- An uncorrectable word of Local Memory (R296). -/
def State.lmUncorr (s : State) : State := ((s.inc F.LMC_ECC_UNCORR).detect E.LMC_UNCORR).countUncorr

end Sys2Proof.Machine
end

