-- ==== Sys2Proof/Machine/Operands.lean ====
section
/-! DEFINITION. Descriptors and completions: the operand bytes of a descriptor, the judgements every opcode shares, and
the completion a finished descriptor leaves (R5, R67, R71, R72, R76, R80, R284, R351). -/

namespace Sys2Proof

open Sys2Proof.Machine

/-- `n` operand bytes from byte `k`, little-endian (R67). -/
def Desc.num (d : Desc) (k n : Nat) : Nat := bits d.ops.toNat (8 * k) (8 * n)

/-- `n` bits of the operand bytes from bit `i` of byte `k`. -/
def Desc.bitsAt (d : Desc) (k i n : Nat) : Nat := bits d.ops.toNat (8 * k + i) n

/-- One operand bit. -/
def Desc.flag (d : Desc) (k i : Nat) : Bool := d.bitsAt k i 1 == 1

/-- `n` operand bytes from byte `k`, as bytes. -/
def Desc.bytes (d : Desc) (k n : Nat) : Bytes := leBytes n (d.num k n)

/-- What rising, disjoint fields (lowest bit and width) leave of the 384 operand bits from a bit on. -/
def gapsFrom (pos : Nat) : List (Nat × Nat) → List (Nat × Nat)
  | [] => [(pos, 384 - pos)]
  | f :: fs => (pos, f.1 - pos) :: gapsFrom (f.1 + f.2) fs

/-- Every operand bit outside the listed fields (operand byte, bit in it, width, in rising order) is 0 (R5). -/
def Desc.only (d : Desc) (fs : List (Nat × Nat × Nat)) : Bool :=
  (gapsFrom 0 (fs.map (fun f => (8 * f.1 + f.2.1, f.2.2)))).all (fun g => bits d.ops.toNat g.1 g.2 == 0)

/-- The reserved bits of the common part are 0 (R67). -/
def Desc.commonOk (d : Desc) : Bool := d.flags.toNat < 4 && d.rsv == 0

/-- QUIET (R67). -/
def Desc.quiet (d : Desc) : Bool := d.flags.getLsbD 1

/-- The 64 descriptor bytes of an opcode (R67). -/
def Desc.raw (d : Desc) (op : Nat) : Bytes :=
  BitVec.ofNat 8 op :: d.flags :: (leBytes 2 d.rsv.toNat ++ leBytes 4 d.tag.toNat ++ leBytes 8 (d.rsv.toNat / 2 ^ 16) ++
    leBytes 48 d.ops.toNat)

end Sys2Proof

namespace Sys2Proof.Machine

/-- Status codes (R72, and the owning chapters). -/
def stOk : Nat := 0x000
def stUnsupported : Nat := 0x001
def stFormat : Nat := 0x002
def stAddress : Nat := 0x003
def stPcie : Nat := 0x004
def stEcc : Nat := 0x005
def stQueueId : Nat := 0x006
def stNotAdmin : Nat := 0x007
def stRoleLocked : Nat := 0x008
def stUnreachable : Nat := 0x009
def stAbortDelete : Nat := 0x00A
def stRangerRestart : Nat := 0x00B
def stQueueBusy : Nat := 0x00C

/-- The roles that have an opcode. -/
inductive OpRole where
  | both | head | tile
  deriving DecidableEq, Repr

/-- Has the device the role? -/
def State.has (s : State) : OpRole → Bool
  | .both => true
  | .head => s.isHead
  | .tile => s.isTile

/-- The opcodes that recovery boot from PCIe serves, on SQ 0 (R351). -/
def recoveryOp (op : Nat) : Bool := op == 0xB0 || op == 0xB1 || op == 0xB6

/-- What every opcode is judged by before its own checks (R67, R76, R80, R351): the status it completes with at once. -/
def State.judge (s : State) (d : Desc) (op : Nat) (role : OpRole) : Option Nat :=
  if !d.commonOk then some stFormat
  else if s.on F.GLB_BOOT_STAT_NOT_READY && !(d.sq == 0 && recoveryOp op) then some stUnsupported
  else if !s.has role then some stUnsupported
  else if d.mbx && (op < 0x10 || (0x30 ≤ op && op < 0x40)) then some stUnsupported
  else none

/-- A tile's shadow edits and COMMIT from its local host while it belongs to a wall (R80). -/
def State.roleLocked (s : State) (d : Desc) : Bool :=
  s.isTile && !d.mbx && s.on F.GLB_TILE_ID_VALID && s.anyActive

/-- The 32 bytes of a completion (R71). -/
def cplBytes (tag time frame : Word) (result : BitVec 64) (sqHead : BitVec 16) (sq op : Nat) (event : Bool)
    (tile : Option Nat) (status : Nat) (phase : Bool) : Bytes :=
  leBytes 4 tag.toNat ++ leBytes 4 time.toNat ++ leBytes 4 frame.toNat ++ leBytes 8 result.toNat ++
    leBytes 2 sqHead.toNat ++ leBytes 2 (sq % 1024) ++ leBytes 1 op ++ leBytes 1 (b2n event + 2 * b2n tile.isSome) ++
    leBytes 2 (status % 4096 + 32768 * b2n phase) ++ leBytes 2 (tile.getD 0) ++ [0, 0]

/-- The mailbox window of a tile (R78). -/
def State.twin (s : State) : Nat := s.pairRd F.HQS_TWIN_BASE_LO F.HQS_TWIN_BASE_HI / 2 ^ 17 * 2 ^ 17

/-- Bytes a payload has room for. -/
def payloadRoom : Nat := 240

/-- How many return slots a list of messages needs, packed in order (R115). -/
def slotsFor (ms : List Bytes) (used : Nat) : Nat :=
  match ms with
  | [] => if used = 0 then 0 else 1
  | m :: ms' => if used + m.length ≤ payloadRoom then slotsFor ms' (used + m.length) else 1 + slotsFor ms' m.length

/-- Return slots that wait on a tile (R115). -/
def State.retWaiting (s : State) : Nat := s.trail.built.length + slotsFor s.trail.msgs 0

/-- A tile produces a COMPLETION or READ_DATA message: while 64 slots wait RETURN_FULL is set and the message pauses with those
after it (R115). -/
def State.pushReply (s : State) (m : Bytes) : State :=
  if 64 ≤ s.retWaiting || !s.trail.paused.isEmpty then
    let s := s.detectIf (decide (64 ≤ s.retWaiting)) E.GLB_RETURN_FULL
    { s with trail := { s.trail with paused := s.trail.paused ++ [m] } }
  else s.pushMsg m

/-- Mark the flight of a descriptor done; a descriptor without a flight gets one. -/
def markDone (fs : List Flight) (d : Desc) (op cq : Nat) (r : Done) : List Flight :=
  match fs with
  | [] => [{ sq := d.sq, sqHead := d.sqHead, op := op, flags := d.flags, tag := d.tag, ops := d.ops, cq := cq,
             ranger := false, started := true, done := some r, at0 := 0 }]
  | f :: fs' =>
    if f.sq = d.sq ∧ f.sqHead = d.sqHead ∧ f.done = none then { f with op := op, done := some r, ranger := false } :: fs'
    else f :: markDone fs' d op cq r

/-- A tile posts the completion of a descriptor received by mailbox: an entry of its completion ring and a COMPLETION
message (R76, R78); the ring wraps whatever the completion head word says (DESIGN CHOICE, log entry 177). -/
def State.postMbx (s : State) (f : Flight) (r : Done) : State :=
  if f.flags.getLsbD 1 && r.status = 0 then s
  else
    let e := cplBytes f.tag r.time r.frame r.result f.sqHead 0 f.op false none r.status (s.trail.mbxPost / 1024 % 2 == 0)
    let s := s.lmWrite (s.twin + 0x11000 + 32 * (s.trail.mbxPost % 1024)) e
    let s := { s with trail := { s.trail with mbxPost := s.trail.mbxPost + 1 } }
    s.pushReply (retMsg 2 0 e)

/-- Completions of the mailbox ring leave in ring order (R68, R76). -/
def State.flushMbx (s : State) : Nat → State
  | 0 => s
  | n + 1 =>
    match s.trail.mbxFly with
    | [] => s
    | f :: fs =>
      match f.done with
      | none => s
      | some r => ({ s with trail := { s.trail with mbxFly := fs } }.postMbx f r).flushMbx n

/-- A descriptor received by mailbox completes on its tile (R76). -/
def State.finishMbx (s : State) (d : Desc) (op : Nat) (r : Done) : State :=
  let fs := markDone s.trail.mbxFly d op 0 r
  { s with trail := { s.trail with mbxFly := fs } }.flushMbx fs.length

/-- The completion queue of a submission queue. -/
def State.cqOf (s : State) (sq : Nat) : Nat :=
  match Map.find s.hq.sqs sq with
  | some q => q.cq
  | none => 0

/-- SQ_DELETEs whose queue has no unfinished descriptor left complete, and the queue is gone (R75). -/
def settleDeletes (l : List (Nat × Desc)) (s : State) : State :=
  match l with
  | [] => s
  | x :: l' =>
    if s.hq.flights.any (fun f => f.sq == x.1 && f.done.isNone) then settleDeletes l' s
    else
      let r : Done := { status := 0, result := 0, frame := s.frameNow, time := BitVec.ofNat 32 s.ns, fromTile := none }
      settleDeletes l' { s with hq := { s.hq with
        flights := markDone s.hq.flights x.2 2 0 r
        sqs := Map.del s.hq.sqs x.1
        deleting := s.hq.deleting.erase x } }

/-- A descriptor starts: from here it runs to completion (R75). -/
def State.starts (s : State) (d : Desc) : State :=
  { s with hq := { s.hq with flights := s.hq.flights.map (fun f =>
      if f.sq = d.sq ∧ f.sqHead = d.sqHead ∧ f.done = none then { f with started := true } else f) } }

/-- A flight is a descriptor's own. -/
def Flight.isOf (f : Flight) (d : Desc) : Bool := f.sq == d.sq && f.sqHead == d.sqHead && f.done.isNone

/-- The CK_CORE cycle at which a descriptor was fetched: now where it has no flight (R255). -/
def State.fetchedAt (s : State) (d : Desc) : Nat :=
  match (if d.mbx then s.trail.mbxFly else s.hq.flights).find? (fun f => f.isOf d && f.done.isNone) with
  | some f => f.at0
  | none => s.core

/-- A descriptor completes: its completion waits to be posted in ring order (R68, R71). -/
def State.finishAs (s : State) (d : Desc) (op status : Nat) (result : BitVec 64) (frame : Word) (tile : Option Nat) :
    State :=
  let r : Done := { status := status, result := result, frame := frame, time := BitVec.ofNat 32 s.ns, fromTile := tile }
  if d.mbx then s.finishMbx d op r
  else
    settleDeletes s.hq.deleting { s with hq := { s.hq with flights := markDone s.hq.flights d op (s.cqOf d.sq) r } }

/-- A descriptor completes with a status and a result in the frame in progress. -/
def State.finish (s : State) (d : Desc) (op status : Nat) (result : Nat := 0) : State :=
  s.finishAs d op status (BitVec.ofNat 64 result) s.frameNow none

/-- A descriptor that reads Local Memory completes with ECC where a word of the range is uncorrectable, which LMC counts; the
rest of its meaning otherwise (R72, R296). -/
def State.readsLm (s : State) (d : Desc) (op a len : Nat) (f : State) : State :=
  if s.lmBadIn a len then s.lmUncorr.finish d op stEcc else f

/-- Descriptors that Ranger executes (R17, R73, R74; log entry 11): shadow items, commit preparation, image writes, and
migration reports. -/
def rangerOp (op : Nat) : Bool := (0x14 ≤ op && op ≤ 0x1B) || op == 0x20 || op == 0xB0 || op == 0xB4 || op == 0xB5

/-- Ranger runs and may act. -/
def State.rangerUp (s : State) : Bool := decide (s.power.ranger = .running)

/-- A descriptor waits for Ranger (R303); in recovery boot hardware serves image writes (R351). -/
def State.waitsRanger (s : State) (op : Nat) : Bool := rangerOp op && !s.rangerUp && !s.on F.GLB_BOOT_STAT_NOT_READY

/-- The flights fetched before a descriptor's own. -/
def ahead (fs : List Flight) (d : Desc) : List Flight :=
  if fs.any (·.isOf d) then fs.takeWhile (fun f => !f.isOf d) else []

/-- Opcodes that edit the shadow bank (R37, R53). -/
def editOp (op : Nat) : Bool := 0x14 ≤ op && op ≤ 0x1C

/-- Opcodes that write correction tables, which take their turns in fetch order (R220). -/
def tableOp (op : Nat) : Bool := op == 0x70 || op == 0x71

/-- A flight belongs to a mailbox queue: its tile executes it (R76). -/
def State.forwarded (s : State) (f : Flight) : Bool :=
  match Map.find s.hq.sqs f.sq with
  | some q => q.mailbox
  | none => false

/-- A TX_SEND with TIMED waits at the head of its queue while a timed queue it needs is full (R158). -/
def State.txWaits (s : State) (f : Flight) : Bool :=
  f.op == 0x44 && !f.started && f.ops.getLsbD 88 && ((f.ops.getLsbD 80 && decide (128 ≤ s.net.timed0.length)) ||
    (f.ops.getLsbD 81 && decide (128 ≤ s.net.timed1.length)))

/-- An earlier flight that a descriptor waits for: of its own queue, any for FENCE and an edit held by the freeze or a
TX_SEND held by a full queue (R53, R68, R158); of any queue, for a table write an earlier one not begun, for an edit or
COMMIT, an edit, and a COMMIT that has not taken its place, or for an edit any COMMIT (R49, R68). -/
def State.blocks (s : State) (d : Desc) (op : Nat) (f : Flight) : Bool :=
  f.done.isNone && !s.forwarded f &&
    ((f.sq == d.sq && (d.flags.getLsbD 0 || (s.frozen && editOp f.op) || s.txWaits f)) ||
      (tableOp op && tableOp f.op && !f.started) ||
      ((editOp op || op == 0x20) && (editOp f.op || (f.op == 0x20 && (editOp op || !f.started)))))

/-- A descriptor waits for an earlier one (R53, R67, R68). -/
def State.held (s : State) (d : Desc) (op : Nat) : Bool :=
  (ahead (if d.mbx then s.trail.mbxFly else s.hq.flights) d).any (s.blocks d op)

/-- The meaning of an opcode: the shared judgement, then its own effect; one that waits for Ranger or for an
earlier descriptor changes nothing yet. -/
def onOp (s : State) (d : Desc) (op : Nat) (role : OpRole) (f : State → State) : Host.Outcome State Fault Refusal :=
  onLive s (fun s =>
    match s.judge d op role with
    | some st => s.finish d op st
    | none => if s.waitsRanger op || s.held d op then s else f s)

/-- A completion queue has a free entry (R66). -/
def Cq.full (c : Cq) : Bool := (c.tail + 1) % c.depth == c.head

/-- Free entries counted from the last-read head (R66). -/
def Cq.free (c : Cq) : Nat := (c.head + c.depth - c.tail - 1) % c.depth

/-- A completion queue. -/
def State.cq (s : State) (i : Nat) : Option Cq := Map.find s.hq.cqs i

/-- Set a completion queue. -/
def State.setCq (s : State) (i : Nat) (c : Cq) : State := { s with hq := { s.hq with cqs := Map.put s.hq.cqs i c } }

/-- A submission queue. -/
def State.sq (s : State) (i : Nat) : Option Sq := Map.find s.hq.sqs i

/-- Set a submission queue. -/
def State.setSq (s : State) (i : Nat) (q : Sq) : State := { s with hq := { s.hq with sqs := Map.put s.hq.sqs i q } }

/-- Write an entry (given by its PHASE bit) at a queue's tail and signal it (R63, R66, R73). -/
def State.postEntry (s : State) (i : Nat) (c : Cq) (e : Bool → Bytes) : State :=
  let s := s.emit (.hostWrite (c.base + 32 * c.tail) (e c.phase))
  let tail := (c.tail + 1) % c.depth
  let phase := if tail = 0 then !c.phase else c.phase
  let unsig := c.unsig + 1
  let unsigAt := if c.unsig = 0 then s.core else c.unsigAt
  if c.irqEn && decide (c.coalCount ≤ unsig) then
    (s.setCq i { c with tail := tail, phase := phase, unsig := 0, unsigAt := unsigAt }).sendVector c.vector
  else s.setCq i { c with tail := tail, phase := phase, unsig := unsig, unsigAt := unsigAt }

/-- A completion write is refused: the queue halts (R75). -/
def State.haltCq (s : State) (i : Nat) (c : Cq) : State := (s.setCq i { c with halted := true }).detect E.HQS_CQ_WRITE_ERR

/-- An event entry may be posted: its queue exists, is not halted and is not full (R75, R81, R285). -/
def State.postsTo (s : State) (i : Nat) : Option Cq :=
  match s.cq i with
  | none => none
  | some c => if c.full || c.halted then none else some c

/-- Bytes that a descriptor returns go to the address it names: host memory, or for one received by mailbox the tile's own Local
Memory (R76). -/
def State.returnTo (s : State) (d : Desc) (a : Nat) (bs : Bytes) : State := if d.mbx then s.lmWrite a bs else s.emit (.hostWrite a bs)

/-- A range that a mailbox descriptor may not name (R61, R76). -/
def mbxRefuses (d : Desc) (a len : Nat) : Bool := d.mbx && !lmOk a len

/-- A source of data: host bytes for a local host, Local Memory for a mailbox (R76). -/
def State.srcBytes (s : State) (d : Desc) (a n : Nat) (h : HostData) : HostData :=
  if d.mbx then ⟨s.lmRead a n, true⟩ else ⟨(h.bytes ++ List.replicate (n - h.bytes.length) 0).take n, h.ok⟩

/-- A mailbox descriptor's data cannot be read (R72, R296). -/
def State.srcBad (s : State) (d : Desc) (a n : Nat) : Bool := d.mbx && s.lmBadIn a n

/-- The opcodes that count as state descriptors (R284). -/
def stateOp (tile : Bool) (op : Nat) : Bool :=
  if tile then (0x10 ≤ op && op ≤ 0x22) || op == 0x35 || op == 0x70 || op == 0x71 || op == 0x88
  else (0x10 ≤ op && op ≤ 0x22) || op == 0x32 || op == 0x33 || op == 0x35 || (0x40 ≤ op && op ≤ 0x42) ||
    (0x46 ≤ op && op ≤ 0x49) || (0x90 ≤ op && op ≤ 0x95)

/-- The statuses with which a state descriptor counts: OK, or a commit result (R57, R284). -/
def countsStatus (op st : Nat) : Bool := st == 0 || (op == 0x20 && 0x110 ≤ st && st ≤ 0x115)

/-- Chain the descriptors at the front that have completed (R284). -/
def chainUp (fuel : Nat) (l : List ChainItem) (seq dig : Nat) (hist : List (Nat × Nat)) :
    List ChainItem × Nat × Nat × List (Nat × Nat) :=
  match fuel, l with
  | fuel + 1, c :: l' =>
    match c.counts with
    | none => (l, seq, dig, hist)
    | some false => chainUp fuel l' seq dig hist
    | some true =>
      let seq := (seq + 1) % 2 ^ 32
      let dig := (crc32c (leBytes 4 dig ++ blank c.bytes 4 4)).toNat
      chainUp fuel l' seq dig (((seq, dig) :: hist).take 16)
  | _, l => (l, seq, dig, hist)

/-- A completed descriptor enters the digest chain in fetch order (R284). -/
def State.digest (s : State) (f : Flight) (st : Nat) : State :=
  let l := s.hq.chain.map (fun c =>
    if c.sq = f.sq ∧ c.sqHead = f.sqHead ∧ c.counts = none then { c with counts := some (countsStatus f.op st) } else c)
  let r := chainUp l.length l (s.rd F.FBK_DSEQ) (s.rd F.FBK_DIGEST) s.pair.digests
  let s := (s.wr F.FBK_DSEQ r.2.1).wr F.FBK_DIGEST r.2.2.1
  { s with hq := { s.hq with chain := r.1 }, pair := { s.pair with digests := r.2.2.2 } }

end Sys2Proof.Machine
end

