-- ==== Sys2Proof/Machine/AudioIn.lean ====
section
/-! DEFINITION. Audio streams into the rings of the transmit channels (R136, R263). -/

namespace Sys2Proof.Machine

/-- Fields of a stream record: channels, L24, 125 µs packets, enabled (R263, R267). -/
def strCh (v : Nat) : Nat := bits v 0 8
def strL24 (v : Nat) : Bool := bit v 8
def strPtime (v : Nat) : Nat := bits v 9 2
def strEn (v : Nat) : Bool := bit v 16

/-- Samples of a packet (R263). -/
def strSamples (v : Nat) : Nat := if strPtime v = 0 then 48 else 6

/-- The ring address of a sample of a transmit channel (R263). -/
def State.ringAddr (s : State) (ch pos : Nat) : Nat :=
  s.pairRd F.AUD_BUF_BASE_LO F.AUD_BUF_BASE_HI / 4096 * 4096 + 262144 * ch + 4 * pos

/-- Samples a sample number lies ahead of the next block boundary, signed (R9). -/
def State.samplesAhead (s : State) (m : Nat) : Int := sval (diff32 m s.aud.num.toNat) 32

/-- The wrap of the sample schedule's target, in thirds of a ns (R259). -/
def thirdWrap : Nat := 3 * 2 ^ 32

/-- Where the counter stands at the next block boundary: the schedule's target, and what is left to slew after a small step
(R259). -/
def State.audTgt (s : State) : Nat := ((s.aud.tgt + s.aud.slew) % thirdWrap).toNat

/-- How far the next block boundary's target lies ahead of the counter, in 2^-40 thirds of a ns, signed (R9, R259). -/
def State.blockLead (s : State) : Int :=
  let x : Nat := (s.audTgt * 2 ^ 40 + 6 * 2 ^ 72 - s.ptp.toNat * 3) % (3 * 2 ^ 72)
  if 3 * 2 ^ 71 ≤ x then (x : Int) - 3 * 2 ^ 72 else x

/-- How far a sample's time lies ahead of the counter, in 2^-40 thirds of a ns. -/
def State.sampleLead (s : State) (m : Nat) : Int := s.samplesAhead m * 62500 * 2 ^ 40 + s.blockLead

/-- One sample enters a transmit channel's ring at its position, or is discarded as LATE or EARLY (R263). -/
def State.ringPut (s : State) (ch n delay : Nat) (v : BitVec 24) : State :=
  let play := (n + delay) % 2 ^ 32
  if s.sampleLead play < 0 then (s.inc F.AUD_LATE).detect E.AUD_LATE
  else if 65536 * 62500 * 2 ^ 40 < s.sampleLead play then (s.inc F.AUD_EARLY).detect E.AUD_EARLY
  else
    let pos := n % 65536
    let s := s.lmWrite (s.ringAddr ch pos) (leBytes 4 v.toNat)
    { s with aud := { s.aud with held := Map.put s.aud.held (65536 * ch + pos) (BitVec.ofNat 32 n) } }

/-- A received sample in the 24 bits of a ring word: L16 takes the top 16 (R263). -/
def ringWord (l24 : Bool) (v : BitVec 24) : BitVec 24 := if l24 then v else v <<< 8

/-- A packet of a stream: every routed channel's ring takes its samples (R136, R263); false where it does not suit the
stream. -/
def State.audioPacket (s : State) (st : Nat) (ts : Word) (rate48 l24 ptime125 : Bool) (channels : Nat)
    (samples : List (BitVec 24)) : Bool × State :=
  match Map.find s.aud.streams st with
  | none => (false, s)
  | some v =>
    if !strEn v || !rate48 || strL24 v != l24 || (strPtime v == 1) != ptime125 || strCh v != channels ||
        samples.length != channels * strSamples v then (false, s)
    else
      (true, s.aud.routes.foldl (fun s r =>
        if r.2.valid && r.2.src / 64 == st && decide (r.2.src % 64 < channels) then
          (List.range (strSamples v)).foldl (fun s j =>
            s.ringPut r.1 ((ts.toNat + j) % 2 ^ 32) (Map.getD s.aud.groups r.2.group 0)
              (ringWord l24 (samples.getD (channels * j + r.2.src % 64) 0))) s
        else s) s)

end Sys2Proof.Machine
end

