-- ==== Sys2Proof/Machine/Clock.lean ====
section
/-! DEFINITION. Root, its references and the frame schedule (R20 - R36). -/

namespace Sys2Proof.Machine

/-- Numerator and denominator of a frame rate (R32). -/
def rateOf : Nat → Nat × Nat
  | 0 => (24000, 1001) | 1 => (24, 1) | 2 => (25, 1) | 3 => (30000, 1001) | 4 => (30, 1) | 5 => (48000, 1001)
  | 6 => (48, 1) | 7 => (50, 1) | 8 => (60000, 1001) | 9 => (60, 1) | 10 => (100, 1) | 11 => (120000, 1001)
  | 12 => (120, 1) | 13 => (144, 1) | _ => (240, 1)

/-- Schedule ticks (1/576 ns) of a frame period (R28). -/
def frameTicks (rate : Nat) : Nat := 576000000000 * (rateOf rate).2 / (rateOf rate).1

/-- The refresh multiplier of a MULT code (R32). -/
def multOf (mult : Nat) : Nat := 2 ^ (3 + mult)

/-- The 58 lawful combinations (R32). -/
def lawfulMode (rate mult : Nat) : Bool := decide (rate < 15) && decide (mult < 4) && !((rate == 13 || rate == 14) && mult == 3)

/-- `t` schedule ticks as CK_CORE cycles at nominal Root, rounded down (one cycle is 64,000/103,125 ns, R148). -/
def ticksToCycles (t : Nat) : Nat := t * 103125 / (576 * 64000)

/-- The wrap of schedule ticks: 2^32 ns. -/
def tickWrap : Nat := 576 * 2 ^ 32

/-- The nominal addend (R148). -/
def nominalAddend : Nat := 682363579905

/-- A time difference ahead of the counter in 2^-40 / 576 ns, 0 when the target is reached under R9. -/
def State.aheadOf (s : State) (tgt : Nat) : Nat :=
  let w := 576 * 2 ^ 72
  let d := (tgt * 2 ^ 40 + w - s.ptp.toNat * 576 % w) % w
  if 576 * 2 ^ 71 < d then 0 else d

/-- CK_CORE cycles until the counter reaches a target, with the addend in force (R28, R161). -/
def State.cyclesTo (s : State) (tgt : Nat) : Nat := ceilDiv (s.aheadOf tgt) (576 * s.addend)

/-- RATE, and M, in force. -/
def State.rate (s : State) : Nat := s.rd F.CLK_FRM_CFG_RATE
def State.refresh (s : State) : Nat := multOf (s.rd F.CLK_FRM_CFG_MULT)

/-- S, the schedule ticks of a sub-frame (R28). -/
def State.subTicks (s : State) : Nat := frameTicks s.rate / s.refresh

/-- The Commit Lead from a D_ring_max (R55). -/
def State.leadFor (s : State) (dring : Nat) : Nat := max (dring + 33792) (s.rd F.STP_LEAD_MIN_CYCLES)

/-- The largest current D this head has measured on any port (R55, R120). -/
def State.ownDmax (s : State) : Nat := (List.range 4).foldl (fun m k => max m (s.rd (F.GLB_DMAX k))) 0

/-- D_ring_max: in a pair the larger of the two heads' measured maxima (R55, R108). -/
def State.dringMax (s : State) : Nat :=
  match s.pair.peer with
  | some f => if s.isPair && s.isHead then max s.ownDmax (numAt f.1 32 3) else s.ownDmax
  | none => s.ownDmax

/-- The schedule runs here: a head, or a tile that is on its own (R34, R254). -/
def State.schedules (s : State) : Bool := s.on F.CLK_FRM_CTRL_RUN && (s.isHead || !s.anyActive)

/-- The Root offset left of a head's slew towards REFCLK, which goes to 0 at SLEW (0.001 ppm/s), in 0.01 ppm; otherwise the
offset at the last reference (R24, R36). -/
def State.rootOfs (s : State) : Int :=
  let o := sval (s.rd F.CLK_ROOT_STAT_FREQ_OFS) 16
  match s.power.slewAt with
  | none => o
  | some c =>
    let gone : Int := (s.core - c) * s.rd F.CLK_ROOT_CFG_SLEW / (10 * rootSec)
    if 0 ≤ o then max 0 (o - gone) else min 0 (o + gone)

/-- A slew in progress goes on from its offset now (R24). -/
def State.settleSlew (s : State) : State :=
  if s.power.slewAt.isSome then
    let t := s.wr F.CLK_ROOT_STAT_FREQ_OFS (sbits s.rootOfs 16)
    { t with power := { t.power with slewAt := some t.core } }
  else s

/-- Root freezes at its last frequency (R24, R25): against REFCLK the offset is 0, in a head's slew it is what is left of it, and
against any other reference it is a free value. -/
def State.freezeOfs (s : State) : State :=
  let ref := s.rd F.CLK_ROOT_STAT_REF
  if s.power.slewAt.isSome then s.settleSlew
  else if ref = 0 then s.wr F.CLK_ROOT_STAT_FREQ_OFS 0
  else if ref = 4 then s
  else s.drawn.wr F.CLK_ROOT_STAT_FREQ_OFS (Config.freeNat s.free)

/-- Root enters holdover (R24, R25). -/
def State.holdover (s : State) : State :=
  let s := ((s.freezeOfs.wr F.CLK_ROOT_STAT_REF 4).wr F.CLK_ROOT_STAT_LOCK 0).wr F.CLK_ROOT_STAT_SLEWING 0
  { s with power := { s.power with holdAt := some s.core, slewAt := none } }

/-- A write to an RWS field: the shadow value, or SHADOW_BUSY while the bank is frozen (R53, R385). -/
def State.setShadow (s : State) (fs : List (Fld × Nat)) : State :=
  if s.frozen then s.detect E.STP_SHADOW_BUSY
  else
    { s with stp := { s.stp with
        shadow := { s.stp.shadow with rws := fs.foldl (fun m f => Map.put m f.1.key (f.2 % 2 ^ f.1.len)) s.stp.shadow.rws }
        dirtyLocal := true } }

/-- The shadow value of an RWS field: the one written since the last commit, or the one in force (R385). -/
def State.shadowRd (s : State) (f : Fld) : Nat := Map.getD s.stp.shadow.rws f.key (s.rd f)

/-- The shadow CLK.FRM_CFG in the MODE encoding of the Stand header (R40). -/
def State.shadowMode (s : State) : Nat :=
  s.rd F.CLK_FRM_CFG_RATE + 16 * s.shadowRd F.CLK_FRM_CFG_MULT + 64 * s.shadowRd F.CLK_FRM_CFG_ROLL

/-- The CLK.FRM_CFG in force in the MODE encoding (R40, R107). -/
def State.mode (s : State) : Nat := s.rate + 16 * s.rd F.CLK_FRM_CFG_MULT + 64 * s.rd F.CLK_FRM_CFG_ROLL

/-- Put a mode in force, and drop what the shadow held of it (R33). -/
def State.setMode (s : State) (rate mult roll : Nat) : State :=
  let s := ((s.wr F.CLK_FRM_CFG_RATE rate).wr F.CLK_FRM_CFG_MULT mult).wr F.CLK_FRM_CFG_ROLL roll
  { s with stp := { s.stp with shadow := { s.stp.shadow with
      rws := Map.del (Map.del s.stp.shadow.rws F.CLK_FRM_CFG_MULT.key) F.CLK_FRM_CFG_ROLL.key } } }

/-- R33: a write to CLK.FRM_CFG. -/
def frmCfgWrite (v : Word) (s : State) : State :=
  let rate := bits v.toNat 0 4; let mult := bits v.toNat 4 2; let roll := bits v.toNat 8 1
  if s.isTile && s.anyActive then s
  else if !s.on F.CLK_FRM_CTRL_RUN then
    if lawfulMode rate mult then s.setMode rate mult roll else s.detect E.CLK_MODE_REJECT
  else if rate != s.rate || !lawfulMode s.rate mult then s.detect E.CLK_MODE_REJECT
  else
    let s' := s.setShadow [(F.CLK_FRM_CFG_MULT, mult), (F.CLK_FRM_CFG_ROLL, roll)]
    if s.frozen then s' else { s' with stp := { s'.stp with dirty := (10, 511, 0) :: s'.stp.dirty.erase (10, 511, 0) } }

def execFrmCfgWrite (v : Word) (s : State) : Host.Outcome State Fault Refusal := onLive s (frmCfgWrite v)

/-- The seed as a target in schedule ticks (R34). -/
def State.seedTgt (s : State) : Nat := 576 * s.rd F.CLK_FRM_SEED_TIME + s.rd F.CLK_FRM_SEED_REM

/-- The seeded start lies no more than 2^31 ns ahead, and at least a number of cycles (R34). -/
def State.seedOk (s : State) (least : Nat) : Bool :=
  let d := (s.seedTgt + tickWrap - s.ptp.toNat * 576 / 2 ^ 40 % tickWrap) % tickWrap
  decide (d ≤ 576 * 2 ^ 31) && decide (least ≤ s.cyclesTo s.seedTgt)

/-- RUN changes; on a tile SA_STAT.STANDALONE follows it (R254, R257). -/
def State.setRun (s : State) (v : Nat) : State :=
  let s := s.wr F.CLK_FRM_CTRL_RUN v
  if s.isTile then s.wr F.PAT_SA_STAT_STANDALONE v else s

/-- R34: RUN goes from 0 to 1. -/
def frmRun (s : State) : State :=
  if s.on F.CLK_FRM_CTRL_RUN || (s.isTile && s.anyActive) then s
  else if s.isTile && s.on F.PAT_SA_CFG_FSYNC then s.setRun 1
  else if s.seedOk (s.leadFor s.dringMax + trailCycle) then
    let s := s.setRun 1
    { s with frames := { s.frames with
        tgt := s.seedTgt, k := 0, next := BitVec.ofNat 32 (s.rd F.CLK_FRM_SEED_NUM), fixed := none, reseed := none,
        begun := false, lost := false, lostN := 0 } }
  else s.detect E.CLK_SEED_REJECT

def execFrmRun (s : State) : Host.Outcome State Fault Refusal := onLive s frmRun

/-- R36: RUN is cleared; no further frame start is fixed or announced. -/
def frmStop (s : State) : State :=
  if s.isTile && s.anyActive then s
  else
    let s := s.setRun 0
    { s with frames := { s.frames with fixed := none, reseed := none } }

def execFrmStop (s : State) : Host.Outcome State Fault Refusal := onLive s frmStop

/-- Twice a frame length against P and 3P in CK_CORE cycles at nominal Root (R30). -/
def lengthOk (rate len : Nat) : Bool :=
  decide (frameTicks rate * 103125 ≤ 2 * len * (576 * 64000)) &&
    decide (2 * len * (576 * 64000) ≤ 3 * frameTicks rate * 103125)

/-- The previous frame start, from which a reseeded frame is measured (R34). -/
def State.lastStart (s : State) : Nat :=
  match s.frames.fixed with
  | some f => f.cycle
  | none => s.frames.start

/-- The CK_CORE cycle of boundary `k` of the frame after `n` nominal periods from `base` (R30). -/
def nominalCycle (rate m base n k : Nat) : Nat :=
  base + ticksToCycles (frameTicks rate * (n * m + k)) / m

/-- The counter at a CK_CORE cycle ahead, with the addend in force, in schedule ticks (R28, R148). -/
def State.ticksAt (s : State) (c : Nat) : Nat :=
  (s.ptp.toNat + (c - s.core) * s.addend) % 2 ^ 72 * 576 / 2 ^ 40

/-- Boundaries counted in Root cycles go back to the counter: T becomes the counter's value at the cycle at which the
next boundary falls, so the frame in progress keeps its step S (R34). -/
def State.leaveLost (s : State) : State :=
  if s.frames.lost then
    let t := s.ticksAt (match s.frames.k, s.frames.fixed with
      | 0, some f => f.cycle
      | k, _ => nominalCycle s.rate s.refresh s.frames.lostAt (s.frames.lostN + b2n (k == 0)) k)
    let f := s.frames.fixed.map (fun f => { f with tgt := s.ticksAt f.cycle })
    { s with frames := { s.frames with tgt := t, fixed := f, lost := false } }
  else s

/-- R34: FRM_CTRL.RESEED replaces the next frame start not yet fixed. -/
def frmReseed (s : State) : State :=
  if !s.schedules then s
  else if s.seedOk 0 && (!(s.frames.begun || s.frames.fixed.isSome) ||
      lengthOk s.rate (s.core + s.cyclesTo s.seedTgt - s.lastStart)) then
    let num := BitVec.ofNat 32 (s.rd F.CLK_FRM_SEED_NUM)
    let t := s.leaveLost
    if s.frames.k = 0 && s.frames.fixed.isNone then
      { t with frames := { t.frames with tgt := s.seedTgt, next := num, reseed := none } }
    else { t with frames := { t.frames with reseed := some ⟨s.seedTgt, num⟩ } }
  else s.detect E.CLK_SEED_REJECT

def execFrmReseed (s : State) : Host.Outcome State Fault Refusal := onLive s frmReseed

/-- The target of the next frame start and its number (R28, R34). -/
def State.nextStart (s : State) : Nat × Word :=
  if s.frames.k = 0 then (s.frames.tgt, s.frames.next)
  else
    match s.frames.reseed with
    | some r => (r.tgt, r.num)
    | none => ((s.frames.tgt + (s.refresh - s.frames.k) * s.subTicks) % tickWrap, s.frames.next)

/-- `a` is at or after `b` in schedule ticks, modulo their wrap (R9). -/
def tickReached (a b : Nat) : Bool := decide ((a + tickWrap - b % tickWrap) % tickWrap ≤ tickWrap / 2)

/-- A sub-frame boundary at or after the frame start that ends the frame is dropped (R34). -/
def State.dropLate (s : State) (tgt : Nat) (num : Word) : State :=
  if s.frames.k != 0 && tickReached s.frames.tgt tgt then
    { s with frames := { s.frames with tgt := tgt, k := 0, next := num } }
  else s

/-- R29, R30, R55: the head fixes its next frame start. -/
def fixFrameStart (s : State) : State :=
  if !s.schedules || s.frames.fixed.isSome then s
  else
    let dring := s.dringMax
    let lead := s.leadFor dring
    let n := s.nextStart
    let cycle := s.core + s.cyclesTo n.1
    let s := (s.wr F.STP_LEAD lead).wr F.STP_DRING dring
    let s := { s with frames := { s.frames with reseed := if s.frames.k = 0 then s.frames.reseed else none } }
    if s.frames.lost then
      let c := nominalCycle s.rate 1 s.frames.lostAt (s.frames.lostN + 1) 0
      { s with frames := { s.frames with fixed := some ⟨n.1, c, n.2, lead, dring⟩ } }
    else if s.frames.begun && !lengthOk s.rate (cycle - s.frames.start) then
      let c := nominalCycle s.rate 1 s.frames.start 1 0
      let s := { s with frames := { s.frames with
          fixed := some ⟨n.1, c, n.2, lead, dring⟩, lost := true, lostN := 0, lostAt := s.frames.start } }
      s.detect E.CLK_PHASE_LOST
    else
      { s with frames := { s.frames with fixed := some ⟨n.1, cycle, n.2, lead, dring⟩ } }.dropLate n.1 n.2

def execFixFrameStart (s : State) : Host.Outcome State Fault Refusal := onLive s fixFrameStart

/-- The cycle by which the next frame start is fixed: the Commit Lead and one Trail cycle before it (R29). -/
def State.fixBy (s : State) : Nat :=
  let c := if s.frames.lost then nominalCycle s.rate 1 s.frames.lostAt (s.frames.lostN + 1) 0
    else s.core + s.cyclesTo s.nextStart.1
  c - (s.leadFor s.dringMax + trailCycle)

/-- As time goes on to a cycle, a frame start whose time to be fixed comes before it is fixed then (R29). -/
def State.fixDue (s : State) (upto : Nat) : State :=
  if s.schedules && s.frames.fixed.isNone && decide (s.fixBy ≤ upto) then fixFrameStart (s.advanceTo s.fixBy) else s

/-- The cycle of the next boundary (R28, R30): the fixed one, one counted at nominal P, or the one where the counter
reaches T. -/
def State.boundaryCycle (s : State) : Nat :=
  match s.frames.k, s.frames.fixed with
  | 0, some f => f.cycle
  | k, _ =>
    if s.frames.lost then
      nominalCycle s.rate s.refresh s.frames.lostAt (s.frames.lostN + b2n (k == 0)) k
    else s.core + s.cyclesTo s.frames.tgt

/-- T and k after a boundary (R28, R34). -/
def State.nextTarget (s : State) : State :=
  let t := (s.frames.tgt + s.subTicks) % tickWrap
  let k := (s.frames.k + 1) % s.refresh
  match s.frames.fixed, s.frames.reseed with
  | some f, _ =>
    if k = 0 || tickReached t f.tgt then { s with frames := { s.frames with tgt := f.tgt, k := 0, next := f.num } }
    else { s with frames := { s.frames with tgt := t, k := k } }
  | none, some r =>
    if k = 0 || tickReached t r.tgt then
      { s with frames := { s.frames with tgt := r.tgt, k := 0, next := r.num, reseed := none } }
    else { s with frames := { s.frames with tgt := t, k := k } }
  | none, none => { s with frames := { s.frames with tgt := t, k := k } }

/-- The schedule's part of a boundary: the clock moves on to it, and a frame start steps the frame number (R28, R36).
The answer's first part says that it was a frame start. -/
def State.boundary (s : State) : Bool × State :=
  let s := s.fixDue s.boundaryCycle
  let s := s.advanceTo s.boundaryCycle
  if s.frames.k = 0 then
    let num := match s.frames.fixed with
      | some f => f.num
      | none => s.frames.next
    let s := if s.frames.begun then s.wr F.CLK_FRM_LEN (s.core - s.frames.start) else s
    let s := s.wr F.CLK_FRM_NOW num.toNat
    let s := { s with frames := { s.frames with
        start := s.core, begun := true, fixed := none, next := num + 1
        lostN := if s.frames.lost then s.frames.lostN + 1 else 0 } }
    (true, s.nextTarget)
  else (false, s.nextTarget)

end Sys2Proof.Machine
end

