-- ==== Sys2Proof/Machine/Feed.lean ====
section
/-! DEFINITION. A tile's feeds: which are live, which is preferred, the applied delay, frame lock and the reports of it
(R25, R26, R33, R92, R94, R117, R118, R121, R123). -/

namespace Sys2Proof.Machine

/-- A tile's feed on a port is live (R117). -/
def State.feedLive (s : State) (k : Nat) : Bool :=
  s.portActive k && (s.port k).feed.headFed && decide ((s.port k).feed.missing < s.rd F.GLB_FEED_CFG_MISS)

/-- A live feed that may be chosen: it has not been dropped, or has been live for HOLD Trail cycles since (R117). -/
def State.feedReady (s : State) (k : Nat) : Bool :=
  s.feedLive k && (!(s.port k).feed.dropped || decide (s.rd F.GLB_FEED_CFG_HOLD ≤ (s.port k).feed.liveFor))

/-- The applied D register of a port, and its VALID bit (R121). -/
def dReg (k : Nat) : Fld := if k = 0 then F.GLB_D_WEST_D else F.GLB_D_EAST_D
def dValid (k : Nat) : Fld := if k = 0 then F.GLB_D_WEST_VALID else F.GLB_D_EAST_VALID

/-- The preferred feeder as a port, if there is one (R117). -/
def State.pref (s : State) : Option Nat :=
  match s.rd F.GLB_FEED_STAT_PREF with
  | 1 => some 0
  | 2 => some 1
  | _ => none

/-- The feeder R117 chooses among two candidates. -/
def State.chooseOf (s : State) (w e : Bool) : Option Nat :=
  if !w && !e then none
  else if s.rd F.GLB_FEED_CFG_PREF = 1 && w then some 0
  else if s.rd F.GLB_FEED_CFG_PREF = 2 && e then some 1
  else if w && !e then some 0
  else if e && !w then some 1
  else
    let aw := (s.port 0).feed.active; let ae := (s.port 1).feed.active
    if aw && !ae then some 0
    else if ae && !aw then some 1
    else if s.pref = some 1 then some 1
    else some 0

/-- The feeder R117 chooses: among the ready feeds, or among the live ones where none is ready. -/
def State.chooseFeed (s : State) : Option Nat :=
  match s.chooseOf (s.feedReady 0) (s.feedReady 1) with
  | some k => some k
  | none => s.chooseOf (s.feedLive 0) (s.feedLive 1)

/-- The LOCK_REPORT message (R115). -/
def State.lockReportMsg (s : State) : Bytes :=
  retMsg 7 0 (leBytes 4 (s.rd F.GLB_FEED_STAT_PREF + 4 * s.rd F.GLB_FEED_STAT_LOCK + 8 * s.rd F.GLB_FEED_STAT_W_LIVE +
      16 * s.rd F.GLB_FEED_STAT_E_LIVE) ++
    leBytes 4 (s.rd F.GLB_D_WEST_D) ++ leBytes 4 (s.rd F.GLB_D_EAST_D))

/-- A tile's LOCK_REPORT is pending with its latest value (R115). -/
def State.sendLockReport (s : State) : State := { s with trail := { s.trail with pendLock := some s.lockReportMsg } }

/-- Root is locked to a recovered clock with no slew in progress (R94, R123). -/
def State.rootRecovered (s : State) : Bool :=
  (s.rd F.CLK_ROOT_STAT_REF = 2 || s.rd F.CLK_ROOT_STAT_REF = 3) && s.on F.CLK_ROOT_STAT_LOCK &&
    !s.on F.CLK_ROOT_STAT_SLEWING

/-- The applied D of a feeder is current: it is at most MAX_AGE Trail cycles old, counted from its REQ (R121). -/
def State.dCurrent (s : State) (k : Nat) : Bool :=
  match (s.port k).feed.dLast with
  | none => false
  | some (_, at0) => decide (s.core ≤ at0 + s.rd F.GLB_ECHO_CFG_MAX_AGE * trailCycle)

/-- The VALID bits follow the age of each feeder's D; where the preferred feeder's turns stale ECHO_STALE is set (R121,
R123). -/
def State.ageD (s : State) : State :=
  let stale := fun k => s.on (dValid k) && !s.dCurrent k
  let due := [0, 1].any (fun k => stale k && s.pref == some k)
  let s := [0, 1].foldl (fun s k => if stale k then s.wr (dValid k) 0 else s) s
  s.detectIf due E.GLB_ECHO_STALE

/-- The conditions of frame lock (R123). -/
def State.lockHolds (s : State) : Bool :=
  match s.pref with
  | none => false
  | some k => s.rootRecovered && s.dCurrent k && s.frames.told && !s.frames.jumped

/-- Frame lock follows its conditions; a change is reported (R123).  The first frame after it is gained takes the nominal
length (R31). -/
def State.lockUpdate (s : State) : State :=
  if s.isHead then s
  else
    let s := s.ageD
    let now := s.lockHolds
    if now == s.on F.GLB_FEED_STAT_LOCK then s
    else
      let s := (s.wr F.GLB_FEED_STAT_LOCK (b2n now)).sendLockReport
      let s := { s with frames := { s.frames with nominal := now } }
      s.detectIf (!now) E.GLB_LOCK_LOST

/-- Active ports of a tile send slot cycles only while Root is recovered (R94). -/
def State.linkCycles (s : State) : State :=
  if s.isHead then s
  else [0, 1].foldl (fun s k =>
    if s.portActive k then s.wr (F.TRL_STAT_LINK_CYCLES k) (b2n (!s.rootRecovered)) else s) s

/-- What follows a change of Root's reference, lock or slew: the cycles a tile's Active ports send, READY, and frame lock
(R92, R94, R123). -/
def State.rootChanged (s : State) : State := s.linkCycles.refreshReady.lockUpdate

/-- The preferred feeder is lost: Root holds over and FEED_LOST is set (R25, R118).  A tile none of whose ports is Active any
more stays in holdover too, though R23's row for that state names REFCLK (DESIGN CHOICE, log entry 152). -/
def State.feedLost (s : State) : State :=
  let s := (s.wr F.GLB_FEED_STAT_PREF 0).holdover
  let s := { s with trail := { s.trail with prefNext := none }, frames := { s.frames with told := false } }
  s.rootChanged.detect E.GLB_FEED_LOST

/-- Liveness and the choice of feeder are judged afresh; a change waits for the new feeder's marker (R117, R118). -/
def State.feedUpdate (s : State) : State :=
  if s.isHead then s
  else
    let s := (s.wr F.GLB_FEED_STAT_W_LIVE (b2n (s.feedLive 0))).wr F.GLB_FEED_STAT_E_LIVE (b2n (s.feedLive 1))
    match s.chooseFeed with
    | none => if s.pref.isSome then s.feedLost else { s with trail := { s.trail with prefNext := none } }
    | some k =>
      let nxt := if s.pref = some k then none else some k
      { s with trail := { s.trail with prefNext := nxt } }

/-- A tile's Root begins to slew to a feeder's recovered clock (R25). -/
def State.slewTo (s : State) (k : Nat) : State :=
  ((s.wr F.CLK_ROOT_STAT_REF (k + 2)).wr F.CLK_ROOT_STAT_LOCK 0).wr F.CLK_ROOT_STAT_SLEWING 1

/-- A feeder becomes the preferred one at its marker (R118); from none, Root slews to it and CLK.FRM_CFG mirrors the
marker's MODE byte (R25, R33). -/
def State.takePref (s : State) (k : Nat) (mode : Nat) : State :=
  let fresh := s.pref.isNone
  let s := s.wr F.GLB_FEED_STAT_PREF (k + 1)
  let s := { s with trail := { s.trail with prefNext := none } }
  let s :=
    if fresh then
      let same := s.rd F.CLK_ROOT_STAT_REF = k + 2 && s.on F.CLK_ROOT_STAT_LOCK
      let s := if same then s else s.slewTo k
      if lawfulMode (bits mode 0 4) (bits mode 4 2) then s.setMode (bits mode 0 4) (bits mode 4 2) (bits mode 6 1)
      else s.detect E.CLK_MODE_REJECT
    else if s.rd F.CLK_ROOT_STAT_REF == 4 then s.slewTo k
    else s.wr F.CLK_ROOT_STAT_REF (k + 2)
  let s := (s.inc F.GLB_FEED_CHANGES).detect E.GLB_FEED_CHANGE
  s.rootChanged.sendLockReport

/-- R121, at a frame start: the applied D of each feeder follows the latest valid D. The answer's first part says that the
preferred feeder's D jumped. -/
def State.applyD (s : State) (k : Nat) : Bool × State :=
  let f := (s.port k).feed
  match f.dLast with
  | none => (false, s)
  | some (d, _) =>
    let cur := s.rd (dReg k)
    let mark := fun s : State => s.setPort k { s.port k with feed := { f with dApplied := true } }
    if !f.dApplied || d > cur + 16 || cur > d + 16 then (s.pref == some k, mark (s.wr (dReg k) d))
    else if cur < d then (false, s.wr (dReg k) (cur + 1))
    else if d < cur then (false, s.wr (dReg k) (cur - 1))
    else (false, s)

/-- R123: D_pref turns stale. -/
def echoStale (s : State) : State :=
  match s.pref with
  | none => s
  | some k =>
    match (s.port k).feed.dLast with
    | none => s
    | some (_, at0) =>
      (s.advanceTo (at0 + s.rd F.GLB_ECHO_CFG_MAX_AGE * trailCycle + 1)).lockUpdate

def execEchoStale (s : State) : Host.Outcome State Fault Refusal := onLive s echoStale

end Sys2Proof.Machine
end

