-- ==== Sys2Proof/Machine/Queue.lean ====
section
/-! DEFINITION. Host queues: polling, fetching, posting, queue management, the admin pair, BAR4 and the copies between
host and Local Memory (R60 - R77, R393). -/

namespace Sys2Proof.Machine

/-- The role an opcode belongs to; none where no chapter defines it (R67, and the opcode tables of the chapters). -/
def opRole (op : Nat) : Option OpRole :=
  if op ≤ 0x05 then some .both
  else if 0x10 ≤ op && op ≤ 0x1C then some .both
  else if op == 0x20 || op == 0x21 || op == 0x23 then some .both
  else if op == 0x22 then some .head
  else if 0x30 ≤ op && op ≤ 0x34 then some .head
  else if op == 0x35 || op == 0x36 then some .both
  else if 0x40 ≤ op && op ≤ 0x49 then some (if op == 0x48 then .both else .head)
  else if 0x50 ≤ op && op ≤ 0x53 then some (if op == 0x52 then .both else .head)
  else if op == 0x60 then some .tile
  else if op == 0x61 then some .both
  else if 0x70 ≤ op && op ≤ 0x72 then some .tile
  else if op == 0x80 || op == 0x81 || op == 0x88 then some .tile
  else if 0x90 ≤ op && op ≤ 0x95 then some .head
  else if 0xA0 ≤ op && op ≤ 0xA2 then some .both
  else if 0xB0 ≤ op && op ≤ 0xB6 then some (if op == 0xB5 then .head else .both)
  else if 0xC0 ≤ op && op ≤ 0xC2 then some .both
  else if op == 0xF0 || op == 0xF1 then some .both
  else none

/-- The queue engine serves queues (R82, R350, R393): EN is set, and Ranger runs or the device is in recovery boot. -/
def State.serves (s : State) : Bool :=
  s.on F.HQS_CTRL_EN && (!s.on F.GLB_BOOT_STAT_NOT_READY || s.on F.GLB_BOOT_STAT_RECOVERY)

/-- One doorbell word of one queue (R65). -/
def State.doorbell (s : State) (i : Nat) (w : Word) : State :=
  match s.sq i with
  | none => s
  | some q =>
    if s.on F.GLB_BOOT_STAT_NOT_READY && i != 0 then s
    else if q.depth ≤ w.toNat then s.detect E.HQS_DB_RANGE
    else s.setSq i { q with tail := w.toNat }

def doorbellPoll (words : List (Nat × Word)) (s : State) : State :=
  if s.serves then words.foldl (fun s w => s.doorbell w.1 w.2) s else s

/-- R65: a doorbell poll. -/
def execDoorbellPoll (words : List (Nat × Word)) (s : State) : Host.Outcome State Fault Refusal :=
  onLive s (doorbellPoll words)

/-- Descriptors out at the tile of a mailbox queue (R78). -/
def State.mbxOut (s : State) (tile : Nat) : Nat :=
  match Map.find s.trail.links tile with
  | none => 0
  | some l => l.out.length

/-- The first flight that may be posted to a queue: done, bound to it, and no earlier one of its SQ unfinished (R68). -/
def postable (cq : Nat) (fs : List Flight) (blocked : List Nat) : Option Flight :=
  match fs with
  | [] => none
  | f :: fs' =>
    if f.cq != cq || blocked.contains f.sq then postable cq fs' blocked
    else if f.done.isSome then some f
    else postable cq fs' (f.sq :: blocked)

/-- A post waits for a full completion queue (R66). -/
def State.postWaits (s : State) (i : Nat) (c : Cq) : Bool :=
  c.full && ((postable i s.hq.flights []).isSome || s.hq.events.any (·.1 == i))

/-- An SQ_DELETE of the queue has been fetched and not completed (R75). -/
def State.deletePending (s : State) (i : Nat) : Bool :=
  s.hq.flights.any (fun f => f.sq == 0 && f.op == 2 && f.done.isNone && bits f.ops.toNat 0 16 == i) || s.hq.deleting.any (·.1 == i)

/-- May the device fetch from this queue now (R65, R66, R75, R78, R351)? -/
def State.fetchable (s : State) (i : Nat) (q : Sq) : Bool :=
  !q.halted && q.head != q.tail && (!s.on F.GLB_BOOT_STAT_NOT_READY || i == 0) && !s.deletePending i &&
    (match s.cq q.cq with
     | none => false
     | some c => !s.postWaits q.cq c) &&
    !(q.mailbox && decide (1023 ≤ s.mbxOut (i - 512)))

/-- The fetchable queues of the highest priority but SQ 0 (R69). -/
def State.contenders (s : State) : List Nat :=
  let l := s.hq.sqs.filter (fun x => x.1 != 0 && s.fetchable x.1 x.2)
  let top := l.foldl (fun m x => max m x.2.prio) 0
  (l.filter (fun x => x.2.prio == top)).map (·.1)

/-- The queue a priority served last and what is left of its burst (R69). -/
def State.turn (s : State) (prio : Nat) : Nat × Nat := Map.getD s.hq.serving prio (0, 0)

/-- The queue served next (R69): SQ 0; then in the highest priority with work, the queue last served there while its burst lasts, and
after it the next in turn.  A queue of a higher priority that gains work comes before the rest of a burst, which then goes on
(DESIGN CHOICE, log entry 174). -/
def State.nextSq (s : State) : Option Nat :=
  match s.sq 0 with
  | some q =>
    if s.fetchable 0 q then some 0
    else
      match s.contenders with
      | [] => none
      | i :: l =>
        let t := s.turn (match s.sq i with
          | some q => q.prio
          | none => 0)
        if (i :: l).contains t.1 && 0 < t.2 then some t.1
        else
          match (i :: l).find? (fun j => decide (t.1 < j)) with
          | some j => some j
          | none => some i
  | none => none

/-- Count a fetch against the burst of the queue in service (R69). -/
def State.serveOne (s : State) (i : Nat) (q : Sq) : State :=
  let t := s.turn q.prio
  let left := if i = t.1 && 0 < t.2 then t.2 - 1 else q.burst - 1
  if i = 0 then s else { s with hq := { s.hq with serving := Map.put s.hq.serving q.prio (i, left) } }

/-- The descriptor in 64 fetched bytes (R67). -/
def parseDesc (sq : Nat) (mbx : Bool) (sqHead : Nat) (bs : Bytes) : Nat × Desc :=
  (numAt bs 0 1,
   { sq := sq, mbx := mbx, sqHead := BitVec.ofNat 16 sqHead, flags := byteAt bs 1,
     rsv := BitVec.ofNat 80 (numAt bs 2 2 + 2 ^ 16 * numAt bs 8 8), tag := BitVec.ofNat 32 (numAt bs 4 4),
     ops := BitVec.ofNat 384 (numAt bs 16 48) })

/-- A fetched descriptor enters flight. -/
def State.takeOff (s : State) (op : Nat) (d : Desc) : State :=
  let f : Flight := { sq := d.sq, sqHead := d.sqHead, op := op, flags := d.flags, tag := d.tag, ops := d.ops,
                      cq := s.cqOf d.sq, ranger := rangerOp op, started := false, done := none, at0 := s.core }
  let c := if d.sq < 512 && stateOp s.isTile op then
      [{ sq := d.sq, sqHead := d.sqHead, bytes := d.raw op, counts := none : ChainItem }] else []
  { s with hq := { s.hq with flights := s.hq.flights ++ [f], chain := s.hq.chain ++ c } }

/-- The status a fetched descriptor completes with at its dispatch, if any: a bad common part, an opcode that no chapter
defines or that the role or recovery boot lacks, or queue management on another queue (R67, R73, R351). -/
def State.dispatchStatus (s : State) (op : Nat) (d : Desc) : Option Nat :=
  match opRole op with
  | none => if d.commonOk then some stUnsupported else some stFormat
  | some r =>
    match s.judge d op r with
    | some st => some st
    | none => if op != 0 && op < 0x10 && d.sq != 0 then some stNotAdmin else none

/-- A class-3 link that nothing has used yet (R79): slots are numbered from 1 after RESYNC. -/
def MbxLink.fresh : MbxLink :=
  { seq := 1, unacked := [], waiting := [], since := 0, retx := 0, unreachable := false, resync := none, ring := 0,
    out := [], regs := [], reads := [], writes := [] }

/-- The link of a tile. -/
def State.link (s : State) (tile : Nat) : MbxLink := Map.getD s.trail.links tile .fresh

/-- Set the link of a tile. -/
def State.setLink (s : State) (tile : Nat) (l : MbxLink) : State :=
  { s with trail := { s.trail with links := Map.put s.trail.links tile l } }

/-- A class-3 slot enters the unicast queue of each port on whose roster its tile is; a standby head sends none (R110,
R119, R355). -/
def State.queueUni (s : State) (tile : Nat) (payload : Bytes) : State :=
  if s.authority then
    (List.range 4).foldl (fun s k =>
      if s.portActive k && (Map.find (s.port k).heard tile).isSome then
        s.setPort k { s.port k with uni := (s.port k).uni ++ [(s.core, tile, payload)] }
      else s) s
  else s

/-- Slots of a link leave for the window, each with the next SEQ in bytes 2-3 (R79). -/
def pumpSlots (fuel window : Nat) (l : MbxLink) (out : List Bytes) : MbxLink × List Bytes :=
  match fuel, l.waiting with
  | fuel + 1, p :: r =>
    if window ≤ l.unacked.length || l.resync.isSome then (l, out)
    else
      let q := p.take 2 ++ leBytes 2 l.seq.toNat ++ p.drop 4
      pumpSlots fuel window { l with waiting := r, seq := l.seq + 1, unacked := l.unacked ++ [(l.seq, q)] } (out ++ [q])
  | _, _ => (l, out)

/-- The window of a tile's link is filled (R79). -/
def State.pumpLink (s : State) (tile : Nat) : State :=
  let l := s.link tile
  let r := pumpSlots l.waiting.length (s.rd F.HQS_MBX_CFG_WINDOW) l []
  let s := s.setLink tile { r.1 with since := if l.unacked.isEmpty then s.core else l.since }
  r.2.foldl (fun s p => s.queueUni tile p) s

/-- Put a payload on a tile's class-3 link (R76). -/
def State.linkSend (s : State) (tile : Nat) (payload : Bytes) : State :=
  let l := s.link tile
  (s.setLink tile { l with waiting := l.waiting ++ [payload] }).pumpLink tile

/-- A MAILBOX payload with one descriptor (R78); bytes 2-3 take SEQ when it is sent. -/
def mbxPayload (ring : Nat) (raw : Bytes) : Bytes :=
  [1, 0, 0, 0, 0, 0, 0, 0] ++ leBytes 2 ring ++ [1, 0, 0, 0, 0, 0] ++ raw ++ List.replicate 160 0

/-- Forward a mailbox descriptor to its tile (R76, R79). -/
def State.forward (s : State) (tile op : Nat) (d : Desc) : State :=
  let l := s.link tile
  if l.unreachable then s.finishAs d op stUnreachable 0 s.frameNow none
  else (s.setLink tile { l with ring := (l.ring + 1) % 1024, out := l.out ++ [(l.ring, d)] }).linkSend tile (mbxPayload l.ring (d.raw op))

/-- A failed fetch leaves one completion with TAG 0 and PCIE_ERROR, behind those of the descriptors fetched before (R68, R75). -/
def State.fetchLost (s : State) (i : Nat) (q : Sq) : State :=
  let r : Done := { status := stPcie, result := 0, frame := s.frameNow, time := BitVec.ofNat 32 s.ns, fromTile := none }
  let f : Flight := { sq := i, sqHead := BitVec.ofNat 16 q.head, op := 0, flags := 0, tag := 0, ops := 0, cq := q.cq, ranger := false
                      started := true, done := some r, at0 := s.core }
  { s with hq := { s.hq with flights := s.hq.flights ++ [f] } }

def descriptorFetch (data : HostData) (s : State) : State :=
  if !s.serves then s
  else
    match s.nextSq with
    | none => s
    | some i =>
      match s.sq i with
      | none => s
      | some q =>
        let s := s.serveOne i q
        if !data.ok then
          ((s.setSq i { q with halted := true }).detect E.HQS_FETCH_ERR).fetchLost i q
        else
          let head := (q.head + 1) % q.depth
          let s := s.setSq i { q with head := head }
          let r := parseDesc i false head data.bytes
          let s := s.takeOff r.1 r.2
          if q.mailbox then s.forward (i - 512) r.1 r.2
          else
            match s.dispatchStatus r.1 r.2 with
            | some st => s.finish r.2 r.1 st
            | none => s

/-- R68: the device fetches one descriptor from the queue that R69 serves next. -/
def execDescriptorFetch (data : HostData) (s : State) : Host.Outcome State Fault Refusal :=
  onLive s (descriptorFetch data)

/-- Judge a head word (R66). -/
def State.headWord (s : State) (i : Nat) (w : Word) : State :=
  match s.cq i with
  | none => s
  | some c => if c.depth ≤ w.toNat then s.detect E.HQS_DB_RANGE else s.setCq i { c with head := w.toNat }

/-- The device reads the head word of a queue (R66): while it polls, when fewer than an eighth of its entries are free by the value
read last, or a post waits. -/
def State.readsHead (s : State) (i : Nat) (c : Cq) : Bool :=
  i != 0 && s.on F.HQS_CTRL_EN && (decide (8 * c.free < c.depth) || s.postWaits i c)

def headWordRead (i : Nat) (w : Word) (s : State) : State :=
  match s.cq i with
  | none => s
  | some c => if s.readsHead i c then s.headWord i w else s

/-- R66: the device reads a head word while it polls. -/
def execHeadWordRead (cq : Nat) (word : Word) (s : State) : Host.Outcome State Fault Refusal := onLive s (headWordRead cq word)

/-- R66: a write to HQS.ACQ_HEAD; an illegal one is ignored. -/
def acqHeadWrite (v : Word) (s : State) : State :=
  match s.cq 0 with
  | none => s
  | some c => if c.depth ≤ v.toNat then s.detect E.HQS_DB_RANGE else (s.wr F.HQS_ACQ_HEAD v.toNat).headWord 0 v

def execAcqHeadWrite (v : Word) (s : State) : Host.Outcome State Fault Refusal := onLive s (acqHeadWrite v)

/-- The completion bytes of a finished flight (R71, R76). -/
def Flight.entry (f : Flight) (r : Done) (phase : Bool) : Bytes :=
  cplBytes f.tag r.time r.frame r.result f.sqHead f.sq f.op false r.fromTile r.status phase

/-- Take the flight out of the list. -/
def State.landed (s : State) (f : Flight) : State := { s with hq := { s.hq with flights := s.hq.flights.erase f } }

/-- The PHASE bit of an event entry (R71). -/
def withPhase (e : Bytes) (phase : Bool) : Bytes :=
  e.take 27 ++ [if phase then byteAt e 27 ||| 0x80 else byteAt e 27] ++ e.drop 28

/-- Post an entry, or wait for a free one (R66, R75). -/
def State.postOrWait (s : State) (i : Nat) (c : Cq) (ok : Bool) (e : Bool → Bytes) (gone : State → State) : State :=
  if c.halted then s
  else if c.full then s.detect E.HQS_CQ_FULL
  else if !ok then s.haltCq i c
  else (gone s).postEntry i c e

/-- Post the next entry of a queue: an event that waits for it (R140), or its next completion; QUIET descriptors that are OK post
nothing (R67, R68). -/
def State.post (s : State) (i : Nat) (ok : Bool) : State :=
  match s.cq i with
  | none => s
  | some c =>
    match s.hq.events.find? (·.1 == i) with
    | some e => s.postOrWait i c ok (withPhase e.2) (fun s => { s with hq := { s.hq with events := s.hq.events.erase e } })
    | none =>
      match postable i s.hq.flights [] with
      | none => s
      | some f =>
        match f.done with
        | none => s
        | some r =>
          if f.flags.getLsbD 1 && r.status = 0 then (s.digest f r.status).landed f
          else s.postOrWait i c ok (f.entry r) (fun s => (s.digest f r.status).landed f)

/-- A post that would leave no free entry is preceded by a read of the head word (R66). -/
def State.needsHead (s : State) (i : Nat) : Bool :=
  match s.cq i with
  | none => false
  | some c => i != 0 && s.on F.HQS_CTRL_EN && c.free == 1

def completionPost (cq : Nat) (headWord : Option Word) (ok : Bool) (s : State) : State :=
  match headWord with
  | some w => (if cq = 0 || !s.on F.HQS_CTRL_EN then s else s.headWord cq w).post cq ok
  | none => if s.needsHead cq then s else s.post cq ok

/-- R66: the next completion of a queue is posted, or waits. -/
def execCompletionPost (cq : Nat) (headWord : Option Word) (ok : Bool) (s : State) : Host.Outcome State Fault Refusal :=
  onLive s (completionPost cq headWord ok)

/-- R73: the coalescing timer of a queue ends: the clock moves on to its time and the vector is sent. -/
def coalesceTimer (i : Nat) (s : State) : State :=
  match s.cq i with
  | none => s
  | some c =>
    if c.irqEn && 0 < c.coalTime && 0 < c.unsig then
      let s := s.advanceTo (c.unsigAt + sysCycle * c.coalTime)
      (s.setCq i { c with unsig := 0 }).sendVector c.vector
    else s

def execCoalesceTimer (cq : Nat) (s : State) : Host.Outcome State Fault Refusal := onLive s (coalesceTimer cq)

/-- R82, R393: a write to HQS.CTRL. -/
def hqsEnable (v : Word) (s : State) : State := s.wr F.HQS_CTRL_EN (v.toNat % 2)

def execHqsEnable (v : Word) (s : State) : Host.Outcome State Fault Refusal := onLive s (hqsEnable v)

/-- SQ 0 takes its ring from the admin registers (R63, R393). -/
def State.syncAsq (s : State) : State :=
  match s.sq 0 with
  | none => s
  | some q => s.setSq 0
      { q with base := s.pairRd F.HQS_ASQ_BASE_LO F.HQS_ASQ_BASE_HI / 4096 * 4096
               depth := 2 ^ s.rd F.HQS_ASQ_CFG_DEPTH_LOG2, head := 0, tail := 0, halted := false }

/-- CQ 0 takes its ring from the admin registers (R63, R393). -/
def State.syncAcq (s : State) : State :=
  match s.cq 0 with
  | none => s
  | some c => s.setCq 0
      { c with base := s.pairRd F.HQS_ACQ_BASE_LO F.HQS_ACQ_BASE_HI / 4096 * 4096
               depth := 2 ^ s.rd F.HQS_ACQ_CFG_DEPTH_LOG2, tail := 0, phase := true, halted := false, unsig := 0 }

/-- A write to a _LO register is held until its _HI is written (R382). -/
def State.holdLo (s : State) (off : Nat) (v : Word) : State := { s with hq := { s.hq with loHeld := Map.put s.hq.loHeld off v } }

/-- The value a _HI write pairs with its _LO: the held one, or the one stored (R382); the held one is used up. -/
def State.takeLo (s : State) (off stored : Nat) : Nat × State :=
  match Map.find s.hq.loHeld off with
  | some v => (v.toNat, { s with hq := { s.hq with loHeld := Map.del s.hq.loHeld off } })
  | none => (stored, s)

/-- Set a pair of base registers from a _HI write, with the low bits its chapter ignores cleared (R382). -/
def State.writeHi (s : State) (lo hi : Fld) (align : Nat) (v : Word) : State :=
  let r := s.takeLo lo.off (s.rd lo)
  (r.2.wr lo (r.1 / align * align)).wr hi v.toNat

/-- R82, R393: a write to one of the admin pair's set-up registers; only while EN is 0. -/
def adminQueueSetup (off : Nat) (v : Word) (s : State) : State :=
  if s.on F.HQS_CTRL_EN && off != 0x30058 then s
  else if off = 0x30040 || off = 0x30050 || off = 0x30060 then s.holdLo off v
  else if off = 0x30044 then (s.writeHi F.HQS_ASQ_BASE_LO F.HQS_ASQ_BASE_HI 4096 v).syncAsq
  else if off = 0x30054 then (s.writeHi F.HQS_ACQ_BASE_LO F.HQS_ACQ_BASE_HI 4096 v).syncAcq
  else if off = 0x30064 then s.writeHi F.HQS_DB_BASE_LO F.HQS_DB_BASE_HI 4096 v
  else if off = 0x30048 then
    let n := bits v.toNat 0 4
    if 4 ≤ n && n ≤ 14 then (s.wr F.HQS_ASQ_CFG_DEPTH_LOG2 n).syncAsq else s
  else if off = 0x30058 then
    let n := bits v.toNat 0 4
    let s := s.wr F.HQS_ACQ_CFG_VECTOR (bits v.toNat 8 8)
    let s := match s.cq 0 with
      | some c => s.setCq 0 { c with vector := bits v.toNat 8 8 }
      | none => s
    if 4 ≤ n && n ≤ 14 && !s.on F.HQS_CTRL_EN then (s.wr F.HQS_ACQ_CFG_DEPTH_LOG2 n).syncAcq else s
  else s

def execAdminQueueSetup (off : Nat) (v : Word) (s : State) : Host.Outcome State Fault Refusal :=
  onLive s (adminQueueSetup off v)

/-- The BAR4 aperture's base (R60, R82). -/
def State.aperture (s : State) : Nat := s.pairRd F.HQS_LMW_BASE_LO F.HQS_LMW_BASE_HI / 2 ^ 28 * 2 ^ 28

/-- Write the bytes of a BAR4 access that lie in reach (R61). -/
def State.bar4Write (s : State) (a : Nat) (bs : Bytes) : State :=
  match bs with
  | [] => s
  | b :: bs' => State.bar4Write (if lmOk a 1 then s.lmWrite a [b] else s) (a + 1) bs'

/-- R60, R61: an access through BAR4; a read changes nothing. -/
def bar4Access (off : Nat) (write : Option Bytes) (_len : Nat) (s : State) : State :=
  match write with
  | some bs => if s.power.pcie && decide (off + bs.length ≤ 2 ^ 28) then s.bar4Write (s.aperture + off) bs else s
  | none => s

def execBar4Access (off : Nat) (write : Option Bytes) (len : Nat) (s : State) : Host.Outcome State Fault Refusal :=
  onLive s (bar4Access off write len)

/-- What a BAR4 read of one byte returns (R61). -/
def State.bar4Read (s : State) (off : Nat) : Byte :=
  if lmOk (s.aperture + off) 1 then Store.get s.lm (s.aperture + off) else 0

/-- R67: NOP. -/
def execNop (d : Desc) (s : State) : Host.Outcome State Fault Refusal :=
  onOp s d 0x00 .both (fun s => s.finish d 0x00 (if d.only [] then stOk else stFormat))

/-- Queue management is accepted only on SQ 0 (R73). -/
def onAdmin (d : Desc) (op : Nat) (f : State → State) (s : State) : State :=
  if d.sq != 0 then s.finish d op stNotAdmin else f s

def sqCreate (d : Desc) (s : State) : State :=
  let base := d.num 0 8; let id := d.num 8 2; let dl := d.num 10 1; let cq := d.num 11 1
  let mb := d.flag 12 4; let burst := d.num 13 1
  if !d.only [(0, 0, 64), (8, 0, 16), (10, 0, 8), (11, 0, 8), (12, 0, 2), (12, 4, 1), (13, 0, 8)] then s.finish d 1 stFormat
  else if dl < 4 || 14 < dl || burst < 1 || 64 < burst then s.finish d 1 stFormat
  else if mb && (id < 512 || s.isTile) then s.finish d 1 stFormat
  else if base % 4096 != 0 then s.finish d 1 stAddress
  else if id = 0 || 1023 < id || (s.sq id).isSome || (s.cq cq).isNone then s.finish d 1 stQueueId
  else
    let q : Sq := { base := base, depth := 2 ^ dl, cq := cq, prio := d.bitsAt 12 0 2, mailbox := mb, burst := burst,
                    head := 0, tail := 0, halted := false }
    let s := s.setSq id q
    let s := if mb && (Map.find s.trail.links (id - 512)).isNone then s.setLink (id - 512) .fresh else s
    s.finish d 1 stOk

/-- R63, R76: SQ_CREATE. -/
def execSqCreate (d : Desc) (s : State) : Host.Outcome State Fault Refusal :=
  onOp s d 0x01 .both (onAdmin d 1 (sqCreate d))

/-- Fetched descriptors of a deleted queue that have not started complete with ABORT_DELETE (R75); one that has only been forwarded
to its tile has not (DESIGN CHOICE, log entry 175). -/
def State.abortFlights (s : State) (sq : Nat) (status : Nat) (which : Flight → Bool) : State :=
  let r : Done := { status := status, result := 0, frame := s.frameNow, time := BitVec.ofNat 32 s.ns, fromTile := none }
  let fs := s.hq.flights.map (fun f =>
    if f.sq = sq ∧ f.done = none ∧ which f then { f with done := some r } else f)
  { s with hq := { s.hq with flights := fs } }

def sqDelete (d : Desc) (s : State) : State :=
  let id := d.num 0 2
  if !d.only [(0, 0, 16)] then s.finish d 2 stFormat
  else if id = 0 || (s.sq id).isNone || s.hq.deleting.any (·.1 == id) then s.finish d 2 stQueueId
  else
    let s := s.abortFlights id stAbortDelete (fun f => !f.started)
    let s := { s with hq := { s.hq with deleting := s.hq.deleting ++ [(id, d)] } }
    settleDeletes s.hq.deleting s

/-- R75: SQ_DELETE. -/
def execSqDelete (d : Desc) (s : State) : Host.Outcome State Fault Refusal :=
  onOp s d 0x02 .both (onAdmin d 2 (sqDelete d))

def cqCreate (d : Desc) (s : State) : State :=
  let base := d.num 0 8; let hw := d.num 8 8; let id := d.num 16 1; let dl := d.num 17 1
  let cc := d.num 20 2
  if !d.only [(0, 0, 64), (8, 0, 64), (16, 0, 8), (17, 0, 8), (18, 0, 8), (19, 0, 1), (20, 0, 16), (22, 0, 16)] then
    s.finish d 3 stFormat
  else if dl < 4 || 14 < dl || cc < 1 || 256 < cc then s.finish d 3 stFormat
  else if base % 4096 != 0 || hw % 4 != 0 then s.finish d 3 stAddress
  else if id = 0 || (s.cq id).isSome then s.finish d 3 stQueueId
  else
    let c : Cq := { base := base, depth := 2 ^ dl, headAddr := hw, vector := d.num 18 1, irqEn := d.flag 19 0,
                    coalCount := cc, coalTime := d.num 22 2, tail := 0, phase := true, head := 0, halted := false,
                    unsig := 0, unsigAt := 0 }
    (s.setCq id c).finish d 3 stOk

/-- R63, R66, R73: CQ_CREATE. -/
def execCqCreate (d : Desc) (s : State) : Host.Outcome State Fault Refusal :=
  onOp s d 0x03 .both (onAdmin d 3 (cqCreate d))

def cqDelete (d : Desc) (s : State) : State :=
  let id := d.num 16 1
  if !d.only [(16, 0, 8)] then s.finish d 4 stFormat
  else if id = 0 || (s.cq id).isNone then s.finish d 4 stQueueId
  else if s.hq.sqs.any (fun x => x.2.cq == id) then s.finish d 4 stQueueBusy
  else { s with hq := { s.hq with cqs := Map.del s.hq.cqs id } }.finish d 4 stOk

/-- R75: CQ_DELETE. -/
def execCqDelete (d : Desc) (s : State) : Host.Outcome State Fault Refusal :=
  onOp s d 0x04 .both (onAdmin d 4 (cqDelete d))

/-- RESULT of QUEUE_QUERY. -/
def State.queryResult (s : State) (sq cq : Nat) : Nat :=
  (match s.sq sq with
   | some q => q.head + 2 ^ 14 * q.tail + 2 ^ 28 * b2n q.halted + 2 ^ 29
   | none => 0) +
  (match s.cq cq with
   | some c => 2 ^ 32 * c.tail + 2 ^ 46 * c.head + 2 ^ 60 * b2n c.halted + 2 ^ 61
   | none => 0)

def queueQuery (d : Desc) (s : State) : State :=
  if !d.only [(0, 0, 16), (16, 0, 8)] then s.finish d 5 stFormat
  else if 1023 < d.num 0 2 then s.finish d 5 stQueueId
  else s.finish d 5 stOk (s.queryResult (d.num 0 2) (d.num 16 1))

/-- R75: QUEUE_QUERY. -/
def execQueueQuery (d : Desc) (s : State) : Host.Outcome State Fault Refusal :=
  onOp s d 0x05 .both (onAdmin d 5 (queueQuery d))

/-- The operand checks LOCAL_WRITE and LOCAL_READ share (R76, R77). -/
def copyStatus (d : Desc) : Option Nat :=
  if !d.only [(8, 0, 64), (16, 0, 64), (24, 0, 32)] then some stFormat
  else if d.num 24 4 < 1 || !decide (d.num 24 4 ≤ 16777216) then some stFormat
  else if !lmOk (d.num 8 8) (d.num 24 4) then some stAddress
  else none

/-- The bytes a failed transfer leaves are open (R77): free values. -/
def State.scramble (s : State) (a len : Nat) : State :=
  (s.drawn).lmWrite a (leBytes len (Config.freeNat s.free))

def localWrite (d : Desc) (src : HostData) (s : State) : State :=
  match copyStatus d with
  | some st => s.finish d 0x35 st
  | none =>
    let n := d.num 24 4
    if src.ok then (s.lmWrite (d.num 8 8) ((List.range n).map (byteAt src.bytes))).finish d 0x35 stOk
    else (s.scramble (d.num 8 8) n).finish d 0x35 stPcie

/-- R77: LOCAL_WRITE. -/
def execLocalWrite (d : Desc) (src : HostData) (s : State) : Host.Outcome State Fault Refusal :=
  onOp s d 0x35 .both (localWrite d src)

def localRead (d : Desc) (ok : Bool) (s : State) : State :=
  match copyStatus d with
  | some st => s.finish d 0x36 st
  | none =>
    s.readsLm d 0x36 (d.num 8 8) (d.num 24 4)
      (if ok then (s.emit (.hostWrite (d.num 16 8) (s.lmRead (d.num 8 8) (d.num 24 4)))).finish d 0x36 stOk
       else s.finish d 0x36 stPcie)

/-- R77: LOCAL_READ. -/
def execLocalRead (d : Desc) (ok : Bool) (s : State) : Host.Outcome State Fault Refusal :=
  onOp s d 0x36 .both (localRead d ok)

end Sys2Proof.Machine
end

