-- ==== Sys2Proof/Machine/Slot.lean ====
section
/-! DEFINITION. Payload slots as they are received, forwarded and sent: the header, good and bad copies, and their counts
(R101 - R103, R112, R114, R116). -/

namespace Sys2Proof.Machine

/-- Fields of a payload slot (R102). -/
def slotClass (b : Bytes) : Nat := bits (numAt b 0 1) 0 4
def slotSub (b : Bytes) : Nat := numAt b 1 1
def slotBody (b : Bytes) : Bytes := (b.drop 16).take 240

/-- The slot is empty (R102). -/
def slotEmpty (b : Bytes) : Bool := numAt b 0 1 == 0xF0

/-- NCLASS is the complement of CLASS, and the class is one of 0-7 (R102). -/
def slotFormed (b : Bytes) : Bool := bits (numAt b 0 1) 4 4 == 15 - slotClass b && decide (slotClass b < 8)

/-- The CRC of a payload slot: over bytes 0-255 with bytes 12-15 read as 0 (R102). -/
def slotCrc (b : Bytes) : Nat := (crc32c (blank (b.take 256) 12 4)).toNat
def slotCrcOk (b : Bytes) : Bool := b.length == 256 && numAt b 12 4 == slotCrc b

/-- A good copy carries a reserved value: it is discarded and counted (R102). -/
def State.hdrBad (s : State) (k : Nat) : State := (s.inc (F.GLB_SLOT_HDR_BAD k)).detect E.GLB_HDR_BAD

/-- A copy with a bad CRC (R102). -/
def State.crcBad (s : State) (k : Nat) : State := (s.inc (F.GLB_SLOT_CRC_ERR k)).detect E.GLB_SLOT_CRC

/-- A tile forwards between its ports: both transmit slot cycles (R94, R112). -/
def State.forwards (s : State) : Bool :=
  s.isTile && [0, 1].all (fun k => s.portActive k && !s.on (F.TRL_STAT_LINK_CYCLES k))

/-- Ports on which a tile inserts return traffic (R114). -/
def State.returnPorts (s : State) : List Nat := [0, 1].filter (fun k => s.portActive k && (s.port k).feed.headFed)

/-- The pending latest values (R115). -/
def State.pends (s : State) : List Bytes :=
  s.trail.pendReply.toList ++ s.trail.pendAck.toList ++ s.trail.pendGap.toList ++ s.trail.pendLock.toList

/-- Return traffic waits for a port: a built slot owed on it, or something to build one of (R114, R115). -/
def State.owes (s : State) (k : Nat) : Bool :=
  s.trail.built.any (fun r => r.owed.contains k) ||
    (s.returnPorts.contains k && (!s.pends.isEmpty || !s.trail.msgs.isEmpty || !s.trail.previews.isEmpty))

/-- The slot's index has its bit set in the mask bank in force (R114, R116). -/
def State.maskBit (s : State) (i : Nat) : Bool :=
  let f := if s.rd F.GLB_EPOCH_STAT_EPOCH % 2 = 0 then F.GLB_MASK0 (i / 32) else F.GLB_MASK1 (i / 32)
  i != 0 && bit (s.rd f) (i % 32)

/-- A filled slot passes a tile on its way out of the other port: it is forwarded unchanged (R112), and an insertion there that
finds it at a masked index is deferred (R114).  The deferral counts at the port the return was to leave by (DESIGN CHOICE, log
entry 157). -/
def State.pass (s : State) (k i : Nat) (b : Bytes) : State :=
  if s.forwards then
    let j := 1 - k
    let s := s.emit (.relay j i b)
    if s.on F.GLB_TILE_ID_VALID && s.maskBit i && s.owes j then (s.inc (F.GLB_SLOT_INS_DEFER j)).detect E.GLB_INS_CONFLICT
    else s
  else s

/-- A port receives a copy of a class: an empty slot is nothing, any other is forwarded, a malformed or bad-CRC one is counted,
and a good copy of the class goes to its taker (R102, R104, R112). -/
def State.onCopy (s : State) (k i : Nat) (b : Bytes) (classes : List Nat) (f : State → State) : State :=
  if !s.portActive k || slotEmpty b then s
  else
    let s := s.pass k i b
    if !slotFormed b then s.hdrBad k
    else if !slotCrcOk b then s.crcBad k
    else if classes.contains (slotClass b) then f s
    else s

/-- Count a copy taken, and a duplicate (R104). -/
def State.taken (s : State) (k : Nat) : State := s.inc (F.GLB_SLOT_TAKEN k)
def State.dup (s : State) (k : Nat) : State := s.inc (F.GLB_SLOT_DUP k)

/-- The tile a slot names, and whether it is this one (R102, R352). -/
def slotTile (b : Bytes) : Nat := bits (numAt b 2 2) 0 9
def State.forMe (s : State) (b : Bytes) : Bool := s.isTile && s.on F.GLB_TILE_ID_VALID && slotTile b == s.rd F.GLB_TILE_ID_ID

/-- The key of a slot to a tile. -/
def tileKey (t : Nat) (rest : Bytes) : Bytes := leBytes 2 t ++ rest ++ List.replicate (8 - rest.length) 0

end Sys2Proof.Machine
end

