-- ==== Sys2Proof/Machine/Return.lean ====
section
/-! DEFINITION. What a head takes out of return slots (R79, R80, R115), and the interest of tiles in a wall (R48). -/

namespace Sys2Proof.Machine

/-- The LENGTH of a message KIND (R115); READ_DATA's follows its data length. -/
def kindLength (m : Bytes) : Nat :=
  match numAt m 0 1 with
  | 1 => 4
  | 2 => 36
  | 3 => 12
  | 4 => 20
  | 5 => 16 + ceilDiv (numAt m 12 2) 4 * 4
  | 6 => 8
  | 7 => 16
  | 8 => 16
  | _ => 0

/-- The messages of a class-5 payload, each with whether it is well formed; a malformed one is the last (R115). -/
def retMsgs (fuel : Nat) (p : Bytes) : List (Bool × Bytes) :=
  match fuel with
  | 0 => []
  | fuel + 1 =>
    let n := numAt p 1 1
    if p.isEmpty || numAt p 0 1 = 0 then []
    else if n = kindLength p && n != 0 && decide (n ≤ p.length) then (true, p.take n) :: retMsgs fuel (p.drop n)
    else [(false, p.take n)]

/-- The reserved bits of a class-5 header are 0 (R102). -/
def class5Head (b : Bytes) : Bool := slotSub b == 0 && bits (numAt b 2 2) 9 7 == 0 && zeroAt b 6 6

end Sys2Proof.Machine

namespace Sys2Proof

open Sys2Proof.Machine

/-- The tile and RSEQ of a message's slot (R102). -/
def RetMsg.tile (m : RetMsg) : Nat := slotTile m.slot
def RetMsg.rseq (m : RetMsg) : BitVec 16 := BitVec.ofNat 16 (numAt m.slot 4 2)

/-- The message at its place in the payload, with whether it is well formed. -/
def RetMsg.msg (m : RetMsg) : Option (Bool × Bytes) := (retMsgs 60 (slotBody m.slot))[m.idx]?

/-- A message's bytes (KIND in byte 0, LENGTH in byte 1, R80). -/
def RetMsg.body (m : RetMsg) : Bytes :=
  match m.msg with
  | some x => x.2
  | none => []

end Sys2Proof

namespace Sys2Proof.Machine

/-- The highest RSEQ taken, of entries 64 × RSEQ + index. -/
def topRseq (l : List Nat) : Nat :=
  match l with
  | [] => 0
  | x :: r => r.foldl (fun t y => if later16 (y / 64) t then y / 64 else t) (x / 64)

/-- A copy is taken once, and only near the highest RSEQ taken from its tile (R115). -/
def State.freshRet (s : State) (m : RetMsg) : Bool :=
  let l := Map.getD s.trail.rseq m.tile []
  !l.contains (64 * m.rseq.toNat + m.idx) &&
    (l.isEmpty || later16 m.rseq.toNat (topRseq l) || decide ((topRseq l + 65536 - m.rseq.toNat) % 65536 ≤ 64))

/-- Note a message as taken. -/
def State.takeRet (s : State) (m : RetMsg) : State :=
  let l := (64 * m.rseq.toNat + m.idx) :: Map.getD s.trail.rseq m.tile []
  let t := topRseq l
  let kept := l.filter (fun x => decide ((t + 65536 - x / 64) % 65536 ≤ 64))
  { s with trail := { s.trail with rseq := Map.put s.trail.rseq m.tile kept } }

/-- A tile is on the roster of a port (R355): the copy just taken counts as its latest. -/
def State.hear (s : State) (k t : Nat) : State :=
  let f := F.GLB_ROSTER (16 * k + t / 32)
  (s.wr f (setBit (s.rd f) (t % 32))).setPort k { s.port k with heard := Map.put (s.port k).heard t s.core }

/-- A return slot passes a tile, or its header is judged by a head: a slot counts once, with its first message (R102, R112). -/
def State.retSlot (s : State) (m : RetMsg) : State :=
  if m.idx != 0 || !s.portActive m.port || slotEmpty m.slot then s
  else
    let s := s.pass m.port m.at0 m.slot
    if !slotFormed m.slot then s.hdrBad m.port
    else if !slotCrcOk m.slot then s.crcBad m.port
    else if s.isHead && slotClass m.slot = 5 && !class5Head m.slot then s.hdrBad m.port
    else s

/-- A head may take messages of the slot: a good copy of class 5 on an Active port with no reserved value (R102, R103). -/
def State.takesRet (s : State) (m : RetMsg) : Bool :=
  s.isHead && s.portActive m.port && slotFormed m.slot && slotCrcOk m.slot && slotClass m.slot == 5 && class5Head m.slot

/-- A head takes one message of a KIND: a malformed one counts HDR_BAD and the rest of its payload is discarded (R115); a
duplicate is a copy all the same, which keeps its tile on the port's roster (R355), and meets `again`. -/
def onRetAgain (m : RetMsg) (kind : Nat) (f again : State → State) (s : State) : Host.Outcome State Fault Refusal :=
  onLive s (fun s =>
    let s := s.retSlot m
    if !s.takesRet m then s
    else
      match m.msg with
      | none => s
      | some (good, b) =>
        if good && numAt b 0 1 != kind then s
        else if s.freshRet m then
          let s := (s.takeRet m).hear m.port m.tile
          let s := if m.idx = 0 then s.taken m.port else s
          if good then f s else s.hdrBad m.port
        else
          let s := (if m.idx = 0 then s.dup m.port else s).hear m.port m.tile
          if good then again s else s)

/-- A head takes one message of a KIND, and nothing of a duplicate. -/
def onRet (m : RetMsg) (kind : Nat) (f : State → State) (s : State) : Host.Outcome State Fault Refusal :=
  onRetAgain m kind f (fun s => s) s

/-- Tiles that hold a place in a ring: those a head has heard on an Active port (R48, R355). -/
def State.roster (s : State) : List Nat :=
  (List.range 512).filter (fun t => (List.range 4).any (fun k => s.portActive k && (Map.find (s.port k).heard t).isSome))

/-- Is a tile on the quorum exclude list (R59)? -/
def State.excluded (s : State) (t : Nat) : Bool := bit (s.rd (F.STP_EXCL (t / 32))) (t % 32)

end Sys2Proof.Machine
end

