-- ==== Sys2Proof/Machine/Colour.lean ====
section
/-! DEFINITION. The arithmetic of one lamp: filtering, colour conversion, blending and stacking (R173, R182, R189 - R195),
and the checks of conversion blocks, LUTs and stacking order (R195, R197). -/

namespace Sys2Proof.Machine

/-- π in 96 fraction bits, rounded down. -/
def piF : Int := 248902613312231085230521944622

/-- sin of an angle of at most π/2 in 96 fraction bits: `n` further terms of its series, from the term `t` of order `k`. -/
def sinSeries (x2 t : Int) (k : Nat) : Nat → Int
  | 0 => t
  | n + 1 => t + sinSeries x2 (-(t * x2 / 2 ^ 96) / ((k + 1) * (k + 2))) (k + 2) n

/-- sin(π p / q) in 96 fraction bits, for p at least 0. -/
def sinPi (p q : Nat) : Int :=
  let r := p % q
  let r := min r (q - r)
  let x := piF * r / q
  let v := sinSeries (x * x / 2 ^ 96) x 1 20
  if p / q % 2 = 1 then -v else v

/-- sinc(p / q) in 96 fraction bits (R173). -/
def sincF (p : Int) (q : Nat) : Int :=
  if p = 0 then 2 ^ 96 else sinPi p.natAbs q * 2 ^ 96 * q / (piF * p.natAbs)

/-- Round to nearest, half away from zero (R173). -/
def roundAway (a b : Int) : Int :=
  let s : Int := if (a < 0) != (b < 0) then -1 else 1
  let n : Int := a.natAbs; let d : Int := b.natAbs
  s * ((2 * n + d) / (2 * d))

/-- v(k) of the automatic filter (R173), with c as 2^20 / step where the step exceeds 1. -/
def autoV (step ph : Nat) (k : Int) : Int :=
  let t : Int := 64 * k - ph
  let c := max step (2 ^ 20)
  sincF (t * 2 ^ 20) (64 * c) * sincF t 256 / 2 ^ 96

/-- The weights w(-3) to w(4) (R173). -/
def weights (filter step ph : Nat) : List Int :=
  let ks : List Int := [-3, -2, -1, 0, 1, 2, 3, 4]
  let near : Int := if ph < 32 then 0 else 1
  if filter = 1 then ks.map (fun k => if k = near then 1024 else 0)
  else if filter = 2 then ks.map (fun k => if k = 0 then 1024 - 16 * ph else if k = 1 then 16 * ph else 0)
  else
    let v := ks.map (autoV step ph)
    let sum := v.foldl (· + ·) 0
    let w := v.map (fun x => roundAway (1024 * x) sum)
    let rest := 1024 - w.foldl (· + ·) 0
    (ks.zip w).map (fun p => if p.1 = near then p.2 + rest else p.2)

/-- Byte `n` of a source line held as chunks; a byte that no chunk holds is open (log entry 22). -/
def lineByte (cs : Map Bytes) (n : Nat) : Byte :=
  match Map.find cs (n / 240) with
  | some bs => if n % 240 < bs.length then byteAt bs (n % 240) else BitVec.ofNat 8 (Config.freeNat n)
  | none => BitVec.ofNat 8 (Config.freeNat n)

/-- Code `k` of the pixel group that holds pixel `i`: codes lie most significant bit first (log entry 23). -/
def groupCode (f : Fmt) (cs : Map Bytes) (g k : Nat) : Nat :=
  let n := f.group.2
  let v := beNat ((List.range n).map (fun j => lineByte cs (g * n + j)))
  bits v (8 * n - f.codeBits * (k + 1)) f.codeBits

/-- The component codes of a pixel in the order of R189, RGBA with alpha last (R173, log entry 23). -/
def pixelCodes (f : Fmt) (cs : Map Bytes) (i : Nat) : List Nat :=
  if f.sampling = 0 then
    let g := i / 2
    let cb := groupCode f cs g 0; let cr := groupCode f cs g 2
    if i % 2 = 0 then [groupCode f cs g 1, cb, cr]
    else
      let y := groupCode f cs g 3
      if 2 * (g + 1) < f.width then
        [y, (cb + groupCode f cs (g + 1) 0 + 1) / 2, (cr + groupCode f cs (g + 1) 2 + 1) / 2]
      else [y, cb, cr]
  else
    let n := if f.sampling = 3 then 4 else 3
    let g := i / f.group.1; let b := n * (i % f.group.1)
    let c := (List.range n).map (fun k => groupCode f cs g (b + k))
    if f.sampling = 1 then [c.getD 1 0, c.getD 0 0, c.getD 2 0] else c

/-- The filtered codes of a lamp (or of a preview pixel, R187) whose centre is (x, y), with 4 fraction bits (R173). -/
def filterLamp (l : Layer) (f : Fmt) (lines : Map (Map Bytes)) (x y : Nat × Nat) (nearest : Bool) : List Int :=
  let tx := l.ax.tapAt x; let ty := l.ay.tapAt y
  let flt := if nearest then 1 else l.filter
  let wx := weights flt l.ax.step tx.2; let wy := weights flt l.ay.step ty.2
  let n := if f.sampling = 3 then 4 else 3
  let rows := (List.range 8).map (fun (k : Nat) => Map.getD lines (8192 * l.source + l.ay.clamp (ty.1 + (k : Int) - 3)) [])
  let cols : List (List Int) := (List.range 8).map (fun (k : Nat) =>
    let i := l.ax.clamp (tx.1 + (k : Int) - 3)
    let px := rows.map (fun cs => pixelCodes f cs i)
    (List.range n).map (fun c =>
      ((px.zip wy).foldl (fun (a : Int) p => a + p.2 * 16 * ((p.1.getD c 0 : Nat) : Int)) 0 + 512) / 1024))
  (List.range n).map (fun c =>
    clampI (((cols.zip wx).foldl (fun (a : Int) p => a + p.2 * p.1.getD c 0) 0 + 512) / 1024) 0 (16 * (2 ^ f.codeBits - 1)))

/-- A conversion block of the layer table (R197). -/
def convBlock (t : Store) (i : Nat) : Bytes := t.range (960 + 64 * i) 64

/-- Point `i` of LUT `k` (R190, R197). -/
def lutPoint (t : Store) (k i : Nat) : Int := (bits (leNat (t.range (1984 + 4100 * k + 4 * i) 4)) 0 20 : Nat)

/-- A matrix of s2.12 coefficients applied to three values (R189, R191). -/
def mtxRow (cb : Bytes) (at0 r : Nat) (x : List Int) : Int :=
  ((List.range 3).foldl (fun a c => a + sval (numAt cb (at0 + 2 * (3 * r + c)) 2) 15 * x.getD c 0) 0 + 2048) / 4096

/-- Output channel `r` before its LUT (R189). -/
def matrixOut (cb : Bytes) (x : List Int) (r : Nat) : Int :=
  if bit (numAt cb 0 1) 0 then
    let z := (List.range 3).map (fun c => x.getD c 0 - 16 * (numAt cb (4 + 2 * c) 2 : Nat))
    clampI (mtxRow cb 10 r z + sval (numAt cb (28 + 4 * r) 4) 21) 0 (2 ^ 20 - 1)
  else x.getD r 0

/-- A raw value through a LUT (R190). -/
def lutOut (t : Store) (k : Nat) (v : Int) : Int :=
  let i := (v / 1024).toNat; let f := v % 1024
  lutPoint t k i + ((lutPoint t k (i + 1) - lutPoint t k i) * f + 512) / 1024

/-- One linear output of a block's matrix and LUT (R189, R190). -/
def linearOut (t : Store) (cb : Bytes) (x : List Int) (r : Nat) : Int :=
  lutOut t (bits (numAt cb (1 + r) 1) 0 3) (matrixOut cb x r)

/-- The colour of a lamp in wall primaries (R189 - R191). -/
def colourOf (t : Store) (cb : Bytes) (x : List Int) : List Int :=
  let l := (List.range 3).map (linearOut t cb x)
  if bit (numAt cb 0 1) 1 then (List.range 3).map (fun r => clampI (mtxRow cb 40 r l) 0 0xFFFFF) else l

/-- Layer `i` and source format entry `k` of a layer table (R169). -/
def tblLayer (t : Store) (i : Nat) : Layer := Layer.parse (t.range (128 + 32 * i) 32)
def tblFmt (t : Store) (k : Nat) : Fmt := Fmt.parse (t.range (8 * k) 8)

/-- The filtered codes as 16.4 values (R189). -/
def normalised (t : Store) (l : Layer) (lines : Map (Map Bytes)) (x y : Nat × Nat) (nearest : Bool) : List Int :=
  let f := tblFmt t l.source
  (filterLamp l f lines x y nearest).map (fun c => c * 2 ^ (16 - f.codeBits))

/-- Is a lamp inside a layer (R172)? -/
def Layer.inside (l : Layer) (x y : Nat × Nat) : Bool := l.ax.insideAt x && l.ay.insideAt y

/-- A layer that is composed: enabled, and neither cleared nor absent (R179, R192). -/
def composed (outs : List Nat) (i : Nat) : Bool := outs.getD i 0 == 1 || outs.getD i 0 == 2

/-- The key of a lamp from a key layer (R194). -/
def keyAlpha (t : Store) (outs : List Nat) (lines : Map (Map Bytes)) (i : Nat) (x y : Nat × Nat) (nearest : Bool) : Int :=
  let l := tblLayer t i
  if l.inside x y && composed outs i then
    let o := linearOut t (convBlock t l.conv) (normalised t l lines x y nearest) 0
    (o * 32768 + 524287) / 1048575
  else 0

/-- The alpha of a layer at a lamp (R192). -/
def layerAlpha (t : Store) (outs : List Nat) (lines : Map (Map Bytes)) (i : Nat) (x y : Nat × Nat) (nearest : Bool) : Int :=
  let l := tblLayer t i
  if l.inside x y && composed outs i then
    let f := tblFmt t l.source
    let src : Int :=
      if f.sampling = 3 then
        let a := min ((filterLamp l f lines x y nearest).getD 3 0) (255 * 16)
        (2 * a * 32768 + 255 * 16) / (2 * 255 * 16)
      else 32768
    let a := (src * (l.opacity : Nat) + 16384) / 32768
    if l.keyed then (a * keyAlpha t outs lines l.key x y nearest + 16384) / 32768 else a
  else 0

/-- Bits 3p + 2 : 3p of a permutation for p = 0 to 7 (R195). -/
def permOf (v : Nat) : List Nat := (List.range 8).map (fun p => bits v (3 * p) 3)

/-- The stacking order at a lamp (R195). -/
def orderAt (t : Store) (x y : Nat) : List Nat :=
  if (t.get 384).getLsbD 0 then
    let n := (t.get 385).toNat
    let hit := (List.range n).find? (fun k =>
      let r := t.range (448 + 32 * k) 20
      let rx := bits (numAt r 0 4) 0 19; let ry := bits (numAt r 4 4) 0 19
      decide (rx ≤ x) && decide (x < rx + bits (numAt r 8 4) 0 20) && decide (ry ≤ y) &&
        decide (y < ry + bits (numAt r 12 4) 0 20))
    match hit with
    | some k => permOf (leNat (t.range (448 + 32 * k + 16) 4))
    | none => permOf (leNat (t.range 388 4))
  else List.range 8

/-- The three channels of a packed value (R182), and their packing. -/
def unpack20 (v : Nat) : List Int := [(bits v 0 20 : Nat), (bits v 20 20 : Nat), (bits v 40 20 : Nat)]
def pack20 (c : List Int) : Nat := (c.getD 0 0).toNat + 2 ^ 20 * (c.getD 1 0).toNat + 2 ^ 40 * (c.getD 2 0).toNat

/-- How lamps read the layers: which are filtered nearest (R187), and which are transparent at the lamp for a word that cannot be
read (R188, R207). -/
structure Reading where
  nearest : Nat → Bool
  skip : Nat → Bool

/-- The outcomes at a lamp: a layer that a failed word makes transparent counts as cleared (R188, R207). -/
def Reading.outs (r : Reading) (outs : List Nat) : List Nat := ((List.range outs.length).zip outs).map (fun o => if r.skip o.1 then 3 else o.2)

/-- One layer over what lies below it (R193). -/
def blendLayer (t : Store) (outs : List Nat) (lines : Map (Map Bytes)) (x y : Nat × Nat) (r : Reading) (dst : List Int)
    (i : Nat) : List Int :=
  let l := tblLayer t i; let outs := r.outs outs
  if l.en && decide (l.blend < 2) && l.inside x y && composed outs i then
    let a := layerAlpha t outs lines i x y (r.nearest i)
    let c := colourOf t (convBlock t l.conv) (normalised t l lines x y (r.nearest i))
    (List.range 3).map (fun k =>
      let d := dst.getD k 0; let v := c.getD k 0
      if l.blend = 0 then (v * a + d * (32768 - a) + 16384) / 32768 else min (d + (v * a + 16384) / 32768) 0xFFFFF)
  else dst

/-- The working value of the lamp whose centre is at wall (x, y) (R193, R195). -/
def lampValue (t : Store) (outs : List Nat) (lines : Map (Map Bytes)) (und : Nat) (x y : Nat × Nat) (r : Reading) : Nat :=
  pack20 ((orderAt t (x.1 / x.2) (y.1 / y.2)).foldl (blendLayer t outs lines x y r) (unpack20 und))

/-- The bytes of pixel `i` of a line: of its pixel group, and for 4:2:2 of the next, whose chroma it takes in (R173). -/
def pixelBytes (f : Fmt) (i : Nat) : Nat × Nat :=
  let g := i / f.group.1; let n := f.group.2
  (g * n, (g + (if f.sampling = 0 then 2 else 1)) * n)

/-- A layer reads a failed word at a lamp (R188, R207). -/
def readsBad (t : Store) (lines : Map (Map Bytes)) (x y : Nat × Nat) (i : Nat) (e : CanopyEcc) : Bool :=
  let l := tblLayer t i; let f := tblFmt t l.source; let cb := convBlock t l.conv
  let near := fun (a : Axis) (p : Nat × Nat) => (List.range 8).map (fun (k : Nat) => a.clamp ((a.tapAt p).1 + (k : Int) - 3))
  l.inside x y && (match e with
    | .store s n w => s == l.source && (near l.ay y).contains n &&
        (near l.ax x).any (fun c => decide ((pixelBytes f c).1 < 8 * w + 8) && decide (8 * w < (pixelBytes f c).2))
    | .conv k => l.conv == k
    | .lut k p => (List.range 3).any (fun r =>
        let j := (matrixOut cb (normalised t l lines x y false) r / 1024).toNat
        bits (numAt cb (1 + r) 1) 0 3 == k && (p == j || p == j + 1)))

/-- A conversion block without reserved bits (R197). -/
def convOk (cb : Bytes) : Bool :=
  bits (numAt cb 0 1) 2 6 == 0 && [1, 2, 3].all (fun k => bits (numAt cb k 1) 3 5 == 0) &&
    (List.range 9).all (fun k => !bit (numAt cb (10 + 2 * k) 2) 15 && !bit (numAt cb (40 + 2 * k) 2) 15) &&
    (List.range 3).all (fun k => bits (numAt cb (28 + 4 * k) 4) 21 11 == 0) && zeroAt cb 58 6

/-- A LUT whose points are at most 0xF_FFFF (R190, R195). -/
def lutOk (l : Bytes) : Bool := (List.range 1025).all (fun i => decide (numAt l (4 * i) 4 ≤ 0xFFFFF))

/-- A permutation that names each layer once (R195). -/
def permOk (v : Nat) : Bool := (List.range 8).all (fun l => (permOf v).contains l)

/-- An order header of 16 bytes: reserved bits, and with ORDER_MODE = 1 its ranges (R195, R197). -/
def orderHeadOk (h : Bytes) : Bool :=
  bits (numAt h 0 1) 1 7 == 0 && zeroAt h 2 2 && zeroAt h 7 9 &&
    (!bit (numAt h 0 1) 0 || (decide (numAt h 1 1 ≤ 16) && permOk (numAt h 4 3)))

/-- Reserved bits of an Order region, and its ranges where it is in use (R195, R197). -/
def regionReserved (r : Bytes) : Bool :=
  bits (numAt r 0 4) 19 13 == 0 && bits (numAt r 4 4) 19 13 == 0 && bits (numAt r 8 4) 20 12 == 0 &&
    bits (numAt r 12 4) 20 12 == 0 && bits (numAt r 16 4) 24 8 == 0 && zeroAt r 20 12

def regionUsed (r : Bytes) : Bool :=
  let w := bits (numAt r 8 4) 0 20; let h := bits (numAt r 12 4) 0 20
  decide (1 ≤ w) && decide (w ≤ 524288) && decide (1 ≤ h) && decide (h ≤ 524288) && permOk (bits (numAt r 16 4) 0 24)

end Sys2Proof.Machine
end

