-- ==== Sys2Proof/Machine/Correct.lean ====
section
/-! DEFINITION. The arithmetic of lamp correction, the dimmer split and the pattern engines (R208 - R216, R250 - R252). -/

namespace Sys2Proof.Machine

/-- A Lamp Table entry with a non-zero reserved bit acts as disabled (R208, R212). -/
def lampBad (e : Bytes) : Bool := bits (leNat e) 145 15 != 0
def lampOff (e : Bytes) : Bool := bit (leNat e) 144 || lampBad e

/-- An Emitter Table entry with a non-zero reserved bit acts as dead (R208, R212). -/
def emitBad (e : Bytes) : Bool := bits (leNat e) 26 6 != 0
def emitDead (e : Bytes) : Bool := bit (leNat e) 24 || emitBad e

/-- d_e (R210). -/
def corrD (lamp : Bytes) (w : List Int) (e : Nat) : Int :=
  clampI (((List.range 3).foldl (fun (a : Int) c => a + sval (bits (leNat lamp) (12 * (3 * e + c)) 12) 12 * w.getD c 0) 0 +
    512) / 1024) 0 0xFFFFF

/-- g_e (R210). -/
def corrG (lamp emit : Bytes) (w : List Int) (e : Nat) : Int :=
  min ((corrD lamp w e * (bits (leNat emit) 0 14 : Nat) + 65536) / 131072) 65535

/-- DARK_e (R208). -/
def darkOf (emit : Bytes) : Int := sval (bits (leNat emit) 14 10) 10

/-- t_e, the drive tap (R211). -/
def driveTap (lamp emit : Bytes) (w : List Int) (e : Nat) : Nat :=
  let g := corrG lamp emit w e
  if lampOff lamp || emitDead emit || g = 0 then 0 else (clampI (g + darkOf emit) 0 65535).toNat

/-- out_e, with the frame's PWM scale and the lamp's pattern gain (R211). -/
def driveOut (lamp emit : Bytes) (w : List Int) (e scale q : Nat) : Nat :=
  let s := (corrG lamp emit w e * (scale : Nat) * (q : Nat) + 1073741824) / 2147483648
  if lampOff lamp || emitDead emit || s = 0 then 0 else (clampI (s + darkOf emit) 0 65535).toNat

/-- I and S (R214). -/
def splitOf (m k : Nat) : Nat × Nat := if k ≤ m then (m, 65536) else (k, (m * 65536 + k / 2) / k)

/-- A current code (R214). -/
def codeOfB (b i : Nat) : Nat := (b * i + 32767) / 65535

/-- Parameter `j` of an engine's 48 bytes (R251, R252). -/
def patParam (e : Bytes) (j : Nat) : Nat := numAt e (2 * j) 2

/-- t of an engine at a frame (R250). -/
def patTime (e : Bytes) (n : Nat) : Nat :=
  let p := patParam e 3
  if p = 0 then 0 else n % p * 2 ^ 32 / p

/-- φ (R250). -/
def patPhase (e : Bytes) (n x y : Nat) : Nat :=
  (((patTime e n : Nat) + ((patParam e 5 : Nat) - 32768 : Int) * x * 1024 + ((patParam e 6 : Nat) - 32768 : Int) * y * 1024 +
    (patParam e 7 * 65536 : Nat)) % 2 ^ 32).toNat

/-- w (R250). -/
def patWave (e : Bytes) (ph : Nat) : Nat :=
  let duty := patParam e 4 * 65536
  match bits (patParam e 1) 14 2 with
  | 0 => (roundAway (16384 * (2 ^ 96 - sinPi (ph / 2 ^ 22 + 256) 512)) (2 ^ 96)).toNat
  | 1 => ph / 2 ^ 17
  | 2 => if ph < duty then 32768 else 0
  | _ => if ph < duty then 32768 - ph * 32768 / duty else 0

/-- Q_e (R250). -/
def patGain (e : Bytes) (n x y : Nat) : Nat := 32768 - (32768 - patWave e (patPhase e n x y)) * patParam e 2 / 65535

/-- Is an engine on, and does its region hold a lamp (R251)? -/
def patOn (e : Bytes) : Bool := decide (32768 ≤ patParam e 0)
def patHolds (e : Bytes) (x y : Nat) : Bool :=
  let rx := bits (numAt e 32 4) 0 19; let ry := bits (numAt e 36 4) 0 19
  decide (rx ≤ x) && decide (x < rx + bits (numAt e 40 4) 0 20) && decide (ry ≤ y) && decide (y < ry + bits (numAt e 44 4) 0 20)

/-- Engine `e` of a bank's pattern item (R252). -/
def engine (pats : Store) (e : Nat) : Bytes := pats.range (48 * e) 48

/-- Q of a lamp (R251), the engines of a mask counting as disabled (R257). -/
def lampQ (pats : Store) (off n x y : Nat) : Nat :=
  (List.range 8).foldl (fun q e =>
    let b := engine pats e
    if patOn b && !bit off e && patHolds b x y then q * patGain b n x y / 32768 else q) 32768

/-- The region of an engine (R252): reserved bits and ranges. -/
def regionOk (r : Bytes) : Bool :=
  let x := numAt r 0 4; let y := numAt r 4 4; let w := numAt r 8 4; let h := numAt r 12 4
  decide (x < 2 ^ 19) && decide (y < 2 ^ 19) && decide (1 ≤ w) && decide (1 ≤ h) && decide (x + w ≤ 524288) &&
    decide (y + h ≤ 524288)

/-- An engine's parameters (R251): parameters 8 to 15 are reserved. -/
def paramsOk (p : Bytes) : Bool := zeroAt p 16 16

/-- A Glade record of 32 bytes (R199). -/
def gladeOk (g : Bytes) : Bool :=
  let x := numAt g 4 4; let y := numAt g 8 4; let w := numAt g 12 4; let h := numAt g 16 4
  bits (numAt g 0 1) 5 3 == 0 && bits (numAt g 0 1) 2 2 != 3 && zeroAt g 1 3 && zeroAt g 28 4 &&
    bits (numAt g 20 8) 60 4 == 0 &&
    decide (x < 2 ^ 19) && decide (y < 2 ^ 19) && decide (1 ≤ w) && decide (1 ≤ h) && decide (x + w ≤ 524288) &&
    decide (y + h ≤ 524288)

/-- A Glade record with EN = 0 and every other bit 0, the empty value, is lawful too (R199, R392; log entry 24). -/
def gladeLawful (g : Bytes) : Bool := gladeOk g || leNat g == 0

/-- A Glade tile entry of 16 bytes (R199). -/
def gladeTileOk (t : Bytes) : Bool := zeroAt t 4 4 && numAt t 8 8 % 4096 == 0 && decide (numAt t 8 8 < lmTop)
where
  /-- 8 GiB. -/
  lmTop : Nat := 2 ^ 33

/-- Does a Glade rectangle hold a lamp (R199)? -/
def gladeHolds (g : Bytes) (x y : Nat) : Bool :=
  let gx := numAt g 4 4; let gy := numAt g 8 4
  decide (gx ≤ x) && decide (x < gx + numAt g 12 4) && decide (gy ≤ y) && decide (y < gy + numAt g 16 4)

/-- Does a Glade meet a tile (R202)? -/
def gladeMeets (g : Bytes) (p : Place) : Bool :=
  let gx := numAt g 4 4; let gy := numAt g 8 4
  decide (gx < p.x0 + p.u) && decide (p.x0 < gx + numAt g 12 4) && decide (gy < p.y0 + p.v) && decide (p.y0 < gy + numAt g 16 4)

end Sys2Proof.Machine
end

