-- ==== Sys2Proof/Machine/Stand.lean ====
section
/-! DEFINITION. Stands and overlays: the checks of STAND_LOAD and OVERLAY_LOAD, and the overlay store (R40 - R47, R58,
R109, R167, R178, R197, R199, R202, R213, R228, R229, R252). -/

namespace Sys2Proof.Machine

def stStandFormat : Nat := 0x101
def stStandInUse : Nat := 0x102
def stOverlayFormat : Nat := 0x103
def stOverlayInUse : Nat := 0x104

/-- Numerator and denominator of a frame's nominal length in CK_CORE cycles. -/
def frameNum (rate : Nat) : Nat := frameTicks rate * 103125
def frameDen : Nat := 576 * 64000

/-- Do two ranges share a byte? -/
def overlap (a n b m : Nat) : Bool := decide (a < b + m) && decide (b < a + n) && decide (0 < n) && decide (0 < m)

/-- No two ranges of a list overlap. -/
def disjoint (l : List (Nat × Nat)) : Bool :=
  match l with
  | [] => true
  | x :: r => r.all (fun y => !overlap x.1 x.2 y.1 y.2) && disjoint r

/-- A section of a list, by its type. -/
def sectOf (l : List Sect) (t : Nat) : Option Sect := l.find? (fun x => x.typ == t)

/-- Entry `i` of a section table (R41). -/
def parseSect (bs : Bytes) (i : Nat) : Sect :=
  { typ := numAt bs (16 * i) 1, patch := bit (numAt bs (16 * i + 1) 1) 0, off := numAt bs (16 * i + 4) 4,
    len := numAt bs (16 * i + 8) 4, items := numAt bs (16 * i + 12) 4 }

/-- Is a section type allowed in a role (R41)? -/
def sectAllowed (tile : Bool) (t : Nat) : Bool := t == 1 || t == 3 || (if tile then 4 ≤ t && t ≤ 8 else t == 2)

/-- The types a role requires (R41). -/
def sectNeeded (tile : Bool) : List Nat := if tile then [1, 3, 4, 5, 8] else [1, 2]

/-- A step-table entry (R43). -/
structure Entry where
  unit : Nat
  trig : Nat
  arg : Nat
  ofs : Nat
  sect : Nat
  pofs : Nat
  rsv : Bool
  deriving DecidableEq, Repr

/-- The entry in 16 bytes. -/
def Entry.parse (bs : Bytes) : Entry :=
  { unit := numAt bs 0 1, trig := bits (numAt bs 1 1) 0 4, arg := numAt bs 2 2, ofs := numAt bs 4 4, sect := numAt bs 8 1,
    pofs := numAt bs 12 4, rsv := bits (numAt bs 1 1) 4 4 == 0 && zeroAt bs 9 3 }

/-- Units of a role (R43). -/
def unitOk (tile : Bool) (u : Nat) : Bool :=
  u == 0 || u == 1 || u == 8 || u == 9 || (if tile then u == 2 || u == 3 || u == 5 || u == 6 || u == 7 else u == 4)

/-- Trigger and argument of an entry (R43); `m` is the refresh multiplier. -/
def trigOk (m : Nat) (e : Entry) : Bool :=
  match e.trig with
  | 0 => e.arg == 0
  | 1 => decide (e.arg < m) || e.arg == 0xFFFF
  | 2 => decide (e.arg ≤ 15)
  | 3 => e.arg == 0
  | 4 => decide (16 ≤ e.arg) && decide (e.arg ≤ 4096)
  | _ => false

/-- One entry of a step table by itself (R43). -/
def entryOk (tile : Bool) (rate m : Nat) (sects : List Sect) (last : Bool) (e : Entry) : Bool :=
  e.rsv && unitOk tile e.unit && (e.unit == 0) == last &&
    (if e.unit = 0 then e.trig == 0 && e.arg == 0 && e.ofs == 0 && e.sect == 0 && e.pofs == 0
     else
       trigOk m e && (e.trig != 0 || decide ((e.ofs + 4096) * frameDen < frameNum rate)) &&
         (if e.unit = 8 || e.unit = 9 then e.sect == 0 && e.pofs == 0
          else
            match sectOf sects e.sect with
            | none => false
            | some x => e.pofs % 16 == 0 && decide (e.pofs + 16 ≤ x.len)))

/-- A list of entries by index. -/
def enumerate (l : List Entry) : List (Nat × Entry) := (List.range l.length).zip l

/-- The only entry of a unit, with its index; none where there is none or more than one. -/
def onlyUnit (l : List Entry) (u : Nat) : Option (Nat × Entry) :=
  match (enumerate l).filter (fun x => x.2.unit == u) with
  | [x] => some x
  | _ => none

/-- How many entries a unit has. -/
def unitCount (l : List Entry) (u : Nat) : Nat := (l.filter (fun e => e.unit == u)).length

/-- The arrangement of a tile's step table (R178, R202, R213, R228, R229, R252). -/
def arranged (l : List Entry) (patterns : Bool) : Bool :=
  match onlyUnit l 1, onlyUnit l 2, onlyUnit l 3 with
  | some (i, a), some (j, b), some (_, c) =>
    a.trig == 0 && j == i + 1 && b.trig == 3 && b.ofs == 0 && c.trig == 1 && c.arg == 0xFFFF && c.ofs == 0 &&
      (unitCount l 6 == 0 || (match onlyUnit l 6 with
        | some (k, e) => decide (k < i) && e.trig == 0 && e.ofs == 0
        | none => false)) &&
      (unitCount l 7 == 0 || (match onlyUnit l 7 with
        | some (_, e) => e.trig == 4 && e.ofs == 0
        | none => false)) &&
      (!patterns || (match onlyUnit l 5 with
        | some (k, e) => decide (k < i) && e.trig == 0 && e.ofs == 0
        | none => false))
  | _, _, _ => false

/-- The parameter block of an entry: plan sets below ITEMS for UNIT 0x04, reserved otherwise (R43, R109). -/
def blockOk (plans : Nat) (u : Nat) (bs : Bytes) : Bool :=
  if u = 4 then decide (numAt bs 0 1 < plans) && zeroAt bs 1 15 else zeroAt bs 0 16

/-- One port block of a plan set (R109). -/
def planBlockOk (bs : Bytes) : Bool :=
  numAt bs 0 2 == 0 &&
    (List.range 1024).all (fun s => [0, 1, 3, 4, 6].contains (numAt bs (2 * s) 2)) &&
    (List.range 64).all (fun w => bits (numAt bs (2048 + 2 * w) 2) 13 3 == 0)

/-- The table-pointers section (R41). -/
def ptrSectOk (bs : Bytes) : Bool :=
  bs.length == 32 && [0, 8, 16].all (fun k => numAt bs k 8 % 4096 == 0 && decide (numAt bs k 8 < lmSize)) && zeroAt bs 24 8

/-- The Glade list section (R199). -/
def gladeSectOk (bs : Bytes) : Bool :=
  bs.length == 768 && (List.range 16).all (fun g => gladeOk ((bs.drop (32 * g)).take 32) &&
    gladeTileOk ((bs.drop (512 + 16 * g)).take 16))

/-- The pattern-programs section but for its scripts (R252). -/
def patSectOk (bs : Bytes) : Bool :=
  bs.length == 448 && zeroAt bs 4 60 && ((numAt bs 0 2 == 0xFFFF) == (numAt bs 2 2 == 0xFFFF)) &&
    (List.range 8).all (fun e => paramsOk ((bs.drop (64 + 48 * e)).take 32) && regionOk ((bs.drop (96 + 48 * e)).take 16))

/-- A map entry that names no emitter or word (R230). -/
def mapNone (e : Nat) : Bool := bit e 31

/-- The limit of a run in CK_SCAN cycles (R229 check 2). -/
def runLimit (rate m : Nat) : Nat := frameNum rate / (frameDen * 8 * m) - 64

/-- The Channel Map and the Return Map agree (R230): entries lawful, exact inverses, enabled groups, one band a block. -/
def mapsOk (h : Scripts) (p : Place) (enabled : Nat → Bool) (fwd ret : Nat → Nat) : Bool :=
  let n := p.lamps * p.emit
  let index := fun e : Nat => (bits e 0 7 * h.scan + bits e 7 6) * h.chmax + bits e 13 12
  let bandAt := fun k : Nat => p.bandOf (k / p.emit / p.u)
  (List.range n).all (fun k =>
    let e := fwd k
    if mapNone e then e == 2 ^ 31
    else bits e 25 6 == 0 && decide (bits e 7 6 < h.scan) && decide (bits e 13 12 < h.chmax) &&
      enabled (bits e 0 7 / 8) && ret (index e) == k) &&
  (List.range (128 * h.scan)).all (fun b =>
    let ks := ((List.range h.chmax).map (fun c => (b * h.chmax + c, ret (b * h.chmax + c)))).filter (fun x => x.2 != 2 ^ 31)
    ks.all (fun x => decide (x.2 < n) && (let e := fwd x.2; !mapNone e && index e == x.1) &&
      bandAt x.2 == bandAt ((ks.head?.getD (0, 0)).2)))

/-- The Frame Scripts section (R225, R229), and PH_ENTER and PH_EXIT (R252) where they are given. -/
def scriptsOk (get : Nat → Nat → Bytes) (len rate m : Nat) (p : Place) (ph : Option (Nat × Nat)) : Bool :=
  let hdr := get 0 192; let h := Scripts.parse hdr
  let prim := fun i : Nat => leNat (get (h.primOfs + 8 * i) 8)
  let gs := (List.range 16).map (Group.parse hdr)
  let on := gs.filter (·.en)
  let longest := fun (g : Group) (pc : Nat) (sub : Nat) => scriptLen prim g.div sub (h.prims - pc) pc 0 []
  decide (192 ≤ len) && decide (1 ≤ h.scan) && decide (h.scan ≤ 64) && decide (16 ≤ h.chmax) && decide (h.chmax ≤ 3072) &&
    h.chmax % 16 == 0 && decide (1 ≤ h.prims) && decide (h.prims ≤ 65536) && zeroAt hdr 20 44 &&
    h.primOfs % 64 == 0 && h.fwdOfs % 64 == 0 && h.retOfs % 64 == 0 &&
    (let areas := [(0, 192), (h.primOfs, 8 * h.prims), (h.fwdOfs, 4 * p.lamps * p.emit), (h.retOfs, 512 * h.scan * h.chmax)]
     areas.all (fun a => decide (a.1 + a.2 ≤ len)) && disjoint areas) &&
    gs.all (fun g => g.ok p.emit) && (List.range h.prims).all (fun i => primOk h.scan h.chmax (prim i)) &&
    on.all (fun g => decide (g.start < h.prims) && scriptRules g (scriptPrims prim (h.prims - g.start) g.start) &&
      [0, 1].all (fun sub => match longest g g.start sub with
        | some t => decide (t ≤ runLimit rate m)
        | none => false)) &&
    (match ph with
     | none => true
     | some (a, b) =>
       decide (a < h.prims) && decide (b < h.prims) &&
         on.all (fun g => (longest g a 0).isSome &&
           (match longest g b 0 with
            | some t => on.all (fun g2 => match longest g2 g2.start 0 with
              | some u => decide (t + u ≤ runLimit rate m)
              | none => false)
            | none => false))) &&
    mapsOk h p (fun g => (gs.getD g (Group.parse [] 0)).en) (fun k => leNat (get (h.fwdOfs + 4 * k) 4))
      (fun k => leNat (get (h.retOfs + 4 * k) 4))

/-- Bytes of a section of a Stand in Local Memory. -/
def State.sectRaw (s : State) (base : Nat) (x : Sect) (off len : Nat) : Bytes := s.lmRead (base + x.off + off) len

/-- The sections' own formats (R43, R109, R167, R197, R199, R225, R252). -/
def State.sectionsOk (s : State) (base rate m : Nat) (l : List Sect) : Bool :=
  let tile := s.isTile
  let raw := fun (x : Sect) => s.sectRaw base x 0 x.len
  let plans := match sectOf l 2 with
    | some x => x.items
    | none => 0
  let place := match sectOf l 4 with
    | some x => Place.parse (raw x)
    | none => Place.parse []
  let ph := match sectOf l 7 with
    | some x => if numAt (raw x) 0 2 = 0xFFFF then none else some (numAt (raw x) 0 2, numAt (raw x) 2 2)
    | none => none
  (match sectOf l 1 with
   | none => false
   | some x =>
     decide (1 ≤ x.items) && decide (x.items ≤ 4096) && x.len == 16 * x.items &&
       (let es := (List.range x.items).map (fun i => Entry.parse (s.sectRaw base x (16 * i) 16))
        (enumerate es).all (fun e => entryOk tile rate m l (e.1 + 1 == x.items) e.2 &&
          (e.2.unit == 0 || e.2.unit == 8 || e.2.unit == 9 || (match sectOf l e.2.sect with
            | some y => blockOk plans e.2.unit (s.sectRaw base y e.2.pofs 16)
            | none => false))) &&
          (!tile || arranged es (sectOf l 7).isSome))) &&
    (match sectOf l 2 with
     | none => true
     | some x => decide (1 ≤ x.items) && decide (x.items ≤ 8) && x.len == 8704 * x.items &&
         (List.range (4 * x.items)).all (fun k => planBlockOk (s.sectRaw base x (2176 * k) 2176))) &&
    (match sectOf l 3 with
     | none => true
     | some x => x.len == 34816 && x.items == 8) &&
    (match sectOf l 4 with
     | none => true
     | some x => x.items == 1 && Place.ok (raw x) (3 * frameNum rate / (2 * frameDen))) &&
    (match sectOf l 5 with
     | none => true
     | some x => x.items == 1 && scriptsOk (fun o n => s.sectRaw base x o n) x.len rate m place ph) &&
    (match sectOf l 6 with
     | none => true
     | some x => x.items == 16 && gladeSectOk (raw x)) &&
    (match sectOf l 7 with
     | none => true
     | some x => x.items == 8 && patSectOk (raw x)) &&
    (match sectOf l 8 with
     | none => true
     | some x => ptrSectOk (raw x))

/-- A Stand image at an address (R40 - R43): the Stand, where every check passes. -/
def State.readStand (s : State) (base : Nat) : Option Stand :=
  let h := s.lmRead base 64
  let n := numAt h 10 2; let total := numAt h 12 4; let so := numAt h 24 4; let mode := byteAt h 22
  let rate := bits mode.toNat 0 4; let mult := bits mode.toNat 4 2
  if numAt h 0 4 == 0x444E5453 && numAt h 4 2 == 1 && numAt h 6 2 == 64 && numAt h 8 2 == b2n s.isTile &&
      decide (1 ≤ n) && decide (n ≤ 16) && total % 64 == 0 && decide (128 ≤ total) && decide (total ≤ 268435456) &&
      numAt h 20 2 == 0x8128 && lawfulMode rate mult && bits mode.toNat 7 1 == 0 && zeroAt h 23 1 && so % 64 == 0 &&
      decide (64 ≤ so) && decide (so + 16 * n ≤ total) && zeroAt h 28 4 && zeroAt h 36 28 then
    if numAt h 32 4 = (crc32c (blank (s.lmRead base total) 32 4)).toNat then
      let t := s.lmRead (base + so) (16 * n)
      let l := (List.range n).map (parseSect t)
      if (List.range n).all (fun i => bits (numAt t (16 * i + 1) 1) 1 7 == 0 && zeroAt t (16 * i + 2) 2) &&
          l.all (fun x => sectAllowed s.isTile x.typ && x.off % 64 == 0 && decide (x.off + x.len ≤ total) &&
            (l.filter (fun y => y.typ == x.typ)).length == 1) &&
          (sectNeeded s.isTile).all (fun t => (sectOf l t).isSome) &&
          disjoint ((0, 64) :: (so, 16 * n) :: l.map (fun x => (x.off, x.len))) &&
          decide ((l.filter (·.patch)).foldl (fun a x => a + x.len) 0 ≤ 8388608) &&
          s.sectionsOk base rate (multOf mult) l then
        some { base := base, id := BitVec.ofNat 32 (numAt h 16 4), mode := mode, total := total, sects := l }
      else none
    else none
  else none

/-- The banks that hold a selection: active, shadow and, while there is one, retiring (R38). -/
def State.banks (s : State) : List Bank :=
  match s.stp.retiring with
  | some b => [s.stp.active, s.stp.shadow, b]
  | none => [s.stp.active, s.stp.shadow]

/-- A bank selects a Stand index. -/
def State.standInUse (s : State) (i : Nat) : Bool := s.banks.any (fun b => b.stand == some i)

/-- A bank names an overlay (R47). -/
def State.ovlInUse (s : State) (i : Nat) : Bool := s.banks.any (fun b => b.ovl.getLsbD i)

/-- An operand address by R58: aligned, and its range inside Local Memory and clear of the private region. -/
def addrOk (a align len : Nat) : Bool := a % align == 0 && lmOk a len

/-- A Stand is loaded or unloaded. -/
def State.setStand (s : State) (i : Nat) (x : Option Stand) : State :=
  { s with stp := { s.stp with stands := match x with
    | some x => Map.put s.stp.stands i x
    | none => Map.del s.stp.stands i } }

def standLoad (d : Desc) (s : State) : State :=
  let i := d.num 0 1; let a := d.num 8 8
  if !d.only [(0, 0, 8), (8, 0, 64)] || 7 < i then s.finish d 0x10 stFormat
  else if !addrOk a 4096 64 then s.finish d 0x10 stAddress
  else if s.standInUse i then s.finish d 0x10 stStandInUse
  else
    let total := numAt (s.lmRead a 64) 12 4
    if s.lmBadIn a 64 then s.lmUncorr.finish d 0x10 stEcc
    else if total ≤ 268435456 && !lmOk a total then s.finish d 0x10 stAddress
    else
      s.readsLm d 0x10 a (if total ≤ 268435456 then total else 64)
        (match s.readStand a with
         | none => (s.detect E.STP_STAND_REJECT).finish d 0x10 stStandFormat
         | some x => (s.setStand i (some x)).finish d 0x10 stOk)

/-- R40 - R43: STAND_LOAD. -/
def execStandLoad (d : Desc) (s : State) : Host.Outcome State Fault Refusal := onOp s d 0x10 .both (standLoad d)

def standUnload (d : Desc) (s : State) : State :=
  let i := d.num 0 1
  if !d.only [(0, 0, 8)] || 7 < i then s.finish d 0x11 stFormat
  else if s.standInUse i then s.finish d 0x11 stStandInUse
  else (s.setStand i none).finish d 0x11 stOk

/-- R58: STAND_UNLOAD. -/
def execStandUnload (d : Desc) (s : State) : Host.Outcome State Fault Refusal := onOp s d 0x11 .both (standUnload d)

/-- Overlay record `i` of an overlay's bytes (R45). -/
def parseRec (bs : Bytes) (i : Nat) : OvlRec :=
  let o := 16 + 16 * i
  { sect := numAt bs o 1, off := numAt bs (o + 4) 4, mask := BitVec.ofNat 32 (numAt bs (o + 8) 4),
    val := BitVec.ofNat 32 (numAt bs (o + 12) 4) }

/-- Check 2 of R45: the header. -/
def ovlHeadOk (h : Bytes) : Bool := numAt h 0 4 == 0x594C564F && decide (numAt h 4 2 ≤ 255) && zeroAt h 6 2

/-- Check 4 of R45: the CRC and each record by itself. -/
def ovlBodyOk (bs : Bytes) : Bool :=
  numAt bs 12 4 == (crc32c (blank bs 12 4)).toNat &&
    (List.range (numAt bs 4 2)).all (fun i =>
      let r := parseRec bs i
      zeroAt bs (16 + 16 * i + 1) 3 && r.off % 4 == 0 && r.val &&& ~~~ r.mask == 0)

/-- A record suits a Stand (R45 check 5). -/
def recSuits (x : Stand) (r : OvlRec) : Bool :=
  match sectOf x.sects r.sect with
  | some y => y.patch && decide (r.off < y.len)
  | none => false

/-- The overlay in its bytes. -/
def parseOvl (bs : Bytes) : Overlay :=
  { stand := BitVec.ofNat 32 (numAt bs 8 4), recs := (List.range (numAt bs 4 2)).map (parseRec bs) }

/-- Check 5 of R45: every loaded Stand of the overlay's STAND_ID suits each record. -/
def State.ovlSuits (s : State) (o : Overlay) : Bool :=
  s.stp.stands.all (fun x => x.2.id != o.stand || o.recs.all (recSuits x.2))

/-- The overlay at an address by checks 1 to 4 of R45: a status, or its bytes. -/
def State.readOvl (s : State) (a : Nat) : Nat × Bytes :=
  if !addrOk a 16 16 then (stAddress, [])
  else
    let h := s.lmRead a 16
    if s.lmBadIn a 16 then (stEcc, [])
    else if !ovlHeadOk h then (stOverlayFormat, [])
    else
      let n := 16 + 16 * numAt h 4 2
      if !lmOk a n then (stAddress, [])
      else
        let bs := s.lmRead a n
        if s.lmBadIn a n then (stEcc, [])
        else if ovlBodyOk bs then (stOk, bs) else (stOverlayFormat, [])

/-- The overlay store takes an overlay, or gives one up; the number is no longer marked failed (R58). -/
def State.setOvl (s : State) (i : Nat) (o : Option Overlay) : State :=
  { s with stp := { s.stp with
      ovls := match o with
        | some o => Map.put s.stp.ovls i o
        | none => Map.del s.stp.ovls i
      ovlFailed := s.stp.ovlFailed &&& ~~~ (BitVec.ofNat 64 (2 ^ i)) } }

/-- A broadcast load that fails (R58): the number is marked failed, and is empty but for OVERLAY_IN_USE. -/
def State.failOvl (s : State) (i : Nat) (inUse : Bool) : State :=
  let s := s.detect E.STP_OVERLAY_REJECT
  { s with stp := { s.stp with
      ovls := if inUse then s.stp.ovls else Map.del s.stp.ovls i
      ovlFailed := s.stp.ovlFailed ||| BitVec.ofNat 64 (2 ^ i) } }

/-- The wall's broadcast header (R106). -/
def bcastHeader (stream id : Nat) (content : Bytes) : Bytes :=
  leBytes 2 stream ++ leBytes 2 id ++ leBytes 4 content.length ++ leBytes 4 (crc32c content).toNat ++ List.replicate 20 0

/-- The 240-byte payloads of a byte stream, the last padded with 0 (R106). -/
def payloads (bs : Bytes) : List Bytes :=
  (List.range (ceilDiv bs.length 240)).map (fun k =>
    let p := (bs.drop (240 * k)).take 240
    p ++ List.replicate (240 - p.length) 0)

/-- A broadcast queue takes slots: layer-table, prepare and abort slots go ahead of firmware slots (R341). -/
def queueBcast (q new : List QBcast) (stream : Nat) : List QBcast :=
  if stream = 1 || stream = 2 || stream = 5 then
    q.takeWhile (fun x => x.stream != 4) ++ new ++ q.dropWhile (fun x => x.stream != 4)
  else q ++ new

/-- A head queues a broadcast on every Active port and keeps it for retransmission (R105, R106). -/
def State.broadcast (s : State) (stream bid : Nat) (bytes : Bytes) : State :=
  let ps := payloads bytes
  let qs := (List.range ps.length).map (fun k =>
    ({ since := s.core, stream := stream, bid := bid, bseq := k, total := ps.length, payload := ps.getD k [] } : QBcast))
  let s := (List.range 4).foldl (fun s k =>
    if s.portActive k then s.setPort k { s.port k with bc := queueBcast (s.port k).bc qs stream } else s) s
  { s with trail := { s.trail with sent := (stream, bid, ps) :: s.trail.sent.filter (fun x => x.1 != stream) } }

/-- A STREAM 3 or 4 broadcast takes the next BID (R106); its descriptor completes when its last slot has been sent, at once
where no port is Active. -/
def State.broadcastFor (s : State) (stream : Nat) (bytes : Bytes) (d : Desc) (op : Nat) : State :=
  let bid := (s.trail.bid + 1).toNat
  let s := { s with trail := { s.trail with bid := s.trail.bid + 1 } }
  let s := s.broadcast stream bid bytes
  if s.anyActive then { s with trail := { s.trail with sentDesc := s.trail.sentDesc ++ [(stream, bid, d)] } }
  else s.finish d op stOk (if stream = 4 then bid else 0)

/-- The content of a STREAM 3 broadcast (R106). -/
def ovlContent (i op : Nat) (o : Bytes) : Bytes := leBytes 1 i ++ leBytes 1 op ++ List.replicate 14 0 ++ o

/-- An OVERLAY_LOAD fails: a failed check sets OVERLAY_REJECT, an uncorrectable word completes with ECC (R45, R72, R296). -/
def State.rejectOvl (s : State) (d : Desc) (st : Nat) : State :=
  (if st = stEcc then s.lmUncorr else s.detect E.STP_OVERLAY_REJECT).finish d 0x12 st

def overlayLoad (d : Desc) (s : State) : State :=
  let i := d.num 0 1; let bc := d.flag 1 0; let a := d.num 8 8
  if !d.only [(0, 0, 8), (1, 0, 1), (8, 0, 64)] || 63 < i || (bc && s.isTile) then s.finish d 0x12 stFormat
  else if bc then
    let r := s.readOvl a
    if r.1 = stOk then
      let c := ovlContent i 0 r.2
      s.broadcastFor 3 (bcastHeader 3 0 c ++ c) d 0x12
    else s.rejectOvl d r.1
  else if s.ovlInUse i then (s.detect E.STP_OVERLAY_REJECT).finish d 0x12 stOverlayInUse
  else
    let r := s.readOvl a
    if r.1 != stOk then s.rejectOvl d r.1
    else if s.ovlSuits (parseOvl r.2) then (s.setOvl i (some (parseOvl r.2))).finish d 0x12 stOk
    else (s.detect E.STP_OVERLAY_REJECT).finish d 0x12 stOverlayFormat

/-- R45, R47, R58: OVERLAY_LOAD. -/
def execOverlayLoad (d : Desc) (s : State) : Host.Outcome State Fault Refusal := onOp s d 0x12 .both (overlayLoad d)

def overlayUnload (d : Desc) (s : State) : State :=
  let i := d.num 0 1; let bc := d.flag 1 0
  if !d.only [(0, 0, 8), (1, 0, 1)] || 63 < i || (bc && s.isTile) then s.finish d 0x13 stFormat
  else if bc then
    let c := ovlContent i 1 []
    s.broadcastFor 3 (bcastHeader 3 0 c ++ c) d 0x13
  else if s.ovlInUse i then (s.detect E.STP_OVERLAY_REJECT).finish d 0x13 stOverlayInUse
  else (s.setOvl i none).finish d 0x13 stOk

/-- R47, R58: OVERLAY_UNLOAD. -/
def execOverlayUnload (d : Desc) (s : State) : Host.Outcome State Fault Refusal := onOp s d 0x13 .both (overlayUnload d)

/-- A tile acts on the content of a STREAM 3 broadcast (R58, R106). -/
def State.bcastOverlay (s : State) (c : Bytes) : State :=
  let i := numAt c 0 1 % 64; let o := c.drop 16
  if numAt c 1 1 = 1 then
    if s.ovlInUse i then s.detect E.STP_OVERLAY_REJECT else s.setOvl i none
  else if s.ovlInUse i then s.failOvl i true
  else if ovlHeadOk o && o.length == 16 + 16 * numAt o 4 2 && ovlBodyOk o && s.ovlSuits (parseOvl o) then
    s.setOvl i (some (parseOvl o))
  else s.failOvl i false

end Sys2Proof.Machine
end

