-- ==== Sys2Proof/Machine/Bank.lean ====
section
/-! DEFINITION. The shadow bank: working images, the items and the opcodes that edit them (R37, R42, R46, R47, R50, R53,
R171, R183, R186, R198, R200, R216, R217, R253, R392). -/

namespace Sys2Proof.Machine

/-- A bank's Stand and one of its sections. -/
def State.bankSect (s : State) (b : Bank) (t : Nat) : Option (Stand × Sect) :=
  match b.stand with
  | none => none
  | some i =>
    match Map.find s.stp.stands i with
    | none => none
    | some x =>
      match sectOf x.sects t with
      | none => none
      | some y => some (x, y)

/-- A section of a bank as bytes without its zeros: from the working image where the section may be patched (R42). -/
def State.bankStore (s : State) (b : Bank) (t : Nat) : Option Store :=
  match s.bankSect b t with
  | none => none
  | some (x, y) =>
    match b.img.find? (fun z => z.typ == t) with
    | some z => some z.cells
    | none => some (Store.copy s.lm (x.base + y.off) y.len)

/-- Bytes of a bank's section. -/
def State.bankBytes (s : State) (b : Bank) (t off len : Nat) : Bytes :=
  match b.img.find? (fun z => z.typ == t) with
  | some z => Store.range z.cells off len
  | none =>
    match s.bankSect b t with
    | none => List.replicate len 0
    | some (x, y) => s.sectRaw x.base y off len

/-- The tile placement of a bank (R167). -/
def State.placeOf (s : State) (b : Bank) : Option Place :=
  match s.bankSect b 4 with
  | none => none
  | some _ => some (Place.parse (s.bankBytes b 4 0 96))

/-- Apply one overlay record (R46). -/
def patchRec (l : List ImgSect) (r : OvlRec) : List ImgSect :=
  l.map (fun z =>
    if z.typ = r.sect then
      let w := BitVec.ofNat 32 (leNat (Store.range z.cells r.off 4))
      { z with cells := Store.write z.cells r.off (leBytes 4 ((w &&& ~~~ r.mask) ||| r.val).toNat) }
    else z)

/-- The numbers of an overlay set, ascending. -/
def ovlList (set : BitVec 64) : List Nat := (List.range 64).filter (fun i => set.getLsbD i)

/-- The working image of a Stand and an overlay set (R46). -/
def State.image (s : State) (x : Stand) (set : BitVec 64) : List ImgSect :=
  let z := (x.sects.filter (·.patch)).map (fun y =>
    ({ typ := y.typ, len := y.len, items := y.items, cells := Store.copy s.lm (x.base + y.off) y.len } : ImgSect))
  (ovlList set).foldl (fun z i => match Map.find s.stp.ovls i with
    | some o => o.recs.foldl patchRec z
    | none => z) z

/-- The overlays of a set pass R47 for a Stand; a number marked failed does not (R58). -/
def State.ovlSetOk (s : State) (x : Stand) (set : BitVec 64) : Bool :=
  (ovlList set).all (fun i =>
    !s.stp.ovlFailed.getLsbD i &&
      (match Map.find s.stp.ovls i with
       | some o => o.stand == x.id && o.recs.all (recSuits x)
       | none => false))

/-- The items a section supplies, taken into a bank; none empties them (R392). -/
def takeSect (tile : Bool) (t : Nat) (v : Option Store) (b : Bank) : Bank :=
  let v := v.getD []
  if t = 3 then { b with layers := Store.copy v 0 34816 }
  else if !tile then b
  else if t = 8 then
    { b with ptrs := ⟨List.replicate 8 0 ++ Store.range v 0 24 ++ ((b.ptrs.all ++ List.replicate 40 0).drop 32).take 8, []⟩ }
  else if t = 6 then
    { b with glades := Store.copy v 0 512
             gladeT := (List.range 16).map (fun g => (512 * g + 511, Store.range v (512 + 16 * g) 16)) }
  else if t = 7 then
    { b with hold := Store.copy v 0 4, pats := Store.copy v 64 384 }
  else b

/-- PH_ENTER and PH_EXIT of a bank: none where its Stand names none (R252). -/
def State.panelHold (s : State) (b : Bank) : Option (Nat × Nat) :=
  match s.bankSect b 7 with
  | none => none
  | some _ => if leNat (Store.range b.hold 0 2) = 0xFFFF then none
              else some (leNat (Store.range b.hold 0 2), leNat (Store.range b.hold 2 2))

/-- Rebuild the working image of a bank for a Stand index and an overlay set (R46, R392). -/
def State.rebuild (s : State) (b : Bank) (i : Nat) (set : BitVec 64) : Bank :=
  let n := { b with stand := some i, ovl := set }
  match Map.find s.stp.stands i with
  | none => { n with img := [] }
  | some x =>
    let n := { n with img := s.image x set }
    [3, 6, 7, 8].foldl (fun n t =>
      let v := s.bankStore n t
      if b.stand != some i || v != s.bankStore b t then takeSect s.isTile t v n else n) n

/-- Set the shadow bank. -/
def State.setShadowBank (s : State) (b : Bank) : State := { s with stp := { s.stp with shadow := b } }

/-- A tile item of the shadow bank is written: ITEM, TILE and INDEX of its prepare record (R50). -/
def State.touch (s : State) (item tile index : Nat) : State :=
  let x := (item, tile, index)
  { s with stp := { s.stp with dirty := if s.stp.dirty.contains x then s.stp.dirty else x :: s.stp.dirty } }

/-- Per-tile records of an item are dropped: a later write for every tile covers them (R50). -/
def State.untouch (s : State) (item index : Nat) : State :=
  { s with stp := { s.stp with dirty := s.stp.dirty.filter (fun x => !(x.1 == item && x.2.2 == index)) } }

/-- A host edit of the shadow bank (R139). -/
def State.hostEdited (s : State) : State := { s with stp := { s.stp with hostEdit := true } }

/-- An item of this device alone is edited (R57). -/
def State.localEdit (s : State) : State := { s with stp := { s.stp with dirtyLocal := true } }

/-- STP.STATE shows the shadow selection (R59). -/
def State.showShadow (s : State) : State :=
  match s.stp.shadow.stand with
  | some i => (s.wr F.STP_STATE_SHADOW_STAND i).wr F.STP_STATE_SHADOW_NONE 0
  | none => (s.wr F.STP_STATE_SHADOW_STAND 0).wr F.STP_STATE_SHADOW_NONE 1

/-- A shadow edit: refused on a tile on a wall (R80), held while the bank is frozen (R53), or made. -/
def onEdit (d : Desc) (op : Nat) (f : State → State) (s : State) : State :=
  if s.roleLocked d then s.finish d op stRoleLocked else if s.frozen then s else f s

/-- The layer table changes where a rebuild changed it. -/
def State.afterRebuild (s : State) (old : Bank) : State :=
  let s := if s.stp.shadow.layers != old.layers then s.touch 3 511 0 else s
  s.hostEdited.showShadow

def shadowStand (d : Desc) (s : State) : State :=
  let i := d.num 0 1
  if !d.only [(0, 0, 8)] || 7 < i then s.finish d 0x14 stFormat
  else
    let old := s.stp.shadow
    let s := (s.setShadowBank (s.rebuild old i old.ovl)).touch 1 511 0
    (s.afterRebuild old).finish d 0x14 stOk

/-- R58, R392: SHADOW_STAND. -/
def execShadowStand (d : Desc) (s : State) : Host.Outcome State Fault Refusal :=
  onOp s d 0x14 .both (onEdit d 0x14 (shadowStand d))

def shadowOverlays (d : Desc) (s : State) : State :=
  if !d.only [(8, 0, 64)] then s.finish d 0x15 stFormat
  else
    let set := BitVec.ofNat 64 (d.num 8 8)
    let old := s.stp.shadow
    let b := match old.stand with
      | some i => s.rebuild old i set
      | none => { old with ovl := set }
    let s := (s.setShadowBank b).touch 2 511 0
    (s.afterRebuild old).finish d 0x15 stOk

/-- R58, R392: SHADOW_OVERLAYS. -/
def execShadowOverlays (d : Desc) (s : State) : Host.Outcome State Fault Refusal :=
  onOp s d 0x15 .both (onEdit d 0x15 (shadowOverlays d))

/-- Write bytes of the shadow layer table. -/
def State.writeLayers (s : State) (off : Nat) (bs : Bytes) : State :=
  ((s.setShadowBank { s.stp.shadow with layers := s.stp.shadow.layers.write off bs }).touch 3 511 0).hostEdited

def shadowLayer (d : Desc) (s : State) : State :=
  let i := d.num 0 1; let t := d.num 1 1; let a := d.num 16 8
  if t = 0 then
    if d.only [(0, 0, 8), (1, 0, 8), (16, 0, 256)] && decide (i ≤ 7) && layerOk (d.bytes 16 32) then
      (s.writeLayers (128 + 32 * i) (d.bytes 16 32)).finish d 0x16 stOk
    else s.finish d 0x16 stFormat
  else if t = 1 then
    if d.only [(0, 0, 8), (1, 0, 8), (16, 0, 64)] && decide (i ≤ 15) && fmtOk (d.bytes 16 8) then
      (s.writeLayers (8 * i) (d.bytes 16 8)).finish d 0x16 stOk
    else s.finish d 0x16 stFormat
  else if t = 2 then
    if d.only [(1, 0, 8), (16, 0, 128)] && orderHeadOk (d.bytes 16 16) then
      (s.writeLayers 384 (d.bytes 16 16)).finish d 0x16 stOk
    else s.finish d 0x16 stFormat
  else if t = 3 then
    let used := s.stp.shadow.layers.get 384 &&& 1 == 1 && decide (i < (s.stp.shadow.layers.get 385).toNat)
    if d.only [(0, 0, 8), (1, 0, 8), (16, 0, 256)] && decide (i ≤ 15) && regionReserved (d.bytes 16 32) &&
        (!used || regionUsed (d.bytes 16 32)) then
      (s.writeLayers (448 + 32 * i) (d.bytes 16 32)).finish d 0x16 stOk
    else s.finish d 0x16 stFormat
  else if t = 4 then
    if !(d.only [(0, 0, 8), (1, 0, 8), (16, 0, 64)] && decide (i ≤ 15)) then s.finish d 0x16 stFormat
    else if !addrOk a 64 64 then s.finish d 0x16 stAddress
    else
      s.readsLm d 0x16 a 64 (if convOk (s.lmRead a 64) then (s.writeLayers (960 + 64 * i) (s.lmRead a 64)).finish d 0x16 stOk
        else s.finish d 0x16 stFormat)
  else if t = 5 then
    if !(d.only [(0, 0, 8), (1, 0, 8), (16, 0, 64)] && decide (i ≤ 7)) then s.finish d 0x16 stFormat
    else if !addrOk a 4 4100 then s.finish d 0x16 stAddress
    else
      s.readsLm d 0x16 a 4100 (if lutOk (s.lmRead a 4100) then
          (s.writeLayers (1984 + 4100 * i) (s.lmRead a 4100)).finish d 0x16 stOk
        else s.finish d 0x16 stFormat)
  else s.finish d 0x16 stFormat

/-- R171, R198: SHADOW_LAYER. -/
def execShadowLayer (d : Desc) (s : State) : Host.Outcome State Fault Refusal :=
  onOp s d 0x16 .both (onEdit d 0x16 (shadowLayer d))

/-- The source record of a source (R129): KIND, SAMPLING, DEPTH, WIDTH, HEIGHT and line bytes. -/
def State.srcCfg (s : State) (k : Nat) : Bytes :=
  match Map.find s.net.sources k with
  | some x => x.cfg
  | none => List.replicate 12 0
def srcKind (c : Bytes) : Nat := numAt c 1 1
def srcFmt (c : Bytes) : Fmt := ⟨bits (numAt c 2 1) 0 4, bits (numAt c 2 1) 4 2, true, numAt c 4 2, numAt c 6 2⟩
def srcPass (c : Bytes) : Bool := bit (numAt c 3 1) 0

/-- A reference is held by a bank (R186). -/
def State.refHeld (s : State) (r : BufRef) : Bool :=
  s.banks.any (fun b => match Map.find b.bufs (64 + r.source) with
    | some o => numAt o 40 8 == r.id
    | none => false)

/-- A reference has ended: no bank holds it and no fetch reads its buffer (R186). -/
def State.ended (s : State) (r : BufRef) : Bool := !s.refHeld r && !s.cnp.fetching.any (fun f => f.2.2 == r.id)

/-- Open references (R186). -/
def State.openRefs (s : State) : List BufRef := s.cnp.refs.filter (fun r => !s.ended r)

/-- The PREVIEW_SET operands last written for a TARGET. -/
def State.pvwLatest (s : State) (t : Nat) : Option Bytes :=
  match Map.find s.net.pvwSet t with
  | some o => some o
  | none => Map.find s.net.pvw t

/-- At a frame start the PREVIEW_SETs since the last come into force (R145); a new confidence preview has no frame yet. -/
def State.settlePvw (s : State) : State :=
  let new := (Map.find s.net.pvwSet 0).isSome
  { s with net := { s.net with
      pvw := s.net.pvwSet.foldl (fun m x => Map.put m x.1 x.2) s.net.pvw
      pvwSet := []
      pvwDone := if new then none else s.net.pvwDone
      vtx := if new then none else s.net.vtx } }

/-- Bytes of an image with one entry per lamp or preview pixel that a descriptor names (R182, R183, R199): of a tile by its shadow
bank's placement, of a head by its preview; of another device's image, whose size is not known here, one entry (R61). -/
def State.imageLen (s : State) (other : Bool) : Nat :=
  if other then 8
  else if s.isTile then 8 * (match s.placeOf s.stp.shadow with
    | some p => p.lamps
    | none => 1)
  else 8 * (match s.pvwLatest 0 with
    | some o => numAt o 2 2 * numAt o 4 2
    | none => 1)

/-- An understory item in 16 bytes: MODE, and the value or the address (R50, R183). -/
def underItem (d : Desc) : Bytes := d.bytes 1 1 ++ List.replicate 7 0 ++ d.bytes 8 8

/-- Set a per-tile item for one tile, or for every tile (R50). -/
def PerTile.putFor (p : PerTile) (tile : Nat) (v : Bytes) : PerTile :=
  if tile = 511 then ⟨v, []⟩ else ⟨p.all, Map.put p.each tile v⟩

/-- A per-tile item's value for a tile. -/
def PerTile.valOf (p : PerTile) (tile : Nat) : Bytes := Map.getD p.each tile p.all

/-- Set a buffer item of the shadow bank. -/
def State.putBuf (s : State) (k : Nat) (v : Bytes) : State :=
  (s.setShadowBank { s.stp.shadow with bufs := Map.put s.stp.shadow.bufs k v }).hostEdited.localEdit

def shadowBuffer (d : Desc) (s : State) : State :=
  let kind := d.num 0 1; let k := d.num 1 1; let a := d.num 8 8
  let pitch := d.num 16 4
  let f := srcFmt (s.srcCfg k)
  if kind = 0 || kind = 1 then
    if s.isTile then s.finish d 0x17 stUnsupported
    else if kind = 0 then
      if !d.only [(0, 0, 8), (1, 0, 8), (8, 0, 64), (16, 0, 32), (20, 0, 32)] || 15 < k || srcKind (s.srcCfg k) != 1 ||
          pitch % 64 != 0 || pitch < f.lineBytes || d.num 20 4 % 4096 != 0 || d.num 20 4 < pitch * f.height then
        s.finish d 0x17 stFormat
      else if !addrOk a 4096 (2 * d.num 20 4 + pitch * f.height) then s.finish d 0x17 stAddress
      else (s.putBuf k (d.bytes 0 40)).finish d 0x17 stOk
    else
      let st := d.num 32 8
      if !d.only [(0, 0, 8), (1, 0, 8), (8, 0, 64), (16, 0, 32), (20, 0, 32), (24, 0, 32), (32, 0, 64)] || 15 < k ||
          srcKind (s.srcCfg k) != 2 || pitch % 64 != 0 || pitch < f.lineBytes then s.finish d 0x17 stFormat
      else if a % 4096 != 0 || !addrOk st 4096 (2 * (ceilDiv (pitch * f.height) 4096 * 4096)) then
        s.finish d 0x17 stAddress
      else if 64 ≤ s.openRefs.length then s.finish d 0x17 0x120
      else
        let s := s.putBuf (64 + k) (d.bytes 0 40 ++ leBytes 8 s.cnp.refNext)
        let r : BufRef := { id := s.cnp.refNext, source := k, addr := a, gen := d.num 20 4, rtag := d.num 24 4, lastF := 0 }
        { s with cnp := { s.cnp with refs := s.cnp.refs ++ [r], refNext := s.cnp.refNext + 1 } }.finish d 0x17 stOk
  else if kind = 2 then
    let wall := d.flag 3 7; let tile := d.bitsAt 2 0 9
    let bad := !d.only [(0, 0, 8), (1, 0, 8), (2, 0, 9), (3, 7, 1), (8, 0, 64)] || 1 < k ||
      (s.isTile && d.num 2 2 != 0) || (k == 0 && d.bitsAt 15 4 4 != 0)
    if bad then s.finish d 0x17 stFormat
    else if k == 1 && !addrOk a 4096 (s.imageLen wall) then s.finish d 0x17 stAddress
    else if s.isHead && !wall then (s.putBuf 128 (underItem d)).finish d 0x17 stOk
    else
      let t := if s.isTile then 511 else tile
      let s := s.setShadowBank { s.stp.shadow with under := s.stp.shadow.under.putFor t (underItem d) }
      let s := if t = 511 then s.untouch 4 0 else s
      ((s.touch 4 t 0).hostEdited).finish d 0x17 stOk
  else s.finish d 0x17 stFormat

/-- R183, R186: SHADOW_BUFFER; where WALL = 0 selects a head's own Understory, TILE says nothing (DEDUCED, log entry 182). -/
def execShadowBuffer (d : Desc) (s : State) : Host.Outcome State Fault Refusal :=
  onOp s d 0x17 .both (onEdit d 0x17 (shadowBuffer d))

/-- The pointers named by SEL replaced in a 40-byte pointer set (R217). -/
def putPtrs (old : Bytes) (sel : Nat) (d : Bytes) : Bytes :=
  let old := (old ++ List.replicate 40 0).take 40
  List.replicate 8 0 ++ (List.range 4).flatMap (fun k =>
    if bit sel k then (d.drop (8 + 8 * k)).take 8 else (old.drop (8 + 8 * k)).take 8)

/-- A base of SHADOW_TABLES is aligned and below 8 GiB. -/
def ptrOk (v : Nat) : Bool := v % 4096 == 0 && decide (v < lmSize)

/-- Write pointers into a per-tile item, for one tile or every tile (R50, R217). -/
def PerTile.putPtrs (p : PerTile) (tile sel : Nat) (v : Bytes) : PerTile :=
  if tile = 511 then ⟨Machine.putPtrs p.all sel v, p.each.map (fun x => (x.1, Machine.putPtrs x.2 sel v))⟩
  else ⟨p.all, Map.put p.each tile (Machine.putPtrs (p.valOf tile) sel v)⟩

/-- The tile a per-tile operand names, as the bank keys it: a tile keeps its own under 0x1FF. -/
def State.ownTile (s : State) (t : Nat) : Option Nat :=
  if s.isHead then some t
  else if t = 511 || (s.on F.GLB_TILE_ID_VALID && t == s.rd F.GLB_TILE_ID_ID) then some 511
  else none

def shadowTables (d : Desc) (s : State) : State :=
  let sel := d.bitsAt 0 0 4
  match s.ownTile (d.bitsAt 2 0 9) with
  | none => s.finish d 0x18 stFormat
  | some t =>
    if !d.only [(0, 0, 4), (2, 0, 9), (8, 0, 64), (16, 0, 64), (24, 0, 64), (32, 0, 64)] || sel = 0 then
      s.finish d 0x18 stFormat
    else if (List.range 4).any (fun k => bit sel k && !ptrOk (d.num (8 + 8 * k) 8)) then s.finish d 0x18 stAddress
    else
      let s := s.setShadowBank { s.stp.shadow with ptrs := s.stp.shadow.ptrs.putPtrs t sel (d.bytes 0 40) }
      let s := (List.range 4).foldl (fun s k =>
        if bit sel k then (if t = 511 then s.untouch 5 k else s).touch 5 t k else s) s
      s.hostEdited.finish d 0x18 stOk

/-- R217: SHADOW_TABLES. -/
def execShadowTables (d : Desc) (s : State) : Host.Outcome State Fault Refusal :=
  onOp s d 0x18 .both (onEdit d 0x18 (shadowTables d))

def shadowGlade (d : Desc) (s : State) : State :=
  let i := d.num 0 1; let t := d.num 1 1
  if t = 0 then
    if d.only [(0, 0, 8), (1, 0, 8), (16, 0, 256)] && decide (i ≤ 15) && gladeOk (d.bytes 16 32) then
      let s := s.setShadowBank { s.stp.shadow with glades := s.stp.shadow.glades.write (32 * i) (d.bytes 16 32) }
      ((s.touch 6 511 i).hostEdited).finish d 0x19 stOk
    else s.finish d 0x19 stFormat
  else if t = 1 then
    match s.ownTile (d.bitsAt 2 0 9) with
    | none => s.finish d 0x19 stFormat
    | some tile =>
      if d.only [(0, 0, 8), (1, 0, 8), (2, 0, 9), (16, 0, 128)] && decide (i ≤ 15) && gladeTileOk (d.bytes 16 16) then
        if d.num 24 8 != 0 && !lmOk (d.num 24 8) (s.imageLen s.isHead) then s.finish d 0x19 stAddress
        else
        let s := s.setShadowBank { s.stp.shadow with gladeT := Map.put s.stp.shadow.gladeT (512 * i + tile) (d.bytes 16 16) }
        ((s.touch 7 tile i).hostEdited).finish d 0x19 stOk
      else s.finish d 0x19 stFormat
  else s.finish d 0x19 stFormat

/-- R200: SHADOW_GLADE. -/
def execShadowGlade (d : Desc) (s : State) : Host.Outcome State Fault Refusal :=
  onOp s d 0x19 .both (onEdit d 0x19 (shadowGlade d))

/-- Write one parameter of a pattern engine of the shadow bank (R139, R253). -/
def State.putParam (s : State) (e j v : Nat) : State :=
  (s.setShadowBank { s.stp.shadow with pats := s.stp.shadow.pats.write (48 * e + 2 * j) (leBytes 2 v) }).touch 8 511 e

def shadowPattern (d : Desc) (s : State) : State :=
  let e := d.num 0 1; let t := d.num 1 1; let mask := d.num 2 2
  if t = 0 then
    if d.only [(0, 0, 8), (1, 0, 8), (2, 0, 16), (16, 0, 256)] && decide (e ≤ 7) && decide (mask < 256) &&
        paramsOk (d.bytes 16 32) then
      let s := (List.range 8).foldl (fun s j => if bit mask j then s.putParam e j (d.num (16 + 2 * j) 2) else s) s
      ((s.touch 8 511 e).hostEdited).finish d 0x1A stOk
    else s.finish d 0x1A stFormat
  else if t = 1 then
    if d.only [(0, 0, 8), (1, 0, 8), (16, 0, 128)] && decide (e ≤ 7) && regionOk (d.bytes 16 16) then
      let s := s.setShadowBank { s.stp.shadow with pats := s.stp.shadow.pats.write (48 * e + 32) (d.bytes 16 16) }
      ((s.touch 8 511 e).hostEdited).finish d 0x1A stOk
    else s.finish d 0x1A stFormat
  else s.finish d 0x1A stFormat

/-- R253: SHADOW_PATTERN. -/
def execShadowPattern (d : Desc) (s : State) : Host.Outcome State Fault Refusal :=
  onOp s d 0x1A .both (onEdit d 0x1A (shadowPattern d))

/-- Set M, and K, of the shadow bank (R139, R216). -/
def State.putM (s : State) (m : Nat) : State := (s.setShadowBank { s.stp.shadow with dimM := m }).touch 9 511 0
def State.putK (s : State) (k : Nat) : State := (s.setShadowBank { s.stp.shadow with dimK := k }).touch 9 511 0

def shadowDimmer (d : Desc) (s : State) : State :=
  let k := d.num 2 2; let set := d.bitsAt 4 0 2
  if !d.only [(0, 0, 16), (2, 0, 16), (4, 0, 2)] || k = 0 || set = 0 then s.finish d 0x1B stFormat
  else
    let s := if bit set 0 then s.putM (d.num 0 2) else s
    let s := if bit set 1 then s.putK k else s
    s.hostEdited.finish d 0x1B stOk

/-- R216: SHADOW_DIMMER. -/
def execShadowDimmer (d : Desc) (s : State) : Host.Outcome State Fault Refusal :=
  onOp s d 0x1B .both (onEdit d 0x1B (shadowDimmer d))

/-- The shadow bank takes a copy of the active bank; nothing is edited (R53). -/
def State.revertShadow (s : State) : State :=
  { s with stp := { s.stp with shadow := { s.stp.active with rws := [] }, dirty := [], dirtyLocal := false, hostEdit := false } }.showShadow

def shadowRevert (d : Desc) (s : State) : State :=
  if !d.only [] then s.finish d 0x1C stFormat else s.revertShadow.finish d 0x1C stOk

/-- R53: SHADOW_REVERT. -/
def execShadowRevert (d : Desc) (s : State) : Host.Outcome State Fault Refusal :=
  onOp s d 0x1C .both (onEdit d 0x1C (shadowRevert d))

end Sys2Proof.Machine
end

