-- ==== Sys2Proof/Machine/Validate.lean ====
section
/-! DEFINITION. Validation of a staged bank (R49, R171, R174 - R176, R195, R199, R202, R218, R230). -/

namespace Sys2Proof.Machine

/-- Check 1 of R174 on one enabled layer, with the additions of R195. -/
def layerCheck1 (t : Store) (i : Nat) : Bool :=
  let raw := t.range (128 + 32 * i) 32; let l := Layer.parse raw; let f := tblFmt t l.source
  let cb := convBlock t l.conv; let k := tblLayer t l.key
  layerReserved raw && layerRanges raw && f.valid && fmtOk (t.range (8 * l.source) 8) &&
    decide (l.srcX + l.srcW ≤ f.width) && decide (l.srcY + l.srcH ≤ f.height) && (f.sampling != 0 || l.srcW % 2 == 0) &&
    (!l.keyed || (l.key != i && k.en && k.blend == 2)) && !(l.blend == 2 && l.keyed) &&
    (l.blend != 2 || !bit (numAt cb 0 1) 1) && convOk cb &&
    [1, 2, 3].all (fun c => lutOk (t.range (1984 + 4100 * bits (numAt cb c 1) 0 3) 4100))

/-- The rest of check 1: what no enabled layer uses, the order header and the Order regions (R171, R195, R197). -/
def tableCheck1 (t : Store) : Bool :=
  let n := (t.get 385).toNat
  (List.range 8).all (fun i => layerReserved (t.range (128 + 32 * i) 32)) &&
    (List.range 16).all (fun k => fmtOk (t.range (8 * k) 8)) && orderHeadOk (t.range 384 16) &&
    leNat (t.range 400 48) == 0 && leNat (t.range 34784 32) == 0 &&
    (List.range 16).all (fun k => regionReserved (t.range (448 + 32 * k) 32)) &&
    (!(t.get 384).getLsbD 0 || (List.range n).all (fun k => regionUsed (t.range (448 + 32 * k) 32)))

/-- Enabled layers of a layer table. -/
def enabledLayers (t : Store) : List Nat := (List.range 8).filter (fun i => (tblLayer t i).en)

/-- The Interest entries of a layer table on a tile, L0 to L7 (R175). -/
def tableInterest (t : Store) (p : Place) : List (Option Interest) :=
  (List.range 8).map (fun i =>
    let l := tblLayer t i
    if l.en && (tblFmt t l.source).valid then interestOf p l (tblFmt t l.source) 0 p.v else none)

/-- The entries that are valid. -/
def validOnes (l : List (Option Interest)) : List Interest := l.filterMap id

/-- Geometry of a layer table (R174): the NAK reason and the failing layer; reason 0 where every check passes.  `active` are
the entries the active bank needs, `room` the bytes of the source store, 0 where it may not lie where it is. -/
def geometry (t : Store) (p : Place) (active : List Interest) (room : Nat) : Nat × Nat :=
  let ls := enabledLayers t
  match ls.find? (fun i => !layerCheck1 t i) with
  | some i => (4, i)
  | none =>
    if !tableCheck1 t then (4, 0)
    else
      let on := ls.filter (fun i => (tblLayer t i).meets p)
      match on.find? (fun i => let l := tblLayer t i; !(l.ax.scaleOk && l.ay.scaleOk)) with
      | some i => (7, i)
      | none =>
        match on.find? (fun i => let l := tblLayer t i; decide (8192 < spanOf p l (tblFmt t l.source))) with
        | some i => (1, i)
        | none =>
          if room < storeNeed (active ++ validOnes (tableInterest t p)) then (4, on.headD 0) else (0, 0)

/-- A value of a bank's RWS field: its shadow value, or the one in force (R385). -/
def State.bankRws (s : State) (b : Bank) (f : Fld) : Nat := Map.getD b.rws f.key (s.rd f)

/-- The source store of a bank: base and bytes (R176). -/
def State.storeOf (s : State) (b : Bank) : Nat × Nat :=
  ((s.bankRws b F.CNP_STORE_BASE_LO + 2 ^ 32 * s.bankRws b F.CNP_STORE_BASE_HI) / 4096 * 4096,
   s.bankRws b F.CNP_STORE_SIZE * 2 ^ 20)

/-- Bytes of the source store that check 4 may count: none where the store would lie over the private region or leave Local
Memory (R61, R174). -/
def State.roomOf (s : State) (b : Bank) : Nat :=
  let r := s.storeOf b
  if lmOk r.1 r.2 then r.2 else 0

/-- The entries of the active bank (R175). -/
def State.activeInterest (s : State) : List (Option Interest) :=
  match s.placeOf s.stp.active with
  | some p => tableInterest s.stp.active.layers p
  | none => []

/-- The pointers of a tile's bank: Lamp, Emitter, Status Map and Driver Current bases (R217). -/
def Bank.ptr (b : Bank) (k : Nat) : Nat := numAt b.ptrs.all (8 + 8 * k) 8

/-- Extents of the tables a bank names, with a placement (R218, R239). -/
def tableRanges (b : Bank) (p : Place) : List (Nat × Nat) :=
  let n := p.lamps
  [(b.ptr 0, 20 * n), (b.ptr 1, 4 * n * p.emit), (b.ptr 2, ceilDiv (ceilDiv (n * p.emit) 4) 64 * 64)] ++
    (if b.ptr 3 = 0 then [] else [(b.ptr 3, 32768)])

/-- The Frame Scripts header of a bank (R225). -/
def State.scriptsOf (s : State) (b : Bank) : Scripts := Scripts.parse (s.bankBytes b 5 0 192)

/-- Bytes of one frame buffer half (R230). -/
def Scripts.half (h : Scripts) : Nat := ceilDiv (256 * h.scan * h.chmax) 4096 * 4096

/-- The frame buffer's base in a bank (R230). -/
def State.fbBase (s : State) (b : Bank) : Nat :=
  (s.bankRws b F.BRN_FB_BASE_LO + 2 ^ 32 * s.bankRws b F.BRN_FB_BASE_HI) / 4096 * 4096

/-- Stands that a bank or the staged bank selects, as ranges. -/
def State.standRanges (s : State) (b : Bank) : List (Nat × Nat) :=
  (s.stp.stands.filter (fun x => s.standInUse x.1 || b.stand == some x.1)).map (fun x => (x.2.base, x.2.total))

/-- The regions that tables and the frame buffer keep clear of (R218). -/
def State.keepOut (s : State) (b : Bank) : List (Nat × Nat) :=
  s.standRanges b ++ [s.storeOf b, (s.twin, 131072), (0x1E0000000, 0x10000000)]

/-- Table pointers and frame buffer of a staged bank (R218, R230). -/
def State.pointersOk (s : State) (b : Bank) (p : Place) : Bool :=
  let ts := tableRanges b p; let fb := (s.fbBase b, 2 * (s.scriptsOf b).half)
  let out := s.keepOut b
  ts.all (fun r => r.1 % 4096 == 0 && decide (r.1 + r.2 ≤ lmSize)) && decide (fb.1 + fb.2 ≤ lmSize) && disjoint (fb :: ts) &&
    (fb :: ts).all (fun r => out.all (fun o => !overlap r.1 r.2 o.1 o.2))

/-- Glade record and tile entry of a bank on this tile (R199). -/
def Bank.glade (b : Bank) (g : Nat) : Bytes := b.glades.range (32 * g) 32
def Bank.gladeTile (b : Bank) (g : Nat) : Bytes := Map.getD b.gladeT (512 * g + 511) (List.replicate 16 0)
def gladeEn (g : Bytes) : Bool := bit (numAt g 0 1) 0

/-- The step table of a bank (R43). -/
def State.entriesOf (s : State) (b : Bank) : List Entry :=
  match s.bankSect b 1 with
  | none => []
  | some (_, y) => (List.range y.items).map (fun i => Entry.parse (s.bankBytes b 1 (16 * i) 16))

/-- A Glade's image, where it has one, keeps to the Local Memory that the host may lay out (R61, R199). -/
def imageClear (a : Nat) (p : Place) : Bool := a == 0 || lmOk a (8 * p.lamps)

/-- The other items of a staged bank hold no reserved or out-of-range value (R49 check 7). -/
def State.itemsOk (s : State) (b : Bank) (p : Place) : Bool :=
  (List.range 16).all (fun g => gladeLawful (b.glade g) && gladeTileOk (b.gladeTile g) && imageClear (numAt (b.gladeTile g) 8 8) p) &&
    (unitCount (s.entriesOf b) 6 != 0 || (List.range 16).all (fun g => !(gladeEn (b.glade g) && gladeMeets (b.glade g) p))) &&
    (List.range 8).all (fun e =>
      let x := engine b.pats e
      paramsOk x && (regionOk (x.drop 32) || (!patOn x && leNat (x.drop 32) == 0))) &&
    b.dimK != 0 &&
    (let u := b.under.all; decide (numAt u 0 1 ≤ 1) && zeroAt u 1 7 &&
      (if numAt u 0 1 = 0 then bits (numAt u 8 8) 60 4 == 0 else ptrOk (numAt u 8 8) && lmOk (numAt u 8 8) (8 * p.lamps)))

/-- What validation answers: a NAK reason, 0 for an ACK (R49), and whether the source store was too small. -/
structure Verdict where
  reason : Nat
  full : Bool
  deriving DecidableEq, Repr

/-- Validation of a tile's staged bank (R49), after the checks of the prepare list: the Stand, its overlays, its MODE against
the shadow CLK.FRM_CFG, an uncorrectable word of the Stand, geometry, items and pointers, in this order. -/
def State.validate (s : State) (b : Bank) (mode : Nat) : Verdict :=
  match b.stand.bind (Map.find s.stp.stands) with
  | none => ⟨2, false⟩
  | some x =>
    if !s.ovlSetOk x b.ovl then ⟨3, false⟩
    else if x.mode.toNat != mode then ⟨5, false⟩
    else if s.lmBadIn x.base x.total then ⟨8, false⟩
    else
      match s.placeOf b with
      | none => ⟨4, false⟩
      | some p =>
        let act := validOnes s.activeInterest
        let g := geometry b.layers p act (s.roomOf b)
        if g.1 != 0 then
          ⟨g.1, g.1 == 4 && (geometry b.layers p act (2 ^ 64)).1 == 0⟩
        else if !s.itemsOk b p then ⟨4, false⟩
        else if !s.pointersOk b p then ⟨6, false⟩
        else ⟨0, false⟩

/-- A head's judgement of its own part (R49 phase 1). -/
def State.judgeOwn (s : State) (b : Bank) (mode : Nat) : Nat :=
  match b.stand.bind (Map.find s.stp.stands) with
  | none => 2
  | some x =>
    if !s.ovlSetOk x b.ovl then 3
    else if x.mode.toNat != mode then 5
    else if (enabledLayers b.layers).all (layerCheck1 b.layers) && tableCheck1 b.layers &&
        (List.range 16).all (fun g => gladeLawful (b.glade g)) then 0
    else 4

/-- GLB.INTEREST shows the entries of the active bank and of a staged commit, and CNP.STORE_USED the KiB they need (R111,
R175, R176). -/
def State.showInterest (s : State) : State :=
  let staged := match s.stp.staged with
    | some t => (match s.placeOf t.bank with
      | some p => tableInterest t.bank.layers p
      | none => [])
    | none => []
  let s := s.wr F.CNP_STORE_USED (ceilDiv (storeNeed (validOnes (s.activeInterest ++ staged))) 1024)
  (List.range 8).foldl (fun s i =>
    let put := fun (s : State) (e : Nat) (v : Option Interest) =>
      (List.range 4).foldl (fun s w => s.wr (F.GLB_INTEREST (4 * e + w)) (numAt (Interest.bytes v) (4 * w) 4)) s
    put (put s i (s.activeInterest.getD i none)) (8 + i) (staged.getD i none)) s

/-- The entries GLB.INTEREST shows. -/
def State.interest (s : State) : List Interest :=
  (List.range 16).filterMap (fun e =>
    let w := fun k => s.rd (F.GLB_INTEREST (4 * e + k))
    if bit (w 0) 0 then
      some ⟨bits (w 0) 8 4, bits (w 0) 16 13, bits (w 1) 0 13, bits (w 1) 16 8, bits (w 1) 24 8⟩
    else none)

def geometryCheck (d : Desc) (s : State) : State :=
  let a := d.num 8 8
  if !d.only [(8, 0, 64)] then s.finish d 0x60 stFormat
  else if !lmOk a 384 then s.finish d 0x60 stAddress
  else
    match s.placeOf s.stp.active with
    | none => s.readsLm d 0x60 a 384 (s.finish d 0x60 stOk 2)
    | some p =>
      let t := s.stp.active.layers.write 0 (s.lmRead a 384)
      let act := validOnes s.activeInterest
      let g := geometry t p act (s.roomOf s.stp.active)
      let need := storeNeed (act ++ validOnes (tableInterest t p))
      s.readsLm d 0x60 a 384 (s.finish d 0x60 stOk (g.1 + 256 * g.2 + 2 ^ 32 * ceilDiv need 1024))

/-- GEOMETRY_CHECK (R174): judges an image and stages nothing. -/
def execGeometryCheck (d : Desc) (s : State) : Host.Outcome State Fault Refusal :=
  onOp s d 0x60 .tile (geometryCheck d)

end Sys2Proof.Machine
end

