-- ==== Sys2Proof/Machine/Commit.lean ====
section
/-! DEFINITION. Commits: COMMIT and its phases on a head and a tile, cancelling, exclusion, applying and retiring a bank
(R37, R38, R48 - R58, R106, R283). -/

namespace Sys2Proof.Machine

def stAbortNak : Nat := 0x110
def stAbortTimeout : Nat := 0x111
def stAbortCancel : Nat := 0x112
def stAbortFailover : Nat := 0x113
def stTooLate : Nat := 0x114
def stCommitRange : Nat := 0x115

/-- The RWS fields (R385). -/
def rwsFields : List Fld :=
  [F.CLK_FRM_CFG_RATE, F.CLK_FRM_CFG_MULT, F.CLK_FRM_CFG_ROLL, F.CNP_STORE_BASE_LO, F.CNP_STORE_BASE_HI, F.CNP_STORE_SIZE,
   F.LCR_CUR_DEF, F.BRN_FB_BASE_LO, F.BRN_FB_BASE_HI, F.BRN_CEN_CFG_THRESH, F.BRN_CEN_CFG_CODE]

/-- A bank's RWS values come into force (R37, R385). -/
def State.applyRws (s : State) (b : Bank) : State :=
  rwsFields.foldl (fun s f => match Map.find b.rws f.key with
    | some v => s.wr f v
    | none => s) s

/-- The registers that show the active bank (R59, R222). -/
def State.showActive (s : State) : State :=
  let b := s.stp.active
  let s := match b.stand with
    | some i => (s.wr F.STP_STATE_ACTIVE_STAND i).wr F.STP_STATE_ACTIVE_NONE 0
    | none => (s.wr F.STP_STATE_ACTIVE_STAND 0).wr F.STP_STATE_ACTIVE_NONE 1
  let s := s.pairWr F.STP_OVL_LO F.STP_OVL_HI b.ovl.toNat
  if s.isTile then
    let s := (s.wr F.LCR_DIM_M b.dimM).wr F.LCR_DIM_K b.dimK
    let s := (s.pairWr F.LCR_LAMP_BASE_LO F.LCR_LAMP_BASE_HI (b.ptr 0)).pairWr F.LCR_EMIT_BASE_LO F.LCR_EMIT_BASE_HI (b.ptr 1)
    ((s.pairWr F.LCR_LSM_BASE_LO F.LCR_LSM_BASE_HI (b.ptr 2)).pairWr F.LCR_DCT_BASE_LO F.LCR_DCT_BASE_HI (b.ptr 3)).showInterest
  else s

/-- Source store lines that neither the active bank nor a staged one needs are freed (R176). -/
def State.freeLines (s : State) : State :=
  let staged := match s.stp.staged with
    | some t => (match s.placeOf t.bank with
      | some p => tableInterest t.bank.layers p
      | none => [])
    | none => []
  let es := validOnes (s.activeInterest ++ staged)
  { s with cnp := { s.cnp with lines := s.cnp.lines.filter (fun x =>
      match envelope es (x.1 / 8192) with
      | some e => decide (e.l0 ≤ x.1 % 8192) && decide (x.1 % 8192 ≤ e.l1)
      | none => false) } }

/-- The retiring bank becomes the new shadow bank, a copy of the active one (R38, R176). -/
def State.finishRetire (s : State) : State :=
  let s := { s with stp := { s.stp with shadow := { s.stp.active with rws := [] }, retiring := none } }.freeLines
  let s := (s.wr F.STP_STATE_RETIRING 0).wr F.STP_STATE_FROZEN (b2n s.stp.staged.isSome)
  s.showShadow

/-- Work tagged with earlier frames still reads the outgoing bank (R38): passes on a tile, the preview pass on a head. -/
def State.readsOld (s : State) (old : Bank) : Bool :=
  old.stand.isSome && (if s.isTile then !s.cnp.passes.isEmpty else s.cnp.preview.isSome)

/-- The RWS values in force that a pass keeps reading after a commit (R37, R213). -/
def State.keptRws (s : State) : Map Nat :=
  [F.BRN_FB_BASE_LO, F.BRN_FB_BASE_HI].foldl (fun m f => Map.put m f.key (s.rd f)) []

/-- Glades whose latch a change of the bank ends (R204). -/
def latchesKept (latched : Nat) (a b : Bank) : Nat :=
  (List.range 16).foldl (fun m g => if a.glade g = b.glade g && a.gladeTile g = b.gladeTile g then m else clrBit m g) latched

/-- Apply a bank at the start of frame `n` (R37, R38): every item at once. -/
def State.applyBank (s : State) (b : Bank) (id : Nat) (n : Word) : State :=
  let old := { s.stp.active with rws := s.keptRws }
  let s := s.applyRws b
  let b := { b with rws := [] }
  let ps := s.cnp.passes.map (fun p => { p with old := true, latched := if p.old then p.latched else s.cnp.latched })
  let s := { s with
    cnp := { s.cnp with passes := ps, latched := latchesKept s.cnp.latched old b }
    net := { s.net with sacnDirty := false }
    trail := { s.trail with planNext := if s.isHead && old.stand != b.stand then 0 else s.trail.planNext }
    stp := { s.stp with active := b, dirty := [], dirtyLocal := false, hostEdit := false, staged := none } }
  let s := (s.wr F.STP_STATE_COMMIT_ID id).wr F.STP_LAST_F n.toNat
  let s := if s.readsOld old then
      let s := { s with stp := { s.stp with retiring := some old } }
      (s.wr F.STP_STATE_RETIRING 1).wr F.STP_STATE_FROZEN 1
    else s.finishRetire
  s.showActive

/-- Work in progress reads the retiring bank (R38). -/
def State.oldWork (s : State) : Bool :=
  if s.isTile then s.cnp.passes.any (·.old) else s.cnp.preview.isSome

/-- The last work that reads the retiring bank has finished (R38). -/
def State.retireIfDone (s : State) : State :=
  if s.stp.retiring.isSome && !s.oldWork then s.finishRetire else s

/-- R38: BANK_RETIRE. -/
def execBankRetire (s : State) : Host.Outcome State Fault Refusal := onRun s State.retireIfDone

/-- The Commit Lead a tile counts by (R55): with the D_ring_max its preferred feeder announces, if it has one. -/
def State.tileLead (s : State) : Nat :=
  match s.pref with
  | some k => s.leadFor (numAt (s.port k).feed.fields 24 3)
  | none => s.leadFor 0

/-- A frame whose start lies `lead` cycles or less ahead has had its Cutoff (R48, R55): then the next one. -/
def State.beforeCutoff (s : State) (start lead : Nat) (n : Word) : Word := if s.core + lead < start then n else n + 1

/-- The first frame whose Cutoff lies ahead (R48, R55): by the frame start that is fixed, by the latch a tile has scheduled, or by
where a tile without announced starts lays its next frame down (R31). -/
def State.firstFrame (s : State) : Word :=
  if s.isHead || (s.schedules && !s.on F.PAT_SA_CFG_FSYNC) then
    match s.frames.fixed with
    | some f => s.beforeCutoff f.cycle f.lead f.num
    | none => s.nextStart.2
  else
    match s.frames.latch with
    | some (c, n) => s.beforeCutoff c s.tileLead n
    | none =>
      let c := if s.schedules then ticksToCycles (frameTicks s.rate) else s.frames.len
      if s.frames.begun then s.beforeCutoff (s.frames.start + c) s.tileLead (s.frameNow + 1) else s.frameNow + 1

/-- The frame a commit that is decidable now takes (R48, R56). -/
def State.frameFor (s : State) (c : Commit) : Word :=
  let f := s.firstFrame
  if c.asap || !later32 c.target.toNat f.toNat then f else c.target

/-- The NAK list as it is written: entries of tile and reason, at most NAK_MAX (R57). -/
def State.writeNaks (s : State) (c : Commit) (naks : List (Nat × Nat)) : Nat × State :=
  if c.nakAddr = 0 then (0, s)
  else
    let l := naks.take c.nakMax
    if l.isEmpty then (0, s) else
      (l.length, s.returnTo c.desc c.nakAddr (l.flatMap (fun x => leBytes 4 (x.1 + 65536 * x.2))))

/-- A commit completes (R57, R139, R140): to its descriptor, to nothing, or for a cue to the event queue. -/
def State.endCommit (s : State) (c : Commit) (status : Nat) (frame : Word) (naks : List (Nat × Nat)) : State :=
  let r := s.writeNaks c naks
  let s := { r.2 with stp := { r.2.stp with commits := r.2.stp.commits.erase c } }
  match c.src with
  | .sacn => s
  | .cue v =>
    let e := cplBytes 0 (BitVec.ofNat 32 s.ns) frame (BitVec.ofNat 64 v) 0 0 0x20 true none status false
    if s.on F.HQS_EVT_CQ_EN && (s.cq (s.rd F.HQS_EVT_CQ_CQ)).isSome then
      { s with hq := { s.hq with events := s.hq.events ++ [(s.rd F.HQS_EVT_CQ_CQ, e)] } }
    else s
  | _ => s.finishAs c.desc 0x20 status (BitVec.ofNat 64 r.1) frame none

def commit (d : Desc) (s : State) : State :=
  let asap := d.flag 4 0; let loc := d.flag 4 1; let target := d.num 0 4
  if !d.only [(0, 0, 32), (4, 0, 2), (8, 0, 64), (16, 0, 16)] || 512 < d.num 16 2 then s.finish d 0x20 stFormat
  else if d.num 8 8 % 8 != 0 || (d.num 8 8 != 0 && mbxRefuses d (d.num 8 8) (4 * d.num 16 2)) then s.finish d 0x20 stAddress
  else if s.roleLocked d then s.finish d 0x20 stRoleLocked
  else if !asap && later32 target s.frameNow.toNat && 4096 < diff32 target s.frameNow.toNat then s.finish d 0x20 stCommitRange
  else
    let c : Commit :=
      { src := if d.mbx then .mailbox else .host, desc := d, asap := asap, loc := loc, target := BitVec.ofNat 32 target
        nakAddr := d.num 8 8, nakMax := d.num 16 2, id := 0, phase := 0, sentAt := 0, required := [], acks := [], naks := [], postp := 0,
        frame := 0 }
    { (s.starts d) with stp := { s.stp with commits := s.stp.commits ++ [c] } }

/-- A commit whose turn has come is local (R48, R56, R57): on a tile, by LOCAL, or where only items of a head itself change. -/
def State.isLocal (s : State) (c : Commit) : Bool :=
  s.isTile || c.loc || (s.stp.dirtyLocal && s.stp.dirty.isEmpty)

/-- R49, R57: COMMIT takes its place in the order of fetches; what it changes is judged when its turn comes (R56). -/
def execCommit (d : Desc) (s : State) : Host.Outcome State Fault Refusal := onOp s d 0x20 .both (commit d)

/-- Replace the commit being worked on. -/
def State.setCommit (s : State) (c : Commit) : State :=
  { s with stp := { s.stp with commits := match s.stp.commits with
    | [] => []
    | _ :: r => c :: r } }

/-- A record of the prepare list (R50). -/
def prepRec (item tile index : Nat) (body : Bytes) : Bytes :=
  leBytes 1 item ++ [0] ++ leBytes 2 tile ++ leBytes 2 index ++ leBytes 2 body.length ++ body

/-- The body of a tile item from the head's shadow bank (R50). -/
def itemBody (b : Bank) (item tile index : Nat) : Bytes :=
  match item with
  | 1 => leBytes 8 (b.stand.getD 0)
  | 2 => leBytes 8 b.ovl.toNat
  | 4 => (b.under.valOf tile ++ List.replicate 16 0).take 16
  | 5 => leBytes 2 index ++ leBytes 2 tile ++ [0, 0, 0, 0] ++ ((b.ptrs.valOf tile ++ List.replicate 40 0).drop 8).take 32
  | 6 => b.glade index
  | 7 => Map.getD b.gladeT (512 * index + tile) (List.replicate 16 0)
  | 8 => engine b.pats index
  | 9 => leBytes 2 b.dimM ++ leBytes 2 b.dimK ++ [0, 0, 0, 0]
  | _ => []

/-- The pointers of a tile that a commit changes, as SEL bits. -/
def selOf (dirty : List (Nat × Nat × Nat)) (tile : Nat) : Nat :=
  dirty.foldl (fun m x => if x.1 = 5 && x.2.1 = tile then setBit m x.2.2 else m) 0

/-- The changed tile items in list order: by item, every tile before single tiles, tile, index (R50). -/
def dirtyOrder (dirty : List (Nat × Nat × Nat)) : List (Nat × Nat × Nat) :=
  (dirty.foldl (fun (m : Map (Nat × Nat × Nat)) x =>
    if x.1 = 10 then m
    else
      let i := if x.1 = 5 then 0 else x.2.2
      let t := if x.2.1 = 511 && x.1 != 7 then 0 else x.2.1 + 1
      Map.put m (x.1 * 2 ^ 24 + t * 2 ^ 12 + i) (x.1, x.2.1, i)) []).map (·.2)

/-- The prepare list (R50). -/
def State.prepList (s : State) : Bytes :=
  let b := s.stp.shadow
  prepRec 10 511 0 (leBytes 8 s.shadowMode) ++
    (dirtyOrder s.stp.dirty).flatMap (fun x =>
      let index := if x.1 = 5 then selOf s.stp.dirty x.2.1 else x.2.2
      prepRec x.1 x.2.1 x.2.2 (itemBody b x.1 x.2.1 index))

/-- The frame an abort decided now names (R54): the first whose Cutoff lies at or after the decision. -/
def State.abortFrame (s : State) : Word :=
  match s.frames.fixed with
  | some f => if s.core + f.lead ≤ f.cycle then f.num else f.num + 1
  | none => s.nextStart.2

/-- Abort the commit under way (R51, R54, R56). -/
def State.abortCommit (s : State) (c : Commit) (status : Nat) (naks : List (Nat × Nat)) : State :=
  let f := s.abortFrame
  let s := s.broadcast 5 c.id.toNat (bcastHeader 5 c.id.toNat [])
  let s := { s with stp := { s.stp with
      fieldId := c.id, fieldState := 2, fieldTarget := f, lastCommit := some (c.id, 5, c.postp, 0) } }
  ((s.wr F.STP_STATE_FROZEN 0).detect E.STP_COMMIT_ABORT).endCommit c status 0 naks

/-- R49 phase 1 on the head: freeze, judge, and send the prepare; a standby head stages without sending (R283). -/
def commitPrepare (s : State) : State :=
  match s.stp.commits with
  | [] => s
  | c :: _ =>
    if c.phase != 0 || s.isLocal c || s.frozen then s
    else
      let why := s.judgeOwn s.stp.shadow s.shadowMode
      if why != 0 then s.endCommit c stAbortNak 0 [(511, why)]
      else
        let id := s.stp.nextId
        let tiles := if s.anyActive then s.roster else []
        let sends := s.authority && s.anyActive
        let layers := s.stp.dirty.any (fun x => x.1 == 3)
        let c := { c with id := id, phase := if sends then 1 else 2, sentAt := s.core, required := tiles }
        let s := { (s.setCommit c) with stp := { (s.setCommit c).stp with nextId := id + 1 } }
        let s := s.wr F.STP_STATE_FROZEN 1
        if sends then
          let tbl := s.stp.shadow.layers.range 0 34816
          let s := if layers then s.broadcast 1 id.toNat (bcastHeader 1 id.toNat tbl ++ tbl) else s
          let l := s.prepList
          s.broadcast 2 id.toNat (bcastHeader 2 id.toNat l ++ l)
        else s

def execCommitPrepare (s : State) : Host.Outcome State Fault Refusal := onRun s commitPrepare

/-- The last prepare slot has been sent (R51). -/
def State.prepareSent (s : State) : State :=
  match s.stp.commits with
  | c :: _ => if c.phase = 1 then s.setCommit { c with phase := 2, sentAt := s.core } else s
  | [] => s

/-- Slots of a broadcast still wait on a port. -/
def State.bcWaits (s : State) (stream bid : Nat) : Bool :=
  (List.range 4).any (fun k => (s.port k).bc.any (fun q => q.stream == stream && q.bid == bid))

/-- A prepare whose last slots a port dropped as it left Active counts as sent (R51; DEDUCED, log entry 169). -/
def State.settlePrepare (s : State) : State :=
  match s.stp.commits with
  | c :: _ => if c.phase = 1 && !s.bcWaits 2 c.id.toNat then s.prepareSent else s
  | [] => s

/-- One prepare record: item, tile, index and body. -/
structure PrepRec where
  item : Nat
  tile : Nat
  index : Nat
  body : Bytes
  deriving DecidableEq, Repr

/-- A record by itself (R50): LEN, INDEX, TILE and reserved bits. -/
def PrepRec.ok (r : PrepRec) : Bool :=
  let n := r.body.length; let every := r.tile == 511
  match r.item with
  | 1 => every && r.index == 0 && n == 8 && decide (numAt r.body 0 1 ≤ 7) && zeroAt r.body 1 7
  | 2 => every && r.index == 0 && n == 8
  | 3 => every && r.index == 0 && n == 0
  | 4 => r.index == 0 && n == 16 && decide (numAt r.body 0 1 ≤ 1) && zeroAt r.body 1 7 &&
      (numAt r.body 0 1 == 1 || bits (numAt r.body 8 8) 60 4 == 0)
  | 5 => r.index == 0 && n == 40 && numAt r.body 2 2 == r.tile && bits (numAt r.body 0 2) 4 12 == 0 && zeroAt r.body 4 4
  | 6 => every && decide (r.index ≤ 15) && n == 32
  | 7 => decide (r.index ≤ 15) && n == 16
  | 8 => every && decide (r.index ≤ 7) && n == 48
  | 9 => every && r.index == 0 && n == 8 && zeroAt r.body 4 4
  | 10 => every && r.index == 0 && n == 8 && !bit (numAt r.body 0 1) 7 && zeroAt r.body 1 7
  | _ => false

/-- Split a prepare list; none where it is malformed (R50). -/
def parsePrep (fuel : Nat) (bs : Bytes) : Option (List PrepRec) :=
  match fuel with
  | 0 => none
  | fuel + 1 =>
    match bs with
    | [] => some []
    | _ =>
      let n := numAt bs 6 2
      let r : PrepRec := { item := numAt bs 0 1, tile := numAt bs 2 2, index := numAt bs 4 2, body := (bs.drop 8).take n }
      if bs.length < 8 + n || !zeroAt bs 1 1 || 511 < r.tile || !r.ok then none
      else (parsePrep fuel (bs.drop (8 + n))).map (fun l => r :: l)

/-- Exactly one Mode record (R50). -/
def oneMode (l : List PrepRec) : Bool := (l.filter (fun r => r.item == 10)).length == 1

/-- Apply one record that names this tile to a bank (R50, R392).  A tile entry goes to one tile, so 0x1FF there is tile ID 511 (R10,
R200; DEDUCED, log entry 176). -/
def State.applyRec (s : State) (layers : Bytes) (b : Bank) (r : PrepRec) : Bank :=
  if (r.tile != 511 || r.item == 7) && !(s.on F.GLB_TILE_ID_VALID && r.tile == s.rd F.GLB_TILE_ID_ID) then b
  else
    match r.item with
    | 1 => s.rebuild b (numAt r.body 0 1) b.ovl
    | 2 =>
      let set := BitVec.ofNat 64 (leNat r.body)
      match b.stand with
      | some i => s.rebuild b i set
      | none => { b with ovl := set }
    | 3 => { b with layers := Store.write [] 0 (layers.take 34816) }
    | 4 => { b with under := ⟨r.body, []⟩ }
    | 5 => { b with ptrs := b.ptrs.putPtrs 511 (bits (numAt r.body 0 1) 0 4) r.body }
    | 6 => { b with glades := b.glades.write (32 * r.index) r.body }
    | 7 => { b with gladeT := Map.put b.gladeT (512 * r.index + 511) r.body }
    | 8 => { b with pats := b.pats.write (48 * r.index) r.body }
    | 9 => { b with dimM := numAt r.body 0 2, dimK := numAt r.body 2 2 }
    | 10 =>
      let m := numAt r.body 0 1
      { b with rws := Map.put (Map.put (Map.put b.rws F.CLK_FRM_CFG_RATE.key (bits m 0 4)) F.CLK_FRM_CFG_MULT.key (bits m 4 2))
                 F.CLK_FRM_CFG_ROLL.key (bits m 6 1) }
    | _ => b

/-- The MODE byte of a prepare list. -/
def modeOf (l : List PrepRec) : Nat :=
  match l.find? (fun r => r.item == 10) with
  | some r => numAt r.body 0 1
  | none => 0

/-- A tile's answer to a prepare (R49): COMMIT_REPLY, pending with its latest value (R115). -/
def State.replyCommit (s : State) (id : BitVec 16) (why : Nat) : State :=
  { s with trail := { s.trail with pendReply := some (retMsg 6 id.toNat (leBytes 4 why)) } }

/-- Staging is discarded (R49, R54). -/
def State.unstage (s : State) : State :=
  let s := { s with stp := { s.stp with staged := none } }
  (s.wr F.STP_STATE_FROZEN (s.rd F.STP_STATE_RETIRING)).showInterest

/-- The applied commit ID the preferred feeder's markers carry (R52, R107). -/
def State.wallId (s : State) : Nat :=
  match s.pref with
  | some k => numAt (s.port k).feed.fields 28 2
  | none => s.rd F.STP_STATE_COMMIT_ID

/-- A tile judges a complete prepare: NAK reason, and the bank to stage (R49, R50). -/
def State.judgePrep (s : State) (bs layers : Bytes) : Verdict × Bank :=
  match parsePrep (bs.length + 1) bs with
  | none => (⟨4, false⟩, s.stp.shadow)
  | some l =>
    if !oneMode l then (⟨4, false⟩, s.stp.shadow)
    else
      let b := l.foldl (s.applyRec layers) s.stp.shadow
      let v := s.validate b (modeOf l)
      (if (v.reason == 0 || v.reason == 6) && l.any (fun r => r.item == 6 && !gladeOk r.body) then ⟨4, v.full⟩ else v, b)

/-- R49 phase 2: a tile that holds a whole prepare, and the layer table it announces, validates and answers; while a bank retires
its shadow bank is not there to take the changes (R38, R53; DEDUCED, log entry 168). -/
def commitValidate (s : State) : State :=
  match s.stp.prepIn with
  | none => s
  | some (id, bs) =>
    let needs := match parsePrep (bs.length + 1) bs with
      | some l => l.any (fun r => r.item == 3)
      | none => false
    let layers := match s.stp.layerIn with
      | some (i, t) => if i = id then some t else none
      | none => none
    if s.isHead || s.stp.retiring.isSome || (needs && layers.isNone) then s
    else
      let s := { (if s.stp.staged.isSome then s.unstage else s) with stp := { s.stp with prepIn := none, layerIn := none, staged := none } }
      if s.rd F.STP_STATE_COMMIT_ID != s.wallId then s.replyCommit id 9
      else
        let r := s.judgePrep bs (layers.getD [])
        let s := s.detectIf r.1.full E.CNP_STORE_FULL
        let s := if (r.1.reason : Nat) == 8 then s.lmUncorr else s
        if r.1.reason != 0 then s.replyCommit id r.1.reason
        else
          let s := { s with stp := { s.stp with staged := some ⟨id, r.2, none⟩ } }
          ((s.wr F.STP_STATE_FROZEN 1).showInterest).replyCommit id 0

def execCommitValidate (s : State) : Host.Outcome State Fault Refusal := onRun s commitValidate

/-- R51: a tile's answer reaches the head. -/
def commitReply (m : RetMsg) (s : State) : State :=
  match s.stp.commits with
  | [] => s
  | c :: _ =>
    let id := BitVec.ofNat 16 (numAt m.body 2 2); let why := numAt m.body 4 1
    if c.loc || c.phase = 0 || 3 ≤ c.phase || c.id != id || !c.required.contains m.tile || c.acks.contains m.tile then s
    else if why = 0 then s.setCommit { c with acks := m.tile :: c.acks }
    else if s.stp.excl.getLsbD m.tile then s
    else if !s.authority then s.setCommit { c with naks := c.naks ++ [(m.tile, why)] }
    else s.abortCommit c stAbortNak [(m.tile, why)]

def execCommitReply (m : RetMsg) (s : State) : Host.Outcome State Fault Refusal := onRet m 6 (commitReply m) s

/-- Changes to the exclude list take effect (R51). -/
def State.takeExcl (s : State) : State :=
  let n := (List.range 16).foldl (fun n k => n + s.rd (F.STP_EXCL k) * 2 ^ (32 * k)) 0
  { s with stp := { s.stp with excl := BitVec.ofNat 512 n } }

/-- R48, R51: the Cutoff of the fixed frame on a head that decides. -/
def cutoff (s : State) : State :=
  match s.frames.fixed, s.stp.commits with
  | some f, c :: _ =>
    let s := (s.advanceTo (f.cycle - f.lead)).takeExcl.settlePrepare
    let c := s.stp.commits.headD c
    if s.isTile || !s.authority || s.pair.takeover || c.loc || c.phase != 2 || (!c.asap && later32 c.target.toNat f.num.toNat) then s
    else
      let missing := c.required.filter (fun t => !s.excluded t && !c.acks.contains t)
      let eligible := decide (c.sentAt + s.rd F.STP_CFG_ACK_WIN * trailCycle ≤ f.cycle - f.lead)
      if missing.isEmpty then
        if c.required.isEmpty && !eligible then s
        else
          let s := s.setCommit { c with phase := 3, frame := f.num }
          { s with stp := { s.stp with fieldId := c.id, fieldState := 1, fieldTarget := f.num } }
      else if !eligible then s
      else if c.postp < s.rd F.STP_CFG_POSTPONE then s.setCommit { c with postp := c.postp + 1 }
      else s.abortCommit c stAbortTimeout (missing.map (fun t => (t, 0xFF)))
  | some f, [] => (s.advanceTo (f.cycle - f.lead)).takeExcl
  | none, _ => s

def execCutoff (s : State) : Host.Outcome State Fault Refusal := onRun s cutoff

/-- The tile field of a device's own NAK entry (R57). -/
def State.ownEntry (s : State) : Nat := if s.isTile && s.on F.GLB_TILE_ID_VALID then s.rd F.GLB_TILE_ID_ID else 511

/-- R48: a local commit is judged, and takes the first frame for which it is decidable. -/
def localCommitDecide (s : State) : State :=
  match s.stp.commits with
  | [] => s
  | c :: _ =>
    if !s.isLocal c || c.phase != 0 || s.frozen then s
    else if c.loc && s.isHead && !s.stp.dirty.isEmpty then s.endCommit c stCommitRange 0 []
    else
      let v := if s.isTile then s.validate s.stp.shadow s.shadowMode else ⟨s.judgeOwn s.stp.shadow s.shadowMode, false⟩
      let s := s.detectIf v.full E.CNP_STORE_FULL
      let s := if v.reason = 8 then s.lmUncorr else s
      if v.reason != 0 then s.endCommit c stAbortNak 0 [(s.ownEntry, v.reason)]
      else (s.setCommit { c with loc := true, phase := 3, id := BitVec.ofNat 16 (s.rd F.STP_STATE_COMMIT_ID), frame := s.frameFor c }).wr
        F.STP_STATE_FROZEN 1

def execLocalCommitDecide (s : State) : Host.Outcome State Fault Refusal := onRun s localCommitDecide

def commitCancel (d : Desc) (s : State) : State :=
  if !d.only [(0, 0, 16)] then s.finish d 0x21 stFormat
  else
    match s.stp.commits with
    | [] => s.finish d 0x21 stTooLate
    | c :: _ =>
      if !c.loc && (c.phase = 1 || c.phase = 2) && c.id.toNat = d.num 0 2 then
        (s.abortCommit c stAbortCancel []).finish d 0x21 stOk
      else s.finish d 0x21 stTooLate

/-- R56, R58: COMMIT_CANCEL. -/
def execCommitCancel (d : Desc) (s : State) : Host.Outcome State Fault Refusal := onOp s d 0x21 .both (commitCancel d)

def excludeSet (d : Desc) (s : State) : State :=
  if !d.only [(0, 0, 9), (2, 0, 1)] then s.finish d 0x22 stFormat
  else
    let t := d.bitsAt 0 0 9; let f := F.STP_EXCL (t / 32)
    (s.wr f (if d.flag 2 0 then setBit (s.rd f) (t % 32) else clrBit (s.rd f) (t % 32))).finish d 0x22 stOk

/-- R58: EXCLUDE_SET. -/
def execExcludeSet (d : Desc) (s : State) : Host.Outcome State Fault Refusal := onOp s d 0x22 .head (excludeSet d)

/-- RESULT of COMMIT_STATUS (R58). -/
def State.commitResult (s : State) : Nat :=
  let pack := fun (id ph po tgt : Nat) => id + 65536 * ph + 2 ^ 19 * (po % 16) + 2 ^ 32 * tgt
  match s.stp.commits, s.stp.lastCommit with
  | c :: _, l =>
    if c.phase = 0 then
      (match l with
       | some (id, ph, po, tgt) => pack id.toNat ph po tgt.toNat
       | none => 0)
    else pack c.id.toNat c.phase c.postp (if c.phase = 3 then c.frame.toNat else 0)
  | [], some (id, ph, po, tgt) => pack id.toNat ph po tgt.toNat
  | [], none => 0

def commitStatus (d : Desc) (s : State) : State :=
  if !d.only [] then s.finish d 0x23 stFormat else s.finish d 0x23 stOk s.commitResult

/-- R58: COMMIT_STATUS. -/
def execCommitStatus (d : Desc) (s : State) : Host.Outcome State Fault Refusal := onOp s d 0x23 .both (commitStatus d)

/-- The applied ID after a local commit (R52): a tile with a preferred feeder adopts the wall's. -/
def State.localId (s : State) : Nat := if s.isTile && s.pref.isSome then s.wallId else s.rd F.STP_STATE_COMMIT_ID

/-- A commit in force at the start of frame `n` is complete. -/
def State.commitApplied (s : State) (c : Commit) (b : Bank) (id : Nat) (n : Word) : State :=
  let s := s.applyBank b id n
  let s := { s with stp := { s.stp with lastCommit := some (BitVec.ofNat 16 id, 4, c.postp, n) } }
  s.endCommit c stOk n []

/-- The commit engine's part of a frame start on the device whose frame it is (R37, R54): a decided commit applies, a copied
APPLY of the active head applies on the standby (R283), and a staged bank with its APPLY applies on a tile. -/
def State.commitsAt (s : State) (n : Word) : State :=
  let s :=
    match s.stp.commits with
    | c :: _ =>
      if c.phase = 3 && reached32 c.frame.toNat n.toNat then
        s.commitApplied c s.stp.shadow (if c.loc then s.localId else c.id.toNat) n
      else if s.isHead && !s.authority && s.stp.fieldState = 1 && s.stp.fieldTarget = n && c.id = s.stp.fieldId && c.phase = 2 then
        s.commitApplied c s.stp.shadow c.id.toNat n
      else s
    | [] => s
  let s :=
    match s.stp.staged with
    | some t =>
      (match t.apply with
       | some (f, at0) => if f = n && at0 + 16 ≤ s.core then s.applyBank t.bank t.id.toNat n else s
       | none => s)
    | none => s
  if s.stp.fieldState != 0 && reached32 s.stp.fieldTarget.toNat n.toNat then { s with stp := { s.stp with fieldState := 0 } } else s

end Sys2Proof.Machine
end

