-- ==== Sys2Proof/Machine/Stamp.lean ====
section
/-! DEFINITION. Receive and transmit timestamps (R148, R150, R151). -/

namespace Sys2Proof.Machine

/-- The time counter in 2^-24 ns, as timestamps carry it (R148). -/
def State.now24 (s : State) : Int := s.ptp.toNat / 2 ^ 16

/-- Die latency of a port's mode in 2^-24 ns: transmit and receive (R150). -/
def dieLatency (mode : Nat) : Int × Int :=
  if mode = 4 || mode = 5 then (roundDiv (527 * 2 ^ 24) 10, roundDiv (2215 * 2 ^ 24) 10)
  else (roundDiv (384 * 2 ^ 24) 10, roundDiv (1682 * 2 ^ 24) 10)

/-- A board adjustment, s9.8 ns, in 2^-24 ns (R150, R165). -/
def adj24 (v : Nat) : Int := sval v 18 * 2 ^ 16

/-- A time in 2^-24 ns as its nanoseconds modulo 2^32, and its fraction. -/
def stampNs (t : Int) : Nat := (t / 2 ^ 24 % 2 ^ 32).toNat
def stampFrac (t : Int) : Nat := (t % 2 ^ 24).toNat

/-- The mode in force on a port (R147). -/
def State.netMode (s : State) (p : Nat) : Nat := (Map.getD s.net.inForce p (0, 1, 0, 9216)).1

/-- A receive timestamp taken now (R150). -/
def State.rxStamp (s : State) (p : Nat) : Int :=
  s.now24 - (dieLatency (s.netMode p)).2 + adj24 (s.rd (if p = 0 then F.PTP_RX_ADJ0 else F.PTP_RX_ADJ1))

/-- The time at the balls of a frame whose timestamp point crosses the PCS/MAC boundary now (R150). -/
def State.ballTime (s : State) (p : Nat) : Int := s.now24 + (dieLatency (s.netMode p)).1

/-- A transmit timestamp of a frame at the balls at a time (R150). -/
def State.txStamp (s : State) (p : Nat) (balls : Int) : Int :=
  balls + adj24 (s.rd (if p = 0 then F.PTP_TX_ADJ0 else F.PTP_TX_ADJ1))

/-- The 16 bytes before a PTP message in a host buffer (R151). -/
def State.ptpHeader (s : State) (p : Nat) : Bytes :=
  leBytes 4 (stampNs (s.rxStamp p)) ++ leBytes 3 (stampFrac (s.rxStamp p)) ++ leBytes 1 p ++ List.replicate 8 0

end Sys2Proof.Machine
end

