-- ==== Sys2Proof/Machine/Ptp.lean ====
section
/-! DEFINITION. Network time: reading, setting and stepping the counter, the servo, timed frames and their timestamps
(R148 - R164). -/

namespace Sys2Proof.Machine

/-- R149: a read of PTP.TIME_NS. -/
def timeNsRead (s : State) : State := (s.wr F.PTP_TIME_NS s.ns).wr F.PTP_TIME_FRAC s.frac

def execTimeNsRead (s : State) : Host.Outcome State Fault Refusal := onLive s timeNsRead

/-- The counter has been set or stepped now (R153). -/
def State.noteStep (s : State) : State :=
  { s with servo := { s.servo with lastStep := some (BitVec.ofNat 32 s.ns, s.core) } }

/-- R149: PTP.CMD.SET. -/
def timeSet (s : State) : State :=
  if s.isHead && s.on F.CLK_FRM_CTRL_RUN then s.detect E.PTP_SET_REJECT
  else { (s.advance 1) with ptp := BitVec.ofNat 72 (s.rd F.PTP_SET_NS * 2 ^ 40) }.noteStep

def execTimeSet (s : State) : Host.Outcome State Fault Refusal := onLive s timeSet

/-- A step of more than 64 samples makes the sample schedule jump at the next block boundary, and a smaller one is slewed away
(R259); the units are 2^-8 ns. -/
def State.audioStep (s : State) (d : Int) : State :=
  if !s.on F.AUD_STAT_RUNNING then s
  else if 64 * 62500 * 256 < 3 * d.natAbs then { s with aud := { s.aud with jump := some (s.aud.jump.getD 0 + d / 256) } }
  else { s with aud := { s.aud with slew := s.aud.slew + 3 * d / 256 } }

/-- The counter steps in the next CK_CORE cycle, by 2^-8 ns units (R155). -/
def State.stepCounter (s : State) (d : Int) : State :=
  let s := s.advance 1
  let s := { s with ptp := s.ptp + BitVec.ofInt 72 (d * 2 ^ 32) }
  (s.noteStep.audioStep d).detect E.PTP_STEPPED

/-- Counter time of 2^SYNC_LOG s, in ns (R153). -/
def State.syncNs (s : State) : Nat := 1000000000 / 2 ^ (16 - max (s.rd F.PTP_SERVO_CFG_SYNC_LOG) 9)

/-- An offset's MEAS_TIME is stale (R153). -/
def State.stale (s : State) (meas : Nat) : Bool :=
  let age := diff32 s.ns meas
  (decide (age ≤ 2 ^ 31) && decide (2 * s.syncNs < age)) ||
    (match s.servo.lastStep with
     | none => false
     | some (t, c) => decide ((s.core - c) * 64000 < 2 ^ 31 * 103125) && later32 t.toNat meas)

/-- The addend of a correction in 2^-16 ppb (R154). -/
def addendFor (y : Int) : Nat := (roundDiv (nominalAddend * (1000000000 * 65536 + y)) (1000000000 * 65536)).toNat

/-- SERVO_LIMIT in 2^-16 ppb. -/
def State.servoLimit (s : State) : Int := s.rd F.PTP_SERVO_LIMIT * 1000 * 65536

/-- The servo's correction takes effect; at a limit ADDEND_LIMIT is set (R154). -/
def State.setRate (s : State) (i y : Int) : State :=
  ({ (s.pairWr F.PTP_ADDEND_LO F.PTP_ADDEND_HI (addendFor y)) with servo := { s.servo with i := i, y := y } }).detectIf
    (y == s.servoLimit || y == -s.servoLimit) E.PTP_ADDEND_LIMIT

/-- R154: one update of the servo from an offset in 2^-8 ns. -/
def State.servoUpdate (s : State) (th : Int) : State :=
  let lim := s.servoLimit
  let i := clampI (s.servo.i - s.rd F.PTP_SERVO_KI * th) (-lim) lim
  let yn := clampI (i - s.rd F.PTP_SERVO_KP * th) (-lim) lim
  let y := s.servo.y + clampI (yn - s.servo.y) (-(1000 * 65536)) (1000 * 65536)
  s.setRate i y

/-- R153 - R155: an offset that its feeder may feed and that is not stale. -/
def State.acceptOffset (s : State) (ofs : Nat) : State :=
  let th := sval ofs 32
  let s := ((s.wr F.PTP_LAST_OFS ofs).wr F.PTP_STATE_SERVO 1)
  let s := { s with servo := { s.servo with fedAt := some s.core } }
  let top : Int := s.rd F.PTP_STEP_NS * 256
  if -top ≤ th && th ≤ top then s.servoUpdate th
  else if s.rd F.PTP_SERVO_CFG_AUTO_STEP = 2 || (s.rd F.PTP_SERVO_CFG_AUTO_STEP = 1 && !s.on F.CLK_FRM_CTRL_RUN) then
    s.stepCounter (-th)
  else (s.detect E.PTP_OFS_CLAMP).servoUpdate (clampI th (-top) top)

/-- R153: an offset from a feeder (0 Ranger, 1 host): its status, and its effect. -/
def State.feedServo (s : State) (feeder ofs meas : Nat) : Nat × State :=
  if s.rd F.PTP_SERVO_CFG_FEED != feeder then (0x501, s)
  else if s.stale meas then (0x502, s.detect E.PTP_OFS_STALE)
  else (stOk, (if feeder = 0 then s.wr F.WDG_LOAD (clrBit (s.rd F.WDG_LOAD) 0) else s).acceptOffset ofs)

/-- R153: Ranger's offset: it runs PTP with CFG.STACK 0 (R152). -/
def execRangerOffsetFeed (offset measTime : Word) (s : State) : Host.Outcome State Fault Refusal :=
  onLive s (fun s => if s.isHead && decide (s.power.ranger = .running) && !s.on F.PTP_CFG_STACK then
    (s.feedServo 0 offset.toNat measTime.toNat).2 else s)

def servoFeed (d : Desc) (s : State) : State :=
  if !d.only [(0, 0, 32), (4, 0, 32)] then s.finish d 0x50 stFormat
  else
    let r := s.feedServo 1 (d.num 0 4) (d.num 4 4)
    r.2.finish d 0x50 r.1

/-- R153, R164: SERVO_FEED. -/
def execServoFeed (d : Desc) (s : State) : Host.Outcome State Fault Refusal := onOp s d 0x50 .head (servoFeed d)

/-- R156: no offset for 8 × 2^SYNC_LOG s of counter time: holdover. -/
def servoHoldover (s : State) : State :=
  match s.servo.fedAt with
  | none => s
  | some c =>
    if s.isTile || s.rd F.PTP_STATE_SERVO != 1 then s
    else
      let s := s.advanceTo (c + ceilDiv (8 * s.syncNs * 2 ^ 40) s.addend)
      ((s.setRate s.servo.i s.servo.i).wr F.PTP_STATE_SERVO 2).detect E.PTP_HOLDOVER

def execServoHoldover (s : State) : Host.Outcome State Fault Refusal := onLive s servoHoldover

def timeStep (d : Desc) (s : State) : State :=
  if !d.only [(0, 0, 32)] then s.finish d 0x51 stFormat
  else if d.num 0 4 = 0 then s.finish d 0x51 0x503
  else (s.stepCounter (sval (d.num 0 4) 32 * 256)).finish d 0x51 stOk

/-- R155, R164: TIME_STEP. -/
def execTimeStep (d : Desc) (s : State) : Host.Outcome State Fault Refusal := onOp s d 0x51 .head (timeStep d)

def timeRead (d : Desc) (s : State) : State :=
  if !d.only [] then s.finish d 0x52 stFormat
  else s.finish d 0x52 stOk (s.ns + 2 ^ 32 * s.frac + 2 ^ 56 * s.rd F.PTP_STATE_SERVO)

/-- R164: TIME_READ. -/
def execTimeRead (d : Desc) (s : State) : Host.Outcome State Fault Refusal := onOp s d 0x52 .both (timeRead d)

/-- A port's timestamp store, and setting it with its level (R162, R165). -/
def State.tsStore (s : State) (p : Nat) : List Bytes := if p = 0 then s.net.ts0 else s.net.ts1
def State.setTs (s : State) (p : Nat) (l : List Bytes) : State :=
  if p = 0 then { (s.wr F.PTP_TSQ_LEVEL0 l.length) with net := { s.net with ts0 := l } }
  else { (s.wr F.PTP_TSQ_LEVEL1 l.length) with net := { s.net with ts1 := l } }

/-- A timestamp entry is made, or dropped from a full store (R162, R163). -/
def State.addStamp (s : State) (p : Nat) (t : Int) (timed late : Bool) (id req : Nat) : State :=
  let e := leBytes 4 (stampNs t) ++ leBytes 3 (stampFrac t) ++ leBytes 1 (p + 2 * b2n timed + 4 * b2n late) ++ leBytes 2 id ++
    [0, 0] ++ leBytes 4 req
  if 64 ≤ (s.tsStore p).length then (s.inc (if p = 0 then F.PTP_TSQ_DROP0 else F.PTP_TSQ_DROP1)).detect E.PTP_TSQ_OVF
  else s.setTs p (s.tsStore p ++ [e])

/-- A port's timed queue, and setting it (R158). -/
def State.timedQ (s : State) (p : Nat) : List TimedTx := if p = 0 then s.net.timed0 else s.net.timed1
def State.setTimedQ (s : State) (p : Nat) (l : List TimedTx) : State :=
  if p = 0 then { s with net := { s.net with timed0 := l } } else { s with net := { s.net with timed1 := l } }

/-- Big-endian bytes, as Ethernet carries numbers. -/
def beBytes (n v : Nat) : Bytes := (leBytes n v).reverse

/-- Overwrite bytes of a frame from an offset; bytes past its end are dropped. -/
def patchAt (f : Bytes) (i : Nat) (bs : Bytes) : Bytes :=
  match bs with
  | [] => f
  | b :: r => patchAt (setAt f i b) (i + 1) r

/-- Offset of the UDP header of a frame: after the Ethernet header, one 802.1Q tag and the IPv4 header. -/
def udpOffset (f : Bytes) : Nat :=
  let ip := if byteAt f 12 = 0x81 && byteAt f 13 = 0 then 18 else 14
  ip + 4 * ((byteAt f ip).toNat % 16)

/-- R160: a one-step frame: (actual − requested) launch time in 2^-16 ns goes into the correctionField, and the UDP checksum
is 0. -/
def oneStep (f : Bytes) (ofs : Nat) (late24 : Int) : Bytes :=
  let old := leNat ((f.drop ofs).take 8).reverse
  let f := patchAt f ofs (beBytes 8 (sbits (old + late24 / 256) 64))
  patchAt f (udpOffset f + 6) [0, 0]

/-- Signed difference of two times in 2^-24 ns, modulo 2^32 ns (R9). -/
def timeDiff (a : Int) (ns : Nat) : Int := sval ((a - (ns : Int) * 2 ^ 24) % 2 ^ 56).toNat 56

/-- A frame of a TX_SEND leaves port `p` at a time at the balls (R158 - R163). -/
def State.sendFrame (s : State) (p : Nat) (d : Desc) (bytes : Bytes) (balls : Int) (late : Bool) : State :=
  let timed := d.flag 11 0
  let req := if timed then d.num 12 4 else 0
  let f := if d.flag 11 2 then oneStep bytes (d.num 18 2) (timeDiff balls req) else bytes
  let s := s.emit (.frame p (stampNs balls) f)
  let s := if late then (s.inc (F.NET_TX_LATE p)).detect (E.NET_TX_LATE p) else s
  if d.flag 11 1 then s.addStamp p (s.txStamp p balls) timed late (d.num 16 2) req else s

/-- Insert by launch time, after frames of the same time (R158, R9). -/
def queueTimed (l : List TimedTx) (x : TimedTx) : List TimedTx :=
  match l with
  | [] => [x]
  | y :: r => if later32 y.launch.toNat x.launch.toNat then x :: y :: r else y :: queueTimed r x

/-- An entry is the host's: bit 15 of its ID is 0 (R162). -/
def hostStamp (e : Bytes) : Bool := !bit (numAt e 8 2) 15

def tsFetch (d : Desc) (ok : Bool) (s : State) : State :=
  let p := d.num 0 1; let mx := d.num 16 2
  if !d.only [(0, 0, 8), (8, 0, 64), (16, 0, 16)] || 1 < p || mx < 1 || 64 < mx then s.finish d 0x53 stFormat
  else if d.num 8 8 % 16 != 0 then s.finish d 0x53 stAddress
  else
    let out := ((s.tsStore p).filter hostStamp).take mx
    if !ok then s.finish d 0x53 stPcie
    else
      let keep := (s.tsStore p).filter (fun e => !hostStamp e) ++ ((s.tsStore p).filter hostStamp).drop mx
      let s := if out.isEmpty then s else s.emit (.hostWrite (d.num 8 8) out.flatten)
      (s.setTs p keep).finish d 0x53 stOk out.length

/-- R162: TS_FETCH. -/
def execTsFetch (d : Desc) (ok : Bool) (s : State) : Host.Outcome State Fault Refusal := onOp s d 0x53 .head (tsFetch d ok)

end Sys2Proof.Machine
end

