-- ==== Sys2Proof/Machine/PtpRanger.lean ====
section
/-! DEFINITION. The PTP ordinary clock that Ranger runs (R152, R162).  The spec names IEEE 1588-2019 for its messages and gives no
layout of them: the layout here is that standard's (PRESUMED, log entry 184). -/

namespace Sys2Proof.Machine

/-- A PTP message's type, domain, log interval and sender identity. -/
def ptpType (m : Bytes) : Nat := bits (numAt m 0 1) 0 4
def ptpDomain (m : Bytes) : Nat := numAt m 4 1
def ptpInterval (m : Bytes) : Int := sval (numAt m 33 1) 8
def ptpSender (m : Bytes) : Bytes := (m.drop 20).take 10

/-- The PTP message of a UDP frame over IPv4. -/
def ptpBody (f : Bytes) : Bytes := f.drop (udpOffset f + 8)

/-- Message types: an event message is timestamped. -/
def ptpEvent (typ : Nat) : Bool := decide (typ < 4)

/-- Ranger has read its own timestamp entries of a port (R162). -/
def State.dropStamps (s : State) (p : Nat) : State := s.setTs p ((s.tsStore p).filter (fun e => !bit (numAt e 8 2) 15))

/-- Ranger sends a PTP message on a port; an event message leaves a timestamp entry with an ID of Ranger's, bit 15 set (R152,
R162). -/
def State.rangerSends (s : State) (p typ : Nat) : State :=
  let balls := s.ballTime p
  let s := s.emit (.ptpSent p typ (s.rd F.PTP_CFG_DOMAIN) (s.on F.PTP_CFG_TWO_STEP) (stampNs balls))
  if ptpEvent typ then s.drawn.addStamp p (s.txStamp p balls) false false (32768 + Config.freeNat s.free % 32768) 0 else s

/-- Ranger may send a message of a type; whether it does is a free value (log entry 184). -/
def State.rangerMaySend (s : State) (p typ : Nat) : State :=
  if bit (Config.freeNat s.free) 0 then s.drawn.rangerSends p typ else s.drawn

/-- An Announce or Sync of a master whose interval the clock supports (R152). -/
def intervalOk (m : Bytes) : Bool :=
  if ptpType m = 11 then decide (-3 ≤ ptpInterval m) && decide (ptpInterval m ≤ 1)
  else decide (-7 ≤ ptpInterval m) && decide (ptpInterval m ≤ -1)

/-- An Announce: its sender may be selected, and a choice among lawful masters is a free value; one with another interval is not
selected (R152). -/
def State.ptpAnnounce (s : State) (m : Bytes) : State :=
  if !intervalOk m then
    { s with servo := { s.servo with master := s.servo.master.filter (fun x => x != ptpSender m) } }
  else if bit (Config.freeNat s.free) 0 then { s.drawn with servo := { s.servo with master := some (ptpSender m) } }
  else s.drawn

/-- A Sync: of the selected master, Ranger may measure the path delay after it, end to end or peer to peer (R152). -/
def State.ptpSync (s : State) (p : Nat) (m : Bytes) : State :=
  if s.servo.master != some (ptpSender m) then s
  else if !intervalOk m then { s with servo := { s.servo with master := none } }
  else s.rangerMaySend p (if s.on F.PTP_CFG_DELAY then 2 else 1)

/-- The clock is master: allowed, and no master is selected (R152). -/
def State.ptpMaster (s : State) : Bool := !s.on F.PTP_CFG_SLAVE_ONLY && s.servo.master.isNone

/-- A PTP message that has reached Ranger, by its type (R152); messages of another domain do nothing. -/
def State.rangerPtp (s : State) (p : Nat) (m : Bytes) : State :=
  if s.power.ranger != .running || ptpDomain m != s.rd F.PTP_CFG_DOMAIN then s
  else
    let s := s.dropStamps p
    match ptpType m with
    | 0 => s.ptpSync p m
    | 1 => if s.ptpMaster && !s.on F.PTP_CFG_DELAY then s.rangerSends p 9 else s
    | 2 => if s.on F.PTP_CFG_DELAY then s.rangerSends p 3 else s
    | 11 => s.ptpAnnounce m
    | 13 => s.emit (.ptpMeta p m)
    | _ => s

end Sys2Proof.Machine
end

