-- ==== Sys2Proof/Machine/Ingest.lean ====
section
/-! DEFINITION. What a head does with received Ethernet frames: flows, video, sACN, and the host's buffers (R125 - R140). -/

namespace Sys2Proof.Machine

/-- s as CK_CORE cycles (R21). -/
def secCycles (n : Nat) : Nat := usCycles (1000000 * n)

/-- Fields of a flow entry (R127). -/
def flowValid (e : Bytes) : Bool := bit (numAt e 16 1) 0
def flowKind (e : Bytes) : Nat := numAt e 17 1
def flowTarget (e : Bytes) : Nat := numAt e 18 1

/-- Does a packet match an entry (R128)? -/
def flowMatches (e : Bytes) (port : Nat) (vlan : Option (BitVec 12)) (src dst : Word) (dport : BitVec 16) (u : UdpBody) : Bool :=
  let b := numAt e 16 1; let pt := numAt e 19 1
  let vidEn := bit (numAt e 14 2) 12
  flowValid e && (bits b 3 2 == 2 || bits b 3 2 == port) && numAt e 0 4 == dst.toNat && numAt e 12 2 == dport.toNat &&
    (!bit b 1 || numAt e 4 4 == src.toNat) &&
    (!vidEn || (match vlan with
      | some v => v.toNat == bits (numAt e 14 2) 0 12
      | none => false)) &&
    (match u with
     | .rtp _ p ssrc _ _ _ => (!bit b 2 || numAt e 8 4 == ssrc.toNat) && (!bit pt 7 || bits pt 0 7 == p.toNat)
     | _ => !bit b 2 && !bit pt 7)

/-- The counters of a flow. -/
def FlowCount.zero : FlowCount := ⟨0, 0, 0, 0, 0, 0, 0, 0⟩
def State.flowCount (s : State) (i : Nat) : FlowCount := Map.getD s.net.counts i .zero
def State.setCount (s : State) (i : Nat) (c : FlowCount) : State := { s with net := { s.net with counts := Map.set s.net.counts i c .zero } }

/-- The flow that carries a source's frame counts: the lowest entry of its protection group. -/
def State.flowOf (s : State) (kind target : Nat) : Option Nat :=
  (s.net.flows.find? (fun x => flowValid x.2 && flowKind x.2 == kind && flowTarget x.2 == target)).map (·.1)

/-- Count on a source's flow. -/
def State.countSrc (s : State) (k : Nat) (f : FlowCount → FlowCount) : State :=
  match s.flowOf 1 k with
  | some i => s.setCount i (f (s.flowCount i))
  | none => s

/-- A packet that does not fit its flow (R128, R130, R136). -/
def State.fmtErr (s : State) (port flow : Nat) : State :=
  let s := s.setCount flow { s.flowCount flow with fmt := (s.flowCount flow).fmt + 1 }
  (s.inc (F.NET_FMT_ERR port)).detect (E.NET_FMT_ERR port)

/-- A network source as it is created. -/
def Source.fresh (cfg : Bytes) : Source :=
  { cfg := cfg, cur := none, ready := none, reading := none, selected := true, lastTs := none, passes := 0 }

/-- A source, and setting it. -/
def State.source (s : State) (k : Nat) : Option Source := Map.find s.net.sources k
def State.setSource (s : State) (k : Nat) (x : Source) : State := { s with net := { s.net with sources := Map.put s.net.sources k x } }

/-- The frame-sync item of a source in the active bank (R183): base, PITCH, STRIDE. -/
def State.syncItem (s : State) (k : Nat) : Option (Nat × Nat × Nat) :=
  (Map.find s.stp.active.bufs k).map (fun o => (numAt o 8 8, numAt o 16 4, numAt o 20 4))

/-- Merge an interval into a rising list of disjoint ones. -/
def addSpan (l : List (Nat × Nat)) (a b : Nat) : List (Nat × Nat) :=
  match l with
  | [] => [(a, b)]
  | (c, d) :: r =>
    if b < c then (a, b) :: (c, d) :: r
    else if d < a then (c, d) :: addSpan r a b
    else addSpan r (min a c) (max b d)

/-- An interval lies inside the ones held. -/
def hasSpan (l : List (Nat × Nat)) (a b : Nat) : Bool := l.any (fun x => decide (x.1 ≤ a) && decide (b ≤ x.2))

/-- Bytes of a port's block of the plan set in force (R109). -/
def State.planBytes (s : State) (k off len : Nat) : Bytes :=
  s.bankBytes s.stp.active 2 (8704 * (s.port k).plan + 2176 * k + off) len

/-- A line lies in an open window of its source on a port (R109, R110). -/
def State.inWindow (s : State) (k source line : Nat) : Bool :=
  let w := s.planBytes k (2048 + 8 * source) 8
  (numAt w 0 2 ≤ line && line ≤ numAt w 2 2) || (numAt w 4 2 ≤ line && line ≤ numAt w 6 2)

/-- Queue a source chunk on every Active port whose window it lies in (R102, R110). -/
def State.queueChunk (s : State) (q : QChunk) : State :=
  (List.range 4).foldl (fun s k => if s.portActive k && s.inWindow k q.source q.line then s.setPort k { s.port k with pool := (s.port k).pool ++ [q] } else s) s

/-- A source runs pass-through (R134). -/
def Source.passing (x : Source) : Bool := srcPass x.cfg && decide (3 ≤ x.passes)

/-- Queue the chunks of an open frame whose bytes are all in (R18, R134). -/
def State.passChunks (s : State) (k : Nat) (x : Source) (o : OpenFrame) (item : Nat × Nat × Nat) (line : Nat) : OpenFrame × State :=
  let f := srcFmt x.cfg; let lb := f.lineBytes
  (List.range f.chunks).foldl (fun (p : OpenFrame × State) c =>
    let a := line * lb + 240 * c; let n := min 240 (lb - 240 * c)
    if p.1.sent.contains (256 * line + c) || !hasSpan p.1.got a (a + n) then p
    else
      let bs := p.2.lmRead (item.1 + o.buf * item.2.2 + line * item.2.1 + 240 * c) n
      let q : QChunk := { since := p.2.core, cls := 1, source := k, line := line, chunk := c, last := c + 1 == f.chunks
                          frameLo := o.tag.toNat % 256, bytes := bs }
      ({ p.1 with sent := (256 * line + c) :: p.1.sent }, p.2.queueChunk q)) (o, s)

/-- The path in effect and the last test's result (R147). -/
def State.showSrc (s : State) (k : Nat) (aligned : Bool) : State :=
  match s.source k with
  | none => s
  | some x =>
    let p := if srcKind x.cfg != 1 then 0 else if x.passing then 2 else 1
    (s.wr (F.NET_SRC_STAT_PATH 0 k) p).wr (F.NET_SRC_STAT_ALIGNED 0 k) (b2n aligned)

/-- The open frame of a source closes (R130, R133, R134). -/
def State.closeFrame (s : State) (k port : Nat) (x : Source) (o : OpenFrame) (complete : Bool) : State :=
  let ok := complete && o.aligned
  let through := x.passing && ok
  let x' := { x with cur := none, lastTs := some o.ts, passes := if ok then x.passes + 1 else 0
                     ready := if complete then some (o.buf, o.ts, o.tag) else x.ready
                     selected := if complete then through else x.selected }
  let s := (s.setSource k x').showSrc k ok
  let s := if complete then
      let s := s.countSrc k (fun c => { c with frames := c.frames + 1 })
      if x.ready.isSome && !x.selected then s.countSrc k (fun c => { c with drops := c.drops + 1 }) else s
    else s
  s.detectIf (srcPass x.cfg && !ok) (E.NET_ALIGN_FAIL port)

/-- A buffer that is neither being read nor holds the newest complete frame (R133). -/
def Source.freeBuf (x : Source) : Nat :=
  ((List.range 3).find? (fun b => x.reading != some b && (match x.ready with
    | some r => r.1 != b
    | none => true))).getD 0

/-- The step of R134: floor or ceil of 90,000 × P. -/
def stepOk (rate : Nat) (last ts : Word) : Bool :=
  let n := (rateOf rate).1; let d := 90000 * (rateOf rate).2
  let x := diff32 ts.toNat last.toNat
  x == d / n || x == ceilDiv d n

/-- A source's frame opens with its first packet (R130, R134). -/
def State.openFrame (s : State) (x : Source) (ts : Word) : OpenFrame :=
  let win := usCycles (numAt x.cfg 10 2)
  let step := match x.lastTs with
    | some t => stepOk s.rate t ts
    | none => false
  { ts := ts, first := s.core, buf := x.freeBuf, got := [], sent := [], tag := s.frameNow
    aligned := s.frames.begun && decide (s.core - s.frames.start ≤ win) && step }

/-- Place a video packet's rows into an open frame (R130, R133). -/
def State.placeRows (s : State) (k port : Nat) (x : Source) (o : OpenFrame) (rows : List VideoRow) : State :=
  match s.syncItem k with
  | none => s.setSource k { x with cur := some o }
  | some item =>
    let f := srcFmt x.cfg; let lb := f.lineBytes
    let r := rows.foldl (fun (p : OpenFrame × State) v =>
      let a := v.line * lb + v.offset
      let s := p.2.lmWrite (item.1 + o.buf * item.2.2 + v.line * item.2.1 + v.offset) v.bytes
      let o' := { p.1 with got := addSpan p.1.got a (a + v.bytes.length) }
      if x.passing && o.aligned then s.passChunks k x o' item v.line else (o', s)) (o, s)
    let done := hasSpan r.1.got 0 (f.height * lb)
    if done then r.2.closeFrame k port { x with cur := some r.1 } r.1 true else r.2.setSource k { x with cur := some r.1 }

/-- A row header's line and bytes lie in the frame and on whole pixel groups (R130). -/
def rowOk (f : Fmt) (v : VideoRow) : Bool :=
  decide (v.line < f.height) && decide (v.offset + v.bytes.length ≤ f.lineBytes) && v.offset % f.group.2 == 0 &&
    v.bytes.length % f.group.2 == 0

/-- A video packet of source `k` (R130 - R134): each bad row header is discarded and counted by itself; a packet carries at most 4,
and one of more is no ST 2110-20 packet (log entry 183). -/
def State.videoPacket (s : State) (port flow k : Nat) (ts : Word) (field : Bool) (rows : List VideoRow) : State :=
  match s.source k with
  | none => s
  | some x =>
    let f := srcFmt x.cfg
    if srcKind x.cfg != 1 then s
    else if field then s.detect (E.NET_INTERLACED port)
    else if 4 < rows.length then s.fmtErr port flow
    else
      let s := (rows.filter (fun v => !rowOk f v)).foldl (fun s _ => s.fmtErr port flow) s
      let rows := rows.filter (rowOk f)
      match x.cur with
      | some o =>
        if o.ts = ts then s.placeRows k port x o rows
        else if later32 ts.toNat o.ts.toNat then
          let s := s.closeFrame k port x o false
          match s.source k with
          | some x => s.placeRows k port x (s.openFrame x ts) rows
          | none => s
        else s
      | none =>
        if (match x.lastTs with
            | some t => later32 ts.toNat t.toNat
            | none => true) then s.placeRows k port x (s.openFrame x ts) rows
        else s

/-- The merge record of a protection group (R132): whether to take the packet, and the state after. -/
def State.merge (s : State) (port flow kind target seq : Nat) : Bool × State :=
  let key := 256 * kind + target
  let l := Map.getD s.net.merge key []
  let win := usCycles 50000
  let c := s.flowCount flow
  match l.find? (fun m => m.seq == seq) with
  | some m =>
    let c := { c with dup := c.dup + 1, diffNs := if m.leg = flow then c.diffNs else (s.core - m.cycle) * 64000 / 103125 }
    (false, s.setCount flow c)
  | none =>
    let before := match l.getLast? with
      | some m => if kind = 2 then !later16 seq m.seq else !later32 seq m.seq
      | none => false
    if before then
      let s := s.setCount flow { c with late := c.late + 1 }
      (false, (s.inc (F.NET_MERGE_LATE port)).detect (E.NET_MERGE_LATE port))
    else
      let l := (⟨seq, s.core, flow⟩ : MergeItem) :: l.filter (fun m => decide (s.core ≤ m.cycle + win))
      let s := { s with net := { s.net with merge := Map.put s.net.merge key l } }
      (true, s.setCount flow { c with taken := c.taken + 1 })

/-- A frame for the host takes the oldest posted buffer, or is dropped; `pre` are the bytes R151 puts before a PTP message
(R125, R145, R146). -/
def State.toHost (s : State) (port flow tag : Nat) (raw : Bytes) (pre : Bytes := []) : State :=
  match s.net.rx with
  | [] => (s.inc (F.NET_HOST_DROP port)).detect (E.NET_HOST_DROP port)
  | d :: r =>
    if d.num 8 2 < pre.length + raw.length then (s.inc (F.NET_HOST_DROP port)).detect (E.NET_HOST_DROP port)
    else
      let s := { s with net := { s.net with rx := r } }
      (s.emit (.hostWrite (d.num 0 8) (pre ++ raw))).finish d 0x43 stOk
        (raw.length % 16384 + 65536 * port + 2 ^ 20 * flow + 2 ^ 32 * tag)

/-- The source that holds a universe (R138): of the highest priority, the one heard first. -/
def holderOf (l : List SacnSrc) : Option SacnSrc :=
  l.find? (fun x => l.all (fun y => decide (y.prio ≤ x.prio)))

/-- Set the sources of a universe; with none left the universe is lost (R138). -/
def State.setUniv (s : State) (i : Nat) (l : List SacnSrc) : State :=
  let s := { s with net := { s.net with univs := if l.isEmpty then Map.del s.net.univs i else Map.put s.net.univs i l } }
  s.detectIf l.isEmpty (E.NET_SACN_LOSS 0)

/-- A value of a map entry goes into the shadow bank (R139); the commit of R139 is due where it changes. -/
def State.sacnWrite (s : State) (m : Bytes) (v : Nat) : State :=
  let old := s.stp.shadow
  let s := if numAt m 4 1 = 1 then s.putM v
    else if numAt m 4 1 = 2 && numAt m 6 1 < 8 then s.putParam (numAt m 5 1) (numAt m 6 1) v
    else s
  if s.stp.shadow = old then s else { s with net := { s.net with sacnDirty := true } }

/-- The value of a map entry in a packet's slots: 8 bits spread over the full scale, or 16 bits (R139). -/
def slotValue (m slots : Bytes) : Option Nat :=
  let k := numAt m 1 2 - 1
  if bit (numAt m 3 1) 0 then
    (match slots[k]?, slots[k + 1]? with
     | some a, some b => some (256 * a.toNat + b.toNat)
     | _, _ => none)
  else (slots[k]?).map (fun a => if numAt m 4 1 = 3 then a.toNat else 257 * a.toNat)

/-- Two map entries set the same item (R139). -/
def sameTarget (m n : Bytes) : Bool :=
  numAt m 4 1 == numAt n 4 1 && (numAt m 4 1 == 1 || (numAt m 5 1 == numAt n 5 1 && numAt m 6 1 == numAt n 6 1))

/-- Held values of an item that a later value replaces (R139). -/
def State.dropHeld (s : State) (m : Bytes) : State :=
  { s with net := { s.net with sacnHeld := s.net.sacnHeld.filter (fun h => !sameTarget (Map.getD s.net.smap h.1 []) m) } }

/-- A CUE slot changes (R140). -/
def State.cueSlot (s : State) (e v : Nat) : State :=
  if Map.getD s.net.cueVal e 0 = v then s
  else
    let s := { s with net := { s.net with cueVal := Map.set s.net.cueVal e v 0 } }
    if v = 0 || (Map.find s.net.cues v).isNone then s
    else { s with net := { s.net with cue := s.net.cue ++ [v], cueHeld := none } }

/-- The slots of the source that holds a universe act on the map (R139, R140). -/
def State.sacnSlots (s : State) (i : Nat) (slots : Bytes) : State :=
  s.net.smap.foldl (fun s e =>
    if numAt e.2 0 1 != i || numAt e.2 4 1 = 0 then s
    else
      match slotValue e.2 slots with
      | none => s
      | some v =>
        if numAt e.2 4 1 = 3 then s.cueSlot e.1 v
        else
          let s := s.dropHeld e.2
          if s.frozen then { s with net := { s.net with sacnHeld := (e.1, v) :: s.net.sacnHeld } } else s.sacnWrite e.2 v) s

/-- An E1.31 packet on a universe index (R137, R138). -/
def State.sacnPacket (s : State) (i : Nat) (p : SacnPacket) : State :=
  if p.startCode != 0 || p.preview || p.syncPkt then s
  else if p.univ.toNat != s.rd (F.NET_SACN_UNIV 0 i) || p.univ = 0 then s.detect (E.NET_SACN_CONFLICT 0)
  else
    let l := Map.getD s.net.univs i []
    match l.find? (fun x => x.cid == p.cid) with
    | none =>
      if p.terminated then s
      else if 4 ≤ l.length then s.detect (E.NET_SACN_CONFLICT 0)
      else
        let l := l ++ [(⟨p.cid, p.prio, p.seq, s.core⟩ : SacnSrc)]
        let s := s.setUniv i l
        if (holderOf l).map (·.cid) = some p.cid then s.sacnSlots i p.slots else s
    | some x =>
      let back := (x.seq - p.seq).toNat
      if 1 ≤ back && back ≤ 20 then s
      else if p.terminated then s.setUniv i (l.filter (fun y => y.cid != p.cid))
      else
        let l := l.map (fun y => if y.cid = p.cid then ⟨p.cid, p.prio, p.seq, s.core⟩ else y)
        let s := s.setUniv i l
        if (holderOf l).map (·.cid) = some p.cid then s.sacnSlots i p.slots else s

/-- A packet on its flow path (R128 - R137). -/
def State.flowPacket (s : State) (f : NetFrame) (i : Nat) (e : Bytes) (u : UdpBody) : State :=
  let target := flowTarget e
  match flowKind e, u with
  | 1, .rtp ver _ _ seq ts (.video hi field rows) =>
    if ver != 2 then s.fmtErr f.port i
    else
      let r := s.merge f.port i 1 target (65536 * hi.toNat + seq.toNat)
      if r.1 then r.2.videoPacket f.port i target ts field rows else r.2
  | 2, .rtp ver _ _ seq ts (.audio r48 l24 p125 ch samples) =>
    if ver != 2 then s.fmtErr f.port i
    else
      let r := s.merge f.port i 2 target seq.toNat
      if r.1 then
        let a := r.2.audioPacket target ts r48 l24 p125 ch samples
        if a.1 then a.2 else r.2.fmtErr f.port i
      else r.2
  | 1, _ => s.fmtErr f.port i
  | 2, _ => s.fmtErr f.port i
  | 4, .sacn p => s.sacnPacket target p
  | 4, _ => s
  | _, _ => s.toHost f.port i target f.raw

/-- A frame for the host, or for nobody (R125 rows 4 and 5). -/
def State.unclaimed (s : State) (f : NetFrame) : State :=
  let dst := numAt f.raw 0 6
  let own := s.rd (F.NET_MAC_LO f.port) + 2 ^ 32 * s.rd (F.NET_MAC_HI f.port)
  if dst = own || dst = 2 ^ 48 - 1 || (bit dst 0 && s.on (F.NET_HOST_CFG_MCAST f.port)) then
    s.toHost f.port 0xFFF 0 f.raw
  else s.inc (F.NET_NOFLOW f.port)

/-- The MTU in force on a port (R147). -/
def State.mtu (s : State) (p : Nat) : Nat := (Map.getD s.net.inForce p (0, 1, 0, 9216)).2.2.2

/-- A PTP message (R151, R152): over IPv4, on the PTP port with CFG.STACK 0, it goes to Ranger with its timestamp, else to the
host. -/
def State.ptpMessage (s : State) (f : NetFrame) (ip4 : Bool) : State :=
  if ip4 && s.rd F.PTP_CFG_STACK = 0 && s.rd F.PTP_CFG_PTP_PORT = f.port then
    (s.emit (.ptpToRanger f.port (stampNs (s.rxStamp f.port)) (stampFrac (s.rxStamp f.port)) f.raw)).rangerPtp f.port
      (ptpBody f.raw)
  else s.toHost f.port 0xFFF 0 f.raw (s.ptpHeader f.port)

/-- The UDP ports of PTP (R125). -/
def ptpPort (dport : BitVec 16) : Bool := dport = 319 || dport = 320

/-- R125: a received Ethernet frame. -/
def netFrameReceive (f : NetFrame) (s : State) : State :=
  if s.isTile || 1 < f.port || !s.on (F.NET_STAT_LINK f.port) then s
  else if f.overflow then (s.inc (F.NET_RX_OVF f.port)).detect (E.NET_RX_OVF f.port)
  else
    let s := (s.inc (F.NET_RX_FRAMES f.port)).incBy (F.NET_FEC_CORR f.port) f.fecCorr
    if f.fcsErr then s.inc (F.NET_RX_FCS f.port)
    else if f.fecErr then (s.inc (F.NET_FEC_UNCORR f.port)).detect (E.NET_FEC_UNCORR f.port)
    else if s.mtu f.port < f.len || f.pause then s
    else if f.doubleTagged then s.unclaimed f
    else
      match f.body with
      | .ptpEth => s.ptpMessage f false
      | .udp6 dport => if ptpPort dport then s.ptpMessage f false else s.unclaimed f
      | .udp4 options fragment sum src dst dport u =>
        if ptpPort dport then s.ptpMessage f true
        else if options || fragment || !sum then s.unclaimed f
        else
          (match s.net.flows.find? (fun x => flowMatches x.2 f.port f.vlan src dst dport u) with
           | some x => s.flowPacket f x.1 x.2 u
           | none => s.unclaimed f)
      | .other => s.unclaimed f

def execNetFrameReceive (f : NetFrame) (s : State) : Host.Outcome State Fault Refusal := onLive s (netFrameReceive f)

/-- R138: a source has sent nothing for 2.5 s. -/
def sacnSourceTimeout (i : Nat) (cid : BitVec 128) (s : State) : State :=
  let l := Map.getD s.net.univs i []
  match l.find? (fun x => x.cid == cid) with
  | none => s
  | some x => (s.advanceTo (x.last + usCycles 2500000)).setUniv i (l.filter (fun y => y.cid != cid))

def execSacnSourceTimeout (universeIndex : Nat) (cid : BitVec 128) (s : State) : Host.Outcome State Fault Refusal :=
  onLive s (sacnSourceTimeout universeIndex cid)

/-- A commit the head raises itself (R139, R140): an ASAP wall commit. -/
def ownCommit (src : CommitSrc) : Commit :=
  { src := src, desc := ⟨0, false, 0, 0, 0, 0, 0⟩, asap := true, loc := false, target := 0, nakAddr := 0, nakMax := 0, id := 0,
    phase := 0, sentAt := 0, required := [], acks := [], naks := [], postp := 0, frame := 0 }

/-- Put a commit at the end of the order. -/
def State.raiseCommit (s : State) (c : Commit) : State := { s with stp := { s.stp with commits := s.stp.commits ++ [c] } }

/-- R139: the sACN commit. -/
def sacnCommit (s : State) : State :=
  if s.isHead && s.authority && s.on (F.NET_SACN_CFG_AUTO 0) && s.net.sacnDirty && s.stp.commits.isEmpty && !s.stp.hostEdit then
    let s := (s.raiseCommit (ownCommit .sacn)).inc (F.NET_SACN_COMMITS 0)
    { s with net := { s.net with sacnDirty := false } }
  else s

def execSacnCommit (s : State) : Host.Outcome State Fault Refusal := onLive s sacnCommit

/-- R139: values held during a freeze are written when it ends. -/
def sacnHeldWrite (s : State) : State :=
  if s.frozen then s
  else
    let s' := s.net.sacnHeld.foldl (fun s h => match Map.find s.net.smap h.1 with
      | some m => s.sacnWrite m h.2
      | none => s) s
    { s' with net := { s'.net with sacnHeld := [] } }

def execSacnHeldWrite (s : State) : Host.Outcome State Fault Refusal := onLive s sacnHeldWrite

/-- R140: Ranger writes a cue's overlay set and commits, or holds the cue over pending host edits. -/
def sacnCueCommit (s : State) : State :=
  match (match s.net.cue with
    | v :: _ => some v
    | [] => s.net.cueHeld) with
  | none => s
  | some v =>
    if s.isTile || !s.authority || s.power.ranger != .running || s.frozen then s
    else if s.stp.hostEdit then
      ({ s with net := { s.net with cue := s.net.cue.drop 1, cueHeld := some v } }).detectIf (!s.net.cue.isEmpty) (E.NET_CUE_HELD 0)
    else
      let s := { s with net := { s.net with cue := s.net.cue.drop 1, cueHeld := none } }
      match Map.find s.net.cues v with
      | none => s
      | some set =>
        let old := s.stp.shadow
        let b := match old.stand with
          | some i => s.rebuild old i set
          | none => { old with ovl := set }
        let s := (s.setShadowBank b).touch 2 511 0
        let s := if b.layers != old.layers then s.touch 3 511 0 else s
        s.showShadow.raiseCommit (ownCommit (.cue v))

def execSacnCueCommit (s : State) : Host.Outcome State Fault Refusal := onLive s sacnCueCommit

/-- The settings of a port come into force at a link restart (R147). -/
def State.restartLink (s : State) (p : Nat) : State :=
  let v := (s.rd (F.NET_CFG_MODE p), s.rd (F.NET_CFG_AN p), s.rd (F.NET_CFG_ADV100 p), s.rd (F.NET_MTU p))
  { s with net := { s.net with inForce := Map.set s.net.inForce p v (0, 1, 0, 9216) } }

/-- R126: a port loses link. -/
def netLinkDown (p : Nat) (s : State) : State :=
  if s.isTile || 1 < p || !s.on (F.NET_STAT_LINK p) then s
  else
    let s := ((s.wr (F.NET_STAT_LINK p) 0).wr (F.NET_STAT_SPEED p) 0).wr (F.NET_STAT_AN_DONE p) 0
    (s.restartLink p).detect (E.NET_LINK_DOWN p)

def execNetLinkDown (port : Nat) (s : State) : Host.Outcome State Fault Refusal := onLive s (netLinkDown port)

/-- R147: a write to NET.CFG; a write of MODE restarts the link. -/
def netModeWrite (p : Nat) (v : Word) (s : State) : State :=
  if s.isTile || 1 < p then s
  else
    let m := bits v.toNat 0 3
    let s := (s.wr (F.NET_CFG_AN p) (bits v.toNat 3 1)).wr (F.NET_CFG_ADV100 p) (bits v.toNat 4 1)
    if 5 < m then s else (netLinkDown p (s.wr (F.NET_CFG_MODE p) m)).restartLink p

def execNetModeWrite (port : Nat) (v : Word) (s : State) : Host.Outcome State Fault Refusal := onLive s (netModeWrite port v)

/-- The speeds a port's settings allow (R126). -/
def speedOk (m : Nat × Nat × Nat × Nat) (speed : Nat) : Bool :=
  if m.1 = 0 then false
  else if 4 ≤ m.1 then speed == 1
  else if m.1 ≤ 2 && m.2.1 = 1 && m.2.2.1 = 1 then speed == 1 || speed == 2
  else speed == 2

/-- R126: a port's link comes up, with the settings that its start puts in force (R147). -/
def netLinkUp (p : Nat) (speed : BitVec 2) (anDone : Bool) (s : State) : State :=
  let t := if s.on (F.NET_STAT_LINK p) then s else s.restartLink p
  let m := Map.getD t.net.inForce p (0, 1, 0, 9216)
  if s.isTile || 1 < p || !speedOk m speed.toNat then s
  else
    let s := t
    let an := anDone && m.2.1 == 1 && (m.1 == 1 || m.1 == 2 || m.1 == 4)
    ((s.wr (F.NET_STAT_LINK p) 1).wr (F.NET_STAT_SPEED p) speed.toNat).wr (F.NET_STAT_AN_DONE p) (b2n an)

def execNetLinkUp (port : Nat) (speed : BitVec 2) (anDone : Bool) (s : State) : Host.Outcome State Fault Refusal :=
  onLive s (netLinkUp port speed anDone)

end Sys2Proof.Machine
end

