-- ==== Sys2Proof/Machine/Root.lean ====
section
/-! DEFINITION. Root's lock, its references, holdover and slews (R20 - R26, R36). -/

namespace Sys2Proof.Machine

/-- R20, R21: Root locks; the first time the clocks start and every enabled port enters Detect (R349).  In holdover, and while a
slew goes on, LOCK stays 0 (R36). -/
def rootLock (s : State) : State :=
  if s.power.phase = .run then
    if s.power.clocks then
      let s := { s with pair := { s.pair with rootBad := false } }
      if s.rd F.CLK_ROOT_STAT_REF = 4 || s.on F.CLK_ROOT_STAT_SLEWING then s
      else (s.wr F.CLK_ROOT_STAT_LOCK 1).rootChanged
    else
      let s := { s with power := { s.power with clocks := true }, core := 0 }
      let s := s.wr F.CLK_ROOT_STAT_LOCK 1
      if s.care.shut then s
      else (List.range s.portCount).foldl (fun s k => if s.on (F.TRL_CTRL_EN k) then s.enterState k (s.detectCode k) else s) s
  else s

def execRootLock (s : State) : Host.Outcome State Fault Refusal := .next (rootLock s)

/-- R36: the selected reference is lost; in holdover with no slew none is selected. -/
def refLoss (s : State) : State :=
  if s.rd F.CLK_ROOT_STAT_REF = 4 && !s.on F.CLK_ROOT_STAT_SLEWING then s
  else s.holdover.rootChanged.detect E.CLK_REF_LOSS

def execRefLoss (s : State) : Host.Outcome State Fault Refusal := onLive s refLoss

/-- R23, R36: a standby head loses FB_CLK. -/
def fbclkLoss (s : State) : State :=
  if s.isHead && s.isPair && !s.claims then
    let s := { s with power := { s.power with fbclk := false } }
    let s := if s.rd F.CLK_ROOT_STAT_REF = 1 then s.holdover.rootChanged else s
    s.detect E.CLK_FBCLK_LOSS
  else s

def execFbclkLoss (s : State) : Host.Outcome State Fault Refusal := onLive s fbclkLoss

/-- R23, R26: FB_CLK is present at a standby head; Root takes it. -/
def fbclkPresent (s : State) : State :=
  if s.isHead && s.isPair then
    let s := { s with power := { s.power with fbclk := true } }
    if s.claims then s else s.takeFbclk
  else s

def execFbclkPresent (s : State) : Host.Outcome State Fault Refusal := onLive s fbclkPresent

/-- R24: HOLD_S seconds of Root have passed since a head entered holdover; its slew towards REFCLK begins.  ROOT_STAT.REF stays 4,
holdover, until the slew ends: the spec does not say what it shows in it (DESIGN CHOICE, log entry 153). -/
def holdoverExpiry (s : State) : State :=
  if s.isHead && s.rd F.CLK_ROOT_STAT_REF = 4 && !s.on F.CLK_ROOT_STAT_SLEWING then
    let s := s.advanceTo (s.power.holdAt.getD s.core + s.rd F.CLK_ROOT_CFG_HOLD_S * rootSec)
    let s := s.wr F.CLK_ROOT_STAT_SLEWING 1
    { s with power := { s.power with slewAt := some s.core } }.rootChanged
  else s

def execHoldoverExpiry (s : State) : Host.Outcome State Fault Refusal := onLive s holdoverExpiry

/-- The cycle at which a head's slew reaches REFCLK (R24). -/
def State.slewEnd (s : State) : Nat :=
  let o := (sval (s.rd F.CLK_ROOT_STAT_FREQ_OFS) 16).natAbs
  s.power.slewAt.getD s.core + ceilDiv (o * 10 * rootSec) (s.rd F.CLK_ROOT_CFG_SLEW)

/-- R24, R25: a slew ends: Root is locked to its reference, on a head REFCLK. -/
def slewComplete (s : State) : State :=
  if !s.on F.CLK_ROOT_STAT_SLEWING then s
  else if s.isHead then
    let s := s.advanceTo s.slewEnd
    let s := (((s.wr F.CLK_ROOT_STAT_SLEWING 0).wr F.CLK_ROOT_STAT_LOCK 1).wr F.CLK_ROOT_STAT_REF 0).wr F.CLK_ROOT_STAT_FREQ_OFS 0
    { s with power := { s.power with holdAt := none, slewAt := none } }.rootChanged
  else
    let s := (s.wr F.CLK_ROOT_STAT_SLEWING 0).wr F.CLK_ROOT_STAT_LOCK 1
    { s with power := { s.power with holdAt := none } }.rootChanged

def execSlewComplete (s : State) : Host.Outcome State Fault Refusal := onLive s slewComplete

/-- R36: Root's phase error exceeds its bound outside holdover; ROOT_UNLOCK is a forced cause (R275). -/
def rootUnlock (s : State) : State :=
  if s.rd F.CLK_ROOT_STAT_REF = 4 then s
  else
    let s := s.wr F.CLK_ROOT_STAT_LOCK 0
    let s := { s with pair := { s.pair with rootBad := true } }.rootChanged
    (s.detect E.CLK_ROOT_UNLOCK).resignNative

def execRootUnlock (s : State) : Host.Outcome State Fault Refusal := onLive s rootUnlock

/-- A write of CLK.ROOT_CFG (R23, R24, R36): a slew in progress goes on at the new rate, and FB_CLK follows FBCLK_OUT. -/
def rootCfgWrite (w : Nat) (s : State) : State :=
  let s := s.settleSlew
  let s := s.wr F.CLK_ROOT_CFG_HOLD_S (bits w 0 8)
  let s := if 1 ≤ bits w 8 7 && bits w 8 7 ≤ 100 then s.wr F.CLK_ROOT_CFG_SLEW (bits w 8 7) else s
  (s.wr F.CLK_ROOT_CFG_FBCLK_OUT (bits w 16 1)).driveFbclk

end Sys2Proof.Machine
end

