-- ==== Sys2Proof/Machine/Link.lean ====
section
/-! DEFINITION. Trail link bring-up, Active, Dormant (R89 - R99, R352, R353). -/

namespace Sys2Proof.Machine

/-- A port exists in the device's role and the block runs. -/
def onPort (k : Nat) (f : State → State) (s : State) : State := if k < s.portCount && !s.care.shut then f s else s

/-- A bring-up timeout (R89): back to Detect with cause 6. -/
def State.bringupFail (s : State) (k : Nat) : State :=
  ((s.dropPort k 1).wr (F.TRL_STAT_LAST_CAUSE k) 6).detect (E.TRL_BRINGUP_FAIL k)

/-- R89: CTRL.EN is set. -/
def trlEnable (k : Nat) (s : State) : State :=
  let s := s.wr (F.TRL_CTRL_EN k) 1
  if s.lst k = 0 then s.enterState k (s.detectCode k) else s

def execTrlEnable (port : Nat) (s : State) : Host.Outcome State Fault Refusal := onLive s (onPort port (trlEnable port))

/-- R89, R96: CTRL.EN is cleared; Off at once from any state. -/
def trlDisable (k : Nat) (s : State) : State :=
  let active := s.portActive k
  let s := s.wr (F.TRL_CTRL_EN k) 0
  let s := (s.dropPort k 0).wr (F.TRL_STAT_SIGNAL k) 0
  if active then s.feedUpdate else s

def execTrlDisable (port : Nat) (s : State) : Host.Outcome State Fault Refusal := onLive s (onPort port (trlDisable port))

/-- The cycle at which a port in Detect next senses: once at entry, then every DET_CFG.INTERVAL Trail cycles (R89). -/
def State.senseAt (s : State) (k : Nat) : Nat :=
  let p := s.port k; let step := p.cfg.interval * trailCycle
  p.since + max p.senses (ceilDiv (s.core - p.since) step) * step

/-- R89, Detect: the port senses; a sensed termination leads to Train. -/
def detectSense (k : Nat) (sensed : Bool) (s : State) : State :=
  if s.lst k = 1 then
    let c := s.senseAt k; let p := s.port k
    let n := (c - p.since) / (p.cfg.interval * trailCycle) + 1
    let s := s.advanceTo c
    if sensed then
      let s := s.enterState k 2
      s.setPort k { s.port k with fast := false }
    else s.setPort k { p with senses := n }
  else s

def execDetectSense (port : Nat) (sensed : Bool) (s : State) : Host.Outcome State Fault Refusal :=
  onLive s (onPort port (detectSense port sensed))

/-- R89, R98: the Train time is over; the port enters Lock. -/
def trainEnd (k : Nat) (inverted : Byte) (errors : Nat) (s : State) : State :=
  if s.lst k = 2 then
    let p := s.port k
    let n := if p.fast then p.cfg.fast else p.cfg.time
    let s := s.advanceTo (p.since + n * trailCycle)
    let s := s.wr (F.TRL_PRBS_ERR k) (min errors (2 ^ 32 - 1))
    let s := if s.on (F.TRL_CTRL_POL_AUTO k) then s.wrHard (F.TRL_POL_INV k) inverted.toNat else s
    let s := s.enterState k 3
    s.setPort k { s.port k with adapted := true, fast := false }
  else s

def execTrainEnd (port : Nat) (inverted : Byte) (prbsErrors : Nat) (s : State) : Host.Outcome State Fault Refusal :=
  onLive s (onPort port (trainEnd port inverted prbsErrors))

/-- R89, R95: the receiver recognises PRBS31.  A port that leaves Lock, Deskew or Capability for it records cause 2 and sets no
sticky bit (DESIGN CHOICE, log entry 154). -/
def prbsDetect (k : Nat) (s : State) : State :=
  let st := s.lst k
  if st = 2 then
    if (s.port k).seenPrbs then s
    else (s.setPort k { s.port k with since := s.core, seenPrbs := true }).wr (F.TRL_STAT_SIGNAL k) 1
  else if st = 3 || st = 4 || st = 5 then
    let s := (s.dropPort k 2).wr (F.TRL_STAT_LAST_CAUSE k) 2
    s.setPort k { s.port k with seenPrbs := true, fast := false }
  else s

def execPrbsDetect (port : Nat) (s : State) : Host.Outcome State Fault Refusal := onLive s (onPort port (prbsDetect port))

/-- The time a port has for a state has passed (R89). -/
def State.overdue (s : State) (k cycles : Nat) : Bool := decide ((s.port k).since + cycles * trailCycle < s.core)

/-- R89, Lock: every lane has block lock; later than LOCK_TO it is a timeout. -/
def blockLock (k : Nat) (rx : List (List Block)) (s : State) : State :=
  if s.lst k = 3 then
    let locked := lanesLocked (s.badBlocks k rx)
    let s := s.takeBlocks k rx
    if s.overdue k (s.port k).cfg.lockTo then s.bringupFail k
    else if locked then ((s.wr (F.TRL_STAT_BLOCK_LOCK k) 0xFF).wr (F.TRL_STAT_SIGNAL k) 1).enterState k 4
    else s
  else s.takeBlocks k rx

def execBlockLock (port : Nat) (rx : List (List Block)) (s : State) : Host.Outcome State Fault Refusal :=
  onLive s (onPort port (blockLock port rx))

/-- R89, Deskew: deskew holds over two marker rounds; the port enters Capability and sends its message. -/
def deskewDone (k : Nat) (r1 r2 : List (Nat × Block)) (rx : List (List Block)) (s : State) : State :=
  let s := s.takeBlocks k rx
  if s.lst k = 4 then
    if s.overdue k 8 then s.bringupFail k
    else if deskewHolds r1 r2 then
      let skew := (roundOffs r2).foldl max 0
      let s := ((s.wr (F.TRL_STAT_DESKEWED k) 1).wr (F.TRL_LANE_MAP k) (laneMapOf r2)).wr (F.TRL_SKEW k) skew
      let s := (s.wr (F.TRL_STAT_REFUSE k) 0).enterState k 5
      s.setPort k { s.port k with offs := roundOffs r2 }
    else s
  else s

def execDeskewDone (port : Nat) (round1 round2 : List (Nat × Block)) (rx : List (List Block)) (s : State) :
    Host.Outcome State Fault Refusal :=
  onLive s (onPort port (deskewDone port round1 round2 rx))

/-- R89: a timeout of a state, counted in Trail cycles from its entry. -/
def timeout (k st cycles : Nat) (rx : List (List Block)) (s : State) : State :=
  let s := s.takeBlocks k rx
  if s.lst k = st then (s.advanceTo ((s.port k).since + cycles * trailCycle)).bringupFail k else s

def execLockTimeout (port : Nat) (rx : List (List Block)) (s : State) : Host.Outcome State Fault Refusal :=
  onLive s (onPort port (fun s => timeout port 3 (s.port port).cfg.lockTo rx s))

def execDeskewTimeout (port : Nat) (rx : List (List Block)) (s : State) : Host.Outcome State Fault Refusal :=
  onLive s (onPort port (timeout port 4 8 rx))

def execCapTimeout (port : Nat) (rx : List (List Block)) (s : State) : Host.Outcome State Fault Refusal :=
  onLive s (onPort port (fun s => timeout port 5 (s.port port).cfg.capTo rx s))

/-- A copy of a capability message has a good CRC (R90). -/
def capCrcOk (m : Bytes) : Bool := m.length == 56 && numAt m 52 4 == (crc32c (m.take 52)).toNat

/-- Check 3 of R91: a reserved field is 0 and no value is reserved. -/
def capFormatOk (m : Bytes) : Bool :=
  let b1 := numAt m 1 1
  decide (bits b1 0 2 ≤ 1) && decide (bits b1 2 2 ≤ 2) && bits b1 6 2 == 0 && decide (bits (numAt m 3 1) 0 3 ≤ 4) &&
    bits (numAt m 3 1) 3 5 == 0 && bits (numAt m 4 1) 4 4 == 0 && bits (numAt m 6 2) 9 6 == 0 && zeroAt m 11 1 &&
    zeroAt m 14 2 && zeroAt m 36 16

/-- The refusal code of a message, 0 for none (R91). -/
def State.capRefuse (s : State) (k : Nat) (m : Bytes) : Nat :=
  let head := bits (numAt m 1 1) 0 2 == 0; let port := bits (numAt m 1 1) 4 2
  if numAt m 0 1 != 1 then 1
  else if numAt m 2 1 != 8 then 2
  else if !capFormatOk m then 3
  else if s.isHead && head then 4
  else if s.isTile && !head && port != 1 - k then 5
  else 0

/-- R91: two consecutive copies of the partner's message; one accepted later than CAP_TO is a timeout (R89). -/
def capabilityAccept (k : Nat) (c1 c2 : Bytes) (rx : List (List Block)) (s : State) : State :=
  let s := s.takeBlocks k rx
  if s.lst k != 5 then s
  else if s.overdue k (s.port k).cfg.capTo then s.bringupFail k
  else
    let s := s.detectIf (!capCrcOk c1 || !capCrcOk c2) (E.TRL_CAP_CRC k)
    if !capCrcOk c1 || c1 != c2 then s
    else
      let s := (List.range 14).foldl (fun s n => s.wr (F.TRL_CAP_RX k n) (numAt c1 (4 * n) 4)) s
      let s := s.setPort k { s.port k with since := s.core }
      let code := s.capRefuse k c1
      let s := (s.wr (F.TRL_STAT_ACCEPTED k) 1).wr (F.TRL_STAT_REFUSE k) code
      let s := (s.wr (F.TRL_STAT_PEER_REFUSE k) (numAt c1 5 1)).wr (F.TRL_STAT_READY_PEER k) (bits (numAt c1 4 1) 1 1)
      (s.refreshPort k).detectIf (code != 0) (E.TRL_CAP_REFUSED k)

def execCapabilityAccept (port : Nat) (copy1 copy2 : Bytes) (rx : List (List Block)) (s : State) :
    Host.Outcome State Fault Refusal :=
  onLive s (onPort port (capabilityAccept port copy1 copy2 rx))

/-- The conditions of R93 that the state holds. -/
def State.activeOk (s : State) (k : Nat) : Bool :=
  let m := s.capRx k
  s.lst k = 5 && s.peerSeen k && s.on (F.TRL_STAT_READY_LOCAL k) && bit (numAt m 4 1) 0 && bit (numAt m 4 1) 1 &&
    numAt m 5 1 == 0

/-- The position ID a port's entry to Active gives (R353). -/
def State.positionId (s : State) (k : Nat) : Option Nat :=
  let m := s.capRx k
  let id := bits (numAt m 6 2) 0 9
  if bits (numAt m 1 1) 0 2 = 0 then some (128 * bits (numAt m 1 1) 4 2 + (if k = 0 then 0 else 127))
  else if bit (numAt m 6 2) 15 then some (if k = 0 then (id + 1) % 512 else (id + 511) % 512)
  else none

/-- A tile's working ID and its mirror in TRL0.CAP_CFG (R352). -/
def State.setTileId (s : State) (id src : Nat) : State :=
  let s := ((s.wr F.GLB_TILE_ID_ID id).wr F.GLB_TILE_ID_VALID 1).wr F.GLB_TILE_ID_SRC src
  let s := (s.wr (F.TRL_CAP_CFG_TILE_ID_REQ 0) id).wr (F.TRL_CAP_CFG_ID_VALID 0) 1
  s.refreshReady.detect E.GLB_ID_CHANGE

/-- The cause for which the port left its state in this very cycle (R96): SLEEP counts before the others. -/
def State.leftNow (s : State) (k : Nat) : Option Nat :=
  match (s.port k).left with
  | some (c, q) => if c = s.core then some (if q = 7 then 0 else q) else none
  | none => none

/-- An exit from Active, or from Deskew or Capability for causes 1 to 3: cause, count and next state (R95).  Of causes that
coincide the lowest is recorded and its next state taken (R96); a port whose DORMANT is set goes on to Dormant at once (R97).  A
Train that RETRAIN restarts counts TIME, one begun at
Dormant exit too (DESIGN CHOICE, log entry 155). -/
def State.exitActive (s : State) (k cause nxt : Nat) : State :=
  if (s.leftNow k).any (fun q => decide (q ≤ cause)) then s
  else
    let s := if s.lst k = 6 then s.inc (F.TRL_RETRAINS k) else s
    let s := (s.dropPort k (if s.on (F.TRL_CTRL_DORMANT k) then 7 else nxt)).wr (F.TRL_STAT_LAST_CAUSE k) cause
    s.setPort k { s.port k with fast := false, left := some (s.core, cause) }

/-- R95, R96: CTRL.RETRAIN. -/
def retrain (k : Nat) (s : State) : State :=
  let st := s.lst k
  if st = 0 || st = 7 || s.on (F.TRL_CTRL_DORMANT k) then s else (s.exitActive k 5 2).feedUpdate

def execRetrain (port : Nat) (s : State) : Host.Outcome State Fault Refusal := onLive s (onPort port (retrain port))

/-- A tile without an ID takes a position ID, and retrains its other Active port if that port's partner had none (R353). -/
def State.takePosition (s : State) (k : Nat) : State :=
  if s.isHead || s.on F.GLB_TILE_ID_VALID then s
  else
    match s.positionId k with
    | none => s
    | some id =>
      let s := s.setTileId id 1
      let j := 1 - k
      let m := s.capRx j
      if s.portActive j && bits (numAt m 1 1) 0 2 == 1 && !bit (numAt m 6 2) 15 then retrain j s else s

/-- CK_CORE cycles in which a port in Capability sends two copies of its message, one every 16 stripes (R90, R93). -/
def twoCopies : Nat := 132

/-- R93, R94, R23: a port enters Active once it has sent two copies of its message with PEER_SEEN and READY set; where the last
message accepted is older than CAP_TO, its timeout came first (R89). -/
def portActive (k : Nat) (s : State) : State :=
  if !s.activeOk k then s
  else if s.overdue k (s.port k).cfg.capTo then s.bringupFail k
  else
    let s := s.advanceTo ((s.port k).readySince.getD s.core + twoCopies)
    let s := s.keepCap k
    let s := s.enterState k 6
    let s := s.setPort k { s.port k with readySince := none, left := none, berRun := 0 }
    let m := s.capRx k
    let fed := bits (numAt m 1 1) 0 2 == 0 || (let r := bits (numAt m 3 1) 0 3; r == 2 || r == 3)
    let s :=
      if s.isTile && fed && (s.rd F.CLK_ROOT_STAT_REF = 0 || s.rd F.CLK_ROOT_STAT_REF = 4) then
        s.slewTo k
      else s
    let s := s.rootChanged
    (s.takePosition k).feedUpdate

/-- An event that ends Active, Deskew or Capability (R95): its states, sticky bit and next state.  One that coincides with an
exit for a higher cause takes its place (R96). -/
def linkEvent (k cause nxt : Nat) (early : Bool) (e : Nat × Nat) (s : State) : State :=
  let st := s.lst k
  if st = 6 || (early && (st = 4 || st = 5)) || ((st = 1 || st = 2) && (s.leftNow k).isSome) then
    ((s.exitActive k cause nxt).detect e).feedUpdate
  else s

def execSignalLoss (port : Nat) (s : State) : Host.Outcome State Fault Refusal :=
  onLive s (onPort port (fun s => linkEvent port 1 1 true (E.TRL_SIGNAL_LOSS port) (s.wr (F.TRL_STAT_SIGNAL port) 0)))

/-- R95: block lock is lost where 64 blocks of a lane hold 16 invalid sync headers. -/
def lockLoss (k : Nat) (rx : List (List Block)) (s : State) : State :=
  let lost := (s.badBlocks k rx).any laneLost
  let s := s.takeBlocks k rx
  if lost then linkEvent k 2 2 true (E.TRL_LOCK_LOSS k) s else s

def execLockLoss (port : Nat) (rx : List (List Block)) (s : State) : Host.Outcome State Fault Refusal :=
  onLive s (onPort port (lockLoss port rx))

/-- R95: deskew is lost where markers are missing, or the lane offsets changed, at two consecutive marker positions. -/
def deskewLoss (k : Nat) (r1 r2 : List (Nat × Block)) (rx : List (List Block)) (s : State) : State :=
  let lost := s.roundLost k r1 && s.roundLost k r2
  let s := s.takeBlocks k rx
  if lost then linkEvent k 3 2 true (E.TRL_DESKEW_LOSS k) s else s

def execDeskewLoss (port : Nat) (round1 round2 : List (Nat × Block)) (rx : List (List Block)) (s : State) :
    Host.Outcome State Fault Refusal :=
  onLive s (onPort port (deskewLoss port round1 round2 rx))

/-- A Trail cycle of an Active port has been received: whether it held BER_CFG.THRESH invalid headers or more (R95). -/
def State.judgeBer (s : State) (k bad : Nat) : State :=
  let p := s.port k
  s.setPort k { p with berRun := if p.cfg.thresh ≤ bad then p.berRun + 1 else 0 }

/-- R95: HI_BER, once BER_CFG.CYCLES consecutive Trail cycles have held BER_CFG.THRESH invalid headers or more. -/
def hiBer (k : Nat) (s : State) : State :=
  if (s.port k).cfg.berCycles ≤ (s.port k).berRun then linkEvent k 4 2 false (E.TRL_HI_BER k) s else s

def execHiBer (port : Nat) (s : State) : Host.Outcome State Fault Refusal := onLive s (onPort port (hiBer port))

/-- A port goes to Dormant (R97). -/
def State.toDormant (s : State) (k : Nat) : State :=
  let fresh := (s.leftNow k).isNone
  let act := s.lst k = 6
  let s := if act then s.inc (F.TRL_RETRAINS k) else s
  let s := if act || !fresh then s.wr (F.TRL_STAT_LAST_CAUSE k) 7 else s
  let s := s.dropPort k 7
  s.setPort k { s.port k with left := some (s.core, 7) }

/-- A port ends for Dormant (R97): an Active port with the end of its Trail cycle, any other at once; `own` says that its
CTRL.DORMANT asks for it. -/
def State.sleep (s : State) (k : Nat) (own : Bool) : State :=
  if s.lst k = 6 then s.setPort k { s.port k with closing := some (own || (s.port k).closing == some true) }
  else s.toDormant k

/-- R97: CTRL.DORMANT is set. -/
def dormantEnter (k : Nat) (s : State) : State :=
  let s := s.wr (F.TRL_CTRL_DORMANT k) 1
  if s.lst k = 0 then s
  else if s.lst k = 7 then s.setPort k { s.port k with sleeping := false }
  else s.sleep k true

def execDormantEnter (port : Nat) (s : State) : Host.Outcome State Fault Refusal :=
  onLive s (onPort port (dormantEnter port))

/-- CK_CORE cycles of the 16 SLEEP stripes (R97, R101). -/
def sleepStripes : Nat := 66

/-- The Trail cycle of a port that ends for Dormant is over: it sends 16 SLEEP stripes and stops (R97). -/
def State.closeDown (s : State) (k : Nat) : State :=
  let s := (s.sendStripes k 0xE1 16 (ctrlStripe 0xE1 [])).advance sleepStripes
  (s.toDormant k).feedUpdate

/-- R97: four consecutive SLEEP stripes, which override the causes of R95 (R96); a tile ends its opposite port in the same way
if that port is Active. -/
def peerSleep (k : Nat) (s : State) : State :=
  if s.lst k = 0 || s.lst k = 7 || (s.lst k = 1 && (s.leftNow k).isNone) then s
  else
    let s := (s.toDormant k).detect (E.TRL_PEER_SLEEP k)
    let s := if s.isTile && s.portActive (1 - k) then s.sleep (1 - k) false else s
    s.feedUpdate

/-- CK_CORE cycles in which a waking port relocks its transmit PLL and CDR at most: 10,071 CK_SYS cycles (R98). -/
def relockMax : Nat := 10071 * sysCycle

/-- A Dormant port wakes (R98): it sends a wake burst, unless a retimed module is fitted, and relocks. -/
def State.wake (s : State) (k : Nat) : State :=
  if s.lst k = 7 && !s.on (F.TRL_CTRL_DORMANT k) && !(s.port k).sleeping then
    let s := s.setPort k { s.port k with since := s.core, sleeping := true }
    if s.on (F.TRL_CTRL_RETIMED k) then s else s.emit (.burst k)
  else s

/-- A waking tile wakes both its Dormant ports (R98). -/
def State.wakeAll (s : State) (k : Nat) : State :=
  let s := s.wake k
  if s.isTile && (s.port k).sleeping then s.wake (1 - k) else s

/-- R98: a write clears DORMANT.  A port that its own DORMANT is ending and that has not begun its SLEEP stripes stays Active
(DESIGN CHOICE, log entry 156). -/
def dormantClear (k : Nat) (s : State) : State :=
  let s := s.wr (F.TRL_CTRL_DORMANT k) 0
  let s := if (s.port k).closing = some true then s.setPort k { s.port k with closing := none } else s
  s.wakeAll k

def execDormantClear (port : Nat) (s : State) : Host.Outcome State Fault Refusal :=
  onLive s (onPort port (dormantClear port))

/-- R98: the signal detector of a Dormant port sees activity. -/
def wakeDetect (k : Nat) (s : State) : State :=
  if s.lst k = 7 then
    if s.on (F.TRL_CTRL_DORMANT k) then s.detect (E.TRL_WAKE_IGNORED k) else s.wakeAll k
  else s

def execWakeDetect (port : Nat) (s : State) : Host.Outcome State Fault Refusal := onLive s (onPort port (wakeDetect port))

/-- R98: a waking port has relocked its transmit PLL and CDR, within a bound that leaves the time open, and enters Train, from
its stored adaptation. -/
def wakeRelock (k : Nat) (s : State) : State :=
  if s.lst k = 7 && (s.port k).sleeping && !s.on (F.TRL_CTRL_DORMANT k) then
    let s := s.drawn.advanceTo ((s.port k).since + Config.freeNat s.free % (relockMax + 1))
    let s := s.enterState k 2
    s.setPort k { s.port k with sleeping := false, fast := true }
  else s

def execWakeRelock (port : Nat) (s : State) : Host.Outcome State Fault Refusal := onLive s (onPort port (wakeRelock port))

end Sys2Proof.Machine
end

