-- ==== Sys2Proof/Machine/Canopy.lean ====
section
/-! DEFINITION. The Canopy on a tile: the source store, judgment, composition and correction of passes and bands, Glades, and
the swap of the frame buffer (R35, R176 - R182, R196, R201 - R205, R208 - R215, R230, R231). -/

namespace Sys2Proof.Machine

/-- Key of a source store line. -/
def lineKey (source line : Nat) : Nat := 8192 * source + line

/-- A store line nothing has been written to. -/
def Line.fresh : Line := ⟨none, [], none, [], none, []⟩

def State.line (s : State) (source line : Nat) : Line := Map.getD s.cnp.lines (lineKey source line) .fresh

def State.setLine (s : State) (source line : Nat) (l : Line) : State :=
  { s with cnp := { s.cnp with lines := Map.put s.cnp.lines (lineKey source line) l } }

/-- Frame `f` has been judged for a line (R177). -/
def Line.isJudged (l : Line) (f : Word) : Bool :=
  match l.judged with
  | some j => !later32 f.toNat j.toNat
  | none => false

/-- Bytes of a source's lines by its format entry (R175): in the active bank, else in the staged one. -/
def State.lineLen (s : State) (source : Nat) : Nat :=
  let f := tblFmt s.stp.active.layers source
  if f.valid then f.lineBytes
  else
    match s.stp.staged with
    | some t => (tblFmt t.bank.layers source).lineBytes
    | none => 0

/-- A taken chunk of frame `f` enters the store (R175, R177), or is discarded where the intake FIFO is full (R315). -/
def State.storeChunk (s : State) (source line chunk : Nat) (f : Word) (bytes : Bytes) : State :=
  match envelope s.interest source with
  | none => s
  | some e =>
    if !e.takes source line chunk then s
    else if s.cnp.fifoFull then { s with cnp := { s.cnp with fifoFull := false } }
    else if s.lineLen source < 240 * chunk + bytes.length then (s.inc F.CNP_CHUNK_BAD).detect E.CNP_CHUNK_BAD
    else
      let l := s.line source line
      let late := (s.inc F.CNP_AFTER_DL).detect E.CNP_AFTER_DL
      if l.isJudged f then late
      else
        match l.fill with
        | none => s.setLine source line { l with fill := some f, fillC := [(chunk, bytes)] }
        | some g =>
          if g = f then s.setLine source line { l with fillC := Map.put l.fillC chunk bytes }
          else if l.isJudged g && later32 f.toNat g.toNat then
            s.setLine source line { l with fill := some f, fillC := [(chunk, bytes)] }
          else late

/-- A line is complete for a frame (R177). -/
def Line.complete (l : Line) (e : Interest) (f : Word) : Bool :=
  l.fill == some f && (List.range (e.c1 + 1 - e.c0)).all (fun k => (Map.find l.fillC (e.c0 + k)).isSome)

/-- The lines each enabled layer reads in a band: layer, Interest entry. -/
def bandReads (t : Store) (pl : Place) (rolling : Bool) (b : Nat) : List (Nat × Interest) :=
  (enabledLayers t).filterMap (fun i =>
    let l := tblLayer t i; let r := pl.rows rolling b
    if (tblFmt t l.source).valid then (interestOf pl l (tblFmt t l.source) r.1 r.2).map (fun e => (i, e)) else none)

/-- Lines of a source that a band's reads take. -/
def readsLine (rs : List (Nat × Interest)) (source line : Nat) : Bool :=
  rs.any (fun r => r.2.source == source && decide (r.2.l0 ≤ line) && decide (line ≤ r.2.l1))

/-- Is a source ready for a band's judgment (R178)? -/
def State.sourceReady (s : State) (rs : List (Nat × Interest)) (source : Nat) (f : Word) : Bool :=
  match envelope s.interest source with
  | none => false
  | some e => rs.all (fun r => r.2.source != source ||
      (List.range (r.2.l1 + 1 - r.2.l0)).all (fun k => (s.line source (r.2.l0 + k)).complete e f))

/-- The judgment of one band covers a line: note it, and change the roles when it is the last that does (R180). -/
def judgeLine (l : Line) (f : Word) (b : Nat) (ok : Bool) (covering : List Nat) : Line :=
  let m := match l.marks.find? (fun m => m.1 == f) with
    | some m => (f, b :: m.2.1, m.2.2 && ok)
    | none => (f, [b], ok)
  let rest := l.marks.filter (fun m => m.1 != f)
  if covering.all (fun c => m.2.1.contains c) then
    if m.2.2 && l.fill == some f then { l with held := some f, heldC := l.fillC, fill := none, fillC := [], judged := some f, marks := rest }
    else { l with judged := some f, marks := rest }
  else { l with marks := m :: rest }

/-- A layer's outcome: ready, held, cleared, and whether Hold found an empty copy (R179). -/
def State.outcome (s : State) (t : Store) (r : Nat × Interest) (ready : Bool) : Nat × Bool :=
  if ready then (1, false)
  else if (tblLayer t r.1).clear then (3, false)
  else if (List.range (r.2.l1 + 1 - r.2.l0)).all (fun k => (s.line r.2.source (r.2.l0 + k)).held.isSome) then (2, false)
  else (3, true)

/-- LAYSTAT of the layers that are absent reads off (R188). -/
def State.layersOff (s : State) (t : Store) : State :=
  (List.range 8).foldl (fun s i => if (tblLayer t i).en then s else s.wr (F.CNP_LAYSTAT_LAST i) 0) s

/-- LAYSTAT and the counts of a layer's judgment (R187, R188). -/
def State.countLayer (s : State) (i out : Nat) : State :=
  let s := s.wr (F.CNP_LAYSTAT_LAST i) out
  if out = 1 then
    { s with cnp := { s.cnp with okCount := Map.put s.cnp.okCount i (min (Map.getD s.cnp.okCount i 0 + 1) (2 ^ 32 - 1)) } }
  else
    let s := (s.inc (F.CNP_LAYSTAT_MISSES i)).detect E.CNP_NOT_READY
    { s with cnp := { s.cnp with missCount := Map.put s.cnp.missCount i (min (Map.getD s.cnp.missCount i 0 + 1) (2 ^ 32 - 1)) } }

/-- Bands of a frame have been composed: trigger 2 of the frame in progress fires (R43). -/
def State.noteBands (s : State) (f : Word) (bs : List Nat) : State :=
  if f = s.frameNow then
    { s with stp := { s.stp with walk := { s.stp.walk with bandAt := bs.foldl (fun m b => Map.put m b s.core) s.stp.walk.bandAt } } }
  else s

/-- A unit reports done to its entries (R43). -/
def State.unitDone (s : State) (u : Nat) : State :=
  let es := enumerate (s.entriesOf s.stp.active)
  { s with stp := { s.stp with walk := { s.stp.walk with
      doneAt := es.foldl (fun m e => if e.2.unit = u then Map.put m e.1 s.core else m) s.stp.walk.doneAt } } }

/-- The composition of the frame in progress delivers its first value (R213). -/
def State.noteValue (s : State) (f : Word) : State :=
  if f = s.frameNow && s.stp.walk.valueAt.isNone then
    { s with stp := { s.stp with walk := { s.stp.walk with valueAt := some s.core } } }
  else s

/-- The bank the unit started next reads: after BANK_ECC that of the frame before (R59). -/
def State.unitBank (s : State) : Bank := if s.stp.imgBad then s.stp.prev else s.stp.active

/-- Bands judged in the cycle in progress. -/
def State.judgedNow (s : State) : List (Word × Nat) :=
  match s.cnp.judgedIn with
  | some (c, l) => if c = s.core then l else []
  | none => []

/-- A judged band queues behind those judged before it; among those judged in the same cycle the bands go in ascending order
(R178). -/
def enqueueBand (now q : List (Word × Nat)) (x : Word × Nat) : List (Word × Nat) :=
  match q with
  | [] => [x]
  | y :: r => if now.contains y && y.1 == x.1 && decide (x.2 < y.2) then x :: y :: r else y :: enqueueBand now r x

/-- Judge a band of a pass now (R178 - R180). -/
def State.judgeBand (s : State) (p : Pass) (b : Nat) : State :=
  let t := p.bank.layers
  match s.placeOf p.bank with
  | none => s
  | some pl =>
    let rs := bandReads t pl p.rolling b
    let ready := fun k => s.sourceReady rs k p.frame
    let outs := rs.map (fun r => (r.1, r.2, s.outcome t r (ready r.2.source)))
    let snap := outs.foldl (fun (m : Map (Map Bytes)) o =>
      (List.range (o.2.1.l1 + 1 - o.2.1.l0)).foldl (fun m k =>
        let l := s.line o.2.1.source (o.2.1.l0 + k); let key := lineKey o.2.1.source (o.2.1.l0 + k)
        if o.2.2.1 = 1 then Map.put m key l.fillC else if o.2.2.1 = 2 then Map.put m key l.heldC else m) m) []
    let all := (bandsOf p.rolling).map (fun c => (c, bandReads t pl p.rolling c))
    let read := rs.foldl (fun m r => (List.range (r.2.l1 + 1 - r.2.l0)).foldl (fun m k =>
      let key := lineKey r.2.source (r.2.l0 + k)
      if (Map.find m key).isSome then m else Map.put m key .fresh) m) s.cnp.lines
    let lines := read.map (fun x =>
      let k := x.1 / 8192; let n := x.1 % 8192
      if readsLine rs k n then
        (x.1, judgeLine x.2 p.frame b (ready k) ((all.filter (fun c => readsLine c.2 k n)).map (·.1)))
      else x)
    let s := outs.foldl (fun s o => (s.countLayer o.1 o.2.2.1).detectIf o.2.2.2 E.CNP_HOLD_EMPTY) (s.layersOff t)
    let bj : BandJ :=
      { outs := (List.range 8).map (fun i => match outs.find? (fun o => o.1 == i) with
          | some o => o.2.2.1
          | none => 0)
        lines := snap, composed := false, vals := [], taps := [], eccs := [] }
    let ps := s.cnp.passes.map (fun q => if q.frame = p.frame then { q with bands := Map.put q.bands b bj } else q)
    let now := s.judgedNow
    { s with cnp := { s.cnp with lines := lines, passes := ps, queue := enqueueBand now s.cnp.queue (p.frame, b)
                                 judgedIn := some (s.core, (p.frame, b) :: now)
                                 since := if s.cnp.queue.all (fun q => now.contains q) then s.core else s.cnp.since } }.noteValue p.frame

/-- Every source of every enabled layer inside a band is ready (R178). -/
def State.bandReady (s : State) (p : Pass) (b : Nat) : Bool :=
  match s.placeOf p.bank with
  | none => false
  | some pl =>
    let rs := bandReads p.bank.layers pl p.rolling b
    rs.all (fun r => s.sourceReady rs r.2.source p.frame)

/-- The oldest armed frame whose band is not yet judged. -/
def State.toJudge (s : State) (b : Nat) : Option Pass :=
  s.cnp.passes.find? (fun p => (bandsOf p.rolling).contains b && (Map.find p.bands b).isNone)

/-- R178: a band is judged as soon as it is ready, or at its band Compose Deadline; one without rows needs no judgment
(R168). -/
def bandJudgment (b : Nat) (s : State) : State :=
  match s.toJudge b with
  | none => s
  | some p =>
    match s.placeOf p.bank with
    | none => s
    | some pl =>
      if p.rolling && pl.empty b then s
      else if s.bandReady p b || !p.rolling then s.judgeBand p b
      else (s.advanceTo (p.fs + pl.dl.getD b 0)).judgeBand p b

def execBandJudgment (band : Nat) (s : State) : Host.Outcome State Fault Refusal := onRun s (bandJudgment band)

/-- The value of an Understory item at a lamp index (R182). -/
def State.underAt (s : State) (u : Bytes) (lamp : Nat) : Nat :=
  if numAt u 0 1 = 0 then bits (numAt u 8 8) 0 60
  else if s.lmBadIn (numAt u 8 8 + 8 * lamp) 8 then 0
  else bits (leNat (s.lmRead (numAt u 8 8 + 8 * lamp) 8)) 0 60

/-- The Understory's value at a lamp (R182). -/
def State.under (s : State) (b : Bank) (lamp : Nat) : Nat := s.underAt b.under.all lamp

/-- An image entry of an Understory item at one of the lamp indexes is uncorrectable (R182). -/
def State.underEcc (s : State) (u : Bytes) (ks : List Nat) : Bool :=
  numAt u 0 1 != 0 && ks.any (fun k => s.lmBadIn (numAt u 8 8 + 8 * k) 8)
def State.underBad (s : State) (b : Bank) (ks : List Nat) : Bool := s.underEcc b.under.all ks

/-- Wall coordinates of a lamp. -/
def Place.at (p : Place) (k : Nat) : Nat × Nat := (p.x0 + k % p.u, p.y0 + k / p.u)

/-- Lamps of a band, ascending. -/
def Place.lampsOf (p : Place) (rolling : Bool) (b : Nat) : List Nat :=
  let r := p.rows rolling b
  (List.range ((r.2 - r.1) * p.u)).map (· + r.1 * p.u)

/-- The working value of a lamp of a judged band (R193, R196). -/
def State.lampOf (s : State) (bk : Bank) (pl : Place) (bj : BandJ) (k : Nat) : Nat :=
  let x := lampPt (pl.at k).1; let y := lampPt (pl.at k).2
  lampValue bk.layers bj.outs bj.lines (s.under bk k) x y
    ⟨fun _ => false, fun i => bj.eccs.any (readsBad bk.layers bj.lines x y i)⟩

/-- An entry of the Lamp Table or Emitter Table holds an uncorrectable error (R212). -/
def State.lampEcc (s : State) (b : Bank) (k : Nat) : Bool := s.lmBadIn (b.ptr 0 + 20 * k) 20
def State.emitEcc (s : State) (b : Bank) (k : Nat) : Bool := s.lmBadIn (b.ptr 1 + 4 * k) 4

/-- Lamp Table and Emitter Table entries of a bank as they act (R208, R217): one that cannot be read acts as DISABLE = 1 or
DEAD = 1 (R212). -/
def State.lampEntry (s : State) (b : Bank) (k : Nat) : Bytes :=
  if s.lampEcc b k then leBytes 20 (2 ^ 144) else s.lmRead (b.ptr 0 + 20 * k) 20
def State.emitEntry (s : State) (b : Bank) (k : Nat) : Bytes :=
  if s.emitEcc b k then leBytes 4 (2 ^ 24) else s.lmRead (b.ptr 1 + 4 * k) 4

/-- Emitters of a list of lamps that an uncorrectable entry drives 0 (R212, R222). -/
def State.eccZero (s : State) (b : Bank) (pl : Place) (ks : List Nat) : Nat :=
  ks.foldl (fun n k => n + ((List.range pl.emit).filter (fun e => s.lampEcc b k || s.emitEcc b (k * pl.emit + e))).length) 0

/-- A block meets uncorrectable words in Local Memory: its own source fires, and LMC counts (R296). -/
def State.blockEcc (s : State) (c : Bool) (e : Nat × Nat) : State := if c then (s.detect e).lmUncorr else s

/-- Channel Map entry of an emitter (R230). -/
def State.mapEntry (s : State) (b : Bank) (k : Nat) : Nat :=
  leNat (s.bankBytes b 5 ((s.scriptsOf b).fwdOfs + 4 * k) 4)

/-- Address of the frame buffer word of an emitter in a half (R230). -/
def State.wordAddr (s : State) (b : Bank) (half entry : Nat) : Nat :=
  let h := s.scriptsOf b
  s.fbBase b + half * h.half + 2 * ((bits entry 0 7 * h.scan + bits entry 7 6) * h.chmax + bits entry 13 12)

/-- The half of the frame buffer that is not live for a band (R231). -/
def State.deadHalf (s : State) (b : Nat) : Nat := if bit (s.rd F.BRN_FB_LIVE) b then 0 else 1

/-- Correct one lamp from a working value and write its emitters' words (R208 - R213, R230). -/
def State.correctLamp (s : State) (p : Pass) (bk : Bank) (pl : Place) (k v : Nat) : State :=
  let le := s.lampEntry bk k; let xy := pl.at k
  let q := lampQ bk.pats (s.patOffAt p.frame) p.frame.toNat xy.1 xy.2
  let w := unpack20 v
  let half := s.deadHalf (pl.bandOf (k / pl.u))
  (List.range pl.emit).foldl (fun s e =>
    let i := k * pl.emit + e
    let en := s.mapEntry bk i
    if mapNone en then s
    else s.lmWrite (s.wordAddr bk half en) (leBytes 2 (driveOut le (s.emitEntry bk i) w e p.scale q))) s

/-- A channel of a working value as the truth preview sends it: round(255 * (w / 1,048,575)^(1/2.4)), by comparing fifth and
twelfth powers (R144). -/
def truthByte (w : Nat) : Nat :=
  ((List.range 255).filter (fun k => decide ((2 * k + 1) ^ 12 * 1048575 ^ 5 ≤ w ^ 5 * 510 ^ 12))).length

/-- The class-7 payload of consecutive samples of a row (R144). -/
def truthPayload (code row col : Nat) (vals : List Nat) : Bytes :=
  leBytes 2 row ++ leBytes 2 col ++ [BitVec.ofNat 8 vals.length, BitVec.ofNat 8 code, 0, 0] ++
    vals.flatMap (fun v => (unpack20 v).map (fun c => BitVec.ofNat 8 (truthByte c.toNat)))

/-- Cut samples, by column, into payloads of up to 77 consecutive ones. -/
def truthRows (code row : Nat) : List (Nat × Nat) → Nat → List Nat → List Bytes
  | [], _, [] => []
  | [], col, v :: vs => [truthPayload code row col (v :: vs).reverse]
  | x :: xs, _, [] => truthRows code row xs x.1 [x.2]
  | x :: xs, col, v :: vs =>
    if x.1 = col + (v :: vs).length && decide ((v :: vs).length < 77) then truthRows code row xs col (x.2 :: v :: vs)
    else truthPayload code row col (v :: vs).reverse :: truthRows code row xs x.1 [x.2]

/-- Queue the truth-preview samples of working values, by lamp, of a frame; samples of an older frame not sent yet are
dropped (R115, R144). -/
def State.queueTruth (s : State) (pl : Place) (frame : Word) (vals : List (Nat × Nat)) : State :=
  match Map.find s.net.pvw 2 with
  | none => s
  | some o =>
    if !bit (numAt o 16 1) 0 then s
    else
      let code := bits (numAt o 2 1) 0 2; let f := 2 ^ (code + 1); let lo := BitVec.ofNat 8 frame.toNat
      let pts := (vals.map (fun x => (pl.at x.1, x.2))).filter (fun q => q.1.1 % f == 0 && q.1.2 % f == 0)
      let rows := (pts.map (fun q => q.1.2 / f)).eraseDups
      let ps := rows.flatMap (fun r => truthRows code r ((pts.filter (fun q => q.1.2 / f == r)).map (fun q => (q.1.1 / f, q.2))) 0 [])
      { s with trail := { s.trail with previews := s.trail.previews.filter (fun p => p.1 == lo) ++ ps.map (fun p => (lo, p)) } }

/-- Table entries with reserved bits met while a list of lamps is corrected (R212). -/
def State.badEntries (s : State) (bk : Bank) (pl : Place) (ks : List Nat) : Nat :=
  ks.foldl (fun n k => n + b2n (lampBad (s.lampEntry bk k)) +
    ((List.range pl.emit).filter (fun e => emitBad (s.emitEntry bk (k * pl.emit + e)))).length) 0

/-- Bands without rows are composed (R168). -/
def emptyDone (bs : List Nat) (m : Map BandJ) : Map BandJ :=
  bs.foldl (fun m c => Map.put m c { outs := [], lines := [], composed := true, vals := [], taps := [], eccs := [] }) m

/-- A judgment has been made for a pass. -/
def Pass.judged (p : Pass) : Bool := p.bands.any (fun b => !b.2.outs.isEmpty)

/-- Every band of a pass has been composed. -/
def Pass.composed (p : Pass) : Bool :=
  (bandsOf p.rolling).all (fun b => match Map.find p.bands b with
    | some j => j.composed
    | none => false)

/-- Compose and correct a judged band, and with it the empty bands that follow it (R168, R181, R193, R213); it takes its work units
and their pauses (R315). -/
def State.composeBand (s : State) (p : Pass) (b : Nat) (bj : BandJ) : State :=
  let bk := p.bank
  match s.placeOf bk with
  | none => s
  | some pl =>
    let ks := pl.lampsOf p.rolling b
    let s := s.advanceTo (s.workEnd ks.length)
    let vals := ks.map (fun k => (k, s.lampOf bk pl bj k))
    let taps := vals.flatMap (fun x => (List.range pl.emit).map (fun e =>
      (x.1 * pl.emit + e, driveTap (s.lampEntry bk x.1) (s.emitEntry bk (x.1 * pl.emit + e)) (unpack20 x.2) e)))
    let bad := s.badEntries bk pl ks; let nz := s.eccZero bk pl ks; let und := s.underBad bk ks
    let s := vals.foldl (fun s x => s.correctLamp p bk pl x.1 x.2) s
    let s := (s.incBy F.LCR_ENTRY_BAD bad).detectIf (decide (0 < bad)) E.LCR_ENTRY_FORMAT
    let s := (s.blockEcc (und && !ks.isEmpty) E.CNP_UND_ECC).blockEcc (decide (0 < nz)) E.LCR_TABLE_ECC
    let s := (s.incBy F.LCR_ECC_ZERO nz).wr F.CNP_PASS_LAST (min (s.core - s.cnp.since) (2 ^ 24 - 1))
    let s := s.queueTruth pl p.frame vals
    let bj := { bj with composed := true, vals := vals, taps := taps }
    let more := if p.rolling then (pl.emptyFrom (b + 1)).filter (fun c => !p.lost.contains c) else []
    let ps := s.cnp.passes.map (fun q => if q.frame = p.frame then { q with bands := emptyDone more (Map.put q.bands b bj) } else q)
    let due := (if p.rolling then b :: more else List.range 16).foldl (fun m c => Map.put m c p.frame) s.cnp.due
    let s := { s with cnp := { s.cnp with passes := ps, due := due, queue := s.cnp.queue.drop 1, since := s.core
                                          work := vals.foldl (fun (m : Map Nat) (x : Nat × Nat) => Map.set m x.1 x.2 0) s.cnp.work } }
    let s := s.noteBands p.frame (if p.rolling then b :: more else List.range 16)
    if p.frame = s.frameNow && s.cnp.passes.any (fun q => q.frame == p.frame && q.composed) then (s.unitDone 1).unitDone 2 else s

/-- Passes that have finished end (R38); TABLE_PATCHes land in the gap after one (R220). -/
def State.endPasses (s : State) : State :=
  match (s.cnp.passes.filter Pass.finished).getLast? with
  | none => s
  | some p =>
    let s := { s with cnp := { s.cnp with passes := s.cnp.passes.filter (fun p => !p.finished) },
                      lcr := { s.lcr with patches := s.lcr.patches.map (fun (q : Patch) => { q with ready := true }) } }
    let s := s.wr F.CNP_GLADE_SUBST p.subd
    s.retireIfDone

/-- The composition at the front of the queue, where it is the band named. -/
def State.composing (s : State) (b : Nat) : Option (Pass × BandJ) :=
  match s.cnp.queue with
  | (f, c) :: _ =>
    if c != b then none
    else
      match s.cnp.passes.find? (fun p => p.frame == f) with
      | none => none
      | some p => (Map.find p.bands b).map (fun j => (p, j))
  | [] => none

/-- R181: the band being composed is done. -/
def bandComposed (b : Nat) (s : State) : State :=
  match s.composing b with
  | some (p, j) => if p.rolling then (s.composeBand p b j).endPasses else s
  | none => s

def execBandComposed (band : Nat) (s : State) : Host.Outcome State Fault Refusal := onRun s (bandComposed band)

/-- R181: the pass over the whole grid, and its correction, are done. -/
def State.passDone (s : State) : State :=
  match s.composing 0 with
  | some (p, j) => if p.rolling then s else (s.composeBand p 0 j).endPasses
  | none => s

/-- Does a band's rows meet a Glade on this tile? -/
def bandMeets (pl : Place) (rolling : Bool) (b : Nat) (g : Bytes) : Bool :=
  let r := pl.rows rolling b; let gy := numAt g 8 4
  gladeMeets g pl && decide (r.1 < r.2) && decide (gy < pl.y0 + r.2) && decide (pl.y0 + r.1 < gy + numAt g 16 4)

/-- A band waits for a substituting Glade (R205). -/
def State.guarded (_ : State) (p : Pass) (b : Nat) : Bool := p.guards b

/-- R181, R205: a band of a frame is not done by its limit. -/
def bandAbandon (b : Nat) (s : State) : State :=
  match s.cnp.passes.find? (fun p => p.rolling && !p.lost.contains b &&
      ((match Map.find p.bands b with
        | some j => !j.composed
        | none => true) || s.guarded p b)) with
  | none => s
  | some p =>
    let s := match s.placeOf p.bank with
      | some pl => if s.frameNow = p.frame + 1 then s.advanceTo (s.frames.start + pl.dl.getD b 0) else s
      | none => s
    let ps := s.cnp.passes.map (fun q => if q.frame = p.frame then { q with lost := b :: q.lost } else q)
    let due := if Map.find s.cnp.due b = some p.frame then Map.del s.cnp.due b else s.cnp.due
    let since := if s.cnp.queue.head? = some (p.frame, b) then s.core else s.cnp.since
    let s := { s with cnp := { s.cnp with passes := ps, due := due, since := since
                                          queue := s.cnp.queue.filter (· != (p.frame, b)) } }
    (s.detect E.CNP_COMPOSE_LATE).endPasses

def execBandAbandon (band : Nat) (s : State) : Host.Outcome State Fault Refusal := onRun s (bandAbandon band)

/-- Lamps of a tile inside a Glade, ascending. -/
def gladeLamps (pl : Place) (g : Bytes) : List Nat :=
  (List.range pl.lamps).filter (fun k => gladeHolds g (pl.at k).1 (pl.at k).2)

/-- A composed value, and a drive tap, of a pass. -/
def Pass.val (p : Pass) (k : Nat) : Nat :=
  ((p.bands.map (fun b => Map.getD b.2.vals k 0)).foldl max 0)
def Pass.tap (p : Pass) (k : Nat) : Nat :=
  ((p.bands.map (fun b => Map.getD b.2.taps k 0)).foldl max 0)

/-- The signature of a Glade over a pass (R201). -/
def Pass.sign (p : Pass) (pl : Place) (g : Bytes) : Word :=
  crc32c ((gladeLamps pl g).flatMap (fun k =>
    if bit (numAt g 0 1) 1 then (List.range pl.emit).flatMap (fun e => leBytes 2 (p.tap (k * pl.emit + e)))
    else leBytes 8 (p.val k)))

/-- Change a pass. -/
def State.setPass (s : State) (p : Pass) : State :=
  { s with cnp := { s.cnp with passes := s.cnp.passes.map (fun q => if q.frame = p.frame then p else q) } }

/-- Every band of a pass whose rows meet a Glade has been composed. -/
def Pass.signed (p : Pass) (pl : Place) (g : Bytes) : Bool :=
  (bandsOf p.rolling).all (fun b => !bandMeets pl p.rolling b g || (match Map.find p.bands b with
    | some j => j.composed
    | none => false))

/-- Glades latched for a pass: under the active bank, or those latched before its bank retired and by its frames since (R204,
R206). -/
def State.latchedFor (s : State) (p : Pass) : Nat := if p.old then p.latched else s.cnp.latched

/-- The verdict on an armed Glade (R203, R204). -/
def State.verdict (s : State) (p : Pass) (pl : Place) (i : Nat) : State :=
  let bk := p.bank; let g := bk.glade i
  let sig := p.sign pl g
  let react := bits (numAt g 0 1) 2 2; let latch := bit (numAt g 0 1) 4
  let bad := sig.toNat != numAt (bk.gladeTile i) 0 4
  let s := (s.wr (F.CNP_GLADE_SIG i) sig.toNat).wr F.CNP_GLADE_FRAME p.frame.toNat
  let s := if bad then
      let s := (s.raise F.CNP_GLADE_STICKY i).inc (F.CNP_GLADE_MISS i)
      (s.detect E.CNP_GLADE_MISMATCH).detectIf (react == 1 || react == 2) E.CNP_GLADE_ALERT
    else s
  let sub := react == 2 && (bad || (latch && bit (s.latchedFor p) i))
  let p := if sub && latch then { p with latched := setBit p.latched i } else p
  let same := bk.glade i = s.stp.active.glade i && bk.gladeTile i = s.stp.active.gladeTile i
  let s := if sub && latch && (!p.old || same) then { s with cnp := { s.cnp with latched := setBit s.cnp.latched i } } else s
  (s.setPass { p with verdicts := setBit p.verdicts i, subst := if sub then setBit p.subst i else p.subst }).endPasses

/-- R203: a Glade's verdict, once its last lamp has been composed or corrected. -/
def gladeVerdict (i : Nat) (s : State) : State :=
  match s.cnp.passes.find? (fun p => bit p.armed i && !bit p.verdicts i) with
  | none => s
  | some p =>
    match s.placeOf p.bank with
    | none => s
    | some pl => if p.signed pl (p.bank.glade i) then s.verdict p pl i else s

def execGladeVerdict (glade : Nat) (s : State) : Host.Outcome State Fault Refusal := onRun s (gladeVerdict glade)

/-- The image entry of a Glade at a lamp is uncorrectable (R203). -/
def State.substBad (s : State) (bk : Bank) (i k : Nat) : Bool :=
  let a := numAt (bk.gladeTile i) 8 8
  a != 0 && s.lmBadIn (a + 8 * k) 8

/-- The value a Glade substitutes at a lamp (R203): SOLID where there is no image entry to read. -/
def State.substValue (s : State) (bk : Bank) (i k : Nat) : Nat :=
  let a := numAt (bk.gladeTile i) 8 8
  if a = 0 || s.substBad bk i k then bits (numAt (bk.glade i) 20 8) 0 60 else bits (leNat (s.lmRead (a + 8 * k) 8)) 0 60

/-- R203: the substitute of a Glade is written. -/
def substitutionDone (i : Nat) (s : State) : State :=
  match s.cnp.passes.find? (fun p => bit p.subst i) with
  | none => s
  | some p =>
    let bk := p.bank
    match s.placeOf bk with
    | none => s
    | some pl =>
      let above := fun k => (List.range i).any (fun j => (bit p.subst j || bit p.subd j) &&
        gladeHolds (bk.glade j) (pl.at k).1 (pl.at k).2)
      let lost := fun k => p.rolling && p.lost.contains (pl.bandOf (k / pl.u))
      let ks := (gladeLamps pl (bk.glade i)).filter (fun k => !above k && !lost k)
      let s := ks.foldl (fun s k =>
        let v := s.substValue bk i k
        let s := s.correctLamp p bk pl k v
        { s with cnp := { s.cnp with work := Map.set s.cnp.work k v 0 } }) s
      let s := s.blockEcc (ks.any (s.substBad bk i)) E.CNP_SUB_ECC
      let s := s.queueTruth pl p.frame (ks.map (fun k => (k, s.substValue bk i k)))
      (s.setPass { p with subst := clrBit p.subst i, subd := setBit p.subd i }).endPasses

def execSubstitutionDone (glade : Nat) (s : State) : Host.Outcome State Fault Refusal := onRun s (substitutionDone glade)

/-- R204: CNP.GLADE_RELEASE; in the head role the register ignores writes (R207). -/
def gladeRelease (v : Word) (s : State) : State :=
  if s.isHead then s
  else { s with cnp := { s.cnp with
      latched := andNot s.cnp.latched (v.toNat % 65536)
      passes := s.cnp.passes.map (fun p => { p with latched := andNot p.latched (v.toNat % 65536) }) } }

def execGladeRelease (v : Word) (s : State) : Host.Outcome State Fault Refusal := onLive s (gladeRelease v)

/-- Flip a band's live half (R231). -/
def State.flipBand (s : State) (b : Nat) (f : Word) : State :=
  let v := s.rd F.BRN_FB_LIVE
  let s := s.wr F.BRN_FB_LIVE (if bit v b then clrBit v b else setBit v b)
  { s with cnp := { s.cnp with due := Map.del s.cnp.due b, shown := Map.put s.cnp.shown b f } }

/-- A composed band may swap now: no Glade holds it back (R205). -/
def State.maySwap (s : State) (b : Nat) (f : Word) : Bool :=
  match s.cnp.passes.find? (fun p => p.frame == f) with
  | none => true
  | some p => !s.guarded p b

/-- The swaps of a boundary (R35, R231): in Rolling mode each band that is due, in Frame mode every band at a frame start. -/
def State.swapBands (s : State) (start : Bool) : State :=
  if s.on F.CLK_FRM_CFG_ROLL then
    s.cnp.due.foldl (fun s d => if s.maySwap d.1 d.2 then s.flipBand d.1 d.2 else s) s
  else if start && (List.range 16).all (fun b => match Map.find s.cnp.due b with
      | some f => s.maySwap 0 f
      | none => false) then s.cnp.due.foldl (fun s d => s.flipBand d.1 d.2) s
  else s

/-- R181, R205: at a frame start in Frame mode the pass of the frame before is late. -/
def State.lateCheck (s : State) (n : Word) : State :=
  match s.cnp.passes.find? (fun p => !p.rolling && p.frame + 1 == n) with
  | none => s
  | some p =>
    let open0 := match Map.find p.bands 0 with
      | some j => !j.composed
      | none => true
    let held := s.guarded p 0
    (s.detectIf (open0 || held) E.CNP_COMPOSE_LATE).detectIf (!open0 && held) E.CNP_GLADE_SUBST_LATE

/-- A code of a code block, for entry 64 * BRANCH + IC and a colour (R209, R214). -/
def Code.byte (c : Code) (k colour : Nat) : Nat :=
  match Map.find c.kept k with
  | some bs => numAt bs colour 1
  | none => codeOfB (match c.table with
      | some t => (t.get (4 * k + colour)).toNat
      | none => bits c.cur (8 * colour) 8) c.i

/-- Entries of the active bank's Driver Current Table that cannot be read (R222). -/
def State.dctBad (s : State) : List Nat :=
  if s.stp.active.ptr 3 = 0 || s.lmBad.isEmpty then []
  else (List.range 8192).filter (fun k => s.lmBadIn (s.stp.active.ptr 3 + 4 * k) 4)

/-- The code block of the frame before. -/
def State.codeBefore (s : State) : Code :=
  match s.lcr.next with
  | c :: _ => c.2
  | [] => s.lcr.code

/-- The code block of the active bank (R214); an entry that cannot be read repeats the codes of the frame before (R222). -/
def State.codeNow (s : State) : Code :=
  let b := s.stp.active; let old := s.codeBefore
  { i := (splitOf b.dimM b.dimK).1, cur := s.rd F.LCR_CUR_DEF
    table := if b.ptr 3 = 0 then none else some (Store.copy s.lm (b.ptr 3) 32768)
    kept := s.dctBad.map (fun k => (k, (List.range 4).map (fun e => BitVec.ofNat 8 (old.byte k e)))) }

/-- Every band of the live frame buffer holds content for frame `f` or later (R215). -/
def State.allShow (s : State) (f : Word) : Bool :=
  (List.range 16).all (fun b => match Map.find s.cnp.shown b with
    | some g => !later32 f.toNat g.toNat
    | none => false)

/-- Code blocks take effect at a frame start (R215). -/
def State.codesAt (s : State) (n : Word) : State :=
  match s.lcr.next.find? (fun c => s.allShow c.1 || !later32 (c.1 + 2).toNat n.toNat) with
  | none => s
  | some c =>
    let late := !s.allShow c.1
    let s := { s with lcr := { s.lcr with code := c.2, next := s.lcr.next.takeWhile (fun d => d.1 != c.1) } }
    (s.wr F.LCR_CODE_FRAME c.1.toNat).detectIf late E.LCR_CODE_LATE

/-- The split and the code block of a frame (R214).  In a hold state no band receives the frame's content, so its code block never
takes effect and is not kept (R247). -/
def State.splitAt (s : State) (n : Word) : State :=
  let b := s.stp.active; let x := splitOf b.dimM b.dimK
  let s := ((s.wr F.LCR_SPLIT_I x.1).wr F.LCR_SPLIT_S x.2).blockEcc (!s.dctBad.isEmpty) E.LCR_DCT_ECC
  if s.rd F.PAT_HOLD_STAT_STATE = 0 then { s with lcr := { s.lcr with next := (n, s.codeNow) :: s.lcr.next } } else s

/-- A pass of a frame that has just been armed (R178, R202). -/
def State.newPass (s : State) : Pass :=
  { frame := s.frameNow, fs := s.frames.start, rolling := s.on F.CLK_FRM_CFG_ROLL
    bank := { s.unitBank with rws := s.keptRws }, old := false, scale := s.rd F.LCR_SPLIT_S
    bands := [], lost := [], armed := s.rd F.CNP_GLADE_ARMED, verdicts := 0, subst := 0, subd := 0, latched := 0
    meets := match s.placeOf s.unitBank with
      | none => []
      | some pl => (List.range 16).map (fun b => (List.range 16).foldl (fun m g =>
          if bandMeets pl (s.on F.CLK_FRM_CFG_ROLL) b (s.unitBank.glade g) then setBit m g else m) 0) }

/-- UNIT 0x01 on a tile (R178): in Frame mode the judgment of the whole grid; false where it waits (R44). -/
def State.unitCompose (s : State) : Bool × State :=
  let p := s.newPass
  if s.cnp.passes.any (fun q => q.frame == p.frame) then (true, s)
  else if !p.rolling && !s.cnp.passes.isEmpty then (false, s)
  else
    let lead := match s.placeOf p.bank with
      | some pl => if p.rolling then pl.emptyFrom 0 else []
      | none => []
    let s := { s with cnp := { s.cnp with passes := s.cnp.passes ++ [{ p with bands := emptyDone lead [] }]
                                          due := lead.foldl (fun m c => Map.put m c p.frame) s.cnp.due } }
    let s := s.noteBands p.frame lead
    (true, if p.rolling then s else s.judgeBand p 0)

/-- UNIT 0x06 (R202). -/
def State.unitGlade (s : State) : State :=
  if s.stp.walk.valueAt.isSome then s.detect E.CNP_GLADE_UNARMED
  else
    match s.placeOf s.unitBank with
    | none => s
    | some pl =>
      let m := (List.range 16).foldl (fun m g =>
        let r := s.unitBank.glade g
        if gladeEn r && gladeMeets r pl then setBit m g else m) 0
      let ps := s.cnp.passes.map (fun p => if p.frame = s.frameNow then { p with armed := m } else p)
      { s with cnp := { s.cnp with passes := ps } }.wr F.CNP_GLADE_ARMED m

end Sys2Proof.Machine
end

