-- ==== Sys2Proof/Machine/Branch.lean ====
section
/-! DEFINITION. The branch engine: script runs, what they drive and read back, Census, and its opcodes (R223 - R243, R248). -/

namespace Sys2Proof.Machine

/-- The active bank's scripts section, header and groups. -/
def State.scriptHdr (s : State) : Bytes := s.bankBytes s.stp.active 5 0 192
def State.group (s : State) (g : Nat) : Group := Group.parse s.scriptHdr g
def State.prim (s : State) (i : Nat) : Nat := leNat (s.bankBytes s.stp.active 5 ((s.scriptsOf s.stp.active).primOfs + 8 * i) 8)

/-- Enabled groups of the active Stand; none without a Stand. -/
def State.groups (s : State) : List Nat :=
  if s.stp.active.stand.isNone then [] else (List.range 16).filter (fun g => (s.group g).en)

/-- A Return Map entry in Local Memory holds an uncorrectable error (R241). -/
def State.mapEcc (s : State) (b row c : Nat) : Bool :=
  let h := s.scriptsOf s.stp.active
  match s.stp.active.img.find? (fun z => z.typ == 5), s.bankSect s.stp.active 5 with
  | none, some (x, y) => s.lmBadIn (x.base + y.off + h.retOfs + 4 * ((b * h.scan + row) * h.chmax + c)) 4
  | _, _ => false

/-- Return Map entry of a word (R230); one that cannot be read acts as NONE: its word is sent as 0 and no status is written
(R241). -/
def State.retEntry (s : State) (b row c : Nat) : Nat :=
  let h := s.scriptsOf s.stp.active
  if s.mapEcc b row c then 2 ^ 31
  else leNat (s.bankBytes s.stp.active 5 (h.retOfs + 4 * ((b * h.scan + row) * h.chmax + c)) 4)

/-- The band of a block (R230). -/
def State.blockBand (s : State) (pl : Place) (b row : Nat) : Nat :=
  let h := s.scriptsOf s.stp.active
  match ((List.range h.chmax).map (s.retEntry b row)).find? (fun e => !mapNone e) with
  | some e => pl.bandOf (bits e 0 21 / pl.emit / pl.u)
  | none => 0

/-- Address of the frame buffer word a run reads (R231). -/
def State.runAddr (s : State) (pl : Place) (live b row c : Nat) : Nat :=
  let h := s.scriptsOf s.stp.active
  let half := b2n (bit live (s.blockBand pl b row))
  s.fbBase s.stp.active + half * h.half + 2 * ((b * h.scan + row) * h.chmax + c)

/-- The frame buffer word a run sends (R227, R231): 0 where the Return Map names no emitter, the word cannot be read or it came
late (R241). -/
def State.runWord (s : State) (pl : Place) (r : Run) (b row c : Nat) : Nat :=
  let a := s.runAddr pl r.live b row c
  if mapNone (s.retEntry b row c) || s.lmBadIn a 2 || r.dark.contains (b, row, c) then 0 else leNat (s.lmRead a 2)

/-- The CENSUS flag of the emitter a word names (R208, R237). -/
def State.censusFlag (s : State) (b row c : Nat) : Bool :=
  let e := s.retEntry b row c
  !mapNone e && bit (leNat (s.emitEntry s.stp.active (bits e 0 21))) 25

/-- The current code of a driver IC and colour in effect (R209, R214). -/
def State.codeByte (s : State) (b ic colour : Nat) : Nat :=
  s.lcr.code.byte (64 * b + ic) colour

/-- A segment has bit periods that count (R235): a Census-only primitive outside a Census frame idles. -/
def segCounts (census : Bool) (x : Seg) : Bool := primBits x.prim != 0 && (census || !pC x.prim)

/-- The bits of a segment on one branch. -/
def State.segBits (s : State) (pl : Place) (g : Group) (r : Run) (b : Nat) (x : Seg) : List Bool :=
  let h := s.scriptsOf s.stp.active
  let cen := r.census && pC x.prim
  let word := fun row c =>
    if cen then (if s.censusFlag b row c && !r.dark.contains (b, row, c) then 0xFFFF else 0) else s.runWord pl r b row c
  let code := fun ic e => if cen then s.rd F.BRN_CEN_CFG_CODE else s.codeByte b ic e
  (List.range x.n).map (segBit g pl.emit h.chmax word code x)

/-- The play of a run: its segments in order and its length in CK_SCAN cycles; `limit` is where it is cut (R228). -/
def State.playRun (s : State) (g : Nat) (r : Run) (limit : Nat) : List Seg × Nat :=
  let h := s.scriptsOf s.stp.active; let d := (s.group g).div
  let fuel := 2 ^ 40
  let w := play s.prim d r.sub h.scan limit fuel (Walk.at0 r.first 0 [])
  let w := match r.next with
    | some n => if w.ended then play s.prim d r.sub h.scan limit fuel (Walk.at0 n w.time w.segs) else w
    | none => w
  (w.segs.reverse, w.time)

/-- Branches of a group (R222). -/
def branchesOf (g : Nat) : List Nat := (List.range 8).map (· + 8 * g)

/-- The span registers of a branch before its first bit (R235). -/
def spanStart : Word × Word := (0xFFFFFFFF, 0xFFFFFFFF)

/-- Take a run's intended and sampled bits into a branch's span (R235). -/
def State.spanBits (s : State) (b : Nat) (drive sample : List Bool) : State :=
  let c := Map.getD s.brn.spans b spanStart
  { s with brn := { s.brn with spans := Map.put s.brn.spans b (drive.foldl crcBitIn c.1, sample.foldl crcBitIn c.2) } }

/-- Compare a branch's span at its end (R235, R243). -/
def State.compareSpan (s : State) (b : Nat) : State :=
  match Map.find s.brn.spans b with
  | none => s
  | some c =>
    let s := { s with brn := { s.brn with spans := Map.del s.brn.spans b } }
    if s.brn.hiz || s.brn.skip.contains b then s.inc F.BRN_RB_SKIP
    else
      let up := fun (m : Map Nat) => Map.put m b (min (Map.getD m b 0 + 1) (2 ^ 32 - 1))
      let s := { s with brn := { s.brn with compared := up s.brn.compared } }
      if c.1 = c.2 then s
      else
        let f := F.BRN_RB_STICKY (b / 32)
        let s := ((s.raise f (b % 32)).inc F.BRN_RB_FAIL).detect E.BRN_READBACK
        { s with brn := { s.brn with bad := up s.brn.bad } }

/-- Write one Lamp Status Map entry (R238, R239). -/
def State.writeStatus (s : State) (k st : Nat) : State :=
  let a := s.stp.active.ptr 2 + k / 4
  let v := leNat (s.lmRead a 1); let i := 2 * (k % 4); let old := bits v i 2
  let s := s.lmWrite a [BitVec.ofNat 8 (v - old * 2 ^ i + st * 2 ^ i)]
  if (st == 1 || st == 2) && old != st then (s.inc F.BRN_NEW_FAULTS).detect E.BRN_CEN_FAULT else s

/-- One CENSUS read on a branch, from the bits sampled (R238). -/
def State.censusRead (s : State) (pl : Place) (r : Run) (b : Nat) (x : Seg) (bri : List Bool) : State :=
  let p := x.prim; let fmt := bits p 8 2; let w := if fmt = 0 then 2 else 1; let n := pN p
  (List.range n).foldl (fun s c =>
    let e := s.retEntry b x.row c
    if mapNone e then s
    else
      let at0 := w * (if bit p 10 then n - 1 - c else c)
      let k := bits e 0 21
      let lit := if pC p then s.censusFlag b x.row c
        else decide (s.rd F.BRN_CEN_CFG_THRESH ≤ s.runWord pl r b x.row c)
      s.writeStatus k (censusStatus fmt (bri.getD at0 false) (bri.getD (at0 + 1) false) lit)) s

/-- A group's BRI_LAT (R374). -/
def State.briLat (s : State) (g : Nat) : Nat := s.rd ⟨0xD0090 + 4 * (g / 8), 4 * (g % 8), 3, 0⟩

/-- Bit periods after those of a CENSUS primitive at whose ends BRI may still be sampled (R374). -/
def briTail : Nat := 7

/-- The CENSUS reads of a run on a branch: each has the levels on BRI at the ends of its bit periods and of the `briTail` that
follow, and takes those from LAT on (R238, R374). -/
def State.censusReads (s : State) (pl : Place) (r : Run) (b : Nat) (xs : List Seg) (bri : List Bool) : State :=
  match xs with
  | [] => s
  | x :: xs' =>
    if pOp x.prim = 5 && (r.census || !pC x.prim) && x.n == primBits x.prim then
      (s.censusRead pl r b x ((bri.drop r.lat).take x.n)).censusReads pl r b xs' (bri.drop (x.n + briTail))
    else s.censusReads pl r b xs' bri

/-- Sampled or return bits of a branch, where the command gives them. -/
def bitsOf (l : List (Nat × List Bool)) (b : Nat) : Option (List Bool) := (l.find? (fun x => x.1 == b)).map (·.2)

/-- The channels of its block that a SHIFT reads (R227). -/
def Seg.words (x : Seg) (chmax : Nat) : List Nat :=
  if pOp x.prim = 1 && x.n != 0 then
    (match bits x.prim 8 4 with
     | 0 => (List.range chmax).filter (fun c => decide (x.cur / 16 ≤ c) && decide (c ≤ (x.cur + x.n - 1) / 16))
     | 1 => (List.range chmax).filter (fun c => decide (x.cur / 16 ≤ c) && decide (c < x.cur / 16 + x.n))
     | _ => [])
  else []

/-- A run has read an uncorrectable frame buffer word, and an uncorrectable Return Map entry (R241). -/
def State.runEcc (s : State) (pl : Place) (g : Nat) (r : Run) (xs : List Seg) : Bool × Bool :=
  if s.lmBad.isEmpty then (false, false)
  else
    let h := s.scriptsOf s.stp.active
    let hit := fun f : Nat → Nat → Nat → Bool => (branchesOf g).any (fun b => (xs.filter (segCounts r.census)).any (fun x =>
      (x.words h.chmax).any (f b x.row)))
    (hit (fun b row c => !mapNone (s.retEntry b row c) && s.lmBadIn (s.runAddr pl r.live b row c) 2), hit s.mapEcc)

/-- What a run puts on the pins of its group, its stretches in order (R224, R232). -/
def State.runPins (s : State) (pl : Place) (g : Nat) (r : Run) (xs : List Seg) : List Stretch :=
  let grp := s.group g
  xs.map (fun x => segPins grp r.census ((branchesOf g).map (fun b => s.segBits pl grp r b x)) x)

/-- Return bits that the command does not give are free values. -/
def State.anyBits (s : State) (xs : List Seg) : List Bool :=
  (List.range ((xs.map (·.n + briTail)).foldl (· + ·) 0)).map (bit (Config.freeNat s.free))

/-- A run ends, or is cut: its bits join the spans and its reads write status (R235, R238); under EXTEST no comparison is made
(R378). -/
def State.closeRun (s : State) (g : Nat) (r : Run) (limit : Nat) (pads bri : List (Nat × List Bool)) : State :=
  match s.placeOf s.stp.active with
  | none => s
  | some pl =>
    let w := s.playRun g r limit
    let grp := s.group g
    let off := s.pinsOff || s.tap == .extest
    let ecc := s.runEcc pl g r w.1
    let s := (branchesOf g).foldl (fun s b =>
      let drive := (w.1.filter (segCounts r.census)).flatMap (s.segBits pl grp r b)
      let s := if s.rd F.PAT_HOLD_STAT_STATE = 2 then s else s.spanBits b drive ((bitsOf pads b).getD drive)
      if off || !bit grp.ret (b % 8) then s else s.censusReads pl r b w.1 ((bitsOf bri b).getD (s.anyBits w.1))) s.drawn
    let s := if off then s else s.emit (.script g r.start (s.runPins pl g r w.1))
    let s := (s.blockEcc ecc.1 E.BRN_FB_ECC).blockEcc ecc.2 E.BRN_MAP_ECC
    { s with brn := { s.brn with runs := Map.del s.brn.runs g, longest := max s.brn.longest w.2, hiz := s.brn.hiz || off } }

/-- The last run of a Census frame has ended (R238, R243, R244). -/
def State.censusDone (s : State) : State :=
  match s.brn.census with
  | none => s
  | some f =>
    let s := s.wr F.BRN_CEN_FRAME f.toNat
    let ds := s.brn.running; let off := s.brn.hiz
    let s := { s with brn := { s.brn with census := none, running := [] } }
    ds.foldl (fun s d => s.finishAs d 0x80 (if off then 0x802 else stOk) (BitVec.ofNat 64 f.toNat) f none) s

/-- Is a run of the frame's last sub-frame the last of its group (R235)? -/
def State.lastSub (s : State) (r : Run) : Bool := r.sub + 1 == s.refresh

/-- R228: a group's run reaches END. -/
def scriptRunEnd (g : Nat) (pads bri : List (Nat × List Bool)) (s : State) : State :=
  match Map.find s.brn.runs g with
  | none => s
  | some r =>
    if r.cut.isSome then s else
    let t := (s.playRun g r (2 ^ 40)).2
    let s := s.advanceTo (r.start + 8 * t)
    let s := s.closeRun g r (2 ^ 40) pads bri
    if s.lastSub r then
      let s := (branchesOf g).foldl State.compareSpan s
      if s.brn.runs.isEmpty then s.censusDone else s
    else s

def execScriptRunEnd (group : Nat) (pads bri : List (Nat × List Bool)) (s : State) : Host.Outcome State Fault Refusal :=
  onRun s (scriptRunEnd group pads bri)

/-- A run that is cut at the boundary: its pins go low for 8 CK_SCAN cycles, and its group's next run starts after them (R228). -/
def State.overrun (s : State) (g : Nat) : State :=
  let s := { s with brn := { s.brn with overran := g :: s.brn.overran } }
  let s := if s.pinsOff then s else s.emit (.script g s.core [cutPins (s.group g)])
  (s.inc F.BRN_OVERRUN).detect E.BRN_SCRIPT_OVERRUN

/-- At a boundary a run that has reached END by then is over, and one still going is cut (R228). -/
def State.cutRuns (s : State) : State :=
  s.brn.runs.foldl (fun s x =>
    let fin := x.2.start + 8 * (s.playRun x.1 x.2 (2 ^ 40)).2
    match x.2.cut with
    | some c => s.closeRun x.1 x.2 ((c - x.2.start) / 8) [] []
    | none =>
      if fin ≤ s.core then s.closeRun x.1 x.2 (2 ^ 40) [] []
      else (s.closeRun x.1 x.2 ((s.core - x.2.start) / 8) [] []).overrun x.1) s

/-- How the runs of a boundary go: as the sub-frame's, entering or leaving Panel hold, or not at all (R247 - R249). -/
inductive RunMode where
  | normal | enter | leave | none
  deriving DecidableEq, Repr

/-- Start every enabled group's run at a boundary (R228, R231, R248). -/
def State.startRuns (s : State) (sub : Nat) (m : RunMode) : State :=
  let s := s.wr F.BRN_SCRIPT_LEN (min s.brn.longest (2 ^ 24 - 1))
  let s := { s with brn := { s.brn with longest := 0 } }
  match m with
  | .none => { s with brn := { s.brn with overran := [] } }
  | _ =>
    let ph := s.panelHold s.stp.active
    let run := fun g : Nat =>
      let st := (s.group g).start
      let r : Run := { start := s.core + (if s.brn.overran.contains g then 64 else 0), sub := sub, live := s.rd F.BRN_FB_LIVE
                       first := match m, ph with
                         | .enter, some p => p.1
                         | .leave, some p => p.2
                         | _, _ => st
                       next := if m = .leave && ph.isSome then some st else Option.none
                       census := s.brn.census.isSome, cut := Option.none, dark := []
                       lat := s.briLat g }
      (g, r)
    { s with brn := { s.brn with runs := s.groups.foldl (fun l g => Map.put l g (run g).2) s.brn.runs, hiz := s.brn.hiz || s.pinsOff || s.tap == .extest, overran := [] } }

/-- A frame's spans and Census end with it, whatever is left of them (R235, R238). -/
def State.closeSpans (s : State) : State :=
  let s := (s.brn.spans.map (·.1)).foldl State.compareSpan s
  let s := s.censusDone
  { s with brn := { s.brn with spans := [], hiz := false, skip := [] } }

/-- The next frame is a Census frame (R236, R243). -/
def State.censusAt (s : State) (n : Word) : State :=
  let every := (s.entriesOf s.stp.active).any (fun e => e.unit == 7 && e.trig == 4 && n.toNat % e.arg == 0)
  if every || !s.brn.wanted.isEmpty then
    { s with brn := { s.brn with census := some n, running := s.brn.wanted, wanted := [] } }
  else s

/-- CENSUS_RUNs whose frame enters Panel hold find no Census frame (R244, DEDUCED, log entry 191). -/
def State.censusHeld (s : State) : State :=
  let ds := s.brn.wanted
  let s := { s with brn := { s.brn with wanted := [] } }
  ds.foldl (fun s d => s.finish d 0x80 0x803) s

/-- The active scripts hold a C = 1 CENSUS primitive (R244). -/
def State.hasCensus (s : State) : Bool :=
  let h := s.scriptsOf s.stp.active
  s.stp.active.stand.isSome && (List.range h.prims).any (fun i => let p := s.prim i; pOp p == 5 && pC p)

def censusRun (d : Desc) (s : State) : State :=
  if !d.only [] then s.finish d 0x80 stFormat
  else if s.rd F.PAT_HOLD_STAT_STATE = 2 then s.finish d 0x80 0x803
  else if !s.hasCensus then s.finish d 0x80 0x801
  else { (s.starts d) with brn := { s.brn with wanted := s.brn.wanted ++ [d] } }

/-- R243: CENSUS_RUN. -/
def execCensusRun (d : Desc) (s : State) : Host.Outcome State Fault Refusal := onOp s d 0x80 .tile (censusRun d)

def branchStats (d : Desc) (ok : Bool) (s : State) : State :=
  if !d.only [(8, 0, 64)] then s.finish d 0x81 stFormat
  else if d.num 8 8 % 8 != 0 || mbxRefuses d (d.num 8 8) 1024 then s.finish d 0x81 stAddress
  else if !ok && !d.mbx then s.finish d 0x81 stPcie
  else
    let bs := (List.range 128).flatMap (fun b => leBytes 4 (Map.getD s.brn.bad b 0) ++ leBytes 4 (Map.getD s.brn.compared b 0))
    (s.returnTo d (d.num 8 8) bs).finish d 0x81 stOk

/-- R243: BRANCH_STATS. -/
def execBranchStats (d : Desc) (ok : Bool) (s : State) : Host.Outcome State Fault Refusal :=
  onOp s d 0x81 .tile (branchStats d ok)

end Sys2Proof.Machine
end

