-- ==== Sys2Proof/Machine/Trim.lean ====
section
/-! DEFINITION. Trim and memory repair: staging, APPLY, the trim image and MEM_BIST (R321 - R328, R390). -/

namespace Sys2Proof.Machine

/-- Keys of the staged registers: PINp, SENSi and the repair table (R326, R390). -/
def stagedKey (k : Nat) : Bool := decide (32 * 0x130100 ≤ k) && decide (k < 32 * 0x139000)

/-- The staged values that differ from the defaults. -/
def State.staged (s : State) : Map Nat := s.regs.filter (fun x => stagedKey x.1)

/-- STAT.DIRTY and REPAIRS follow the two copies (R329, R390). -/
def State.showTrim (s : State) : State :=
  let n := ((List.range 4096).filter (fun i => bit (s.trimRd (F.TRM_REPAIR_LO i)) 15)).length
  (s.wr F.TRM_STAT_DIRTY (b2n (s.staged != s.trm.inForce))).wr F.TRM_REPAIRS n

/-- The repair records of a copy, low word in bits 31:0. -/
def repairRecs (m : Map Nat) : List Nat :=
  (List.range 4096).map (fun i => Map.getD m (F.TRM_REPAIR_LO i).key 0 + 2 ^ 32 * Map.getD m (F.TRM_REPAIR_HI i).key 0)

/-- Fields of a repair record (R323). -/
def recMem (r : Nat) : Nat := bits r 0 8
def recKind (r : Nat) : Nat := bits r 8 1
def recValid (r : Nat) : Bool := bit r 15
def recSpare (r : Nat) : Nat := bits r 16 16
def recAddr (r : Nat) : Nat := bits r 32 24

/-- Spares of an instance (R323). -/
def spares (mem kind : Nat) : Nat := if mem < 32 then (if kind = 0 then 64 else 16) else if kind = 0 then 4 else 2

/-- Reserved bits of a record are 0 (R323). -/
def recClean (r : Nat) : Bool := bits r 9 6 == 0 && bits r 56 8 == 0

/-- No two records of a list agree on a key. -/
def distinctBy (key : Nat → Nat) (l : List Nat) : Bool :=
  match l with
  | [] => true
  | r :: t => !t.any (fun x => key x == key r) && distinctBy key t

/-- A set of records is lawful (R323, R390). -/
def repairsOk (l : List Nat) : Bool :=
  let v := l.filter recValid
  l.all recClean && v.all (fun r => decide (recSpare r < spares (recMem r) (recKind r))) &&
    distinctBy (fun r => recMem r + 256 * recKind r + 512 * recSpare r) v &&
    distinctBy (fun r => recMem r + 256 * recKind r + 512 * recAddr r) v

/-- An APPLY begins (R326): the set of repair records is judged first (R390). -/
def State.applyTrim (s : State) (whenLatch : Bool) (d : Option Desc) : State :=
  { (s.wr F.TRM_STAT_PENDING 1) with trm := { s.trm with going := some (whenLatch, d), armed := false } }

/-- R326: TRM.APPLY.GO. -/
def trimApply (s : State) : State :=
  if s.trm.going.isSome then s.detect E.TRM_STAGE_BUSY
  else if !repairsOk (repairRecs s.staged) then s.detect E.TRM_TRIM_REJECT
  else s.applyTrim (s.on F.TRM_APPLY_WHEN) none

def execTrimApply (s : State) : Host.Outcome State Fault Refusal := onLive s trimApply

/-- Pads whose values differ between the two copies (R321). -/
def State.padsChanged (s : State) : List Nat :=
  (List.range 176).filter (fun p =>
    s.rd (F.TRM_PIN_DELAY p) != s.trimRd (F.TRM_PIN_DELAY p) || s.rd (F.TRM_PIN_SEG_EN p) != s.trimRd (F.TRM_PIN_SEG_EN p))

/-- The group a pad belongs to (R321). -/
def padGroup (p : Nat) : Nat := if p < 128 then p / 8 else p % 16

/-- Pad changes on one edge reach groups that drive: no comparison for the frame on their branches (R327). -/
def State.skipChanged (s : State) : State :=
  if s.isHead || s.pinsOff then s
  else
    let gs := s.groups.filter (fun g => s.padsChanged.any (fun p => padGroup p == g))
    { s with brn := { s.brn with skip := gs.flatMap branchesOf ++ s.brn.skip } }

/-- The content of Local Memory outside the Ranger private region is destroyed, as far as two free values reach: the manual
gives no addresses for the cells of a channel or a row (R324, R325). -/
def State.wipe (s : State) : State :=
  (s.drawn.drawn.scramble 0 (min (Config.freeNat s.free) 0x1E0000000)).scramble 0x1F0000000
    (min (Config.freeNat (s.free + 1)) 0x10000000)

/-- A repair of a Local Memory channel in force is no longer staged: its original cells hold undefined content (R324). -/
def State.dropsRepair (s : State) : Bool :=
  s.staged != s.trm.inForce &&
    (repairRecs s.trm.inForce).any (fun r => recValid r && decide (recMem r < 32) && !(repairRecs s.staged).contains r)

/-- Every staged value comes into force together (R326), and the TRIM_RESTORE it belongs to completes (R328). -/
def State.trimNow (s : State) (d : Option Desc) : State :=
  let s := if s.dropsRepair then s.wipe else s
  let s := { s with trm := { inForce := s.staged, going := none, armed := false } }
  let s := ((s.wr F.TRM_STAT_PENDING 0).wr F.TRM_APPLY_FRAME s.frameNow.toNat).showTrim
  match d with
  | some d => s.finish d 0xC1 stOk
  | none => s

/-- At a frame latch an APPLY with WHEN = 1 whose copies have run takes effect, before the frame's commit and runs (R326, R327). -/
def State.trimLatch (s : State) : State :=
  match s.trm.going with
  | some (true, d) => if s.trm.armed then s.trimNow d else s
  | _ => s

/-- R326: the repair copies have run: every staged value changes on one edge, or with WHEN = 1 at the next frame latch, which a
frame schedule must give. -/
def trimChange (s : State) : State :=
  match s.trm.going with
  | none => s
  | some (true, _) => { s with trm := { s.trm with armed := true } }
  | some (false, d) => s.skipChanged.trimNow d

def execTrimChange (s : State) : Host.Outcome State Fault Refusal := onLive s trimChange

/-- The registers' words in force, as a trim image holds them (R328). -/
def State.pinWord (s : State) (p : Nat) : Nat := s.trimRd (F.TRM_PIN_DELAY p) + 256 * s.trimRd (F.TRM_PIN_SEG_EN p)
def State.sensWord (s : State) (i : Nat) : Nat :=
  s.trimRd (F.TRM_SENS_REF_A i) + 4 * s.trimRd (F.TRM_SENS_REF_B i) + 256 * s.trimRd (F.TRM_SENS_OFS i)

/-- The trim image of the values in force (R328). -/
def State.trimImage (s : State) : Bytes :=
  let recs := (repairRecs s.trm.inForce).filter recValid
  let head := leBytes 4 0x4D495254 ++ leBytes 2 1 ++ leBytes 2 recs.length ++ leBytes 16 s.fuses.unitId.toNat
  let tail := List.replicate 36 0 ++ (List.range 176).flatMap (fun p => leBytes 4 (s.pinWord p)) ++
    (List.range 16).flatMap (fun i => leBytes 4 (s.sensWord i)) ++ recs.flatMap (leBytes 8)
  head ++ leBytes 4 (crc32c (head ++ leBytes 4 0 ++ tail)).toNat ++ tail

def trimSave (d : Desc) (ok : Bool) (s : State) : State :=
  let img := s.trimImage
  if !d.only [(8, 0, 64), (16, 0, 32)] then s.finish d 0xC0 stFormat
  else if d.num 8 8 % 64 != 0 || d.num 16 4 < img.length || mbxRefuses d (d.num 8 8) img.length then s.finish d 0xC0 stAddress
  else if !ok && !d.mbx then s.finish d 0xC0 stPcie
  else (s.returnTo d (d.num 8 8) img).finish d 0xC0 stOk img.length

/-- R328: TRIM_SAVE. -/
def execTrimSave (d : Desc) (ok : Bool) (s : State) : Host.Outcome State Fault Refusal := onOp s d 0xC0 .both (trimSave d ok)

/-- Segments enabled by a SEG_EN value. -/
def segCount (v : Nat) : Nat := ((List.range 12).filter (bit v)).length

/-- A PINp word and a SENSi word are lawful (R321, R322). -/
def pinOk (v : Nat) : Bool := bits v 5 3 == 0 && bits v 20 12 == 0 && decide (4 ≤ segCount (bits v 8 12)) && decide (segCount (bits v 8 12) ≤ 8)
def sensOk (v : Nat) : Bool := bits v 4 4 == 0 && bits v 16 16 == 0 && bits v 0 2 != 3 && bits v 2 2 != 3 && bits v 0 2 != bits v 2 2

/-- Every check of a trim image but its UNIT_ID (R328). -/
def imageOk (b : Bytes) : Bool :=
  let n := numAt b 6 2; let len := 832 + 8 * n
  numAt b 0 4 == 0x4D495254 && numAt b 4 2 == 1 && decide (n ≤ 4096) && decide (len ≤ b.length) && zeroAt b 28 36 &&
    numAt b 24 4 == (crc32c (blank (b.take len) 24 4)).toNat && (List.range 176).all (fun p => pinOk (numAt b (64 + 4 * p) 4)) &&
    (List.range 16).all (fun i => sensOk (numAt b (768 + 4 * i) 4)) &&
    repairsOk ((List.range n).map (fun i => numAt b (832 + 8 * i) 8))

/-- Stage an image: it replaces the whole staged state (R328). -/
def State.stageImage (s : State) (b : Bytes) : State :=
  let s := { s with regs := s.regs.filter (fun x => !stagedKey x.1) }
  let s := (List.range 176).foldl (fun s p =>
    let v := numAt b (64 + 4 * p) 4
    (s.wr (F.TRM_PIN_DELAY p) (bits v 0 5)).wr (F.TRM_PIN_SEG_EN p) (bits v 8 12)) s
  let s := (List.range 16).foldl (fun s i =>
    let v := numAt b (768 + 4 * i) 4
    ((s.wr (F.TRM_SENS_REF_A i) (bits v 0 2)).wr (F.TRM_SENS_REF_B i) (bits v 2 2)).wr (F.TRM_SENS_OFS i) (bits v 8 8)) s
  (List.range (numAt b 6 2)).foldl (fun s i =>
    (s.wr (F.TRM_REPAIR_LO i) (numAt b (832 + 8 * i) 4)).wr (F.TRM_REPAIR_HI i) (numAt b (836 + 8 * i) 4)) s

def trimRestore (d : Desc) (src : HostData) (s : State) : State :=
  let a := d.num 8 8; let n := d.num 16 4
  let src := s.srcBytes d a n src; let b := src.bytes
  if !d.only [(0, 0, 1), (8, 0, 64), (16, 0, 32)] then s.finish d 0xC1 stFormat
  else if mbxRefuses d a n then s.finish d 0xC1 stAddress
  else if s.trm.going.isSome then s.finish d 0xC1 0xC04
  else if s.srcBad d a n then s.lmUncorr.finish d 0xC1 stEcc
  else if !src.ok then s.finish d 0xC1 stPcie
  else if numAt b 8 16 != s.fuses.unitId.toNat then s.finish d 0xC1 0xC01
  else if !imageOk b then s.finish d 0xC1 0xC02
  else ((s.starts d).stageImage b).showTrim.applyTrim (d.flag 0 0) (some d)

/-- R328: TRIM_RESTORE; it completes when its values come into force. -/
def execTrimRestore (d : Desc) (src : HostData) (s : State) : Host.Outcome State Fault Refusal :=
  onOp s d 0xC1 .both (trimRestore d src)

/-- MEM_BIST may not run now (R325). -/
def State.bistBusy (s : State) : Bool := !s.stp.stands.isEmpty || s.on F.CLK_FRM_CTRL_RUN || s.on F.AUD_CTRL_RUN

def memBist (d : Desc) (results : List BistResult) (ok : Bool) (s : State) : State :=
  let first := d.num 0 1; let last := d.num 1 1; let mx := d.num 16 2
  if !d.only [(0, 0, 8), (1, 0, 8), (8, 0, 64), (16, 0, 16)] || last < first then s.finish d 0xC2 stFormat
  else if d.num 8 8 % 8 != 0 || mbxRefuses d (d.num 8 8) (8 * mx) then s.finish d 0xC2 stAddress
  else if s.bistBusy then s.finish d 0xC2 0xC03
  else
    let rs := results.take (last + 1 - first)
    let recs := (rs.flatMap (fun r => r.records)).take mx
    let beyond := rs.any (fun r => r.beyond)
    let s := if first < 32 then s.wipe else s
    let s := s.detectIf beyond E.TRM_BIST_FAIL
    if !ok && !d.mbx then s.finish d 0xC2 stPcie
    else
      let s := if recs.isEmpty then s else s.returnTo d (d.num 8 8) (recs.flatMap (fun r => leBytes 8 r.toNat))
      s.finish d 0xC2 stOk (recs.length + 65536 * b2n beyond)

/-- R325: MEM_BIST. -/
def execMemBist (d : Desc) (results : List BistResult) (ok : Bool) (s : State) : Host.Outcome State Fault Refusal :=
  onOp s d 0xC2 .both (memBist d results ok)

end Sys2Proof.Machine
end

