-- ==== Sys2Proof/Machine/Tile.lean ====
section
/-! DEFINITION. A tile's frame starts and sub-frames, the dispatch of its step table, hold states and standalone timing
(R31, R43, R44, R121, R122, R246 - R255). -/

namespace Sys2Proof.Machine

/-- The state of R246 in force. -/
def State.holdState (s : State) : Nat := s.rd F.PAT_HOLD_STAT_STATE

/-- A hold state comes into force (R246). -/
def State.setHold (s : State) (v : Nat) (n : Word) : State := (s.wr F.PAT_HOLD_STAT_STATE v).wr F.PAT_HOLD_FRAME n.toNat

/-- PENDING shows that a HOLD_SET waits (R257). -/
def State.showPending (s : State) : State := s.wr F.PAT_HOLD_STAT_PENDING (b2n !s.hold.want.isEmpty)

/-- The Panel hold of R248 is lawful: every enabled group in Grey mode, and both scripts named. -/
def State.mayPanel (s : State) : Bool :=
  s.stp.active.stand.isSome && s.groups.all (fun g => !(s.group g).plane) && (s.panelHold s.stp.active).isSome

/-- HOLD_SETs that are due at a frame latch take effect (R246): Night never, in Night nothing changes, and a Panel
hold that the Stand of that frame no longer allows is refused (log entry 102). -/
def State.holdAt (s : State) (n : Word) : State :=
  let due := s.hold.want.filter (fun w => w.1 != 3 && decide (w.2.2 + trailCycle ≤ s.core))
  let s := { s with hold := { s.hold with want := s.hold.want.filter (fun w => w.1 == 3 || decide (s.core < w.2.2 + trailCycle)) } }
  (due.foldl (fun s w =>
    let old := s.holdState
    if w.1 = 2 && old != 2 && old != 3 && !s.mayPanel then s.finishAs w.2.1 0x88 0x881 0 n none
    else
      let s := if old = 3 || old = w.1 then s else s.setHold w.1 n
      s.finishAs w.2.1 0x88 stOk (BitVec.ofNat 64 old) n none) s).showPending

/-- The runs of a frame start, from the hold states before and after it (R247 - R249). -/
def runMode (old new : Nat) : RunMode :=
  if new = 3 then .none
  else if new = 2 then (if old = 2 then .none else .enter)
  else if old = 2 then .leave
  else .normal

/-- The entries of the active step table that a frame latch arms (R43). -/
def State.arm (s : State) : State :=
  { s with stp := { s.stp with
      armed := ((enumerate (s.entriesOf s.stp.active)).filter (fun e => e.2.unit != 0)).map (·.1)
      walk := { Stepping.fresh with subAt := [s.core] } } }

/-- A refresh sub-frame boundary of the frame in progress: trigger 1 (R43). -/
def State.noteSub (s : State) : State :=
  { s with stp := { s.stp with walk := { s.stp.walk with subAt := s.stp.walk.subAt ++ [s.core] } } }

/-- The engines' work at a tile's frame start: bands, commits, hold states, Census and runs (R35, R37, R54, R215, R228,
R246). -/
def State.tileWork (s : State) (n : Word) : State :=
  let s := { s with stp := { s.stp with prev := s.stp.active } }.cutRuns.closeSpans
  let s := (s.lateCheck n).swapBands true
  let s := s.codesAt n
  let s := s.commitsAt n
  let s := s.wr F.CNP_GLADE_ARMED 0
  let old := s.holdState
  let s := s.holdAt n
  let s := s.splitAt n
  let s := s.arm
  let m := runMode old s.holdState
  let s := if m = .enter then s.censusHeld else if m = .none then s else s.censusAt n
  let s := if s.hold.waking && s.on F.GLB_FEED_STAT_LOCK && !s.cnp.shown.isEmpty then { s with hold := { s.hold with waking := false } } else s
  s.startRuns 0 m

/-- A tile's frame starts now (R31): its number and the length of the frame that ends, then the engines' work unless a thermal
shutdown has stopped them. -/
def State.tileFrame (s : State) (n : Word) : State :=
  let len := if s.frames.nominal || !s.frames.begun then ticksToCycles (frameTicks s.rate) else s.core - s.frames.start
  let s := ((s.wr F.CLK_FRM_LEN len).wr F.CLK_FRM_NOW n.toNat).settlePvw.trimLatch
  let s := { s with frames := { s.frames with start := s.core, begun := true, len := len, nominal := false, sub := 0, next := n + 1 } }
  if s.care.shut then s else s.tileWork n

/-- R121, R123 at a frame start: the applied D of each feeder moves, and a jump of the preferred one costs the lock. -/
def State.applyDs (s : State) : State :=
  let p := s.pref
  let r0 := s.applyD 0; let r1 := r0.2.applyD 1
  let s := r1.2
  { s with frames := { s.frames with jumped := (p == some 0 && r0.1) || (p == some 1 && r1.1) } }

/-- A frame start that would leave the frame in progress shorter than P / 2 (R31). -/
def State.tooShort (s : State) (cycle : Nat) : Bool :=
  s.frames.begun && decide (2 * (cycle - s.frames.start) * 36864000 < frameTicks s.rate * 103125)

/-- R31, R122: a tile on a wall latches an announced frame start. -/
def frameLatch (s : State) : State :=
  match s.frames.latch with
  | none => s
  | some (cycle, n) =>
    if s.isHead then s
    else
      let s := { (s.advanceTo cycle) with frames := { s.frames with latch := none } }
      if s.tooShort cycle then s else s.applyDs.lockUpdate.tileFrame n

def execFrameLatch (s : State) : Host.Outcome State Fault Refusal := onLive s frameLatch

/-- The cycle of the next refresh sub-frame boundary (R31). -/
def State.subCycle (s : State) : Nat :=
  s.frames.start + (s.frames.sub + 1) * s.frames.len / s.refresh

/-- R31, R35, R228: a refresh sub-frame boundary. -/
def subframeBoundary (s : State) : State :=
  let at0 := s.subCycle
  let blocked := match s.frames.latch with
    | some (c, _) => decide (c ≤ at0) && !s.tooShort c
    | none => false
  if s.isHead || !s.frames.begun || s.refresh ≤ s.frames.sub + 1 || blocked then s
  else
    let s := s.advanceTo at0
    let s := { s with frames := { s.frames with sub := s.frames.sub + 1 } }
    if s.care.shut then s else
    let s := (s.noteSub.cutRuns).swapBands false
    s.startRuns s.frames.sub (if s.holdState = 2 || s.holdState = 3 then .none else .normal)

def execSubframeBoundary (s : State) : Host.Outcome State Fault Refusal := onLive s subframeBoundary

/-- The tile runs standalone on FSYNC_IN (R254). -/
def State.onFsync (s : State) : Bool :=
  s.isTile && s.on F.CLK_FRM_CTRL_RUN && s.on F.PAT_SA_CFG_FSYNC

/-- The number of the next standalone frame (R254). -/
def State.takeZero (s : State) : Word × State :=
  if s.hold.zero then (BitVec.ofNat 32 (s.rd F.PAT_SA_ZERO), { s with hold := { s.hold with zero := false } })
  else (if s.frames.begun then s.frameNow + 1 else s.frameNow, s)

/-- R31: a tile without announced frame starts lays its frames down at its last C; under FSYNC, once no edge has come by 3P/2, at
P (R254, log entry 101). -/
def freeRunFrameStart (s : State) : State :=
  let fsync := s.onFsync
  if s.isHead || !s.frames.begun || s.frames.latch.isSome || (s.schedules && !fsync) ||
      (fsync && s.on F.PAT_SA_STAT_FSYNC_LOCK) then s
  else
    let c := if fsync then ticksToCycles (frameTicks s.rate) else s.frames.len
    let s := s.advanceTo (s.frames.start + c)
    let s := if fsync then (s.inc F.PAT_FSYNC_MISS).wr F.PAT_SA_STAT_FSYNC_LOCK 0 else s
    let r := if fsync then s.takeZero else (s.frameNow + 1, s)
    let s := (r.2.tileFrame r.1).lockUpdate
    { s with frames := { s.frames with len := c } }

def execFreeRunFrameStart (s : State) : Host.Outcome State Fault Refusal := onLive s freeRunFrameStart

/-- R254: an edge on FSYNC_IN. -/
def fsyncEdge (rising : Bool) (s : State) : State :=
  if !s.onFsync || rising == s.on F.PAT_SA_CFG_POL then s
  else if s.tooShort s.core then (s.inc F.PAT_FSYNC_EARLY).detect E.PAT_FSYNC_EARLY
  else
    let r := (s.advance 64).takeZero
    (r.2.wr F.PAT_SA_STAT_FSYNC_LOCK 1).tileFrame r.1

def execFsyncEdge (rising : Bool) (s : State) : Host.Outcome State Fault Refusal := onLive s (fsyncEdge rising)

/-- R254: no edge by 3P/2: a frame starts on the grid of P. -/
def fsyncLost (s : State) : State :=
  if !s.onFsync || !s.frames.begun then s
  else
    let p := ticksToCycles (frameTicks s.rate); let grid := s.frames.start + p
    let s := s.advanceTo (s.frames.start + 3 * p / 2)
    let r := s.takeZero
    let s := ((r.2.inc F.PAT_FSYNC_MISS).wr F.PAT_SA_STAT_FSYNC_LOCK 0).detect E.PAT_FSYNC_LOST
    let s := s.tileFrame r.1
    { s with frames := { s.frames with start := grid, len := p } }

def execFsyncLost (s : State) : Host.Outcome State Fault Refusal := onLive s fsyncLost

/-- R254: FSYNC_IN held active for 100 µs. -/
def execFsyncZeroPulse (s : State) : Host.Outcome State Fault Refusal :=
  onLive s (fun s => if s.onFsync then { s with hold := { s.hold with zero := true } } else s)

/-- R255: a Trail port is Active and frame starts are announced: hardware clears RUN. -/
def standaloneExit (s : State) : State :=
  if s.isTile && s.on F.CLK_FRM_CTRL_RUN && s.anyActive && s.frames.latch.isSome then
    s.setRun 0
  else s

def execStandaloneExit (s : State) : Host.Outcome State Fault Refusal := onLive s standaloneExit

/-- Both Trail ports are Dormant. -/
def State.bothDormant (s : State) : Bool := s.lst 0 == 7 && s.lst 1 == 7

/-- The tile leaves Night for Run; its pins wait (R249). -/
def State.leaveNight (s : State) : State :=
  if s.holdState = 3 then
    { (s.setHold 0 s.frameNow) with hold := { s.hold with byHost := false, waking := true } }
  else s

def holdSet (d : Desc) (s : State) : State :=
  let v := d.num 0 1
  if !d.only [(0, 0, 8)] || 3 < v then s.finish d 0x88 stFormat
  else if v = 3 && d.mbx then s.finish d 0x88 0x882
  else if (v = 1 || v = 2) && s.holdState = 3 then s.finish d 0x88 0x883
  else if v = 2 && !s.mayPanel then s.finish d 0x88 0x881
  else if v = 0 && s.holdState = 3 && s.hold.byHost then
    ((dormantClear 1 (dormantClear 0 s)).leaveNight).finish d 0x88 stOk 3
  else
    let s := { (s.starts d) with hold := { s.hold with want := s.hold.want ++ [(v, d, s.fetchedAt d)] } }
    let s := if v = 3 then dormantEnter 1 (dormantEnter 0 s) else s
    s.showPending

/-- R246 - R249, R255: HOLD_SET. -/
def execHoldSet (d : Desc) (s : State) : Host.Outcome State Fault Refusal := onOp s d 0x88 .tile (holdSet d)

/-- R249: both ports are Dormant and the tile enters Night. -/
def nightEntry (s : State) : State :=
  let asked := s.hold.want.filter (fun w => w.1 == 3)
  if s.isHead || !s.bothDormant || (asked.isEmpty && (s.holdState == 3 || !s.on F.PAT_HOLD_CFG_AUTO_NIGHT)) then s
  else
    let prev := s.holdState
    let s := (s.setHold 3 s.frameNow).holdover
    let s := { s with
      hold := { s.hold with want := s.hold.want.filter (fun w => w.1 != 3), byHost := !asked.isEmpty, waking := false }
      brn := { s.brn with runs := [], spans := [], hiz := true }
      cnp := { s.cnp with passes := [], queue := [], due := [], shown := [] }
      stp := { s.stp with armed := [] } }
    let s := (s.detectIf asked.isEmpty E.PAT_NIGHT_AUTO).retireIfDone.linkCycles
    (asked.foldl (fun s w => s.finish w.2.1 0x88 stOk prev) s).showPending

def execNightEntry (s : State) : Host.Outcome State Fault Refusal := onLive s nightEntry

/-- R93, R249: a port enters Active; a tile that entered Night by itself leaves it. -/
def execPortActive (port : Nat) (s : State) : Host.Outcome State Fault Refusal :=
  onLive s (onPort port (fun s =>
    let s := portActive port s
    if s.portActive port && s.isTile && !s.hold.byHost then s.leaveNight else s))

/-- R97: PEER_SLEEP. -/
def execPeerSleep (port : Nat) (s : State) : Host.Outcome State Fault Refusal := onLive s (onPort port (peerSleep port))

/-- UNIT 0x05: the engines' times for the frame (R250, R257). -/
def State.unitPattern (s : State) : State :=
  let p := s.unitBank.pats; let n := s.frameNow.toNat
  let s := (List.range 8).foldl (fun s e => s.wr (F.PAT_TIME e) (patTime (engine p e) n)) s
  let off := s.patOffAt s.frameNow
  s.wr F.PAT_ENG_ON ((List.range 8).foldl (fun m e => if patOn (engine p e) && !bit off e then setBit m e else m) 0)

/-- Units a hold state skips (R247 - R249). -/
def skipped (hold unit : Nat) : Bool := hold == 3 || (hold != 0 && [1, 2, 5, 6, 8].contains unit)

/-- The CK_CORE cycle at which the trigger of an armed entry fired, if it has (R43): the next sub-frame an entry of every
sub-frame has not been dispatched for; for the entry of UNIT 0x02 the first value of the composition (R213). -/
def State.trigAt (s : State) (i : Nat) (e : Entry) : Option Nat :=
  let w := s.stp.walk
  match e.trig with
  | 0 => some s.frames.start
  | 1 => w.subAt[if e.arg = 0xFFFF then Map.getD w.ran i 0 else e.arg]?
  | 2 => Map.find w.bandAt e.arg
  | 3 => if e.unit = 2 then w.valueAt else Map.find w.doneAt (i - 1)
  | 4 => if s.frameNow.toNat % e.arg = 0 then some s.frames.start else none
  | _ => none

/-- The cycle in which an armed entry is due (R43). -/
def State.dueAt (s : State) (i : Nat) (e : Entry) : Option Nat := (s.trigAt i e).map (· + e.ofs)

end Sys2Proof.Machine
end

