-- ==== Sys2Proof/Machine/Tables.lean ====
section
/-! DEFINITION. The correction-table opcodes, Canopy statistics and host-buffer references (R186, R187, R217 - R221). -/

namespace Sys2Proof.Machine

def stTableInUse : Nat := 0x701
def stTableRange : Nat := 0x702

/-- Bytes of an entry of a table: 0 Lamp, 1 Emitter, 2 Driver Current. -/
def entrySize (t : Nat) : Nat := if t = 0 then 20 else 4

/-- A table's extent in entries, with the placement of the active bank (R219). -/
def State.entryCount (s : State) (t : Nat) : Nat :=
  if t = 2 then 8192
  else
    match s.placeOf s.stp.active with
    | some p => if t = 0 then p.lamps else p.lamps * p.emit
    | none => 0

/-- An entry holds no reserved bit that is set (R5, R208). -/
def entryOkBy (t : Nat) (e : Bytes) : Bool := if t = 0 then !lampBad e else if t = 1 then !emitBad e else true

/-- A region overlaps a table that the active or retiring bank or a staged commit names, a local one that waits for its frame
included (R219). -/
def State.tableInUse (s : State) (a n : Nat) : Bool :=
  let loc := if s.stp.commits.any (fun c => c.loc && c.phase == 3) then [s.stp.shadow] else []
  let bs := [s.stp.active] ++ s.stp.retiring.toList ++ (s.stp.staged.map (·.bank)).toList ++ loc
  bs.any (fun b => match s.placeOf b with
    | some p => (tableRanges b p).any (fun r => overlap r.1 r.2 a n)
    | none => false)

/-- A checked TABLE_PATCH that was fetched before waits to write into a region (R220). -/
def State.patchWaits (s : State) (a n : Nat) : Bool :=
  s.lcr.patches.any (fun p => p.recs.any (fun r => overlap r.1 r.2.length a n))

def tableWrite (d : Desc) (src src2 : HostData) (s : State) : State :=
  let t := d.num 0 1; let base := d.num 8 8; let a := d.num 16 8; let first := d.num 24 4; let count := d.num 28 4
  let z := entrySize t; let at0 := base + z * first; let n := z * count
  if !d.only [(0, 0, 8), (8, 0, 64), (16, 0, 64), (24, 0, 32), (28, 0, 32)] || 2 < t then s.finish d 0x70 stFormat
  else if !addrOk base 4096 1 || a % 4 != 0 || mbxRefuses d a n then s.finish d 0x70 stAddress
  else if s.entryCount t < first + count then s.finish d 0x70 stTableRange
  else if !lmOk at0 n then s.finish d 0x70 stAddress
  else if s.tableInUse at0 n then s.finish d 0x70 stTableInUse
  else if s.patchWaits at0 n then s
  else
    let x := s.srcBytes d a n src
    if s.srcBad d a n then s.lmUncorr.finish d 0x70 stEcc
    else if !x.ok then s.finish d 0x70 stPcie
    else
      match (List.range count).find? (fun i => !entryOkBy t ((x.bytes.drop (z * i)).take z)) with
      | some i => s.finish d 0x70 stFormat (first + i)
      | none =>
        let y := s.srcBytes d a n src2
        if d.mbx && !src2.ok then (s.lmUncorr.scramble at0 n).finish d 0x70 stEcc
        else if y.ok then (s.lmWrite at0 y.bytes).finish d 0x70 stOk
        else (s.scramble at0 n).finish d 0x70 stPcie

/-- R217, R219: TABLE_WRITE; `src2` is its second read, of a mailbox descriptor only whether it went without an ECC error. -/
def execTableWrite (d : Desc) (src src2 : HostData) (s : State) : Host.Outcome State Fault Refusal :=
  onOp s d 0x70 .tile (tableWrite d src src2)

/-- The table of a patch record. -/
def recTable (t : Nat) (r : Bytes) : Nat := if t = 3 then bits (numAt r 3 1) 4 2 else t

/-- What is wrong with a patch record (R220): a status, or none. -/
def State.recStatus (s : State) (t : Nat) (r : Bytes) : Option Nat :=
  let k := recTable t r
  if k = 3 then some stFormat
  else if s.entryCount k ≤ numAt r 0 3 then some stTableRange
  else if (if t = 3 then bits (numAt r 3 1) 0 4 != 0 || bits (numAt r 3 1) 6 2 != 0 else numAt r 3 1 != 0) then some stFormat
  else if k != 0 && !zeroAt r 8 16 then some stFormat
  else if !entryOkBy k ((r.drop 4).take (entrySize k)) then some stFormat
  else none

/-- The base a record's table lies at. -/
def patchBase (d : Desc) (k : Nat) : Nat :=
  if d.num 0 1 = 3 then (match k with
    | 0 => d.num 8 8
    | 1 => d.num 24 8
    | _ => d.num 32 8)
  else d.num 8 8

def tablePatch (d : Desc) (src : HostData) (s : State) : State :=
  let t := d.num 0 1; let n := d.num 1 1; let a := d.num 16 8
  let fields := [(0, 0, 8), (1, 0, 8), (8, 0, 64), (16, 0, 64)] ++ (if t = 3 then [(24, 0, 64), (32, 0, 64)] else [])
  if !d.only fields || 3 < t || n = 0 then s.finish d 0x71 stFormat
  else if a % 8 != 0 || mbxRefuses d a (24 * n) || (t != 3 && !addrOk (d.num 8 8) 4096 1) then s.finish d 0x71 stAddress
  else
    let x := s.srcBytes d a (24 * n) src
    if s.srcBad d a (24 * n) then s.lmUncorr.finish d 0x71 stEcc
    else if !x.ok then s.finish d 0x71 stPcie
    else
      let rs := (List.range n).map (fun i => (x.bytes.drop (24 * i)).take 24)
      match (List.range n).find? (fun i => (s.recStatus t (rs.getD i [])).isSome) with
      | some i => s.finish d 0x71 ((s.recStatus t (rs.getD i [])).getD stFormat) i
      | none =>
        let put := fun r : Bytes =>
          let k := recTable t r
          (patchBase d k + entrySize k * numAt r 0 3, (r.drop 4).take (entrySize k))
        if rs.any (fun r => !addrOk (patchBase d (recTable t r)) 4096 1 || !lmOk (put r).1 (entrySize (recTable t r))) then
          s.finish d 0x71 stAddress
        else { (s.starts d) with lcr := { s.lcr with patches := s.lcr.patches ++ [⟨d, rs.map put, false⟩] } }

/-- R220: TABLE_PATCH; its records are written by PATCH_APPLY. -/
def execTablePatch (d : Desc) (src : HostData) (s : State) : Host.Outcome State Fault Refusal :=
  onOp s d 0x71 .tile (tablePatch d src)

/-- No pass has corrected some of its lamps and not all: the gap after a correction pass (R220). -/
def State.inGap (s : State) : Bool :=
  s.cnp.passes.all (fun p => p.finished || !p.bands.any (fun b => b.2.composed && !b.2.outs.isEmpty))

/-- The first frame whose pass reads what is written now. -/
def State.nextPass (s : State) : Word :=
  match s.cnp.passes with
  | p :: _ => p.frame
  | [] =>
    let waits := s.stp.armed.any (fun i => match (s.entriesOf s.stp.active)[i]? with
      | some e => e.unit == 1
      | none => false)
    if waits then s.frameNow else s.frameNow + 1

/-- R220: the checked patches are written in the gap after the next correction pass. -/
def patchApply (s : State) : State :=
  if !s.inGap then s
  else
    let f := s.nextPass
    let s' := (s.lcr.patches.filter (·.ready)).foldl (fun s p =>
      let s := p.recs.foldl (fun s r => s.lmWrite r.1 r.2) s
      (s.incBy F.LCR_PATCHES p.recs.length).finishAs p.desc 0x71 stOk 0 f none) s
    { s' with lcr := { s'.lcr with patches := s'.lcr.patches.filter (fun p => !p.ready) } }

def execPatchApply (s : State) : Host.Outcome State Fault Refusal := onRun s patchApply

def tableVerify (d : Desc) (s : State) : State :=
  let t := d.num 0 1; let base := d.num 8 8; let first := d.num 24 4; let count := d.num 28 4; let z := entrySize t
  if !d.only [(0, 0, 8), (8, 0, 64), (24, 0, 32), (28, 0, 32)] || 2 < t then s.finish d 0x72 stFormat
  else if !addrOk base 4096 1 then s.finish d 0x72 stAddress
  else if s.entryCount t < first + count then s.finish d 0x72 stTableRange
  else if !lmOk (base + z * first) (z * count) then s.finish d 0x72 stAddress
  else s.readsLm d 0x72 (base + z * first) (z * count) (s.finish d 0x72 stOk (crc32c (s.lmRead (base + z * first) (z * count))).toNat)

/-- R218: TABLE_VERIFY. -/
def execTableVerify (d : Desc) (s : State) : Host.Outcome State Fault Refusal := onOp s d 0x72 .tile (tableVerify d)

def canopyStats (d : Desc) (ok : Bool) (s : State) : State :=
  if !d.only [(8, 0, 64)] then s.finish d 0x61 stFormat
  else if mbxRefuses d (d.num 8 8) 64 then s.finish d 0x61 stAddress
  else if !ok && !d.mbx then s.finish d 0x61 stPcie
  else
    let bs := (List.range 8).flatMap (fun i => leBytes 4 (Map.getD s.cnp.okCount i 0) ++ leBytes 4 (Map.getD s.cnp.missCount i 0))
    (s.returnTo d (d.num 8 8) bs).finish d 0x61 stOk

/-- R187: CANOPY_STATS. -/
def execCanopyStats (d : Desc) (ok : Bool) (s : State) : Host.Outcome State Fault Refusal :=
  onOp s d 0x61 .both (canopyStats d ok)

/-- R186: the release completion of the oldest reference that has ended; a full CQ makes it wait. -/
def referenceRelease (ok : Bool) (s : State) : State :=
  match s.cnp.refs.find? s.ended with
  | none => s
  | some r =>
    let e := cplBytes 0 (BitVec.ofNat 32 s.ns) r.lastF (BitVec.ofNat 64 (r.rtag + 2 ^ 32 * r.source)) 0 0 0x17 true none 0
    match s.postsTo (s.rd F.CNP_REL_CFG_CQ) with
    | none => s.detect E.CNP_REL_WAIT
    | some c =>
      if !ok then s.haltCq (s.rd F.CNP_REL_CFG_CQ) c
      else
        let t := s.postEntry (s.rd F.CNP_REL_CFG_CQ) c e
        { t with cnp := { t.cnp with refs := t.cnp.refs.erase r } }

def execReferenceRelease (ok : Bool) (s : State) : Host.Outcome State Fault Refusal :=
  onLive s (fun s => if s.isHead then referenceRelease ok s else s)

end Sys2Proof.Machine
end

