-- ==== Sys2Proof/Machine/NetOps.lean ====
section
/-! DEFINITION. The ingest and preview opcodes, SYNC read-outs and host-layer fetches (R127 - R129, R134, R135, R139 - R145,
R185). -/

namespace Sys2Proof.Machine

/-- A flow entry is lawful (R127). -/
def flowLawful (e : Bytes) : Bool :=
  let b := numAt e 16 1; let k := flowKind e; let t := flowTarget e
  bits (numAt e 14 2) 13 3 == 0 && bits b 5 3 == 0 && bits b 3 2 != 3 && zeroAt e 20 12 && decide (1 ≤ k) && decide (k ≤ 5) &&
    (!bit b 2 || k == 1 || k == 2) && (!bit (numAt e 19 1) 7 || k == 1 || k == 2) &&
    (k != 1 || decide (t ≤ 15)) && (k != 4 || decide (t ≤ 31))

/-- The other legs of an entry's protection group (R128). -/
def otherLegs (l : Map Bytes) (i : Nat) (e : Bytes) : List Bytes :=
  if flowKind e = 1 || flowKind e = 2 then
    (l.filter (fun x => x.1 != i && flowValid x.2 && flowKind x.2 == flowKind e && flowTarget x.2 == flowTarget e)).map (·.2)
  else []

def flowSet (d : Desc) (s : State) : State :=
  let i := d.num 0 2; let e := d.bytes 16 32
  if !d.only [(0, 0, 16), (16, 0, 256)] || 4095 < i || !flowLawful e then s.finish d 0x40 stFormat
  else
    let legs := if flowValid e then otherLegs s.net.flows i e else []
    if 2 ≤ legs.length || legs.any (fun x => bits (numAt x 16 1) 3 2 == bits (numAt e 16 1) 3 2 && numAt x 0 4 == numAt e 0 4) then
      s.finish d 0x40 0x401
    else { s with net := { s.net with flows := Map.put s.net.flows i e } }.finish d 0x40 stOk

/-- R127, R128: FLOW_SET. -/
def execFlowSet (d : Desc) (s : State) : Host.Outcome State Fault Refusal := onOp s d 0x40 .head (flowSet d)

def flowClear (d : Desc) (s : State) : State :=
  let i := d.num 0 2
  if !d.only [(0, 0, 16)] || 4095 < i then s.finish d 0x41 stFormat
  else { s with net := { s.net with flows := Map.del s.net.flows i } }.finish d 0x41 stOk

/-- R127: FLOW_CLEAR. -/
def execFlowClear (d : Desc) (s : State) : Host.Outcome State Fault Refusal := onOp s d 0x41 .head (flowClear d)

/-- A layer record of a bank names a source (R129): an enabled one does (log entry 31). -/
def Bank.namesSource (b : Bank) (k : Nat) : Bool :=
  (List.range 8).any (fun i => let l := tblLayer b.layers i; l.en && l.source == k)

def sourceSet (d : Desc) (s : State) : State :=
  let k := d.num 0 1; let kind := d.num 1 1; let smp := d.bitsAt 2 0 4; let dep := d.bitsAt 2 4 2
  let w := d.num 4 2; let h := d.num 6 2; let sp := d.bitsAt 8 0 4; let win := d.num 10 2
  if !d.only [(0, 0, 4), (1, 0, 8), (2, 0, 6), (3, 0, 1), (4, 0, 16), (6, 0, 16), (8, 0, 4), (10, 0, 16)] || 2 < kind then
    s.finish d 0x42 stFormat
  else if (w < 1 || 7680 < w || h < 1 || 4320 < h || sp < 8 || win < 1 || 4000 < win || (smp == 0 && w % 2 == 1)) then
    s.finish d 0x42 stFormat
  else if s.banks.any (fun b => b.namesSource k) then s.finish d 0x42 0x402
  else if !fmtCombo smp dep || (smp == 3 && kind != 2) then s.finish d 0x42 0x403
  else ((s.setSource k (.fresh (d.bytes 0 12))).showSrc k false).finish d 0x42 stOk

/-- R129: SOURCE_SET. -/
def execSourceSet (d : Desc) (s : State) : Host.Outcome State Fault Refusal := onOp s d 0x42 .head (sourceSet d)

def rxPost (d : Desc) (s : State) : State :=
  let n := d.num 8 2
  if !d.only [(0, 0, 64), (8, 0, 16)] || n < 2048 || 9216 < n then s.finish d 0x43 stFormat
  else if d.num 0 8 % 64 != 0 then s.finish d 0x43 stAddress
  else { (s.starts d) with net := { s.net with rx := s.net.rx ++ [d] } }

/-- R145: RX_POST; it completes when a frame fills its buffer. -/
def execRxPost (d : Desc) (s : State) : Host.Outcome State Fault Refusal := onOp s d 0x43 .head (rxPost d)

def flowStats (d : Desc) (ok : Bool) (s : State) : State :=
  if !d.only [(0, 0, 16), (8, 0, 64)] || 4095 < d.num 0 2 then s.finish d 0x45 stFormat
  else if !ok then s.finish d 0x45 stPcie
  else
    let c := s.flowCount (d.num 0 2)
    let bs := [c.taken, c.dup, c.late, c.fmt, c.frames, c.repeats, c.drops, c.diffNs].flatMap (leBytes 8)
    (s.emit (.hostWrite (d.num 8 8) bs)).finish d 0x45 stOk

/-- R145: FLOW_STATS. -/
def execFlowStats (d : Desc) (ok : Bool) (s : State) : Host.Outcome State Fault Refusal := onOp s d 0x45 .head (flowStats d ok)

def sacnMap (d : Desc) (s : State) : State :=
  let e := d.num 0 1; let slot := d.num 2 2; let t := d.num 5 1
  let fields := [(0, 0, 8), (1, 0, 8), (2, 0, 16), (4, 0, 1), (5, 0, 8)] ++ (if t = 2 then [(6, 0, 8), (7, 0, 8)] else [])
  if !d.only fields || 63 < e || 3 < t || (t != 0 && (31 < d.num 1 1 || slot < 1 || 512 < slot)) || (t == 3 && d.flag 4 0) ||
      (t == 2 && (7 < d.num 6 1 || 7 < d.num 7 1)) then s.finish d 0x46 stFormat
  else
    let m := if t = 0 then Map.del s.net.smap e else Map.put s.net.smap e (d.bytes 1 7)
    { s with net := { s.net with smap := m } }.finish d 0x46 stOk

/-- R139, R251: SACN_MAP. -/
def execSacnMap (d : Desc) (s : State) : Host.Outcome State Fault Refusal := onOp s d 0x46 .head (sacnMap d)

def sacnCue (d : Desc) (s : State) : State :=
  if !d.only [(0, 0, 8), (8, 0, 64)] || d.num 0 1 = 0 then s.finish d 0x47 stFormat
  else { s with net := { s.net with cues := Map.put s.net.cues (d.num 0 1) (BitVec.ofNat 64 (d.num 8 8)) } }.finish d 0x47 stOk

/-- R140: SACN_CUE. -/
def execSacnCue (d : Desc) (s : State) : Host.Outcome State Fault Refusal := onOp s d 0x47 .head (sacnCue d)

/-- Bytes of one confidence ring frame, and of one truth image (R145). -/
def ringFrame (f : Fmt) : Nat := ceilDiv (ceilDiv f.lineBytes 64 * 64 * f.height) 4096 * 4096
def truthImage (w h : Nat) : Nat := ceilDiv (w * h * 3) 4096 * 4096

/-- The confidence preview's format and size. -/
def pvwFmt (o : Bytes) : Fmt := ⟨bits (numAt o 6 1) 0 4, bits (numAt o 6 1) 4 2, true, numAt o 2 2, numAt o 4 2⟩

/-- Set a preview, from the next frame start on (R145; log entry 186). -/
def State.setPvw (s : State) (d : Desc) : State :=
  { s with net := { s.net with pvwSet := Map.put s.net.pvwSet (d.num 0 1) (d.bytes 0 17) } }.finish d 0x48 stOk

def previewSet (d : Desc) (s : State) : State :=
  let t := d.num 0 1; let w := d.num 2 2; let h := d.num 4 2; let flow := d.num 7 1
  if t = 0 && s.isHead then
    let f := pvwFmt (d.bytes 0 17)
    if !d.only [(0, 0, 8), (2, 0, 16), (4, 0, 16), (6, 0, 6), (7, 0, 8), (8, 0, 64), (16, 0, 1)] || w < 1 || 3840 < w || h < 1 ||
        2160 < h || !fmtCombo f.sampling f.depth || f.sampling = 3 || (63 < flow && flow != 255) then s.finish d 0x48 stFormat
    else if !addrOk (d.num 8 8) 4096 (2 * ringFrame f) then s.finish d 0x48 stAddress
    else if flow != 255 && (Map.find s.net.txflows flow).isNone then s.finish d 0x48 0x404
    else s.setPvw d
  else if t = 1 && s.isHead then
    if !d.only [(0, 0, 8), (2, 0, 16), (4, 0, 16), (8, 0, 64), (16, 0, 1)] || w < 1 || h < 1 then s.finish d 0x48 stFormat
    else if !addrOk (d.num 8 8) 4096 (2 * truthImage w h) then s.finish d 0x48 stAddress
    else s.setPvw d
  else if t = 2 && s.isTile then
    if d.only [(0, 0, 8), (2, 0, 2), (16, 0, 1)] then s.setPvw d else s.finish d 0x48 stFormat
  else s.finish d 0x48 stFormat

/-- R145: PREVIEW_SET. -/
def execPreviewSet (d : Desc) (s : State) : Host.Outcome State Fault Refusal := onOp s d 0x48 .both (previewSet d)

def txflowSet (d : Desc) (s : State) : State :=
  let k := d.num 1 1
  if !d.only [(0, 0, 8), (1, 0, 8), (2, 0, 4), (3, 0, 8), (4, 0, 48), (10, 0, 12), (11, 5, 3), (12, 0, 32), (16, 0, 16), (18, 0, 16),
      (20, 0, 32), (24, 0, 6), (25, 0, 8), (28, 0, 32), (32, 0, 48)] || 63 < d.num 0 1 || k < 1 || 2 < k || 127 < d.num 3 1 then
    s.finish d 0x49 stFormat
  else { s with net := { s.net with txflows := Map.put s.net.txflows (d.num 0 1) (d.bytes 0 38) } }.finish d 0x49 stOk

/-- R141: TXFLOW_SET. -/
def execTxflowSet (d : Desc) (s : State) : Host.Outcome State Fault Refusal := onOp s d 0x49 .head (txflowSet d)

/-- Span of a read-out: SPREAD / 16 of P (R134). -/
def State.spanOfSrc (s : State) (c : Bytes) : Nat := bits (numAt c 8 1) 0 4 * ticksToCycles (frameTicks s.rate) / 16

/-- A source's frame is read out from address `a` in lines of PITCH bytes, evenly over its span (R134). -/
def State.startOut (s : State) (k cls a : Nat) (n : Word) : State :=
  match s.source k with
  | none => s
  | some x =>
    let o : ReadOut := { source := k, cls := cls, frameLo := n.toNat % 256, addr := a, start := s.frames.start
                         span := s.spanOfSrc x.cfg, line := 0 }
    { s with net := { s.net with outs := s.net.outs.filter (fun y => !(y.source == k && y.cls == cls)) ++ [o] } }

/-- PITCH of a source's buffer item. -/
def State.pitchOf (s : State) (o : ReadOut) : Nat :=
  match Map.find s.stp.active.bufs (if o.cls = 2 then 64 + o.source else o.source) with
  | some b => numAt b 16 4
  | none => 0

/-- One line of a read-out as chunks. -/
def State.queueLine (s : State) (o : ReadOut) (f : Fmt) (line : Nat) : State :=
  let lb := f.lineBytes
  (List.range f.chunks).foldl (fun s c =>
    let n := min 240 (lb - 240 * c)
    s.queueChunk { since := s.core, cls := o.cls, source := o.source, line := line, chunk := c, last := c + 1 == f.chunks
                   frameLo := o.frameLo, bytes := s.lmRead (o.addr + line * s.pitchOf o + 240 * c) n }) s

/-- Lines of a read-out that are due now. -/
def linesDue (now : Nat) (o : ReadOut) (height : Nat) : Nat :=
  if o.span = 0 then height else min height ((now - o.start) * height / o.span + 1)

/-- The read-outs queue the lines that have come due (R134, R135). -/
def State.pumpOuts (s : State) : State :=
  let os := s.net.outs
  let s := { s with net := { s.net with outs := [] } }
  os.foldl (fun s o =>
    match s.source o.source with
    | none => s
    | some x =>
      let f := srcFmt x.cfg; let n := linesDue s.core o f.height
      let s := (List.range (n - o.line)).foldl (fun s i => s.queueLine o f (o.line + i)) s
      if n < f.height then { s with net := { s.net with outs := s.net.outs ++ [{ o with line := max n o.line }] } }
      else if o.cls = 1 then s.setSource o.source { x with reading := none }
      else s) s

/-- At a frame start each SYNC source's newest complete frame is selected, or sent again (R134). -/
def State.selectFrames (s : State) (n : Word) : State :=
  s.net.sources.foldl (fun s y =>
    match s.source y.1, s.syncItem y.1 with
    | some x, some item =>
      (match x.ready with
       | none => s
       | some (buf, _, _) =>
         if srcKind x.cfg != 1 || x.passing then s
         else
           let s := if x.selected then s.countSrc y.1 (fun c => { c with repeats := c.repeats + 1 }) else s
           (s.setSource y.1 { x with selected := true, reading := some buf }).startOut y.1 1 (item.1 + buf * item.2.2) n)
    | _, _ => s) s

/-- Host-layer sources the active bank names (R185). -/
def State.hostLayers (s : State) : List Nat :=
  (List.range 16).filter (fun k => srcKind (s.srcCfg k) == 2 && (Map.find s.stp.active.bufs (64 + k)).isSome)

/-- A host-layer fetch fails (R185). -/
def State.fetchFailed (s : State) (e : Nat × Nat) : State := (s.inc F.CNP_GEN_FAIL).detect e

/-- The reference of a host layer's item in the active bank. -/
def State.refOf (s : State) (k : Nat) : Nat :=
  match Map.find s.stp.active.bufs (64 + k) with
  | some o => numAt o 40 8
  | none => 0

/-- At FS(n) the head abandons unfinished fetches and begins the frame's (R185); each reference that a fetch reads notes the frame
(R186). -/
def State.startFetches (s : State) (n : Word) : State :=
  let s := s.cnp.fetching.foldl (fun s _ => s.fetchFailed E.CNP_HOST_FETCH) s
  let fs := s.hostLayers.map (fun k => (k, n, s.refOf k))
  { s with cnp := { s.cnp with
      fetching := fs
      refs := s.cnp.refs.map (fun r => if fs.any (fun f => f.2.2 == r.id) then { r with lastF := n } else r) } }

/-- R185: a host-layer fetch ends with its end check. -/
def hostFetchComplete (k : Nat) (gen1 : Word) (image : HostData) (gen2 : Word) (s : State) : State :=
  match s.cnp.fetching.find? (fun f => f.1 == k), Map.find s.stp.active.bufs (64 + k) with
  | some (_, n, _), some o =>
    let f := srcFmt (s.srcCfg k); let pitch := numAt o 16 4
    let copy := numAt o 32 8 + n.toNat % 2 * (ceilDiv (pitch * f.height) 4096 * 4096)
    let s := { s with cnp := { s.cnp with fetching := s.cnp.fetching.filter (fun f => f.1 != k) } }
    if !image.ok then s.fetchFailed E.CNP_HOST_FETCH
    else
      let s := s.lmWrite copy (image.bytes.take (pitch * f.height))
      if gen1.toNat = numAt o 20 4 && gen2.toNat = numAt o 20 4 then
        { s with cnp := { s.cnp with staged := Map.put s.cnp.staged k n } }.startOut k 2 copy n
      else s.fetchFailed E.CNP_GEN_MISMATCH
  | _, _ => s

def execHostFetchComplete (source : Nat) (gen1 : Word) (image : HostData) (gen2 : Word) (s : State) :
    Host.Outcome State Fault Refusal := onLive s (fun s => if s.isHead then hostFetchComplete source gen1 image gen2 s else s)

/-- The head's confidence preview is on (R143); a Dormant standby stops its composition (R285). -/
def State.pvwOn (s : State) : Bool :=
  (s.authority || s.on F.FBK_CTRL_PATROL) &&
  match Map.find s.net.pvw 0 with
  | some o => bit (numAt o 16 1) 0
  | none => false

/-- The wall coordinates of preview column `p` and row `q` (R187). -/
def State.pvwCol (s : State) (o : Bytes) (p : Nat) : Nat × Nat := ((2 * p + 1) * s.rd F.CNP_PVW_W, 2 * numAt o 2 2)
def State.pvwRow (s : State) (o : Bytes) (q : Nat) : Nat × Nat := ((2 * q + 1) * s.rd F.CNP_PVW_H, 2 * numAt o 4 2)

/-- A layer's step, in source pixels for each preview pixel, exceeds 8 on an axis (R187). -/
def State.decimated (s : State) (b : Bank) (o : Bytes) (i : Nat) : Bool :=
  let l := tblLayer b.layers i
  l.en && (decide (8 * 2 ^ 20 * numAt o 2 2 < l.ax.step * s.rd F.CNP_PVW_W) ||
    decide (8 * 2 ^ 20 * numAt o 4 2 < l.ay.step * s.rd F.CNP_PVW_H))

/-- The layers that a preview composes: enabled, of a valid source, with a pixel inside; each with the lines it reads (R187). -/
def State.pvwLayers (s : State) (b : Bank) (o : Bytes) : List (Nat × Nat × Nat) :=
  let xs := (List.range (numAt o 2 2)).map (s.pvwCol o); let ys := (List.range (numAt o 4 2)).map (s.pvwRow o)
  (enabledLayers b.layers).filterMap (fun i =>
    let l := tblLayer b.layers i
    if (tblFmt b.layers l.source).valid then
      (match l.ax.readsAt xs, l.ay.readsAt ys with
       | some _, some (l0, l1) => some (i, l0, l1)
       | _, _ => none)
    else none)

/-- A PASS source's lines of frame `n` are in (R178, R187). -/
def Source.linesIn (x : Source) (n : Word) (ls : List (Nat × Nat)) : Option Nat :=
  let lb := (srcFmt x.cfg).lineBytes
  match x.cur, x.ready with
  | some f, r =>
    if f.tag = n then
      if ls.all (fun l => (List.range (l.2 + 1 - l.1)).all (fun i => hasSpan f.got ((l.1 + i) * lb) ((l.1 + i + 1) * lb))) then
        some f.buf
      else none
    else (r.filter (fun r => r.2.2 == n)).map (·.1)
  | none, r => (r.filter (fun r => r.2.2 == n)).map (·.1)

/-- What a preview reads of a source (R187): whether it is ready, and the address of line 0; a SYNC source and a host layer have the
buffer selected at FS(n), a PASS source is judged. -/
def State.pvwSource (s : State) (n : Word) (k : Nat) (ls : List (Nat × Nat)) : Option (Bool × Nat) :=
  let c := s.srcCfg k
  if srcKind c = 2 then
    match Map.find s.stp.active.bufs (64 + k), Map.find s.cnp.staged k with
    | some o, some m => some (true, numAt o 32 8 + m.toNat % 2 * (ceilDiv (numAt o 16 4 * (srcFmt c).height) 4096 * 4096))
    | _, _ => none
  else
    match s.source k, s.syncItem k with
    | some x, some item =>
      let at0 := fun b => item.1 + b * item.2.2
      if srcKind c != 1 then none
      else if x.passing then
        match x.linesIn n ls with
        | some b => some (true, at0 b)
        | none => x.ready.map (fun r => (false, at0 r.1))
      else (match x.reading with
        | some b => some (true, at0 b)
        | none => x.ready.map (fun r => (true, at0 r.1)))
    | _, _ => none

/-- A layer's outcome on a head (R179, R187): ready, held, cleared, and whether Hold found nothing. -/
def pvwOutcome (l : Layer) (r : Option (Bool × Nat)) : Nat × Bool :=
  match r with
  | some (true, _) => (1, false)
  | some (false, _) => if l.clear then (3, false) else (2, false)
  | none => (3, !l.clear)

/-- The head's preview of the frame in progress is judged and begins (R178, R179, R187). -/
def State.beginPreview (s : State) (o : Bytes) : State :=
  let b := s.unitBank; let n := s.frameNow
  let ls := s.pvwLayers b o
  let of := fun i => (tblLayer b.layers i).source
  let rs := ls.map (fun x => (x.1, s.pvwSource n (of x.1) ((ls.filter (fun y => of y.1 == of x.1)).map (·.2))))
  let outs := rs.map (fun r => (r.1, pvwOutcome (tblLayer b.layers r.1) r.2))
  let s := outs.foldl (fun s r => (s.countLayer r.1 r.2.1).detectIf r.2.2 E.CNP_HOLD_EMPTY) (s.layersOff b.layers)
  { s with cnp := { s.cnp with since := s.core, preview := some {
      frame := n, bank := b, eccs := []
      outs := (List.range 8).map (fun i => match outs.find? (fun x => x.1 == i) with
        | some x => x.2.1
        | none => 0)
      src := rs.foldl (fun m r => match r.2 with
        | some x => Map.put m (of r.1) x.2
        | none => m) [] } } }

/-- PITCH of a source's buffer item in a bank (R183). -/
def Bank.pitchOf (b : Bank) (k : Nat) : Nat :=
  match Map.find b.bufs k, Map.find b.bufs (64 + k) with
  | some o, _ => numAt o 16 4
  | none, some o => numAt o 16 4
  | none, none => 0

/-- The lines a preview reads, as chunks (R187). -/
def State.pvwLines (s : State) (v : Preview) (o : Bytes) : Map (Map Bytes) :=
  (s.pvwLayers v.bank o).foldl (fun m x =>
    let k := (tblLayer v.bank.layers x.1).source; let f := tblFmt v.bank.layers k
    match Map.find v.src k with
    | none => m
    | some a => (List.range (x.2.2 + 1 - x.2.1)).foldl (fun m j =>
        let n := x.2.1 + j
        Map.put m (8192 * k + n) ((List.range f.chunks).map (fun c =>
          (c, s.lmRead (a + n * v.bank.pitchOf k + 240 * c) (min 240 (f.lineBytes - 240 * c)))))) m) []

/-- The working value of a preview pixel (R187, R193); the head's own Understory lies beneath (R183). -/
def State.pvwValue (s : State) (v : Preview) (o : Bytes) (lines : Map (Map Bytes)) (p q : Nat) : Nat :=
  let x := s.pvwCol o p; let y := s.pvwRow o q; let t := v.bank.layers
  lampValue t v.outs lines (s.underAt ((Map.find v.bank.bufs 128).getD []) (q * numAt o 2 2 + p)) x y
    ⟨s.decimated v.bank o, fun i => v.eccs.any (readsBad t lines x y i)⟩

/-- One line of a preview in its format; the spec states no encoding of working values in it, so each pixel group is an open function
of its values (log entry 188). -/
def State.pvwLine (s : State) (v : Preview) (o : Bytes) (lines : Map (Map Bytes)) (q : Nat) : Bytes :=
  let f := pvwFmt o; let g := f.group; let w := numAt o 2 2
  (List.range (ceilDiv w g.1)).flatMap (fun i =>
    leBytes g.2 (Config.previewCode f.sampling f.depth
      ((List.range (min g.1 (w - g.1 * i))).map (fun j => s.pvwValue v o lines (g.1 * i + j) q))))

/-- The confidence preview of a frame is in the ring (R143, R145, R187), after its work units and their pauses (R315). -/
def State.previewDone (s : State) (v : Preview) : State :=
  match Map.find s.net.pvw 0 with
  | none => { s with cnp := { s.cnp with preview := none } }.retireIfDone
  | some o =>
    let s := s.advanceTo (s.workEnd (numAt o 2 2 * numAt o 4 2))
    let f := pvwFmt o; let n := v.frame; let lines := s.pvwLines v o
    let a := numAt o 8 8 + n.toNat % 2 * ringFrame f
    let und := s.underEcc ((Map.find v.bank.bufs 128).getD []) (List.range (numAt o 2 2 * numAt o 4 2))
    let s := (List.range (numAt o 4 2)).foldl (fun t q => t.lmWrite (a + q * (ceilDiv f.lineBytes 64 * 64)) (s.pvwLine v o lines q)) s
    let s := (s.detectIf ((List.range 8).any (s.decimated v.bank o)) E.CNP_PREVIEW_DECIM).blockEcc und E.CNP_UND_ECC
    ({ s with cnp := { s.cnp with preview := none }, net := { s.net with pvwDone := some n } }.retireIfDone).unitDone 1

/-- R143, R181: a tile's pass with its correction is done, or a head's preview pass. -/
def passComplete (s : State) : State :=
  if s.isTile then s.passDone
  else
    match s.cnp.preview with
    | some v => s.previewDone v
    | none => s

def execPassComplete (s : State) : Host.Outcome State Fault Refusal := onRun s passComplete

/-- The preview pass of the frame before goes on past the start of frame `n`, late (R143); one that is older ends there, since its
bank retires by then (R38; DEDUCED, log entry 170). -/
def State.cutPreview (s : State) (n : Word) : State :=
  match s.cnp.preview with
  | none => s
  | some v => if v.frame + 1 = n then s else { s with cnp := { s.cnp with preview := none } }.retireIfDone

/-- The frame that starts sends the confidence preview of the frame before, or where that is not composed the last one composed
again (R141, R143; DEDUCED, log entry 187). -/
def State.startVideo (s : State) (n : Word) : State :=
  { s with net := { s.net with vtx := s.net.pvwDone.map (fun m => { frame := n, start := s.frames.start, shown := m, next := 0 }) } }

/-- A head's frame starts (R37, R38, R43, R134, R143, R145, R185). -/
def State.headFrame (s : State) (n : Word) : State :=
  if s.care.shut then s else
  let s := ((s.detectIf (s.pvwOn && s.cnp.preview.any (fun v => v.frame == n - 1)) (E.NET_PREVIEW_LATE 0)).startVideo n).settlePvw
  let s := { s with stp := { s.stp with prev := s.stp.active } }.cutPreview n
  let s := s.commitsAt n
  ((s.selectFrames n).startFetches n).arm

/-- R28: the schedule's next boundary: on a head, or on a tile that runs standalone on its own schedule. -/
def frameBoundary (s : State) : State :=
  if !s.schedules || (s.isTile && s.on F.PAT_SA_CFG_FSYNC) then s
  else
    let start := s.frames.start; let len := s.frames.len; let begun := s.frames.begun
    let r := s.boundary
    if !r.1 then (if r.2.isHead then r.2.noteSub else r.2)
    else if r.2.isHead then r.2.trimLatch.headFrame r.2.frameNow
    else
      let t := { r.2 with frames := { r.2.frames with start := start, len := len, begun := begun } }
      let nxt := r.2.frames.next
      let t := t.tileFrame r.2.frameNow
      { t with frames := { t.frames with next := nxt } }

def execFrameBoundary (s : State) : Host.Outcome State Fault Refusal := onLive s frameBoundary

/-- The parameter block of an entry (R43). -/
def State.entryBlock (s : State) (e : Entry) : Bytes := s.bankBytes s.unitBank e.sect e.pofs 16

/-- UNIT 0x01 on a head (R143, R187): false where the preview pass before still runs (R44). -/
def State.unitPreview (s : State) : Bool × State :=
  match Map.find s.net.pvw 0 with
  | none => (true, s.unitDone 1)
  | some o =>
    if !s.pvwOn then (true, s.unitDone 1)
    else if s.cnp.preview.isSome then (false, s)
    else (true, s.beginPreview o)

/-- Start an entry's unit (R43): false where it waits for its unit (R44).  A unit other than composition and correction reports
done as it starts (DESIGN CHOICE, log entry 171). -/
def State.runUnit (s : State) (e : Entry) : Bool × State :=
  match e.unit with
  | 1 => if s.isTile then s.unitCompose else s.unitPreview
  | 2 => (true, s)
  | 4 => (true, { s with trail := { s.trail with planNext := numAt (s.entryBlock e) 0 1 } }.unitDone 4)
  | 5 => (true, s.unitPattern.unitDone 5)
  | 6 => (true, s.unitGlade.unitDone 6)
  | u => (true, s.unitDone u)

/-- An entry is dispatched, or skipped in a hold state: one of every sub-frame stays armed (R43). -/
def State.dispatched (s : State) (i : Nat) (e : Entry) : State :=
  let w := { s.stp.walk with ran := Map.put s.stp.walk.ran i (Map.getD s.stp.walk.ran i 0 + 1), lastAt := some s.core }
  { s with stp := { s.stp with
      walk := w, armed := if e.trig = 1 && e.arg = 0xFFFF then s.stp.armed else s.stp.armed.filter (· != i) } }

/-- An entry waits for its unit (R44): STEP_LATE. -/
def State.waitsUnit (s : State) (i : Nat) : State :=
  if s.stp.walk.late.contains i then s
  else { s with stp := { s.stp with walk := { s.stp.walk with late := i :: s.stp.walk.late } } }.detect E.STP_STEP_LATE

/-- An entry before `i` in table order that does not wait for its unit is armed and due in the same cycle (R43). -/
def State.earlierDue (s : State) (i due : Nat) : Bool :=
  (enumerate (s.entriesOf s.stp.active)).any (fun e =>
    decide (e.1 < i) && s.stp.armed.contains e.1 && !s.stp.walk.late.contains e.1 && s.dueAt e.1 e.2 == some due)

/-- R43, R44: an armed entry of the step table whose trigger has fired is due: entries due in one cycle go in table order, one
every 4 cycles, and a unit that is still busy lets its entry wait. -/
def stepDispatch (i : Nat) (s : State) : State :=
  match (s.entriesOf s.stp.active)[i]? with
  | none => s
  | some e =>
    match s.dueAt i e with
    | none => s
    | some due =>
      if !s.stp.armed.contains i || s.earlierDue i due then s
      else
        let s := s.advanceTo (max due (match s.stp.walk.lastAt with
          | some c => c + 4
          | none => due))
        if s.isTile && skipped s.holdState e.unit then s.dispatched i e
        else
          let r := s.runUnit e
          if r.1 then ({ r.2 with stp := { r.2.stp with imgBad := false } }).dispatched i e else r.2.waitsUnit i

def execStepDispatch (entry : Nat) (s : State) : Host.Outcome State Fault Refusal := onRun s (stepDispatch entry)

end Sys2Proof.Machine
end

