-- ==== Sys2Proof/Machine/Audio.lean ====
section
/-! DEFINITION. Audio ports: the sample schedule, playout and capture of blocks, silent changes, converters, and the
opcodes 0x90 - 0x95 (R258 - R268). -/

namespace Sys2Proof.Machine

/-- Thirds of a ns of 64 samples (R259). -/
def blockThirds : Nat := 64 * 62500

/-- The CK_CORE cycles until a sample's time. -/
def State.cyclesToSample (s : State) (m : Nat) : Nat :=
  s.cyclesTo ((((s.audTgt : Int) + s.samplesAhead m * 62500) % thirdWrap).toNat * 192)

/-- The sample number of the block in progress. -/
def State.blockNum (s : State) : Nat := diff32 s.aud.num.toNat 64

/-- R259: CTRL.RUN is set. -/
def audioRun (s : State) : State :=
  let seed := 3 * s.rd F.AUD_SEED_TIME + s.rd F.AUD_SEED_REM
  let num := s.rd F.AUD_SEED_NUM
  let gap := (64 - num % 64) % 64
  if s.isTile || s.on F.AUD_CTRL_RUN then s
  else
    let ahead := (seed * 2 ^ 40 + 6 * 2 ^ 72 - s.ptp.toNat * 3) % (3 * 2 ^ 72)
    if ahead < 64 * 62500 * 2 ^ 40 || 3 * 2 ^ 71 < ahead then s.detect E.AUD_SEED_REJECT
    else
      let s := ((s.wr F.AUD_CTRL_RUN 1).wr F.AUD_STAT_RUNNING 1).wr F.AUD_SMP_NOW num
      { s with aud := { s.aud with tgt := (seed + gap * 62500) % thirdWrap, num := BitVec.ofNat 32 (num + gap)
                                   playing := false, pos := 0, jump := none, silent := false, slew := 0
                                   pulse := some s.core } }

def execAudioRun (s : State) : Host.Outcome State Fault Refusal := onLive s audioRun

/-- A side of a port, and its fields (R261). -/
def AudSide.off : AudSide := ⟨0, false, false, 0⟩
def State.audSide (s : State) (port side : Nat) : AudSide := Map.getD s.aud.sides (2 * port + side) .off
def State.setSide (s : State) (port side : Nat) (x : AudSide) : State :=
  { s with aud := { s.aud with sides := Map.put s.aud.sides (2 * port + side) x } }
def AudSide.fmt (x : AudSide) : Nat := bits x.cfg 2 3
def AudSide.master (x : AudSide) : Bool := bit x.cfg 5

/-- Slots per frame at a format and a rate; 0 where R261's table refuses the pair. -/
def audSlots (fmt rate : Nat) : Nat :=
  if fmt = 1 || fmt = 2 then 2
  else if fmt = 3 then 4
  else if fmt = 4 then (if rate ≤ 1 then 8 else 0)
  else if fmt = 5 then (if rate = 0 then 16 else 0)
  else 0

/-- A side's slot count. -/
def AudSide.slots (x : AudSide) : Nat := audSlots x.fmt (bits x.cfg 0 2)

/-- How a side's frames look at its pins, where it is on (R261): I2S has FS low for slot 0 and one period of delay, left-justified high
and none, and TDM a pulse of one period or half a frame. -/
def AudSide.frame (x : AudSide) : Option AudFrame :=
  let n := x.slots; let tdm := 3 ≤ x.fmt
  if x.fmt = 0 then none
  else some
    { slots := n, bclk := n * 32 * 48000 * 2 ^ bits x.cfg 0 2
      delay := if tdm then bits x.cfg 8 1 else b2n (x.fmt == 1)
      fsLen := if tdm && !bit x.cfg 9 then 1 else 16 * n
      fsHigh := (x.fmt != 1) != bit x.cfg 7, onFall := !bit x.cfg 6, master := x.master }

/-- A sample in its slot: 24 bits, and 8 bits of 0 (R261). -/
def slotWord (x : Int) : Nat := (x % 2 ^ 24).toNat * 256

/-- PORTn_STAT follows a side (R269). -/
def State.showSide (s : State) (port side : Nat) : State :=
  let x := s.audSide port side
  let f := F.AUD_PORT_STAT port
  let v := s.rd f
  let v := if x.fmt != 0 && !x.restart && s.on F.AUD_STAT_RUNNING then setBit v side else clrBit v side
  let v := if x.locked then setBit v (side + 2) else clrBit v (side + 2)
  s.wr f v

/-- CTRL.RUN is cleared. -/
def State.audioStop (s : State) : State :=
  let s := (s.wr F.AUD_CTRL_RUN 0).wr F.AUD_STAT_RUNNING 0
  let s := { s with aud := { s.aud with playing := false } }
  s.aud.sides.foldl (fun s x => s.showSide (x.1 / 2) (x.1 % 2)) s

/-- Unity gain, an absent route. -/
def AudRoute.off : AudRoute :=
  { valid := false, src := 0, group := 0, gain := 4096, mute := false, change := none, gstage := 0, gsince := 0, under := false,
    fall := 0, hold := 0, rise := 0, ramp := 0, oldGain := 0, input := [], prev := 0, last := 0 }

/-- A value `k + 1` steps of 48 along a line (R265, R266). -/
def along (a b : Int) (k : Nat) : Int := a + (b - a) * (k + 1) / 48

/-- The gain a channel goes to (R263, R266): 0 while muted. -/
def AudRoute.target (r : AudRoute) : Nat :=
  let half := match r.change with
    | some c => c.stage == 1 || c.stage == 2
    | none => false
  if !r.valid || r.mute || half || (2 ≤ r.gstage && r.gstage ≤ 4) then 0 else r.gain

/-- The gain of the next sample. -/
def AudRoute.gainNow (r : AudRoute) : Int := if r.ramp = 0 then r.target else along r.oldGain r.target (48 - r.ramp)

/-- A sample after gain (R263). -/
def scaled (x g : Int) : Int := clampI ((x * g + 2048) / 4096) (-(2 ^ 23)) (2 ^ 23 - 1)

/-- A change begins as a ramp from the gain in force (R266). -/
def AudRoute.startRamp (r : AudRoute) (old : Int) : AudRoute := { r with ramp := 48, oldGain := old.toNat }

/-- A waiting change applies: what it sets (R266). -/
def AudRoute.takeChange (r : AudRoute) (c : AudChange) : AudRoute :=
  { r with gain := c.gain.getD r.gain, mute := c.mute.getD r.mute }

/-- The new source of a change takes over; nothing of it is in the block in progress. -/
def AudRoute.takeSrc (r : AudRoute) (c : AudChange) : AudRoute :=
  match c.src with
  | some (v, src, g) => { r with valid := v, src := src, group := g, input := r.input.map (fun _ => 0) }
  | none => r

/-- A ramp has ended: the stages of a change and of a group's move on (R263, R266). -/
def AudRoute.rampOver (r : AudRoute) (now : Nat) : AudRoute :=
  let r := match r.change with
    | some c =>
      if c.stage = 1 then
        let r := r.takeSrc c
        { r with change := some { c with stage := 2, since := now } }
      else if c.stage = 3 then { r with change := some { c with stage := 4 } }
      else r
    | none => r
  if r.gstage = 2 then { r with gstage := 3 } else if r.gstage = 5 then { r with gstage := 0 } else r

/-- One sample of a channel: its output, and the channel after it (R263, R265, R266). -/
def AudRoute.sample (r : AudRoute) (now i : Nat) : Int × AudRoute :=
  let x := r.input.getD i 0
  let y := scaled x r.gainNow
  let y := if r.under then (if r.fall = 0 then 0 else along r.hold 0 (48 - r.fall))
    else if r.rise = 0 then y else along 0 y (48 - r.rise)
  let r' := { r with prev := x, last := y, fall := r.fall - 1, rise := if r.under then r.rise else r.rise - 1, ramp := r.ramp - 1 }
  (y, if r.ramp = 1 then r'.rampOver now else r')

/-- Samples `i, i + 1, …`, `n` of them. -/
def AudRoute.run (r : AudRoute) (now i : Nat) : Nat → List Int × AudRoute
  | 0 => ([], r)
  | n + 1 =>
    let a := r.sample now i
    let b := a.2.run now (i + 1) n
    (a.1 :: b.1, b.2)

/-- A transmit side drives samples at its pins (R258, R261, R262, R267). -/
def State.sideDrives (s : State) (port : Nat) : Bool :=
  let x := s.audSide port 0
  x.fmt != 0 && !s.care.shut && (!s.isPair || s.on F.FBK_STAT_DRIVING)

/-- A transmit side's samples are zeros (R259, R261, R262). -/
def State.sideZero (s : State) (port : Nat) : Bool :=
  let x := s.audSide port 0
  s.aud.silent || x.restart || (!x.master && !x.locked)

/-- The fade-in of a side after a relock (R262). -/
def fadeIn (left : Nat) (l : List Int) : List Int :=
  match l with
  | [] => []
  | x :: r => (if left = 0 then x else along 0 x (48 - left)) :: fadeIn (left - 1) r

/-- What a port's slot sends for a channel's samples. -/
def State.sendAudio (s : State) (ch : Nat) (l : List Int) : State :=
  if s.sideDrives (ch / 16) && decide (ch % 16 < (s.audSide (ch / 16) 0).slots) then
    s.emit (.audio ch ((if s.sideZero (ch / 16) then l.map (fun _ => 0) else fadeIn (s.audSide (ch / 16) 0).fade l).map slotWord))
  else s

/-- A channel by its number: a route, or 256 + 64 * flow + channel for a capture. -/
def State.audCh (s : State) (ch : Nat) : Option AudRoute :=
  if ch < 256 then Map.find s.aud.routes ch else Map.find s.aud.captures (ch - 256)
def State.setAudCh (s : State) (ch : Nat) (r : AudRoute) : State :=
  if ch < 256 then { s with aud := { s.aud with routes := Map.put s.aud.routes ch r } }
  else { s with aud := { s.aud with captures := Map.put s.aud.captures (ch - 256) r } }

/-- Ring positions hold nothing of a new source. -/
def State.dropRing (s : State) (ch : Nat) : State :=
  { s with aud := { s.aud with held := s.aud.held.filter (fun h => h.1 / 65536 != ch) } }

/-- A channel is set after its source may have changed. -/
def State.putCh (s : State) (ch : Nat) (old new : AudRoute) : State :=
  let s := s.setAudCh ch new
  if ch < 256 && (new.src != old.src || new.valid != old.valid) then s.dropRing ch else s

/-- Play the block in progress up to sample `k` of it (R263 - R266). -/
def State.playTo (s : State) (k : Nat) : State :=
  if !s.aud.playing || k ≤ s.aud.pos then s
  else
    let i := s.aud.pos; let n := k - i; let now := s.core
    let s := s.aud.routes.foldl (fun s e =>
      let r := e.2.run now i n
      (s.sendAudio e.1 r.1).putCh e.1 e.2 r.2) s
    let s := ((List.range 256).filter (fun ch => (Map.find s.aud.routes ch).isNone)).foldl (fun s ch =>
      s.sendAudio ch (List.replicate n 0)) s
    let s := s.aud.captures.foldl (fun s e =>
      let r := e.2.run now i n
      let l := Map.getD s.aud.packs e.1 [] ++ r.1
      { s with aud := { s.aud with captures := Map.put s.aud.captures e.1 r.2, packs := Map.put s.aud.packs e.1 (l.drop (l.length - 256)) } }) s
    let sides := s.aud.sides.map (fun x => (x.1, { x.2 with fade := x.2.fade - n }))
    { s with aud := { s.aud with pos := k, sides := sides } }

/-- The descriptor of a ROUTE_SET or CAPTURE_SET by its channel. -/
def chOp (ch : Nat) : Nat := if ch < 256 then 0x92 else 0x93

/-- A change that is over leaves its channel and completes (R266). -/
def State.endChange (s : State) (ch : Nat) : State :=
  match s.audCh ch with
  | none => s
  | some r =>
    match r.change with
    | some c =>
      if c.stage = 4 then
        let s := s.setAudCh ch { r with change := none }
        s.finish c.desc (chOp ch) stOk (b2n c.ramped)
      else s
    | none => s

/-- Groups whose channels are all muted change their delay and unmute; those whose channels have unmuted complete (R263). -/
def State.moveGroups (s : State) : State :=
  let l := s.aud.regroup
  let s := { s with aud := { s.aud with regroup := [] } }
  l.foldl (fun s g =>
    let mine := s.aud.routes.filter (fun e => e.2.valid && e.2.group == g.1 && e.2.gstage != 0)
    if g.2.2.2 then
      if mine.isEmpty then s.finish g.2.2.1 0x95 stOk
      else { s with aud := { s.aud with regroup := s.aud.regroup ++ [g] } }
    else if mine.all (fun e => e.2.gstage == 3) then
      let rs := s.aud.routes.map (fun e =>
        if e.2.group = g.1 ∧ e.2.gstage = 3 then (e.1, { e.2 with gstage := 4, gsince := s.core }) else e)
      let s := { s with aud := { s.aud with
          groups := Map.set s.aud.groups g.1 g.2.1 0, routes := rs
          regroup := if mine.isEmpty then s.aud.regroup else s.aud.regroup ++ [(g.1, g.2.1, g.2.2.1, true)] } }
      if mine.isEmpty then s.finish g.2.2.1 0x95 stOk else s
    else { s with aud := { s.aud with regroup := s.aud.regroup ++ [g] } }) s

/-- Everything that may have come to an end. -/
def State.audSettle (s : State) : State :=
  let s := s.aud.routes.foldl (fun s e => s.endChange e.1) s
  (s.aud.captures.foldl (fun s e => s.endChange (256 + e.1)) s).moveGroups

/-- Play, and settle what ends. -/
def State.playUpTo (s : State) (k : Nat) : State := (s.playTo k).audSettle

/-- Samples of the block in progress whose time has come. -/
def State.samplesDue (s : State) : Nat :=
  let gone := blockThirds * 2 ^ 40 - s.blockLead
  if gone < 0 then 0 else min 64 (gone / (62500 * 2 ^ 40)).toNat

/-- Play what is due. -/
def State.playDue (s : State) : State := if s.aud.playing then s.playUpTo s.samplesDue else s

/-- A word of a channel's block in its ring reads with an uncorrectable error (R265). -/
def State.ringEcc (s : State) (ch : Nat) (r : AudRoute) : Bool :=
  let first := diff32 s.blockNum (Map.getD s.aud.groups r.group 0)
  !s.lmBad.isEmpty && (List.range 64).any (fun j =>
    (Map.find s.aud.held (65536 * ch + (first + j) % 65536)).map (·.toNat) == some ((first + j) % 2 ^ 32) &&
      s.lmBadIn (s.ringAddr ch ((first + j) % 65536)) 4)

/-- The 64 samples of a channel's block in its ring, or none where one is missing or unreadable (R263, R265). -/
def State.ringBlock (s : State) (ch : Nat) (r : AudRoute) : Option (List Int) :=
  let first := diff32 s.blockNum (Map.getD s.aud.groups r.group 0)
  let ns := (List.range 64).map (fun j => (first + j) % 2 ^ 32)
  if ns.all (fun n => (Map.find s.aud.held (65536 * ch + n % 65536)).map (·.toNat) == some n) && !s.ringEcc ch r then
    some (ns.map (fun n => sval (leNat (s.lmRead (s.ringAddr ch (n % 65536)) 4)) 24))
  else none

/-- A channel's block begins: good, or in underrun (R265). -/
def State.beginRoute (s : State) (ch : Nat) (r : AudRoute) : State :=
  let zeros := List.replicate 64 (0 : Int)
  if !r.valid then s.setAudCh ch { r with input := zeros, under := false, rise := 0, fall := 0 }
  else
    let first := diff32 s.blockNum (Map.getD s.aud.groups r.group 0)
    let b := s.ringBlock ch r
    let s := if s.ringEcc ch r then s.lmUncorr.detect E.AUD_AUD_ECC else s
    let held := (List.range 64).foldl (fun m j => Map.del m (65536 * ch + (first + j) % 65536)) s.aud.held
    let s := { s with aud := { s.aud with held := held } }
    match b with
    | some l => s.setAudCh ch { r with input := l, under := false, rise := if r.under then 48 else 0, fall := 0 }
    | none =>
      if r.under then s.setAudCh ch { r with input := zeros }
      else
        let s := s.setAudCh ch { r with input := zeros, under := true, fall := 48, hold := r.last }
        (s.inc F.AUD_UNDERRUNS).detect E.AUD_UNDERRUN

/-- A receive side delivers samples (R262): zeros unless it runs and, as a slave, is locked. -/
def State.rxBlock (s : State) (captured : List (Nat × List (BitVec 24))) (src : Nat) : List Int :=
  let x := s.audSide (src / 16) 1
  let l := match captured.find? (fun c => c.1 == src) with
    | some c => (List.range 64).map (fun j => (c.2.getD j 0).toInt)
    | none => List.replicate 64 0
  if x.fmt = 0 || x.restart || (!x.master && !x.locked) || s.care.shut || decide (x.slots ≤ src % 16) then
    List.replicate 64 0
  else fadeIn x.fade l

/-- The schedule jumps to the stepped time (R259): the block that begins is the first at or after it. -/
def State.audioJump (s : State) (d : Int) : State :=
  let at0 := (s.aud.tgt + 3 * d) % thirdWrap
  let k := -(-(3 * d) / blockThirds)
  let s := s.advance (s.cyclesTo (at0.toNat * 192))
  let s := { s with aud := { s.aud with
      tgt := ((s.aud.tgt + k * blockThirds) % thirdWrap).toNat, num := s.aud.num + BitVec.ofInt 32 (64 * k), jump := none, slew := 0
      silent := true } }
  s.detect E.AUD_STEP_RESYNC

/-- What is left of a small counter step after a block: the synthesizer slews at 100 ppm, 400 thirds of a ns a block (R259). -/
def slewed (x : Int) : Int := if 0 ≤ x then max 0 (x - 400) else min 0 (x + 400)

/-- R259, R265: a block boundary: the rest of the old block plays, the received block is taken, and a block begins. -/
def audioBlockBoundary (captured : List (Nat × List (BitVec 24))) (s : State) : State :=
  if s.isTile || !s.on F.AUD_STAT_RUNNING then s
  else
    let s := s.playUpTo 64
    let s := match s.aud.jump with
      | some d => s.audioJump d
      | none => { (s.advance (s.cyclesTo (s.audTgt * 192))) with aud := { s.aud with silent := false, slew := slewed s.aud.slew } }
    let now := s.aud.num
    let fresh := s.aud.sides.filter (fun x => x.2.restart)
    let sides := s.aud.sides.map (fun x => (x.1, { x.2 with restart := false }))
    let s := { s with aud := { s.aud with
        tgt := (s.aud.tgt + blockThirds) % thirdWrap, num := now + 64, playing := true, pos := 0, sides := sides } }
    let s := s.wr F.AUD_SMP_NOW now.toNat
    let s := s.aud.sides.foldl (fun s x => s.showSide (x.1 / 2) (x.1 % 2)) s
    let s := fresh.foldl (fun s x => s.emit (.audioSide x.1 x.2.frame)) s
    let s := if s.isPair && s.on F.FBK_STAT_DRIVING then s.emit (.fbStart 16) else s
    let s := s.aud.captures.foldl (fun s e => s.setAudCh (256 + e.1) { e.2 with input := if e.2.valid then s.rxBlock captured e.2.src else List.replicate 64 0 }) s
    s.aud.routes.foldl (fun s e => s.beginRoute e.1 e.2) s

def execAudioBlockBoundary (captured : List (Nat × List (BitVec 24))) (s : State) : Host.Outcome State Fault Refusal :=
  onLive s (audioBlockBoundary captured)

/-- The standby head of a pair with its schedule running. -/
def State.followsStart (s : State) : Bool := s.isHead && s.isPair && !s.claims && s.on F.AUD_STAT_RUNNING

/-- R260: a rising edge of FB_START at the standby: its block boundaries move to the edge minus FBS_ADJ. -/
def fbStartPulse (s : State) : State :=
  if !s.followsStart then s
  else
    let edge : Int := s.ptp.toNat * 3 / 2 ^ 40 - 3 * sval (s.rd F.AUD_FBS_ADJ) 16
    let off := (edge - s.aud.tgt + blockThirds / 2) % blockThirds - blockThirds / 2
    let s := s.wr F.AUD_STAT_FBS_LOCK 1
    { s with aud := { s.aud with tgt := ((s.aud.tgt + off) % thirdWrap).toNat, slew := 0, pulse := some s.core } }

def execFbStartPulse (s : State) : Host.Outcome State Fault Refusal := onLive s fbStartPulse

/-- R260: no pulse for 2 blocks. -/
def fbsLost (s : State) : State :=
  match s.aud.pulse with
  | none => s
  | some c =>
    if !s.followsStart then s
    else
      let s := s.advanceTo (c + ceilDiv (2 * blockThirds * 103125) (3 * 64000))
      { (s.wr F.AUD_STAT_FBS_LOCK 0) with aud := { s.aud with pulse := none } }.detect E.AUD_FBS_LOST

def execFbsLost (s : State) : Host.Outcome State Fault Refusal := onLive s fbsLost

/-- A slave side of a port. -/
def State.slaveSide (s : State) (port side : Nat) : Bool :=
  s.isHead && decide (port < 16) && (s.audSide port side).fmt != 0 && !(s.audSide port side).master

/-- A side's rate offset (R269). -/
def State.setOfs (s : State) (port side v : Nat) : State :=
  s.wr (if side = 0 then F.AUD_PORT_OFS_TX port else F.AUD_PORT_OFS_RX port) v

/-- What a receive side delivers from here to the end of the block in progress is zero (R262). -/
def State.rxSilent (s : State) (port : Nat) : State :=
  let cut := fun l : List Int => l.take s.aud.pos ++ List.replicate (l.length - s.aud.pos) 0
  { s with aud := { s.aud with captures := s.aud.captures.map (fun e =>
      if e.2.src / 16 = port then (e.1, { e.2 with input := cut e.2.input }) else e) } }

/-- R262: a converter loses lock: from here its side sends or delivers zeros. -/
def asrcUnlock (port : Nat) (rx : Bool) (s : State) : State :=
  if s.slaveSide port (b2n rx) && (s.audSide port (b2n rx)).locked then
    let s := s.playDue
    let s := if rx then s.rxSilent port else s
    let s := s.setSide port (b2n rx) { s.audSide port (b2n rx) with locked := false }
    (s.showSide port (b2n rx)).detect E.AUD_ASRC_UNLOCK
  else s

def execAsrcUnlock (port : Nat) (rx : Bool) (s : State) : Host.Outcome State Fault Refusal := onLive s (asrcUnlock port rx)

/-- R262: a converter locks at a rate offset in 0.1 ppm, within ±2,000 ppm; the side fades in. -/
def asrcLock (port : Nat) (rx : Bool) (offset : BitVec 16) (s : State) : State :=
  if s.slaveSide port (b2n rx) && decide (offset.toInt.natAbs ≤ 20000) then
    let s := s.playDue.setOfs port (b2n rx) offset.toNat
    let x := s.audSide port (b2n rx)
    if x.locked then s
    else (s.setSide port (b2n rx) { x with locked := true, fade := 48 }).showSide port (b2n rx)
  else s

def execAsrcLock (port : Nat) (rx : Bool) (offset : BitVec 16) (s : State) : Host.Outcome State Fault Refusal :=
  onLive s (asrcLock port rx offset)

/-- A channel waits to change. -/
def AudRoute.waits (r : AudRoute) : Bool :=
  (match r.change with
   | some c => c.stage == 0 || c.stage == 2
   | none => false) || r.gstage == 1 || r.gstage == 4

/-- Samples differ in sign (R266). -/
def crosses (a b : Int) : Bool := b == 0 || decide (0 ≤ a ∧ b < 0) || decide (a < 0 ∧ 0 ≤ b)

/-- The first zero crossing of a channel's input from sample `i` of the block (R266). -/
def AudRoute.crossing (r : AudRoute) (i : Nat) : Option Nat :=
  ((List.range 64).filter (fun j => decide (i ≤ j))).find? (fun j =>
    crosses (if j = 0 || j = i then r.prev else r.input.getD (j - 1) 0) (r.input.getD j 0))

/-- A channel's waiting changes apply in one step (R266). -/
def AudRoute.applyNow (r : AudRoute) (now : Nat) : AudRoute :=
  let r := match r.change with
    | some c =>
      if c.stage = 0 && c.src.isSome then
        let r := r.takeSrc c
        { r with change := some { c with stage := 2, since := now } }
      else if c.stage = 0 || c.stage = 2 then
        let r := r.takeChange c
        { r with change := some { c with stage := 4 } }
      else r
    | none => r
  if r.gstage = 1 then { r with gstage := 3 } else if r.gstage = 4 then { r with gstage := 0 } else r

/-- R266: a zero crossing of a waiting channel's input: the block plays up to it, and the change applies. -/
def silentChangeApply (ch : Nat) (s : State) : State :=
  match s.audCh ch with
  | none => s
  | some r =>
    if !r.waits || !s.aud.playing then s
    else
      match r.crossing s.aud.pos with
      | none => s
      | some j =>
        let s := (s.advance (s.cyclesToSample (s.blockNum + j))).playUpTo j
        match s.audCh ch with
        | none => s
        | some r => (s.putCh ch r (r.applyNow s.core)).audSettle

def execSilentChangeApply (channel : Nat) (s : State) : Host.Outcome State Fault Refusal := onLive s (silentChangeApply channel)

/-- When a channel's oldest wait began. -/
def AudRoute.waitFrom (r : AudRoute) : Nat :=
  match r.change with
  | some c => if c.stage = 0 || c.stage = 2 then c.since else r.gsince
  | none => r.gsince

/-- A channel's waiting change becomes a ramp (R266). -/
def AudRoute.rampNow (r : AudRoute) : AudRoute :=
  let old := r.gainNow
  let wait := match r.change with
    | some c => c.stage == 0 || c.stage == 2
    | none => false
  if wait then
    (match r.change with
     | some c =>
       let r := if c.stage = 0 && c.src.isSome then { r with change := some { c with stage := 1, ramped := true } }
         else { (r.takeChange c) with change := some { c with stage := 3, ramped := true } }
       r.startRamp old
     | none => r)
  else if r.gstage = 1 then { r with gstage := 2 }.startRamp old
  else if r.gstage = 4 then { r with gstage := 5 }.startRamp old
  else r

/-- R266: no crossing within ZC_TO: the change applies as a ramp. -/
def zcTimeout (ch : Nat) (s : State) : State :=
  match s.audCh ch with
  | none => s
  | some r =>
    if !r.waits then s
    else
      let s := s.advanceTo (r.waitFrom + usCycles (1000 * s.rd F.AUD_ZC_TO))
      let s := s.playDue
      match s.audCh ch with
      | none => s
      | some r => ((s.setAudCh ch r.rampNow).inc F.AUD_ZC_TIMEOUTS).detect E.AUD_ZC_TIMEOUT

def execZcTimeout (channel : Nat) (s : State) : Host.Outcome State Fault Refusal := onLive s (zcTimeout channel)

/-- Every pending change of a channel applies at once (R261). -/
def State.applyAll (s : State) (ch : Nat) : State :=
  match s.audCh ch with
  | none => s
  | some r => s.putCh ch r { (((r.applyNow s.core).rampOver s.core).applyNow s.core) with ramp := 0 }

def portSet (d : Desc) (s : State) : State :=
  let port := d.num 0 1; let side := d.num 1 1; let fmt := d.bitsAt 2 2 3; let rate := d.bitsAt 2 0 2
  if !d.only [(0, 0, 8), (1, 0, 8), (2, 0, 8), (3, 0, 2)] || 15 < port || 1 < side || 5 < fmt || rate = 3 then s.finish d 0x90 stFormat
  else if fmt != 0 && audSlots fmt rate = 0 then s.finish d 0x90 0x901
  else
    let s := s.playDue
    let s := (s.setSide port side { cfg := d.num 2 2, restart := fmt != 0, locked := false, fade := 0 }).showSide port side
    let s := s.setOfs port side 0
    let s := if fmt = 0 then s.emit (.audioSide (2 * port + side) none) else s
    let s := if side = 0 then (s.aud.routes.filter (fun e => e.1 / 16 == port)).foldl (fun s e => s.applyAll e.1) s
      else (s.aud.captures.filter (fun e => e.2.src / 16 == port)).foldl (fun s e => s.applyAll (256 + e.1)) s
    s.audSettle.finish d 0x90 stOk

/-- R261: PORT_SET. -/
def execPortSet (d : Desc) (s : State) : Host.Outcome State Fault Refusal := onOp s d 0x90 .head (portSet d)

/-- Channel count, encoding and packet time are within R263's limits. -/
def audFormatOk (ch ptime : Nat) : Bool := decide (1 ≤ ch) && decide (ch ≤ 64) && decide (ptime ≤ 1) && !(ptime == 0 && decide (8 < ch))

/-- A route, or a change that waits, names a stream. -/
def State.streamUsed (s : State) (st : Nat) : Bool :=
  s.aud.routes.any (fun e => (e.2.valid && e.2.src / 64 == st) ||
    (match e.2.change with
     | some c => (match c.src with
       | some (v, src, _) => v && src / 64 == st
       | none => false)
     | none => false))

def streamSet (d : Desc) (s : State) : State :=
  let st := d.num 0 1; let v := d.num 1 3
  if !d.only [(0, 0, 8), (1, 0, 8), (2, 0, 3), (3, 0, 1)] || !audFormatOk (d.num 1 1) (d.bitsAt 2 1 2) then s.finish d 0x91 stFormat
  else if (match Map.find s.aud.streams st with
      | some o => o % 65536 != v % 65536
      | none => false) && s.streamUsed st then s.finish d 0x91 0x902
  else { s with aud := { s.aud with streams := Map.put s.aud.streams st v } }.finish d 0x91 stOk

/-- R263: STREAM_SET. -/
def execStreamSet (d : Desc) (s : State) : Host.Outcome State Fault Refusal := onOp s d 0x91 .head (streamSet d)

/-- A change of a channel is accepted (R266): it replaces a pending one and keeps its start time. -/
def State.newChange (s : State) (ch : Nat) (d : Desc) (src : Option (Bool × Nat × Nat)) (gain : Option Nat) (mute : Option Bool) : State :=
  let s := s.playDue
  let r := (s.audCh ch).getD .off
  let src := if src = some (r.valid, r.src, r.group) then none else src
  let gain := if gain = some r.gain then none else gain
  let mute := if mute = some r.mute then none else mute
  let since := match r.change with
    | some c => c.since
    | none => s.core
  let stage := match r.change with
    | some c => if c.stage = 1 || c.stage = 2 then c.stage else 0
    | none => 0
  let s := match r.change with
    | some c => (s.setAudCh ch { r with change := none }).finish c.desc (chOp ch) 0x903
    | none => s
  if src.isNone && gain.isNone && mute.isNone && stage = 0 then (s.setAudCh ch { r with change := none }).finish d (chOp ch) stOk
  else
    let c : AudChange := ⟨src, gain, mute, since, d, stage, stage == 1⟩
    (s.starts d).putCh ch r { (if stage = 2 then r.takeSrc c else r) with change := some c }

/-- The part of ROUTE_SET and CAPTURE_SET that is alike (R263, R264). -/
def State.channelSet (s : State) (d : Desc) (ch src group : Nat) : State :=
  s.newChange ch d (if d.flag 8 1 then some (d.flag 4 7, src, group) else none)
    (if d.flag 8 2 then some (d.num 6 2) else none) (if d.flag 8 3 then some (d.flag 8 0) else none)

def routeSet (d : Desc) (s : State) : State :=
  let port := d.num 0 1; let slot := d.num 1 1
  if !d.only [(0, 0, 8), (1, 0, 8), (2, 0, 8), (3, 0, 6), (4, 0, 6), (4, 7, 1), (6, 0, 16), (8, 0, 4)] || 15 < port ||
      (s.audSide port 0).slots ≤ slot then s.finish d 0x92 stFormat
  else s.channelSet d (16 * port + slot) (64 * d.num 2 1 + d.bitsAt 3 0 6) (d.bitsAt 4 0 6)

/-- R263, R266: ROUTE_SET; it completes when its changes have applied. -/
def execRouteSet (d : Desc) (s : State) : Host.Outcome State Fault Refusal := onOp s d 0x92 .head (routeSet d)

/-- A transmit flow is of KIND 2 (R141). -/
def State.audioFlow (s : State) (f : Nat) : Bool :=
  match Map.find s.net.txflows f with
  | some o => numAt o 1 1 == 2
  | none => false

/-- The channel count of a flow (R264). -/
def State.flowCh (s : State) (f : Nat) : Nat := Map.getD s.aud.txaud f 0 % 256

def captureSet (d : Desc) (s : State) : State :=
  let port := d.num 0 1; let slot := d.num 1 1; let flow := d.num 2 1; let ch := d.bitsAt 3 0 6
  if !d.only [(0, 0, 8), (1, 0, 8), (2, 0, 8), (3, 0, 6), (4, 7, 1), (6, 0, 16), (8, 0, 4)] || 15 < port || 63 < flow ||
      (s.audSide port 1).slots ≤ slot then s.finish d 0x93 stFormat
  else if !s.audioFlow flow then s.finish d 0x93 0x904
  else s.channelSet d (256 + 64 * flow + ch) (16 * port + slot) 0

/-- R264, R266: CAPTURE_SET; it completes when its changes have applied. -/
def execCaptureSet (d : Desc) (s : State) : Host.Outcome State Fault Refusal := onOp s d 0x93 .head (captureSet d)

/-- Samples of a packet of a flow (R264). -/
def packetSamples (v : Nat) : Nat := if bits v 9 2 = 0 then 48 else 6

def txaudSet (d : Desc) (s : State) : State :=
  let f := d.num 0 1
  if !d.only [(0, 0, 8), (1, 0, 8), (2, 0, 3)] || 63 < f || !audFormatOk (d.num 1 1) (d.bitsAt 2 1 2) then s.finish d 0x94 stFormat
  else if !s.audioFlow f then s.finish d 0x94 0x904
  else
    let k := packetSamples (d.num 1 2)
    { s with aud := { s.aud with txaud := Map.put s.aud.txaud f (d.num 1 2)
                                 nextPkt := Map.put s.aud.nextPkt f (ceilDiv s.blockNum k * k) } }.finish d 0x94 stOk

/-- R264: TXAUD_SET. -/
def execTxaudSet (d : Desc) (s : State) : Host.Outcome State Fault Refusal := onOp s d 0x94 .head (txaudSet d)

def groupSet (d : Desc) (s : State) : State :=
  let g := d.num 0 1; let delay := d.num 4 4
  if !d.only [(0, 0, 8), (4, 0, 32)] || 63 < g || 48000 < delay then s.finish d 0x95 stFormat
  else if Map.getD s.aud.groups g 0 = delay && !s.aud.regroup.any (fun x => x.1 == g) then s.finish d 0x95 stOk
  else
    let s := s.playDue
    let s := s.starts d
    let s := (s.aud.regroup.filter (fun x => x.1 == g)).foldl (fun (s : State) (x : Nat × Nat × Desc × Bool) => s.finish x.2.2.1 0x95 0x903) s
    let rs := s.aud.routes.map (fun e =>
      if e.2.valid ∧ e.2.group = g then
        (e.1, if e.2.gstage = 4 then { e.2 with gstage := 3 }
              else if e.2.gstage = 0 || e.2.gstage = 5 then { e.2 with gstage := 1, gsince := s.core } else e.2)
      else e)
    let l := s.aud.regroup.filter (fun (x : Nat × Nat × Desc × Bool) => x.1 != g)
    { s with aud := { s.aud with routes := rs, regroup := l ++ [(g, delay, d, false)] } }.moveGroups

/-- R263: GROUP_SET; its channels mute, the delay changes, and they unmute. -/
def execGroupSet (d : Desc) (s : State) : Host.Outcome State Fault Refusal := onOp s d 0x95 .head (groupSet d)

/-- Sample `n` of a flow channel, 0 where nothing was captured (R264). -/
def State.capturedAt (s : State) (key n : Nat) (l24 : Bool) : Int :=
  let l := Map.getD s.aud.packs key []
  let back := diff32 (diff32 s.blockNum 64 + s.aud.pos) n
  let x := if 1 ≤ back && back ≤ l.length then l.getD (l.length - back) 0 else 0
  if l24 then x else clampI ((x + 128) / 256) (-32768) 32767

end Sys2Proof.Machine
end

