-- ==== Sys2Proof/Machine/Fault.lean ====
section
/-! DEFINITION. Fault events, block reset, memory protection, the supply monitor, the Ranger watchdog and load, and the
diagnostics opcodes (R290 - R310). -/

namespace Sys2Proof.Machine

/-- CK_CORE cycles of 1 ms by the manual's counts (R302: 100 ms is 10,070,800 CK_SYS cycles). -/
def msCycles : Nat := 100708 * 16

/-- Sources that are an uncorrectable Local Memory read by their block (R296). -/
def lmReadSource (e : Nat × Nat) : Bool :=
  [E.HQS_DESC_ECC, E.CNP_UND_ECC, E.CNP_STORE_ECC, E.CNP_SUB_ECC, E.LCR_TABLE_ECC, E.LCR_DCT_ECC, E.BRN_FB_ECC,
   E.BRN_MAP_ECC, E.AUD_AUD_ECC].contains e

/-- Sources that are an uncorrectable read of another covered memory (R296). -/
def sramSource (e : Nat × Nat) : Bool := [E.STP_BANK_ECC, E.CNP_CONV_ECC, E.BRN_SCRIPT_ECC, E.PAT_PAT_ECC, E.TRM_REPAIR_ECC, E.SDB_SCRUB_UNCORR].contains e

/-- The counter that counts with a source (R212, R241, R315). -/
def sourceCount (e : Nat × Nat) : Option Fld :=
  if e = E.BRN_UNDERRUN then some F.BRN_UNDERRUN
  else if e = E.LCR_TABLE_ECC then some F.LCR_ECC_ZERO
  else if e = E.THM_THR_DROP then some F.THM_THR_DROP
  else none

/-- Is a block present in the device's role (R380)? -/
def State.blockHere (s : State) (b : Nat) : Bool :=
  if b = 6 || b = 7 || b = 8 || b = 9 || b = 15 then s.isHead
  else if b = 12 || b = 13 || b = 14 then s.isTile
  else if b = 16 then s.isPair
  else decide (b < 23)

/-- A word of the source store, or of a conversion block or LUT in Canopy SRAM, could not be read: which one is a free value (R188,
R207; log entry 189). -/
def State.canopyBad (s : State) (e : Nat × Nat) : Option CanopyEcc :=
  let x := Config.freeNat s.free; let y := Config.freeNat (s.free + 1)
  if e = E.CNP_STORE_ECC then some (.store (x % 16) (x / 16) y)
  else if e = E.CNP_CONV_ECC then some (if bit x 0 then .conv (y % 16) else .lut (y % 8) (y / 8 % 1025))
  else none

/-- The composition in progress reads that word: on a tile the band at the front, on a head the preview (R188, R207). -/
def State.noteCanopy (s : State) (e : Nat × Nat) : State :=
  match s.canopyBad e with
  | none => s
  | some w =>
    let front := s.cnp.queue.head?
    let ps := s.cnp.passes.map (fun p => { p with bands := p.bands.map (fun b =>
      if front = some (p.frame, b.1) then (b.1, { b.2 with eccs := w :: b.2.eccs }) else b) })
    let pv := s.cnp.preview.map (fun v => { v with eccs := w :: v.eccs })
    { s.drawn.drawn with cnp := { s.cnp with passes := ps, preview := pv } }

/-- A word of the script SRAM that could not be read: the run of a group, which one is a free value, stops there with its pins low
(R241; log entry 189). -/
def State.noteScript (s : State) (e : Nat × Nat) : State :=
  if e = E.BRN_SCRIPT_ECC then
    let k := Config.freeNat s.free % max 1 s.brn.runs.length
    let rs := ((List.range s.brn.runs.length).zip s.brn.runs).map (fun x =>
      if x.1 = k then (x.2.1, { x.2.2 with cut := some (x.2.2.cut.getD s.core) }) else x.2)
    { s.drawn with brn := { s.brn with runs := rs } }
  else s

/-- A word that comes late is sent as 0 (R241): which run and which word is a free value (log entry 189). -/
def State.noteLate (s : State) (e : Nat × Nat) : State :=
  if e = E.BRN_UNDERRUN then
    let k := Config.freeNat s.free % max 1 s.brn.runs.length; let x := Config.freeNat (s.free + 1)
    let rs := ((List.range s.brn.runs.length).zip s.brn.runs).map (fun y =>
      if y.1 = k then (y.2.1, { y.2.2 with dark := (8 * y.2.1 + x % 8, x / 8 % 64, x / 512) :: y.2.2.dark }) else y.2)
    { s.drawn.drawn with brn := { s.brn with runs := rs } }
  else s

/-- A pattern engine's parameters could not be read: which one is a free value (log entry 189), and it counts as disabled for the
frame (R257). -/
def State.notePattern (s : State) (e : Nat × Nat) : State :=
  if e = E.PAT_PAT_ECC then
    let m := setBit (s.patOffAt s.frameNow) (Config.freeNat s.free % 8); let on := s.rd F.PAT_ENG_ON
    { s.drawn with lcr := { s.lcr with patOff := some (s.frameNow, m) } }.wr F.PAT_ENG_ON (on - (on &&& m))
  else s

/-- R290: a source's detector fires; after BANK_ECC the unit started next reads its parameters of the frame before (R59), and a word
that the Canopy cannot read makes its layer transparent where it is read (R188, R207); THR_DROP says that the intake FIFO is full
(R315). -/
def faultEvent (b i : Nat) (s : State) : State :=
  if s.blockHere b && (Map.find (reactDefaults b) i).isSome then
    let s := s.detect (b, i)
    let s := if (b, i) = E.STP_BANK_ECC then { s with stp := { s.stp with imgBad := true } } else s
    let s := if (b, i) = E.THM_THR_DROP && s.isTile then { s with cnp := { s.cnp with fifoFull := true } } else s
    let s := (if (b, i) = E.LMC_UNCORR then s.countUncorr else s).noteCanopy (b, i)
    let s := ((s.noteScript (b, i)).noteLate (b, i)).notePattern (b, i)
    let s := match sourceCount (b, i) with
      | some f => s.inc f
      | none => s
    if lmReadSource (b, i) then s.lmUncorr else if sramSource (b, i) then s.countUncorr else s
  else s

def execFaultEvent (block source : Nat) (s : State) : Host.Outcome State Fault Refusal := onLive s (faultEvent block source)

/-- R293: a host-commanded block reset. -/
def execBlockReset (block : Nat) (s : State) : Host.Outcome State Fault Refusal :=
  onLive s (fun s => if s.blockHere block then s.blockReset block else s)

/-- Remove the first window of a block. -/
def dropWindow (b : Nat) : List Window → List Window
  | [] => []
  | w :: ws => if w.block = b then ws else w :: dropWindow b ws

/-- R293: the oldest quiesce window of a block ends. -/
def quiesceEnd (b : Nat) (s : State) : State :=
  match s.quiesce.find? (fun w => w.block == b) with
  | none => s
  | some w => { s.advanceTo (s.windowEnd w) with quiesce := dropWindow b s.quiesce }

def execQuiesceEnd (block : Nat) (s : State) : Host.Outcome State Fault Refusal := onLive s (quiesceEnd block)

/-- R295: 1,007,080 CK_SYS cycles have passed since the last block reset began. -/
def resetLimitEnd (s : State) : State :=
  match s.limitFrom with
  | none => s
  | some c => { s.advanceTo (c + sysCycle * 1007080) with limitFrom := none }

def execResetLimitEnd (s : State) : Host.Outcome State Fault Refusal := onLive s resetLimitEnd

/-- May CODE be stored for a source (R291)? -/
def reactStorable (b i code : Nat) : Bool :=
  (Map.find (reactDefaults b) i).isSome && !(code == 2 && (resetMask b).isNone) && !(code == 0 && neverMasked b i) &&
    (b, i) != E.WDG_EXPIRED && (b, i) != E.THM_SHUTDOWN

/-- Store a reaction that differs from the default, or drop it. -/
def State.setCode (s : State) (b i code : Nat) : State :=
  match Map.find (reactDefaults b) i with
  | none => s
  | some d => { s with react := Map.set s.react (32 * b + i) code d }

/-- R291: a write to BLK_REACT; `we` says that the write may store. -/
def reactWrite (b : Nat) (v : Nat) (we : Bool) (s : State) : State :=
  let i := bits v 0 5; let code := bits v 8 2
  let s := s.wr (F.BLK_REACT_SRC b) i
  if we && bit v 31 && reactStorable b i code then s.setCode b i code else s

/-- R291: a write to a block's BLK_REACT. -/
def execBlkReactWrite (block : Nat) (v : Word) (s : State) : Host.Outcome State Fault Refusal :=
  onLive s (fun s => if s.blockHere block then reactWrite block v.toNat true s else s)

/-- R296, R297: one background read of Local Memory; a word found uncorrectable stays so until it is written, and one that
reads well is good. -/
def lmcScrub (addr : Nat) (read : EccRead) (s : State) : State :=
  if s.rd F.LMC_SCRUB_PERIOD = 0 then s
  else
    let rest := s.lmBad.filter (fun w => w != addr / 8)
    let s := { s with lmBad := if read = .uncorr then (addr / 8) :: rest else rest }
    match read with
    | .clean => s
    | .corr1 => (s.inc F.LMC_ECC_CORR1).countCorr
    | .corr2 => (s.inc F.LMC_ECC_CORR2).countCorr
    | .uncorr => s.lmUncorr

def execLmcScrub (addr : Nat) (read : EccRead) (s : State) : Host.Outcome State Fault Refusal :=
  onLive s (lmcScrub addr read)

/-- Is a rail monitored (R298)? -/
def State.monitored (s : State) (rail : Nat) : Bool := decide (rail < 4) || (rail == 4 && s.on F.SUP_CFG_BR_EN)

/-- R299: a rail crosses its warning level. -/
def supplyDip (rail : Nat) (s : State) : State :=
  if s.monitored rail then
    let s := { s with power := { s.power with dips := setBit s.power.dips rail } }
    let s := (s.wr F.SUP_STAT_BELOW_WARN (setBit (s.rd F.SUP_STAT_BELOW_WARN) rail)).wr F.SUP_STAT_SDB_SUSPENDED 1
    (s.inc F.SUP_DIPS).detect E.SUP_DIP_WARN
  else s

def execSupplyDip (rail : Nat) (s : State) : Host.Outcome State Fault Refusal := onLive s (supplyDip rail)

/-- R302: Ranger restarts the watchdog count; the WATCHDOG cause clears. -/
def wdgKick (s : State) : State :=
  if s.rangerUp then
    { s with care := { s.care with kickAt := s.core, counting := true, preDone := false }
             pair := { s.pair with wdgBad := false } }
  else s

def execWdgKick (s : State) : Host.Outcome State Fault Refusal := onLive s wdgKick

/-- CK_CORE cycles of the watchdog's timeout (R302). -/
def State.wdgTimeout (s : State) : Nat := s.rd F.WDG_CFG_TIMEOUT * msCycles

/-- R302: half the timeout has passed. -/
def preExpire (s : State) : State :=
  if s.care.counting && !s.care.preDone then
    let s := s.advanceTo (s.care.kickAt + s.wdgTimeout / 2)
    { s with care := { s.care with preDone := true } }.detect E.WDG_PRE_EXPIRE
  else s

def execPreExpire (s : State) : Host.Outcome State Fault Refusal := onLive s preExpire

/-- The commit engine has begun on the COMMIT of a flight: it runs in hardware from there (R49). -/
def State.inHardware (s : State) (f : Flight) : Bool :=
  s.stp.commits.any (fun c => f.op == 0x20 && c.phase != 0 && f.isOf c.desc)

/-- Ranger has taken a descriptor and not finished it (R74). -/
def State.atRanger (s : State) (f : Flight) : Bool := f.ranger && f.done.isNone && !s.inHardware f

/-- Descriptors in Ranger's hands complete with RANGER_RESTART, and nothing is left of them (R74). -/
def State.dropRanger (s : State) : State :=
  let r : Done := { status := stRangerRestart, result := 0, frame := s.frameNow, time := BitVec.ofNat 32 s.ns,
                    fromTile := none }
  let gone := fun d : Desc => (if d.mbx then s.trail.mbxFly else s.hq.flights).any (fun f => f.isOf d && s.atRanger f)
  let drop := fun l : List Flight => l.map (fun f => if s.atRanger f then { f with done := some r } else f)
  let fly := drop s.trail.mbxFly
  { s with
    hq := { s.hq with flights := drop s.hq.flights }
    stp := { s.stp with commits := s.stp.commits.filter (fun c => !(c.phase == 0 && gone c.desc)) }
    seed := { s.seed with waiting := s.seed.waiting.filter (fun w => !gone w.2.1) }
    trail := { s.trail with mbxFly := fly, sentDesc := s.trail.sentDesc.filter (fun x => !gone x.2.2) } }.flushMbx fly.length

/-- Ranger is held in reset and loads again (R303). -/
def State.coldRestart (s : State) : State :=
  let s := ((s.inc F.WDG_RESTARTS).wr F.WDG_STAT_RUNNING 0).wr F.WDG_STAT_HALTED 0
  { s with power := { s.power with ranger := .starting }, care := { s.care with counting := false } }.dropRanger

/-- Watchdog restarts within LOOP_WIN (R304). -/
def State.recent (s : State) : Nat :=
  (s.care.restarts.filter (fun c => decide (s.core < c + s.rd F.WDG_CFG_LOOP_WIN * 1000 * msCycles))).length

/-- The watchdog's restart, or its refusal after LOOP_MAX of them (R304). -/
def State.wdgRestart (s : State) : State :=
  if s.rd F.WDG_CFG_LOOP_MAX ≤ s.recent then
    let s := (s.wr F.WDG_STAT_RUNNING 0).wr F.WDG_STAT_HALTED 1
    let s := { s with power := { s.power with ranger := .halted }, care := { s.care with counting := false } }.dropRanger
    s.detect E.WDG_RESTART_LOOP
  else
    let s := { s with care := { s.care with restarts := s.core :: s.care.restarts } }
    let s := s.wr F.WDG_STAT_RECENT (min s.recent 15)
    s.coldRestart

/-- R302: the watchdog expires; in a pair the device resigns before the restart begins. -/
def watchdogExpires (s : State) : State :=
  let s := s.advanceTo (s.care.kickAt + s.wdgTimeout)
  let s := s.detect E.WDG_EXPIRED
  let s := { s with pair := { s.pair with wdgBad := true } }.resignNative
  s.wdgRestart

/-- The oldest commit that Ranger has not prepared, and the oldest mailbox descriptor in its hands (R305). -/
def State.waitCommit (s : State) : Option Desc := (s.stp.commits.find? (fun c => c.phase == 0)).map (·.desc)
def State.waitMbx (s : State) : Option Desc :=
  (s.trail.mbxFly.find? s.atRanger).map (fun f =>
    { sq := f.sq, mbx := true, sqHead := f.sqHead, flags := f.flags, rsv := 0, tag := f.tag, ops := f.ops })

/-- WDG.LOAD: a class's bit stands while its late item waits (R305); when Census analysis catches up is a free value, since nothing
tells of it (log entry 192). -/
def State.loadNow (s : State) : Nat :=
  let m := s.rd F.WDG_LOAD
  let still := fun (k : Nat) (c : Bool) (v : Nat) => if bit v k && !c then clrBit v k else v
  still 4 (bit (Config.freeNat s.free) 0)
    (still 3 (s.care.lateCue.isSome && s.net.cue.head? == s.care.lateCue)
      (still 2 (s.care.lateMbx.isSome && s.waitMbx == s.care.lateMbx)
        (still 1 (s.care.lateCommit.isSome && s.waitCommit == s.care.lateCommit) m)))

/-- Does a class of Ranger's work hold an item (R305)? -/
def State.workWaits (s : State) (cls : Nat) : Bool :=
  match cls with
  | 1 | 5 | 6 => true
  | 2 => s.waitCommit.isSome
  | 3 => s.waitMbx.isSome
  | 4 => s.net.cue.head?.isSome
  | _ => false

/-- R305: the oldest item of a work class is over its budget. -/
def busy (cls : Nat) (s : State) : State :=
  if s.workWaits cls then
    let s := { s with care := { s.care with
      lateCommit := if cls = 2 then s.waitCommit else s.care.lateCommit
      lateMbx := if cls = 3 then s.waitMbx else s.care.lateMbx
      lateCue := if cls = 4 then s.net.cue.head? else s.care.lateCue } }
    ((s.wr F.WDG_LOAD (setBit (s.rd F.WDG_LOAD) (cls - 1))).inc F.WDG_BUSY_COUNT).detect E.WDG_BUSY
  else s

def execBusy (cls : Nat) (s : State) : Host.Outcome State Fault Refusal := onLive s (busy cls)

/-- One record of FAULT_SNAPSHOT (R307). -/
def State.snapRecord (s : State) (b : Nat) : Bytes :=
  leBytes 4 (s.rd (F.BLK_STICKY b)) ++ leBytes 4 (s.rd (F.BLK_IRQ_PEND b)) ++ leBytes 4 (s.rd (F.BLK_MASKED b)) ++ [0, 0, 0, 0]

def faultSnapshot (d : Desc) (ok : Bool) (s : State) : State :=
  if !d.only [(8, 0, 64)] then s.finish d 0xF0 stFormat
  else if d.num 8 8 % 64 != 0 || mbxRefuses d (d.num 8 8) 368 then s.finish d 0xF0 stAddress
  else if !ok && !d.mbx then s.finish d 0xF0 stPcie
  else (s.returnTo d (d.num 8 8) ((List.range 23).flatMap s.snapRecord)).finish d 0xF0 stOk

/-- R307: FAULT_SNAPSHOT. -/
def execFaultSnapshot (d : Desc) (ok : Bool) (s : State) : Host.Outcome State Fault Refusal :=
  onOp s d 0xF0 .both (faultSnapshot d ok)

def rangerRestart (d : Desc) (s : State) : State :=
  if !d.only [] then s.finish d 0xF1 stFormat
  else
    let s := (s.starts d).coldRestart
    { s with care := { s.care with restartDesc := some d } }

/-- R307: RANGER_RESTART; it completes when Ranger is running again. -/
def execRangerRestart (d : Desc) (s : State) : Host.Outcome State Fault Refusal :=
  onOp s d 0xF1 .both (rangerRestart d)

end Sys2Proof.Machine
end

