-- ==== Sys2Proof/Machine/Trail.lean ====
section
/-! DEFINITION. Trail cycles: what a head sends in them, markers, source chunks, echoes, the mask epoch, previews and the
roster (R87, R101 - R123, R144, R281, R355). -/

namespace Sys2Proof.Machine

/-- Bytes of reserved fields. -/
def zeros (n : Nat) : Bytes := List.replicate n 0

/-- FEEDER KIND of a head (R107). -/
def State.feederKind (s : State) : Nat := s.side

/-- FEEDER of a head's port. -/
def State.feederOf (s : State) (k : Nat) : Nat := s.feederKind + 4 * k

/-- The frame start a head announces, if any (R108, R282): none on a standby head out of FB_SER lock. -/
def State.announced (s : State) : Option FixedStart :=
  if s.isPair && !s.claims && !s.on F.FBK_STAT_SER_LOCK then none else s.frames.fixed

/-- STATE of the commit field as carried (R54, R282). -/
def State.fieldCarried (s : State) : Nat :=
  if s.isPair && !s.claims && s.pair.overlap.isNone && !s.on F.FBK_STAT_SER_LOCK then 0 else s.stp.fieldState

/-- Bytes 64-251 of the marker a head's port sends (R107, R108). -/
def State.markerFields (s : State) (k : Nat) : Bytes :=
  let p := s.port k
  let fs := s.announced
  let peer := if s.isPair && !s.claims && s.on F.FBK_STAT_SER_LOCK then s.pair.peer.map (·.1) else none
  let applied := match peer with
    | some f => numAt f 36 2
    | none => s.rd F.STP_STATE_COMMIT_ID
  let mode := match peer with
    | some f => numAt f 21 1
    | none => s.mode
  let flags := b2n s.authority + 2 * b2n fs.isSome + 4 * s.rd F.GLB_EPOCH_STAT_PENDING
  let at1 := match fs with
    | some f => (p.cycle.toNat + (f.cycle - p.cycleAt) / trailCycle, (f.cycle - p.cycleAt) % trailCycle, f.num.toNat, f.dring)
    | none => (0, 0, 0, 0)
  leBytes 1 1 ++ leBytes 1 flags ++ leBytes 2 (s.feederOf k) ++ leBytes 4 p.cycle.toNat ++ leBytes 4 s.ns ++ leBytes 4 at1.1 ++
    leBytes 2 at1.2.1 ++ zeros 2 ++ leBytes 4 at1.2.2.1 ++ leBytes 3 at1.2.2.2 ++ zeros 1 ++ leBytes 2 applied ++
    leBytes 2 s.stp.fieldId.toNat ++ leBytes 1 s.fieldCarried ++ zeros 3 ++ leBytes 4 s.stp.fieldTarget.toNat ++
    leBytes 1 (s.rd F.GLB_EPOCH_STAT_EPOCH) ++
    leBytes 1 (if s.on F.GLB_EPOCH_STAT_PENDING then s.rd F.GLB_EPOCH_STAT_EPOCH + 1 else 0) ++ leBytes 1 mode ++ zeros 1 ++
    leBytes 4 (match s.trail.epochAt with
      | some c => c.toNat
      | none => 0) ++ zeros 140

/-- USE of a slot of a port in the plan set in force (R109). -/
def State.useOf (s : State) (k i : Nat) : Nat := bits (numAt (s.planBytes k (2 * i) 2) 0 2) 0 4

/-- The CK_CORE cycle at which a slot starts: 16.5 cycles each (R101). -/
def Port.slotStart (p : Port) (i : Nat) : Nat := p.cycleAt + 33 * i / 2

/-- Chunks that have waited over 16,896 cycles at a time are dropped (R110). -/
def State.dropOld (s : State) (k now : Nat) : State :=
  let p := s.port k
  let old := p.pool.filter (fun q => decide (q.since + trailCycle < now))
  if old.isEmpty then s
  else
    let s := s.setPort k { p with pool := p.pool.filter (fun q => decide (now ≤ q.since + trailCycle)) }
    (s.incBy (F.GLB_SLOT_PLAN_DROP k) old.length).detect E.GLB_PLAN_OVERRUN

/-- The key of a chunk slot (R102). -/
def QChunk.key (q : QChunk) : Bytes :=
  leBytes 2 q.line ++ leBytes 1 q.chunk ++ leBytes 1 q.bytes.length ++ leBytes 1 q.frameLo ++ List.replicate 5 0

/-- Pad a payload to 240 bytes. -/
def pad240 (b : Bytes) : Bytes := b ++ List.replicate (240 - b.length) 0

/-- A descriptor whose broadcast has sent its last slot completes (R58), and a prepare counts as sent (R51). -/
def State.bcastSent (s : State) (stream bid : Nat) : State :=
  if s.bcWaits stream bid then s
  else
    let done := s.trail.sentDesc.filter (fun x => x.1 == stream && x.2.1 == bid)
    let s := { s with trail := { s.trail with sentDesc := s.trail.sentDesc.filter (fun x => !(x.1 == stream && x.2.1 == bid)) } }
    let s := if stream = 2 then s.prepareSent else s
    done.foldl (fun s x =>
      let op := match s.hq.flights.find? (fun f => f.sq == x.2.2.sq && f.sqHead == x.2.2.sqHead && f.done.isNone) with
        | some f => f.op
        | none => if stream = 4 then 0xB5 else 0x12
      s.finish x.2.2 op stOk (if stream = 4 then bid else 0)) s

/-- Broadcasts none of whose slots waits on a port any more are complete (R51, R58; log entry 169). -/
def State.settleSent (s : State) : State := s.trail.sentDesc.foldl (fun s x => s.bcastSent x.1 x.2.1) s.settlePrepare

/-- The next tile of a port's roster after the one last addressed (R120). -/
def nextTile (l : List Nat) (last : Nat) : Option Nat :=
  match l.find? (fun t => decide (last < t)) with
  | some t => some t
  | none => l.head?

/-- An echo position carries the next REQ (R120). -/
def State.sendReq (s : State) (k i at0 : Nat) : State :=
  let p := s.port k
  match nextTile (p.heard.map (·.1)) p.echoTile with
  | none => s
  | some t =>
    let d := Map.find p.dTile t
    let body := leBytes 4 at0 ++ leBytes 3 (d.getD 0) ++ leBytes 1 (b2n d.isSome) ++ leBytes 2 (s.feederOf k)
    let r : EchoReq := ⟨p.eseq.toNat, t, at0⟩
    (s.setPort k { p with eseq := p.eseq + 1, echoTile := t, echo := p.echo ++ [r] }).emit
      (.slot k i 6 1 (tileKey t (leBytes 2 p.eseq.toNat)) (pad240 body))

/-- One payload slot of a head's port is filled; a standby head sends class-3 and class-4 positions empty (R110, R119, R283). -/
def State.fillSlot (s : State) (k i : Nat) : State :=
  let at0 := (s.port k).slotStart i
  let s := s.dropOld k at0
  let p := s.port k
  match s.useOf k i with
  | 1 =>
    (match p.pool with
     | q :: r =>
       if q.since ≤ at0 then
         (s.setPort k { p with pool := r }).emit (.slot k i q.cls (q.source + 16 * b2n q.last) q.key (pad240 q.bytes))
       else s
     | [] => s)
  | 3 =>
    (match p.uni with
     | (since, t, b) :: r =>
       if s.authority && decide (since ≤ at0) then
         (s.setPort k { p with uni := r }).emit (.slot k i 3 0 (tileKey t []) (pad240 b))
       else s
     | [] => s)
  | 4 =>
    (match p.bc with
     | q :: r =>
       if q.since ≤ at0 then
         let s := s.setPort k { p with bc := r }
         let s := if s.authority then s.emit (.slot k i 4 q.stream (leBytes 2 q.bid ++ leBytes 4 q.bseq ++ leBytes 4 q.total) q.payload)
           else s
         s.bcastSent q.stream q.bid
       else s
     | [] => s)
  | 6 => s.sendReq k i at0
  | _ => s

/-- The slots of the cycle in progress that have started are filled, from `i` on. -/
def State.fillSlots (s : State) (k : Nat) : Nat → State
  | 0 => s
  | n + 1 =>
    let i := (s.port k).slotAt
    if i < 1024 && decide ((s.port k).slotStart i ≤ s.core) then
      let s := s.fillSlot k i
      (s.setPort k { s.port k with slotAt := i + 1 }).fillSlots k n
    else s

/-- READY of R273. -/
def State.pairReady (s : State) : Bool :=
  (s.on F.CLK_ROOT_STAT_LOCK || s.rd F.CLK_ROOT_STAT_REF = 4) && !s.forced && s.stp.active.stand.isSome &&
    (s.isHead || s.feedLive 0 || s.feedLive 1)

/-- The FB_SER frame of the cycle that starts (R281).  A head without the claim sends its own measured maximum as DRING, from which
the active one forms D_ring_max (R108; DEDUCED, log entry 167). -/
def State.serFrame (s : State) : Bytes :=
  let fs := if s.isHead then s.frames.fixed else none
  let pend := s.isHead && s.on F.GLB_EPOCH_STAT_PENDING
  let flags := b2n s.claims + 2 * b2n s.pairReady + 4 * s.side + 16 * s.rd F.FBK_CTRL_ARB + 32 * s.rd F.FBK_CTRL_PATROL +
    64 * b2n fs.isSome + 128 * b2n pend
  let echo := match s.pair.peer with
    | some (f, r) => (numAt f 4 4, s.core - r)
    | none => (0, 0)
  let mid := if s.isTile then zeros 28
    else
      leBytes 4 (match fs with
        | some f => f.cycle
        | none => 0) ++
      leBytes 4 (match fs with
        | some f => f.num.toNat
        | none => 0) ++
      leBytes 3 (if s.claims then (match fs with
        | some f => f.dring
        | none => 0) else s.ownDmax) ++ leBytes 1 (s.rd F.GLB_EPOCH_STAT_EPOCH) ++ leBytes 2 (s.rd F.STP_STATE_COMMIT_ID) ++
      leBytes 2 s.stp.fieldId.toNat ++ leBytes 1 s.stp.fieldState ++ zeros 3 ++ leBytes 4 s.stp.fieldTarget.toNat ++
      leBytes 4 (match s.trail.epochAt with
        | some c => if pend then c.toNat else 0
        | none => 0)
  let body := leBytes 2 0x4246 ++ leBytes 1 1 ++ leBytes 1 flags ++ leBytes 4 s.core ++ leBytes 4 echo.1 ++ leBytes 4 echo.2 ++
    leBytes 4 (s.port 0).cycle.toNat ++ leBytes 1 (s.rd F.FBK_HEALTH_SCORE) ++ leBytes 1 s.mode ++ leBytes 2 (s.rd F.FBK_HEALTH_CAUSES) ++
    mid ++ leBytes 4 (s.rd F.FBK_DSEQ) ++ leBytes 4 (s.rd F.FBK_DIGEST)
  body ++ leBytes 4 (crc32c body).toNat

/-- The CK_CORE cycle at which a port's Trail cycle in progress ends; the first of all starts when it is commanded. -/
def State.cycleEnd (s : State) (k : Nat) : Nat := if (s.port k).cycleAt = 0 then s.core else (s.port k).cycleAt + trailCycle

/-- A port's next Trail cycle starts: TRL0's is the device's reference cycle, whose number the others take (R161, R281). -/
def State.nextCycle (s : State) (k : Nat) : State :=
  let p := s.port k
  let s := s.advanceTo (s.cycleEnd k)
  let c := if k = 0 then p.cycle + 1 else (s.port 0).cycle
  s.setPort k { s.port k with cycle := c, cycleAt := s.core, slotAt := 1 }

/-- A pending epoch comes into force at its cycle (R116). -/
def State.epochTick (s : State) : State :=
  match s.trail.epochAt with
  | some c =>
    if reached32 c.toNat (s.port 0).cycle.toNat then
      let s := (s.wr F.GLB_EPOCH_STAT_EPOCH (s.rd F.GLB_EPOCH_STAT_EPOCH + 1)).wr F.GLB_EPOCH_STAT_PENDING 0
      { s with trail := { s.trail with epochAt := none } }
    else s
  | none => s

/-- Bytes 64-255 of a marker slot: its fields and their CRC (R107). -/
def markerBytes (fields : Bytes) : Bytes := fields ++ leBytes 4 (crc32c fields).toNat

/-- What a port that is not Active sends in a Trail cycle (R86, R87, R90): link-control cycles from Lock on. -/
def State.sendControl (s : State) (k : Nat) : State :=
  if s.lst k = 3 || s.lst k = 4 then s.sendLink k none
  else if s.lst k = 5 then s.sendLink k (some (s.capMsg k))
  else s

/-- Start of a head's Trail cycle on a port: the old cycle runs to its end and fills every slot it has left, a port that ends
for Dormant stops, then the plan selected for it comes into force and the marker goes out (R87, R97, R107, R109, R110,
R281). -/
def State.headCycle (s : State) (k : Nat) : State :=
  let s := (s.fixDue (s.cycleEnd k)).settleSent
  let s := (s.advanceTo (s.cycleEnd k)).fillSlots k 1023
  let s := if (s.port k).closing.isSome then s.closeDown k else s
  let s := s.nextCycle k
  let s := s.setPort k { s.port k with plan := s.trail.planNext }
  let s := if k = 0 then s.wr F.GLB_PLAN s.trail.planNext else s
  let s := s.pumpOuts
  let s := if k = 0 then s.epochTick else s
  let s := if k = 0 && s.isPair then s.emit (.ser s.serFrame) else s
  if s.portActive k then (s.sendMarker k).emit (.marker k (markerBytes (s.markerFields k)))
  else (s.setPort k { s.port k with slotAt := 1024 }).sendControl k

/-- A tile's Trail cycle: a port that ends for Dormant stops, link-control cycles go out where the port sends them, and the return
traffic of each cycle is produced (R87, R94, R97): EVENTs that waited, MBX_ACK, and LOCK_REPORT every 16 cycles while it has an ID
and no current D (R79, R81, R355). -/
def State.tileCycle (s : State) (k : Nat) : State :=
  let s := s.advanceTo (s.cycleEnd k)
  let s := if (s.port k).closing.isSome then s.closeDown k else s
  let s := s.nextCycle k
  let s := if k = 0 && s.isPair then s.emit (.ser s.serFrame) else s
  let s := if s.portActive k then (if s.on (F.TRL_STAT_LINK_CYCLES k) then s.sendLink k none else s) else s.sendControl k
  if s.pref.getD 0 != k then s
  else
    let wait := s.trail.evWait
    let s := { s with trail := { s.trail with evSent := 0, evWait := 0 } }
    let s := (List.range 23).foldl (fun s b => if bit wait b then s.raiseEvent b else s) s
    let s : State := if s.trail.ackDue then
        { s with trail := { s.trail with ackDue := false
                                         pendAck := some (retMsg 1 ((s.trail.expect.getD 0).toNat) []) } }
      else s
    let noD := s.on F.GLB_TILE_ID_VALID && !s.on F.GLB_D_WEST_VALID && !s.on F.GLB_D_EAST_VALID
    if !noD then { s with trail := { s.trail with lockAge := 0 } }
    else if s.trail.lockAge = 15 then { s.sendLockReport with trail := { s.sendLockReport.trail with lockAge := 0 } }
    else { s with trail := { s.trail with lockAge := s.trail.lockAge + 1 } }

/-- R110: TRAIL_CYCLE_START. -/
def execTrailCycleStart (port : Nat) (s : State) : Host.Outcome State Fault Refusal :=
  onLive s (onPort port (fun s => if s.isHead then s.headCycle port else s.tileCycle port))

/-- R110: a queued chunk's time is over. -/
def chunkDrop (k : Nat) (s : State) : State :=
  if s.isTile then s
  else
    match (s.port k).pool with
    | [] => s
    | q :: _ =>
      let s := (s.advanceTo (q.since + trailCycle + 1)).fillSlots k 1023
      s.dropOld k s.core

def execChunkDrop (port : Nat) (s : State) : Host.Outcome State Fault Refusal := onLive s (onPort port (chunkDrop port))

/-- A marker slot is good (R107). -/
def markerGood (b : Bytes) : Bool :=
  b.length == 256 && numAt b 64 1 == 1 && numAt b 252 4 == (crc32c ((b.drop 64).take 188)).toNat && bits (numAt b 65 1) 3 5 == 0 &&
    bits (numAt b 66 2) 13 3 == 0 && zeroAt b 82 2 && zeroAt b 91 1 && bits (numAt b 96 1) 2 6 == 0 && zeroAt b 97 3 && zeroAt b 107 1 &&
    zeroAt b 112 140

/-- A feed's liveness changes with a marker, good or missing (R117). -/
def State.judgeFeed (s : State) (k : Nat) : State :=
  let f := (s.port k).feed
  let live := s.feedLive k
  let f := if live then { f with liveFor := f.liveFor + 1 } else { f with liveFor := 0, dropped := f.dropped || decide (0 < f.liveFor) }
  let f := if live && decide (s.rd F.GLB_FEED_CFG_HOLD ≤ f.liveFor) then { f with dropped := false } else f
  s.setPort k { s.port k with feed := f }

/-- A tile that does not forward sends the turnaround stream on a port that transmits slot cycles, a cycle for each marker due
there (R113): KIND 3, the tile's ID and the received CYCLE, every other field 0. -/
def State.turnaround (s : State) (k : Nat) : State :=
  if s.portActive k && !s.on (F.TRL_STAT_LINK_CYCLES k) && !s.forwards then
    let fields := leBytes 1 1 ++ zeros 1 ++ leBytes 2 (3 + 4 * k + 16 * s.rd F.GLB_TILE_ID_ID) ++
      leBytes 4 (s.port k).feed.cycle.toNat ++ zeros 180
    (s.sendMarker k).emit (.marker k (markerBytes fields))
  else s

/-- A marker slot is forwarded out of a tile's other port with the BIP of its marker stripe rewritten (R107, R112). -/
def State.relayMarker (s : State) (k : Nat) (b : Bytes) : State :=
  if s.forwards then s.drawn.emit (.relay (1 - k) 0 (s.markerStripe ++ b.drop 64)) else s

/-- A marker is counted missing (R107): its feed's position moves on by one Trail cycle. -/
def State.missMarker (s : State) (k : Nat) : State :=
  let f := (s.port k).feed
  let s := s.setPort k { s.port k with feed := { f with missing := f.missing + 1, arr := f.arr + trailCycle, cycle := f.cycle + 1 } }
  let s := (s.inc (F.GLB_SLOT_MARKER_MISS k)).judgeFeed k
  let at0 := numAt f.fields 44 4
  let s := if s.isTile && s.pref = some k && s.on F.GLB_EPOCH_STAT_PENDING && reached32 at0 (f.cycle + 1).toNat then
      (s.wr F.GLB_EPOCH_STAT_EPOCH (s.rd F.GLB_EPOCH_STAT_EPOCH + 1)).wr F.GLB_EPOCH_STAT_PENDING 0
    else s
  (s.turnaround k).feedUpdate

/-- CK_CORE cycles from the first bit of a slot to its last stripe's end (R101): 16.5, rounded up. -/
def slotCycles : Nat := 17

/-- When a decision counts as received (R54): with the last stripe of its marker slot; a repeat of it does not put that off. -/
def Staged.heard (t : Staged) (target : Word) (now : Nat) : Option (Word × Nat) :=
  match t.apply with
  | some (g, at0) => if g = target then some (g, at0) else some (target, now + slotCycles)
  | none => some (target, now + slotCycles)

/-- The commit field of a good marker on a tile, from either feeder (R54). -/
def State.takeField (s : State) (f : Bytes) : State :=
  let id := BitVec.ofNat 16 (numAt f 30 2); let st := bits (numAt f 32 1) 0 2
  match s.stp.staged with
  | none => s
  | some t =>
    if t.id != id then s
    else if st = 1 then { s with stp := { s.stp with staged := some { t with apply := t.heard (BitVec.ofNat 32 (numAt f 36 4)) s.core } } }
    else if st = 2 then s.unstage
    else s

/-- The time counter from a marker of the preferred feeder (R157). -/
def State.loadTime (s : State) (k time : Nat) : State :=
  { s with ptp := BitVec.ofNat 72 (time * 2 ^ 40 + s.rd (dReg k) * 64000 * 2 ^ 40 / 103125) }

/-- The frame start a marker announces is latched (R122): counted from this marker to that of cycle FS_CYCLE, so each later marker
of the same feeder sets it afresh and FS_CYCLE's own settles it; a latch another feeder has scheduled stands (R118). -/
def State.takeStart (s : State) (k : Nat) (f : Bytes) : State :=
  if !bit (numAt f 1 1) 1 then s
  else
    let num := BitVec.ofNat 32 (numAt f 20 4)
    let a : Int := s.core + sval (diff32 (numAt f 12 4) (numAt f 4 4)) 32 * trailCycle
    let c := a + numAt f 16 2 + numAt f 24 3 - s.rd (dReg k)
    let s := { s with frames := { s.frames with told := true } }
    let mine := match s.frames.latch with
      | none => true
      | some l => l.2 == num && s.frames.latchBy == k && decide (diff32 (numAt f 12 4) (numAt f 4 4) < 2 ^ 31)
    if !mine || c ≤ s.core then s
    else { s with frames := { s.frames with latch := some (c.toNat, num), latchBy := k } }

/-- The fields a tile takes from its preferred feeder's marker (R52, R116, R118, R122, R157). -/
def State.takeMarker (s : State) (k : Nat) (f : Bytes) : State :=
  let s := s.loadTime k (numAt f 8 4)
  let s := (s.wr F.GLB_EPOCH_STAT_EPOCH (numAt f 40 1)).wr F.GLB_EPOCH_STAT_PENDING (bits (numAt f 1 1) 2 1)
  let s := s.takeStart k f
  let stale := s.rd F.STP_STATE_COMMIT_ID != numAt f 28 2
  (s.detectIf (stale && !bit (s.rd (F.BLK_STICKY 2)) 4) E.STP_EPOCH_MISMATCH).lockUpdate

/-- A good marker on a tile's port (R107, R113, R117, R118); where Root has held over it slews again to the feed that is back
(R25). -/
def State.goodMarker (s : State) (k : Nat) (b : Bytes) : State :=
  let f := (b.drop 64).take 188
  let kind := bits (numAt f 2 2) 0 2
  let p := s.port k
  let s := s.setPort k { p with feed := { p.feed with
      headFed := decide (kind ≤ 2), missing := 0, arr := s.core, cycle := BitVec.ofNat 32 (numAt f 4 4)
      active := bit (numAt f 1 1) 0, feeder := numAt f 2 2, fields := f } }
  let s := (s.judgeFeed k).feedUpdate
  let s := s.turnaround k
  if 2 < kind then s
  else
    let s := s.takeField f
    let s := if s.trail.prefNext = some k then s.takePref k (numAt f 42 1) else s
    let s := if s.pref = some k && s.rd F.CLK_ROOT_STAT_REF = 4 then (s.slewTo k).rootChanged else s
    if s.pref = some k then s.takeMarker k f else s

/-- The last commit of a standby ends as the copied abort says (R283): NAKs it has heard, or ACKs that are missing. -/
def State.copyAbort (s : State) (c : Commit) : State :=
  let missing := c.required.filter (fun t => !s.excluded t && !c.acks.contains t)
  let s := { s.revertShadow with stp := { s.revertShadow.stp with lastCommit := some (c.id, 5, c.postp, 0) } }
  let s := s.wr F.STP_STATE_FROZEN 0
  if !c.naks.isEmpty then s.endCommit c stAbortNak 0 c.naks
  else if !missing.isEmpty then s.endCommit c stAbortTimeout 0 (missing.map (fun t => (t, 0xFF)))
  else s.endCommit c stAbortCancel 0 []

/-- A head without the claim, or one whose takeover decision is open, copies the other head's commit field (R54, R280,
R283). -/
def State.copyField (s : State) (id : BitVec 16) (st : Nat) (tgt : Word) : State :=
  let fresh := st != 0 && st != 3 && !(s.stp.fieldId == id && s.stp.fieldState == st && s.stp.fieldTarget == tgt)
  let s := { s with stp := { s.stp with fieldId := id, fieldState := if st = 3 then 0 else st, fieldTarget := tgt } }
  if !fresh then s
  else
    let last := match s.stp.lastCommit with
      | some l => l.1 == id
      | none => false
    match s.stp.commits with
    | c :: _ =>
      if !c.loc && c.id = id && (c.phase = 1 || c.phase = 2) then
        (if st = 2 then s.copyAbort c
         else if s.claims then s.setCommit { c with phase := 3, frame := tgt } else s)
      else s.detectIf (!last && !(c.phase == 3 && c.id == id)) E.FBK_DIVERGE
    | [] => s.detectIf (!last) E.FBK_DIVERGE

/-- A marker of the other head that reaches this head through a ring (R280). -/
def State.headMarker (s : State) (f : Bytes) : State :=
  if s.isPair && (!s.claims || s.pair.takeover) && bits (numAt f 2 2) 0 2 == 3 - s.side then
    s.copyField (BitVec.ofNat 16 (numAt f 30 2)) (bits (numAt f 32 1) 0 2) (BitVec.ofNat 32 (numAt f 36 4))
  else s

/-- The marker stripe's blocks by physical lane, after the blocks that came before it (R85, R87, R100). -/
def State.withMarker (s : State) (k : Nat) (slot : Bytes) (rx : List (List Block)) : List (List Block) :=
  let map := s.rd (F.TRL_LANE_MAP k)
  (List.range rx.length).map (fun j =>
    let l := ((List.range 8).find? (fun l => bits map (3 * l) 3 == j)).getD j
    rx.getD j [] ++ [⟨ctrlHeader, BitVec.ofNat 64 (leNat (laneOf slot l))⟩])

/-- The blocks of a received Trail cycle are counted (R86, R87, R95). -/
def State.takeCycle (s : State) (k : Nat) (rx : List (List Block)) : State :=
  if rx.isEmpty then s else (s.takeBlocks k rx).judgeBer k (s.badCount k rx)

/-- R107: a port receives a marker slot, whose first bit is at the receive reference now. -/
def markerReceive (k : Nat) (b : Bytes) (rx : List (List Block)) (s : State) : State :=
  if !s.portActive k then s
  else
    let s := (s.takeCycle k (s.withMarker k b rx)).relayMarker k b
    if !markerGood b then s.missMarker k
    else if s.isHead then s.headMarker ((b.drop 64).take 188)
    else s.goodMarker k b

def execMarkerReceive (port : Nat) (slot : Bytes) (rx : List (List Block)) (s : State) : Host.Outcome State Fault Refusal :=
  onLive s (onPort port (markerReceive port slot rx))

/-- R107: no marker within one slot time after it was due. -/
def markerMissing (k : Nat) (rx : List (List Block)) (s : State) : State :=
  if !s.portActive k then s
  else
    let s := s.takeCycle k rx
    if s.isHead then s.inc (F.GLB_SLOT_MARKER_MISS k)
    else (s.advanceTo ((s.port k).feed.arr + trailCycle + 17)).missMarker k

def execMarkerMissing (port : Nat) (rx : List (List Block)) (s : State) : Host.Outcome State Fault Refusal :=
  onLive s (onPort port (markerMissing port rx))

/-- The wall frame of a FRAME_LO: a signed 8-bit difference from the frame in progress (R104). -/
def State.frameOf (s : State) (lo : Nat) : Int := sval ((lo + 256 - s.frameNow.toNat % 256) % 256) 8

/-- A source chunk that reaches a tile (R102, R104, R111). -/
def State.takeChunk (s : State) (k : Nat) (b : Bytes) : State :=
  let sub := slotSub b; let line := numAt b 2 2; let chunk := numAt b 4 1; let len := numAt b 5 1; let lo := numAt b 6 1
  let source := bits sub 0 4
  if !s.interest.any (fun e => e.takes source (bits line 0 13) chunk) then s
  else if bits sub 5 3 != 0 || bits line 13 3 != 0 || !zeroAt b 7 5 || len < 1 || 240 < len then s.hdrBad k
  else
    let d := s.frameOf lo
    let s := { s with trail := { s.trail with chunks := s.trail.chunks.filter (fun c => decide (0 ≤ s.frameOf c.1)) } }
    if d < 0 then (s.inc (F.GLB_SLOT_LATE k)).detect E.GLB_TAKE_LATE
    else if s.trail.chunks.contains (lo, source, line, chunk) then s.dup k
    else
      let s := { s with trail := { s.trail with chunks := (lo, source, line, chunk) :: s.trail.chunks } }
      (s.taken k).storeChunk source line chunk (s.frameNow + BitVec.ofInt 32 d) ((slotBody b).take len)

/-- R104: a source chunk. -/
def execChunkReceive (port index : Nat) (slot : Bytes) (s : State) : Host.Outcome State Fault Refusal :=
  onLive s (onPort port (fun s => s.onCopy port index slot [1, 2] (fun s => if s.isTile then s.takeChunk port slot else s)))

/-- R105: the head retransmits what a tile asks for, on the port it asked on, in that port's next broadcast positions. -/
def bcastGap (m : RetMsg) (s : State) : State :=
  let bid := numAt m.body 2 2; let stream := numAt m.body 4 1; let first := numAt m.body 8 4; let n := numAt m.body 12 4
  let old := s.trail.gaps.filter (fun g => g.2.1 != m.tile || decide ((m.rseq.toNat + 65536 - g.2.2 / 64) % 65536 ≤ 64))
  let s := { s with trail := { s.trail with gaps := (m.port, m.tile, 64 * m.rseq.toNat + m.idx) :: old } }
  match s.trail.sent.find? (fun x => x.1 == stream && x.2.1 == bid) with
  | none => s
  | some x =>
    if !s.authority then s
    else
      let ps := x.2.2
      let qs := (List.range ps.length).filter (fun i => decide (first ≤ i) && decide (i < first + n))
      let qs := qs.map (fun i => ({ since := s.core, stream := stream, bid := bid, bseq := i, total := ps.length, payload := ps.getD i [] } : QBcast))
      s.setPort m.port { s.port m.port with bc := qs ++ (s.port m.port).bc }

/-- The copy of a request that arrives on another port is served there too, once (R105). -/
def bcastGapAgain (m : RetMsg) (s : State) : State :=
  let x := 64 * m.rseq.toNat + m.idx
  if s.trail.gaps.any (fun g => g.2.1 == m.tile && g.2.2 == x) && !s.trail.gaps.contains (m.port, m.tile, x) then bcastGap m s else s

def execBcastGap (m : RetMsg) (s : State) : Host.Outcome State Fault Refusal :=
  onRetAgain m 8 (bcastGap m) (bcastGapAgain m) s

/-- R123: a tile's LOCK_REPORT. -/
def execLockReport (m : RetMsg) (s : State) : Host.Outcome State Fault Refusal :=
  onRet m 7 (fun s => { s with trail := { s.trail with locks := Map.put s.trail.locks m.tile m.body } }) s

/-- A tile takes a REQ (R120, R121): its D, and the RSP waits for an empty slot. -/
def State.takeReq (s : State) (k : Nat) (b : Bytes) : State :=
  let q := slotBody b
  if slotSub b = 2 || !s.forMe b then s
  else if slotSub b != 1 || bits (numAt b 2 2) 9 7 != 0 || !zeroAt b 6 6 || bits (numAt q 7 1) 1 7 != 0 || !zeroAt q 10 230 then
    s.hdrBad k
  else
    let s := s.taken k
    let w : EchoRspWait := ⟨k, numAt b 4 2, numAt q 0 4, numAt q 8 2, s.core⟩
    let s := { s with trail := { s.trail with rsps := s.trail.rsps ++ [w] } }
    if bit (numAt q 7 1) 0 then
      let s := s.setPort k { s.port k with feed := { (s.port k).feed with dLast := some (numAt q 4 3, s.core) } }
      (s.wr (dValid k) 1).lockUpdate
    else s

/-- R120: ECHO_REQ. -/
def execEchoReq (port index : Nat) (slot : Bytes) (s : State) : Host.Outcome State Fault Refusal :=
  onLive s (onPort port (fun s => s.onCopy port index slot [6] (fun s => if s.isTile then s.takeReq port slot else s)))

/-- DMAX of a port is its largest current D (R120). -/
def State.showDmax (s : State) (k : Nat) : State := s.wr (F.GLB_DMAX k) ((s.port k).dTile.foldl (fun m x => max m x.2) 0)

/-- A head takes an RSP (R120). -/
def State.takeRsp (s : State) (k : Nat) (b : Bytes) : State :=
  let q := slotBody b; let t := slotTile b
  if slotSub b != 2 || bits (numAt b 2 2) 9 7 != 0 || !zeroAt b 6 6 || !zeroAt q 10 230 then s.hdrBad k
  else
    let s := (s.taken k).hear k t
    let p := s.port k
    match p.echo.find? (fun r => r.eseq == numAt b 4 2 && r.tile == t && r.launch % 2 ^ 32 == numAt q 0 4) with
    | none => s
    | some r =>
      let rtt := s.core - r.launch; let hold := numAt q 4 4
      let s := s.setPort k { p with echo := p.echo.erase r }
      if rtt < hold then s
      else
        let s := s.setPort k { s.port k with dTile := Map.put (s.port k).dTile t ((rtt - hold) / 2 % 2 ^ 24) }
        s.showDmax k

/-- R120: ECHO_RSP. -/
def execEchoRsp (port index : Nat) (slot : Bytes) (s : State) : Host.Outcome State Fault Refusal :=
  onLive s (onPort port (fun s => s.onCopy port index slot [6] (fun s => if s.isHead then s.takeRsp port slot else s)))

/-- R120: a REQ without an RSP in 256 Trail cycles. -/
def echoTimeout (k : Nat) (eseq : BitVec 16) (s : State) : State :=
  match (s.port k).echo.find? (fun r => r.eseq == eseq.toNat) with
  | none => s
  | some r =>
    let s := s.advanceTo (r.launch + 256 * trailCycle)
    s.setPort k { s.port k with echo := (s.port k).echo.erase r }

def execEchoTimeout (port : Nat) (eseq : BitVec 16) (s : State) : Host.Outcome State Fault Refusal :=
  onLive s (onPort port (echoTimeout port eseq))

/-- A head takes a preview slot (R144). -/
def State.takePreview (s : State) (k : Nat) (b : Bytes) : State :=
  let q := slotBody b; let n := numAt q 4 1
  let m : RetMsg := ⟨k, 0, b, 0⟩
  if slotSub b != 0 || bits (numAt b 2 2) 9 7 != 0 || !zeroAt b 7 5 || n < 1 || 77 < n || bits (numAt q 5 1) 2 6 != 0 ||
      !zeroAt q 6 2 || !zeroAt q 239 1 then s.hdrBad k
  else if !s.freshRet m then s.dup k
  else
    let s := (s.takeRet m).taken k
    match Map.find s.net.pvw 1 with
    | none => s
    | some o =>
      let w := numAt o 2 2; let h := numAt o 4 2; let row := numAt q 0 2; let col := numAt q 2 2
      if !bit (numAt o 16 1) 0 || h ≤ row then s
      else
        let a := numAt o 8 8 + numAt b 6 1 % 2 * truthImage w h + 3 * (row * w + col)
        s.lmWrite a ((q.drop 8).take (3 * min n (w - col)))

/-- R144: PREVIEW_RETURN. -/
def execPreviewReturn (port index : Nat) (slot : Bytes) (s : State) : Host.Outcome State Fault Refusal :=
  onLive s (onPort port (fun s => s.onCopy port index slot [7] (fun s => if s.isHead then s.takePreview port slot else s)))

/-- R116: a write of 1 to GLB.EPOCH_CMD.ADVANCE. -/
def epochAdvance (s : State) : State :=
  if s.isTile then s
  else if s.on F.GLB_EPOCH_STAT_PENDING then s.detect E.GLB_MASK_BUSY
  else
    let s := s.wr F.GLB_EPOCH_STAT_PENDING 1
    { s with trail := { s.trail with epochAt := some ((s.port 0).cycle + BitVec.ofNat 32 (s.rd F.GLB_EPOCH_CFG_LEAD)) } }

def execEpochAdvance (s : State) : Host.Outcome State Fault Refusal := onLive s epochAdvance

/-- R355: 1,024 Trail cycles without a copy from a tile of the roster. -/
def rosterTimeout (k t : Nat) (s : State) : State :=
  match Map.find (s.port k).heard t with
  | none => s
  | some c =>
    if s.isTile then s
    else
      let s := s.advanceTo (c + 1024 * trailCycle)
      let f := F.GLB_ROSTER (16 * k + t / 32)
      let s := s.wr f (clrBit (s.rd f) (t % 32))
      (s.setPort k { s.port k with heard := Map.del (s.port k).heard t, dTile := Map.del (s.port k).dTile t }).showDmax k

def execRosterTimeout (port tile : Nat) (s : State) : Host.Outcome State Fault Refusal :=
  onLive s (onPort port (rosterTimeout port tile))

end Sys2Proof.Machine
end

