-- ==== Sys2Proof/Machine/Pair.lean ====
section
/-! DEFINITION. The redundant pair and the Firebreak: claiming, resigning, health, the FB_SER link, Patrol, and the opcodes
0xA0 - 0xA2 (R270 - R288). -/

namespace Sys2Proof.Machine

/-- Class-3 slots that the tiles have not acknowledged are sent again (R280). -/
def State.resendLinks (s : State) : State :=
  s.trail.links.foldl (fun s l => l.2.unacked.foldl (fun s u => s.queueUni l.1 u.2) s) s

/-- Open broadcasts but those of a prepare are sent again with a new BID (R280). -/
def State.resendBroadcasts (s : State) : State :=
  let l := s.trail.sentDesc
  let s := { s with trail := { s.trail with sentDesc := [] } }
  l.foldl (fun s x =>
    match s.trail.sent.find? (fun y => y.1 == x.1 && y.2.1 == x.2.1) with
    | none => { s with trail := { s.trail with sentDesc := s.trail.sentDesc ++ [x] } }
    | some y =>
      let bid := s.trail.bid + 1
      let s := (List.range 4).foldl (fun s k => s.setPort k { s.port k with bc := (s.port k).bc.filter (fun q => !(q.stream == x.1 && q.bid == x.2.1)) }) s
      let s := { s with trail := { s.trail with bid := bid, sentDesc := s.trail.sentDesc ++ [(x.1, bid.toNat, x.2.2)] } }
      s.broadcast x.1 bid.toNat y.2.2.flatten) s

/-- The device takes the claim (R273, R278, R280). -/
def State.takeClaim (s : State) : State :=
  let gap := match s.pair.actLow with
    | some c => s.core - c
    | none => 0
  let s := ((s.wr F.FBK_STAT_CLAIM_OUT 1).wr F.FBK_STAT_DRIVING 1).wr F.FBK_STAT_STATE 2
  let s := ((s.inc F.FBK_SWITCHES).wr F.FBK_LAST_GAP (min gap 65535)).detect E.FBK_TOOK_OVER
  let s := { s with pair := { s.pair with claimAt := some s.core, overlap := none, takeover := s.isHead, dwell := 0 }
                    power := { s.power with fbclk := false } }
  let s := s.driveFbclk
  let s := if s.isHead && s.rd F.CLK_ROOT_STAT_REF = 1 then s.holdover.rootChanged else s
  let s := match s.stp.commits with
    | c :: _ =>
      if s.stp.fieldState = 1 && c.id = s.stp.fieldId && !c.loc && (c.phase = 1 || c.phase = 2) then
        s.setCommit { c with phase := 3, frame := s.stp.fieldTarget }
      else s
    | [] => s
  if s.isHead then s.resendLinks.resendBroadcasts else s

/-- The conditions of a claim besides the peer's (R273, R278). -/
def State.mayClaim (s : State) : Bool :=
  s.isPair && s.on F.FBK_CTRL_CLAIM_EN && (if s.on F.FBK_CTRL_ARB then s.on F.FBK_STAT_ARB_IN else s.pairReady)

/-- FB_ACT_IN has been deasserted for 64 CK_CORE cycles. -/
def State.actQuiet (s : State) : State :=
  match s.pair.actLow with
  | some c => s.advanceTo (c + 64)
  | none =>
    let s := { s with pair := { s.pair with actLow := some s.core } }
    (s.wr F.FBK_STAT_CLAIM_IN 0).advance 64

/-- R273, R278: FB_ACT_IN has been low for 64 cycles and the device claims; a claiming device begins to drive (R272). -/
def claim (s : State) : State :=
  if !s.isPair then s
  else if s.claims then (s.actQuiet.wr F.FBK_STAT_DRIVING 1).driveFbclk
  else if s.mayClaim then s.actQuiet.takeClaim
  else s

def execClaim (s : State) : Host.Outcome State Fault Refusal := onLive s claim

/-- R280: the takeover's commit decision. -/
def takeoverDecision (s : State) : State :=
  match s.pair.claimAt with
  | none => s
  | some c =>
    if !s.isHead || !s.pair.takeover || !s.claims then s
    else
      let s := s.advanceTo (c + 2 * trailCycle + s.dringMax)
      let s := { s with pair := { s.pair with takeover := false } }
      match s.stp.commits with
      | x :: _ => if !x.loc && (x.phase = 1 || x.phase = 2) then s.abortCommit x stAbortFailover [] else s
      | [] => s

def execTakeoverDecision (s : State) : Host.Outcome State Fault Refusal := onLive s takeoverDecision

/-- The device has met R276 for DWELL updates. -/
def State.scoreResigns (s : State) : Bool := decide (s.rd F.FBK_HEALTH_CFG_DWELL ≤ s.pair.dwell) && decide (0 < s.pair.dwell)

/-- A cause of R274 is present. -/
def State.mustResign (s : State) : Bool :=
  if s.on F.FBK_CTRL_ARB then s.power.shutFlag || !s.on F.FBK_STAT_ARB_IN else s.forced || s.scoreResigns

/-- R274: a resignation decision. -/
def execResign (s : State) : Host.Outcome State Fault Refusal :=
  onLive s (fun s => if s.isPair && s.mustResign then s.resign else s)

/-- Something of the last 1,000 updates (R275). -/
def State.lately (s : State) (u : Option Nat) : Bool :=
  match u with
  | some n => decide (s.pair.updates ≤ n + 1000)
  | none => false

/-- Corrected errors of the last 1,000 updates. -/
def State.corrected (s : State) : Nat :=
  (s.pair.corr.filter (fun x => decide (s.pair.updates ≤ x.1 + 1000))).foldl (fun n x => n + x.2) 0

/-- Ports that count against TRAIL and NET (R275). -/
def State.badTrail (s : State) : Nat :=
  ((List.range s.portCount).filter (fun k => s.on (F.TRL_CTRL_EN k) && !s.portActive k)).length
def State.badNet (s : State) : Nat :=
  if s.isTile then 0 else ((List.range 2).filter (fun p => s.rd (F.NET_CFG_MODE p) != 0 && !s.on (F.NET_STAT_LINK p))).length

/-- The health causes, with their points: forced ones add none (R275). -/
def State.healthCauses (s : State) : List (Bool × Nat) :=
  [(s.pair.rootBad, 0), (s.pair.wdgBad, 0), (s.power.shutFlag, 0), (!s.pair.resigners.isEmpty, 0), (s.pair.hostBad, 0),
   (s.rd F.SUP_STAT_BELOW_WARN != 0, 64), (s.lately s.pair.uncorrAt, 64),
   (decide (s.rd F.FBK_HEALTH_CFG_ECC_LIM < s.corrected), 16), (s.rd F.THM_STAT_LEVEL != 0, 16 * s.rd F.THM_STAT_LEVEL),
   (s.badTrail != 0, 32 * s.badTrail), (s.badNet != 0, 32 * s.badNet), (s.isTile && !s.feedLive 0 && !s.feedLive 1, 128),
   (s.isHead && s.rd F.PTP_STATE_SERVO == 2, 8), (s.lately s.pair.patrolAt, 32)]

/-- Cause bits and score (R275). -/
def causeBits : List (Bool × Nat) → Nat
  | [] => 0
  | c :: r => b2n c.1 + 2 * causeBits r
def scoreOf (l : List (Bool × Nat)) : Nat := min 255 (l.foldl (fun n c => if c.1 then n + c.2 else n) 0)

/-- FBK.HEALTH follows the causes. -/
def State.showHealth (s : State) : State :=
  (s.wr F.FBK_HEALTH_SCORE (scoreOf s.healthCauses)).wr F.FBK_HEALTH_CAUSES (causeBits s.healthCauses)

/-- The peer's latest good frame is at most 4 Trail cycles old and shows READY (R276, R288). -/
def State.peerFresh (s : State) : Bool :=
  match s.pair.peer with
  | some (f, r) => decide (s.core ≤ r + 4 * trailCycle) && bit (numAt f 3 1) 1
  | none => false

/-- The conditions of R276 at an update. -/
def State.scoreWorse (s : State) : Bool :=
  let own := s.rd F.FBK_HEALTH_SCORE
  s.native && s.claims && decide (s.rd F.FBK_HEALTH_CFG_THRESH ≤ own) && s.on F.FBK_STAT_SER_LOCK && s.peerFresh &&
    (match s.pair.peer with
     | some (f, _) => decide (numAt f 20 1 + s.rd F.FBK_HEALTH_CFG_MARGIN ≤ own)
     | none => false)

/-- R275, R276: the health score is updated. -/
def healthUpdate (s : State) : State :=
  if !s.isPair then s
  else
    let s := s.advanceTo ((s.pair.updates + 1) * 100708 * sysCycle)
    let s := { s with pair := { s.pair with updates := s.pair.updates + 1 } }
    let s := { s with pair := { s.pair with corr := s.pair.corr.filter (fun x => decide (s.pair.updates ≤ x.1 + 1000)) } }
    let s := s.showHealth
    let s := { s with pair := { s.pair with dwell := if s.scoreWorse then s.pair.dwell + 1 else 0 } }
    if s.scoreResigns then s.resignNative else s

def execHealthUpdate (s : State) : Host.Outcome State Fault Refusal := onLive s healthUpdate

/-- FB_ARB_IN has held a level for 64 CK_CORE cycles (R278). -/
def State.arbLevel (s : State) (v : Nat) : State :=
  (s.wr F.FBK_STAT_ARB_IN v).advance 64

/-- R278: FB_ARB_IN asserted for 64 cycles. -/
def arbSelect (s : State) : State :=
  if !s.isPair then s
  else
    let s := s.arbLevel 1
    if s.on F.FBK_CTRL_ARB && !s.claims && s.mayClaim && s.pair.actLow.isSome then s.actQuiet.takeClaim else s

def execArbSelect (s : State) : Host.Outcome State Fault Refusal := onLive s arbSelect

/-- R278: FB_ARB_IN deasserted for 64 cycles. -/
def arbDeselect (s : State) : State :=
  if !s.isPair then s
  else
    let s := s.arbLevel 0
    if s.on F.FBK_CTRL_ARB then s.resign else s

def execArbDeselect (s : State) : Host.Outcome State Fault Refusal := onLive s arbDeselect

/-- R272, R273: FB_ACT_IN rises: every interlocked driver goes high-Z; within 64 cycles of the device's own claim, side B
withdraws. -/
def fbActInRise (s : State) : State :=
  if !s.isPair then s
  else
    let race := s.claims && s.native && (match s.pair.claimAt with
      | some c => decide (s.core ≤ c + 64)
      | none => false)
    let s := (s.wr F.FBK_STAT_CLAIM_IN 1).wr F.FBK_STAT_DRIVING 0
    let s := { s.noteHiz.driveFbclk with pair := { s.pair with actLow := none } }
    if race && s.side = 2 then
      let s := (s.wr F.FBK_STAT_CLAIM_OUT 0).wr F.FBK_STAT_STATE 1
      { s with pair := { s.pair with claimAt := none, takeover := false } }.detect E.FBK_CLAIM_RACE
    else s

def execFbActInRise (s : State) : Host.Outcome State Fault Refusal := onLive s fbActInRise

/-- An FB_SER frame is good (R281). -/
def serGood (f : Bytes) : Bool :=
  f.length == 64 && numAt f 0 2 == 0x4246 && numAt f 2 1 == 1 && numAt f 60 4 == (crc32c (f.take 60)).toNat &&
    decide (numAt f 40 1 < 3) && zeroAt f 41 3 && (bits (numAt f 3 1) 2 2 == 1 || bits (numAt f 3 1) 2 2 == 2)

/-- The pair offset, and the round trip (R282). -/
def State.serRtt (s : State) (f : Bytes) : Nat := diff32 (diff32 s.core (numAt f 8 4)) (numAt f 12 4)
def State.pairOffset (s : State) (f : Bytes) : Nat := (diff32 (numAt f 4 4) s.core + s.serRtt f / 2) % 2 ^ 32

/-- A standby head copies the frame start, the epoch and the cycle numbering (R282). -/
def State.copyPeer (s : State) (f : Bytes) : State :=
  let o := s.pairOffset f
  let flags := numAt f 3 1
  let s := if bit flags 6 then
      let c := (s.core : Int) + sval (diff32 (diff32 (numAt f 24 4) o) s.core) 32
      let num := BitVec.ofNat 32 (numAt f 28 4); let dr := numAt f 32 3
      if c ≤ s.core then s
      else { s with frames := { s.frames with fixed := some ⟨s.nextStart.1, c.toNat, num, s.leadFor dr, dr⟩ } }
    else s
  let s := (s.wr F.GLB_EPOCH_STAT_EPOCH (numAt f 35 1)).wr F.GLB_EPOCH_STAT_PENDING (bits flags 7 1)
  let s := { s with trail := { s.trail with epochAt := if bit flags 7 then some (BitVec.ofNat 32 (numAt f 48 4)) else none } }
  let p := s.port 0
  let peerStart := sval (diff32 (diff32 (numAt f 4 4) o) p.cycleAt) 32
  let off := sval (diff32 p.cycle.toNat (numAt f 16 4)) 32 * trailCycle + peerStart
  if off.natAbs ≤ 8448 then s
  else s.setPort 0 { p with cycle := BitVec.ofInt 32 ((numAt f 16 4 : Int) + roundDiv (-peerStart) trailCycle) }

/-- Digests are compared (R284). -/
def State.compareDigest (s : State) (f : Bytes) : State :=
  match s.pair.digests.find? (fun d => d.1 == numAt f 52 4) with
  | some d => if d.2 = numAt f 56 4 then s else (s.wr F.FBK_DIVERGE_SEQ d.1).detect E.FBK_DIVERGE
  | none => s

/-- FB_ACT_IN and the peer's CLAIM disagree for 64 Trail cycles (R287). -/
def State.judgeStuck (s : State) (claimBit : Bool) : State :=
  if s.on F.FBK_STAT_CLAIM_IN && !claimBit then
    match s.pair.stuckAt with
    | none => { s with pair := { s.pair with stuckAt := some s.core } }
    | some c => s.detectIf (decide (c + 64 * trailCycle ≤ s.core)) E.FBK_ACT_STUCK
  else { s with pair := { s.pair with stuckAt := none } }

/-- What a peer's CLAIM = 1 ends: the overlap window (R279) and a HANDOVER (R288). -/
def State.peerClaims (s : State) : State :=
  let s := if s.pair.overlap.isSome then { (s.wr F.FBK_STAT_STATE 1) with pair := { s.pair with overlap := none } } else s
  match s.pair.handover with
  | some d => { s with pair := { s.pair with handover := none, hostBad := false } }.finish d 0xA0 stOk
  | none => s

/-- R281: an FB_SER frame has its first bit now. -/
def fbSerFrame (f : Bytes) (s : State) : State :=
  if !s.isPair then s
  else if !serGood f then
    { (s.inc F.FBK_SER_ERR) with pair := { s.pair with good := 0 } }.detect E.FBK_SER_CRC
  else
    let flags := numAt f 3 1
    let s := { s with pair := { s.pair with good := min 4 (s.pair.good + 1) } }
    let s := if s.pair.good = 4 then s.wr F.FBK_STAT_SER_LOCK 1 else s
    let s := (s.wr F.FBK_SER_RTT (s.serRtt f)).wr F.FBK_PAIR_OFS (s.pairOffset f)
    let s := ((s.wr F.FBK_STAT_PEER_READY (bits flags 1 1)).wr F.FBK_PEER_HEALTH_SCORE (numAt f 20 1)).wr F.FBK_PEER_HEALTH_CAUSES (numAt f 22 2)
    let s := { s with pair := { s.pair with peer := some (f, s.core) } }
    let s := (s.compareDigest f).judgeStuck (bit flags 0)
    let s := if s.rd F.FBK_STAT_STATE = 0 && !s.claims then s.wr F.FBK_STAT_STATE 1 else s
    let s := if bit flags 0 then s.peerClaims else s
    if s.isHead then
      let s := if s.claims then s else s.copyPeer f
      if !s.claims || s.pair.takeover then
        s.copyField (BitVec.ofNat 16 (numAt f 38 2)) (bits (numAt f 40 1) 0 2) (BitVec.ofNat 32 (numAt f 44 4))
      else s
    else s

def execFbSerFrame (frame : Bytes) (s : State) : Host.Outcome State Fault Refusal := onLive s (fbSerFrame frame)

/-- R281: 8 Trail cycles without a good frame. -/
def serLost (s : State) : State :=
  match s.pair.peer with
  | none => s
  | some (_, r) =>
    if !s.isPair || !s.on F.FBK_STAT_SER_LOCK then s
    else
      let s := (s.advanceTo (r + 8 * trailCycle)).wr F.FBK_STAT_SER_LOCK 0
      { s with pair := { s.pair with good := 0 } }.detect E.FBK_SER_LOST

def execSerLost (s : State) : Host.Outcome State Fault Refusal := onLive s serLost

/-- R279: 190 Trail cycles after a resignation. -/
def overlapTimeout (s : State) : State :=
  match s.pair.overlap with
  | none => s
  | some c =>
    let s := (s.advanceTo (c + 190 * trailCycle)).wr F.FBK_STAT_STATE 1
    { s with pair := { s.pair with overlap := none } }

def execOverlapTimeout (s : State) : Host.Outcome State Fault Refusal := onLive s overlapTimeout

/-- RESULT of a health report (R285). -/
def State.reportResult (s : State) : Nat :=
  s.rd F.FBK_HEALTH_SCORE + 2 ^ 8 * s.rd F.FBK_HEALTH_CAUSES + 2 ^ 24 * min 255 s.pair.fails +
    2 ^ 32 * s.rd F.FBK_PEER_HEALTH_SCORE + 2 ^ 40 * s.rd F.FBK_STAT_SER_LOCK

/-- R285: a health report is posted, or dropped where its queue is full. -/
def healthReport (ok : Bool) (s : State) : State :=
  if !s.isPair || !s.on F.FBK_PATROL_CFG_EN then s
  else
    let e := cplBytes 0 (BitVec.ofNat 32 s.ns) s.frameNow (BitVec.ofNat 64 s.reportResult) 0 0 0xAF true none stOk
    let s := { s.wr F.WDG_LOAD (clrBit (s.rd F.WDG_LOAD) 5) with pair := { s.pair with fails := 0 } }
    match s.postsTo (s.rd F.FBK_PATROL_CFG_CQ) with
    | some c => if ok then s.postEntry (s.rd F.FBK_PATROL_CFG_CQ) c e else s.haltCq (s.rd F.FBK_PATROL_CFG_CQ) c
    | none => s

def execHealthReport (ok : Bool) (s : State) : Host.Outcome State Fault Refusal := onLive s (healthReport ok)

/-- R285: a test of a Patrol standby. -/
def patrolTest (equal uncorr : Bool) (s : State) : State :=
  if !s.isPair || s.claims || !s.on F.FBK_CTRL_PATROL then s
  else
    let s := if uncorr then s.lmUncorr else s
    if equal && !uncorr then s
    else
      let s := { s with pair := { s.pair with fails := s.pair.fails + 1, patrolAt := some s.pair.updates } }
      (s.inc F.FBK_PATROL_FAILS).detect E.FBK_PATROL_FAIL

def execPatrolTest (netsEqual uncorr : Bool) (s : State) : Host.Outcome State Fault Refusal := onLive s (patrolTest netsEqual uncorr)

def handover (d : Desc) (s : State) : State :=
  if !s.isPair then s.finish d 0xA0 0xA03
  else if !d.only [] then s.finish d 0xA0 stFormat
  else if s.on F.FBK_CTRL_ARB then s.finish d 0xA0 0xA04
  else if !s.claims then s.finish d 0xA0 0xA02
  else if !s.peerFresh then s.finish d 0xA0 0xA01
  else { (s.starts d) with pair := { s.pair with hostBad := true, handover := some d } }.resign

/-- R288: HANDOVER; it completes when the peer shows its claim. -/
def execHandover (d : Desc) (s : State) : Host.Outcome State Fault Refusal := onOp s d 0xA0 .both (handover d)

def pairStatus (d : Desc) (s : State) : State :=
  if !s.isPair then s.finish d 0xA1 0xA03
  else if !d.only [] then s.finish d 0xA1 stFormat
  else s.finish d 0xA1 stOk (s.rd F.FBK_HEALTH_SCORE + 2 ^ 8 * s.rd F.FBK_PEER_HEALTH_SCORE + 2 ^ 16 * s.rd F.FBK_STAT_STATE +
    2 ^ 18 * s.rd F.FBK_STAT_SER_LOCK + 2 ^ 19 * bits (s.rd (F.BLK_STICKY 16)) 4 1)

/-- R288: PAIR_STATUS. -/
def execPairStatus (d : Desc) (s : State) : Host.Outcome State Fault Refusal := onOp s d 0xA1 .both (pairStatus d)

def digestReset (d : Desc) (s : State) : State :=
  if d.mbx then s.finish d 0xA2 stUnsupported
  else if !s.isPair then s.finish d 0xA2 0xA03
  else if !d.only [] then s.finish d 0xA2 stFormat
  else { ((s.wr F.FBK_DSEQ 0).wr F.FBK_DIGEST 0) with pair := { s.pair with digests := [] } }.finish d 0xA2 stOk

/-- R284, R288: DIGEST_RESET. -/
def execDigestReset (d : Desc) (s : State) : Host.Outcome State Fault Refusal := onOp s d 0xA2 .both (digestReset d)

end Sys2Proof.Machine
end

