-- ==== Sys2Proof/Machine/Hash.lean ====
section
/-! DEFINITION. SHAKE256 (FIPS 202) and the verification of SLH-DSA-SHAKE-256s (FIPS 205), by which firmware images are
checked (R331, R332); both PRESUMED from the published standards (log entry 21). -/

namespace Sys2Proof.Machine

/-- Keccak's rotation offsets, lane x + 5 y. -/
def keccakRho : List Nat :=
  [0, 1, 62, 28, 27, 36, 44, 6, 55, 20, 3, 10, 43, 25, 39, 41, 45, 15, 21, 8, 18, 2, 61, 56, 14]

/-- Keccak's round constants. -/
def keccakRc : List (BitVec 64) :=
  [0x0000000000000001, 0x0000000000008082, 0x800000000000808A, 0x8000000080008000, 0x000000000000808B, 0x0000000080000001,
   0x8000000080008081, 0x8000000000008009, 0x000000000000008A, 0x0000000000000088, 0x0000000080008009, 0x000000008000000A] ++
  [0x000000008000808B, 0x800000000000008B, 0x8000000000008089, 0x8000000000008003, 0x8000000000008002, 0x8000000000000080,
   0x000000000000800A, 0x800000008000000A, 0x8000000080008081, 0x8000000000008080, 0x0000000080000001, 0x8000000080008008]

/-- A lane of Keccak's state. -/
def lane (a : List (BitVec 64)) (i : Nat) : BitVec 64 := a.getD i 0

/-- One round: theta, rho and pi, chi, iota. -/
def keccakRound (a : List (BitVec 64)) (rc : BitVec 64) : List (BitVec 64) :=
  let c := (List.range 5).map (fun x => lane a x ^^^ lane a (x + 5) ^^^ lane a (x + 10) ^^^ lane a (x + 15) ^^^ lane a (x + 20))
  let d := (List.range 5).map (fun x => lane c ((x + 4) % 5) ^^^ (lane c ((x + 1) % 5)).rotateLeft 1)
  let b := (List.range 25).map (fun j =>
    let x := (j % 5 + 3 * (j / 5)) % 5; let i := x + 5 * (j % 5)
    (lane a i ^^^ lane d x).rotateLeft (keccakRho.getD i 0))
  let e := (List.range 25).map (fun j =>
    let r := j / 5 * 5
    lane b j ^^^ (~~~ lane b (r + (j + 1) % 5) &&& lane b (r + (j + 2) % 5)))
  (lane e 0 ^^^ rc) :: e.drop 1

/-- Keccak-f[1600]. -/
def keccakF (a : List (BitVec 64)) : List (BitVec 64) := keccakRc.foldl keccakRound a

/-- Absorb `n` blocks of 136 bytes. -/
def absorb (a : List (BitVec 64)) (bs : Bytes) : Nat → List (BitVec 64)
  | 0 => a
  | n + 1 =>
    let a := (List.range 25).map (fun i => if i < 17 then lane a i ^^^ BitVec.ofNat 64 (leNat ((bs.drop (8 * i)).take 8)) else lane a i)
    absorb (keccakF a) (bs.drop 136) n

/-- The first `n` bytes, at most 136, of SHAKE256. -/
def shake (n : Nat) (bs : Bytes) : Bytes :=
  let m := bs.length; let pad := 136 - m % 136
  let tail := if pad = 1 then [0x9F] else 0x1F :: List.replicate (pad - 2) 0 ++ [0x80]
  ((absorb (List.replicate 25 0) (bs ++ tail) (m / 136 + 1)).flatMap (fun l => leBytes 8 l.toNat)).take n

/-- SHAKE256 with 256 bits of output, byte 0 least significant (R331, R332). -/
def shake256 (bs : Bytes) : BitVec 256 := BitVec.ofNat 256 (leNat (shake 32 bs))

/-- An address of FIPS 205: layer, tree, type, key pair, and the two words that chains and trees use. -/
structure Adrs where
  layer : Nat
  tree : Nat
  kind : Nat
  pair : Nat
  chain : Nat
  hash : Nat

/-- An address as 32 big-endian bytes. -/
def Adrs.bytes (a : Adrs) : Bytes :=
  (leBytes 4 a.layer).reverse ++ (leBytes 12 a.tree).reverse ++ (leBytes 4 a.kind).reverse ++ (leBytes 4 a.pair).reverse ++
    (leBytes 4 a.chain).reverse ++ (leBytes 4 a.hash).reverse

/-- F, H and T of FIPS 205: a tweaked hash of 32-byte values. -/
def tweak (seed : Bytes) (a : Adrs) (m : Bytes) : Bytes := shake 32 (seed ++ a.bytes ++ m)

/-- Value `i` of a string of 32-byte values. -/
def val32 (bs : Bytes) (i : Nat) : Bytes := (bs.drop (32 * i)).take 32

/-- Digit `i` of `b` bits of a big-endian string of `len` bytes. -/
def digit (n len b i : Nat) : Nat := n / 2 ^ (8 * len - b * (i + 1)) % 2 ^ b

/-- A WOTS+ chain from step `i` on, `n` steps. -/
def wotsChain (seed : Bytes) (a : Adrs) (x : Bytes) (i : Nat) : Nat → Bytes
  | 0 => x
  | n + 1 => wotsChain seed a (tweak seed { a with hash := i } x) (i + 1) n

/-- The WOTS+ digits of a 32-byte value and its checksum. -/
def wotsDigits (m : Bytes) : List Nat :=
  let l := (List.range 64).map (digit (beNat m) 32 4)
  let sum := l.foldl (fun s x => s + (15 - x)) 0 * 16
  l ++ (List.range 3).map (digit sum 2 4)

/-- The WOTS+ public key that a signature gives. -/
def wotsKey (seed sig m : Bytes) (a : Adrs) : Bytes :=
  let ks := (wotsDigits m).zipIdx.flatMap (fun x => wotsChain seed { a with chain := x.2 } (val32 sig x.2) x.1 (15 - x.1))
  tweak seed { a with kind := 1, chain := 0, hash := 0 } ks

/-- Climb an authentication path of `n` values: node `idx` of height `h` and its value. -/
def climb (seed : Bytes) (a : Adrs) (auth : Bytes) (h idx : Nat) (node : Bytes) : Nat → Bytes
  | 0 => node
  | n + 1 =>
    let s := auth.take 32
    let m := if idx % 2 = 0 then node ++ s else s ++ node
    climb seed a (auth.drop 32) (h + 1) (idx / 2) (tweak seed { a with chain := h + 1, hash := idx / 2 } m) n

/-- The root that one XMSS signature of 67 + 8 values gives. -/
def xmssRoot (seed sig m : Bytes) (layer tree leaf : Nat) : Bytes :=
  let a : Adrs := ⟨layer, tree, 0, leaf, 0, 0⟩
  climb seed { a with kind := 2, pair := 0 } (sig.drop (32 * 67)) 0 leaf (wotsKey seed sig m a) 8

/-- The hypertree's root from layer `j` on. -/
def htRoot (seed sig m : Bytes) (j tree leaf : Nat) : Nat → Bytes
  | 0 => m
  | n + 1 => htRoot seed (sig.drop (32 * 75)) (xmssRoot seed sig m j tree leaf) (j + 1) (tree / 256) (tree % 256) n

/-- The FORS public key that 22 signatures of 1 + 14 values give. -/
def forsKey (seed sig md : Bytes) (tree leaf : Nat) : Bytes :=
  let a : Adrs := ⟨0, tree, 3, leaf, 0, 0⟩
  let rs := (List.range 22).flatMap (fun i =>
    let s := sig.drop (32 * 15 * i); let idx := 2 ^ 14 * i + digit (beNat md) 39 14 i
    climb seed a (s.drop 32) 0 idx (tweak seed { a with hash := idx } (s.take 32)) 14)
  tweak seed { a with kind := 4 } rs

/-- SLH-DSA-SHAKE-256s verifies a signature in pure mode with an empty context string (R332). -/
def slhDsaVerify (pk m sig : Bytes) : Bool :=
  let seed := pk.take 32; let root := pk.drop 32
  let dg := shake 47 (sig.take 32 ++ pk ++ [0, 0] ++ m)
  let tree := beNat ((dg.drop 39).take 7); let leaf := beNat ((dg.drop 46).take 1)
  let key := forsKey seed (sig.drop 32) (dg.take 39) tree leaf
  decide (pk.length = 64 ∧ sig.length = 29792) && htRoot seed (sig.drop (32 * 331)) key 0 tree leaf 8 == root

end Sys2Proof.Machine
end

