-- ==== Sys2Proof/Machine/Seedbank.lean ====
section
/-! DEFINITION. The Seedbank: firmware images, trial boots, boot records and recovery boot (R303, R330 - R343, R349 - R351),
and what starts Ranger again. -/

namespace Sys2Proof.Machine

/-- Status codes of this chapter (R333, R343). -/
def stImageHeader : Nat := 0xB01
def stImageHw : Nat := 0xB02
def stImageUnit : Nat := 0xB03
def stImageRollback : Nat := 0xB04
def stImageBlock : Nat := 0xB05
def stImageSignature : Nat := 0xB06
def stImageIncomplete : Nat := 0xB07
def stIncompatible : Nat := 0xB08
def stTrialPending : Nat := 0xB09
def stNoTrial : Nat := 0xB0A
def stSlotBusy : Nat := 0xB0B

/-- Bytes of a block, of a slot, and of a settings area (R330). -/
def sdbBlock : Nat := 65536
def slotSize : Nat := 0x1800000
def settingsSize : Nat := 0x400000

/-- Where a slot, a settings area and a boot record lie (R330). -/
def slotBase (k : Nat) : Nat := slotSize * k
def settingsBase (k : Nat) : Nat := 0x3000000 + settingsSize * k
def recordBase (k : Nat) : Nat := 0x3800000 + 64 * k

/-- Fields of a head block (R331). -/
def imgBlocks (h : Bytes) : Nat := numAt h 16 4
def imgUnits (h : Bytes) : Nat := numAt h 20 2
def imgSec (h : Bytes) : Nat := numAt h 24 8
def imgVersion (h : Bytes) : Nat := numAt h 32 4
def imgCompat (h : Bytes) : Nat := numAt h 36 2
def imgCompatMin (h : Bytes) : Nat := numAt h 38 2
def imgSetFmt (h : Bytes) : Nat := numAt h 22 2
def pkOfs (h : Bytes) : Nat := 256 + 32 * imgBlocks h + 16 * imgUnits h
def sigOfs (h : Bytes) : Nat := pkOfs h + 64

/-- Check 1 of R333: the header. -/
def headerOk (h : Bytes) : Bool :=
  numAt h 0 4 == 0x4E55524A && numAt h 4 2 == 1 && numAt h 6 2 == 256 && decide (1 ≤ imgBlocks h) &&
    decide (imgBlocks h ≤ 383) && decide (imgUnits h ≤ 64) && zeroAt h 10 2 && zeroAt h 40 216 &&
    zeroAt h (sigOfs h + 29792) (sdbBlock - (sigOfs h + 29792))

/-- Checks 1 to 4 of R333 on a head block: the status of the first that fails. -/
def State.headStatus (s : State) (h : Bytes) : Option Nat :=
  let rev := s.fuses.dieRev.toNat
  if !headerOk h then some stImageHeader
  else if numAt h 8 2 != 0x8128 || !(decide (rev < 32) && bit (numAt h 12 4) rev) then some stImageHw
  else if imgUnits h != 0 && !(List.range (imgUnits h)).any (fun u =>
      numAt h (256 + 32 * imgBlocks h + 16 * u) 16 == s.fuses.unitId.toNat) then some stImageUnit
  else if imgSec h < s.fuses.secCtr then some stImageRollback
  else none

/-- Check 5 of R333 for one payload block: its bytes match CHECK. -/
def blockChecks (h : Bytes) (k : Nat) (b : Bytes) : Bool :=
  (shake256 (leBytes 4 k ++ b)).toNat == numAt h (256 + 32 * (k - 1)) 32

/-- Check 6 of R333: the key hash and the signature (R332). -/
def State.signed (s : State) (h : Bytes) : Bool :=
  let pk := (h.drop (pkOfs h)).take 64
  shake256 pk == s.fuses.keyHash && slhDsaVerify pk (h.take (sigOfs h)) ((h.drop (sigOfs h)).take 29792)

/-- A block of a slot. -/
def State.slotBlock (s : State) (k b : Nat) : Bytes := Store.range s.sdb (slotBase k + sdbBlock * b) sdbBlock

/-- A slot's state (R342). -/
def State.slotState (s : State) (k : Nat) : Nat := if k = 0 then s.seed.slotA else s.seed.slotB

/-- VER_A and VER_B show the version in each slot (R344). -/
def State.showVer (s : State) (k : Nat) : State :=
  s.wr (if k = 0 then F.SDB_VER_A else F.SDB_VER_B) (if s.slotState k = 0 then 0 else numAt (s.slotBlock k 0) 32 4)

/-- Set a slot's state. -/
def State.setSlot (s : State) (k v : Nat) : State :=
  { s with seed := if k = 0 then { s.seed with slotA := v } else { s.seed with slotB := v } }.showVer k

/-- A slot is judged as a whole (R333): the status of the first check that fails. -/
def State.imageStatus (s : State) (k : Nat) : Option Nat :=
  let h := s.slotBlock k 0
  match s.headStatus h with
  | some st => some st
  | none =>
    if !(List.range (imgBlocks h)).all (fun j => blockChecks h (j + 1) (s.slotBlock k (j + 1))) then some stImageBlock
    else if !s.signed h then some stImageSignature
    else none

/-- The boot engine may boot a slot (R330, R339). -/
def State.bootable (s : State) (k : Nat) : Bool := s.slotState k != 5 && (s.imageStatus k).isNone

/-- A boot record (R338). -/
structure BootRec where
  seq : Nat
  active : Nat
  trial : Bool
  tried : Bool
  cold : Bool
  setCur : Nat
  window : Nat
  deriving DecidableEq, Repr

/-- A boot record's 64 bytes (R338). -/
def BootRec.bytes (r : BootRec) : Bytes :=
  let b := leBytes 4 0x544F4F42 ++ leBytes 4 r.seq ++
    leBytes 1 (r.active + 2 * b2n r.trial + 4 * b2n r.tried + 8 * b2n r.cold) ++ leBytes 1 r.setCur ++ zeros 2 ++
    leBytes 4 r.window ++ zeros 44
  b ++ leBytes 4 (crc32c b).toNat

/-- A copy of the boot record, if it is valid (R338). -/
def State.recordAt (s : State) (k : Nat) : Option BootRec :=
  let b := Store.range s.sdb (recordBase k) 64
  if numAt b 0 4 == 0x544F4F42 && numAt b 60 4 == (crc32c (b.take 60)).toNat && bits (numAt b 8 1) 4 4 == 0 &&
      bits (numAt b 9 1) 1 7 == 0 && zeroAt b 10 2 && zeroAt b 16 44 then
    some ⟨numAt b 4 4, bits (numAt b 8 1) 0 1, bit (numAt b 8 1) 1, bit (numAt b 8 1) 2, bit (numAt b 8 1) 3,
          bits (numAt b 9 1) 0 1, numAt b 12 4⟩
  else none

/-- What the engine takes where neither record is valid (R338). -/
def BootRec.default : BootRec := ⟨0, 0, false, false, false, 0, 0⟩

/-- The boot record in force and its copy: the valid one whose SEQ is later under R9; none where neither is valid (R338). -/
def State.record? (s : State) : Option (Nat × BootRec) :=
  match s.recordAt 0, s.recordAt 1 with
  | some a, some b => if later32 b.seq a.seq then some (1, b) else some (0, a)
  | some a, none => some (0, a)
  | none, some b => some (1, b)
  | none, none => none

/-- The boot record the engine goes by (R338). -/
def State.bootRec (s : State) : BootRec :=
  match s.record? with
  | some x => x.2
  | none => .default

/-- STAT shows the record (R344). -/
def State.showRecord (s : State) (r : BootRec) : State :=
  ((s.wr F.SDB_STAT_ACTIVE r.active).wr F.SDB_STAT_TRIAL (b2n (r.trial && r.tried))).wr F.SDB_STAT_SET_CUR r.setCur

/-- A new record with SEQ + 1 goes over the other copy (R338). -/
def State.writeRecord (s : State) (r : BootRec) : State :=
  let at0 := match s.record? with
    | some x => 1 - x.1
    | none => 0
  let r := { r with seq := (s.bootRec.seq + 1) % 2 ^ 32 }
  { s with sdb := Store.write s.sdb (recordBase at0) r.bytes }.showRecord r

/-- The slot that IMAGE_WRITE writes: the one not booted, slot A in recovery boot (R334, R351). -/
def State.target (s : State) : Nat := if s.on F.GLB_BOOT_STAT_RECOVERY && s.on F.GLB_BOOT_STAT_NOT_READY then 0 else 1 - s.seed.booted

/-- A trial runs (R335). -/
def State.onTrial (s : State) : Bool := s.on F.SDB_STAT_TRIAL

/-- A trial runs or is being started: the inactive slot is not written (R334, R335). -/
def State.trialBusy (s : State) : Bool := s.onTrial || s.seed.going.isSome

/-- A failed check (R344). -/
def State.imageReject (s : State) : State := s.detect E.SDB_IMAGE_REJECT

/-- A slot is emptied (R334). -/
def State.emptySlot (s : State) (k : Nat) : State :=
  { s with sdb := s.sdb.filter (fun c => decide (c.1 < slotBase k) || decide (slotBase k + slotSize ≤ c.1))
           seed := { s.seed with got := [] } }.setSlot k 0

/-- Write one block of the target slot (R334): a status where it is refused. -/
def State.writeBlock (s : State) (k : Nat) (b : Bytes) : Option Nat × State :=
  let t := s.target
  let put := fun s : State => { s with sdb := Store.write s.sdb (slotBase t + sdbBlock * k) b }
  if k = 0 then
    let s := s.emptySlot t
    match s.headStatus b with
    | some st => (some st, s.imageReject)
    | none => (none, (put s).setSlot t 1)
  else if s.slotState t != 1 && s.slotState t != 2 then (some stImageHeader, s)
  else
    let h := s.slotBlock t 0; let n := imgBlocks h
    let have0 := if s.slotState t = 2 then (List.range n).map (· + 1) else s.seed.got
    if n < k then (some stImageBlock, s.imageReject)
    else if !blockChecks h k b then
      (some stImageBlock, ({ (put s) with seed := { s.seed with got := have0.filter (fun x => x != k) } }.setSlot t 1).imageReject)
    else
      let got := k :: have0.filter (fun x => x != k)
      let s := { (put s) with seed := { s.seed with got := got } }
      (none, s.setSlot t (if got.length = n then 2 else 1))

/-- Blocks are written in order until one is refused: the answer is the status and the block refused. -/
def State.writeBlocks (s : State) (bs : Bytes) (k : Nat) : Nat → Option (Nat × Nat) × State
  | 0 => (none, s)
  | n + 1 =>
    let r := s.writeBlock k ((List.range sdbBlock).map (byteAt bs))
    match r.1 with
    | some st => (some (st, k), r.2)
    | none => r.2.writeBlocks (bs.drop sdbBlock) (k + 1) n

/-- A STREAM 4 broadcast is being gathered (R341). -/
def State.staging (s : State) : Bool :=
  match Map.find s.trail.bcasts 4 with
  | some b => b.opened
  | none => false

/-- IMAGE_WRITE once it may write (R334). -/
def doImageWrite (d : Desc) (bs : Bytes) (s : State) : State :=
  let r := s.writeBlocks bs (d.num 8 4) (d.num 12 4)
  match r.1 with
  | some (st, k) => r.2.finish d 0xB0 st k
  | none => r.2.finish d 0xB0 stOk

/-- Seedbank writes wait while a supply dip suspends them (R299, R342). -/
def State.sdbHeld (s : State) : Bool := s.on F.SUP_STAT_SDB_SUSPENDED

/-- A descriptor waits for the end of a supply dip. -/
def State.holdWrite (s : State) (op : Nat) (d : Desc) (bs : Bytes) : State :=
  { (s.starts d) with seed := { s.seed with waiting := s.seed.waiting ++ [(op, d, bs)] } }

def imageWrite (d : Desc) (src : HostData) (s : State) : State :=
  let first := d.num 8 4; let n := d.num 12 4; let a := d.num 0 8; let len := sdbBlock * n
  let src := s.srcBytes d a len src
  if !d.only [(0, 0, 64), (8, 0, 32), (12, 0, 32)] || 383 < first || 384 < first + n then s.finish d 0xB0 stFormat
  else if a % 64 != 0 || mbxRefuses d a len then s.finish d 0xB0 stAddress
  else if s.trialBusy then s.finish d 0xB0 stTrialPending
  else if s.srcBad d a len then s.lmUncorr.finish d 0xB0 stEcc
  else if !src.ok then s.finish d 0xB0 stPcie
  else if s.sdbHeld then s.holdWrite 0xB0 d src.bytes
  else doImageWrite d src.bytes s

/-- R334: IMAGE_WRITE. -/
def execImageWrite (d : Desc) (src : HostData) (s : State) : Host.Outcome State Fault Refusal :=
  onOp s d 0xB0 .both (imageWrite d src)

/-- A bank without a Stand. -/
def Bank.noStand (b : Bank) : Bank := { b with stand := none, img := [] }

/-- What a cold activation does first (R335): every Stand index is unloaded, the branch pins release, and a head's schedules
stop. -/
def State.coldEffect (s : State) : State :=
  let s := { s with
    stp := { s.stp with stands := [], active := s.stp.active.noStand, shadow := s.stp.shadow.noStand, retiring := none }
    brn := { s.brn with runs := [], spans := [] } }
  let s := s.noteHiz.showActive.showShadow
  if s.isHead then (frmStop s).audioStop else s

/-- An IMAGE_ACTIVATE whose firmware will not come to run ends (R74, R335). -/
def State.dropGoing (s : State) (status : Nat) : State :=
  match s.seed.going with
  | some d => { s with seed := { s.seed with going := none } }.finish d 0xB1 status
  | none => s

/-- Fall back to the slot booted before the trial (R336). -/
def State.fallBack (s : State) (cause : Nat) : State :=
  let r := s.bootRec
  let s := (s.writeRecord { r with trial := false, tried := false, cold := false }).setSlot (1 - r.active) 2
  let s := (s.wr F.SDB_STAT_FB_CAUSE cause).detect E.SDB_FALLBACK
  let s := { s with seed := { s.seed with deadline := none } }.dropGoing stRangerRestart
  if r.cold then s.coldEffect else s

/-- The running firmware's COMPAT (R335). -/
def State.compat (s : State) : Nat := s.rd (F.TRL_COMPAT 0)

/-- Lawful WINDOW operands, and the window they select (R335, R342). -/
def windowOk (w : Nat) : Bool := w == 0 || (decide (60 ≤ w) && decide (w ≤ 86400))

/-- The activation in recovery boot (R351): slot A becomes the active slot, with no trial. -/
def State.activateRecovery (s : State) (d : Desc) : State :=
  match s.imageStatus 0 with
  | some st => ((s.setSlot 0 5).imageReject).finish d 0xB1 st
  | none =>
    let s := (s.starts d).writeRecord ⟨0, 0, false, false, false, 0, 0⟩
    { s with seed := { s.seed with loaded := true, source := some 2, booted := 0, going := some d } }.setSlot 0 3

/-- The activation of the inactive slot on trial (R335). -/
def State.activateTrial (s : State) (d : Desc) : State :=
  let t := s.target; let h := s.slotBlock t 0
  match s.imageStatus t with
  | some st => ((s.setSlot t 5).imageReject).finish d 0xB1 st
  | none =>
    let warm := decide (imgCompatMin h ≤ s.compat) && decide (s.compat ≤ imgCompat h)
    if !warm && !d.flag 0 0 then s.finish d 0xB1 stIncompatible
    else
      let w := if d.num 4 4 = 0 then s.rd F.SDB_CFG_WINDOW else d.num 4 4
      let s := (s.starts d).writeRecord { s.bootRec with active := s.seed.booted, trial := true, tried := false, cold := !warm, window := w }
      let s := if warm then s else s.coldEffect
      { s with seed := { s.seed with going := some d, report := none } }.coldRestart

/-- IMAGE_ACTIVATE once it may write its boot record (R335). -/
def doImageActivate (d : Desc) (s : State) : State :=
  if s.on F.GLB_BOOT_STAT_NOT_READY then (if s.slotState 0 = 2 then s.activateRecovery d else s.finish d 0xB1 stImageIncomplete)
  else if s.slotState s.target != 2 then s.finish d 0xB1 stImageIncomplete
  else s.activateTrial d

def imageActivate (d : Desc) (s : State) : State :=
  if !d.only [(0, 0, 1), (4, 0, 32)] || !windowOk (d.num 4 4) then s.finish d 0xB1 stFormat
  else if !s.seed.waiting.isEmpty || s.seed.going.isSome || (s.isTile && s.staging) then s.finish d 0xB1 stSlotBusy
  else if s.sdbHeld then s.holdWrite 0xB1 d []
  else doImageActivate d s

/-- R335: IMAGE_ACTIVATE; it completes when the new firmware runs. -/
def execImageActivate (d : Desc) (s : State) : Host.Outcome State Fault Refusal := onOp s d 0xB1 .both (imageActivate d)

/-- The fused counter is raised at a confirmation (R337). -/
def State.raiseCounter (s : State) (sec : Nat) : State :=
  if sec ≤ s.fuses.secCtr then s
  else if 128 ≤ s.fuses.ctrRaises then s.detect E.SDB_CTR_EXHAUSTED
  else { s with fuses := { s.fuses with secCtr := sec, ctrRaises := s.fuses.ctrRaises + 1 } }

/-- IMAGE_CONFIRM once it may write its boot record (R337). -/
def doImageConfirm (d : Desc) (s : State) : State :=
  if !s.onTrial then s.finish d 0xB2 stNoTrial
  else
    let r := s.bootRec; let t := 1 - r.active
    let s := s.writeRecord { r with active := t, trial := false, tried := false, cold := false, setCur := 1 - r.setCur }
    let s := (s.setSlot r.active 2).setSlot t 3
    let s := { s with seed := { s.seed with deadline := none } }
    (s.raiseCounter (imgSec (s.slotBlock t 0))).finish d 0xB2 stOk

def imageConfirm (d : Desc) (s : State) : State :=
  if !d.only [] then s.finish d 0xB2 stFormat
  else if s.sdbHeld && s.onTrial then s.holdWrite 0xB2 d []
  else doImageConfirm d s

/-- R337: IMAGE_CONFIRM. -/
def execImageConfirm (d : Desc) (s : State) : Host.Outcome State Fault Refusal := onOp s d 0xB2 .both (imageConfirm d)

/-- IMAGE_REVERT once it may write its boot record (R336). -/
def doImageRevert (d : Desc) (s : State) : State :=
  if s.onTrial then ((s.fallBack 3).coldRestart).finish d 0xB3 stOk else s.finish d 0xB3 stNoTrial

def imageRevert (d : Desc) (s : State) : State :=
  if !d.only [] then s.finish d 0xB3 stFormat
  else if s.sdbHeld && s.onTrial then s.holdWrite 0xB3 d []
  else doImageRevert d s

/-- R336: IMAGE_REVERT. -/
def execImageRevert (d : Desc) (s : State) : Host.Outcome State Fault Refusal := onOp s d 0xB3 .both (imageRevert d)

def migrationReport (d : Desc) (ok : Bool) (s : State) : State :=
  let r := s.seed.report.getD []
  if !d.only [(8, 0, 64), (16, 0, 32)] then s.finish d 0xB4 stFormat
  else if d.num 8 8 % 8 != 0 || d.num 16 4 < r.length || mbxRefuses d (d.num 8 8) r.length then s.finish d 0xB4 stAddress
  else if !ok && !d.mbx then s.finish d 0xB4 stPcie
  else (s.returnTo d (d.num 8 8) r).finish d 0xB4 stOk r.length

/-- R340: MIGRATION_REPORT. -/
def execMigrationReport (d : Desc) (ok : Bool) (s : State) : Host.Outcome State Fault Refusal :=
  onOp s d 0xB4 .both (migrationReport d ok)

def imageBroadcast (d : Desc) (src : HostData) (s : State) : State :=
  let n := d.num 8 4
  if !d.only [(0, 0, 64), (8, 0, 32)] || n % 65536 != 0 || n = 0 || slotSize < n then s.finish d 0xB5 stFormat
  else if !src.ok then s.finish d 0xB5 stPcie
  else (s.starts d).broadcastFor 4 ((List.range n).map (byteAt src.bytes)) d 0xB5

/-- R341: IMAGE_BROADCAST. -/
def execImageBroadcast (d : Desc) (src : HostData) (s : State) : Host.Outcome State Fault Refusal :=
  onOp s d 0xB5 .head (imageBroadcast d src)

def sdbQuery (d : Desc) (s : State) : State :=
  if !d.only [] then s.finish d 0xB6 stFormat
  else s.finish d 0xB6 stOk (s.slotState 0 + 8 * s.slotState 1 + 64 * s.rd F.SDB_STAT_ACTIVE + 128 * s.rd F.SDB_STAT_TRIAL)

/-- R342: SDB_QUERY. -/
def execSdbQuery (d : Desc) (s : State) : Host.Outcome State Fault Refusal := onOp s d 0xB6 .both (sdbQuery d)

/-- R336, R337: the trial window ends; a confirm fetched before that still confirms. -/
def trialWindowExpiry (s : State) : State :=
  match s.seed.deadline with
  | none => s
  | some c =>
    let s := s.advanceTo c
    if s.hq.flights.any (fun f => f.op == 0xB2 && f.done.isNone) || s.seed.waiting.any (fun w => w.1 == 0xB2) then
      { s with seed := { s.seed with deadline := none } }
    else (s.fallBack 1).coldRestart

def execTrialWindowExpiry (s : State) : Host.Outcome State Fault Refusal := onLive s trialWindowExpiry

/-- R330: Ranger's scrub reads a codeword. -/
def seedbankScrub (offset : Nat) (read : EccRead) (s : State) : State :=
  if !s.rangerUp then s
  else
    match read with
    | .clean => s
    | .corr1 => s.countCorr
    | .corr2 => s.countCorr
    | .uncorr =>
      let s := s.countUncorr
      if offset < 2 * slotSize then (s.setSlot (offset / slotSize) 5).detect E.SDB_SCRUB_UNCORR else s

def execSeedbankScrub (offset : Nat) (read : EccRead) (s : State) : Host.Outcome State Fault Refusal :=
  onLive s (seedbankScrub offset read)

/-- Recovery boot begins (R351). -/
def State.recover (s : State) : State := (s.wr F.GLB_BOOT_STAT_RECOVERY 1).detect E.GLB_RECOVERY

/-- A slot is loaded and will run, and the slots' states follow (R335, R339, R342). -/
def State.boots (s : State) (k : Nat) (trial : Bool) : State :=
  let s := { s with seed := { s.seed with booted := k, loaded := true } }
  let s := if trial then s.setSlot k 4
    else
      let o := s.slotState (1 - k)
      (if o = 3 || o = 4 then s.setSlot (1 - k) 2 else s).setSlot k 3
  s.wr F.GLB_BOOT_STAT_BOOTED k

/-- A trial slot that fails as it is loaded: its IMAGE_ACTIVATE completes with the check's status. -/
def State.trialUnbootable (s : State) (k : Nat) : State :=
  let st := (s.imageStatus k).getD stImageIncomplete
  (s.wr F.SDB_STAT_TRIAL 0).dropGoing st

/-- The chosen slot is checked as it is loaded; a failure leads to the other slot, or to recovery boot (R339). -/
def State.loadSlot (s : State) (k : Nat) (trial : Bool) : State :=
  if s.bootable k then s.boots k trial
  else
    let s := s.imageReject
    let s := if s.slotState k = 0 || s.slotState k = 1 then s else s.setSlot k 5
    if s.bootable (1 - k) then
      let s := if trial then s.trialUnbootable k else s
      (s.boots (1 - k) false).detect E.SDB_BOOT_ALT
    else s.recover

/-- R339: the boot engine loads firmware, at a start and at each restart of Ranger. -/
def bootLoad (s : State) : State :=
  let fresh := s.on F.GLB_BOOT_STAT_NOT_READY
  if s.power.ranger != .starting || s.seed.loaded || s.on F.GLB_BOOT_STAT_RECOVERY && fresh || (s.care.shut && fresh) then s
  else if fresh && s.bootSrc != 0 then s.recover
  else
    let s := s.detectIf s.record?.isNone E.SDB_BOOTREC_BAD
    let r := s.bootRec
    if r.trial && !r.tried then (s.writeRecord { r with tried := true }).loadSlot (1 - r.active) true
    else if r.trial then (s.fallBack 4).loadSlot r.active false
    else (s.showRecord r).loadSlot r.active false

def execBootLoad (s : State) : Host.Outcome State Fault Refusal := onLive s bootLoad

/-- The firmware's migration report (R340): what firmware puts into it the spec leaves to firmware, so the free values stand
for it. -/
def freeReport (n toFmt : Nat) : Bytes :=
  let count := Config.freeNat n % 65536
  leBytes 4 0x5247494D ++ leBytes 2 (Config.freeNat (n + 1)) ++ leBytes 2 toFmt ++ leBytes 4 (Config.freeNat (n + 2)) ++
    leBytes 4 count ++ (List.range count).flatMap (fun j =>
      leBytes 4 (bits (Config.freeNat (n + 3)) (64 * j) 32) ++ leBytes 1 (1 + bits (Config.freeNat (n + 3)) (64 * j + 32) 2) ++ zeros 3)

/-- CK_CORE cycles of a number of seconds of counter time (R148, R335). -/
def State.windowCycles (s : State) (sec : Nat) : Nat := ceilDiv (sec * 10 ^ 9 * 2 ^ 40) s.addend

/-- The trial firmware runs: its settings are converted into the free area, and the trial window opens (R335, R340). -/
def State.trialRuns (s : State) : State :=
  let r := s.bootRec
  let n := s.free
  let s := { s with
    free := n + 5
    sdb := Store.write s.sdb (settingsBase (1 - r.setCur)) (leBytes settingsSize (Config.freeNat (n + 4)))
    seed := { s.seed with report := some (freeReport n (imgSetFmt (s.slotBlock s.seed.booted 0)))
                          deadline := some (s.core + s.windowCycles r.window) } }
  let s := s.wr F.SDB_TRIAL_LEFT r.window
  match s.seed.going with
  | none => s
  | some d =>
    { s with seed := { s.seed with going := none } }.finish d 0xB1 stOk (Config.freeNat n % 65536 + 65536 * b2n r.cold)

/-- R303, R349 step 5: the loaded firmware runs. -/
def rangerRunning (s : State) : State :=
  if s.power.ranger != .starting || !s.seed.loaded then s
  else
    let h := s.slotBlock s.seed.booted 0
    let s := { s with power := { s.power with ranger := .running }, seed := { s.seed with loaded := false } }
    let s := (((s.wr F.GLB_BOOT_STAT_NOT_READY 0).wr F.WDG_STAT_RUNNING 1).wr F.WDG_STAT_HALTED 0)
    let s := (s.wr (F.TRL_COMPAT 0) (imgCompat h)).wr (F.TRL_FW_VERSION 0) (imgVersion h)
    let s := match s.seed.source with
      | some v => { (s.wr F.GLB_BOOT_STAT_BOOTED v) with seed := { s.seed with source := none } }
      | none => s
    let s := match s.care.restartDesc with
      | some d => { s with care := { s.care with restartDesc := none } }.finish d 0xF1 stOk
      | none => s
    if s.onTrial then s.trialRuns
    else
      match s.seed.going with
      | some d => { s with seed := { s.seed with going := none } }.finish d 0xB1 stOk
      | none => s

def execRangerRunning (s : State) : Host.Outcome State Fault Refusal := onLive s rangerRunning

/-- R302, R306, R336: the watchdog expires while it counts; in a trial the restart goes to the fall-back slot. -/
def expired (s : State) : State :=
  if !s.care.counting then s
  else
    let t := s.onTrial
    let s := watchdogExpires s
    if t then s.fallBack 2 else s

def execExpired (s : State) : Host.Outcome State Fault Refusal := onLive s expired

/-- The STREAM 4 slots a block's bytes lie in are all held (R341). -/
def blockHeld (slots : Map Bytes) (k : Nat) : Bool :=
  (List.range 275).all (fun j =>
    let i := sdbBlock * k / 240 + j
    decide (sdbBlock * (k + 1) ≤ 240 * i) || (Map.find slots i).isSome)

/-- The staging region (R341, R344). -/
def State.stageBase (s : State) : Nat := s.pairRd F.SDB_STAGE_BASE_LO F.SDB_STAGE_BASE_HI / 4096 * 4096

/-- Blocks whose bytes are present are written, block 0 first (R334, R341). -/
def State.stageBlocks (s : State) (b : Bcast) : State :=
  if s.sdbHeld then s
  else
    (List.range (b.total * 240 / sdbBlock)).foldl (fun s k =>
      match s.seed.stage with
      | none => s
      | some (bid, done) =>
        if done.contains k || !blockHeld b.slots k || (k != 0 && !done.contains 0) then s
        else
          let r := s.writeBlock k (s.lmRead (s.stageBase + sdbBlock * k) sdbBlock)
          { r.2 with seed := { r.2.seed with stage := some (bid, done ++ [k]) } }) s

/-- In recovery boot from the Trail a complete, valid image boots (R351). -/
def State.bootTrail (s : State) : State :=
  if s.on F.GLB_BOOT_STAT_NOT_READY && s.on F.GLB_BOOT_STAT_RECOVERY && s.slotState 0 = 2 && !s.seed.loaded then
    match s.imageStatus 0 with
    | some _ => (s.setSlot 0 5).imageReject
    | none =>
      let s := s.writeRecord ⟨0, 0, false, false, false, 0, 0⟩
      { s with seed := { s.seed with loaded := true, source := some 3, booted := 0 } }.setSlot 0 3
  else s

/-- A slot of a STREAM 4 broadcast is gathered (R341). -/
def State.stageSlot (s : State) (b : Bcast) (bseq : Nat) (payload : Bytes) : State :=
  let bid := b.bid.toNat
  let s := if s.seed.stage.map (·.1) = some bid then s else { s with seed := { s.seed with stage := some (bid, []) } }
  let a := s.stageBase + 240 * bseq
  let n := min 240 (slotSize - 240 * bseq)
  let s := if lmOk a n then s.lmWrite a (payload.take n) else s
  (s.stageBlocks b).bootTrail

/-- A write that waited for a supply dip to end (R342). -/
def State.resumeWrite (s : State) (w : Nat × Desc × Bytes) : State :=
  if w.1 = 0xB0 then doImageWrite w.2.1 w.2.2 s
  else if w.1 = 0xB1 then doImageActivate w.2.1 s
  else if w.1 = 0xB2 then doImageConfirm w.2.1 s
  else doImageRevert w.2.1 s

/-- R299: 1.00 ms after every rail has recovered, the suspension and the cause end, and Seedbank writes go on (R342). -/
def dipRecovery (s : State) : State :=
  let s := { s with power := { s.power with dips := 0 } }
  let s := (s.wr F.SUP_STAT_BELOW_WARN 0).wr F.SUP_STAT_SDB_SUSPENDED 0
  let l := s.seed.waiting
  let s := l.foldl State.resumeWrite { s with seed := { s.seed with waiting := [] } }
  match Map.find s.trail.bcasts 4 with
  | some b => if b.opened then (s.stageBlocks b).bootTrail else s
  | none => s

def execDipRecovery (s : State) : Host.Outcome State Fault Refusal := onLive s dipRecovery

end Sys2Proof.Machine
end

