-- ==== Sys2Proof/Machine/Thermal.lean ====
section
/-! DEFINITION. Temperature sensing, throttling and shutdown (R311 - R317, R320). -/

namespace Sys2Proof.Machine

/-- Quarter degrees at which each throttle level is entered, and below which it is left (R314). -/
def levelEnter (n : Nat) : Int := 476 + 8 * n
def levelLeave (n : Nat) : Int := 464 + 8 * n

/-- A sensor has failed (R312): out of -55 °C to +150 °C, or its references disagree. -/
def sensorBad (r : SensorReading) : Bool := r.disagree || decide (r.quarter < -220) || decide (600 < r.quarter)

/-- The reading of sensor `i`. -/
def sensor (l : List SensorReading) (i : Nat) : SensorReading := l.getD i ⟨0, true⟩

/-- The sensor groups (R311). -/
def sensorGroups : List (List Nat) := [[0, 1, 2, 3, 4, 5, 6], [7, 8, 9], [10, 11, 12], [13, 14, 15]]

/-- The readings with each sensor's trimmed offset in force (R322). -/
def State.trimmed (s : State) (l : List SensorReading) : List SensorReading :=
  (List.range 16).map (fun i => { sensor l i with quarter := (sensor l i).quarter + sval (s.trimRd (F.TRM_SENS_OFS i)) 8 })

/-- The highest of the candidates for Tmax, the first of equals: value and sensor. -/
def hottest (l : List (Int × Nat)) : Int × Nat :=
  match l with
  | [] => (0, 0)
  | x :: r => r.foldl (fun m y => if m.1 < y.1 then y else m) x

/-- Tmax and the sensor that gave it (R311, R312): a group whose sensors have all failed counts 121.0 °C. -/
def tmaxOf (l : List SensorReading) : Int × Nat :=
  hottest (((List.range 16).filter (fun i => !sensorBad (sensor l i))).map (fun i => ((sensor l i).quarter, i)) ++
    (sensorGroups.filter (fun g => g.all (fun i => sensorBad (sensor l i)))).map (fun g => (484, g.headD 0)))

/-- One sensor's register and failure bit (R312, R320). -/
def State.showSensor (s : State) (l : List SensorReading) (i : Nat) : State :=
  let r := sensor l i
  let was := bit (s.rd F.THM_FAILED) i
  let s := (s.wr (F.THM_SENSOR_T i) (sbits r.quarter 11)).wr (F.THM_SENSOR_FAIL i) (b2n (sensorBad r))
  let s := s.wr F.THM_FAILED (if sensorBad r then setBit (s.rd F.THM_FAILED) i else clrBit (s.rd F.THM_FAILED) i)
  s.detectIf (sensorBad r && !was) E.THM_SENSOR_FAULT

/-- R316: shutdown, in hardware and in the order of its ledger. -/
def State.shutdown (s : State) : State :=
  let s := (s.wr F.THM_STAT_SHUTDOWN 1).detect E.THM_SHUTDOWN
  let s := { s with power := { s.power with shutFlag := true } }
  let s := if s.isPair then s.resign else s
  let s := (List.range s.portCount).foldl (fun s k => s.dropPort k 0) s
  let s := if s.isHead then netLinkDown 1 (netLinkDown 0 s) else s.feedUpdate
  { s with care := { s.care with shut := true }
           brn := { s.brn with runs := [], hiz := true }
           cnp := { s.cnp with passes := [], queue := [] }
           stp := { s.stp with armed := [] } }

/-- The warning state and its sticky (R314). -/
def State.warnAt (s : State) (t : Int) : State :=
  if s.on F.THM_STAT_WARN then (if t < 448 then s.wr F.THM_STAT_WARN 0 else s)
  else if 460 ≤ t then (s.wr F.THM_STAT_WARN 1).detect E.THM_WARN
  else s

/-- The throttle level moves by at most one step (R314). -/
def State.levelAt (s : State) (t : Int) : State :=
  let n := s.rd F.THM_STAT_LEVEL
  if n < 4 && decide (levelEnter (n + 1) ≤ t) then (s.notePace.wr F.THM_STAT_LEVEL (n + 1)).detect E.THM_THROTTLE
  else if 0 < n && decide (t < levelLeave n) then s.notePace.wr F.THM_STAT_LEVEL (n - 1)
  else s

/-- The clock moves on to the next sample (R313), and THR_TIME counts the time at a level. -/
def State.nextSample (s : State) : State :=
  let n := if s.on F.THM_STAT_FAST then 6294 else 100708
  match s.care.sampleAt with
  | none => { s with care := { s.care with sampleAt := some s.core } }
  | some c =>
    let s := s.advanceTo (c + n * sysCycle)
    let acc := if s.rd F.THM_STAT_LEVEL = 0 then s.care.thrAcc else s.care.thrAcc + n
    { (s.wr F.THM_THR_TIME (min (acc / 100708) (2 ^ 32 - 1))) with care := { s.care with sampleAt := some s.core, thrAcc := acc } }

/-- What a sample shows: the sensors, Tmax and its sensor, PEAK, and the fast rate (R311 - R313, R320). -/
def State.showSample (s : State) (l : List SensorReading) : State :=
  let first := s.care.sampleAt.isNone
  let s := s.nextSample
  let s := (List.range 16).foldl (fun s i => s.showSensor l i) s
  let t := tmaxOf l
  let s := (s.wr F.THM_STAT_TMAX (sbits t.1 11)).wr F.THM_HOT t.2
  let s := if first || decide (sval (s.rd F.THM_PEAK) 11 < t.1) then s.wr F.THM_PEAK (sbits t.1 11) else s
  if s.on F.THM_STAT_FAST then (if t.1 < 428 then s.wr F.THM_STAT_FAST 0 else s)
    else if 440 ≤ t.1 then s.wr F.THM_STAT_FAST 1 else s

/-- R311 - R316: one sample of the 16 sensors. -/
def thermalSample (l : List SensorReading) (s : State) : State :=
  let l := s.trimmed l
  let t := (tmaxOf l).1
  let s := ((s.showSample l).warnAt t).levelAt t
  let s := { s with care := { s.care with hotRun := if 520 ≤ t then s.care.hotRun + 1 else 0 } }
  if 2 ≤ s.care.hotRun && !s.on F.THM_STAT_SHUTDOWN then s.shutdown else s

def execThermalSample (readings : List SensorReading) (s : State) : Host.Outcome State Fault Refusal :=
  onLive s (thermalSample readings)

/-- R320: THM.CMD.PEAK_RESET. -/
def peakReset (s : State) : State := s.wr F.THM_PEAK (s.rd F.THM_STAT_TMAX)

def execPeakReset (s : State) : Host.Outcome State Fault Refusal := onLive s peakReset

end Sys2Proof.Machine
end

