-- ==== Sys2Proof/Machine/Bar.lean ====
section
/-! DEFINITION. The register space: how a read and a write behave, over BAR0 and over the Trail (R7, R60, R62, R290 - R293,
R350, R354, R380 - R387, R389, R390). -/

namespace Sys2Proof.Machine

/-- The block of a BAR0 offset, and the offset in its window (R380). -/
def blkOf (off : Nat) : Nat := off / 65536
def inBlk (off : Nat) : Nat := off % 65536

/-- Does a row of the register tables lie at an offset? -/
def RegRow.at (r : RegRow) (off : Nat) : Bool :=
  let b := blkOf off; let o := inBlk off
  decide (r.blk ≤ b) && decide (b < r.blk + r.nblk) && decide (r.off ≤ o) && (o - r.off) % r.stride == 0 &&
    decide ((o - r.off) / r.stride < r.n)

/-- The rows at an offset. -/
def rowsAt (off : Nat) : List RegRow := regRows.filter (fun r => r.at off)

/-- The field of a row at an offset. -/
def RegRow.fld (r : RegRow) (off : Nat) : Fld := ⟨off, r.lo, r.len, r.reset⟩

/-- The device has a row's field (R2, R380). -/
def State.rowHere (s : State) (r : RegRow) (off : Nat) : Bool :=
  let b := blkOf off
  s.blockHere b && !(4 ≤ b && b ≤ 7 && decide (s.portCount ≤ b - 4)) &&
    (match r.role with
     | .both => true
     | .head => s.isHead
     | .tile => s.isTile
     | .pair => s.isPair
     | .net0 => b == 8
     | .trl0 => b == 4)

/-- The number of the sample in progress (R259, R269). -/
def State.smpNow (s : State) : Nat :=
  if s.on F.AUD_STAT_RUNNING then
    let d := (s.audTgt + thirdWrap - s.ptp.toNat * 3 / 2 ^ 40 % thirdWrap) % thirdWrap
    if d < thirdWrap / 2 then (s.aud.num.toNat + 2 ^ 32 - ceilDiv d 62500) % 2 ^ 32
    else (s.aud.num.toNat + (thirdWrap - d) / 62500) % 2 ^ 32
  else s.rd F.AUD_SMP_NOW

/-- Trail cycles since the last good FB_SER frame (R289). -/
def State.peerAge (s : State) : Nat :=
  match s.pair.peer with
  | some (_, r) => min 255 ((s.core - r) / trailCycle)
  | none => 255

/-- Seconds left of the trial window (R344). -/
def State.trialLeft (s : State) : Nat :=
  match s.seed.deadline with
  | some c => ceilDiv ((c - s.core) * s.addend) (10 ^ 9 * 2 ^ 40)
  | none => 0

/-- The boundary register drives the balls (R378). -/
def State.scanDrives (s : State) : Bool := s.tap == .extest || s.tap == .clamp

/-- A GPIO drives its ball (R271, R366, and HIGHZ of R378). -/
def State.gpioDrives (s : State) (n : Nat) : Bool :=
  let dir := if n < 32 then s.rd F.GLB_GPIO_DIR0 else if n < 64 then s.rd F.GLB_GPIO_DIR1 else s.rd F.GLB_GPIO_DIR2
  decide (n < 80) && bit dir (n % 32) && !s.care.shut && s.tap != .highz && (!s.isPair || s.on F.FBK_STAT_DRIVING)

/-- The level at a GPIO ball: the output where it drives, else a level from outside or from the boundary register, which is free
(R366, R378). -/
def State.gpioLevel (s : State) (n : Nat) : Bool :=
  let out := if n < 32 then s.rd F.GLB_GPIO_OUT0 else if n < 64 then s.rd F.GLB_GPIO_OUT1 else s.rd F.GLB_GPIO_OUT2
  if s.gpioDrives n && !s.scanDrives then bit out (n % 32) else bit (Config.freeNat s.free) n

/-- GPIO_IN word `w` (R366). -/
def State.gpioIn (s : State) (w : Nat) : Nat :=
  ((List.range (if w = 6 then 16 else 32)).filter (fun i => s.gpioLevel (32 * w + i))).foldl (fun v i => v + 2 ^ i) 0

/-- Is an offset GPIO_IN's (R366)? -/
def isGpioIn (off : Nat) : Bool := decide (0x620 ≤ off) && decide (off ≤ 0x638)

/-- A measurement that no command reports: CLK.ROOT_STAT.FREQ_OFS while Root follows FB_CLK or a recovered clock, whose frequency
only the other device knows.  It reads as a free value. -/
def State.measured (s : State) (off lo : Nat) : Bool :=
  off == 0x10044 && lo == 16 && s.rd F.CLK_ROOT_STAT_REF != 0 && s.rd F.CLK_ROOT_STAT_REF != 4

/-- Fields whose value the device derives (R36, R100, R121, R290, R291, R344, R348, R357, R366, R389). -/
def State.derived (s : State) (off lo : Nat) : Option Nat :=
  let b := blkOf off; let o := inBlk off
  if o = 0 && lo = 0 then some b
  else if o = 0x1C && lo = 8 then some (s.codeOf b (s.rd (F.BLK_REACT_SRC b)))
  else if off = 0x44 then
    some (if lo = 0 then b2n s.isTile else if lo = 2 then s.side else if lo = 4 then s.bootSrc else b2n s.power.straps.test)
  else if off = 0x50 && lo = 16 then some s.fuses.dieRev.toNat
  else if 0x60 ≤ off && off ≤ 0x6C then some (bits s.fuses.unitId.toNat (8 * (off - 0x60)) 32)
  else if isGpioIn off then some (s.gpioIn ((off - 0x620) / 4))
  else if s.measured off lo then some (Config.freeNat s.free)
  else if off = 0x10044 && lo = 16 then some (sbits s.rootOfs 16)
  else if 4 ≤ b && b ≤ 7 && 0x100 ≤ o && o < 0x138 && s.lst (b - 4) = 5 then some (numAt (s.capMsg (b - 4)) (o - 0x100) 4)
  else if (off = 0x218 || off = 0x21C) && lo = 31 then some (b2n (s.dCurrent ((off - 0x218) / 4)))
  else if off = 0xA0060 then some s.ns
  else if off = 0xB005C && lo = 0 then some s.openRefs.length
  else if off = 0xF0064 then some s.smpNow
  else if off = 0x100054 && lo = 24 then some s.peerAge
  else if off = 0x140054 then some s.trialLeft
  else if off = 0x15004C && lo = 4 then some (min s.recent 15)
  else if off = 0x150054 then some s.loadNow
  else if off = 0x140060 then some (s.fuses.secCtr % 2 ^ 32)
  else if off = 0x140064 then some (s.fuses.secCtr / 2 ^ 32)
  else if off = 0x140068 then some (128 - s.fuses.ctrRaises)
  else if 0x140080 ≤ off && off ≤ 0x14009C then some (bits s.fuses.keyHash.toNat (8 * (off - 0x140080)) 32)
  else none

/-- What a field reads as: a WO field reads 0, an RWS field its value in force (R383, R385). -/
def State.readRow (s : State) (r : RegRow) (off : Nat) : Nat :=
  if !s.rowHere r off || r.acc = .wo then 0
  else ((s.derived off r.lo).getD (s.rd (r.fld off))) % 2 ^ r.len * 2 ^ r.lo

/-- A register's word (R380). -/
def State.wordAt (s : State) (off : Nat) : Nat := ((rowsAt off).map (fun r => s.readRow r off)).foldl (· + ·) 0

/-- Registers that read their true values while NOT_READY is 1 (R350, R389). -/
def readyRead (off : Nat) : Bool :=
  off == 0x40 || off == 0x44 || off == 0x10044 || blkOf off == 3 || off == 0x50 || (decide (0x60 ≤ off) && decide (off ≤ 0x6C))

/-- The pairs of _LO and _HI registers (R382). -/
def loHiPairs : List (Nat × Nat) :=
  [(0x20058, 0x2005C), (0x30040, 0x30044), (0x30050, 0x30054), (0x30060, 0x30064), (0x30084, 0x30088), (0x3008C, 0x30090),
   (0x8004C, 0x80050), (0x9004C, 0x90050), (0xA0058, 0xA005C), (0xB0040, 0xB0044), (0xC0050, 0xC0054), (0xC0058, 0xC005C),
   (0xC0060, 0xC0064), (0xC0068, 0xC006C), (0xD0044, 0xD0048), (0xF0054, 0xF0058), (0x140048, 0x14004C), (0x140060, 0x140064)]

/-- The _HI register of a _LO register, and the _LO register of a _HI register. -/
def hiOf (off : Nat) : Option Nat := (loHiPairs.find? (fun p => p.1 == off)).map (·.2)
def loOf (off : Nat) : Option Nat := (loHiPairs.find? (fun p => p.2 == off)).map (·.1)

/-- A read of a word: its value, and what reading it changes: a _LO captures its _HI, and PTP.TIME_NS its fraction (R382,
R383). -/
def State.regRead (s : State) (off : Nat) : Nat × State :=
  if s.on F.GLB_BOOT_STAT_NOT_READY && !readyRead off then (0x4E524459, s)
  else
    match hiOf off with
    | some hi => (s.wordAt off, { s with hq := { s.hq with hiCap := Map.put s.hq.hiCap hi (BitVec.ofNat 32 (s.wordAt hi)) } })
    | none =>
      match Map.find s.hq.hiCap off with
      | some v => (v.toNat, { s with hq := { s.hq with hiCap := Map.del s.hq.hiCap off } })
      | none => (s.wordAt off, if off = 0xA0060 then timeNsRead s else if isGpioIn off || s.measured off 16 then s.drawn else s)

/-- A denied write is counted (R389). -/
def State.deny (s : State) (off cause : Nat) (trail : Bool) : State :=
  (((s.inc F.GLB_REG_DENIED).wr F.GLB_REG_LAST_OFFSET off).wr F.GLB_REG_LAST_CAUSE cause).wr F.GLB_REG_LAST_TRAIL (b2n trail)

/-- Is an offset a shadowed register (R385)? -/
def isRws (off : Nat) : Bool := (rowsAt off).any (fun r => r.acc == .rws)

/-- Why a write on a tile is denied (R386). -/
def State.denied (s : State) (off : Nat) (trail : Bool) : Option Nat :=
  if s.isHead then none
  else if off = 0x10054 then (if s.anyActive then some 3 else none)
  else if trail then
    if (0x30040 ≤ off && off ≤ 0x30064 && off != 0x3004C) || off = 0x3006C || off = 0x30070 || (0x30084 ≤ off && off ≤ 0x30090) then some 2
    else none
  else if off = 0x30084 || off = 0x30088 || off = 0x48 then (if s.anyActive then some 3 else none)
  else if isRws off && s.on F.GLB_TILE_ID_VALID && s.anyActive then some 3
  else none

/-- A field as a masked write finds it: a W1C or WO field as 0, an RWS field its shadow value, a held _LO its held value
(R382, R386). -/
def State.oldRow (s : State) (off : Nat) (r : RegRow) : Nat :=
  match r.acc with
  | .wo => 0
  | .w1c => 0
  | .rws => s.shadowRd (r.fld off) * 2 ^ r.lo
  | _ => (match Map.find s.hq.loHeld off with
    | some v => v.toNat
    | none => s.rd (r.fld off)) * 2 ^ r.lo

/-- The word a write with a mask brings: register = (register AND NOT MASK) OR (VALUE AND MASK) (R386). -/
def State.merged (s : State) (off v mask : Nat) : Nat :=
  let old := ((rowsAt off).map (s.oldRow off)).foldl (· + ·) 0
  andNot old mask + (v &&& mask)

/-- Store a field from a written word; a bit that hardware sets in the same CK_SYS cycle stays set, and a field that hardware writes then
keeps the hardware's value (R7, R383); a value outside the field's range is ignored (R7, R344 and the other tables). -/
def State.storeRow (s : State) (off w : Nat) (r : RegRow) : State :=
  let x := bits w r.lo r.len
  if !s.rowHere r off then s
  else
    match r.acc with
    | .rw => if r.mn ≤ x && x ≤ r.mx && s.risen (r.fld off) = 0 then s.wr (r.fld off) x else s
    | .w1c => s.wr (r.fld off) (andNot (s.rd (r.fld off)) (andNot x (s.risen (r.fld off))))
    | _ => s

/-- A write to a register without behaviour of its own (R381). -/
def State.storeWord (s : State) (off w : Nat) : State := (rowsAt off).foldl (fun s r => s.storeRow off w r) s

/-- The resign causes whose sticky bits have been cleared end (R275). -/
def State.dropResigners (s : State) : State :=
  { s with pair := { s.pair with resigners := s.pair.resigners.filter (fun e => bit (s.rd (F.BLK_STICKY e.1)) e.2) } }

/-- A write to a register of the common header (R290, R291, R293, R62). -/
def State.headerWrite (s : State) (b o w : Nat) : State :=
  let off := 65536 * b + o
  if o = 4 then (if bit w 0 then s.blockReset b else s)
  else if o = 0x10 then (s.storeWord off w).dropResigners
  else if o = 0x14 then
    let old := s.rd (F.BLK_IRQ_EN b)
    let s := s.storeWord off w
    if s.rd (F.BLK_IRQ_PEND b) &&& andNot w old != 0 then s.notify b else s
  else if o = 0x1C then reactWrite b w true s
  else s.storeWord off w

/-- A base pair is written through its _HI register (R382), unless its region would lie over the private region (R61). -/
def State.basePair (s : State) (lo hi : Fld) (align size : Nat) (w : Nat) : State :=
  let r := s.takeLo lo.off (s.rd lo)
  let base := r.1 / align * align + 2 ^ 32 * w
  if size != 0 && touchesPrivate base size then r.2 else (r.2.wr lo (r.1 / align * align)).wr hi w

/-- A shadowed base pair is written through its _HI register (R382, R385). -/
def State.shadowPair (s : State) (lo hi : Fld) (w : Nat) : State :=
  let r := s.takeLo lo.off (s.shadowRd lo)
  r.2.setShadow [(lo, r.1 / 4096 * 4096), (hi, w)]

/-- A host edit of the shadow bank, where it is not frozen (R139, R385). -/
def State.edited (s s' : State) : State := if s.frozen then s' else s'.hostEdited

/-- A write to CLK.FRM_CTRL (R34, R36). -/
def frmCtrlWrite (w : Nat) (s : State) : State :=
  if bit w 0 then
    (if !s.on F.CLK_FRM_CTRL_RUN then frmRun s else if bit w 1 then frmReseed s else s)
  else if s.on F.CLK_FRM_CTRL_RUN then frmStop s else s

/-- A write to a TRL port's CTRL (R89, R95, R97, R98, R100). -/
def trlCtrlWrite (k w : Nat) (s : State) : State :=
  let s := (s.wr (F.TRL_CTRL_RETIMED k) (bits w 3 1)).wr (F.TRL_CTRL_POL_AUTO k) (bits w 4 1)
  let s := if bit w 0 == s.on (F.TRL_CTRL_EN k) then s else if bit w 0 then trlEnable k s else trlDisable k s
  let s := if bit w 1 == s.on (F.TRL_CTRL_DORMANT k) then s else if bit w 1 then dormantEnter k s else dormantClear k s
  if bit w 2 then retrain k s else s

/-- The host assigns a working ID (R354); a tile that was preparing a commit discards its staging (R356). -/
def State.hostId (s : State) (id : Nat) : State :=
  let s := s.setTileId id 2
  if s.stp.staged.isSome then s.unstage else { s with stp := { s.stp with prepIn := none, layerIn := none } }

/-- The host's ID as it is adopted over the Trail (R79, R354): class-3 slots act again only after a RESYNC. -/
def State.adoptId (s : State) (id : Nat) : State :=
  { s.hostId id with trail := { (s.hostId id).trail with expect := none } }

/-- A write of a staged trim register (R321, R322, R326, R390). -/
def trimStageWrite (off w : Nat) (s : State) : State :=
  if s.trm.going.isSome then s.detect E.TRM_STAGE_BUSY
  else
    let o := inBlk off
    let w' := if o < 0x400 then (bits w 0 5 + 256 * bits w 8 12) else if o < 0x440 then (bits w 0 4 + 256 * bits w 8 8) else w
    let ok := if o < 0x400 then pinOk w' else if o < 0x440 then sensOk w' else true
    if ok then (s.storeWord off w).showTrim else s.detect E.TRM_TRIM_REJECT

/-- A Return Slot Mask bank in force is not written (R116). -/
def maskWrite (off w : Nat) (s : State) : State :=
  if s.isHead then s
  else if (off - 0x300) / 128 == s.rd F.GLB_EPOCH_STAT_EPOCH % 2 then s.detect E.GLB_MASK_BUSY
  else s.storeWord off w

/-- A write to GLB registers with a behaviour of their own. -/
def glbWrite (off w : Nat) (s : State) : State :=
  if off = 0x48 then (if s.isTile then s.hostId (bits w 0 9) else s)
  else if off = 0x70 then (if w = 0 then s.wr F.GLB_REG_DENIED 0 else s)
  else if off = 0x200 then (s.storeWord off w).feedUpdate
  else if off = 0x20C then (if bit w 0 then epochAdvance s else s)
  else if 0x300 ≤ off && off < 0x400 then maskWrite off w s
  else s.storeWord off w

/-- A write to HQS registers (R82, R386, R393). -/
def hqsWrite (off w : Nat) (s : State) : State :=
  let v := BitVec.ofNat 32 w
  if off = 0x3005C then acqHeadWrite v s
  else if 0x30040 ≤ off && off ≤ 0x30064 then adminQueueSetup off v s
  else if off = 0x3006C then hqsEnable v s
  else if off = 0x30084 then (if s.on F.HQS_CTRL_EN || s.isHead then s else s.holdLo off v)
  else if off = 0x30088 then
    if s.on F.HQS_CTRL_EN || s.isHead then s else s.basePair F.HQS_TWIN_BASE_LO F.HQS_TWIN_BASE_HI (2 ^ 17) (2 ^ 17) w
  else if off = 0x3008C then s.holdLo off v
  else if off = 0x30090 then s.basePair F.HQS_LMW_BASE_LO F.HQS_LMW_BASE_HI (2 ^ 28) 0 w
  else s.storeWord off w

/-- A write to NET registers (R147). -/
def netWrite (off w : Nat) (s : State) : State :=
  let p := blkOf off - 8; let o := inBlk off
  if o = 0x40 then netModeWrite p (BitVec.ofNat 32 w) s
  else if o = 0x4C then s.holdLo off (BitVec.ofNat 32 w)
  else if o = 0x50 then s.basePair (F.NET_MAC_LO p) (F.NET_MAC_HI p) 1 0 (w % 65536)
  else s.storeWord off w

/-- A write to Canopy registers (R188, R204, R207). -/
def cnpWrite (off w : Nat) (s : State) : State :=
  if off = 0xB0040 then s.holdLo off (BitVec.ofNat 32 w)
  else if off = 0xB0044 then s.edited (s.shadowPair F.CNP_STORE_BASE_LO F.CNP_STORE_BASE_HI w)
  else if off = 0xB0048 then
    let n := bits w 0 13
    if 1 ≤ n && n ≤ 4096 then s.edited (s.setShadow [(F.CNP_STORE_SIZE, n)]) else s
  else if off = 0xB0108 then gladeRelease (BitVec.ofNat 32 w) s
  else s.storeWord off w

/-- A write to branch registers (R245). -/
def brnWrite (off w : Nat) (s : State) : State :=
  if off = 0xD0040 then
    (s.storeWord off w).noteHiz
  else if off = 0xD0044 then s.holdLo off (BitVec.ofNat 32 w)
  else if off = 0xD0048 then s.edited (s.shadowPair F.BRN_FB_BASE_LO F.BRN_FB_BASE_HI w)
  else if off = 0xD004C then s.edited (s.setShadow [(F.BRN_CEN_CFG_THRESH, bits w 0 16), (F.BRN_CEN_CFG_CODE, bits w 16 8)])
  else s.storeWord off w

/-- A write to audio registers (R259, R269). -/
def audWrite (off w : Nat) (s : State) : State :=
  if off = 0xF0040 then
    if bit w 0 then audioRun s else if s.on F.AUD_CTRL_RUN then s.audioStop else s
  else if off = 0xF0054 then s.holdLo off (BitVec.ofNat 32 w)
  else if off = 0xF0058 then
    if s.on F.AUD_CTRL_RUN then s else s.basePair F.AUD_BUF_BASE_LO F.AUD_BUF_BASE_HI 4096 (2 ^ 26) w
  else s.storeWord off w

/-- A write of transmit equalisation taps (R100). -/
def txeqWrite (off w : Nat) (s : State) : State :=
  if bits w 0 5 + bits w 8 5 + bits w 16 5 ≤ 32 then s.storeWord off w else s

/-- A write of a word that the access rules let through: the register acts (R380 - R387). -/
def State.act (s : State) (off w : Nat) : State :=
  let b := blkOf off; let o := inBlk off
  if !s.blockHere b || (4 ≤ b && b ≤ 7 && decide (s.portCount ≤ b - 4)) then s
  else if o < 0x40 then s.headerWrite b o w
  else if b = 0 then glbWrite off w s
  else if off = 0x10040 then rootCfgWrite w s
  else if off = 0x10050 then frmCfgWrite (BitVec.ofNat 32 w) s
  else if off = 0x10054 then frmCtrlWrite w s
  else if b = 3 then hqsWrite off w s
  else if 4 ≤ b && b ≤ 7 then
    (if o = 0x40 then trlCtrlWrite (b - 4) w s else if 0x50 ≤ o && o ≤ 0x6C then txeqWrite off w s else s.storeWord off w)
  else if b = 8 || b = 9 then netWrite off w s
  else if off = 0xA006C then (if bit w 0 then timeSet s else s)
  else if b = 11 then cnpWrite off w s
  else if off = 0xC0040 then s.edited (s.setShadow [(F.LCR_CUR_DEF, w)])
  else if b = 13 then brnWrite off w s
  else if b = 15 then audWrite off w s
  else if off = 0x120040 then s.notePace.storeWord off w
  else if off = 0x120054 then (if bit w 0 then peakReset s else s)
  else if off = 0x130040 then
    let s := s.storeWord off w
    if bit w 0 then trimApply s else s
  else if b = 19 && decide (0x100 ≤ o) then trimStageWrite off w s
  else if off = 0x140048 then (if s.isTile then s.holdLo off (BitVec.ofNat 32 w) else s)
  else if off = 0x14004C then
    if s.isTile then s.basePair F.SDB_STAGE_BASE_LO F.SDB_STAGE_BASE_HI 4096 slotSize w else s
  else s.storeWord off w

/-- A write that would end the tile's own Trail path (R386): EN = 0, DORMANT = 1, RETRAIN, or a block reset of the port. -/
def endsPath (off w : Nat) : Bool :=
  ((off == 0x40040 || off == 0x50040) && (!bit w 0 || bit w 1 || bit w 2)) || ((off == 0x40004 || off == 0x50004) && bit w 0)

/-- A write to the register space: while NOT_READY is 1 only HQS takes writes (R350); then the access rules of R386. -/
def State.regWrite (s : State) (off v mask : Nat) (trail : Bool) : State :=
  if s.on F.GLB_BOOT_STAT_NOT_READY && blkOf off != 3 then s
  else
    match s.denied off trail with
    | some c => s.deny off c trail
    | none =>
      let w := s.merged off v mask
      if trail && (off == 0x48 || endsPath off w) then
        { s with trail := { s.trail with afterReply := s.trail.afterReply ++ [(off, BitVec.ofNat 32 w)] } }
      else s.act off w

/-- The writes that waited for their REG_REPLY (R354, R386). -/
def State.afterReply (s : State) : State :=
  let l := s.trail.afterReply
  let s := { s with trail := { s.trail with afterReply := [] } }
  l.foldl (fun s x => if x.1 = 0x48 then s.adoptId (bits x.2.toNat 0 9) else s.act x.1 x.2.toNat) s

/-- Mask bits of a full word. -/
def allOnes : Nat := 2 ^ 32 - 1

/-- A word written to BAR2 (R60, R62): a word of the MSI-X table, whose control words keep the mask bit alone; a vector that was
pending goes out as it is opened.  The pending-bit array is read only. -/
def State.msixWrite (s : State) (o w : Nat) : State :=
  if 4096 ≤ o then s
  else
    let i := o / 4; let v := o / 16
    let w := if i % 4 = 3 then w % 2 else if i % 4 = 0 then w / 4 * 4 else w
    let s := { s with hq := { s.hq with msixTab := Map.set s.hq.msixTab i w (if i % 4 = 3 then 1 else 0) } }
    if s.vectorOpen v && s.hq.msixPend.contains v then
      { s with hq := { s.hq with msixPend := s.hq.msixPend.filter (fun x => x != v) } }.sendVector v
    else s

/-- What a read of one word of BAR2 returns (R60): the MSI-X table, the pending-bit array at 0x8000, or 0. -/
def State.msixRead (s : State) (o : Nat) : Nat :=
  if o < 4096 then s.msixWord (o / 4)
  else if 0x8000 ≤ o && o < 0x8020 then
    ((List.range 32).filter (fun i => s.hq.msixPend.contains (8 * (o / 4 * 4 - 0x8000) + i))).foldl setBit 0
  else 0

/-- What a read of a word of configuration space returns where R60 says what it holds: Device ID 0x8128 over the vendor ID, and the
class code over the revision; the two others are left open. -/
def configRead (o : Nat) : Option Nat :=
  if o = 0 then some (0x8128 * 2 ^ 16 + Config.pcieVendor % 2 ^ 16)
  else if o = 8 then some (0x048000 * 2 ^ 8 + Config.pcieRevision % 2 ^ 8)
  else none

/-- R381: a BAR0 write of one word; one with a byte enable clear is denied.  Offsets from 0x20_0000 stand for BAR2. -/
def registerWrite (off : Nat) (v : Word) (be : BitVec 4) (s : State) : State :=
  let o := off / 4 * 4
  if 0x200000 ≤ o then (if be = 15 && off % 4 = 0 then s.msixWrite (o - 0x200000) v.toNat else s)
  else if 0x170000 ≤ o then s
  else if be = 15 && off % 4 = 0 then s.regWrite o v.toNat allOnes false
  else if s.on F.GLB_BOOT_STAT_NOT_READY && blkOf o != 3 then s
  else s.deny o 1 false

def execRegisterWrite (off : Nat) (v : Word) (be : BitVec 4) (s : State) : Host.Outcome State Fault Refusal :=
  onLive s (registerWrite off v be)

/-- R382: a write to a register of a _LO and _HI pair. -/
def loHiPairWrite (off : Nat) (v : Word) (s : State) : State :=
  if (hiOf off).isSome || (loOf off).isSome then s.regWrite off v.toNat allOnes false else s

def execLoHiPairWrite (off : Nat) (v : Word) (s : State) : Host.Outcome State Fault Refusal := onLive s (loHiPairWrite off v)

/-- R385: a write to a shadowed field. -/
def shadowFieldWrite (off : Nat) (v : Word) (s : State) : State :=
  if isRws off then s.regWrite off v.toNat allOnes false else s

def execShadowFieldWrite (off : Nat) (v : Word) (s : State) : Host.Outcome State Fault Refusal :=
  onLive s (shadowFieldWrite off v)

/-- R354: a write to GLB.TILE_ID; over the Trail, once its REG_REPLY has been sent. -/
def tileIdWrite (v : Word) (trail : Bool) (s : State) : State :=
  if s.isHead then s
  else if trail then (if s.on F.GLB_BOOT_STAT_NOT_READY then s else s.adoptId (bits v.toNat 0 9))
  else s.regWrite 0x48 v.toNat allOnes false

def execTileIdWrite (v : Word) (trail : Bool) (s : State) : Host.Outcome State Fault Refusal :=
  onLive s (tileIdWrite v trail)

end Sys2Proof.Machine
end

