-- ==== Sys2Proof/Machine/Jtag.lean ====
section
/-! DEFINITION. The test access port (R378). -/

namespace Sys2Proof.Machine

/-- An instruction outside R378's list acts as BYPASS. -/
def tapEffective (i : TapInstr) : TapInstr := if i = .unlisted then .bypass else i

/-- IDCODE: 0x0812_84C7 with bits 31:28 set to DIE_REV mod 16. -/
def State.idcode (s : State) : Nat := 0x081284C7 + 2 ^ 28 * (s.fuses.dieRev.toNat % 16)

/-- R378: the port takes an instruction, whether or not the core's clocks run. -/
def execJtagInstruction (i : TapInstr) (s : State) : Host.Outcome State Fault Refusal :=
  .next ({ s with tap := tapEffective i } : State).noteHiz

end Sys2Proof.Machine
end

