-- ==== Sys2Proof/Machine/Launch.lean ====
section
/-! DEFINITION. Frames that leave on NET0 and NET1: the launch scheduler that paced flows and TX_SEND share (R141, R142, R158 -
R160). -/

namespace Sys2Proof.Machine

/-- The ports a TX_SEND selects. -/
def sendPorts (d : Desc) : List Nat := (if d.flag 10 0 then [0] else []) ++ (if d.flag 10 1 then [1] else [])

/-- Ports of a transmit flow (R141). -/
def flowPorts (o : Bytes) : List Nat := (if bit (numAt o 2 1) 0 then [0] else []) ++ (if bit (numAt o 2 1) 1 then [1] else [])

/-- The cycle until which a port is busy, its untimed frames, and setting them. -/
def State.busy (s : State) (p : Nat) : Nat := if p = 0 then s.net.busy0 else s.net.busy1
def State.setBusy (s : State) (p c : Nat) : State :=
  if p = 0 then { s with net := { s.net with busy0 := c } } else { s with net := { s.net with busy1 := c } }
def State.plainQ (s : State) (p : Nat) : List TimedTx := if p = 0 then s.net.plain0 else s.net.plain1
def State.setPlainQ (s : State) (p : Nat) (l : List TimedTx) : State :=
  if p = 0 then { s with net := { s.net with plain0 := l } } else { s with net := { s.net with plain1 := l } }

/-- CK_CORE cycles that a frame of `n` bytes takes on a port: with preamble, FCS and inter-packet gap 24 bytes more (PRESUMED from
Ethernet, log entry 185), at 100 or 200 Gbit/s. -/
def State.wireCycles (s : State) (p n : Nat) : Nat :=
  let gbps := if 4 ≤ s.netMode p then 100 else 200
  ceilDiv ((n + 24) * 8 * 103125) (64000 * gbps)

/-- The cycle of a timed frame's launch time, past or ahead (R158, R9). -/
def State.timedDue (s : State) (x : TimedTx) : Nat :=
  let d := timeDiff s.now24 x.launch.toNat
  if 0 ≤ d then s.core - (d * 2 ^ 16).toNat / s.addend else s.core + s.cyclesTo (576 * x.launch.toNat)

/-- Sample bytes of a confidence preview frame, and of one of its packets (R141). -/
def frameBytes (f : Fmt) : Nat := f.lineBytes * f.height
def packetBytes : Nat := max 1 Config.videoPayload

/-- A transmit flow may transmit: its head is single or active, or it is an OVERLAP = 1 flow in the overlap after a resignation
(R142, R279). -/
def State.mayTransmit (s : State) (o : Bytes) : Bool := s.authority || (bit (numAt o 2 1) 2 && s.pair.overlap.isSome)

/-- The confidence preview's operands where a flow sends it (R143). -/
def State.previewOn (s : State) (flow : Nat) : Option (Bytes × VideoTx) :=
  match Map.find s.net.pvw 0, s.net.vtx with
  | some p, some v => if s.pvwOn && numAt p 7 1 == flow && decide (v.next * packetBytes < frameBytes (pvwFmt p)) then some (p, v) else none
  | _, _ => none

/-- TRS, and the cycle at which packet `j` of a frame launches (R141). -/
def State.videoTrs (s : State) (p : Bytes) : Nat := Config.videoTrs s.rate (numAt p 2 2) (numAt p 4 2)
def State.videoDue (s : State) (p : Bytes) (v : VideoTx) : Nat :=
  v.start + Config.videoTro s.rate (numAt p 2 2) (numAt p 4 2) + v.next * s.videoTrs p

/-- The cycle of a sample's time, past or ahead (R259). -/
def State.sampleDue (s : State) (n : Nat) : Nat :=
  let lead := s.sampleLead n
  if lead < 0 then s.core - (-lead).toNat / (3 * s.addend) else s.core + s.cyclesToSample n

/-- The cycle at which a flow's next packet launches and its place among equal times, video before audio (R141, R158, R264). -/
def State.pacedDue (s : State) (flow : Nat) (o : Bytes) : Option (Nat × Nat) :=
  if !s.mayTransmit o then none
  else if numAt o 1 1 = 2 then
    if (Map.find s.aud.txaud flow).isSome && s.on F.AUD_STAT_RUNNING then
      some (s.sampleDue ((Map.getD s.aud.nextPkt flow 0 + 144) % 2 ^ 32), 1)
    else none
  else (s.previewOn flow).map (fun x => (s.videoDue x.1 x.2, 0))

/-- What is pending on a port: cycle, place among equals (paced video, paced audio, TX_SEND), and flow (R158). -/
def State.pendingOn (s : State) (p : Nat) : List (Nat × Nat × Nat) :=
  (s.net.txflows.filterMap (fun e => if (flowPorts e.2).contains p then (s.pacedDue e.1 e.2).map (fun k => (k.1, k.2, e.1)) else none)) ++
    (match s.timedQ p with
     | [] => []
     | x :: _ => [(s.timedDue x, 2, 0)])

/-- One pending launch comes before another. -/
def launchBefore (a b : Nat × Nat × Nat) : Bool :=
  decide (a.1 < b.1) || (a.1 == b.1 && (decide (a.2.1 < b.2.1) || (a.2.1 == b.2.1 && decide (a.2.2 < b.2.2))))

/-- A launch is its port's next (R158). -/
def State.launchesNext (s : State) (p : Nat) (k : Nat × Nat × Nat) : Bool := !(s.pendingOn p).any (fun x => launchBefore x k)

/-- Time goes on to a cycle and to the end of the frame a port is sending; a frame of `n` bytes starts then. -/
def State.startTx (s : State) (p cycle n : Nat) : State :=
  let s := s.advanceTo (max cycle (s.busy p))
  s.setBusy p (s.core + s.wireCycles p n)

/-- Untimed frames leave in order, none that would still be on the port at a pending launch (R158). -/
def State.sendPlain (s : State) (p : Nat) : Nat → State
  | 0 => s
  | fuel + 1 =>
    match s.plainQ p with
    | [] => s
    | x :: r =>
      let fin := max s.core (s.busy p) + s.wireCycles p x.bytes.length
      if (s.pendingOn p).any (fun k => decide (k.1 < fin)) then s
      else
        let s := (s.startTx p s.core x.bytes.length).setPlainQ p r
        let s := s.sendFrame p x.desc x.bytes (s.ballTime p) false
        let s := if (s.plainQ (1 - p)).any (fun y => y.desc == x.desc) then s else s.finish x.desc 0x44 stOk
        s.sendPlain p fuel

/-- Untimed frames that wait on a port are tried. -/
def State.tryPlain (s : State) (p : Nat) : State := s.sendPlain p (s.plainQ p).length

def txSend (d : Desc) (src : HostData) (s : State) : State :=
  let timed := d.flag 11 0; let one := d.flag 11 2
  let fields := [(0, 0, 64), (8, 0, 16), (10, 0, 2), (11, 0, 3), (12, 0, 32), (16, 0, 16)] ++ (if one then [(18, 0, 16)] else [])
  if !d.only fields || (one && !timed) || (d.flag 11 1 && d.flag 17 7) then s.finish d 0x44 stFormat
  else if timed && (sendPorts d).any (fun p => decide (128 ≤ (s.timedQ p).length)) then s
  else if !src.ok then s.finish d 0x44 stPcie
  else
    let bytes := (List.range (d.num 8 2)).map (byteAt src.bytes)
    let x : TimedTx := ⟨d, BitVec.ofNat 32 (d.num 12 4), bytes⟩
    if (sendPorts d).isEmpty then s.finish d 0x44 stOk
    else if !timed then
      (sendPorts d).foldl (fun s p => s.tryPlain p) ((sendPorts d).foldl (fun s p => s.setPlainQ p (s.plainQ p ++ [x])) (s.starts d))
    else if reached32 (d.num 12 4) s.ns then
      ((sendPorts d).foldl (fun s p =>
        let s := s.startTx p s.core bytes.length
        s.sendFrame p d bytes (s.ballTime p) true) s).finish d 0x44 stOk
    else (sendPorts d).foldl (fun s p => s.setTimedQ p (queueTimed (s.timedQ p) x)) (s.starts d)

/-- R158 - R162: TX_SEND. -/
def execTxSend (d : Desc) (src : HostData) (s : State) : Host.Outcome State Fault Refusal := onOp s d 0x44 .head (txSend d src)

/-- R158, R159: the first frame of a port's timed queue launches: when the counter reaches its time and the port is free, late where
that is more than one cycle after it; or it goes after what is pending before it. -/
def timedLaunch (p : Nat) (s : State) : State :=
  match s.timedQ p with
  | [] => s
  | x :: r =>
    if s.isTile || 1 < p || !s.launchesNext p (s.timedDue x, 2, 0) then s
    else
      let s := (s.startTx p (s.timedDue x) x.bytes.length).setTimedQ p r
      let late := decide ((s.addend : Int) < timeDiff s.now24 x.launch.toNat * 2 ^ 16)
      let s := s.sendFrame p x.desc x.bytes (if late then s.ballTime p else s.now24) late
      let s := if (s.timedQ (1 - p)).any (fun y => y.desc == x.desc) then s else s.finish x.desc 0x44 stOk
      s.tryPlain p

def execTimedLaunch (port : Nat) (s : State) : Host.Outcome State Fault Refusal := onLive s (timedLaunch port)

/-- A packet of a transmit flow on one of its ports (R141): the NET1 leg has its own destination. -/
def State.rtpOn (s : State) (flow p : Nat) (o : Bytes) (late : Bool) (seq ts : Nat) (l : List Int) (payload : Bytes) : RtpOut :=
  { flow := flow, port := p, time := s.ns, late := late
    srcMac := s.rd (F.NET_MAC_LO p) + 2 ^ 32 * s.rd (F.NET_MAC_HI p)
    dstMac := if p = 0 then numAt o 4 6 else numAt o 32 6
    vlan := if bit (numAt o 2 1) 3 then some (bits (numAt o 10 2) 0 12, bits (numAt o 10 2) 13 3) else none
    srcIp := s.rd (F.NET_IP_ADDR p), dstIp := if p = 0 then numAt o 12 4 else numAt o 28 4
    srcPort := numAt o 16 2, dstPort := numAt o 18 2, dscp := numAt o 24 1, ttl := numAt o 25 1
    pt := numAt o 3 1, ssrc := numAt o 20 4, seq := seq, ts := ts, samples := l, payload := payload }

/-- A packet leaves on its flow's ports, at a cycle or as soon as each is free; after `slack` cycles more it is late (R141). -/
def State.sendRtp (s : State) (flow : Nat) (o : Bytes) (due slack seq ts : Nat) (l : List Int) (payload : Bytes) : State :=
  (flowPorts o).foldl (fun s p =>
    let s := s.startTx p due (58 + 3 * l.length + payload.length)
    let late := decide (due + slack < s.core)
    let s := s.emit (.rtp (s.rtpOn flow p o late seq ts l payload))
    (if late then (s.inc (F.NET_TX_LATE p)).detect (E.NET_TX_LATE p) else s).tryPlain p) s

/-- CK_CORE cycles of `k` samples at 48 kHz. -/
def sampleCycles (k : Nat) : Nat := k * rootSec / 48000

/-- A flow's next audio packet (R264, R279): it launches 144 samples after its first; TRS is its packet time (log entry 187). -/
def State.audioPkt (s : State) (flow : Nat) (o : Bytes) : State :=
  match Map.find s.aud.txaud flow with
  | none => s
  | some v =>
    let k := packetSamples v; let n := Map.getD s.aud.nextPkt flow 0
    let due := s.sampleDue ((n + 144) % 2 ^ 32)
    let s := s.advanceTo due
    let s := if s.aud.playing then s.playUpTo s.samplesDue else s
    let l := (List.range k).flatMap (fun j => (List.range (v % 256)).map (fun c => s.capturedAt (64 * flow + c) ((n + j) % 2 ^ 32) (bit v 8)))
    let s := { s with aud := { s.aud with nextPkt := Map.put s.aud.nextPkt flow ((n + k) % 2 ^ 32) } }
    s.sendRtp flow o due (sampleCycles k) (n / k % 2 ^ 16) n l []

/-- Sample bytes of a packet of the confidence preview, out of its ring (R145). -/
def State.videoBytes (s : State) (p : Bytes) (v : VideoTx) : Bytes :=
  let f := pvwFmt p; let a := numAt p 8 8 + v.shown.toNat % 2 * ringFrame f; let lb := f.lineBytes
  let n := min packetBytes (frameBytes f - v.next * packetBytes)
  (List.range n).flatMap (fun i => let b := v.next * packetBytes + i; s.lmRead (a + b / lb * (ceilDiv lb 64 * 64) + b % lb) 1)

/-- The next packet of the confidence preview (R141, R143, R279): its timestamp is that of the frame whose preview is due. -/
def State.videoPkt (s : State) (flow : Nat) (o p : Bytes) (v : VideoTx) : State :=
  let k := ceilDiv (frameBytes (pvwFmt p)) packetBytes
  let t := { s with net := { s.net with vtx := some { v with next := v.next + 1 } } }
  t.sendRtp flow o (s.videoDue p v) (s.videoTrs p) ((v.frame.toNat * k + v.next) % 2 ^ 32)
    (Config.rtpStamp (v.frame - 1).toNat % 2 ^ 32) [] (s.videoBytes p v)

/-- R141, R142, R158: a packet of a transmit flow launches at its time, or at once and late; it goes after what is pending before it
on one of its ports. -/
def pacedLaunch (flow : Nat) (s : State) : State :=
  match Map.find s.net.txflows flow with
  | none => s
  | some o =>
    match s.pacedDue flow o with
    | none => s
    | some k =>
      if s.isTile || !(flowPorts o).all (fun p => s.launchesNext p (k.1, k.2, flow)) then s
      else if numAt o 1 1 = 2 then s.audioPkt flow o
      else
        match s.previewOn flow with
        | some x => s.videoPkt flow o x.1 x.2
        | none => s

def execPacedLaunch (flow : Nat) (s : State) : Host.Outcome State Fault Refusal := onLive s (pacedLaunch flow)

end Sys2Proof.Machine
end

