-- ==== Sys2Proof/Machine/Mailbox.lean ====
section
/-! DEFINITION. Tile mailboxes: the class-3 slots a tile takes, the tile opcodes of a head, and the messages that answer them
(R76 - R81, R386). -/

namespace Sys2Proof.Machine

/-- The reserved bits of a class-3 slot's header are 0 (R102). -/
def class3Head (b : Bytes) : Bool := slotSub b == 0 && bits (numAt b 2 2) 9 7 == 0 && zeroAt b 4 8

/-- A discarded class-3 slot (R61, R78). -/
def State.mbxBad (s : State) : State := s.inc F.HQS_MBX_BAD

/-- The tile acts on a slot with the expected SEQ (R79). -/
def State.nextExpect (s : State) (e : BitVec 16) : State := { s with trail := { s.trail with expect := some (e + 1) } }

/-- A class-3 slot reaches a tile (R79): one with the expected SEQ is acted on, a duplicate counted, a later one discarded. -/
def State.takeClass3 (s : State) (k kind : Nat) (b : Bytes) (f : Bytes → State → State) : State :=
  let q := slotBody b; let kd := numAt q 0 1; let seq := BitVec.ofNat 16 (numAt q 2 2)
  if !s.forMe b || (1 ≤ kd && kd ≤ 6 && kd != kind) then s
  else if !class3Head b then s.hdrBad k
  else
    match s.trail.expect with
    | none => s
    | some e =>
      let s := { s with trail := { s.trail with ackDue := true } }
      if seq = e then
        let s := (s.taken k).nextExpect e
        if kd != kind || numAt q 1 1 != 0 || !zeroAt q 4 4 then s.mbxBad else f q s
      else if later16 e.toNat seq.toNat then s.dup k
      else s

/-- A class-3 slot arrives on a port. -/
def onClass3 (port index kind : Nat) (slot : Bytes) (f : Bytes → State → State) (s : State) : Host.Outcome State Fault Refusal :=
  onLive s (onPort port (fun s => s.onCopy port index slot [3] (fun s => if s.isTile then s.takeClass3 port kind slot f else s)))

/-- Descriptors enter the mailbox ring (R78). -/
def State.ringWrite (s : State) (q : Bytes) (idx : Nat) : Nat → State
  | 0 => s
  | n + 1 =>
    (s.lmWrite (s.twin + 0x1000 + 64 * (idx % 1024)) (q.take 64)).ringWrite (q.drop 64) (idx + 1) n

/-- R78: MAILBOX. -/
def mailbox (q : Bytes) (s : State) : State :=
  let idx := numAt q 8 2; let n := numAt q 10 1
  if n < 1 || 3 < n || 1023 < idx || !zeroAt q 11 5 || !zeroAt q 208 32 then s.mbxBad
  else (s.ringWrite (q.drop 16) idx n).lmWrite s.twin (leBytes 4 ((idx + n) % 1024))

def execMailbox (port index : Nat) (slot : Bytes) (s : State) : Host.Outcome State Fault Refusal := onClass3 port index 1 slot mailbox s

/-- R78: REMOTE_WRITE. -/
def remoteWrite (q : Bytes) (s : State) : State :=
  let a := numAt q 8 8; let n := numAt q 16 2
  if n < 1 || 216 < n || !zeroAt q 18 6 || !lmOk a n then s.mbxBad else s.lmWrite a ((q.drop 24).take n)

def execRemoteWrite (port index : Nat) (slot : Bytes) (s : State) : Host.Outcome State Fault Refusal :=
  onClass3 port index 2 slot remoteWrite s

/-- The REG_REPLY of a request (R80). -/
def regReplyMsg (seq value status : Nat) : Bytes := retMsg 3 seq (leBytes 4 value ++ leBytes 2 status ++ zeros 2)

/-- R78: REG_READ. -/
def regRead (q : Bytes) (s : State) : State :=
  let off := numAt q 8 4; let seq := numAt q 2 2
  if !zeroAt q 12 228 then s.mbxBad
  else if off % 4 != 0 || (rowsAt off).isEmpty then s.pushMsg (regReplyMsg seq 0 stAddress)
  else
    let r := s.regRead off
    r.2.pushMsg (regReplyMsg seq r.1 stOk)

def execRegRead (port index : Nat) (slot : Bytes) (s : State) : Host.Outcome State Fault Refusal := onClass3 port index 3 slot regRead s

/-- R78, R386: REG_WRITE; the value field of its reply the spec leaves open. -/
def regWrite (q : Bytes) (s : State) : State :=
  let off := numAt q 8 4; let seq := numAt q 2 2
  if !zeroAt q 20 220 then s.mbxBad
  else if off % 4 != 0 || (rowsAt off).isEmpty then s.drawn.pushMsg (regReplyMsg seq (Config.freeNat s.free) stAddress)
  else
    let v := Config.freeNat s.free
    (s.drawn.regWrite off (numAt q 12 4) (numAt q 16 4) true).pushMsg (regReplyMsg seq v stOk)

def execRegWrite (port index : Nat) (slot : Bytes) (s : State) : Host.Outcome State Fault Refusal := onClass3 port index 4 slot regWrite s

/-- R78, R79: RESYNC: whatever SEQ was expected, the next is 1, and the mailbox indexes are 0; descriptors the tile has fetched and
not finished are dropped without a completion (DESIGN CHOICE, log entry 173). -/
def State.takeResync (s : State) (k : Nat) (b : Bytes) : State :=
  let q := slotBody b
  if !s.forMe b || numAt q 0 1 != 5 then s
  else if !class3Head b then s.hdrBad k
  else if numAt q 1 3 != 0 || !zeroAt q 4 236 then s.mbxBad
  else
    let s := { s.taken k with trail := { (s.taken k).trail with expect := some 1, ackDue := true, mbxHead := 0, mbxPost := 0, mbxFly := [] } }
    s.lmWrite s.twin (zeros 4)

def execResync (port index : Nat) (slot : Bytes) (s : State) : Host.Outcome State Fault Refusal :=
  onLive s (onPort port (fun s => s.onCopy port index slot [3] (fun s => if s.isTile then s.takeResync port slot else s)))

/-- The READ_DATA messages of a range (R78, R80). -/
def State.sendData (s : State) (a : Nat) (bs : Bytes) : Nat → State
  | 0 => s
  | n + 1 =>
    if bs.isEmpty then s
    else
      let p := bs.take 224
      let pad := zeros (ceilDiv p.length 4 * 4 - p.length)
      (s.pushReply (retMsg 5 0 (leBytes 8 a ++ leBytes 2 p.length ++ zeros 2 ++ p ++ pad))).sendData (a + p.length) (bs.drop 224) n

/-- R78: READ_REQ. -/
def readReq (q : Bytes) (s : State) : State :=
  let a := numAt q 8 8; let n := numAt q 16 4
  if n < 1 || 65536 < n || !zeroAt q 20 220 then s.mbxBad
  else if !lmOk a n then s.pushReply (retMsg 5 0 (leBytes 8 a ++ zeros 4))
  else s.sendData a (s.lmRead a n) 293

def execReadReq (port index : Nat) (slot : Bytes) (s : State) : Host.Outcome State Fault Refusal := onClass3 port index 6 slot readReq s

/-- A tile fetches one descriptor of its mailbox ring (R78); one that cannot be read completes with ECC (R82, R296). -/
def State.fetchMbx (s : State) : State :=
  let i := s.trail.mbxHead
  let r := parseDesc 0 true ((i + 1) % 1024) (s.lmRead (s.twin + 0x1000 + 64 * i) 64)
  let f : Flight := { sq := 0, sqHead := r.2.sqHead, op := r.1, flags := r.2.flags, tag := r.2.tag, ops := r.2.ops, cq := 0,
                      ranger := rangerOp r.1, started := true, done := none, at0 := s.core }
  let s := { s with trail := { s.trail with mbxHead := (i + 1) % 1024, mbxFly := s.trail.mbxFly ++ [f] } }
  if s.lmBadIn (s.twin + 0x1000 + 64 * i) 64 then (s.lmUncorr.detect E.HQS_DESC_ECC).finish r.2 r.1 stEcc
  else
  match s.dispatchStatus r.1 r.2 with
  | some st => s.finish r.2 r.1 st
  | none => s

/-- Descriptors up to the doorbell word's tail are fetched. -/
def State.fetchTo (s : State) (tail : Nat) : Nat → State
  | 0 => s
  | n + 1 => if s.trail.mbxHead = tail then s else s.fetchMbx.fetchTo tail n

/-- R78: a tile polls its mailbox doorbell word; the descriptors it fetches then execute by their own commands.  Bits 31:10 of the
word, which only a write past the rules sets, say nothing (DESIGN CHOICE, log entry 177). -/
def tileMailboxPoll (s : State) : State :=
  if s.isHead || s.on F.GLB_BOOT_STAT_NOT_READY then s
  else s.fetchTo (leNat (s.lmRead s.twin 4) % 1024) 1023

def execTileMailboxPoll (s : State) : Host.Outcome State Fault Refusal := onLive s tileMailboxPoll

/-- The SEQ that the next payload put on a link will take (R79). -/
def MbxLink.lastSeq (l : MbxLink) : BitVec 16 := l.seq + BitVec.ofNat 16 l.waiting.length

/-- The opcode of a descriptor in flight. -/
def State.opOf (s : State) (d : Desc) : Option Nat :=
  (s.hq.flights.find? (fun f => f.sq == d.sq && f.sqHead == d.sqHead && f.done.isNone)).map (·.op)

/-- A descriptor that is still in flight completes. -/
def State.finishIf (s : State) (d : Desc) (status : Nat) (result : Nat := 0) : State :=
  match s.opOf d with
  | some op => s.finish d op status result
  | none => s

/-- Everything outstanding at a tile completes with TILE_UNREACHABLE, and its link is emptied (R79). -/
def State.dropLink (s : State) (t : Nat) : State :=
  let l := s.link t
  let ds := l.out.map (·.2) ++ l.regs.map (·.2) ++ l.reads.map (·.1) ++ l.writes.map (·.2) ++ l.resync.toList
  let s := s.setLink t { MbxLink.fresh with unreachable := l.unreachable }
  ds.foldl (fun s d => s.finishIf d stUnreachable) s

/-- The RESYNC payload (R78, R79). -/
def resyncPayload : Bytes := 5 :: zeros 239

def mbxResync (d : Desc) (s : State) : State :=
  let t := d.num 0 2
  if !d.only [(0, 0, 16)] || 511 < t then s.finish d 0x30 stFormat
  else
    let s := (s.starts d).dropLink t
    let s := s.setLink t { s.link t with unacked := [(0, resyncPayload)], since := s.core, resync := some d }
    s.queueUni t resyncPayload

/-- R79: MBX_RESYNC; it completes when the tile acknowledges SEQ 0. -/
def execMbxResync (d : Desc) (s : State) : Host.Outcome State Fault Refusal := onOp s d 0x30 .head (mbxResync d)

/-- A tile opcode's shared checks: the tile ID, then whether the tile is reachable (R76, R79). -/
def onTile (d : Desc) (op : Nat) (f : Nat → MbxLink → State → State) (s : State) : State :=
  let t := d.num 0 2
  if 511 < t then s.finish d op stFormat
  else if (s.link t).unreachable then s.finish d op stUnreachable
  else f t (s.link t) (s.starts d)

/-- The payload of a register request (R78); bytes 2-3 take SEQ when it is sent. -/
def regPayload (kind off value mask : Nat) : Bytes :=
  leBytes 1 kind ++ zeros 7 ++ leBytes 4 off ++ leBytes 4 value ++ leBytes 4 mask ++ zeros 220

/-- A register request goes out and waits for its REG_REPLY (R80). -/
def State.askReg (s : State) (d : Desc) (t : Nat) (l : MbxLink) (p : Bytes) : State :=
  (s.setLink t { l with regs := l.regs ++ [(l.lastSeq, d)] }).linkSend t p

def tileRegRead (d : Desc) (s : State) : State :=
  if !d.only [(0, 0, 16), (4, 0, 32)] then s.finish d 0x31 stFormat
  else if d.num 4 4 % 4 != 0 then s.finish d 0x31 stAddress
  else onTile d 0x31 (fun t l s => s.askReg d t l (regPayload 3 (d.num 4 4) 0 0)) s

/-- R76: TILE_REG_READ; it completes with its REG_REPLY. -/
def execTileRegRead (d : Desc) (s : State) : Host.Outcome State Fault Refusal := onOp s d 0x31 .head (tileRegRead d)

def tileRegWrite (d : Desc) (s : State) : State :=
  if !d.only [(0, 0, 16), (4, 0, 32), (8, 0, 32), (12, 0, 32)] then s.finish d 0x32 stFormat
  else if d.num 4 4 % 4 != 0 then s.finish d 0x32 stAddress
  else onTile d 0x32 (fun t l s => s.askReg d t l (regPayload 4 (d.num 4 4) (d.num 8 4) (d.num 12 4))) s

/-- R76: TILE_REG_WRITE; it completes with its REG_REPLY. -/
def execTileRegWrite (d : Desc) (s : State) : Host.Outcome State Fault Refusal := onOp s d 0x32 .head (tileRegWrite d)

/-- The REMOTE_WRITE payloads of a range (R78). -/
def remotePayloads (a : Nat) (bs : Bytes) : Nat → List Bytes
  | 0 => []
  | n + 1 =>
    if bs.isEmpty then []
    else
      let p := bs.take 216
      (2 :: zeros 7 ++ leBytes 8 a ++ leBytes 2 p.length ++ zeros 6 ++ p ++ zeros (216 - p.length)) ::
        remotePayloads (a + p.length) (bs.drop 216) n

/-- The operand checks TILE_WRITE and TILE_READ share (R61, R72, R76). -/
def tileCopyStatus (d : Desc) (mx : Nat) : Option Nat :=
  if !d.only [(0, 0, 16), (8, 0, 64), (16, 0, 64), (24, 0, 32)] || d.num 24 4 < 1 || mx < d.num 24 4 then some stFormat
  else if !lmOk (d.num 8 8) (d.num 24 4) then some stAddress
  else none

def tileWrite (d : Desc) (src : HostData) (s : State) : State :=
  match tileCopyStatus d 1048576 with
  | some st => s.finish d 0x33 st
  | none =>
    onTile d 0x33 (fun t l s =>
      if !src.ok then s.finish d 0x33 stPcie
      else
        let n := d.num 24 4
        let ps := remotePayloads (d.num 8 8) ((List.range n).map (byteAt src.bytes)) n
        let last := l.lastSeq + BitVec.ofNat 16 (ps.length - 1)
        (s.setLink t { l with waiting := l.waiting ++ ps, writes := l.writes ++ [(last, d)] }).pumpLink t) s

/-- R76: TILE_WRITE; it completes when the tile has acknowledged its last slot. -/
def execTileWrite (d : Desc) (src : HostData) (s : State) : Host.Outcome State Fault Refusal :=
  onOp s d 0x33 .head (tileWrite d src)

def tileRead (d : Desc) (s : State) : State :=
  match tileCopyStatus d 65536 with
  | some st => s.finish d 0x34 st
  | none =>
    onTile d 0x34 (fun t l s =>
      let p := 6 :: zeros 7 ++ leBytes 8 (d.num 8 8) ++ leBytes 4 (d.num 24 4) ++ zeros 220
      (s.setLink t { l with reads := l.reads ++ [(d, d.num 8 8, d.num 24 4)] }).linkSend t p) s

/-- R76: TILE_READ; it completes when every byte has arrived. -/
def execTileRead (d : Desc) (s : State) : Host.Outcome State Fault Refusal := onOp s d 0x34 .head (tileRead d)

/-- R79: a tile's MBX_ACK retires the slots before its next expected SEQ; the RESYNC, SEQ 0, is acknowledged by 1 alone. -/
def mbxAck (m : RetMsg) (s : State) : State :=
  let t := m.tile; let nxt := numAt m.body 2 2
  let l := s.link t
  let gone := fun q : BitVec 16 => if l.resync.isSome then nxt == 1 else later16 nxt q.toNat
  let left := l.unacked.filter (fun u => !gone u.1)
  if left.length = l.unacked.length then s
  else
    let done := l.writes.filter (fun w => gone w.1)
    let synced := if left.isEmpty then l.resync else none
    let l := { l with
      unacked := left, since := s.core, retx := 0, writes := l.writes.filter (fun w => !gone w.1)
      resync := if left.isEmpty then none else l.resync
      unreachable := l.unreachable && synced.isNone }
    let s := s.setLink t l
    let s := (done.map (·.2) ++ synced.toList).foldl (fun s d => s.finishIf d stOk) s
    s.pumpLink t

def execMbxAck (m : RetMsg) (s : State) : Host.Outcome State Fault Refusal := onRet m 1 (mbxAck m) s

/-- R79: RETX Trail cycles without the ACK advancing: the unacknowledged slots go out again, or the tile is unreachable. -/
def mbxRetransmit (t : Nat) (s : State) : State :=
  let l := s.link t
  if l.unacked.isEmpty then s
  else
    let s := s.advanceTo (l.since + s.rd F.HQS_MBX_CFG_RETX * trailCycle)
    if s.rd F.HQS_MBX_CFG_RETRIES ≤ l.retx then
      ((s.setLink t { l with unreachable := true }).dropLink t).detect E.HQS_TILE_UNREACHABLE
    else
      let s := s.setLink t { l with retx := l.retx + 1, since := s.core }
      l.unacked.foldl (fun s u => s.queueUni t u.2) s

def execMbxRetransmit (tile : Nat) (s : State) : Host.Outcome State Fault Refusal := onLive s (mbxRetransmit tile)

/-- R76: a tile's completion is posted to the CQ of its mailbox queue with FROM_TILE set and SQ_HEAD translated; QUIET
descriptors before it in the ring have completed. -/
def completion (m : RetMsg) (s : State) : State :=
  let e := m.body.drop 4
  let l := s.link m.tile
  match l.out.find? (fun x => (x.1 + 1) % 1024 == numAt e 20 2) with
  | none => s
  | some x =>
    let before := (l.out.takeWhile (fun y => y.1 != x.1)).filter (fun y => y.2.quiet)
    let s := s.setLink m.tile { l with out := l.out.filter (fun y => y.1 != x.1 && !before.contains y) }
    let s := before.foldl (fun s y => s.finishIf y.2 stOk) s
    match s.opOf x.2 with
    | none => s
    | some op =>
      let r : Done := { status := numAt e 26 2 % 4096, result := BitVec.ofNat 64 (numAt e 12 8),
                        frame := BitVec.ofNat 32 (numAt e 8 4), time := BitVec.ofNat 32 (numAt e 4 4), fromTile := some m.tile }
      settleDeletes s.hq.deleting { s with hq := { s.hq with flights := markDone s.hq.flights x.2 op (s.cqOf x.2.sq) r } }

def execCompletion (m : RetMsg) (s : State) : Host.Outcome State Fault Refusal := onRet m 2 (completion m) s

/-- R80: a REG_REPLY completes the register opcode it answers. -/
def regReply (m : RetMsg) (s : State) : State :=
  let l := s.link m.tile
  match l.regs.find? (fun x => x.1.toNat == numAt m.body 2 2) with
  | none => s
  | some x =>
    let s := s.setLink m.tile { l with regs := l.regs.erase x }
    s.finishIf x.2 (numAt m.body 8 2 % 4096) (if s.opOf x.2 = some 0x31 then numAt m.body 4 4 else 0)

def execRegReply (m : RetMsg) (s : State) : Host.Outcome State Fault Refusal := onRet m 3 (regReply m) s

/-- R81: a tile's EVENT is posted to the event queue, or dropped; one whose queue is halted is dropped as for a full one (DESIGN
CHOICE, log entry 172). -/
def event (m : RetMsg) (ok : Bool) (s : State) : State :=
  let e := fun phase => cplBytes 0 (BitVec.ofNat 32 (numAt m.body 12 4)) (BitVec.ofNat 32 (numAt m.body 16 4))
    (BitVec.ofNat 64 (numAt m.body 4 4 + 2 ^ 32 * numAt m.body 8 1)) 0 0 0 true (some m.tile) 0 phase
  let cq := s.rd F.HQS_EVT_CQ_CQ
  if !s.on F.HQS_EVT_CQ_EN || (s.cq cq).isNone then s.inc F.HQS_EVT_DROP
  else
    match s.postsTo cq with
    | some c => if ok then s.postEntry cq c e else s.haltCq cq c
    | none => (s.inc F.HQS_EVT_DROP).detect E.HQS_EVT_OVERFLOW

def execEvent (m : RetMsg) (ok : Bool) (s : State) : Host.Outcome State Fault Refusal := onRet m 4 (event m ok) s

/-- R76: READ_DATA goes to host memory for its TILE_READ. -/
def readData (m : RetMsg) (ok : Bool) (s : State) : State :=
  let l := s.link m.tile; let a := numAt m.body 4 8; let n := numAt m.body 12 2
  match l.reads.find? (fun x => x.2.1 == a) with
  | none => s
  | some x =>
    let rest := l.reads.erase x
    if n = 0 then (s.setLink m.tile { l with reads := rest }).finishIf x.1 stAddress
    else if !ok then (s.setLink m.tile { l with reads := rest }).finishIf x.1 stPcie
    else
      let s := s.emit (.hostWrite (x.1.num 16 8 + (a - x.1.num 8 8)) ((m.body.drop 16).take n))
      if x.2.2 ≤ n then (s.setLink m.tile { l with reads := rest }).finishIf x.1 stOk
      else s.setLink m.tile { l with reads := rest ++ [(x.1, a + n, x.2.2 - n)] }

def execReadData (m : RetMsg) (ok : Bool) (s : State) : Host.Outcome State Fault Refusal := onRet m 5 (readData m ok) s

end Sys2Proof.Machine
end

