-- ==== Sys2Proof/Machine/Power.lean ====
section
/-! DEFINITION. Reset, straps and start-up (R300, R345 - R350). -/

namespace Sys2Proof.Machine

/-- Held in reset: every register and volatile table at its reset value; the Seedbank, the fuses and VDD_AUX's flags
stay (R347), and so do the model's own fields. -/
def State.heldIn (s : State) (ph : PowerPhase) (last : Nat) : State :=
  let t := State.released s.power.straps s.fuses s.power.shutFlag last s.power.pcie s.sdb s.seed
  { t with pending := s.pending, out := s.out, free := s.free, power := { t.power with phase := ph } }

/-- R346: PORn falls. -/
def execPornAssert (s : State) : Host.Outcome State Fault Refusal := .next (s.heldIn .porn s.power.lastReset)

/-- Are the straps one of the illegal settings (R348)? -/
def strapsBad (b : StrapBalls) : Bool := (b.side1 && b.side0) || (b.boot1 && b.boot0) || (b.boot1 && !b.boot0 && !b.role)

/-- The state at a release, with the straps sampled (R348, R349 step 1, R300, R317). -/
def State.releaseWith (s : State) (straps : StrapBalls) (flag : Bool) (last : Nat) (supply : Bool) : State :=
  let t := State.released straps s.fuses flag last s.power.pcie s.sdb s.seed
  let t := { t with pending := s.pending, out := s.out, free := s.free }
  let t := t.wr F.SUP_LAST_RESET last
  let t := t.detectIf (strapsBad straps) E.GLB_STRAP_BAD
  let t := t.detectIf supply E.SUP_SUPPLY_RESET
  if flag then
    let t := (t.wr F.THM_STAT_SHUTDOWN 1).wr F.THM_STAT_SD_PRIOR 1
    { t with care := { t.care with shut := true } }.detect E.THM_SHUTDOWN
  else t

/-- R348: PORn rises; a device released with TEST_MODE high is outside the manual. -/
def execPornRelease (straps : StrapBalls) (s : State) : Host.Outcome State Fault Refusal :=
  if straps.test then .refused .testMode
  else if s.power.phase = .porn then .next (s.releaseWith straps s.power.shutFlag s.power.lastReset false)
  else .next s

/-- R346: PERST# resets the PCIe link and configuration space. -/
def execPerst (s : State) : Host.Outcome State Fault Refusal :=
  .next { s with hq := { s.hq with msixTab := [], msixPend := [] } }

/-- R300: a rail crosses its reset level. -/
def execSupplyReset (rail : Nat) (s : State) : Host.Outcome State Fault Refusal :=
  .next (if s.monitored rail && s.power.phase != .porn then s.heldIn .supply (1 + 16 * rail) else s)

/-- R300: the release after a supply reset. -/
def execSupplyResetRelease (auxKept : Bool) (straps : StrapBalls) (s : State) : Host.Outcome State Fault Refusal :=
  if straps.test then .refused .testMode
  else if s.power.phase = .supply then
    .next (s.releaseWith straps (s.power.shutFlag && auxKept) (if auxKept then s.power.lastReset else 0) auxKept)
  else .next s

end Sys2Proof.Machine
end

