-- ==== Sys2Proof/Machine/Reply.lean ====
section
/-! DEFINITION. What a tile takes from class-4 broadcasts, and what it inserts into empty slots (R104 - R106, R114, R115, R120,
R341, R354, R386). -/

namespace Sys2Proof.Machine

/-- The first missing BSEQ of a broadcast and the count of consecutive missing slots (R105). -/
def Bcast.gap (b : Bcast) : Option (Nat × Nat) :=
  let have0 := fun i => (Map.find b.slots i).isSome
  match (List.range b.total).find? (fun i => !have0 i) with
  | none => none
  | some i => some (i, ((List.range (b.total - i)).takeWhile (fun j => !have0 (i + j))).length)

/-- BCAST_GAP becomes pending (R105, R115). -/
def State.askGap (s : State) (stream : Nat) (b : Bcast) : State :=
  match b.gap with
  | none => s
  | some (i, n) =>
    let m := retMsg 8 b.bid.toNat (leBytes 1 stream ++ zeros 3 ++ leBytes 4 i ++ leBytes 4 n)
    { s with trail := { s.trail with pendGap := some m } }.detect E.GLB_BCAST_GAP

/-- Content lengths of a STREAM (R106). -/
def lengthFits (stream n : Nat) : Bool :=
  match stream with
  | 1 => n == 34816
  | 2 => decide (8 ≤ n) && decide (n ≤ 16777216)
  | 3 => decide (16 ≤ n)
  | _ => n == 0

/-- The content of a complete STREAM 1, 2, 3 or 5 broadcast, if its header and CRC are good (R106). -/
def bcastContent (stream bid total : Nat) (bs : Bytes) : Option Bytes :=
  let n := numAt bs 4 4; let id := numAt bs 2 2
  let c := (bs.drop 32).take n
  if numAt bs 0 1 == stream && numAt bs 1 1 == 0 && zeroAt bs 12 20 && id == (if stream = 3 then 0 else bid) &&
      decide (32 + n ≤ total * 240) && lengthFits stream n && numAt bs 8 4 == (crc32c c).toNat &&
      (stream != 3 || (decide (numAt c 0 1 < 64) && decide (numAt c 1 1 < 2) && zeroAt c 2 14 && (numAt c 1 1 == 0 || n == 16)))
  then some c else none

/-- An abort reaches the tile (R106): its staging of the commit is discarded. -/
def State.bcastAbort (s : State) (bid : BitVec 16) : State :=
  let s := match s.stp.prepIn with
    | some (i, _) => if i = bid then { s with stp := { s.stp with prepIn := none } } else s
    | none => s
  match s.stp.staged with
  | some t => if t.id = bid then s.unstage else s
  | none => s

/-- A complete broadcast acts (R106). -/
def State.bcastAct (s : State) (k stream : Nat) (b : Bcast) : State :=
  let bs := (List.range b.total).flatMap (fun i => (Map.find b.slots i).getD [])
  match bcastContent stream b.bid.toNat b.total bs with
  | none =>
    let s := s.hdrBad k
    if stream = 1 || stream = 2 then s.replyCommit b.bid 4 else s
  | some c =>
    match stream with
    | 1 => { s with stp := { s.stp with layerIn := some (b.bid, c) } }
    | 2 => { s with stp := { s.stp with prepIn := some (b.bid, c) } }
    | 3 => s.bcastOverlay c
    | _ => s.bcastAbort b.bid

/-- Set the record of a STREAM. -/
def State.setBcast (s : State) (stream : Nat) (b : Bcast) : State :=
  { s with trail := { s.trail with bcasts := Map.put s.trail.bcasts stream b } }

/-- A slot of a broadcast is held (R104, R105, R106, R341). -/
def State.holdBcast (s : State) (k stream bseq : Nat) (b : Bcast) (payload : Bytes) : State :=
  let b := { b with slots := Map.put b.slots bseq payload, last := s.core }
  let s := (s.taken k).setBcast stream b
  let s := if stream = 4 then s.stageSlot b bseq payload else s
  if b.slots.length = b.total then
    let s := s.setBcast stream { b with opened := false, slots := [] }
    if stream = 4 then s else s.bcastAct k stream b
  else if (Map.find b.slots (b.total - 1)).isSome && bseq + 1 = b.total then s.askGap stream b
  else s

/-- A tile whose inactive slot serves a trial takes nothing of a STREAM 4 broadcast, and counts it once (R341). -/
def State.skipBcast (s : State) (bid : Nat) : State :=
  if s.seed.skipped = some bid then s
  else { (s.inc F.SDB_BCAST_SKIP) with seed := { s.seed with skipped := some bid } }

/-- A pending request for slots of a broadcast that a later one closes ends (R104). -/
def State.dropGap (s : State) (stream : Nat) (bid : BitVec 16) : State :=
  if s.trail.pendGap.any (fun m => numAt m 2 2 == bid.toNat && numAt m 4 1 == stream) then
    { s with trail := { s.trail with pendGap := none } }
  else s

/-- A class-4 slot reaches a tile (R104).  A slot of the open broadcast whose BTOTAL differs from its first slot's is discarded and
counted in HDR_BAD (DESIGN CHOICE, log entry 158). -/
def State.takeBcast (s : State) (k : Nat) (slot : Bytes) : State :=
  let stream := slotSub slot; let bid := BitVec.ofNat 16 (numAt slot 2 2); let bseq := numAt slot 4 4; let total := numAt slot 8 4
  let fresh : Bcast := ⟨bid, total, [], s.core, true⟩
  if stream < 1 || 5 < stream || total ≤ bseq then s.hdrBad k
  else
    match Map.find s.trail.bcasts stream with
    | none =>
      if stream = 4 && s.trialBusy then s.skipBcast bid.toNat else s.holdBcast k stream bseq fresh (slotBody slot)
    | some b =>
      if bid = b.bid then
        if !b.opened || (Map.find b.slots bseq).isSome then s.dup k
        else if b.total != total then s.hdrBad k
        else s.holdBcast k stream bseq b (slotBody slot)
      else if later16 bid.toNat b.bid.toNat then
        let s := s.dropGap stream b.bid
        (if stream = 4 && s.trialBusy then s.skipBcast bid.toNat else s.holdBcast k stream bseq fresh (slotBody slot))
      else s.dup k

/-- R104: a class-4 slot. -/
def execBroadcastSlot (port index : Nat) (slot : Bytes) (s : State) : Host.Outcome State Fault Refusal :=
  onLive s (onPort port (fun s => s.onCopy port index slot [4] (fun s => if s.isTile then s.takeBcast port slot else s)))

/-- R105: 4 Trail cycles have passed without a new slot of an open broadcast. -/
def bcastGapTimer (stream : Nat) (s : State) : State :=
  match Map.find s.trail.bcasts stream with
  | none => s
  | some b =>
    if s.isHead || !b.opened then s
    else
      let s := s.advanceTo (b.last + 4 * trailCycle)
      (s.setBcast stream { b with last := s.core }).askGap stream b

def execBcastGapTimer (stream : Nat) (s : State) : Host.Outcome State Fault Refusal := onLive s (bcastGapTimer stream)

/-- Built slots are released when no port owes them any more (R114). -/
def State.pruneBuilt (s : State) : State :=
  let ps := s.returnPorts
  let l := s.trail.built.map (fun r => { r with owed := r.owed.filter (fun k => ps.contains k) })
  { s with trail := { s.trail with built := l.filter (fun r => !r.owed.isEmpty) } }

/-- Messages that fit a payload, in order, and those that stay. -/
def packMsgs (ms : List Bytes) (used : Bytes) : Bytes × List Bytes :=
  match ms with
  | [] => (used, [])
  | m :: ms' => if used.length + m.length ≤ payloadRoom then packMsgs ms' (used ++ m) else (used, m :: ms')

/-- Paused COMPLETION and READ_DATA messages are produced once fewer than 64 slots wait (R115). -/
def State.resumeReplies (s : State) : Nat → State
  | 0 => s
  | n + 1 =>
    match s.trail.paused with
    | [] => s
    | m :: ms =>
      if 64 ≤ s.retWaiting then s
      else ({ s with trail := { s.trail with paused := ms } }.pushMsg m).resumeReplies n

/-- A return slot is built, if anything waits for one; a preview only while no class-5 slot waits (R115). -/
def State.buildReturn (s : State) : State :=
  if 64 ≤ s.trail.built.length then s
  else if !s.pends.isEmpty || !s.trail.msgs.isEmpty then
    let p := packMsgs s.trail.msgs (s.pends.flatMap id)
    let r : RetSlot := ⟨s.trail.rseqNext, 5, 0, pad240 p.1, s.returnPorts⟩
    { s with trail := { s.trail with
        built := s.trail.built ++ [r], rseqNext := s.trail.rseqNext + 1, msgs := p.2
        pendReply := none, pendAck := none, pendGap := none, pendLock := none } }.resumeReplies s.trail.paused.length
  else
    match s.trail.previews with
    | [] => s
    | v :: vs =>
      if s.trail.built.any (fun r => r.cls == 5) then s
      else
      let r : RetSlot := ⟨s.trail.rseqNext, 7, v.1, pad240 v.2, s.returnPorts⟩
      { s with trail := { s.trail with built := s.trail.built ++ [r], rseqNext := s.trail.rseqNext + 1, previews := vs } }

/-- KINDs of the messages in a class-5 payload hold a REG_REPLY. -/
def holdsReply (fuel : Nat) (p : Bytes) : Bool :=
  match fuel with
  | 0 => false
  | fuel + 1 =>
    if numAt p 0 1 = 0 || numAt p 1 1 = 0 then false
    else numAt p 0 1 == 3 || holdsReply fuel (p.drop (numAt p 1 1))

/-- The writes that waited for their REG_REPLY act once no reply waits any more (R354, R386). -/
def State.settleReplies (s : State) : State :=
  if s.trail.afterReply.isEmpty || s.trail.msgs.any (fun m => numAt m 0 1 == 3) ||
      s.trail.built.any (fun r => r.cls == 5 && holdsReply 60 r.payload) then s
  else s.afterReply

/-- A built slot goes into the empty slot (R114). -/
def State.insertReturn (s : State) (k i : Nat) : State :=
  let s := s.pruneBuilt
  let s := if s.trail.built.any (fun r => r.owed.contains k) then s else s.buildReturn
  match s.trail.built.find? (fun r => r.owed.contains k) with
  | none => s
  | some r =>
    let key := tileKey (s.rd F.GLB_TILE_ID_ID) (leBytes 2 r.rseq.toNat ++ [r.frameLo])
    let s := s.emit (.slot k i r.cls 0 key r.payload)
    let l := s.trail.built.map (fun x => if x.rseq = r.rseq then { x with owed := x.owed.filter (fun j => j != k) } else x)
    let s := { s with trail := { s.trail with built := l.filter (fun x => !x.owed.isEmpty) } }
    (s.resumeReplies s.trail.paused.length).settleReplies

/-- The echo RSP that waits for this port goes into the empty slot (R120). -/
def State.insertRsp (s : State) (k i : Nat) (w : EchoRspWait) : State :=
  let body := leBytes 4 w.launch ++ leBytes 4 (s.core - w.since) ++ leBytes 2 w.feeder
  { s with trail := { s.trail with rsps := s.trail.rsps.erase w } }.emit
    (.slot k i 6 2 (tileKey (s.rd F.GLB_TILE_ID_ID) (leBytes 2 w.eseq)) (pad240 body))

/-- The slot goes out empty where the tile forwards (R112). -/
def State.leaveEmpty (s : State) (k i : Nat) : State := if s.forwards then s.emit (.relay k i (0xF0 :: zeros 255)) else s

/-- An empty slot arrives at a tile, for the transmitter of port k, which must be sending slot cycles (R94, R112, R114, R120,
R352). -/
def emptySlotArrive (k i : Nat) (s : State) : State :=
  if s.isHead || !s.portActive k || s.on (F.TRL_STAT_LINK_CYCLES k) || i = 0 || 1023 < i then s
  else if !s.on F.GLB_TILE_ID_VALID then s.leaveEmpty k i
  else
    match s.trail.rsps.find? (fun w => w.port == k) with
    | some w => s.insertRsp k i w
    | none =>
      if (s.port k).feed.headFed && s.maskBit i && s.owes k then s.insertReturn k i else s.leaveEmpty k i

/-- R114: EMPTY_SLOT_ARRIVE. -/
def execEmptySlotArrive (port : Nat) (index : Nat) (s : State) : Host.Outcome State Fault Refusal :=
  onLive s (onPort port (emptySlotArrive port index))

end Sys2Proof.Machine
end

