-- ==== Sys2Proof/Machine/Dispatch.lean ====
section
/-! DEFINITION. The effect of one command: one arm for each row of the operation table. -/

namespace Sys2Proof.Machine

def exec (i : Instr) (s : State) : Host.Outcome State Fault Refusal :=
  match i with
  | .pornAssert => Sys2Proof.Machine.execPornAssert s
  | .pornRelease straps => Sys2Proof.Machine.execPornRelease straps s
  | .perst => Sys2Proof.Machine.execPerst s
  | .rootLock => Sys2Proof.Machine.execRootLock s
  | .bootLoad => Sys2Proof.Machine.execBootLoad s
  | .rangerRunning => Sys2Proof.Machine.execRangerRunning s
  | .refLoss => Sys2Proof.Machine.execRefLoss s
  | .fbclkLoss => Sys2Proof.Machine.execFbclkLoss s
  | .holdoverExpiry => Sys2Proof.Machine.execHoldoverExpiry s
  | .slewComplete => Sys2Proof.Machine.execSlewComplete s
  | .rootUnlock => Sys2Proof.Machine.execRootUnlock s
  | .frameBoundary => Sys2Proof.Machine.execFrameBoundary s
  | .fixFrameStart => Sys2Proof.Machine.execFixFrameStart s
  | .frameLatch => Sys2Proof.Machine.execFrameLatch s
  | .subframeBoundary => Sys2Proof.Machine.execSubframeBoundary s
  | .scriptRunEnd group pads bri => Sys2Proof.Machine.execScriptRunEnd group pads bri s
  | .frmCfgWrite v => Sys2Proof.Machine.execFrmCfgWrite v s
  | .frmRun => Sys2Proof.Machine.execFrmRun s
  | .frmStop => Sys2Proof.Machine.execFrmStop s
  | .frmReseed => Sys2Proof.Machine.execFrmReseed s
  | .stepDispatch entry => Sys2Proof.Machine.execStepDispatch entry s
  | .bandJudgment band => Sys2Proof.Machine.execBandJudgment band s
  | .bandComposed band => Sys2Proof.Machine.execBandComposed band s
  | .passComplete => Sys2Proof.Machine.execPassComplete s
  | .bandAbandon band => Sys2Proof.Machine.execBandAbandon band s
  | .bankRetire => Sys2Proof.Machine.execBankRetire s
  | .gladeVerdict glade => Sys2Proof.Machine.execGladeVerdict glade s
  | .substitutionDone glade => Sys2Proof.Machine.execSubstitutionDone glade s
  | .gladeRelease v => Sys2Proof.Machine.execGladeRelease v s
  | .standLoad d => Sys2Proof.Machine.execStandLoad d s
  | .standUnload d => Sys2Proof.Machine.execStandUnload d s
  | .overlayLoad d => Sys2Proof.Machine.execOverlayLoad d s
  | .overlayUnload d => Sys2Proof.Machine.execOverlayUnload d s
  | .shadowStand d => Sys2Proof.Machine.execShadowStand d s
  | .shadowOverlays d => Sys2Proof.Machine.execShadowOverlays d s
  | .shadowLayer d => Sys2Proof.Machine.execShadowLayer d s
  | .shadowBuffer d => Sys2Proof.Machine.execShadowBuffer d s
  | .shadowTables d => Sys2Proof.Machine.execShadowTables d s
  | .shadowGlade d => Sys2Proof.Machine.execShadowGlade d s
  | .shadowPattern d => Sys2Proof.Machine.execShadowPattern d s
  | .shadowDimmer d => Sys2Proof.Machine.execShadowDimmer d s
  | .shadowRevert d => Sys2Proof.Machine.execShadowRevert d s
  | .commit d => Sys2Proof.Machine.execCommit d s
  | .commitPrepare => Sys2Proof.Machine.execCommitPrepare s
  | .commitValidate => Sys2Proof.Machine.execCommitValidate s
  | .cutoff => Sys2Proof.Machine.execCutoff s
  | .localCommitDecide => Sys2Proof.Machine.execLocalCommitDecide s
  | .commitCancel d => Sys2Proof.Machine.execCommitCancel d s
  | .excludeSet d => Sys2Proof.Machine.execExcludeSet d s
  | .commitStatus d => Sys2Proof.Machine.execCommitStatus d s
  | .doorbellPoll words => Sys2Proof.Machine.execDoorbellPoll words s
  | .descriptorFetch data => Sys2Proof.Machine.execDescriptorFetch data s
  | .completionPost cq headWord ok => Sys2Proof.Machine.execCompletionPost cq headWord ok s
  | .headWordRead cq word => Sys2Proof.Machine.execHeadWordRead cq word s
  | .acqHeadWrite v => Sys2Proof.Machine.execAcqHeadWrite v s
  | .coalesceTimer cq => Sys2Proof.Machine.execCoalesceTimer cq s
  | .hqsEnable v => Sys2Proof.Machine.execHqsEnable v s
  | .adminQueueSetup off v => Sys2Proof.Machine.execAdminQueueSetup off v s
  | .bar4Access off write len => Sys2Proof.Machine.execBar4Access off write len s
  | .nop d => Sys2Proof.Machine.execNop d s
  | .sqCreate d => Sys2Proof.Machine.execSqCreate d s
  | .sqDelete d => Sys2Proof.Machine.execSqDelete d s
  | .cqCreate d => Sys2Proof.Machine.execCqCreate d s
  | .cqDelete d => Sys2Proof.Machine.execCqDelete d s
  | .queueQuery d => Sys2Proof.Machine.execQueueQuery d s
  | .mbxResync d => Sys2Proof.Machine.execMbxResync d s
  | .tileRegRead d => Sys2Proof.Machine.execTileRegRead d s
  | .tileRegWrite d => Sys2Proof.Machine.execTileRegWrite d s
  | .tileWrite d src => Sys2Proof.Machine.execTileWrite d src s
  | .tileRead d => Sys2Proof.Machine.execTileRead d s
  | .localWrite d src => Sys2Proof.Machine.execLocalWrite d src s
  | .localRead d ok => Sys2Proof.Machine.execLocalRead d ok s
  | .mailbox port index slot => Sys2Proof.Machine.execMailbox port index slot s
  | .remoteWrite port index slot => Sys2Proof.Machine.execRemoteWrite port index slot s
  | .regRead port index slot => Sys2Proof.Machine.execRegRead port index slot s
  | .regWrite port index slot => Sys2Proof.Machine.execRegWrite port index slot s
  | .resync port index slot => Sys2Proof.Machine.execResync port index slot s
  | .readReq port index slot => Sys2Proof.Machine.execReadReq port index slot s
  | .tileMailboxPoll => Sys2Proof.Machine.execTileMailboxPoll s
  | .mbxAck m => Sys2Proof.Machine.execMbxAck m s
  | .mbxRetransmit tile => Sys2Proof.Machine.execMbxRetransmit tile s
  | .completion m => Sys2Proof.Machine.execCompletion m s
  | .regReply m => Sys2Proof.Machine.execRegReply m s
  | .event m ok => Sys2Proof.Machine.execEvent m ok s
  | .readData m ok => Sys2Proof.Machine.execReadData m ok s
  | .trlEnable port => Sys2Proof.Machine.execTrlEnable port s
  | .trlDisable port => Sys2Proof.Machine.execTrlDisable port s
  | .detectSense port sensed => Sys2Proof.Machine.execDetectSense port sensed s
  | .trainEnd port inverted prbsErrors => Sys2Proof.Machine.execTrainEnd port inverted prbsErrors s
  | .prbsDetect port => Sys2Proof.Machine.execPrbsDetect port s
  | .blockLock port rx => Sys2Proof.Machine.execBlockLock port rx s
  | .deskewDone port round1 round2 rx => Sys2Proof.Machine.execDeskewDone port round1 round2 rx s
  | .lockTimeout port rx => Sys2Proof.Machine.execLockTimeout port rx s
  | .deskewTimeout port rx => Sys2Proof.Machine.execDeskewTimeout port rx s
  | .capTimeout port rx => Sys2Proof.Machine.execCapTimeout port rx s
  | .capabilityAccept port copy1 copy2 rx => Sys2Proof.Machine.execCapabilityAccept port copy1 copy2 rx s
  | .portActive port => Sys2Proof.Machine.execPortActive port s
  | .signalLoss port => Sys2Proof.Machine.execSignalLoss port s
  | .lockLoss port rx => Sys2Proof.Machine.execLockLoss port rx s
  | .deskewLoss port round1 round2 rx => Sys2Proof.Machine.execDeskewLoss port round1 round2 rx s
  | .hiBer port => Sys2Proof.Machine.execHiBer port s
  | .retrain port => Sys2Proof.Machine.execRetrain port s
  | .peerSleep port => Sys2Proof.Machine.execPeerSleep port s
  | .dormantEnter port => Sys2Proof.Machine.execDormantEnter port s
  | .dormantClear port => Sys2Proof.Machine.execDormantClear port s
  | .wakeDetect port => Sys2Proof.Machine.execWakeDetect port s
  | .wakeRelock port => Sys2Proof.Machine.execWakeRelock port s
  | .trailCycleStart port => Sys2Proof.Machine.execTrailCycleStart port s
  | .chunkDrop port => Sys2Proof.Machine.execChunkDrop port s
  | .markerReceive port slot rx => Sys2Proof.Machine.execMarkerReceive port slot rx s
  | .markerMissing port rx => Sys2Proof.Machine.execMarkerMissing port rx s
  | .chunkReceive port index slot => Sys2Proof.Machine.execChunkReceive port index slot s
  | .broadcastSlot port index slot => Sys2Proof.Machine.execBroadcastSlot port index slot s
  | .bcastGapTimer stream => Sys2Proof.Machine.execBcastGapTimer stream s
  | .bcastGap m => Sys2Proof.Machine.execBcastGap m s
  | .commitReply m => Sys2Proof.Machine.execCommitReply m s
  | .lockReport m => Sys2Proof.Machine.execLockReport m s
  | .emptySlotArrive port index => Sys2Proof.Machine.execEmptySlotArrive port index s
  | .echoReq port index slot => Sys2Proof.Machine.execEchoReq port index slot s
  | .echoRsp port index slot => Sys2Proof.Machine.execEchoRsp port index slot s
  | .echoTimeout port eseq => Sys2Proof.Machine.execEchoTimeout port eseq s
  | .echoStale => Sys2Proof.Machine.execEchoStale s
  | .previewReturn port index slot => Sys2Proof.Machine.execPreviewReturn port index slot s
  | .epochAdvance => Sys2Proof.Machine.execEpochAdvance s
  | .rosterTimeout port tile => Sys2Proof.Machine.execRosterTimeout port tile s
  | .netFrameReceive f => Sys2Proof.Machine.execNetFrameReceive f s
  | .hostFetchComplete source gen1 image gen2 => Sys2Proof.Machine.execHostFetchComplete source gen1 image gen2 s
  | .referenceRelease ok => Sys2Proof.Machine.execReferenceRelease ok s
  | .sacnSourceTimeout universeIndex cid => Sys2Proof.Machine.execSacnSourceTimeout universeIndex cid s
  | .sacnCommit => Sys2Proof.Machine.execSacnCommit s
  | .sacnHeldWrite => Sys2Proof.Machine.execSacnHeldWrite s
  | .sacnCueCommit => Sys2Proof.Machine.execSacnCueCommit s
  | .netLinkDown port => Sys2Proof.Machine.execNetLinkDown port s
  | .netModeWrite port v => Sys2Proof.Machine.execNetModeWrite port v s
  | .pacedLaunch flow => Sys2Proof.Machine.execPacedLaunch flow s
  | .timedLaunch port => Sys2Proof.Machine.execTimedLaunch port s
  | .flowSet d => Sys2Proof.Machine.execFlowSet d s
  | .flowClear d => Sys2Proof.Machine.execFlowClear d s
  | .sourceSet d => Sys2Proof.Machine.execSourceSet d s
  | .rxPost d => Sys2Proof.Machine.execRxPost d s
  | .txSend d src => Sys2Proof.Machine.execTxSend d src s
  | .flowStats d ok => Sys2Proof.Machine.execFlowStats d ok s
  | .sacnMap d => Sys2Proof.Machine.execSacnMap d s
  | .sacnCue d => Sys2Proof.Machine.execSacnCue d s
  | .previewSet d => Sys2Proof.Machine.execPreviewSet d s
  | .txflowSet d => Sys2Proof.Machine.execTxflowSet d s
  | .timeNsRead => Sys2Proof.Machine.execTimeNsRead s
  | .timeSet => Sys2Proof.Machine.execTimeSet s
  | .rangerOffsetFeed offset measTime => Sys2Proof.Machine.execRangerOffsetFeed offset measTime s
  | .servoFeed d => Sys2Proof.Machine.execServoFeed d s
  | .servoHoldover => Sys2Proof.Machine.execServoHoldover s
  | .timeStep d => Sys2Proof.Machine.execTimeStep d s
  | .timeRead d => Sys2Proof.Machine.execTimeRead d s
  | .tsFetch d ok => Sys2Proof.Machine.execTsFetch d ok s
  | .geometryCheck d => Sys2Proof.Machine.execGeometryCheck d s
  | .canopyStats d ok => Sys2Proof.Machine.execCanopyStats d ok s
  | .tableWrite d src src2 => Sys2Proof.Machine.execTableWrite d src src2 s
  | .tablePatch d src => Sys2Proof.Machine.execTablePatch d src s
  | .patchApply => Sys2Proof.Machine.execPatchApply s
  | .tableVerify d => Sys2Proof.Machine.execTableVerify d s
  | .censusRun d => Sys2Proof.Machine.execCensusRun d s
  | .branchStats d ok => Sys2Proof.Machine.execBranchStats d ok s
  | .holdSet d => Sys2Proof.Machine.execHoldSet d s
  | .nightEntry => Sys2Proof.Machine.execNightEntry s
  | .fsyncEdge rising => Sys2Proof.Machine.execFsyncEdge rising s
  | .fsyncLost => Sys2Proof.Machine.execFsyncLost s
  | .fsyncZeroPulse => Sys2Proof.Machine.execFsyncZeroPulse s
  | .standaloneExit => Sys2Proof.Machine.execStandaloneExit s
  | .audioRun => Sys2Proof.Machine.execAudioRun s
  | .audioBlockBoundary captured => Sys2Proof.Machine.execAudioBlockBoundary captured s
  | .fbStartPulse => Sys2Proof.Machine.execFbStartPulse s
  | .fbsLost => Sys2Proof.Machine.execFbsLost s
  | .asrcUnlock port rx => Sys2Proof.Machine.execAsrcUnlock port rx s
  | .asrcLock port rx offset => Sys2Proof.Machine.execAsrcLock port rx offset s
  | .silentChangeApply channel => Sys2Proof.Machine.execSilentChangeApply channel s
  | .zcTimeout channel => Sys2Proof.Machine.execZcTimeout channel s
  | .portSet d => Sys2Proof.Machine.execPortSet d s
  | .streamSet d => Sys2Proof.Machine.execStreamSet d s
  | .routeSet d => Sys2Proof.Machine.execRouteSet d s
  | .captureSet d => Sys2Proof.Machine.execCaptureSet d s
  | .txaudSet d => Sys2Proof.Machine.execTxaudSet d s
  | .groupSet d => Sys2Proof.Machine.execGroupSet d s
  | .claim => Sys2Proof.Machine.execClaim s
  | .takeoverDecision => Sys2Proof.Machine.execTakeoverDecision s
  | .resign => Sys2Proof.Machine.execResign s
  | .healthUpdate => Sys2Proof.Machine.execHealthUpdate s
  | .arbSelect => Sys2Proof.Machine.execArbSelect s
  | .arbDeselect => Sys2Proof.Machine.execArbDeselect s
  | .fbSerFrame frame => Sys2Proof.Machine.execFbSerFrame frame s
  | .serLost => Sys2Proof.Machine.execSerLost s
  | .overlapTimeout => Sys2Proof.Machine.execOverlapTimeout s
  | .healthReport ok => Sys2Proof.Machine.execHealthReport ok s
  | .patrolTest netsEqual uncorr => Sys2Proof.Machine.execPatrolTest netsEqual uncorr s
  | .handover d => Sys2Proof.Machine.execHandover d s
  | .pairStatus d => Sys2Proof.Machine.execPairStatus d s
  | .digestReset d => Sys2Proof.Machine.execDigestReset d s
  | .faultEvent block source => Sys2Proof.Machine.execFaultEvent block source s
  | .blockReset block => Sys2Proof.Machine.execBlockReset block s
  | .quiesceEnd block => Sys2Proof.Machine.execQuiesceEnd block s
  | .resetLimitEnd => Sys2Proof.Machine.execResetLimitEnd s
  | .blkReactWrite block v => Sys2Proof.Machine.execBlkReactWrite block v s
  | .lmcScrub addr read => Sys2Proof.Machine.execLmcScrub addr read s
  | .supplyDip rail => Sys2Proof.Machine.execSupplyDip rail s
  | .dipRecovery => Sys2Proof.Machine.execDipRecovery s
  | .supplyReset rail => Sys2Proof.Machine.execSupplyReset rail s
  | .supplyResetRelease auxKept straps => Sys2Proof.Machine.execSupplyResetRelease auxKept straps s
  | .wdgKick => Sys2Proof.Machine.execWdgKick s
  | .preExpire => Sys2Proof.Machine.execPreExpire s
  | .expired => Sys2Proof.Machine.execExpired s
  | .busy cls => Sys2Proof.Machine.execBusy cls s
  | .faultSnapshot d ok => Sys2Proof.Machine.execFaultSnapshot d ok s
  | .rangerRestart d => Sys2Proof.Machine.execRangerRestart d s
  | .thermalSample readings => Sys2Proof.Machine.execThermalSample readings s
  | .peakReset => Sys2Proof.Machine.execPeakReset s
  | .trimApply => Sys2Proof.Machine.execTrimApply s
  | .trimChange => Sys2Proof.Machine.execTrimChange s
  | .trimSave d ok => Sys2Proof.Machine.execTrimSave d ok s
  | .trimRestore d src => Sys2Proof.Machine.execTrimRestore d src s
  | .memBist d results ok => Sys2Proof.Machine.execMemBist d results ok s
  | .imageWrite d src => Sys2Proof.Machine.execImageWrite d src s
  | .imageActivate d => Sys2Proof.Machine.execImageActivate d s
  | .imageConfirm d => Sys2Proof.Machine.execImageConfirm d s
  | .imageRevert d => Sys2Proof.Machine.execImageRevert d s
  | .migrationReport d ok => Sys2Proof.Machine.execMigrationReport d ok s
  | .imageBroadcast d src => Sys2Proof.Machine.execImageBroadcast d src s
  | .sdbQuery d => Sys2Proof.Machine.execSdbQuery d s
  | .trialWindowExpiry => Sys2Proof.Machine.execTrialWindowExpiry s
  | .seedbankScrub offset read => Sys2Proof.Machine.execSeedbankScrub offset read s
  | .tileIdWrite v trail => Sys2Proof.Machine.execTileIdWrite v trail s
  | .loHiPairWrite off v => Sys2Proof.Machine.execLoHiPairWrite off v s
  | .shadowFieldWrite off v => Sys2Proof.Machine.execShadowFieldWrite off v s
  | .registerWrite off v be => Sys2Proof.Machine.execRegisterWrite off v be s
  | .jtagInstruction code => Sys2Proof.Machine.execJtagInstruction code s
  | .netLinkUp port speed anDone => Sys2Proof.Machine.execNetLinkUp port speed anDone s
  | .fbclkPresent => Sys2Proof.Machine.execFbclkPresent s
  | .fbActInRise => Sys2Proof.Machine.execFbActInRise s
  | .freeRunFrameStart => Sys2Proof.Machine.execFreeRunFrameStart s

end Sys2Proof.Machine
end

