-- ==== Sys2Proof/Machine/Step.lean ====
section
/-! DEFINITION. One step of the block: the command at the front of the queue, or one idle CK_CORE cycle. -/

namespace Sys2Proof.Machine

/-- The state with the command a table word spells put at the front of its queue (log entry 5): the table spells none. -/
def State.withFetchWord (s : State) (nbits w : Nat) : State :=
  match Sys2Proof.decodeTableWord nbits w with
  | some c => { s with pending := c :: s.pending }
  | none => s

/-- One step: the front command on the state with the queue's rest; on an empty queue one CK_CORE cycle passes where the
clocks run (log entry 4). -/
def step (s : State) : Host.Outcome State Fault Refusal :=
  match s.pending with
  | [] => .next (idle s)
  | c :: rest => exec c { s with pending := rest }

end Sys2Proof.Machine
end

