-- ==== Sys2Proof/Safety.lean ====
section
/-! DEFINITION. The words the statements use: when a descriptor comes to its own effect, what every step keeps, and which
commands leave the byte stores alone. -/

namespace Sys2Proof.Machine

/-- The clocks run and no thermal shutdown has stopped the engines (R20, R316). -/
def State.runs (s : State) : Bool := s.live && !s.care.shut

/-- A descriptor comes to its opcode's own effect: the clocks run (R20), none of the judgements that every opcode shares turns
it away (R67, R76, R80, R351), and it waits neither for Ranger (R303) nor for an earlier descriptor (R53, R67, R68). -/
def State.accepts (s : State) (d : Desc) (op : Nat) (role : OpRole) : Bool :=
  s.live && (s.judge d op role).isNone && !s.waitsRanger op && !s.held d op

/-- What every step keeps: both byte stores in canonical form, and a device that was not released into factory test. -/
def State.inv (s : State) : Bool := Store.wf s.lm && Store.wf s.sdb && !s.power.straps.test

/-- The sticky bit of a source (R290). -/
def State.sticky (s : State) (e : Nat × Nat) : Bool := bit (s.rd (F.BLK_STICKY e.1)) e.2

/-- The pending bit of a source (R290). -/
def State.irqPends (s : State) (e : Nat × Nat) : Bool := bit (s.rd (F.BLK_IRQ_PEND e.1)) e.2

/-- The state with a source's sticky bit set, and noted as risen in this CK_SYS cycle (R7, R290). -/
def State.stuck (s : State) (b i : Nat) : State := s.raise (F.BLK_STICKY b) i

/-- The state with a source's pending bit set, and noted as risen in this CK_SYS cycle (R7, R290). -/
def State.pended (s : State) (b i : Nat) : State := s.raise (F.BLK_IRQ_PEND b) i

/-- Everything PORn low and a supply reset return to reset, and what they keep (R347): the answer's fields against the state
before. -/
def State.wipedFrom (t s : State) : Prop :=
  t.regs = [] ∧ t.react = [] ∧ t.quiesce = [] ∧ t.limitFrom = none ∧ t.lm = [] ∧ t.ptp = 0 ∧ t.stp = .fresh ∧ t.hq = .fresh ∧
    t.trail = .fresh ∧ t.net = .fresh ∧ t.aud = .fresh ∧ t.trm = .fresh ∧ t.brn = .fresh ∧ t.power.clocks = false ∧
    t.sdb = s.sdb ∧ t.fuses = s.fuses ∧ t.power.shutFlag = s.power.shutFlag

/-- A return message that a head takes for the first time, well formed and of its KIND (R102, R103, R115). -/
def State.takes (s : State) (m : RetMsg) (kind : Nat) : Bool :=
  s.live && (s.retSlot m).takesRet m && (s.retSlot m).freshRet m && m.msg == some (true, m.body) && numAt m.body 0 1 == kind

/-- A message noted as taken, its tile heard, and its slot counted once (R115, R355). -/
def State.noted (s : State) (m : RetMsg) : State :=
  if m.idx = 0 then ((s.takeRet m).hear m.port m.tile).taken m.port else (s.takeRet m).hear m.port m.tile

/-- A copy of a broadcast request that has been taken already, from a good slot (R105, R115). -/
def State.again (s : State) (m : RetMsg) : Bool :=
  s.takesRet m && !s.freshRet m && m.msg == some (true, m.body) && numAt m.body 0 1 == 8

/-- The request was served before, and not on the port of this copy (R105). -/
def State.asked (s : State) (m : RetMsg) : Bool :=
  let x := 64 * m.rseq.toNat + m.idx
  s.trail.gaps.any (fun g => g.2.1 == m.tile && g.2.2 == x) && !s.trail.gaps.contains (m.port, m.tile, x)

/-- A duplicate is counted with its slot's first message, and keeps its tile on the roster (R115, R355). -/
def State.heard (s : State) (m : RetMsg) : State := (if m.idx = 0 then s.inc (F.GLB_SLOT_DUP m.port) else s).hear m.port m.tile

/-- A broadcast request is noted as served on its port; notes more than 64 slots old go (R105, R115). -/
def State.served (s : State) (m : RetMsg) : State :=
  { s with
    trail := { s.trail with
      gaps := (m.port, m.tile, 64 * m.rseq.toNat + m.idx) ::
        s.trail.gaps.filter (fun g => g.2.1 != m.tile || decide ((m.rseq.toNat + 65536 - g.2.2 / 64) % 65536 ≤ 64)) } }

/-- The head after the arrival of a fresh message: its slot judged (R102), the message noted. -/
def State.arrived (s : State) (m : RetMsg) : State := (s.retSlot m).noted m

/-- A good copy of a payload slot of a class arrives on an Active port (R102, R104). -/
def State.receives (s : State) (k : Nat) (b : Bytes) (cls : Nat) : Bool :=
  s.live && !s.care.shut && decide (k < s.portCount) && s.portActive k && !slotEmpty b && slotFormed b && slotCrcOk b &&
    slotClass b == cls

/-- A good class-3 slot of a KIND with the expected SEQ arrives at the tile it names, once it has gone on out of the other port
(R78, R79, R112). -/
def State.takesSlot (s : State) (k i : Nat) (b : Bytes) (kind : Nat) : Bool :=
  s.receives k b 3 && class3Head b && (s.pass k i b).forMe b &&
    (s.pass k i b).trail.expect == some (BitVec.ofNat 16 (numAt (slotBody b) 2 2)) && numAt (slotBody b) 0 1 == kind &&
    numAt (slotBody b) 1 1 == 0 && zeroAt (slotBody b) 4 4

/-- The tile after the arrival of such a slot: an acknowledgement is due, the slot is counted and the next SEQ expected. -/
def State.tookSlot (s : State) (k i : Nat) (b : Bytes) : State :=
  let s := s.pass k i b
  ({ s with trail := { s.trail with ackDue := true } }.taken k).nextExpect (BitVec.ofNat 16 (numAt (slotBody b) 2 2))

/-- The commands that write neither Local Memory nor the Seedbank, in any state. -/
def storesNothing : Instr → Bool
  | .perst | .rootLock | .refLoss | .fbclkLoss | .holdoverExpiry | .slewComplete | .rootUnlock | .fixFrameStart
  | .frmCfgWrite _ | .frmRun | .frmStop | .frmReseed | .stepDispatch _ | .bandJudgment _ | .bandAbandon _
  | .bankRetire | .gladeVerdict _ | .gladeRelease _ | .commitValidate | .doorbellPoll _ | .completionPost _ _ _
  | .headWordRead _ _ | .acqHeadWrite _ | .coalesceTimer _ | .hqsEnable _ | .adminQueueSetup _ _ | .regRead _ _ _
  | .regWrite _ _ _ | .readReq _ _ _ | .event _ _ | .trlEnable _ | .trlDisable _ | .detectSense _ _ | .trainEnd _ _ _
  | .prbsDetect _ | .blockLock _ _ | .deskewDone _ _ _ _ | .lockTimeout _ _ | .deskewTimeout _ _ | .capTimeout _ _
  | .capabilityAccept _ _ _ _ | .portActive _ | .signalLoss _ | .lockLoss _ _ | .deskewLoss _ _ _ _ | .hiBer _
  | .retrain _ | .peerSleep _ | .dormantEnter _ | .dormantClear _ | .wakeDetect _ | .wakeRelock _
  | .markerMissing _ _ | .chunkReceive _ _ _ | .bcastGapTimer _ | .bcastGap _ | .lockReport _ | .emptySlotArrive _ _
  | .echoReq _ _ _ | .echoRsp _ _ _ | .echoTimeout _ _ | .echoStale | .epochAdvance | .rosterTimeout _ _
  | .referenceRelease _ | .sacnSourceTimeout _ _ | .sacnCommit | .sacnHeldWrite | .sacnCueCommit | .netLinkDown _
  | .netModeWrite _ _ | .timeNsRead | .timeSet | .rangerOffsetFeed _ _ | .servoHoldover | .fsyncZeroPulse
  | .standaloneExit | .audioRun | .fbStartPulse | .fbsLost | .claim | .resign | .healthUpdate | .arbSelect
  | .arbDeselect | .serLost | .overlapTimeout | .healthReport _ | .patrolTest _ _ | .faultEvent _ _ | .blockReset _
  | .quiesceEnd _ | .resetLimitEnd | .blkReactWrite _ _ | .lmcScrub _ _ | .supplyDip _ | .wdgKick | .preExpire
  | .busy _ | .thermalSample _ | .peakReset | .trimApply | .seedbankScrub _ _ | .tileIdWrite _ _ | .loHiPairWrite _ _
  | .shadowFieldWrite _ _ | .registerWrite _ _ _ | .jtagInstruction _ | .netLinkUp _ _ _ | .fbclkPresent
  | .fbActInRise => true
  | .pornAssert | .pornRelease _ | .bootLoad | .rangerRunning | .frameBoundary | .frameLatch | .subframeBoundary
  | .scriptRunEnd _ _ _ | .bandComposed _ | .passComplete | .substitutionDone _ | .standLoad _ | .standUnload _
  | .overlayLoad _ | .overlayUnload _ | .shadowStand _ | .shadowOverlays _ | .shadowLayer _ | .shadowBuffer _
  | .shadowTables _ | .shadowGlade _ | .shadowPattern _ | .shadowDimmer _ | .shadowRevert _ | .commit _
  | .commitPrepare | .cutoff | .localCommitDecide | .commitCancel _ | .excludeSet _ | .commitStatus _
  | .descriptorFetch _ | .bar4Access _ _ _ | .nop _ | .sqCreate _ | .sqDelete _ | .cqCreate _ | .cqDelete _
  | .queueQuery _ | .mbxResync _ | .tileRegRead _ | .tileRegWrite _ | .tileWrite _ _ | .tileRead _ | .localWrite _ _
  | .localRead _ _ | .mailbox _ _ _ | .remoteWrite _ _ _ | .resync _ _ _ | .tileMailboxPoll | .mbxAck _
  | .mbxRetransmit _ | .completion _ | .regReply _ | .readData _ _ | .trailCycleStart _ | .chunkDrop _
  | .markerReceive _ _ _ | .broadcastSlot _ _ _ | .commitReply _ | .previewReturn _ _ _ | .netFrameReceive _
  | .hostFetchComplete _ _ _ _ | .pacedLaunch _ | .timedLaunch _ | .flowSet _ | .flowClear _ | .sourceSet _
  | .rxPost _ | .txSend _ _ | .flowStats _ _ | .sacnMap _ | .sacnCue _ | .previewSet _ | .txflowSet _ | .servoFeed _
  | .timeStep _ | .timeRead _ | .tsFetch _ _ | .geometryCheck _ | .canopyStats _ _ | .tableWrite _ _ _
  | .tablePatch _ _ | .patchApply | .tableVerify _ | .censusRun _ | .branchStats _ _ | .holdSet _ | .nightEntry
  | .fsyncEdge _ | .fsyncLost | .audioBlockBoundary _ | .asrcUnlock _ _ | .asrcLock _ _ _ | .silentChangeApply _
  | .zcTimeout _ | .portSet _ | .streamSet _ | .routeSet _ | .captureSet _ | .txaudSet _ | .groupSet _
  | .takeoverDecision | .fbSerFrame _ | .handover _ | .pairStatus _ | .digestReset _ | .dipRecovery | .supplyReset _
  | .supplyResetRelease _ _ | .expired | .faultSnapshot _ _ | .rangerRestart _ | .trimChange | .trimSave _ _
  | .trimRestore _ _ | .memBist _ _ _ | .imageWrite _ _ | .imageActivate _ | .imageConfirm _ | .imageRevert _
  | .migrationReport _ _ | .imageBroadcast _ _ | .sdbQuery _ | .trialWindowExpiry | .freeRunFrameStart => false

/-- The commands that never write the Seedbank (R330, R347): all but those of the boot engine, the firmware slots and the
boot record. -/
def keepsSeedbank : Instr → Bool
  | .pornAssert | .pornRelease _ | .perst | .rootLock | .refLoss | .fbclkLoss | .holdoverExpiry | .slewComplete
  | .rootUnlock | .frameBoundary | .fixFrameStart | .frameLatch | .subframeBoundary | .scriptRunEnd _ _ _
  | .frmCfgWrite _ | .frmRun | .frmStop | .frmReseed | .stepDispatch _ | .bandJudgment _ | .bandComposed _
  | .passComplete | .bandAbandon _ | .bankRetire | .gladeVerdict _ | .substitutionDone _ | .gladeRelease _
  | .standLoad _ | .standUnload _ | .overlayLoad _ | .overlayUnload _ | .shadowStand _ | .shadowOverlays _
  | .shadowLayer _ | .shadowBuffer _ | .shadowTables _ | .shadowGlade _ | .shadowPattern _ | .shadowDimmer _
  | .shadowRevert _ | .commit _ | .commitPrepare | .commitValidate | .cutoff | .localCommitDecide | .commitCancel _
  | .excludeSet _ | .commitStatus _ | .doorbellPoll _ | .descriptorFetch _ | .completionPost _ _ _
  | .headWordRead _ _ | .acqHeadWrite _ | .coalesceTimer _ | .hqsEnable _ | .adminQueueSetup _ _ | .bar4Access _ _ _
  | .nop _ | .sqCreate _ | .sqDelete _ | .cqCreate _ | .cqDelete _ | .queueQuery _ | .mbxResync _ | .tileRegRead _
  | .tileRegWrite _ | .tileWrite _ _ | .tileRead _ | .localWrite _ _ | .localRead _ _ | .mailbox _ _ _
  | .remoteWrite _ _ _ | .regRead _ _ _ | .regWrite _ _ _ | .resync _ _ _ | .readReq _ _ _ | .tileMailboxPoll
  | .mbxAck _ | .mbxRetransmit _ | .completion _ | .regReply _ | .event _ _ | .readData _ _ | .trlEnable _
  | .trlDisable _ | .detectSense _ _ | .trainEnd _ _ _ | .prbsDetect _ | .blockLock _ _ | .deskewDone _ _ _ _
  | .lockTimeout _ _ | .deskewTimeout _ _ | .capTimeout _ _ | .capabilityAccept _ _ _ _ | .portActive _
  | .signalLoss _ | .lockLoss _ _ | .deskewLoss _ _ _ _ | .hiBer _ | .retrain _ | .peerSleep _ | .dormantEnter _
  | .dormantClear _ | .wakeDetect _ | .wakeRelock _ | .trailCycleStart _ | .chunkDrop _ | .markerReceive _ _ _
  | .markerMissing _ _ | .chunkReceive _ _ _ | .bcastGapTimer _ | .bcastGap _ | .commitReply _ | .lockReport _
  | .emptySlotArrive _ _ | .echoReq _ _ _ | .echoRsp _ _ _ | .echoTimeout _ _ | .echoStale | .previewReturn _ _ _
  | .epochAdvance | .rosterTimeout _ _ | .netFrameReceive _ | .hostFetchComplete _ _ _ _ | .referenceRelease _
  | .sacnSourceTimeout _ _ | .sacnCommit | .sacnHeldWrite | .sacnCueCommit | .netLinkDown _ | .netModeWrite _ _
  | .pacedLaunch _ | .timedLaunch _ | .flowSet _ | .flowClear _ | .sourceSet _ | .rxPost _ | .txSend _ _
  | .flowStats _ _ | .sacnMap _ | .sacnCue _ | .previewSet _ | .txflowSet _ | .timeNsRead | .timeSet
  | .rangerOffsetFeed _ _ | .servoFeed _ | .servoHoldover | .timeStep _ | .timeRead _ | .tsFetch _ _
  | .geometryCheck _ | .canopyStats _ _ | .tableWrite _ _ _ | .tablePatch _ _ | .patchApply | .tableVerify _
  | .censusRun _ | .branchStats _ _ | .holdSet _ | .nightEntry | .fsyncEdge _ | .fsyncLost | .fsyncZeroPulse
  | .standaloneExit | .audioRun | .audioBlockBoundary _ | .fbStartPulse | .fbsLost | .asrcUnlock _ _
  | .asrcLock _ _ _ | .silentChangeApply _ | .zcTimeout _ | .portSet _ | .streamSet _ | .routeSet _ | .captureSet _
  | .txaudSet _ | .groupSet _ | .claim | .takeoverDecision | .resign | .healthUpdate | .arbSelect | .arbDeselect
  | .fbSerFrame _ | .serLost | .overlapTimeout | .healthReport _ | .patrolTest _ _ | .handover _ | .pairStatus _
  | .digestReset _ | .faultEvent _ _ | .blockReset _ | .quiesceEnd _ | .resetLimitEnd | .blkReactWrite _ _
  | .lmcScrub _ _ | .supplyDip _ | .supplyReset _ | .supplyResetRelease _ _ | .wdgKick | .preExpire | .busy _
  | .faultSnapshot _ _ | .rangerRestart _ | .thermalSample _ | .peakReset | .trimApply | .trimChange | .trimSave _ _
  | .trimRestore _ _ | .memBist _ _ _ | .migrationReport _ _ | .imageBroadcast _ _ | .sdbQuery _ | .seedbankScrub _ _
  | .tileIdWrite _ _ | .loHiPairWrite _ _ | .shadowFieldWrite _ _ | .registerWrite _ _ _ | .jtagInstruction _
  | .netLinkUp _ _ _ | .fbclkPresent | .fbActInRise | .freeRunFrameStart => true
  | .bootLoad | .rangerRunning | .broadcastSlot _ _ _ | .dipRecovery | .expired | .imageWrite _ _ | .imageActivate _
  | .imageConfirm _ | .imageRevert _ | .trialWindowExpiry => false

/-- A command that is a descriptor: the descriptor, its opcode and the roles that have it (R58, R75, R76 and the tables of
opcodes that end each chapter). -/
def descriptorOf : Instr → Option (Desc × Nat × OpRole)
  | .standLoad d => some (d, 0x10, .both)
  | .standUnload d => some (d, 0x11, .both)
  | .overlayLoad d => some (d, 0x12, .both)
  | .overlayUnload d => some (d, 0x13, .both)
  | .shadowStand d => some (d, 0x14, .both)
  | .shadowOverlays d => some (d, 0x15, .both)
  | .shadowLayer d => some (d, 0x16, .both)
  | .shadowBuffer d => some (d, 0x17, .both)
  | .shadowTables d => some (d, 0x18, .both)
  | .shadowGlade d => some (d, 0x19, .both)
  | .shadowPattern d => some (d, 0x1A, .both)
  | .shadowDimmer d => some (d, 0x1B, .both)
  | .shadowRevert d => some (d, 0x1C, .both)
  | .commit d => some (d, 0x20, .both)
  | .commitCancel d => some (d, 0x21, .both)
  | .excludeSet d => some (d, 0x22, .head)
  | .commitStatus d => some (d, 0x23, .both)
  | .nop d => some (d, 0x00, .both)
  | .sqCreate d => some (d, 0x01, .both)
  | .sqDelete d => some (d, 0x02, .both)
  | .cqCreate d => some (d, 0x03, .both)
  | .cqDelete d => some (d, 0x04, .both)
  | .queueQuery d => some (d, 0x05, .both)
  | .mbxResync d => some (d, 0x30, .head)
  | .tileRegRead d => some (d, 0x31, .head)
  | .tileRegWrite d => some (d, 0x32, .head)
  | .tileWrite d _ => some (d, 0x33, .head)
  | .tileRead d => some (d, 0x34, .head)
  | .localWrite d _ => some (d, 0x35, .both)
  | .localRead d _ => some (d, 0x36, .both)
  | .flowSet d => some (d, 0x40, .head)
  | .flowClear d => some (d, 0x41, .head)
  | .sourceSet d => some (d, 0x42, .head)
  | .rxPost d => some (d, 0x43, .head)
  | .txSend d _ => some (d, 0x44, .head)
  | .flowStats d _ => some (d, 0x45, .head)
  | .sacnMap d => some (d, 0x46, .head)
  | .sacnCue d => some (d, 0x47, .head)
  | .previewSet d => some (d, 0x48, .both)
  | .txflowSet d => some (d, 0x49, .head)
  | .servoFeed d => some (d, 0x50, .head)
  | .timeStep d => some (d, 0x51, .head)
  | .timeRead d => some (d, 0x52, .both)
  | .tsFetch d _ => some (d, 0x53, .head)
  | .geometryCheck d => some (d, 0x60, .tile)
  | .canopyStats d _ => some (d, 0x61, .both)
  | .tableWrite d _ _ => some (d, 0x70, .tile)
  | .tablePatch d _ => some (d, 0x71, .tile)
  | .tableVerify d => some (d, 0x72, .tile)
  | .censusRun d => some (d, 0x80, .tile)
  | .branchStats d _ => some (d, 0x81, .tile)
  | .holdSet d => some (d, 0x88, .tile)
  | .portSet d => some (d, 0x90, .head)
  | .streamSet d => some (d, 0x91, .head)
  | .routeSet d => some (d, 0x92, .head)
  | .captureSet d => some (d, 0x93, .head)
  | .txaudSet d => some (d, 0x94, .head)
  | .groupSet d => some (d, 0x95, .head)
  | .handover d => some (d, 0xA0, .both)
  | .pairStatus d => some (d, 0xA1, .both)
  | .digestReset d => some (d, 0xA2, .both)
  | .faultSnapshot d _ => some (d, 0xF0, .both)
  | .rangerRestart d => some (d, 0xF1, .both)
  | .trimSave d _ => some (d, 0xC0, .both)
  | .trimRestore d _ => some (d, 0xC1, .both)
  | .memBist d _ _ => some (d, 0xC2, .both)
  | .imageWrite d _ => some (d, 0xB0, .both)
  | .imageActivate d => some (d, 0xB1, .both)
  | .imageConfirm d => some (d, 0xB2, .both)
  | .imageRevert d => some (d, 0xB3, .both)
  | .migrationReport d _ => some (d, 0xB4, .both)
  | .imageBroadcast d _ => some (d, 0xB5, .head)
  | .sdbQuery d => some (d, 0xB6, .both)
  | .pornAssert | .pornRelease _ | .perst | .rootLock | .bootLoad | .rangerRunning | .refLoss | .fbclkLoss
  | .holdoverExpiry | .slewComplete | .rootUnlock | .frameBoundary | .fixFrameStart | .frameLatch | .subframeBoundary
  | .scriptRunEnd _ _ _ | .frmCfgWrite _ | .frmRun | .frmStop | .frmReseed | .stepDispatch _ | .bandJudgment _
  | .bandComposed _ | .passComplete | .bandAbandon _ | .bankRetire | .gladeVerdict _ | .substitutionDone _
  | .gladeRelease _ | .commitPrepare | .commitValidate | .cutoff | .localCommitDecide | .doorbellPoll _
  | .descriptorFetch _ | .completionPost _ _ _ | .headWordRead _ _ | .acqHeadWrite _ | .coalesceTimer _
  | .hqsEnable _ | .adminQueueSetup _ _ | .bar4Access _ _ _ | .mailbox _ _ _ | .remoteWrite _ _ _ | .regRead _ _ _
  | .regWrite _ _ _ | .resync _ _ _ | .readReq _ _ _ | .tileMailboxPoll | .mbxAck _ | .mbxRetransmit _
  | .completion _ | .regReply _ | .event _ _ | .readData _ _ | .trlEnable _ | .trlDisable _ | .detectSense _ _
  | .trainEnd _ _ _ | .prbsDetect _ | .blockLock _ _ | .deskewDone _ _ _ _ | .lockTimeout _ _ | .deskewTimeout _ _
  | .capTimeout _ _ | .capabilityAccept _ _ _ _ | .portActive _ | .signalLoss _ | .lockLoss _ _ | .deskewLoss _ _ _ _
  | .hiBer _ | .retrain _ | .peerSleep _ | .dormantEnter _ | .dormantClear _ | .wakeDetect _ | .wakeRelock _
  | .trailCycleStart _ | .chunkDrop _ | .markerReceive _ _ _ | .markerMissing _ _ | .chunkReceive _ _ _
  | .broadcastSlot _ _ _ | .bcastGapTimer _ | .bcastGap _ | .commitReply _ | .lockReport _ | .emptySlotArrive _ _
  | .echoReq _ _ _ | .echoRsp _ _ _ | .echoTimeout _ _ | .echoStale | .previewReturn _ _ _ | .epochAdvance
  | .rosterTimeout _ _ | .netFrameReceive _ | .hostFetchComplete _ _ _ _ | .referenceRelease _
  | .sacnSourceTimeout _ _ | .sacnCommit | .sacnHeldWrite | .sacnCueCommit | .netLinkDown _ | .netModeWrite _ _
  | .pacedLaunch _ | .timedLaunch _ | .timeNsRead | .timeSet | .rangerOffsetFeed _ _ | .servoHoldover | .patchApply
  | .nightEntry | .fsyncEdge _ | .fsyncLost | .fsyncZeroPulse | .standaloneExit | .audioRun | .audioBlockBoundary _
  | .fbStartPulse | .fbsLost | .asrcUnlock _ _ | .asrcLock _ _ _ | .silentChangeApply _ | .zcTimeout _ | .claim
  | .takeoverDecision | .resign | .healthUpdate | .arbSelect | .arbDeselect | .fbSerFrame _ | .serLost
  | .overlapTimeout | .healthReport _ | .patrolTest _ _ | .faultEvent _ _ | .blockReset _ | .quiesceEnd _
  | .resetLimitEnd | .blkReactWrite _ _ | .lmcScrub _ _ | .supplyDip _ | .dipRecovery | .supplyReset _
  | .supplyResetRelease _ _ | .wdgKick | .preExpire | .expired | .busy _ | .thermalSample _ | .peakReset | .trimApply
  | .trimChange | .trialWindowExpiry | .seedbankScrub _ _ | .tileIdWrite _ _ | .loHiPairWrite _ _
  | .shadowFieldWrite _ _ | .registerWrite _ _ _ | .jtagInstruction _ | .netLinkUp _ _ _ | .fbclkPresent
  | .fbActInRise | .freeRunFrameStart => none

end Sys2Proof.Machine
end

