-- ==== Sys2Proof/Certificates/Slice0/Obligations.lean ====
section
/-! DEFINITION. The statements about the block: what each command leaves, when it completes, and what every step keeps. -/

open Sys2Proof Sys2Proof.Machine

/-- For every command c, queue rest and state s, a step of s with c in front of that rest is exec of c on s with the
rest as its queue. With no command waiting, a step advances the CK_CORE count by one and the time counter by the
addend in force while the clocks run, and changes nothing else; while they are stopped it changes nothing. That one
step is one cycle is the model's choice (log entry 4). (Cites 95_what_each_step_holds.md, R21, R148.) -/
def Obligations.StepRunsFront : Prop :=
  (∀ (c : Instr) (rest : List Instr) (s : State),
    step { s with pending := c :: rest } = exec c { s with pending := rest }) ∧
  (∀ s : State, s.pending = [] →
    (s.live = true → step s = .next { s with core := s.core + 1, ptp := s.ptp + BitVec.ofNat 72 s.addend }) ∧
    (s.live = false → step s = .next s))

/-- Right after reset both byte stores are in canonical form and the TEST_MODE strap was sampled low (the sampled straps
are the model's choice, log entry 1). (Cites R347, R348.) -/
def Obligations.InvAtReset : Prop :=
  State.reset.inv = true

/-- From every state whose Local Memory and Seedbank are in canonical form (addresses strictly rising, no byte that
reads as an unlisted one) and whose sampled TEST_MODE strap is low, every step that answers a next state answers one
with the same properties. (Cites R58, R61, R330, R348.) -/
def Obligations.InvKept : Prop :=
  ∀ s t : State, s.inv = true → step s = .next t → t.inv = true

/-- Every step answers a next state, except a release of PORn, or after a supply reset, with the TEST_MODE strap high,
which is refused because R348 puts that device outside the manual. (Cites R290, R301, R348.) -/
def Obligations.EveryStepAnswers : Prop :=
  ∀ s : State,
    (∃ t, step s = .next t) ∨
    (step s = .refused .testMode ∧ ∃ (b : StrapBalls) (rest : List Instr), b.test = true ∧
      (s.pending = .pornRelease b :: rest ∨ ∃ k, s.pending = .supplyResetRelease k b :: rest))

/-- For each of the commands that storesNothing lists (events, register writes and judgements that carry no bytes to a
store), every byte of Local Memory and of the Seedbank reads the same before and after, in every state. Every
command other than BOOT_LOAD, RANGER_RUNNING, BROADCAST_SLOT, DIP_RECOVERY, EXPIRED, IMAGE_WRITE, IMAGE_ACTIVATE,
IMAGE_CONFIRM, IMAGE_REVERT and TRIAL_WINDOW_EXPIRY leaves every byte of the Seedbank as it was, in every state; so
do PORn and a supply reset. (Cites R7, R61, R290, R330, R331, R347.) -/
def Obligations.StoresLeftAlone : Prop :=
  (∀ (i : Instr) (s t : State), storesNothing i = true → exec i s = .next t →
    ∀ a, Store.get t.lm a = Store.get s.lm a ∧ Store.get t.sdb a = Store.get s.sdb a) ∧
  (∀ (i : Instr) (s t : State), keepsSeedbank i = true → exec i s = .next t →
    ∀ a, Store.get t.sdb a = Store.get s.sdb a)

/-- Every command that is a descriptor, while the clocks run and the device is ready: with a reserved bit of its common
part set it completes with FORMAT and has no other effect; without one, where its role lacks the opcode or it came
by mailbox with a queue-management or mailbox opcode, it completes with UNSUPPORTED_OPCODE and has no other effect.
Every command that is a descriptor and that no shared judgement turns away changes nothing while an earlier
descriptor of its queue, not forwarded to a tile, is unfinished and it carries FENCE or that one is a shadow edit
and the shadow bank is frozen; and, for the opcodes that Ranger executes (log entry 11), while Ranger is not running
and NOT_READY is 0. (Cites R5, R67, R76, R53, R68, R303.) -/
def Obligations.DescriptorTurnedAway : Prop :=
  (∀ (i : Instr) (s : State) (d : Desc) (op : Nat) (role : OpRole), descriptorOf i = some (d, op, role) →
    s.live = true → s.on F.GLB_BOOT_STAT_NOT_READY = false →
    (d.commonOk = false → exec i s = .next (s.finish d op 0x002)) ∧
    (d.commonOk = true → s.has role = false → exec i s = .next (s.finish d op 0x001)) ∧
    (d.commonOk = true → d.mbx = true → op < 0x10 ∨ (0x30 ≤ op ∧ op < 0x40) →
      exec i s = .next (s.finish d op 0x001))) ∧
  (∀ (i : Instr) (s : State) (d : Desc) (op : Nat) (role : OpRole), descriptorOf i = some (d, op, role) →
    s.live = true → s.judge d op role = none →
    (∀ f ∈ ahead (if d.mbx then s.trail.mbxFly else s.hq.flights) d, f.sq = d.sq → f.done = none → s.forwarded f = false →
      d.flags.getLsbD 0 = true ∨ (s.frozen = true ∧ editOp f.op = true) → exec i s = .next s) ∧
    (s.waitsRanger op = true → exec i s = .next s))

/-- A descriptor of a submission queue that completes leaves its status, its result, the frame in progress and the
counter's nanoseconds in its own fetched entry, wherever in the fetch order that entry stands; the entries before
and after it, and all else, stay as they are (with no SQ_DELETE waiting). (Cites R68, R71, R72.) -/
def Obligations.FinishMarksFlight : Prop :=
  ∀ (s : State) (d : Desc) (op st res : Nat) (before after : List Flight) (f : Flight),
    d.mbx = false → s.hq.deleting = [] → s.hq.flights = before ++ f :: after →
    f.sq = d.sq → f.sqHead = d.sqHead → f.done = none →
    (∀ g ∈ before, ¬(g.sq = d.sq ∧ g.sqHead = d.sqHead ∧ g.done = none)) →
    s.finish d op st res = { s with hq := { s.hq with flights := before ++
      { f with op := op, ranger := false,
               done := some { status := st, result := BitVec.ofNat 64 res, frame := s.frameNow,
                              time := BitVec.ofNat 32 s.ns, fromTile := none } } :: after } }

/-- PORN_ASSERT from any state, and SUPPLY_RESET of a monitored rail while PORn is high, answer a state with every
register, reaction, quiesce window, queue, table, Stand and Local Memory byte at reset and the clocks stopped; the
Seedbank, the fuses and the shutdown flag stay, and SUP.LAST_RESET's retained value is kept by PORn and names the
rail after a supply reset. PERST# only clears the endpoint's own MSI-X table and pending bits. (Cites R300, R346,
R347.) -/
def Obligations.ResetWipes : Prop :=
  (∀ s : State, ∃ t, exec .pornAssert s = .next t ∧ t.wipedFrom s ∧ t.power.phase = .porn ∧ t.power.lastReset = s.power.lastReset) ∧
  (∀ (s : State) (rail : Nat), s.monitored rail = true → s.power.phase ≠ .porn →
    ∃ t, exec (.supplyReset rail) s = .next t ∧ t.wipedFrom s ∧ t.power.phase = .supply ∧ t.power.lastReset = 1 + 16 * rail) ∧
  (∀ s : State, exec .perst s = .next { s with hq := { s.hq with msixTab := [], msixPend := [] } })

/-- At a release of PORn, or after a supply reset, with TEST_MODE low: the straps are the sampled balls, Root is not
locked and Ranger is starting, NOT_READY is 1, SUP.LAST_RESET shows the retained value (0 after a supply reset that
VDD_AUX did not survive), SUPPLY_RESET is set where VDD_AUX kept that value, STRAP_BAD is set exactly for the three
illegal settings, and a retained shutdown flag sets SHUTDOWN and SD_PRIOR again. (Cites R300, R317, R347, R348,
R349.) -/
def Obligations.ReleaseSamples : Prop :=
  ∀ (s : State) (b : StrapBalls), b.test = false →
    (s.power.phase = .porn → ∃ t, exec (.pornRelease b) s = .next t ∧ t.power.straps = b ∧ t.power.phase = .run ∧
      t.power.clocks = false ∧ t.power.ranger = .starting ∧ t.on F.GLB_BOOT_STAT_NOT_READY = true ∧ t.sdb = s.sdb ∧
      t.rd F.SUP_LAST_RESET = s.power.lastReset % 256 ∧
      t.sticky E.GLB_STRAP_BAD = ((b.side1 && b.side0) || (b.boot1 && (b.boot0 || !b.role))) ∧
      t.on F.THM_STAT_SHUTDOWN = s.power.shutFlag ∧ t.on F.THM_STAT_SD_PRIOR = s.power.shutFlag) ∧
    (s.power.phase = .supply → ∀ kept : Bool, ∃ t, exec (.supplyResetRelease kept b) s = .next t ∧ t.power.straps = b ∧
      t.power.phase = .run ∧ t.power.clocks = false ∧ t.sdb = s.sdb ∧ t.sticky E.SUP_SUPPLY_RESET = kept ∧
      t.rd F.SUP_LAST_RESET = (if kept then s.power.lastReset % 256 else 0) ∧
      t.power.shutFlag = (s.power.shutFlag && kept))

/-- ROOT_LOCK on a released device whose clocks are stopped and that is not shut down starts them at count 0 with
ROOT_STAT.LOCK set, and every Trail port the device has with CTRL.EN = 1 enters Detect, or Dormant where
CTRL.DORMANT is 1, while the others keep their state; a later lock clears the cause ROOT_UNLOCK and, outside
holdover and a slew, sets LOCK and has what hangs on it judged again; before the release nothing happens. While the
clocks run: REF_LOSS puts Root into holdover from this cycle (REF 4, LOCK 0, SLEWING 0), has what hangs on its lock
judged again and fires its source, and changes nothing in a holdover without a slew; FBCLK_LOSS does the same on a
standby head of a pair that ran on FB_CLK and otherwise only fires its source; FBCLK_PRESENT puts a standby head of
a pair on FB_CLK with LOCK 1 and ends holdover and slew; HOLDOVER_EXPIRY comes HOLD_S seconds of Root after the
holdover began and starts a head's slew; ROOT_UNLOCK outside holdover clears LOCK, raises the forced cause and fires
its source, a native pair then resigning. (Cites R20, R21, R36, R97, R349, R23, R24, R25, R26, R275.) -/
def Obligations.RootStarts : Prop :=
  ((∀ s : State, s.power.phase = .run → s.power.clocks = false → s.care.shut = false →
    ∃ t, exec .rootLock s = .next t ∧ t.live = true ∧ t.core = 0 ∧ t.rd F.CLK_ROOT_STAT_LOCK = 1 ∧
      (∀ k < s.portCount, t.rd (F.TRL_STAT_STATE k) =
        if s.on (F.TRL_CTRL_EN k) then (if s.on (F.TRL_CTRL_DORMANT k) then 7 else 1) else s.rd (F.TRL_STAT_STATE k))) ∧
  (∀ s : State, s.power.phase = .run → s.power.clocks = true →
    ∃ u : State, u = { s with pair := { s.pair with rootBad := false } } ∧
      (s.rd F.CLK_ROOT_STAT_REF ≠ 4 → s.on F.CLK_ROOT_STAT_SLEWING = false →
        exec .rootLock s = .next (u.wr F.CLK_ROOT_STAT_LOCK 1).rootChanged) ∧
      (s.rd F.CLK_ROOT_STAT_REF = 4 ∨ s.on F.CLK_ROOT_STAT_SLEWING = true → exec .rootLock s = .next u)) ∧
  (∀ s : State, s.power.phase ≠ .run → exec .rootLock s = .next s)) ∧
  ((∀ s : State, s.live = true →
    (s.rd F.CLK_ROOT_STAT_REF ≠ 4 ∨ s.on F.CLK_ROOT_STAT_SLEWING = true → ∃ u : State, u = s.holdover ∧
      u.rd F.CLK_ROOT_STAT_REF = 4 ∧ u.rd F.CLK_ROOT_STAT_LOCK = 0 ∧ u.rd F.CLK_ROOT_STAT_SLEWING = 0 ∧
      u.power.holdAt = some s.core ∧ exec .refLoss s = .next (u.rootChanged.detect E.CLK_REF_LOSS)) ∧
    (s.rd F.CLK_ROOT_STAT_REF = 4 → s.on F.CLK_ROOT_STAT_SLEWING = false → exec .refLoss s = .next s)) ∧
  (∀ s : State, s.live = true → s.isHead = true → s.isPair = true → s.claims = false →
    ∃ u : State, u = { s with power := { s.power with fbclk := false } } ∧ exec .fbclkLoss s = .next
      ((if s.rd F.CLK_ROOT_STAT_REF = 1 then u.holdover.rootChanged else u).detect E.CLK_FBCLK_LOSS)) ∧
  (∀ s : State, s.live = true → s.isHead = true → s.isPair = true → s.claims = false →
    ∃ u : State, u = ((({ s with power := { s.power with fbclk := true } } : State).wr
        F.CLK_ROOT_STAT_REF 1).wr F.CLK_ROOT_STAT_LOCK 1).wr F.CLK_ROOT_STAT_SLEWING 0 ∧
      exec .fbclkPresent s = .next
        ({ u with power := { u.power with holdAt := none, slewAt := none } } : State).refreshReady) ∧
  (∀ s : State, s.live = true → s.isHead = true → s.rd F.CLK_ROOT_STAT_REF = 4 → s.on F.CLK_ROOT_STAT_SLEWING = false →
    ∃ u : State, u = (s.advance (s.power.holdAt.getD s.core + s.rd F.CLK_ROOT_CFG_HOLD_S * 1611328125 - s.core)).wr
        F.CLK_ROOT_STAT_SLEWING 1 ∧
      exec .holdoverExpiry s = .next ({ u with power := { u.power with slewAt := some u.core } } : State).rootChanged) ∧
  (∀ s : State, s.live = true → s.rd F.CLK_ROOT_STAT_REF ≠ 4 →
    ∃ u : State, u = (({ s.wr F.CLK_ROOT_STAT_LOCK 0 with pair := { s.pair with rootBad := true } } : State).rootChanged).detect
        E.CLK_ROOT_UNLOCK ∧
      exec .rootUnlock s = .next (if u.native then u.resign else u)))

/-- Exactly 58 of the RATE and MULT codes are lawful; for each of them the frame period is a whole number of schedule
ticks (1/576 ns) that is exact for the rate, and it divides exactly into the refresh sub-frames. On a head, or a
tile without an Active port, while the clocks run: with RUN 0 a lawful write takes effect at once and an illegal one
only fires MODE_REJECT; with RUN 1 a write that changes RATE, or whose MULT is illegal with the RATE in force, only
fires MODE_REJECT, and a lawful one that carries the RATE in force leaves the mode in force and puts MULT and ROLL
into the shadow bank (while it is not frozen). A tile with an Active port ignores the write. (Cites R28, R32, R33.) -/
def Obligations.FrameModes : Prop :=
  (((List.range 16).flatMap (fun r => (List.range 4).filter (fun m => lawfulMode r m))).length = 58 ∧
  ∀ r < 16, ∀ m < 4, lawfulMode r m = true →
    frameTicks r * (rateOf r).1 = 576000000000 * (rateOf r).2 ∧ multOf m * (frameTicks r / multOf m) = frameTicks r) ∧
  (∀ (s : State) (v : Word), s.live = true →
    (s.isTile = true → s.anyActive = true → exec (.frmCfgWrite v) s = .next s) ∧
    ((s.isTile && s.anyActive) = false → s.on F.CLK_FRM_CTRL_RUN = false →
      (lawfulMode (v.toNat % 16) (v.toNat / 16 % 4) = true → ∃ t, exec (.frmCfgWrite v) s = .next t ∧
        t.rd F.CLK_FRM_CFG_RATE = v.toNat % 16 ∧ t.rd F.CLK_FRM_CFG_MULT = v.toNat / 16 % 4 ∧
        t.rd F.CLK_FRM_CFG_ROLL = v.toNat / 256 % 2) ∧
      (lawfulMode (v.toNat % 16) (v.toNat / 16 % 4) = false →
        exec (.frmCfgWrite v) s = .next (s.detect E.CLK_MODE_REJECT))) ∧
    ((s.isTile && s.anyActive) = false → s.on F.CLK_FRM_CTRL_RUN = true →
      (v.toNat % 16 ≠ s.rate ∨ lawfulMode s.rate (v.toNat / 16 % 4) = false →
        exec (.frmCfgWrite v) s = .next (s.detect E.CLK_MODE_REJECT)) ∧
      (v.toNat % 16 = s.rate → lawfulMode s.rate (v.toNat / 16 % 4) = true → s.frozen = false →
        ∃ t, exec (.frmCfgWrite v) s = .next t ∧ t.regs = s.regs ∧ t.stp.active = s.stp.active ∧
          t.shadowRd F.CLK_FRM_CFG_MULT = v.toNat / 16 % 4 ∧ t.shadowRd F.CLK_FRM_CFG_ROLL = v.toNat / 256 % 2)))

/-- On a head while the clocks run: setting RUN starts the schedule at the seeded target and number when the seed lies
at least the Commit Lead plus one Trail cycle and at most 2^31 ns ahead, and otherwise only fires SEED_REJECT;
clearing RUN drops the fixed start and any reseed; RESEED while RUN is 1, with phase held and no start fixed,
replaces the next start when the seed is ahead and the frame it ends lasts between P/2 and 3P/2, and otherwise only
fires SEED_REJECT; where a sub-frame boundary comes first the seed waits for the frame's end. While the schedule
runs with no start fixed and phase not lost: the head records the lead and the ring delay it uses and fixes the next
target at the cycle in which the counter reaches it; when the frame in progress would then last less than P/2 or
more than 3P/2 it fixes the start exactly one nominal P after the previous one instead and fires PHASE_LOST. (Cites
R34, R36, R29, R30, R55.) -/
def Obligations.ScheduleStarts : Prop :=
  (∀ s : State, s.live = true → s.isHead = true →
    (s.on F.CLK_FRM_CTRL_RUN = false → s.seedOk (s.leadFor s.dringMax + 16896) = true →
      exec .frmRun s = .next { s.wr F.CLK_FRM_CTRL_RUN 1 with frames := { s.frames with
        tgt := 576 * s.rd F.CLK_FRM_SEED_TIME + s.rd F.CLK_FRM_SEED_REM, k := 0,
        next := BitVec.ofNat 32 (s.rd F.CLK_FRM_SEED_NUM), fixed := none, reseed := none, begun := false, lost := false,
        lostN := 0 } }) ∧
    (s.on F.CLK_FRM_CTRL_RUN = false → s.seedOk (s.leadFor s.dringMax + 16896) = false →
      exec .frmRun s = .next (s.detect E.CLK_SEED_REJECT)) ∧
    (exec .frmStop s = .next { s.wr F.CLK_FRM_CTRL_RUN 0 with frames := { s.frames with fixed := none, reseed := none } }) ∧
    (s.on F.CLK_FRM_CTRL_RUN = true → s.frames.begun = false → s.frames.fixed = none → s.frames.lost = false →
      s.frames.k = 0 → exec .frmReseed s = .next (if s.seedOk 0 then { s with frames := { s.frames with
        tgt := 576 * s.rd F.CLK_FRM_SEED_TIME + s.rd F.CLK_FRM_SEED_REM,
        next := BitVec.ofNat 32 (s.rd F.CLK_FRM_SEED_NUM), reseed := none } } else s.detect E.CLK_SEED_REJECT)) ∧
    (s.on F.CLK_FRM_CTRL_RUN = true → s.frames.begun = true → s.frames.fixed = none → s.frames.lost = false →
      s.seedOk 0 = true →
      exec .frmReseed s = .next (
        if lengthOk s.rate (s.core + s.cyclesTo s.seedTgt - s.frames.start) = false then s.detect E.CLK_SEED_REJECT
        else if s.frames.k = 0 then { s with frames := { s.frames with
          tgt := s.seedTgt, next := BitVec.ofNat 32 (s.rd F.CLK_FRM_SEED_NUM), reseed := none } }
        else { s with frames := { s.frames with
          reseed := some ⟨s.seedTgt, BitVec.ofNat 32 (s.rd F.CLK_FRM_SEED_NUM)⟩ } }))) ∧
  (∀ s : State, s.live = true → s.schedules = true → s.frames.fixed = none → s.frames.lost = false → s.frames.k = 0 →
    ∃ u : State, u = (s.wr F.STP_LEAD (s.leadFor s.dringMax)).wr F.STP_DRING s.dringMax ∧
      (s.frames.begun = false ∨ lengthOk s.rate (s.core + s.cyclesTo s.frames.tgt - s.frames.start) = true →
        exec .fixFrameStart s = .next { u with frames := { s.frames with
          fixed := some ⟨s.frames.tgt, s.core + s.cyclesTo s.frames.tgt, s.frames.next, s.leadFor s.dringMax, s.dringMax⟩ } }) ∧
      (s.frames.begun = true → lengthOk s.rate (s.core + s.cyclesTo s.frames.tgt - s.frames.start) = false →
        exec .fixFrameStart s = .next (({ u with frames := { s.frames with
          fixed := some ⟨s.frames.tgt, s.frames.start + frameTicks s.rate * 103125 / (576 * 64000), s.frames.next,
            s.leadFor s.dringMax, s.dringMax⟩, lost := true, lostN := 0, lostAt := s.frames.start } } : State).detect
          E.CLK_PHASE_LOST)))

/-- While the head's schedule runs: a sub-frame boundary in the middle of a frame, with phase held no start fixed or
reseed waiting, and the next start not due to be fixed before it (the Commit Lead and one Trail cycle ahead), moves
the clock to the cycle in which the counter reaches the target, advances the target by S and steps the sub-frame
index, which the Step Engine notes; at a fixed frame start the clock moves to the fixed cycle, FRM_NOW takes the
fixed number and FRM_LEN the length of the frame that ended, the next number is one more, a trim change that waits
for the latch happens, and the frame's work begins. (Cites R28, R29, R36.) -/
def Obligations.BoundarySteps : Prop :=
  ∀ s : State, s.live = true → s.isHead = true → s.on F.CLK_FRM_CTRL_RUN = true →
    (0 < s.frames.k → s.frames.k + 1 < s.refresh → s.frames.fixed = none → s.frames.reseed = none → s.frames.lost = false →
      s.core + s.cyclesTo s.frames.tgt < s.fixBy →
      exec .frameBoundary s = .next ({ s.advance (s.cyclesTo s.frames.tgt) with frames := { s.frames with
        tgt := (s.frames.tgt + frameTicks s.rate / s.refresh) % (576 * 2 ^ 32), k := s.frames.k + 1 } } : State).noteSub) ∧
    (∀ f : FixedStart, s.frames.k = 0 → s.frames.fixed = some f → s.frames.reseed = none → s.frames.begun = true →
      s.frames.lost = false →
      exec .frameBoundary s = .next (State.headFrame (State.trimLatch {
        ((s.advance (f.cycle - s.core)).wr F.CLK_FRM_LEN (s.core + (f.cycle - s.core) - s.frames.start)).wr
          F.CLK_FRM_NOW f.num.toNat with frames := { s.frames with
            start := s.core + (f.cycle - s.core), fixed := none, next := f.num + 1, lostN := 0,
            tgt := (s.frames.tgt + frameTicks s.rate / s.refresh) % (576 * 2 ^ 32), k := 1 } }) f.num))

/-- On a tile with an announced start (cycle c, number n) while the clocks run, FRAME_LATCH moves the clock to c and
takes the announcement: where the frame in progress would be shorter than half of P nothing else happens; otherwise
each feeder's applied D moves and frame lock is judged, FRM_NOW becomes n, FRM_LEN the length of the frame that ends
(nominal P for the first one after frame lock), a preview switch and a trim change that wait for the latch happen,
the sub-frame count restarts and the frame's engine work follows, unless a shutdown stopped the engines. While the
clocks run: SLEW_COMPLETE on a slewing head moves the clock to the end of the slew and leaves it locked to REFCLK
with no offset; on a slewing tile it clears SLEWING and sets LOCK; link counts, readiness and frame lock are judged
again. Outside a slew it changes nothing. ECHO_STALE on a tile whose preferred feeder (here West) has a D moves to
MAX_AGE Trail cycles and one CK_CORE cycle after that D's request, where frame lock is judged. (Cites R31, R121,
R122, R123, R23, R24, R25.) -/
def Obligations.TileFrameStart : Prop :=
  (∀ (s : State) (c : Nat) (n : Word), s.live = true → s.isTile = true → s.frames.latch = some (c, n) →
    (s.frames.begun = true → 2 * (c - s.frames.start) * 36864000 < frameTicks s.rate * 103125 →
      exec .frameLatch s = .next { s.advance (c - s.core) with frames := { s.frames with latch := none } }) ∧
    (s.frames.begun = false ∨ frameTicks s.rate * 103125 ≤ 2 * (c - s.frames.start) * 36864000 →
      ∃ (u w v : State) (len : Nat),
        u = (State.applyDs { s.advance (c - s.core) with frames := { s.frames with latch := none } }).lockUpdate ∧
        len = (if u.frames.nominal = true ∨ u.frames.begun = false then frameTicks u.rate * 103125 / (576 * 64000)
          else u.core - u.frames.start) ∧
        w = ((u.wr F.CLK_FRM_LEN len).wr F.CLK_FRM_NOW n.toNat).settlePvw.trimLatch ∧
        v = { w with frames := { w.frames with
          start := w.core, begun := true, len := len, nominal := false, sub := 0, next := n + 1 } } ∧
        (v.care.shut = false → exec .frameLatch s = .next (v.tileWork n)) ∧
        (v.care.shut = true → exec .frameLatch s = .next v))) ∧
  ((∀ s : State, s.live = true → s.on F.CLK_ROOT_STAT_SLEWING = true → s.isHead = true →
    ∃ u v : State, u = s.advanceTo s.slewEnd ∧
      v = (((u.wr F.CLK_ROOT_STAT_SLEWING 0).wr F.CLK_ROOT_STAT_LOCK 1).wr F.CLK_ROOT_STAT_REF 0).wr F.CLK_ROOT_STAT_FREQ_OFS 0 ∧
      exec .slewComplete s = .next { v with power := { v.power with holdAt := none, slewAt := none } }.rootChanged) ∧
  (∀ s : State, s.live = true → s.on F.CLK_ROOT_STAT_SLEWING = true → s.isTile = true →
    ∃ v : State, v = (s.wr F.CLK_ROOT_STAT_SLEWING 0).wr F.CLK_ROOT_STAT_LOCK 1 ∧
      exec .slewComplete s = .next { v with power := { v.power with holdAt := none } }.rootChanged) ∧
  (∀ s : State, s.live = true → s.on F.CLK_ROOT_STAT_SLEWING = false → exec .slewComplete s = .next s) ∧
  (∀ (s : State) (d at0 : Nat), s.live = true → s.pref = some 0 → (s.port 0).feed.dLast = some (d, at0) →
    exec .echoStale s = .next ((s.advance (at0 + s.rd F.GLB_ECHO_CFG_MAX_AGE * 16896 + 1 - s.core)).lockUpdate)))

/-- On a tile whose frame has begun with length C, with no announced start due first and sub-frame k + 1 below M,
SUBFRAME_BOUNDARY moves the clock to FS + floor((k + 1) C / M) and steps the index; unless a shutdown stopped the
engines, the Step Engine notes the boundary (trigger 1), running scripts are cut, a Rolling mode's bands swap and
the next sub-frame's runs start (none in Panel hold or Night). Past the last sub-frame, and on a head, nothing
happens. While the clocks run: on a tile with a begun frame of length C, no announced start and no schedule of its
own, FREE_RUN_FRAME_START starts the next frame C cycles after the last and judges frame lock; on a standalone tile
under FSYNC_IN an edge of the active polarity starts a frame 64 CK_CORE cycles later with FSYNC_LOCK set, unless the
frame would be shorter than P/2, which counts FSYNC_EARLY; FSYNC_LOST at 3P/2 counts a miss, fires its source and
starts a frame laid on the grid of P, and while no edge follows FREE_RUN_FRAME_START counts a miss and starts a
frame every P; a pulse held for 100 µs makes the next frame take SA_ZERO; STANDALONE_EXIT clears RUN and STANDALONE
once a port is Active and a start is announced. (Cites R31, R35, R228, R254, R255.) -/
def Obligations.TileSubframes : Prop :=
  (∀ s : State, s.live = true →
    (s.isTile = true → s.frames.begun = true → s.frames.latch = none → s.frames.sub + 1 < s.refresh →
      ∃ u : State, u = { s.advance (s.frames.start + (s.frames.sub + 1) * s.frames.len / s.refresh - s.core) with
          frames := { s.frames with sub := s.frames.sub + 1 } } ∧
        (s.care.shut = true → exec .subframeBoundary s = .next u) ∧
        (s.care.shut = false → ∃ v : State, v = u.noteSub.cutRuns.swapBands false ∧
          exec .subframeBoundary s = .next (v.startRuns v.frames.sub
            (if v.rd F.PAT_HOLD_STAT_STATE = 2 ∨ v.rd F.PAT_HOLD_STAT_STATE = 3 then .none else .normal)))) ∧
    (s.isHead = true ∨ s.refresh ≤ s.frames.sub + 1 → exec .subframeBoundary s = .next s)) ∧
  (∀ s : State, s.live = true → s.isTile = true →
    (s.frames.begun = true → s.frames.latch = none → s.schedules = false → s.onFsync = false →
      ∃ u : State, u = ((s.advance (s.frames.start + s.frames.len - s.core)).tileFrame (s.frameNow + 1)).lockUpdate ∧
        exec .freeRunFrameStart s = .next { u with frames := { u.frames with len := s.frames.len } }) ∧
    (s.frames.begun = true → s.frames.latch = none → s.onFsync = true → s.on F.PAT_SA_STAT_FSYNC_LOCK = false →
      s.hold.zero = false →
      ∃ (p : Nat) (v u : State), p = frameTicks s.rate * 103125 / (576 * 64000) ∧
        v = (((s.advance (s.frames.start + p - s.core)).inc F.PAT_FSYNC_MISS).wr F.PAT_SA_STAT_FSYNC_LOCK 0) ∧
        u = (v.tileFrame (v.frameNow + 1)).lockUpdate ∧
        exec .freeRunFrameStart s = .next { u with frames := { u.frames with len := p } }) ∧
    (∀ rising : Bool, s.onFsync = true → rising ≠ s.on F.PAT_SA_CFG_POL →
      (s.frames.begun = true → 2 * (s.core - s.frames.start) * 36864000 < frameTicks s.rate * 103125 →
        exec (.fsyncEdge rising) s = .next ((s.inc F.PAT_FSYNC_EARLY).detect E.PAT_FSYNC_EARLY)) ∧
      (s.frames.begun = true → frameTicks s.rate * 103125 ≤ 2 * (s.core - s.frames.start) * 36864000 →
        s.hold.zero = false →
        exec (.fsyncEdge rising) s = .next (((s.advance 64).wr F.PAT_SA_STAT_FSYNC_LOCK 1).tileFrame (s.frameNow + 1)))) ∧
    (s.onFsync = true → s.frames.begun = true → s.hold.zero = false →
      ∃ u v : State, u = s.advance (s.frames.start + 3 * (frameTicks s.rate * 103125 / (576 * 64000)) / 2 - s.core) ∧
        v = (((u.inc F.PAT_FSYNC_MISS).wr F.PAT_SA_STAT_FSYNC_LOCK 0).detect E.PAT_FSYNC_LOST).tileFrame (s.frameNow + 1) ∧
        exec .fsyncLost s = .next { v with frames := { v.frames with
          start := s.frames.start + frameTicks s.rate * 103125 / (576 * 64000),
          len := frameTicks s.rate * 103125 / (576 * 64000) } }) ∧
    (s.onFsync = true → exec .fsyncZeroPulse s = .next { s with hold := { s.hold with zero := true } }) ∧
    (s.on F.CLK_FRM_CTRL_RUN = true → s.anyActive = true → s.frames.latch.isSome = true →
      exec .standaloneExit s = .next ((s.wr F.CLK_FRM_CTRL_RUN 0).wr F.PAT_SA_STAT_STANDALONE 0)))

/-- On a tile, HOLD_SET to Run (outside a Night the host asked for) or to Rest is kept with the moment it was fetched
until a frame start; Night by mailbox is refused with 0x882, and Rest or Panel hold out of Night with 0x883. With
both ports Dormant and a HOLD_SET to Night waiting alone, NIGHT_ENTRY puts Root into holdover, drops runs, passes
and armed entries, leaves the branch pins high-Z, and completes the descriptor with the state before. With none
waiting, AUTO_NIGHT set and the tile not in Night yet, it does the same and fires NIGHT_AUTO. (Cites R246, R247,
R248, R249, R255.) -/
def Obligations.HoldRequests : Prop :=
  (∀ (s : State) (d : Desc), s.accepts d 0x88 .tile = true → d.only [(0, 0, 8)] = true →
    (d.num 0 1 = 1 → s.rd F.PAT_HOLD_STAT_STATE ≠ 3 → ∃ u : State, u = { s.starts d with hold := { s.hold with
        want := s.hold.want ++ [(1, d, s.fetchedAt d)] } } ∧ exec (.holdSet d) s = .next (u.wr F.PAT_HOLD_STAT_PENDING 1)) ∧
    (d.num 0 1 = 0 → s.hold.byHost = false → ∃ u : State, u = { s.starts d with hold := { s.hold with
        want := s.hold.want ++ [(0, d, s.fetchedAt d)] } } ∧ exec (.holdSet d) s = .next (u.wr F.PAT_HOLD_STAT_PENDING 1)) ∧
    (d.num 0 1 = 3 → d.mbx = true → exec (.holdSet d) s = .next (s.finish d 0x88 0x882)) ∧
    (d.num 0 1 = 1 ∨ d.num 0 1 = 2 → s.rd F.PAT_HOLD_STAT_STATE = 3 → exec (.holdSet d) s = .next (s.finish d 0x88 0x883))) ∧
  (∀ s : State, s.live = true → s.isTile = true → s.rd (F.TRL_STAT_STATE 0) = 7 → s.rd (F.TRL_STAT_STATE 1) = 7 →
    ∃ (night : Bool → State) (u : State),
      u = ((s.wr F.PAT_HOLD_STAT_STATE 3).wr F.PAT_HOLD_FRAME s.frameNow.toNat).holdover ∧
      (∀ byHost : Bool, night byHost = { u with
        hold := { u.hold with want := [], byHost := byHost, waking := false }
        brn := { u.brn with runs := [], spans := [], hiz := true }
        cnp := { u.cnp with passes := [], queue := [], due := [], shown := [] }
        stp := { u.stp with armed := [] } }) ∧
      (∀ (d : Desc) (c : Nat), s.hold.want = [(3, d, c)] →
        exec .nightEntry s = .next
          (((night true).retireIfDone.linkCycles.finish d 0x88 0x000 (s.rd F.PAT_HOLD_STAT_STATE)).showPending)) ∧
      (s.hold.want = [] → s.on F.PAT_HOLD_CFG_AUTO_NIGHT = true → s.rd F.PAT_HOLD_STAT_STATE ≠ 3 →
        exec .nightEntry s = .next (((night false).detect E.PAT_NIGHT_AUTO).retireIfDone.linkCycles.showPending)))

/-- A source outside every quiesce window that fires while the clocks run (one with no counter of its own and no memory
read behind it): with reaction log it sets its sticky bit and nothing else; with reaction interrupt it also sets its
pending bit, and on a head the block's vector leaves the device, its entry's data to its entry's address, when that
bit becomes set, is enabled, and the vector is unmasked in BAR2; a vector that is masked there is kept pending in
its place. On a tile without a host an EVENT message is queued instead, one for each block in a Trail cycle. (Cites
R62, R290, R291.) -/
def Obligations.FaultRecords : Prop :=
  ∀ (s : State) (b i : Nat), s.live = true → s.blockHere b = true → (Map.find (reactDefaults b) i).isSome = true →
    s.masked b i = false → sourceCount (b, i) = none → lmReadSource (b, i) = false → sramSource (b, i) = false →
    (b, i) ≠ E.LMC_UNCORR →
    (s.codeOf b i = 0 → exec (.faultEvent b i) s = .next (s.stuck b i)) ∧
    (s.codeOf b i = 1 →
      (bit (s.rd (F.BLK_IRQ_PEND b)) i = true → exec (.faultEvent b i) s = .next (s.stuck b i)) ∧
      (bit (s.rd (F.BLK_IRQ_PEND b)) i = false → bit (s.rd (F.BLK_IRQ_EN b)) i = false →
        exec (.faultEvent b i) s = .next ((s.stuck b i).pended b i)) ∧
      (bit (s.rd (F.BLK_IRQ_PEND b)) i = false → bit (s.rd (F.BLK_IRQ_EN b)) i = true → s.isHead = true →
        s.power.pcie = true →
        (bit (s.msixWord (4 * b + 3)) 0 = false → exec (.faultEvent b i) s = .next { (s.stuck b i).pended b i with
          out := .vector b (s.msixWord (4 * b) + 2 ^ 32 * s.msixWord (4 * b + 1)) (s.msixWord (4 * b + 2)) :: s.out }) ∧
        (bit (s.msixWord (4 * b + 3)) 0 = true → b ∉ s.hq.msixPend →
          exec (.faultEvent b i) s = .next { (s.stuck b i).pended b i with
            hq := { s.hq with msixPend := b :: s.hq.msixPend } })) ∧
      (bit (s.rd (F.BLK_IRQ_PEND b)) i = false → bit (s.rd (F.BLK_IRQ_EN b)) i = true → s.isTile = true →
        s.power.pcie = false →
        (bit s.trail.evSent b = false → ∃ u : State, u = (s.stuck b i).pended b i ∧
          exec (.faultEvent b i) s = .next { u with trail := { s.trail with
            msgs := s.trail.msgs ++ [u.eventMsg b], evSent := setBit s.trail.evSent b } }) ∧
        (bit s.trail.evSent b = true → exec (.faultEvent b i) s = .next { (s.stuck b i).pended b i with
          trail := { s.trail with evWait := setBit s.trail.evWait b } })))

/-- A source of a covered block that fires inside a quiesce window (one with no counter of its own and no memory read
behind it) sets no sticky bit and no pending bit and takes no reaction: it only counts, saturating, in that block's
BLK_MASKED; but a second source that calls for the block's reset in the CK_SYS cycle of that reset is recorded, with
no second reset. The sources of THM, SUP and WDG, those of FBK's claim logic and CLK.ROOT_UNLOCK are never masked. A
host-commanded reset of a block that has one opens a quiesce window that covers exactly the block and the dependents
listed for it and starts the 10 ms limit now; QUIESCE_END, SETTLE microseconds after the 65,536 cycles of the reset,
closes the oldest window of the block and leaves the others; RESET_LIMIT_END comes 1,007,080 CK_SYS cycles after the
last reset began; a block without block reset changes nothing. (Cites R293, R294, R306, R295.) -/
def Obligations.MaskedEvents : Prop :=
  ((∀ (s : State) (b i : Nat), s.live = true → s.blockHere b = true → (Map.find (reactDefaults b) i).isSome = true →
    s.masked b i = true → sourceCount (b, i) = none → lmReadSource (b, i) = false → sramSource (b, i) = false →
    (b, i) ≠ E.LMC_UNCORR →
    (s.sameReset (b, i) = false →
      exec (.faultEvent b i) s = .next (s.wr (F.BLK_MASKED b) (min (s.rd (F.BLK_MASKED b) + 1) (2 ^ 32 - 1)))) ∧
    (s.sameReset (b, i) = true → exec (.faultEvent b i) s = .next ((s.stuck b i).setPend b i))) ∧
  (∀ (s : State) (i : Nat), (i ∈ [0, 1, 5, 6] → s.masked 16 i = false) ∧ s.masked 17 i = false ∧ s.masked 18 i = false ∧ s.masked 21 i = false ∧
    s.masked 1 2 = false)) ∧
  ((∀ (b : Nat) (deps : List Nat) (s : State), (b, deps) ∈ [(4, [0, 3]), (5, [0, 3]), (6, [0, 3]), (7, [0, 3]), (8, [10, 15]),
      (9, [10, 15]), (10, [1, 15]), (11, [12, 13]), (12, [13]), (14, [12]), (13, []), (15, []), (3, [])] →
    s.live = true → s.blockHere b = true →
    ∃ (t : State) (m : Nat), exec (.blockReset b) s = .next t ∧ t.quiesce = s.quiesce ++ [Window.mk b m s.core] ∧
      t.limitFrom = some s.core ∧ ∀ k < 23, bit m k = (k == b || deps.contains k)) ∧
  (∀ (s : State) (w : Window) (before after : List Window), s.live = true → s.quiesce = before ++ w :: after →
    (∀ x ∈ before, x.block ≠ w.block) → exec (.quiesceEnd w.block) s = .next {
      s.advance (w.start + 65536 + usCycles (s.rd F.WDG_CFG_SETTLE) - s.core) with quiesce := before ++ after }) ∧
  (∀ (s : State) (c : Nat), s.live = true → s.limitFrom = some c →
    exec .resetLimitEnd s = .next { s.advance (c + 16 * 1007080 - s.core) with limitFrom := none }) ∧
  (∀ (s : State) (b : Nat), s.live = true → b ∈ [0, 1, 2, 16, 17, 18, 19, 20, 21, 22] → exec (.blockReset b) s = .next s))

/-- Every write to a present block's BLK_REACT selects SRC whatever WE holds. With WE it stores CODE for SRC, except
that the store is ignored where SRC is a reserved sticky bit, where CODE is 2 in a block without block reset, where
the source is never masked and CODE is 0, and for the fixed WDG.EXPIRED and THM.SHUTDOWN. Every other source keeps
its code, and a reserved source's code reads 0. (Cites R291.) -/
def Obligations.ReactionWrites : Prop :=
  ∀ (s : State) (b : Nat) (v : Word), s.live = true → s.blockHere b = true →
    ∃ t, exec (.blkReactWrite b v) s = .next t ∧ t.rd (F.BLK_REACT_SRC b) = v.toNat % 32 ∧
      (∀ c j, (c, j) ≠ (b, v.toNat % 32) → j < 32 → v.toNat % 32 < 32 → t.codeOf c j = s.codeOf c j) ∧
      ((Map.find (reactDefaults b) (v.toNat % 32)).isNone = true → t.codeOf b (v.toNat % 32) = 0) ∧
      ((Map.find (reactDefaults b) (v.toNat % 32)).isSome = true →
        t.codeOf b (v.toNat % 32) =
          if v.getLsbD 31 = false ∨
             (v.toNat / 256 % 4 = 2 ∧ b ∉ [3, 4, 5, 6, 7, 8, 9, 10, 11, 12, 13, 14, 15]) ∨
             (v.toNat / 256 % 4 = 0 ∧ (b ∈ [17, 18, 21] ∨ (b = 1 ∧ v.toNat % 32 = 2) ∨ (b = 16 ∧ v.toNat % 32 ∈ [0, 1, 5, 6]))) ∨
             (b, v.toNat % 32) = E.WDG_EXPIRED ∨ (b, v.toNat % 32) = E.THM_SHUTDOWN
          then s.codeOf b (v.toNat % 32) else v.toNat / 256 % 4)

/-- While the clocks run: a background read of Local Memory with SCRUB on counts a corrected or uncorrectable word, and
remembers an uncorrectable one until it reads well; a dip of a monitored rail marks it below warning, suspends
Seedbank writes and fires DIP_WARN; Ranger's kick restarts the watchdog count; half the timeout fires PRE_EXPIRE
once; an item over budget in a class that holds one marks its class, counts and fires BUSY, and is remembered; an
expiry outside a trial, with fewer recent restarts than LOOP_MAX, fires EXPIRED, resigns a native pair and restarts
Ranger; a watchdog that does not count does not expire. An accepted FAULT_SNAPSHOT with an aligned address writes
the sticky, pending and masked words of the 23 blocks, 16 bytes a block, and completes OK: from a host's queue to
host memory (a PCIe error: PCIE_ERROR), from a mailbox to the tile's Local Memory outside the private region (inside
it, as for a misaligned address: ADDRESS). An accepted RANGER_RESTART counts a restart, stops the watchdog count,
leaves Ranger loading with RUNNING 0 and the descriptor waiting, and descriptors in Ranger's hands complete with
RANGER_RESTART. (Cites R296, R297, R299, R302, R303, R304, R305, R307.) -/
def Obligations.Supervision : Prop :=
  ((∀ (s : State) (a : Nat), s.live = true → s.rd F.LMC_SCRUB_PERIOD ≠ 0 →
    ∃ u v : State, u = { s with lmBad := s.lmBad.filter (fun w => w != a / 8) } ∧ v = { u with lmBad := a / 8 :: u.lmBad } ∧
      exec (.lmcScrub a .clean) s = .next u ∧
      exec (.lmcScrub a .corr1) s = .next (u.inc F.LMC_ECC_CORR1).countCorr ∧
      exec (.lmcScrub a .corr2) s = .next (u.inc F.LMC_ECC_CORR2).countCorr ∧
      exec (.lmcScrub a .uncorr) s = .next (((v.inc F.LMC_ECC_UNCORR).detect E.LMC_UNCORR).countUncorr)) ∧
  (∀ s : State, s.live = true → s.care.counting = false → exec .expired s = .next s) ∧
  (∀ (s : State) (rail : Nat), s.live = true → s.monitored rail = true →
    ∃ u : State, u = { s with power := { s.power with dips := setBit s.power.dips rail } } ∧
      exec (.supplyDip rail) s = .next ((((u.wr F.SUP_STAT_BELOW_WARN (setBit (s.rd F.SUP_STAT_BELOW_WARN) rail)).wr
        F.SUP_STAT_SDB_SUSPENDED 1).inc F.SUP_DIPS).detect E.SUP_DIP_WARN)) ∧
  (∀ s : State, s.live = true → s.power.ranger = .running →
    exec .wdgKick s = .next { s with care := { s.care with kickAt := s.core, counting := true, preDone := false }
                                     pair := { s.pair with wdgBad := false } }) ∧
  (∀ s : State, s.live = true → s.care.counting = true → s.care.preDone = false →
    exec .preExpire s = .next (({ s.advance (s.care.kickAt + s.rd F.WDG_CFG_TIMEOUT * (100708 * 16) / 2 - s.core) with
      care := { s.care with preDone := true } } : State).detect E.WDG_PRE_EXPIRE)) ∧
  (∀ (s : State) (c : Nat), s.live = true →
    (c ∈ [1, 5, 6] →
      exec (.busy c) s = .next (((s.wr F.WDG_LOAD (setBit (s.rd F.WDG_LOAD) (c - 1))).inc F.WDG_BUSY_COUNT).detect E.WDG_BUSY)) ∧
    (s.workWaits c = true → ∃ u : State, u = { s with care := { s.care with
        lateCommit := if c = 2 then s.waitCommit else s.care.lateCommit
        lateMbx := if c = 3 then s.waitMbx else s.care.lateMbx
        lateCue := if c = 4 then s.net.cue.head? else s.care.lateCue } } ∧
      exec (.busy c) s = .next (((u.wr F.WDG_LOAD (setBit (s.rd F.WDG_LOAD) (c - 1))).inc F.WDG_BUSY_COUNT).detect E.WDG_BUSY)) ∧
    (s.workWaits c = false → exec (.busy c) s = .next s)) ∧
  (∀ s : State, s.live = true → s.on F.SDB_STAT_TRIAL = false → s.care.counting = true →
    ∃ u v : State, u = (s.advance (s.care.kickAt + s.rd F.WDG_CFG_TIMEOUT * (100708 * 16) - s.core)).detect E.WDG_EXPIRED ∧
      v = ({ u with pair := { u.pair with wdgBad := true } } : State).resignNative ∧
      (v.recent < v.rd F.WDG_CFG_LOOP_MAX → ∃ w : State, w = { v with care := { v.care with restarts := v.core :: v.care.restarts } } ∧
        exec .expired s = .next ((w.wr F.WDG_STAT_RECENT (min w.recent 15)).coldRestart)))) ∧
  ((∀ (s : State) (d : Desc), s.accepts d 0xF0 .both = true → d.only [(8, 0, 64)] = true →
    ∃ bytes : Bytes, bytes = (List.range 23).flatMap (fun b => leBytes 4 (s.rd (F.BLK_STICKY b)) ++
        leBytes 4 (s.rd (F.BLK_IRQ_PEND b)) ++ leBytes 4 (s.rd (F.BLK_MASKED b)) ++ [0, 0, 0, 0]) ∧
    (d.num 8 8 % 64 ≠ 0 → ∀ ok, exec (.faultSnapshot d ok) s = .next (s.finish d 0xF0 0x003)) ∧
    (d.num 8 8 % 64 = 0 → d.mbx = false →
      exec (.faultSnapshot d false) s = .next (s.finish d 0xF0 0x004) ∧
      exec (.faultSnapshot d true) s = .next ({ s with out := .hostWrite (d.num 8 8) bytes :: s.out }.finish d 0xF0 0x000)) ∧
    (d.num 8 8 % 64 = 0 → d.mbx = true → ∀ ok,
      (lmOk (d.num 8 8) 368 = false → exec (.faultSnapshot d ok) s = .next (s.finish d 0xF0 0x003)) ∧
      (lmOk (d.num 8 8) 368 = true → exec (.faultSnapshot d ok) s = .next ((s.lmWrite (d.num 8 8) bytes).finish d 0xF0 0x000)))) ∧
  (∀ (s : State) (d : Desc), s.accepts d 0xF1 .both = true → d.only [] = true →
    ∃ u v : State, u = (((s.starts d).inc F.WDG_RESTARTS).wr F.WDG_STAT_RUNNING 0).wr F.WDG_STAT_HALTED 0 ∧
      v = ({ u with power := { u.power with ranger := .starting }, care := { u.care with counting := false } } : State).dropRanger ∧
      exec (.rangerRestart d) s = .next { v with care := { v.care with restartDesc := some d } }))

/-- While the clocks run, a sample shows the sensors with the trim's offsets, then judges WARN (set at 115 degrees,
cleared below 112), then moves the level by one step at most, and with it the pace of the composition (up at 119
degrees plus 2 for each level to be entered, down below 116 plus 2 for each level in force), then counts consecutive
samples at 130 degrees and above; the second of them shuts the device down. PEAK_RESET sets PEAK to the Tmax shown.
(Cites R314, R315, R316, R320.) -/
def Obligations.ThermalState : Prop :=
  (∀ (s : State) (l : List SensorReading), s.live = true →
    ∃ (m : List SensorReading) (u v : State), m = s.trimmed l ∧
      u = ((s.showSample m).warnAt (tmaxOf m).1).levelAt (tmaxOf m).1 ∧
      v = { u with care := { u.care with hotRun := if 520 ≤ (tmaxOf m).1 then u.care.hotRun + 1 else 0 } } ∧
      exec (.thermalSample l) s =
        .next (if 2 ≤ v.care.hotRun ∧ u.on F.THM_STAT_SHUTDOWN = false then v.shutdown else v)) ∧
  (∀ (s : State) (t : Int),
    (s.rd F.THM_STAT_WARN = 0 → s.warnAt t = if 460 ≤ t then (s.wr F.THM_STAT_WARN 1).detect E.THM_WARN else s) ∧
    (s.rd F.THM_STAT_WARN ≠ 0 → s.warnAt t = if t < 448 then s.wr F.THM_STAT_WARN 0 else s)) ∧
  (∀ (s : State) (t : Int) (n : Nat), s.rd F.THM_STAT_LEVEL = n → n ≤ 4 → s.levelAt t =
    if n < 4 ∧ 476 + 8 * ((n : Int) + 1) ≤ t then (s.notePace.wr F.THM_STAT_LEVEL (n + 1)).detect E.THM_THROTTLE
    else if 0 < n ∧ t < 464 + 8 * (n : Int) then s.notePace.wr F.THM_STAT_LEVEL (n - 1) else s) ∧
  (∀ s : State, s.live = true → exec .peakReset s = .next (s.wr F.THM_PEAK (s.rd F.THM_STAT_TMAX)))

/-- While the clocks run: APPLY with no change waiting and a lawful set of staged repair records sets PENDING and waits
for the repair copies; with a change waiting it only fires STAGE_BUSY, and with an unlawful set only TRIM_REJECT.
Once the copies have run a change with WHEN 1 waits for the next latch; one with WHEN 0 on a head brings every
staged value into force at once, clears PENDING, notes the frame and shows DIRTY and REPAIRS again, and completes
the TRIM_RESTORE that asked for it, and where it drops a repair of a Local Memory channel the content of that memory
outside Ranger's private region becomes free values; with none waiting nothing happens. Accepted: TRIM_SAVE with an
aligned address and room writes the trim image of the values in force, to host memory or by mailbox to the tile's
own Local Memory outside the private region, and completes OK with its length (misaligned, no room or inside that
region: ADDRESS); TRIM_RESTORE of another unit's image completes with 0xC01, of an image that fails a check with
0xC02, while a change waits with 0xC04, and a good image becomes the whole staged state and waits to come into
force; MEM_BIST while a Stand is loaded or a schedule runs completes with 0xC03, and otherwise, on instances that
are no Local Memory channel, writes the repair records found, if any, and completes OK with their count and with bit
16 set where failures exceed the spares. (Cites R321, R326, R328, R390, R325.) -/
def Obligations.TrimApplies : Prop :=
  (∀ s : State, s.live = true →
    (s.trm.going.isSome = true → exec .trimApply s = .next (s.detect E.TRM_STAGE_BUSY)) ∧
    (s.trm.going = none → repairsOk (repairRecs s.staged) = false → exec .trimApply s = .next (s.detect E.TRM_TRIM_REJECT)) ∧
    (s.trm.going = none → repairsOk (repairRecs s.staged) = true → exec .trimApply s = .next
      { s.wr F.TRM_STAT_PENDING 1 with trm := { s.trm with going := some (s.on F.TRM_APPLY_WHEN, none), armed := false } }) ∧
    (s.trm.going = none → exec .trimChange s = .next s) ∧
    (∀ o : Option Desc, s.trm.going = some (true, o) →
      exec .trimChange s = .next { s with trm := { s.trm with armed := true } }) ∧
    (∀ o : Option Desc, s.isHead = true → s.trm.going = some (false, o) →
      ∃ w u v : State, w = (if s.dropsRepair = true then s.wipe else s) ∧
        u = { w with trm := { inForce := w.staged, going := none, armed := false } } ∧ v = ((u.wr F.TRM_STAT_PENDING 0).wr F.TRM_APPLY_FRAME u.frameNow.toNat).showTrim ∧
        exec .trimChange s = .next (match o with | some d => v.finish d 0xC1 0x000 | none => v))) ∧
  ((∀ (s : State) (d : Desc), s.accepts d 0xC0 .both = true → d.only [(8, 0, 64), (16, 0, 32)] = true →
    (d.num 8 8 % 64 ≠ 0 ∨ d.num 16 4 < s.trimImage.length ∨ (d.mbx = true ∧ lmOk (d.num 8 8) s.trimImage.length = false) →
      ∀ ok, exec (.trimSave d ok) s = .next (s.finish d 0xC0 0x003)) ∧
    (d.num 8 8 % 64 = 0 → s.trimImage.length ≤ d.num 16 4 →
      (d.mbx = false → exec (.trimSave d true) s =
        .next ({ s with out := .hostWrite (d.num 8 8) s.trimImage :: s.out }.finish d 0xC0 0x000 s.trimImage.length)) ∧
      (d.mbx = true → lmOk (d.num 8 8) s.trimImage.length = true → ∀ ok, exec (.trimSave d ok) s =
        .next ((s.lmWrite (d.num 8 8) s.trimImage).finish d 0xC0 0x000 s.trimImage.length)))) ∧
  (∀ (s : State) (d : Desc) (src : HostData), s.accepts d 0xC1 .both = true →
    d.only [(0, 0, 1), (8, 0, 64), (16, 0, 32)] = true → mbxRefuses d (d.num 8 8) (d.num 16 4) = false →
    (s.trm.going.isSome = true → exec (.trimRestore d src) s = .next (s.finish d 0xC1 0xC04)) ∧
    (s.trm.going = none → s.srcBad d (d.num 8 8) (d.num 16 4) = false →
      ∀ b : Bytes, s.srcBytes d (d.num 8 8) (d.num 16 4) src = ⟨b, true⟩ →
      (numAt b 8 16 ≠ s.fuses.unitId.toNat → exec (.trimRestore d src) s = .next (s.finish d 0xC1 0xC01)) ∧
      (numAt b 8 16 = s.fuses.unitId.toNat → imageOk b = false →
        exec (.trimRestore d src) s = .next (s.finish d 0xC1 0xC02)) ∧
      (numAt b 8 16 = s.fuses.unitId.toNat → imageOk b = true →
        ∃ u : State, u = ((s.starts d).stageImage b).showTrim ∧ exec (.trimRestore d src) s = .next
          { u.wr F.TRM_STAT_PENDING 1 with trm := { u.trm with going := some (d.flag 0 0, some d), armed := false } }))) ∧
  (∀ (s : State) (d : Desc) (rs : List BistResult), s.accepts d 0xC2 .both = true →
    d.only [(0, 0, 8), (1, 0, 8), (8, 0, 64), (16, 0, 16)] = true → d.num 0 1 ≤ d.num 1 1 → d.num 8 8 % 8 = 0 →
    mbxRefuses d (d.num 8 8) (8 * d.num 16 2) = false →
    (s.stp.stands ≠ [] ∨ s.on F.CLK_FRM_CTRL_RUN = true ∨ s.on F.AUD_CTRL_RUN = true →
      exec (.memBist d rs true) s = .next (s.finish d 0xC2 0xC03)) ∧
    (s.stp.stands = [] → s.on F.CLK_FRM_CTRL_RUN = false → s.on F.AUD_CTRL_RUN = false → 32 ≤ d.num 0 1 →
      ∃ (used : List BistResult) (recs : List (BitVec 64)), used = rs.take (d.num 1 1 + 1 - d.num 0 1) ∧
        recs = (used.flatMap (fun r => r.records)).take (d.num 16 2) ∧
        (∃ u v : State, u = s.detectIf (used.any (fun r => r.beyond)) E.TRM_BIST_FAIL ∧
          v = (if recs.isEmpty then u else u.returnTo d (d.num 8 8) (recs.flatMap (fun r => leBytes 8 r.toNat))) ∧
          exec (.memBist d rs true) s =
            .next (v.finish d 0xC2 0x000 (recs.length + 65536 * b2n (used.any (fun r => r.beyond))))))))

/-- While Ranger is starting with nothing loaded and no shutdown holds the device: a device whose boot source is PCIe or
the Trail enters recovery at its first start; otherwise, with a boot record without trial whose active slot passes
every check, that slot is loaded and shown as booted. When the loaded firmware runs (no trial, no waiting
descriptor, no recovery source) NOT_READY clears and Ranger is running. A dip's recovery clears the warning and the
suspension. (Cites R299, R303, R338, R339, R349, R351.) -/
def Obligations.BootAndRun : Prop :=
  (∀ s : State, s.live = true → s.power.ranger = .starting → s.seed.loaded = false → s.care.shut = false →
    s.on F.GLB_BOOT_STAT_RECOVERY = false →
    (s.on F.GLB_BOOT_STAT_NOT_READY = true → s.bootSrc ≠ 0 →
      exec .bootLoad s = .next ((s.wr F.GLB_BOOT_STAT_RECOVERY 1).detect E.GLB_RECOVERY)) ∧
    (∀ (k : Nat) (r : BootRec), s.bootSrc = 0 → s.record? = some (k, r) → r.trial = false →
      (s.showRecord r).bootable r.active = true → exec .bootLoad s = .next ((s.showRecord r).boots r.active false))) ∧
  (∀ s : State, s.live = true → s.power.ranger = .starting → s.seed.loaded = true → s.seed.source = none →
    s.care.restartDesc = none → s.seed.going = none → s.on F.SDB_STAT_TRIAL = false →
    ∃ t, exec .rangerRunning s = .next t ∧ t.power.ranger = .running ∧ t.seed.loaded = false ∧
      t.on F.GLB_BOOT_STAT_NOT_READY = false ∧ t.on F.WDG_STAT_RUNNING = true ∧ t.on F.WDG_STAT_HALTED = false ∧
      t.rd (F.TRL_FW_VERSION 0) = imgVersion (s.slotBlock s.seed.booted 0) % 2 ^ 32 ∧ t.lm = s.lm ∧ t.sdb = s.sdb ∧
      t.hq = s.hq ∧ t.stp = s.stp ∧ t.out = s.out) ∧
  (∀ s : State, s.live = true → s.seed.waiting = [] → s.trail.bcasts = [] →
    ∃ u : State, u = { s with power := { s.power with dips := 0 }, seed := { s.seed with waiting := [] } } ∧
      exec .dipRecovery s = .next ((u.wr F.SUP_STAT_BELOW_WARN 0).wr F.SUP_STAT_SDB_SUSPENDED 0))

/-- Accepted and with no dip holding Seedbank writes: IMAGE_WRITE of block 0 empties the slot not in use; a head block
that passes its checks is stored there and the slot is WRITING, one that fails completes with the check's status and
fires IMAGE_REJECT. During a trial, or while an activation goes on, IMAGE_WRITE completes with 0xB09. IMAGE_ACTIVATE
while one goes on completes with 0xB0B, of a slot that is not COMPLETE with 0xB07, and of one whose check fails with
that check's status, the slot becoming INVALID; IMAGE_CONFIRM and IMAGE_REVERT outside a trial complete with 0xB0A;
on a trial, confirming writes a record that makes the trial slot active and ends the window, and reverting falls
back (cause 3) and restarts Ranger. (Cites R333, R334, R335, R342, R344.) -/
def Obligations.ImageWrites : Prop :=
  (∀ (s : State) (d : Desc) (src : HostData), s.accepts d 0xB0 .both = true →
    d.only [(0, 0, 64), (8, 0, 32), (12, 0, 32)] = true → d.num 8 4 = 0 → d.num 12 4 = 1 → d.num 0 8 % 64 = 0 →
    mbxRefuses d (d.num 0 8) 65536 = false →
    (s.on F.SDB_STAT_TRIAL = true ∨ s.seed.going.isSome = true →
      exec (.imageWrite d src) s = .next (s.finish d 0xB0 0xB09)) ∧
    (s.on F.SDB_STAT_TRIAL = false → s.seed.going = none → s.on F.SUP_STAT_SDB_SUSPENDED = false →
      s.srcBad d (d.num 0 8) 65536 = false → (s.srcBytes d (d.num 0 8) 65536 src).ok = true →
      ∃ (b : Bytes) (u : State),
        b = (List.range 65536).map (byteAt (s.srcBytes d (d.num 0 8) 65536 src).bytes) ∧ u = s.emptySlot s.target ∧
        (∀ st, u.headStatus b = some st → exec (.imageWrite d src) s = .next (u.imageReject.finish d 0xB0 st 0)) ∧
        (u.headStatus b = none → exec (.imageWrite d src) s =
          .next ((({ u with sdb := Store.write u.sdb (0x1800000 * s.target) b } : State).setSlot s.target 1).finish d 0xB0
            0x000)))) ∧
  (∀ (s : State) (d : Desc), s.accepts d 0xB1 .both = true → d.only [(0, 0, 1), (4, 0, 32)] = true → d.num 4 4 = 0 →
    s.on F.GLB_BOOT_STAT_NOT_READY = false → s.seed.waiting = [] → s.isHead = true → s.on F.SUP_STAT_SDB_SUSPENDED = false →
    (s.seed.going.isSome = true → exec (.imageActivate d) s = .next (s.finish d 0xB1 0xB0B)) ∧ (s.seed.going = none →
    (s.slotState s.target ≠ 2 → exec (.imageActivate d) s = .next (s.finish d 0xB1 0xB07)) ∧
    (∀ st, s.slotState s.target = 2 → s.imageStatus s.target = some st →
      exec (.imageActivate d) s = .next ((s.setSlot s.target 5).imageReject.finish d 0xB1 st)))) ∧
  (∀ (s : State) (d : Desc), s.accepts d 0xB2 .both = true → d.only [] = true → s.on F.SUP_STAT_SDB_SUSPENDED = false →
    (s.on F.SDB_STAT_TRIAL = false → exec (.imageConfirm d) s = .next (s.finish d 0xB2 0xB0A)) ∧
    (s.on F.SDB_STAT_TRIAL = true →
      ∃ u v : State, u = ((s.writeRecord { s.bootRec with
          active := 1 - s.bootRec.active, trial := false, tried := false, cold := false, setCur := 1 - s.bootRec.setCur }).setSlot s.bootRec.active 2).setSlot (1 - s.bootRec.active) 3 ∧
        v = { u with seed := { u.seed with deadline := none } } ∧
        exec (.imageConfirm d) s =
          .next ((v.raiseCounter (imgSec (v.slotBlock (1 - s.bootRec.active) 0))).finish d 0xB2 0x000))) ∧
  (∀ (s : State) (d : Desc), s.accepts d 0xB3 .both = true → d.only [] = true → s.on F.SUP_STAT_SDB_SUSPENDED = false →
    (s.on F.SDB_STAT_TRIAL = false → exec (.imageRevert d) s = .next (s.finish d 0xB3 0xB0A)) ∧
    (s.on F.SDB_STAT_TRIAL = true → exec (.imageRevert d) s = .next ((s.fallBack 3).coldRestart.finish d 0xB3 0x000)))

/-- An accepted IMAGE_ACTIVATE of a COMPLETE, valid slot whose COMPAT range holds the running COMPAT writes a boot
record on trial with the chosen window (CFG.WINDOW for 0), keeps the descriptor until the new firmware runs, and
restarts Ranger; with a range that does not hold it and COLD 0 it completes with 0xB08. (Cites R335, R338.) -/
def Obligations.ActivationBegins : Prop :=
  ∀ (s : State) (d : Desc), s.accepts d 0xB1 .both = true → d.only [(0, 0, 1), (4, 0, 32)] = true → d.num 4 4 = 0 →
    s.on F.GLB_BOOT_STAT_NOT_READY = false → s.seed.waiting = [] → s.seed.going = none → s.isHead = true → s.on F.SUP_STAT_SDB_SUSPENDED = false →
    s.slotState s.target = 2 → s.imageStatus s.target = none →
    (imgCompatMin (s.slotBlock s.target 0) ≤ s.rd (F.TRL_COMPAT 0) → s.rd (F.TRL_COMPAT 0) ≤ imgCompat (s.slotBlock s.target 0) →
      ∃ u : State, u = (s.starts d).writeRecord { s.bootRec with
          active := s.seed.booted, trial := true, tried := false, cold := false, window := s.rd F.SDB_CFG_WINDOW } ∧
        exec (.imageActivate d) s =
          .next ({ u with seed := { u.seed with going := some d, report := none } } : State).coldRestart) ∧
    (s.rd (F.TRL_COMPAT 0) < imgCompatMin (s.slotBlock s.target 0) ∨ imgCompat (s.slotBlock s.target 0) < s.rd (F.TRL_COMPAT 0) →
      d.flag 0 0 = false → exec (.imageActivate d) s = .next (s.finish d 0xB1 0xB08))

/-- Accepted MIGRATION_REPORT writes the held report (none: 0 bytes) and completes OK with its length; IMAGE_BROADCAST
starts a STREAM 4 broadcast of its bytes; SDB_QUERY answers both slot states, the active slot and the trial. While
the clocks run, the end of the trial window with no IMAGE_CONFIRM fetched or waiting falls back with cause 1 and
restarts Ranger; with none open nothing happens. A scrub with Ranger running counts a corrected word, and an
uncorrectable one in a slot makes that slot INVALID and fires SCRUB_UNCORR. The TAP holds the instruction taken, one
outside its list acting as BYPASS, and the span in progress notes the pins it holds. (Cites R330, R336, R337, R340,
R341, R342, R378.) -/
def Obligations.SeedbankService : Prop :=
  (∀ (s : State) (d : Desc), s.accepts d 0xB4 .both = true → d.only [(8, 0, 64), (16, 0, 32)] = true → d.num 8 8 % 8 = 0 →
    ∀ r : Bytes, r = s.seed.report.getD [] → r.length ≤ d.num 16 4 → mbxRefuses d (d.num 8 8) r.length = false →
      exec (.migrationReport d true) s = .next ((s.returnTo d (d.num 8 8) r).finish d 0xB4 0x000 r.length)) ∧
  (∀ (s : State) (d : Desc) (src : HostData), s.accepts d 0xB5 .head = true → d.only [(0, 0, 64), (8, 0, 32)] = true →
    d.num 8 4 % 65536 = 0 → 0 < d.num 8 4 → d.num 8 4 ≤ 0x1800000 → src.ok = true →
    exec (.imageBroadcast d src) s =
      .next ((s.starts d).broadcastFor 4 ((List.range (d.num 8 4)).map (byteAt src.bytes)) d 0xB5)) ∧
  (∀ (s : State) (d : Desc), s.accepts d 0xB6 .both = true → d.only [] = true → exec (.sdbQuery d) s =
    .next (s.finish d 0xB6 0x000 (s.seed.slotA + 8 * s.seed.slotB + 64 * s.rd F.SDB_STAT_ACTIVE + 128 * s.rd F.SDB_STAT_TRIAL))) ∧
  (∀ s : State, s.live = true → s.seed.deadline = none → exec .trialWindowExpiry s = .next s) ∧
  (∀ (s : State) (c : Nat), s.live = true → s.seed.deadline = some c → s.hq.flights = [] → s.seed.waiting = [] →
    exec .trialWindowExpiry s = .next (((s.advance (c - s.core)).fallBack 1).coldRestart)) ∧
  (∀ (s : State) (a : Nat), s.live = true → s.power.ranger = .running →
    exec (.seedbankScrub a .clean) s = .next s ∧
    exec (.seedbankScrub a .corr1) s = .next s.countCorr ∧ exec (.seedbankScrub a .corr2) s = .next s.countCorr ∧
    (a < 2 * 0x1800000 → exec (.seedbankScrub a .uncorr) s =
      .next ((s.countUncorr.setSlot (a / 0x1800000) 5).detect E.SDB_SCRUB_UNCORR)) ∧
    (2 * 0x1800000 ≤ a → exec (.seedbankScrub a .uncorr) s = .next s.countUncorr)) ∧
  (∀ (s : State) (i : TapInstr), exec (.jtagInstruction i) s = .next ({ s with tap := if i = .unlisted then .bypass else i } : State).noteHiz)

/-- Accepted with well-formed operands: a Stand index or overlay number that a bank uses is refused with 0x102 or 0x104;
a Stand whose image fails a check is refused with 0x101 and STAND_REJECT, one that passes takes its index, and
unloading empties it; an overlay that fails a check is refused with that check's status and OVERLAY_REJECT, one that
passes takes its number, which is no longer marked failed, and unloading empties it. An index out of range completes
with FORMAT, and an image whose header or overlay reads with an uncorrectable error counts it and completes with
ECC. (Cites R40, R45, R47, R58.) -/
def Obligations.StandsAndOverlays : Prop :=
  (∀ (s : State) (d : Desc), s.accepts d 0x10 .both = true → d.only [(0, 0, 8), (8, 0, 64)] = true →
    (7 < d.num 0 1 → exec (.standLoad d) s = .next (s.finish d 0x10 0x002)) ∧
    (d.num 0 1 ≤ 7 → addrOk (d.num 8 8) 4096 64 = false → exec (.standLoad d) s = .next (s.finish d 0x10 0x003)) ∧
    (d.num 0 1 ≤ 7 → addrOk (d.num 8 8) 4096 64 = true →
      (s.standInUse (d.num 0 1) = true → exec (.standLoad d) s = .next (s.finish d 0x10 0x102)) ∧
      (s.standInUse (d.num 0 1) = false → s.lmBadIn (d.num 8 8) 64 = true →
        exec (.standLoad d) s = .next (s.lmUncorr.finish d 0x10 0x005)) ∧
      (s.standInUse (d.num 0 1) = false → lmOk (d.num 8 8) (numAt (s.lmRead (d.num 8 8) 64) 12 4) = true → s.lmBad = [] →
        (s.readStand (d.num 8 8) = none →
          exec (.standLoad d) s = .next ((s.detect E.STP_STAND_REJECT).finish d 0x10 0x101)) ∧
        (∀ x, s.readStand (d.num 8 8) = some x → exec (.standLoad d) s =
          .next ({ s with stp := { s.stp with stands := Map.put s.stp.stands (d.num 0 1) x } }.finish d 0x10 0x000))))) ∧
  (∀ (s : State) (d : Desc), s.accepts d 0x11 .both = true → d.only [(0, 0, 8)] = true → d.num 0 1 ≤ 7 →
    exec (.standUnload d) s = .next (if s.standInUse (d.num 0 1) then s.finish d 0x11 0x102
      else { s with stp := { s.stp with stands := Map.del s.stp.stands (d.num 0 1) } }.finish d 0x11 0x000)) ∧
  (∀ (s : State) (d : Desc), s.accepts d 0x12 .both = true → d.only [(0, 0, 8), (1, 0, 1), (8, 0, 64)] = true →
    d.num 0 1 ≤ 63 → d.flag 1 0 = false →
    (s.ovlInUse (d.num 0 1) = true →
      exec (.overlayLoad d) s = .next ((s.detect E.STP_OVERLAY_REJECT).finish d 0x12 0x104)) ∧
    (s.ovlInUse (d.num 0 1) = false →
      (∀ b, s.readOvl (d.num 8 8) = (0x005, b) → exec (.overlayLoad d) s = .next (s.lmUncorr.finish d 0x12 0x005)) ∧
      (∀ st b, s.readOvl (d.num 8 8) = (st, b) → st ≠ 0 → st ≠ 0x005 →
        exec (.overlayLoad d) s = .next ((s.detect E.STP_OVERLAY_REJECT).finish d 0x12 st)) ∧
      (∀ b, s.readOvl (d.num 8 8) = (0, b) → s.ovlSuits (parseOvl b) = true → exec (.overlayLoad d) s =
        .next ({ s with stp := { s.stp with ovls := Map.put s.stp.ovls (d.num 0 1) (parseOvl b), ovlFailed :=
          s.stp.ovlFailed &&& ~~~ (BitVec.ofNat 64 (2 ^ d.num 0 1)) } }.finish d 0x12 0x000)))) ∧
  (∀ (s : State) (d : Desc), s.accepts d 0x13 .both = true → d.only [(0, 0, 8), (1, 0, 1)] = true → d.num 0 1 ≤ 63 →
    d.flag 1 0 = false → exec (.overlayUnload d) s = .next (if s.ovlInUse (d.num 0 1) then
        (s.detect E.STP_OVERLAY_REJECT).finish d 0x13 0x104
      else { s with stp := { s.stp with ovls := Map.del s.stp.ovls (d.num 0 1), ovlFailed :=
        s.stp.ovlFailed &&& ~~~ (BitVec.ofNat 64 (2 ^ d.num 0 1)) } }.finish d 0x13 0x000))

/-- Each of the nine SHADOW descriptors, accepted: on a tile that holds a tile ID and has an Active port and whose own
host sent it, it completes with ROLE_LOCKED; otherwise, while the shadow bank is frozen, it changes nothing and
waits. (Cites R53, R80.) -/
def Obligations.ShadowGuard : Prop :=
  ∀ (i : Instr) (s : State) (d : Desc) (op : Nat) (role : OpRole), descriptorOf i = some (d, op, role) → 0x14 ≤ op →
    op ≤ 0x1C → s.accepts d op role = true →
    ((s.isTile && !d.mbx && s.on F.GLB_TILE_ID_VALID && s.anyActive) = true → exec i s = .next (s.finish d op 0x008)) ∧
    ((s.isTile && !d.mbx && s.on F.GLB_TILE_ID_VALID && s.anyActive) = false → s.on F.STP_STATE_FROZEN = true →
      exec i s = .next s)

/-- Accepted, unlocked and unfrozen, with lawful operands: SHADOW_STAND and SHADOW_OVERLAYS rebuild the working image
and mark their item; SHADOW_LAYER writes a layer record at 128 + 32 i; SHADOW_BUFFER on a tile sets the Understory;
SHADOW_TABLES on a head takes the pointers that SEL names for every tile; SHADOW_GLADE writes a Glade record;
SHADOW_PATTERN writes a region; SHADOW_DIMMER sets M and K; SHADOW_REVERT copies the active bank and forgets every
edit. Each completes OK; the active bank stays as it is. (Cites R50, R53, R58, R171, R183, R200, R216, R253, R392.) -/
def Obligations.ShadowItems : Prop :=
  ∀ (s : State) (d : Desc), s.roleLocked d = false → s.frozen = false →
    (s.accepts d 0x14 .both = true → d.only [(0, 0, 8)] = true → d.num 0 1 ≤ 7 →
      exec (.shadowStand d) s = .next (((((s.setShadowBank (s.rebuild s.stp.shadow (d.num 0 1) s.stp.shadow.ovl)).touch 1
        511 0).afterRebuild s.stp.shadow)).finish d 0x14 0x000)) ∧
    (s.accepts d 0x15 .both = true → d.only [(8, 0, 64)] = true → s.stp.shadow.stand = none →
      exec (.shadowOverlays d) s = .next (((((s.setShadowBank { s.stp.shadow with ovl := BitVec.ofNat 64 (d.num 8 8) }).touch 2
        511 0).afterRebuild s.stp.shadow)).finish d 0x15 0x000)) ∧
    (s.accepts d 0x16 .both = true → d.num 1 1 = 0 → d.only [(0, 0, 8), (1, 0, 8), (16, 0, 256)] = true → d.num 0 1 ≤ 7 →
      layerOk (d.bytes 16 32) = true →
      exec (.shadowLayer d) s = .next ((((s.setShadowBank { s.stp.shadow with
        layers := Store.write s.stp.shadow.layers (128 + 32 * d.num 0 1) (d.bytes 16 32) }).touch 3 511 0).hostEdited).finish
          d 0x16 0x000)) ∧
    (s.accepts d 0x17 .both = true → s.isTile = true → d.num 0 1 = 2 → d.num 1 1 = 0 → d.num 2 2 = 0 →
      d.only [(0, 0, 8), (1, 0, 8), (2, 0, 9), (3, 7, 1), (8, 0, 64)] = true → d.bitsAt 15 4 4 = 0 →
      exec (.shadowBuffer d) s = .next (((((s.setShadowBank { s.stp.shadow with under := ⟨underItem d, []⟩ }).untouch 4
        0).touch 4 511 0).hostEdited).finish d 0x17 0x000)) ∧
    (s.accepts d 0x18 .both = true → s.isHead = true → d.bitsAt 2 0 9 = 511 → d.bitsAt 0 0 4 = 1 →
      d.only [(0, 0, 4), (2, 0, 9), (8, 0, 64), (16, 0, 64), (24, 0, 64), (32, 0, 64)] = true → ptrOk (d.num 8 8) = true →
      exec (.shadowTables d) s = .next (((((s.setShadowBank { s.stp.shadow with
        ptrs := s.stp.shadow.ptrs.putPtrs 511 1 (d.bytes 0 40) }).untouch 5 0).touch 5 511 0).hostEdited).finish d 0x18 0x000)) ∧
    (s.accepts d 0x19 .both = true → d.num 1 1 = 0 → d.only [(0, 0, 8), (1, 0, 8), (16, 0, 256)] = true → d.num 0 1 ≤ 15 →
      gladeOk (d.bytes 16 32) = true →
      exec (.shadowGlade d) s = .next ((((s.setShadowBank { s.stp.shadow with
        glades := Store.write s.stp.shadow.glades (32 * d.num 0 1) (d.bytes 16 32) }).touch 6 511 (d.num 0 1)).hostEdited).finish
          d 0x19 0x000)) ∧
    (s.accepts d 0x1A .both = true → d.num 1 1 = 1 → d.only [(0, 0, 8), (1, 0, 8), (16, 0, 128)] = true → d.num 0 1 ≤ 7 →
      regionOk (d.bytes 16 16) = true →
      exec (.shadowPattern d) s = .next ((((s.setShadowBank { s.stp.shadow with
        pats := Store.write s.stp.shadow.pats (48 * d.num 0 1 + 32) (d.bytes 16 16) }).touch 8 511 (d.num 0 1)).hostEdited).finish
          d 0x1A 0x000)) ∧
    (s.accepts d 0x1B .both = true → d.only [(0, 0, 16), (2, 0, 16), (4, 0, 2)] = true → d.num 2 2 ≠ 0 →
      (d.bitsAt 4 0 2 = 0 → exec (.shadowDimmer d) s = .next (s.finish d 0x1B 0x002)) ∧
      (d.bitsAt 4 0 2 = 1 → exec (.shadowDimmer d) s = .next ((((s.setShadowBank { s.stp.shadow with
        dimM := d.num 0 2 }).touch 9 511 0).hostEdited).finish d 0x1B 0x000)) ∧
      (d.bitsAt 4 0 2 = 2 → exec (.shadowDimmer d) s = .next ((((s.setShadowBank { s.stp.shadow with
        dimK := d.num 2 2 }).touch 9 511 0).hostEdited).finish d 0x1B 0x000))) ∧
    (s.accepts d 0x1C .both = true → d.only [] = true →
      exec (.shadowRevert d) s = .next ((State.showShadow { s with stp := { s.stp with
        shadow := { s.stp.active with rws := [] }, dirty := [], dirtyLocal := false, hostEdit := false } }).finish d 0x1C 0x000))

/-- An accepted COMMIT with lawful operands (from a mailbox with its NAK list outside the private region) waits behind
the commits before it, and what it changes is judged when its turn comes; more than 4,096 frames ahead it completes
with COMMIT_RANGE, and from the own host of a tile on a wall with ROLE_LOCKED. COMMIT_CANCEL of the wall commit in
flight, before its decision, aborts it with ABORT_CANCEL and completes OK, and otherwise completes with TOO_LATE.
EXCLUDE_SET sets or clears one tile's bit. COMMIT_STATUS before any commit answers 0. (Cites R48, R49, R54, R56,
R57, R58, R80.) -/
def Obligations.CommitOrders : Prop :=
  (∀ (s : State) (d : Desc), s.accepts d 0x20 .both = true →
    d.only [(0, 0, 32), (4, 0, 2), (8, 0, 64), (16, 0, 16)] = true → d.num 16 2 ≤ 512 → d.num 8 8 % 8 = 0 →
    d.num 8 8 = 0 ∨ mbxRefuses d (d.num 8 8) (4 * d.num 16 2) = false →
    (s.roleLocked d = true → exec (.commit d) s = .next (s.finish d 0x20 0x008)) ∧
    (s.roleLocked d = false → d.flag 4 0 = false → later32 (d.num 0 4) s.frameNow.toNat = true →
      4096 < diff32 (d.num 0 4) s.frameNow.toNat → exec (.commit d) s = .next (s.finish d 0x20 0x115)) ∧
    (s.roleLocked d = false →
      d.flag 4 0 = true ∨ later32 (d.num 0 4) s.frameNow.toNat = false ∨ diff32 (d.num 0 4) s.frameNow.toNat ≤ 4096 →
      ∃ (c : Commit) (t : State),
        exec (.commit d) s = .next t ∧ t = { s.starts d with stp := { s.stp with commits := s.stp.commits ++ [c] } } ∧
        c.src = (if d.mbx then .mailbox else .host) ∧ c.desc = d ∧ c.asap = d.flag 4 0 ∧ c.loc = d.flag 4 1 ∧ c.phase = 0 ∧
        c.target = BitVec.ofNat 32 (d.num 0 4) ∧ c.nakAddr = d.num 8 8 ∧ c.nakMax = d.num 16 2)) ∧
  (∀ (s : State) (d : Desc), s.accepts d 0x21 .both = true → d.only [(0, 0, 16)] = true →
    (s.stp.commits = [] → exec (.commitCancel d) s = .next (s.finish d 0x21 0x114)) ∧
    (∀ (c : Commit) (rest : List Commit), s.stp.commits = c :: rest →
      (c.loc = true ∨ c.phase = 0 ∨ 3 ≤ c.phase ∨ c.id.toNat ≠ d.num 0 2 →
        exec (.commitCancel d) s = .next (s.finish d 0x21 0x114)) ∧
      (c.loc = false → c.phase = 1 ∨ c.phase = 2 → c.id.toNat = d.num 0 2 →
        exec (.commitCancel d) s = .next ((s.abortCommit c 0x112 []).finish d 0x21 0x000)))) ∧
  (∀ (s : State) (d : Desc) (t : Nat), s.accepts d 0x22 .head = true → d.only [(0, 0, 9), (2, 0, 1)] = true →
    d.bitsAt 0 0 9 = t → exec (.excludeSet d) s = .next ((s.wr (F.STP_EXCL (t / 32)) (if d.flag 2 0
      then setBit (s.rd (F.STP_EXCL (t / 32))) (t % 32) else clrBit (s.rd (F.STP_EXCL (t / 32))) (t % 32))).finish d 0x22 0x000)) ∧
  (∀ (s : State) (d : Desc), s.accepts d 0x23 .both = true → d.only [] = true → s.stp.commits = [] →
    (s.stp.lastCommit = none → exec (.commitStatus d) s = .next (s.finish d 0x23 0x000 0)) ∧
    (∀ (id : BitVec 16) (ph po : Nat) (tgt : Word), s.stp.lastCommit = some (id, ph, po, tgt) →
      exec (.commitStatus d) s = .next (s.finish d 0x23 0x000 (id.toNat + 65536 * ph + 2 ^ 19 * (po % 16) + 2 ^ 32 * tgt.toNat))))

/-- While the engines run on a head that decides: a queued wall commit whose own judgement fails ends with ABORT_NAK and
tile 511 in its NAK list; with no tile to ask, one that passes takes the next commit ID, freezes the shadow bank and
awaits the Cutoff; a good COMMIT_REPLY of a required tile is counted, and a NAK of one that is not excluded aborts
with ABORT_NAK (one of an excluded tile changes nothing); at the Cutoff of a frame the exclude list as it then
stands takes effect, and at that of the fixed frame a commit with every required ACK is decided for that frame and
announced, one that misses an ACK inside its window waits, one past its window is postponed up to the limit, and
then aborted with ABORT_TIMEOUT. (Cites R48, R49, R51, R52, R55.) -/
def Obligations.CommitPhases : Prop :=
  (∀ (s : State) (c : Commit) (rest : List Commit), s.runs = true → s.isHead = true → s.stp.commits = c :: rest →
    c.phase = 0 → s.isLocal c = false → s.frozen = false →
    (∀ why, s.judgeOwn s.stp.shadow s.shadowMode = why → why ≠ 0 →
      exec .commitPrepare s = .next (s.endCommit c 0x110 0 [(511, why)])) ∧
    (s.judgeOwn s.stp.shadow s.shadowMode = 0 → s.anyActive = false →
      exec .commitPrepare s = .next ({ s with stp := { s.stp with
        commits := { c with id := s.stp.nextId, phase := 2, sentAt := s.core, required := [] } :: rest,
        nextId := s.stp.nextId + 1 } }.wr F.STP_STATE_FROZEN 1))) ∧
  (∀ (s : State) (c : Commit) (rest : List Commit) (f : FixedStart) (missing : List Nat), s.runs = true → s.isHead = true →
    s.authority = true → s.pair.takeover = false → s.stp.commits = c :: rest → c.loc = false → c.phase = 2 →
    c.asap = true → s.frames.fixed = some f → c.required ≠ [] →
    missing = c.required.filter (fun t => !s.excluded t && !c.acks.contains t) →
    ∃ u : State, u = (s.advance (f.cycle - f.lead - s.core)).takeExcl ∧
      (missing = [] → exec .cutoff s = .next { u with stp := { u.stp with
        commits := { c with phase := 3, frame := f.num } :: rest, fieldId := c.id, fieldState := 1, fieldTarget := f.num } }) ∧
      (missing ≠ [] → f.cycle - f.lead < c.sentAt + s.rd F.STP_CFG_ACK_WIN * 16896 → exec .cutoff s = .next u) ∧
      (missing ≠ [] → c.sentAt + s.rd F.STP_CFG_ACK_WIN * 16896 ≤ f.cycle - f.lead →
        (c.postp < s.rd F.STP_CFG_POSTPONE → exec .cutoff s = .next { u with stp := { u.stp with
          commits := { c with postp := c.postp + 1 } :: rest } }) ∧
        (s.rd F.STP_CFG_POSTPONE ≤ c.postp →
          exec .cutoff s = .next (u.abortCommit c 0x111 (missing.map (fun t => (t, 0xFF))))))) ∧
  (∀ (s : State) (c : Commit) (rest : List Commit) (m : RetMsg), s.takes m 6 = true → (s.arrived m).stp.commits = c :: rest →
    c.loc = false → c.phase = 1 ∨ c.phase = 2 → c.id = BitVec.ofNat 16 (numAt m.body 2 2) → m.tile ∈ c.required →
    m.tile ∉ c.acks →
    (numAt m.body 4 1 = 0 → exec (.commitReply m) s = .next { s.arrived m with stp := { (s.arrived m).stp with
      commits := { c with acks := m.tile :: c.acks } :: rest } }) ∧
    (numAt m.body 4 1 ≠ 0 → (s.arrived m).stp.excl.getLsbD m.tile = true → exec (.commitReply m) s = .next (s.arrived m)) ∧
    (numAt m.body 4 1 ≠ 0 → (s.arrived m).stp.excl.getLsbD m.tile = false → (s.arrived m).authority = true →
      exec (.commitReply m) s = .next ((s.arrived m).abortCommit c 0x110 [(m.tile, numAt m.body 4 1)])))

/-- While the engines run: a queued local commit whose own judgement on a head passes is decided for the first frame its
Cutoff allows, under the applied commit ID, and freezes the shadow bank; one that fails ends with ABORT_NAK, and one
asked for with LOCAL whose changes reach tile items with COMMIT_RANGE. A tile that holds a complete prepare, with
the layer table it announces, the wall's applied ID and no bank retiring, judges it: content that passes is staged,
freezes the shadow bank and is answered with 0, content that fails is answered with its reason and stages nothing,
and where the applied IDs differ the answer is 9. BANK_RETIRE on a bank no work reads any more makes the shadow bank
a copy of the active one, frees the source store lines nobody needs and ends RETIRING; before that, and with no bank
retiring, it changes nothing. (Cites R38, R48, R49, R50, R52, R57, R176.) -/
def Obligations.LocalCommits : Prop :=
  (∀ (s : State) (c : Commit) (rest : List Commit), s.runs = true → s.isHead = true → s.stp.commits = c :: rest →
    c.phase = 0 → s.isLocal c = true → s.frozen = false →
    (c.loc = true → s.stp.dirty ≠ [] → exec .localCommitDecide s = .next (s.endCommit c 0x115 0 [])) ∧
    (c.loc = false ∨ s.stp.dirty = [] →
      (s.judgeOwn s.stp.shadow s.shadowMode = 0 → exec .localCommitDecide s = .next ({ s with stp := { s.stp with
        commits := { c with loc := true, phase := 3, id := BitVec.ofNat 16 (s.rd F.STP_STATE_COMMIT_ID),
                            frame := s.frameFor c } :: rest } }.wr F.STP_STATE_FROZEN 1)) ∧
      (∀ why, s.judgeOwn s.stp.shadow s.shadowMode = why → why ≠ 0 → why ≠ 8 →
        exec .localCommitDecide s = .next (s.endCommit c 0x110 0 [(511, why)])))) ∧
  (∀ (s : State) (id : BitVec 16) (bs : Bytes), s.runs = true → s.isTile = true → s.stp.prepIn = some (id, bs) →
    s.stp.staged = none → s.stp.retiring = none →
    ∃ u : State, u = { s with stp := { s.stp with prepIn := none, layerIn := none, staged := none } } ∧
      (parsePrep (bs.length + 1) bs = none →
        (s.rd F.STP_STATE_COMMIT_ID ≠ s.wallId → exec .commitValidate s = .next { u with trail := { s.trail with
          pendReply := some (retMsg 6 id.toNat (leBytes 4 9)) } }) ∧
        (s.rd F.STP_STATE_COMMIT_ID = s.wallId → exec .commitValidate s = .next { u with trail := { s.trail with
          pendReply := some (retMsg 6 id.toNat (leBytes 4 4)) } })) ∧
      (∀ (l : List PrepRec) (tbl : Bytes), parsePrep (bs.length + 1) bs = some l →
        (l.any (fun r => r.item == 3) = false ∧ s.stp.layerIn = none ∧ tbl = []) ∨ s.stp.layerIn = some (id, tbl) →
        (s.rd F.STP_STATE_COMMIT_ID ≠ s.wallId → exec .commitValidate s = .next { u with trail := { s.trail with
          pendReply := some (retMsg 6 id.toNat (leBytes 4 9)) } }) ∧
        (s.rd F.STP_STATE_COMMIT_ID = s.wallId → ∀ b : Bank,
          (u.judgePrep bs tbl = (⟨0, false⟩, b) → ∃ v : State,
            v = { u with stp := { u.stp with staged := some ⟨id, b, none⟩ } } ∧
            exec .commitValidate s = .next (((v.wr F.STP_STATE_FROZEN 1).showInterest).replyCommit id 0)) ∧
          (∀ why, why ≠ 0 → why ≠ 8 → u.judgePrep bs tbl = (⟨why, false⟩, b) →
            exec .commitValidate s = .next (u.replyCommit id why))))) ∧
  (∀ (s : State) (b : Bank), s.runs = true → s.stp.retiring = some b →
    (s.oldWork = true → exec .bankRetire s = .next s) ∧
    (s.oldWork = false → ∃ u : State, u = State.freeLines { s with stp := { s.stp with
        shadow := { s.stp.active with rws := [] }, retiring := none } } ∧
      exec .bankRetire s = .next (State.showShadow ((u.wr F.STP_STATE_RETIRING 0).wr F.STP_STATE_FROZEN
        (if s.stp.staged = none then 0 else 1))))) ∧
  (∀ s : State, s.runs = true → s.stp.retiring = none → exec .bankRetire s = .next s)

/-- While the engines run, for the oldest armed pass without a judgement of the band: a band without rows needs no
judgment; any other is judged now where its sources are ready or the pass is of the whole grid, and otherwise at its
band Compose Deadline. The composition at the front of the queue takes its work units and their pauses, writes its
emitters' words (with no uncorrectable word known in Local Memory), marks its band due (in Frame mode all 16) and
leaves the queue, and a pass with nothing left ends. A band not done in time is abandoned with COMPOSE_LATE. A
head's preview pass (no layer decimated, no uncorrectable word) writes its lines into its ring slot and reports its
unit done. An entry of the step table that is due, with none before it in the same cycle, goes 4 cycles or more
after the last one: its unit starts, or the entry waits for a busy unit; a unit that a hold state skips does not
start. A host-layer fetch that fails counts in GEN_FAIL; one whose two generations match its reference sends the
copy. (Cites R43, R44, R143, R178, R180, R181, R185, R193, R213, R231, R315.) -/
def Obligations.BandPasses : Prop :=
  (∀ (s : State) (p : Pass) (b : Nat) (pl : Place), s.runs = true → s.toJudge b = some p →
    s.placeOf p.bank = some pl →
    (p.rolling = true → pl.empty b = true → exec (.bandJudgment b) s = .next s) ∧
    (p.rolling = false ∨ (pl.empty b = false ∧ s.bandReady p b = true) →
      exec (.bandJudgment b) s = .next (s.judgeBand p b)) ∧
    (p.rolling = true → pl.empty b = false → s.bandReady p b = false →
      exec (.bandJudgment b) s = .next ((s.advance (p.fs + pl.dl.getD b 0 - s.core)).judgeBand p b))) ∧
  (∀ (s : State) (p : Pass) (b : Nat) (j : BandJ) (pl : Place), s.runs = true → s.composing b = some (p, j) →
    s.placeOf p.bank = some pl →
    ∃ t : State, t = s.composeBand p b j ∧
      (p.rolling = true → exec (.bandComposed b) s = .next t.endPasses) ∧
      (p.rolling = false → s.isTile = true → b = 0 → exec .passComplete s = .next t.endPasses) ∧
      (s.lmBad = [] → s.badEntries p.bank pl (pl.lampsOf p.rolling b) = 0 →
        ∃ u : State, u = s.advance (s.workEnd (pl.lampsOf p.rolling b).length - s.core) ∧
          t.lm = (((pl.lampsOf p.rolling b).map (fun k => (k, u.lampOf p.bank pl j k))).foldl
            (fun s x => s.correctLamp p p.bank pl x.1 x.2) u).lm ∧
          (∀ c, c < 16 → (p.rolling = false ∨ c = b) → Map.find t.cnp.due c = some p.frame) ∧
          t.cnp.queue = s.cnp.queue.drop 1 ∧ t.rd F.CNP_PASS_LAST = min (u.core - s.cnp.since) (2 ^ 24 - 1) ∧
          t.stp = { s.stp with walk := t.stp.walk })) ∧
  (∀ (s : State) (p : Pass) (b : Nat) (pl : Place), s.runs = true → s.cnp.passes = [p] → p.rolling = true →
    p.lost.contains b = false → Map.find p.bands b = none → s.placeOf p.bank = some pl → s.frameNow = p.frame + 1 →
    ∃ u : State, u = s.advance (s.frames.start + pl.dl.getD b 0 - s.core) ∧
      exec (.bandAbandon b) s = .next ((({ u with cnp := { s.cnp with
        passes := [{ p with lost := b :: p.lost }]
        due := if Map.find s.cnp.due b = some p.frame then Map.del s.cnp.due b else s.cnp.due
        since := if s.cnp.queue.head? = some (p.frame, b) then u.core else s.cnp.since
        queue := s.cnp.queue.filter (· != (p.frame, b)) } } : State).detect E.CNP_COMPOSE_LATE).endPasses)) ∧
  (∀ (s : State) (v : Preview) (o : Bytes), s.runs = true → s.isTile = false → s.cnp.preview = some v →
    Map.find s.net.pvw 0 = some o → s.lmBad = [] → (List.range 8).any (s.decimated v.bank o) = false →
    ∃ (u w : State), u = s.advance (s.workEnd (numAt o 2 2 * numAt o 4 2) - s.core) ∧
      w = (List.range (numAt o 4 2)).foldl (fun t q => t.lmWrite (numAt o 8 8 + v.frame.toNat % 2 * ringFrame (pvwFmt o) +
        q * (ceilDiv (pvwFmt o).lineBytes 64 * 64)) (u.pvwLine v o (u.pvwLines v o) q)) u ∧
      exec .passComplete s = .next ((State.retireIfDone { w with
        cnp := { w.cnp with preview := none }, net := { w.net with pvwDone := some v.frame } }).unitDone 1)) ∧
  (∀ (s : State) (i due : Nat) (e : Entry), s.runs = true → (s.entriesOf s.stp.active)[i]? = some e →
    s.stp.armed.contains i = true → s.dueAt i e = some due → s.earlierDue i due = false →
    ∃ u : State, u = s.advance (max due (match s.stp.walk.lastAt with
        | some c => c + 4
        | none => due) - s.core) ∧
      exec (.stepDispatch i) s = .next (
        if u.isTile = true ∧ skipped u.holdState e.unit = true then u.dispatched i e
        else if (u.runUnit e).1 = true then
          State.dispatched { (u.runUnit e).2 with stp := { (u.runUnit e).2.stp with imgBad := false } } i e
        else (u.runUnit e).2.waitsUnit i)) ∧
  (∀ (s : State) (k r : Nat) (n g h : Word) (o : Bytes) (x : HostData), s.live = true → s.isHead = true →
    s.cnp.fetching.find? (fun f => f.1 == k) = some (k, n, r) → Map.find s.stp.active.bufs (64 + k) = some o →
    ∃ (u : State) (sz c : Nat), u = { s with cnp := { s.cnp with fetching := s.cnp.fetching.filter (fun f => f.1 != k) } } ∧
      sz = numAt o 16 4 * (srcFmt (s.srcCfg k)).height ∧ c = numAt o 32 8 + n.toNat % 2 * (ceilDiv sz 4096 * 4096) ∧
      (x.ok = false → exec (.hostFetchComplete k g x h) s = .next ((u.inc F.CNP_GEN_FAIL).detect E.CNP_HOST_FETCH)) ∧
      (x.ok = true → ∃ w : State, w = u.lmWrite c (x.bytes.take sz) ∧
        (g.toNat = numAt o 20 4 → h.toNat = numAt o 20 4 → exec (.hostFetchComplete k g x h) s =
          .next (State.startOut { w with cnp := { w.cnp with staged := Map.put w.cnp.staged k n } } k 2 c n)) ∧
        (¬ (g.toNat = numAt o 20 4 ∧ h.toNat = numAt o 20 4) → exec (.hostFetchComplete k g x h) s =
          .next ((w.inc F.CNP_GEN_FAIL).detect E.CNP_GEN_MISMATCH))))

/-- While the engines run, for the oldest pass in which the Glade is armed and without verdict: once every band it meets
is composed its signature is shown; a match of a Glade that is not latched only counts the verdict; a mismatch sets
GLADE_STICKY and GLADE_MISMATCH, counts, with REACT 1 or 2 fires GLADE_ALERT, and with REACT 2 asks for a
substitution and, with LATCH in a pass of the active bank, latches; before that the command changes nothing. With no
uncorrectable word known in Local Memory and no truth preview, the substitution writes the substitute at each lamp
of the Glade on the tile that no lower-numbered substituting Glade holds and whose band is not lost. On a tile
GLADE_RELEASE drops the latches named; a head ignores it. (Cites R201, R203, R204, R206, R207.) -/
def Obligations.GladeVerdicts : Prop :=
  (∀ (s : State) (p : Pass) (pl : Place) (i : Nat) (g : Bytes), s.runs = true →
    s.cnp.passes.find? (fun p => bit p.armed i && !bit p.verdicts i) = some p → s.placeOf p.bank = some pl → p.bank.glade i = g →
    (p.signed pl g = false → exec (.gladeVerdict i) s = .next s) ∧
    (p.signed pl g = true → ∃ (u v w : State) (q : Pass),
      u = (s.wr (F.CNP_GLADE_SIG i) (p.sign pl g).toNat).wr F.CNP_GLADE_FRAME p.frame.toNat ∧
      v = ((u.raise F.CNP_GLADE_STICKY i).inc (F.CNP_GLADE_MISS i)).detect E.CNP_GLADE_MISMATCH ∧
      w = v.detect E.CNP_GLADE_ALERT ∧ q = { p with verdicts := setBit p.verdicts i } ∧
      ((p.sign pl g).toNat = numAt (p.bank.gladeTile i) 0 4 → bit (s.latchedFor p) i = false →
        exec (.gladeVerdict i) s = .next (u.setPass q).endPasses) ∧
      ((p.sign pl g).toNat ≠ numAt (p.bank.gladeTile i) 0 4 →
        (bits (numAt g 0 1) 2 2 = 0 → exec (.gladeVerdict i) s = .next (v.setPass q).endPasses) ∧
        (bits (numAt g 0 1) 2 2 = 1 → exec (.gladeVerdict i) s = .next (w.setPass q).endPasses) ∧
        (bits (numAt g 0 1) 2 2 = 2 → bit (numAt g 0 1) 4 = false → exec (.gladeVerdict i) s =
          .next (w.setPass { q with subst := setBit p.subst i }).endPasses) ∧
        (bits (numAt g 0 1) 2 2 = 2 → bit (numAt g 0 1) 4 = true → p.old = false → exec (.gladeVerdict i) s =
          .next (State.endPasses (State.setPass { w with cnp := { w.cnp with latched := setBit w.cnp.latched i } }
            { q with subst := setBit p.subst i, latched := setBit p.latched i })))))) ∧
  (∀ (s : State) (p : Pass) (pl : Place) (i : Nat), s.runs = true → s.cnp.passes.find? (fun p => bit p.subst i) = some p →
    s.lmBad = [] → s.placeOf p.bank = some pl → Map.find s.net.pvw 2 = none →
    ∃ (ks : List Nat) (t : State),
      ks = (gladeLamps pl (p.bank.glade i)).filter (fun k =>
        !(List.range i).any (fun j => (bit p.subst j || bit p.subd j) &&
          gladeHolds (p.bank.glade j) (pl.at k).1 (pl.at k).2) &&
        !(p.rolling && p.lost.contains (pl.bandOf (k / pl.u)))) ∧
      t = ks.foldl (fun t k =>
        let v := t.substValue p.bank i k
        let r := t.correctLamp p p.bank pl k v
        { r with cnp := { r.cnp with work := Map.set r.cnp.work k v 0 } }) s ∧
      exec (.substitutionDone i) s =
        .next (t.setPass { p with subst := clrBit p.subst i, subd := setBit p.subd i }).endPasses) ∧
  (∀ (s : State) (v : Word), s.live = true → (s.isHead = true → exec (.gladeRelease v) s = .next s) ∧
    (s.isHead = false → exec (.gladeRelease v) s = .next { s with cnp := { s.cnp with
      latched := andNot s.cnp.latched (v.toNat % 65536)
      passes := s.cnp.passes.map (fun p => { p with latched := andNot p.latched (v.toNat % 65536) }) } }))

/-- While the engines run, a script run in progress that no reset cut ends at its start plus its length of 8 CK_CORE
cycles a CK_SCAN cycle: it closes, and where its sub-frame is the frame's last the spans of its group's branches are
compared, and with no run left a Census frame is complete. With no run of the group, or one that a reset cut,
nothing happens. (Cites R228, R235, R238, R243.) -/
def Obligations.ScriptRunEnds : Prop :=
  ∀ (s : State) (g : Nat) (pads bri : List (Nat × List Bool)), s.runs = true →
    (Map.find s.brn.runs g = none → exec (.scriptRunEnd g pads bri) s = .next s) ∧
    (∀ (r : Run) (c : Nat), Map.find s.brn.runs g = some r → r.cut = some c → exec (.scriptRunEnd g pads bri) s = .next s) ∧
    (∀ r : Run, Map.find s.brn.runs g = some r → r.cut = none →
      ∃ t u v : State, t = s.advance (r.start + 8 * (s.playRun g r (2 ^ 40)).2 - s.core) ∧
        u = t.closeRun g r (2 ^ 40) pads bri ∧ v = (branchesOf g).foldl State.compareSpan u ∧
        exec (.scriptRunEnd g pads bri) s =
          .next (if r.sub + 1 ≠ u.refresh then u else if v.brn.runs = [] then v.censusDone else v))

/-- While the clocks run. A doorbell word inside its ring becomes the queue's tail and one at or past DEPTH only fires
DB_RANGE. A fetch from the queue R69 serves moves its head on by one entry and puts the descriptor in flight,
forwards it where the queue is a mailbox, and completes it at once where its dispatch refuses it; a fetch that fails
halts the queue with FETCH_ERR and leaves one completion with TAG 0 and PCIE_ERROR. A head word that a polling
device reads (fewer than an eighth of the entries free, or a post that waits) is taken unless it is past DEPTH,
which fires DB_RANGE; a post that would leave no free entry waits for such a read. An event entry that waits is
posted first; else the next finished flight of a completion queue is posted as 32 bytes at its tail; a full queue
fires CQ_FULL and keeps it waiting; a posting that fails halts the queue with CQ_WRITE_ERR; a QUIET flight that is
OK posts nothing. Posting moves the tail, flips PHASE at the wrap and sends the vector as CCOUNT says, and CTIME
later the timer sends it. HQS.ACQ_HEAD follows the same range rule. HQS.CTRL sets EN; while EN is 0 the admin pair
takes its bases from its HI writes and its depths 2^4 to 2^14; the admin vector is taken at any time. (Cites R63,
R65, R66, R68, R69, R71, R73, R82, R382, R393.) -/
def Obligations.QueueRings : Prop :=
  (∀ (s : State) (l : List (Nat × Word)), s.live = true →
    exec (.doorbellPoll l) s = .next (if s.serves = true then l.foldl (fun s w => s.doorbell w.1 w.2) s else s)) ∧
  (∀ (s : State) (i : Nat) (w : Word) (q : Sq), s.sq i = some q → s.on F.GLB_BOOT_STAT_NOT_READY = false ∨ i = 0 →
    s.doorbell i w = if w.toNat < q.depth then s.setSq i { q with tail := w.toNat } else s.detect E.HQS_DB_RANGE) ∧
  (∀ (s : State) (i : Nat) (q : Sq) (x : HostData), s.live = true → s.serves = true → s.nextSq = some i → s.sq i = some q →
    (x.ok = false → exec (.descriptorFetch x) s = .next ((((s.serveOne i q).setSq i { q with halted := true }).detect
      E.HQS_FETCH_ERR).fetchLost i q)) ∧
    (x.ok = true → ∃ (op : Nat) (d : Desc) (u : State), parseDesc i false ((q.head + 1) % q.depth) x.bytes = (op, d) ∧
      u = ((s.serveOne i q).setSq i { q with head := (q.head + 1) % q.depth }).takeOff op d ∧
      (q.mailbox = true → exec (.descriptorFetch x) s = .next (u.forward (i - 512) op d)) ∧
      (q.mailbox = false → (u.dispatchStatus op d = none → exec (.descriptorFetch x) s = .next u) ∧
        (∀ st, u.dispatchStatus op d = some st → exec (.descriptorFetch x) s = .next (u.finish d op st))))) ∧
  (∀ (s : State) (i : Nat) (q : Sq), ∃ f : Flight, (s.fetchLost i q).hq.flights = s.hq.flights ++ [f] ∧ f.sq = i ∧ f.tag = 0 ∧
    f.cq = q.cq ∧ f.done.map (·.status) = some 0x004 ∧ (s.fetchLost i q).regs = s.regs) ∧
  (∀ (s : State) (i : Nat) (c : Cq) (w : Word) (ok : Bool), s.live = true → s.cq i = some c →
    (s.needsHead i = true → exec (.completionPost i none ok) s = .next s) ∧
    (s.needsHead i = false → exec (.completionPost i none ok) s = .next (s.post i ok)) ∧
    (i ≠ 0 → s.on F.HQS_CTRL_EN = true → exec (.completionPost i (some w) ok) s =
      .next (State.post (if c.depth ≤ w.toNat then s.detect E.HQS_DB_RANGE else s.setCq i { c with head := w.toNat }) i ok)) ∧
    (i = 0 ∨ s.on F.HQS_CTRL_EN = false → exec (.completionPost i (some w) ok) s = .next (s.post i ok))) ∧
  (∀ (s : State) (i : Nat) (c : Cq) (ok : Bool), s.cq i = some c → c.halted = false →
    (∀ e, s.hq.events.find? (·.1 == i) = some e → s.post i ok =
      if c.full = true then s.detect E.HQS_CQ_FULL
      else if ok = false then State.detect (s.setCq i { c with halted := true }) E.HQS_CQ_WRITE_ERR
      else State.postEntry { s with hq := { s.hq with events := s.hq.events.erase e } } i c (withPhase e.2)) ∧
    (∀ (f : Flight) (r : Done), s.hq.events.find? (·.1 == i) = none → postable i s.hq.flights [] = some f → f.done = some r →
      s.post i ok = if f.flags.getLsbD 1 = true ∧ r.status = 0 then (s.digest f r.status).landed f
        else if c.full = true then s.detect E.HQS_CQ_FULL
        else if ok = false then State.detect (s.setCq i { c with halted := true }) E.HQS_CQ_WRITE_ERR
        else ((s.digest f r.status).landed f).postEntry i c (f.entry r))) ∧
  (∀ (s : State) (i : Nat) (c : Cq) (e : Bool → Bytes), ∃ k : Cq, k = { c with
      tail := (c.tail + 1) % c.depth
      phase := if (c.tail + 1) % c.depth = 0 then !c.phase else c.phase
      unsig := if c.irqEn = true ∧ c.coalCount ≤ c.unsig + 1 then 0 else c.unsig + 1
      unsigAt := if c.unsig = 0 then s.core else c.unsigAt } ∧
    s.postEntry i c e = if c.irqEn = true ∧ c.coalCount ≤ c.unsig + 1
      then ((s.emit (.hostWrite (c.base + 32 * c.tail) (e c.phase))).setCq i k).sendVector c.vector
      else (s.emit (.hostWrite (c.base + 32 * c.tail) (e c.phase))).setCq i k) ∧
  (∀ (s : State) (i : Nat) (c : Cq) (w : Word), s.live = true → s.cq i = some c →
    (s.readsHead i c = false → exec (.headWordRead i w) s = .next s) ∧
    (i ≠ 0 → s.on F.HQS_CTRL_EN = true → 8 * c.free < c.depth ∨ s.postWaits i c = true → exec (.headWordRead i w) s =
      .next (if c.depth ≤ w.toNat then s.detect E.HQS_DB_RANGE else s.setCq i { c with head := w.toNat })) ∧
    (i = 0 → exec (.acqHeadWrite w) s = .next (if c.depth ≤ w.toNat then s.detect E.HQS_DB_RANGE
      else (s.wr F.HQS_ACQ_HEAD w.toNat).setCq 0 { c with head := w.toNat })) ∧
    (c.irqEn = true → 0 < c.coalTime → 0 < c.unsig → exec (.coalesceTimer i) s =
      .next (((s.advance (c.unsigAt + 16 * c.coalTime - s.core)).setCq i { c with unsig := 0 }).sendVector c.vector)) ∧
    exec (.hqsEnable w) s = .next (s.wr F.HQS_CTRL_EN (w.toNat % 2))) ∧
  (∀ (s : State) (v : Word) (q : Sq) (c : Cq), s.live = true → s.on F.HQS_CTRL_EN = false → s.sq 0 = some q → s.cq 0 = some c →
    (∀ off ∈ [0x30040, 0x30050, 0x30060], exec (.adminQueueSetup off v) s =
      .next { s with hq := { s.hq with loHeld := Map.put s.hq.loHeld off v } }) ∧
    exec (.adminQueueSetup 0x30044 v) s = .next (s.writeHi F.HQS_ASQ_BASE_LO F.HQS_ASQ_BASE_HI 4096 v).syncAsq ∧
    exec (.adminQueueSetup 0x30054 v) s = .next (s.writeHi F.HQS_ACQ_BASE_LO F.HQS_ACQ_BASE_HI 4096 v).syncAcq ∧
    exec (.adminQueueSetup 0x30064 v) s = .next (s.writeHi F.HQS_DB_BASE_LO F.HQS_DB_BASE_HI 4096 v) ∧
    exec (.adminQueueSetup 0x30048 v) s = .next (if 4 ≤ v.toNat % 16 ∧ v.toNat % 16 ≤ 14
      then (s.wr F.HQS_ASQ_CFG_DEPTH_LOG2 (v.toNat % 16)).syncAsq else s) ∧
    ∃ u : State, u = (s.wr F.HQS_ACQ_CFG_VECTOR (v.toNat / 256 % 256)).setCq 0 { c with vector := v.toNat / 256 % 256 } ∧
      exec (.adminQueueSetup 0x30058 v) s = .next (if 4 ≤ v.toNat % 16 ∧ v.toNat % 16 ≤ 14
        then (u.wr F.HQS_ACQ_CFG_DEPTH_LOG2 (v.toNat % 16)).syncAcq else u)) ∧
  (∀ (s : State) (v : Word) (c : Cq), s.live = true → s.on F.HQS_CTRL_EN = true → s.cq 0 = some c →
    exec (.adminQueueSetup 0x30058 v) s = .next ((s.wr F.HQS_ACQ_CFG_VECTOR (v.toNat / 256 % 256)).setCq 0
      { c with vector := v.toNat / 256 % 256 }) ∧
    (∀ off, off ≠ 0x30058 → exec (.adminQueueSetup off v) s = .next s))

/-- Each accepted: NOP completes OK, and with FORMAT where an operand bit is set. Each queue management opcode on
another queue than SQ 0 completes with NOT_ADMIN. On SQ 0 with lawful operands: SQ_CREATE gives the free index its
ring, empty, bound to the completion queue named (index 0, above 1,023 or in use, or no such completion queue:
QUEUE_ID; a base off 4 KiB: ADDRESS; a depth or burst out of range, or a mailbox index below 512: FORMAT); CQ_CREATE
likewise; SQ_DELETE (not of a queue already being deleted) ends the queue's unstarted descriptors with ABORT_DELETE,
and removes the queue and completes when the started ones have (whether a forwarded mailbox descriptor counts as
started is the model's choice, log entry 175); CQ_DELETE of a queue that an SQ is bound to completes with QUEUE_BUSY
and otherwise removes it; QUEUE_QUERY answers indexes and HALTED. (Cites R63, R66, R67, R73, R75, R76.) -/
def Obligations.AdminQueues : Prop :=
  (∀ (s : State) (d : Desc), s.accepts d 0x00 .both = true →
    exec (.nop d) s = .next (s.finish d 0x00 (if d.only [] = true then 0x000 else 0x002))) ∧
  (∀ (s : State) (d : Desc), d.sq ≠ 0 →
    (s.accepts d 1 .both = true → exec (.sqCreate d) s = .next (s.finish d 1 0x007)) ∧
    (s.accepts d 2 .both = true → exec (.sqDelete d) s = .next (s.finish d 2 0x007)) ∧
    (s.accepts d 3 .both = true → exec (.cqCreate d) s = .next (s.finish d 3 0x007)) ∧
    (s.accepts d 4 .both = true → exec (.cqDelete d) s = .next (s.finish d 4 0x007)) ∧
    (s.accepts d 5 .both = true → exec (.queueQuery d) s = .next (s.finish d 5 0x007))) ∧
  (∀ (s : State) (d : Desc), d.sq = 0 → s.accepts d 1 .both = true →
    d.only [(0, 0, 64), (8, 0, 16), (10, 0, 8), (11, 0, 8), (12, 0, 2), (12, 4, 1), (13, 0, 8)] = true →
    (d.num 10 1 < 4 ∨ 14 < d.num 10 1 ∨ d.num 13 1 < 1 ∨ 64 < d.num 13 1 →
      exec (.sqCreate d) s = .next (s.finish d 1 0x002)) ∧
    (4 ≤ d.num 10 1 → d.num 10 1 ≤ 14 → 1 ≤ d.num 13 1 → d.num 13 1 ≤ 64 →
      (d.flag 12 4 = true → d.num 8 2 < 512 ∨ s.isTile = true → exec (.sqCreate d) s = .next (s.finish d 1 0x002)) ∧
      (d.flag 12 4 = false ∨ (512 ≤ d.num 8 2 ∧ s.isTile = false) →
        (d.num 0 8 % 4096 ≠ 0 → exec (.sqCreate d) s = .next (s.finish d 1 0x003)) ∧
        (d.num 0 8 % 4096 = 0 →
          (d.num 8 2 = 0 ∨ 1023 < d.num 8 2 ∨ (s.sq (d.num 8 2)).isSome = true ∨ s.cq (d.num 11 1) = none →
            exec (.sqCreate d) s = .next (s.finish d 1 0x006)) ∧
          (d.num 8 2 ≠ 0 → d.num 8 2 ≤ 1023 → s.sq (d.num 8 2) = none → (s.cq (d.num 11 1)).isSome = true →
            ∃ u : State, u = s.setSq (d.num 8 2) {
              base := d.num 0 8, depth := 2 ^ d.num 10 1, cq := d.num 11 1, prio := d.bitsAt 12 0 2, mailbox := d.flag 12 4,
              burst := d.num 13 1, head := 0, tail := 0, halted := false } ∧
            exec (.sqCreate d) s = .next (State.finish (if d.flag 12 4 = true ∧ Map.find s.trail.links (d.num 8 2 - 512) = none
              then u.setLink (d.num 8 2 - 512) .fresh else u) d 1 0x000)))))) ∧
  (∀ (s : State) (d : Desc), d.sq = 0 → s.accepts d 2 .both = true → d.only [(0, 0, 16)] = true →
    (d.num 0 2 = 0 ∨ s.sq (d.num 0 2) = none ∨ s.hq.deleting.any (·.1 == d.num 0 2) = true →
      exec (.sqDelete d) s = .next (s.finish d 2 0x006)) ∧
    (d.num 0 2 ≠ 0 → (s.sq (d.num 0 2)).isSome = true → s.hq.deleting.any (·.1 == d.num 0 2) = false → ∃ u v : State,
      u = s.abortFlights (d.num 0 2) 0x00A (fun f => !f.started) ∧
      v = { u with hq := { u.hq with deleting := u.hq.deleting ++ [(d.num 0 2, d)] } } ∧
      exec (.sqDelete d) s = .next (settleDeletes v.hq.deleting v))) ∧
  (∀ (s : State) (i : Nat) (d : Desc), ∃ v : State, v = settleDeletes [(i, d)] s ∧
    (s.hq.flights.any (fun f => f.sq == i && f.done.isNone) = true → v = s) ∧
    (s.hq.flights.any (fun f => f.sq == i && f.done.isNone) = false →
      v.hq.sqs = Map.del s.hq.sqs i ∧ v.hq.deleting = s.hq.deleting.erase (i, d) ∧ v.hq.cqs = s.hq.cqs ∧ v.regs = s.regs ∧
      ∃ r : Done, r.status = 0 ∧ v.hq.flights = markDone s.hq.flights d 2 0 r)) ∧
  (∀ (s : State) (d : Desc), d.sq = 0 → s.accepts d 3 .both = true →
    d.only [(0, 0, 64), (8, 0, 64), (16, 0, 8), (17, 0, 8), (18, 0, 8), (19, 0, 1), (20, 0, 16), (22, 0, 16)] = true →
    4 ≤ d.num 17 1 → d.num 17 1 ≤ 14 → 1 ≤ d.num 20 2 → d.num 20 2 ≤ 256 →
    (d.num 0 8 % 4096 ≠ 0 ∨ d.num 8 8 % 4 ≠ 0 → exec (.cqCreate d) s = .next (s.finish d 3 0x003)) ∧
    (d.num 0 8 % 4096 = 0 → d.num 8 8 % 4 = 0 →
      (d.num 16 1 = 0 ∨ (s.cq (d.num 16 1)).isSome = true → exec (.cqCreate d) s = .next (s.finish d 3 0x006)) ∧
      (d.num 16 1 ≠ 0 → s.cq (d.num 16 1) = none → exec (.cqCreate d) s = .next ((s.setCq (d.num 16 1) {
        base := d.num 0 8, depth := 2 ^ d.num 17 1, headAddr := d.num 8 8, vector := d.num 18 1, irqEn := d.flag 19 0, coalCount := d.num 20 2,
        coalTime := d.num 22 2, tail := 0, phase := true, head := 0, halted := false, unsig := 0, unsigAt := 0 }).finish
          d 3 0x000)))) ∧
  (∀ (s : State) (d : Desc), d.sq = 0 → s.accepts d 4 .both = true → d.only [(16, 0, 8)] = true →
    (d.num 16 1 = 0 ∨ s.cq (d.num 16 1) = none → exec (.cqDelete d) s = .next (s.finish d 4 0x006)) ∧
    (d.num 16 1 ≠ 0 → (s.cq (d.num 16 1)).isSome = true →
      exec (.cqDelete d) s = .next (if s.hq.sqs.any (fun x => x.2.cq == d.num 16 1) then s.finish d 4 0x00C
        else { s with hq := { s.hq with cqs := Map.del s.hq.cqs (d.num 16 1) } }.finish d 4 0x000))) ∧
  (∀ (s : State) (d : Desc), d.sq = 0 → s.accepts d 5 .both = true → d.only [(0, 0, 16), (16, 0, 8)] = true →
    (1023 < d.num 0 2 → exec (.queueQuery d) s = .next (s.finish d 5 0x006)) ∧
    (∀ (q : Sq) (c : Cq), d.num 0 2 ≤ 1023 → s.sq (d.num 0 2) = some q → s.cq (d.num 16 1) = some c →
      exec (.queueQuery d) s = .next (s.finish d 5 0x000 (q.head + 2 ^ 14 * q.tail + (if q.halted then 2 ^ 28 else 0) + 2 ^ 29 +
        (2 ^ 32 * c.tail + 2 ^ 46 * c.head + (if c.halted then 2 ^ 60 else 0) + 2 ^ 61)))))

/-- An accepted LOCAL_WRITE of a range inside reach stores exactly the host's bytes at its addresses, every other byte
of Local Memory reads as before, and it completes OK; where the host read fails it completes with PCIE_ERROR and
only bytes of the range may differ (free values). LOCAL_READ writes those bytes to host memory and changes no byte,
or completes with ECC where the range holds a double-bit word. Both complete with ADDRESS where the range leaves
Local Memory or touches Ranger's private region. A BAR4 write through the aperture stores each byte that lies in
reach and no other; a BAR4 read changes nothing. (Cites R60, R61, R77.) -/
def Obligations.LocalBytes : Prop :=
  (∀ (s : State) (d : Desc) (x : HostData) (a n : Nat), s.accepts d 0x35 .both = true →
    d.only [(8, 0, 64), (16, 0, 64), (24, 0, 32)] = true → d.num 8 8 = a → d.num 24 4 = n → 1 ≤ n → n ≤ 16777216 →
    (lmOk a n = false → exec (.localWrite d x) s = .next (s.finish d 0x35 0x003)) ∧
    (lmOk a n = true → ∃ t : State,
      exec (.localWrite d x) s = .next (t.finish d 0x35 (if x.ok then 0x000 else 0x004)) ∧
      (x.ok = true → ∀ k, k < n → Store.get t.lm (a + k) = byteAt x.bytes k) ∧
      (∀ b, b < a ∨ a + n ≤ b → Store.get t.lm b = Store.get s.lm b) ∧ t.regs = s.regs ∧ t.sdb = s.sdb)) ∧
  (∀ (s : State) (d : Desc) (a n : Nat), s.accepts d 0x36 .both = true →
    d.only [(8, 0, 64), (16, 0, 64), (24, 0, 32)] = true → d.num 8 8 = a → d.num 24 4 = n → 1 ≤ n → n ≤ 16777216 →
    (lmOk a n = false → ∀ ok, exec (.localRead d ok) s = .next (s.finish d 0x36 0x003)) ∧
    (lmOk a n = true → s.lmBadIn a n = true → ∀ ok, exec (.localRead d ok) s = .next (s.lmUncorr.finish d 0x36 0x005)) ∧
    (lmOk a n = true → s.lmBadIn a n = false → exec (.localRead d false) s = .next (s.finish d 0x36 0x004) ∧
      exec (.localRead d true) s = .next ({ s with out := .hostWrite (d.num 16 8) (s.lmRead a n) :: s.out }.finish d 0x36 0x000))) ∧
  (∀ (s : State) (off len : Nat) (bs : Bytes), s.live = true → s.power.pcie = true → off + bs.length ≤ 2 ^ 28 →
    ∃ t : State, exec (.bar4Access off (some bs) len) s = .next t ∧
      (∀ k (h : k < bs.length), lmOk (s.aperture + off + k) 1 = true → Store.get t.lm (s.aperture + off + k) = bs[k]) ∧
      (∀ b, b < s.aperture + off ∨ s.aperture + off + bs.length ≤ b ∨ lmOk b 1 = false →
        Store.get t.lm b = Store.get s.lm b) ∧ t.regs = s.regs ∧ t.sdb = s.sdb ∧ t.hq = s.hq) ∧
  (∀ (s : State) (off len : Nat), s.live = true → exec (.bar4Access off none len) s = .next s)

/-- Each accepted: a tile ID above 511 completes with FORMAT, a register offset that is not a multiple of 4 and a range
out of reach with ADDRESS, and an unreachable tile with TILE_UNREACHABLE. Otherwise MBX_RESYNC ends what is
outstanding at the tile with TILE_UNREACHABLE and sends RESYNC with SEQ 0; TILE_REG_READ, TILE_REG_WRITE and
TILE_READ put their request on the tile's link and wait for the answer to it; TILE_WRITE puts the host's bytes there
in REMOTE_WRITEs and waits for the acknowledgement of the last. After RETX Trail cycles without progress the
unacknowledged slots go out again, and after RETRIES of these the tile is unreachable: what is outstanding ends and
TILE_UNREACHABLE fires. (Cites R61, R76, R78, R79.) -/
def Obligations.HeadMailbox : Prop :=
  (∀ (s : State) (d : Desc), s.accepts d 0x30 .head = true → d.only [(0, 0, 16)] = true →
    (511 < d.num 0 2 → exec (.mbxResync d) s = .next (s.finish d 0x30 0x002)) ∧
    (d.num 0 2 ≤ 511 → ∃ u : State, u = (s.starts d).dropLink (d.num 0 2) ∧ exec (.mbxResync d) s =
      .next ((u.setLink (d.num 0 2) { u.link (d.num 0 2) with
        unacked := [(0, resyncPayload)], since := u.core, resync := some d }).queueUni (d.num 0 2) resyncPayload))) ∧
  (∀ (s : State) (d : Desc) (l : MbxLink), s.accepts d 0x31 .head = true → d.only [(0, 0, 16), (4, 0, 32)] = true →
    (d.num 4 4 % 4 ≠ 0 → exec (.tileRegRead d) s = .next (s.finish d 0x31 0x003)) ∧
    (d.num 4 4 % 4 = 0 → 511 < d.num 0 2 → exec (.tileRegRead d) s = .next (s.finish d 0x31 0x002)) ∧
    (d.num 4 4 % 4 = 0 → d.num 0 2 ≤ 511 → s.link (d.num 0 2) = l →
      (l.unreachable = true → exec (.tileRegRead d) s = .next (s.finish d 0x31 0x009)) ∧
      (l.unreachable = false → exec (.tileRegRead d) s = .next (((s.starts d).setLink (d.num 0 2) { l with
        regs := l.regs ++ [(l.lastSeq, d)] }).linkSend (d.num 0 2) (regPayload 3 (d.num 4 4) 0 0))))) ∧
  (∀ (s : State) (d : Desc) (l : MbxLink), s.accepts d 0x32 .head = true →
    d.only [(0, 0, 16), (4, 0, 32), (8, 0, 32), (12, 0, 32)] = true → d.num 4 4 % 4 = 0 → d.num 0 2 ≤ 511 →
    s.link (d.num 0 2) = l →
    (l.unreachable = true → exec (.tileRegWrite d) s = .next (s.finish d 0x32 0x009)) ∧
    (l.unreachable = false → exec (.tileRegWrite d) s = .next (((s.starts d).setLink (d.num 0 2) { l with
      regs := l.regs ++ [(l.lastSeq, d)] }).linkSend (d.num 0 2) (regPayload 4 (d.num 4 4) (d.num 8 4) (d.num 12 4))))) ∧
  (∀ (s : State) (d : Desc) (x : HostData) (a n t : Nat), s.accepts d 0x33 .head = true →
    d.only [(0, 0, 16), (8, 0, 64), (16, 0, 64), (24, 0, 32)] = true → d.num 0 2 = t → d.num 8 8 = a → d.num 24 4 = n →
    1 ≤ n → n ≤ 1048576 →
    (lmOk a n = false → exec (.tileWrite d x) s = .next (s.finish d 0x33 0x003)) ∧
    (lmOk a n = true → t ≤ 511 → (s.link t).unreachable = false →
      (x.ok = false → exec (.tileWrite d x) s = .next ((s.starts d).finish d 0x33 0x004)) ∧
      (x.ok = true → ∃ ps : List Bytes, ps = remotePayloads a ((List.range n).map (byteAt x.bytes)) n ∧
        exec (.tileWrite d x) s = .next (((s.starts d).setLink t { s.link t with
          waiting := (s.link t).waiting ++ ps
          writes := (s.link t).writes ++ [((s.link t).lastSeq + BitVec.ofNat 16 (ps.length - 1), d)] }).pumpLink t)))) ∧
  (∀ (s : State) (d : Desc) (a n t : Nat), s.accepts d 0x34 .head = true →
    d.only [(0, 0, 16), (8, 0, 64), (16, 0, 64), (24, 0, 32)] = true → d.num 0 2 = t → d.num 8 8 = a → d.num 24 4 = n →
    1 ≤ n → n ≤ 65536 →
    (lmOk a n = false → exec (.tileRead d) s = .next (s.finish d 0x34 0x003)) ∧
    (lmOk a n = true → t ≤ 511 → (s.link t).unreachable = false → exec (.tileRead d) s =
      .next (((s.starts d).setLink t { s.link t with reads := (s.link t).reads ++ [(d, a, n)] }).linkSend t
        (6 :: List.replicate 7 0 ++ leBytes 8 a ++ leBytes 4 n ++ List.replicate 220 0)))) ∧
  (∀ (s : State) (t : Nat) (l : MbxLink), s.live = true → s.link t = l →
    (l.unacked = [] → exec (.mbxRetransmit t) s = .next s) ∧
    (l.unacked ≠ [] → ∃ u : State, u = s.advance (l.since + s.rd F.HQS_MBX_CFG_RETX * 16896 - s.core) ∧
      (l.retx < s.rd F.HQS_MBX_CFG_RETRIES → exec (.mbxRetransmit t) s = .next (l.unacked.foldl (fun v q => v.queueUni t q.2)
        (u.setLink t { l with retx := l.retx + 1, since := u.core }))) ∧
      (s.rd F.HQS_MBX_CFG_RETRIES ≤ l.retx → exec (.mbxRetransmit t) s =
        .next (((u.setLink t { l with unreachable := true }).dropLink t).detect E.HQS_TILE_UNREACHABLE))))

/-- A slot that passes goes out of the other port first (R112). A good class-3 slot for this tile with the expected SEQ
then counts as taken, makes an acknowledgement due and moves the expected SEQ on by one; then MAILBOX stores its
descriptors in the ring and the doorbell word behind them, REMOTE_WRITE stores its bytes, REG_READ answers the
register's value or ADDRESS, REG_WRITE writes it, READ_REQ answers the bytes or, out of reach, a length of 0; an
ill-formed one only counts MBX_BAD. A SEQ already taken counts as a duplicate, a later one is dropped, and so is one
for another tile, or one that comes before any RESYNC. RESYNC makes 1 the expected SEQ and empties the mailbox (that
its unfinished descriptors end without a completion is the model's choice, log entry 173). The poll fetches up to
the doorbell word. (Cites R78, R79, R80, R104, R112, R386.) -/
def Obligations.TileMailbox : Prop :=
  (∀ (s : State) (k i : Nat) (b q : Bytes), slotBody b = q →
    (s.takesSlot k i b 1 = true → ∃ u : State, u = s.tookSlot k i b ∧
      (1 ≤ numAt q 10 1 → numAt q 10 1 ≤ 3 → numAt q 8 2 ≤ 1023 → zeroAt q 11 5 = true → zeroAt q 208 32 = true →
        exec (.mailbox k i b) s = .next ((u.ringWrite (q.drop 16) (numAt q 8 2) (numAt q 10 1)).lmWrite u.twin
          (leBytes 4 ((numAt q 8 2 + numAt q 10 1) % 1024)))) ∧
      (numAt q 10 1 < 1 ∨ 3 < numAt q 10 1 ∨ 1023 < numAt q 8 2 ∨ zeroAt q 11 5 = false ∨ zeroAt q 208 32 = false →
        exec (.mailbox k i b) s = .next (u.inc F.HQS_MBX_BAD))) ∧
    (s.takesSlot k i b 2 = true → ∃ u : State, u = s.tookSlot k i b ∧ exec (.remoteWrite k i b) s =
      .next (if 1 ≤ numAt q 16 2 ∧ numAt q 16 2 ≤ 216 ∧ zeroAt q 18 6 = true ∧ lmOk (numAt q 8 8) (numAt q 16 2) = true
        then u.lmWrite (numAt q 8 8) ((q.drop 24).take (numAt q 16 2)) else u.inc F.HQS_MBX_BAD)) ∧
    (s.takesSlot k i b 3 = true → zeroAt q 12 228 = true → ∃ u : State, u = s.tookSlot k i b ∧
      (numAt q 8 4 % 4 ≠ 0 ∨ rowsAt (numAt q 8 4) = [] →
        exec (.regRead k i b) s = .next (u.pushMsg (regReplyMsg (numAt q 2 2) 0 0x003))) ∧
      (numAt q 8 4 % 4 = 0 → rowsAt (numAt q 8 4) ≠ [] → exec (.regRead k i b) s =
        .next ((u.regRead (numAt q 8 4)).2.pushMsg (regReplyMsg (numAt q 2 2) (u.regRead (numAt q 8 4)).1 0x000)))) ∧
    (s.takesSlot k i b 4 = true → zeroAt q 20 220 = true → numAt q 8 4 % 4 = 0 → rowsAt (numAt q 8 4) ≠ [] →
      ∃ (u : State) (v : Nat), u = s.tookSlot k i b ∧ exec (.regWrite k i b) s =
        .next ((u.drawn.regWrite (numAt q 8 4) (numAt q 12 4) (numAt q 16 4) true).pushMsg (regReplyMsg (numAt q 2 2) v 0x000))) ∧
    (s.takesSlot k i b 6 = true → ∃ u : State, u = s.tookSlot k i b ∧
      (numAt q 16 4 < 1 ∨ 65536 < numAt q 16 4 ∨ zeroAt q 20 220 = false →
        exec (.readReq k i b) s = .next (u.inc F.HQS_MBX_BAD)) ∧
      (1 ≤ numAt q 16 4 → numAt q 16 4 ≤ 65536 → zeroAt q 20 220 = true →
        exec (.readReq k i b) s = .next (if lmOk (numAt q 8 8) (numAt q 16 4)
          then u.sendData (numAt q 8 8) (u.lmRead (numAt q 8 8) (numAt q 16 4)) 293
          else u.pushReply (retMsg 5 0 (leBytes 8 (numAt q 8 8) ++ [0, 0, 0, 0]))))) ∧
    (∀ p : State, s.pass k i b = p → s.receives k b 3 = true → p.forMe b = true → class3Head b = true →
      (numAt q 0 1 = 5 → numAt q 1 3 = 0 → zeroAt q 4 236 = true → ∃ u : State, u = p.taken k ∧ exec (.resync k i b) s =
        .next (State.lmWrite { u with
          trail := { u.trail with expect := some 1, ackDue := true, mbxHead := 0, mbxPost := 0, mbxFly := [] } } u.twin [0, 0, 0, 0])) ∧
      (∀ e : BitVec 16, numAt q 0 1 = 2 → p.trail.expect = some e → numAt q 2 2 ≠ e.toNat →
        exec (.remoteWrite k i b) s = .next (if later16 e.toNat (numAt q 2 2 % 65536)
          then State.dup { p with trail := { p.trail with ackDue := true } } k
          else { p with trail := { p.trail with ackDue := true } })) ∧
      (∀ j ∈ [Instr.mailbox k i b, .remoteWrite k i b, .regRead k i b, .regWrite k i b, .readReq k i b, .resync k i b],
        p.trail.expect = none → numAt q 0 1 ≠ 5 → exec j s = .next p)) ∧
    (∀ p : State, s.pass k i b = p → s.receives k b 3 = true → p.forMe b = false →
      ∀ j ∈ [Instr.mailbox k i b, .remoteWrite k i b, .regRead k i b, .regWrite k i b, .readReq k i b, .resync k i b],
        exec j s = .next p)) ∧
  (∀ s : State, s.live = true → s.isHead = false → s.on F.GLB_BOOT_STAT_NOT_READY = false →
    exec .tileMailboxPoll s = .next (s.fetchTo (leNat (s.lmRead s.twin 4) % 1024) 1023))

/-- A message is taken once, from a good slot: a copy of one already taken keeps its tile on the port's roster and, once
a slot, counts SLOT_DUP; an ill-formed one counts SLOT_HDR_BAD. A fresh good one acts: MBX_ACK retires the slots
before its SEQ (while a RESYNC waits, only SEQ 1 acknowledges it) and completes what waited for them; COMPLETION
completes the descriptor it names with its own status, result, frame and time; REG_REPLY completes its register
opcode; EVENT is posted to the event queue, whose write may fail and halt it, and is dropped and counted without one
(a halted queue counts as a full one: the model's choice, log entry 172); READ_DATA goes to host memory and
completes its TILE_READ with its last bytes; BCAST_GAP queues the missing slots again on each port it comes by,
before what waits there; LOCK_REPORT becomes the tile's current report. (Cites R54, R76, R79, R80, R81, R105, R115,
R123, R355.) -/
def Obligations.TileAnswers : Prop :=
  (∀ (s u : State) (m : RetMsg) (ok : Bool) (i : Instr) (kind : Nat), (i, kind) ∈ [(.mbxAck m, 1), (.completion m, 2),
      (.regReply m, 3), (.event m ok, 4), (.readData m ok, 5), (.commitReply m, 6), (.lockReport m, 7), (.bcastGap m, 8)] →
    s.live = true → s.retSlot m = u →
    (u.takesRet m = false ∨ m.msg = none → exec i s = .next u) ∧
    (∀ (good : Bool) (b : Bytes), u.takesRet m = true → m.msg = some (good, b) →
      (good = true → numAt b 0 1 ≠ kind → exec i s = .next u) ∧
      (good = false ∨ (numAt b 0 1 = kind ∧ kind ≠ 8) → u.freshRet m = false →
        exec i s = .next ((if m.idx = 0 then u.inc (F.GLB_SLOT_DUP m.port) else u).hear m.port m.tile)) ∧
      (good = false → u.freshRet m = true →
        exec i s = .next (((u.noted m).inc (F.GLB_SLOT_HDR_BAD m.port)).detect E.GLB_HDR_BAD)))) ∧
  (∀ (s : State) (m : RetMsg) (u : State) (l : MbxLink), s.arrived m = u → u.link m.tile = l →
    (s.takes m 1 = true → ∃ (gone : BitVec 16 → Bool) (done : List Desc) (v : State),
      gone = (fun q => if l.resync.isSome then numAt m.body 2 2 == 1 else later16 (numAt m.body 2 2) q.toNat) ∧
      ((∀ x ∈ l.unacked, gone x.1 = false) → exec (.mbxAck m) s = .next u) ∧
      (l.unacked ≠ [] → (∀ x ∈ l.unacked, gone x.1 = true) →
        done = (l.writes.filter (fun w => gone w.1)).map (·.2) ++ l.resync.toList ∧
        v = u.setLink m.tile { l with
          unacked := [], since := u.core, retx := 0, writes := l.writes.filter (fun w => !gone w.1), resync := none
          unreachable := l.unreachable && l.resync.isNone } ∧
        exec (.mbxAck m) s = .next ((done.foldl (fun v d => v.finishIf d 0x000) v).pumpLink m.tile))) ∧
    (∀ (a : Nat) (d : Desc) (op : Nat), s.takes m 2 = true → l.out = [(a, d)] → numAt m.body 24 2 = (a + 1) % 1024 →
      ∃ (v : State) (r : Done), v = u.setLink m.tile { l with out := [] } ∧
        r = { status := numAt m.body 30 2 % 4096, result := BitVec.ofNat 64 (numAt m.body 16 8),
              frame := BitVec.ofNat 32 (numAt m.body 12 4), time := BitVec.ofNat 32 (numAt m.body 8 4), fromTile := some m.tile } ∧
        (v.opOf d = some op → exec (.completion m) s = .next (settleDeletes v.hq.deleting
          { v with hq := { v.hq with flights := markDone v.hq.flights d op (v.cqOf d.sq) r } }))) ∧
    (∀ (q : BitVec 16) (d : Desc), s.takes m 3 = true → l.regs = [(q, d)] → q.toNat = numAt m.body 2 2 →
      ∃ v : State, v = u.setLink m.tile { l with regs := [] } ∧
        exec (.regReply m) s = .next (v.finishIf d (numAt m.body 8 2 % 4096) (if v.opOf d = some 0x31 then numAt m.body 4 4 else 0))) ∧
    (∀ ok : Bool, s.takes m 4 = true →
      (u.on F.HQS_EVT_CQ_EN = false ∨ u.cq (u.rd F.HQS_EVT_CQ_CQ) = none → exec (.event m ok) s = .next (u.inc F.HQS_EVT_DROP)) ∧
      (∀ c, u.on F.HQS_EVT_CQ_EN = true → u.cq (u.rd F.HQS_EVT_CQ_CQ) = some c →
        (c.full = true ∨ c.halted = true → exec (.event m ok) s = .next ((u.inc F.HQS_EVT_DROP).detect E.HQS_EVT_OVERFLOW)) ∧
        (ok = false → c.full = false → c.halted = false → exec (.event m ok) s =
          .next (State.detect (u.setCq (u.rd F.HQS_EVT_CQ_CQ) { c with halted := true }) E.HQS_CQ_WRITE_ERR)) ∧
        (ok = true → c.full = false → c.halted = false → exec (.event m ok) s = .next (u.postEntry (u.rd F.HQS_EVT_CQ_CQ) c (fun ph =>
          cplBytes 0 (BitVec.ofNat 32 (numAt m.body 12 4)) (BitVec.ofNat 32 (numAt m.body 16 4))
            (BitVec.ofNat 64 (numAt m.body 4 4 + 2 ^ 32 * numAt m.body 8 1)) 0 0 0 true (some m.tile) 0 ph))))) ∧
    (∀ (d : Desc) (n : Nat), s.takes m 5 = true → l.reads = [(d, numAt m.body 4 8, n)] →
      (numAt m.body 12 2 = 0 → ∀ ok, exec (.readData m ok) s = .next ((u.setLink m.tile { l with reads := [] }).finishIf d 0x003)) ∧
      (numAt m.body 12 2 ≠ 0 → exec (.readData m false) s = .next ((u.setLink m.tile { l with reads := [] }).finishIf d 0x004)) ∧
      (numAt m.body 12 2 ≠ 0 → ∃ v : State, v = u.emit (.hostWrite (d.num 16 8 + (numAt m.body 4 8 - d.num 8 8))
          ((m.body.drop 16).take (numAt m.body 12 2))) ∧
        (n ≤ numAt m.body 12 2 → exec (.readData m true) s = .next ((v.setLink m.tile { l with reads := [] }).finishIf d 0x000)) ∧
        (numAt m.body 12 2 < n → exec (.readData m true) s = .next (v.setLink m.tile { l with
          reads := [(d, numAt m.body 4 8 + numAt m.body 12 2, n - numAt m.body 12 2)] })))) ∧
    (s.takes m 7 = true → exec (.lockReport m) s =
      .next { u with trail := { u.trail with locks := Map.put u.trail.locks m.tile m.body } }) ∧
    (∀ p : State, s.retSlot m = p → s.live = true → p.again m = true → p.asked m = false →
      exec (.bcastGap m) s = .next (p.heard m)) ∧
    (∀ (p w : State) (ps : List Bytes), s.retSlot m = p →
      (s.takes m 8 = true ∧ w = u.served m) ∨ (s.live = true ∧ p.again m = true ∧ p.asked m = true ∧ w = (p.heard m).served m) →
      (w.trail.sent.find? (fun x => x.1 == numAt m.body 4 1 && x.2.1 == numAt m.body 2 2) = none → exec (.bcastGap m) s = .next w) ∧
      (w.trail.sent.find? (fun x => x.1 == numAt m.body 4 1 && x.2.1 == numAt m.body 2 2) =
          some (numAt m.body 4 1, numAt m.body 2 2, ps) →
        (w.authority = false → exec (.bcastGap m) s = .next w) ∧
        (w.authority = true → ∃ qs : List QBcast,
          qs = ((List.range ps.length).filter (fun i =>
            decide (numAt m.body 8 4 ≤ i) && decide (i < numAt m.body 8 4 + numAt m.body 12 4))).map
            (fun i => ⟨w.core, numAt m.body 4 1, numAt m.body 2 2, i, ps.length, ps.getD i []⟩) ∧
          exec (.bcastGap m) s = .next (w.setPort m.port { w.port m.port with bc := qs ++ (w.port m.port).bc })))))

/-- While the engines run, on a port of the device: CTRL.EN starts it at Detect (at Dormant while CTRL.DORMANT is set);
Detect senses at entry and then every INTERVAL Trail cycles, and a sensed termination leads to Train, whose settings
are taken at its entry; the end of Train leads to Lock with its adaptation stored, block lock on every lane to
Deskew, and a deskew that holds over two marker rounds within 32 stripes to Capability. PRBS31 restarts the Train
count once. A timeout of Lock, Deskew or Capability, and what comes later than it, leads to Detect with cause 6 and
BRINGUP_FAIL. Two equal good copies of the partner's message are accepted: they are shown, judged for refusal, and
READY follows; a bad CRC only fires CAP_CRC. With both ends ready, and two copies of its own message sent with
PEER_SEEN and READY, a port enters Active; a tile that a locked or feeding partner serves then slews to it, and one
that entered Night by itself leaves it. CTRL.DORMANT ends a port, an Active one with its Trail cycle; clearing it,
or activity on a port that is not held there, starts a wake with its burst; the relock, within 10,071 CK_SYS cycles,
enters Train with the fast time. In any other state each of these changes nothing but what the blocks it brings
count. That a port whose DORMANT is cleared before its Trail cycle ends stays Active is the model's choice (log
entry 156). (Cites R25, R85, R89, R90, R91, R92, R93, R94, R97, R98, R100, R249.) -/
def Obligations.LinkBringUp : Prop :=
  (∀ (s : State) (k c : Nat), s.enterState k c = (s.wr (F.TRL_STAT_STATE k) c).setPort k { s.port k with
    since := s.core, seenPrbs := false, senses := 0
    cfg := if c = 1 ∨ c = 2 then (s.wr (F.TRL_STAT_STATE k) c).portCfg k else (s.port k).cfg
    rx := if c = 3 then Port.fresh.rx else (s.port k).rx }) ∧
  (∀ (s : State) (k st : Nat), s.runs = true → k < s.portCount → s.rd (F.TRL_STAT_STATE k) = st →
    exec (.trlEnable k) s = .next (if st = 0 then (s.wr (F.TRL_CTRL_EN k) 1).enterState k
        (if (s.wr (F.TRL_CTRL_EN k) 1).on (F.TRL_CTRL_DORMANT k) = true then 7 else 1) else s.wr (F.TRL_CTRL_EN k) 1) ∧
    (st ≠ 1 → ∀ b, exec (.detectSense k b) s = .next s) ∧
    (st = 1 → ∃ (n : Nat) (u : State), n = max (s.port k).senses (ceilDiv (s.core - (s.port k).since) ((s.port k).cfg.interval * 16896)) ∧
      u = s.advance ((s.port k).since + n * ((s.port k).cfg.interval * 16896) - s.core) ∧
      exec (.detectSense k true) s = .next ((u.enterState k 2).setPort k { (u.enterState k 2).port k with fast := false }) ∧
      (0 < (s.port k).cfg.interval → exec (.detectSense k false) s = .next (u.setPort k { s.port k with senses := n + 1 }))) ∧
    (∀ (inv : Byte) (n : Nat),
      (st ≠ 2 → exec (.trainEnd k inv n) s = .next s) ∧
      (st = 2 → ∃ u v w : State, u = s.advance ((s.port k).since + (if (s.port k).fast then (s.port k).cfg.fast
          else (s.port k).cfg.time) * 16896 - s.core) ∧
        v = u.wr (F.TRL_PRBS_ERR k) (min n (2 ^ 32 - 1)) ∧
        w = (if v.on (F.TRL_CTRL_POL_AUTO k) then v.wrHard (F.TRL_POL_INV k) inv.toNat else v).enterState k 3 ∧
        exec (.trainEnd k inv n) s = .next (w.setPort k { w.port k with adapted := true, fast := false }))) ∧
    (st = 2 → (s.port k).seenPrbs = true → exec (.prbsDetect k) s = .next s) ∧
    (st = 2 → (s.port k).seenPrbs = false → exec (.prbsDetect k) s =
      .next ((s.setPort k { s.port k with since := s.core, seenPrbs := true }).wr (F.TRL_STAT_SIGNAL k) 1)) ∧
    (st = 3 ∨ st = 4 ∨ st = 5 → ∃ u : State, u = (s.dropPort k 2).wr (F.TRL_STAT_LAST_CAUSE k) 2 ∧
      exec (.prbsDetect k) s = .next (u.setPort k { u.port k with seenPrbs := true, fast := false })) ∧
    (st ≠ 2 → st ≠ 3 → st ≠ 4 → st ≠ 5 → exec (.prbsDetect k) s = .next s) ∧
    (∀ rx : List (List Block), ∃ u : State, u = s.takeBlocks k rx ∧
      (st ≠ 3 → exec (.blockLock k rx) s = .next u) ∧
      (st = 3 → exec (.blockLock k rx) s = .next (if (s.port k).since + (s.port k).cfg.lockTo * 16896 < s.core then u.bringupFail k
        else if lanesLocked (s.badBlocks k rx) = true then
          ((u.wr (F.TRL_STAT_BLOCK_LOCK k) 0xFF).wr (F.TRL_STAT_SIGNAL k) 1).enterState k 4 else u)) ∧
      (∀ r1 r2 : List (Nat × Block),
        (st ≠ 4 → exec (.deskewDone k r1 r2 rx) s = .next u) ∧
        (st = 4 → (s.port k).since + 8 * 16896 < s.core → exec (.deskewDone k r1 r2 rx) s = .next (u.bringupFail k)) ∧
        (st = 4 → s.core ≤ (s.port k).since + 8 * 16896 → deskewHolds r1 r2 = false → exec (.deskewDone k r1 r2 rx) s = .next u) ∧
        (st = 4 → s.core ≤ (s.port k).since + 8 * 16896 → deskewHolds r1 r2 = true → ∃ v : State,
          v = ((((u.wr (F.TRL_STAT_DESKEWED k) 1).wr (F.TRL_LANE_MAP k) (laneMapOf r2)).wr (F.TRL_SKEW k)
            ((roundOffs r2).foldl max 0)).wr (F.TRL_STAT_REFUSE k) 0).enterState k 5 ∧
          exec (.deskewDone k r1 r2 rx) s = .next (v.setPort k { v.port k with offs := roundOffs r2 }))) ∧
      exec (.lockTimeout k rx) s = .next (if st = 3 then
        (u.advance ((s.port k).since + (s.port k).cfg.lockTo * 16896 - s.core)).bringupFail k else u) ∧
      exec (.deskewTimeout k rx) s = .next (if st = 4 then (u.advance ((s.port k).since + 8 * 16896 - s.core)).bringupFail k else u) ∧
      exec (.capTimeout k rx) s = .next (if st = 5 then
        (u.advance ((s.port k).since + (s.port k).cfg.capTo * 16896 - s.core)).bringupFail k else u) ∧
      (∀ a b : Bytes,
        (st ≠ 5 → exec (.capabilityAccept k a b rx) s = .next u) ∧
        (st = 5 → (s.port k).since + (s.port k).cfg.capTo * 16896 < s.core →
          exec (.capabilityAccept k a b rx) s = .next (u.bringupFail k)) ∧
        (st = 5 → s.core ≤ (s.port k).since + (s.port k).cfg.capTo * 16896 →
          (capCrcOk a = false ∨ capCrcOk b = false → exec (.capabilityAccept k a b rx) s = .next (u.detect (E.TRL_CAP_CRC k))) ∧
          (capCrcOk a = true → capCrcOk b = true → a ≠ b → exec (.capabilityAccept k a b rx) s = .next u) ∧
          (capCrcOk a = true → a = b → ∃ (v w x : State) (code : Nat),
            v = (List.range 14).foldl (fun s n => s.wr (F.TRL_CAP_RX k n) (numAt a (4 * n) 4)) u ∧
            w = v.setPort k { v.port k with since := v.core } ∧ code = w.capRefuse k a ∧
            x = (((w.wr (F.TRL_STAT_ACCEPTED k) 1).wr (F.TRL_STAT_REFUSE k) code).wr
              (F.TRL_STAT_PEER_REFUSE k) (numAt a 5 1)).wr (F.TRL_STAT_READY_PEER k) (bits (numAt a 4 1) 1 1) ∧
            exec (.capabilityAccept k a b rx) s = .next ((x.refreshPort k).detectIf (code != 0) (E.TRL_CAP_REFUSED k)))))) ∧
    (s.activeOk k = false → st ≠ 6 → exec (.portActive k) s = .next s) ∧
    (s.activeOk k = true → (s.port k).since + (s.port k).cfg.capTo * 16896 < s.core →
      exec (.portActive k) s = .next (s.bringupFail k)) ∧
    (s.activeOk k = true → s.core ≤ (s.port k).since + (s.port k).cfg.capTo * 16896 → ∃ u v w x y : State,
      u = s.advance ((s.port k).readySince.getD s.core + 132 - s.core) ∧ v = (u.keepCap k).enterState k 6 ∧
      w = v.setPort k { v.port k with readySince := none, left := none, berRun := 0 } ∧
      x = (if w.isTile = true ∧ (bits (numAt (w.capRx k) 1 1) 0 2 = 0 ∨ bits (numAt (w.capRx k) 3 1) 0 3 = 2 ∨
          bits (numAt (w.capRx k) 3 1) 0 3 = 3) ∧ (w.rd F.CLK_ROOT_STAT_REF = 0 ∨ w.rd F.CLK_ROOT_STAT_REF = 4)
        then w.slewTo k else w) ∧
      y = (x.rootChanged.takePosition k).feedUpdate ∧ exec (.portActive k) s =
        .next (if y.portActive k = true ∧ y.isTile = true ∧ y.hold.byHost = false then y.leaveNight else y)) ∧
    (∃ u : State, u = s.wr (F.TRL_CTRL_DORMANT k) 1 ∧
      (st = 0 → exec (.dormantEnter k) s = .next u) ∧
      (st = 7 → exec (.dormantEnter k) s = .next (u.setPort k { u.port k with sleeping := false })) ∧
      (1 ≤ st → st ≤ 5 → exec (.dormantEnter k) s = .next (u.toDormant k)) ∧
      (st = 6 → exec (.dormantEnter k) s = .next (u.setPort k { u.port k with closing := some true }))) ∧
    (∃ u : State, u = s.wr (F.TRL_CTRL_DORMANT k) 0 ∧ exec (.dormantClear k) s = .next (State.wakeAll
      (if (s.port k).closing = some true then u.setPort k { u.port k with closing := none } else u) k)) ∧
    (st ≠ 7 → exec (.wakeDetect k) s = .next s) ∧
    (st = 7 → s.on (F.TRL_CTRL_DORMANT k) = true → exec (.wakeDetect k) s = .next (s.detect (E.TRL_WAKE_IGNORED k))) ∧
    (st = 7 → s.on (F.TRL_CTRL_DORMANT k) = false → exec (.wakeDetect k) s = .next (s.wakeAll k)) ∧
    (st = 7 → s.on (F.TRL_CTRL_DORMANT k) = false → s.isHead = true → (s.port k).sleeping = false → ∃ u : State,
      u = s.setPort k { s.port k with since := s.core, sleeping := true } ∧
      s.wakeAll k = (if s.on (F.TRL_CTRL_RETIMED k) = true then u else u.emit (.burst k))) ∧
    (st ≠ 7 ∨ (s.port k).sleeping = false ∨ s.on (F.TRL_CTRL_DORMANT k) = true → exec (.wakeRelock k) s = .next s) ∧
    (st = 7 → (s.port k).sleeping = true → s.on (F.TRL_CTRL_DORMANT k) = false → ∃ (n : Nat) (u : State), n ≤ 10071 * 16 ∧
      u = (s.drawn.advance ((s.port k).since + n - s.core)).enterState k 2 ∧
      exec (.wakeRelock k) s = .next (u.setPort k { u.port k with sleeping := false, fast := true })))

/-- While the engines run, on a port of the device: signal loss leads to Detect with cause 1; block lock loss (16
invalid sync headers in 64 blocks of a lane), deskew loss (markers missing or their offsets changed at two
consecutive positions), HI_BER (BER_CFG.CYCLES Trail cycles of BER_CFG.THRESH invalid headers or more) and
CTRL.RETRAIN lead to Train with causes 2, 3, 4 and 5. The first three act in Deskew and Capability too, HI_BER in
Active alone, RETRAIN in every state but Off and Dormant; one that coincides with an exit for a higher cause takes
its place. A port whose DORMANT is set goes on to Dormant. An exit from Active counts in RETRAINS; each loss sets
its sticky bit; the feed is judged again. CTRL.EN = 0 puts the port in Off. SLEEP stripes put it in Dormant with
cause 7 and PEER_SLEEP, and a tile's other Active port ends with its Trail cycle. A port that leaves shows no block
lock, deskew or message flag. (Cites R89, R94, R95, R96, R97.) -/
def Obligations.LinkLeaves : Prop :=
  (∀ l : List Bool, laneLost l = true ↔ ∃ i, 16 ≤ ((l.drop i).take 64).count true) ∧
  (∀ (s : State) (k : Nat) (l : List (Nat × Block)), s.roundLost k l = true ↔
    (∃ x ∈ l, blockMarks x.2 = false) ∨ roundOffs l ≠ (s.port k).offs) ∧
  (∀ (s : State) (k st : Nat), s.runs = true → k < s.portCount → s.rd (F.TRL_STAT_STATE k) = st →
    (∀ (rx : List (List Block)) (r1 r2 : List (Nat × Block)),
      ∃ (u : State) (f : Nat → Bool → Nat × Nat → State), u = s.takeBlocks k rx ∧
      (∀ cause lost e, f cause lost e =
        if lost = true ∧ (st = 6 ∨ st = 4 ∨ st = 5 ∨ ((st = 1 ∨ st = 2) ∧ (s.leftNow k).isSome = true))
        then ((u.exitActive k cause 2).detect e).feedUpdate else u) ∧
      exec (.lockLoss k rx) s = .next (f 2 ((s.badBlocks k rx).any laneLost) (E.TRL_LOCK_LOSS k)) ∧
      exec (.deskewLoss k r1 r2 rx) s = .next (f 3 (s.roundLost k r1 && s.roundLost k r2) (E.TRL_DESKEW_LOSS k))) ∧
    (∃ u : State, u = s.wr (F.TRL_STAT_SIGNAL k) 0 ∧ exec (.signalLoss k) s = .next
      (if st = 6 ∨ st = 4 ∨ st = 5 ∨ ((st = 1 ∨ st = 2) ∧ (s.leftNow k).isSome = true)
      then ((u.exitActive k 1 1).detect (E.TRL_SIGNAL_LOSS k)).feedUpdate else u)) ∧
    ((s.port k).berRun < (s.port k).cfg.berCycles → exec (.hiBer k) s = .next s) ∧
    ((s.port k).cfg.berCycles ≤ (s.port k).berRun → exec (.hiBer k) s = .next
      (if st = 6 ∨ ((st = 1 ∨ st = 2) ∧ (s.leftNow k).isSome = true)
      then ((s.exitActive k 4 2).detect (E.TRL_HI_BER k)).feedUpdate else s)) ∧
    (st = 0 ∨ st = 7 ∨ s.on (F.TRL_CTRL_DORMANT k) = true → exec (.retrain k) s = .next s) ∧
    (st ≠ 0 → st ≠ 7 → s.on (F.TRL_CTRL_DORMANT k) = false → exec (.retrain k) s = .next (s.exitActive k 5 2).feedUpdate) ∧
    (∃ u : State, u = ((s.wr (F.TRL_CTRL_EN k) 0).dropPort k 0).wr (F.TRL_STAT_SIGNAL k) 0 ∧
      exec (.trlDisable k) s = .next (if st = 6 then u.feedUpdate else u)) ∧
    (st = 0 ∨ st = 7 → exec (.peerSleep k) s = .next s) ∧
    (2 ≤ st → st ≤ 6 → ∃ u : State, u = (s.toDormant k).detect (E.TRL_PEER_SLEEP k) ∧ exec (.peerSleep k) s =
      .next (State.feedUpdate (if u.isTile = true ∧ u.portActive (1 - k) = true then u.setPort (1 - k)
        { u.port (1 - k) with closing := some ((u.port (1 - k)).closing == some true) } else u)))) ∧
  (∀ (s : State) (k cause nxt : Nat),
    (∀ q, s.leftNow k = some q → q ≤ cause → s.exitActive k cause nxt = s) ∧
    ((∀ q, s.leftNow k = some q → cause < q) → k < 4 → nxt < 8 → cause < 8 → ∃ t : State, s.exitActive k cause nxt = t ∧
      t.rd (F.TRL_STAT_STATE k) = (if s.on (F.TRL_CTRL_DORMANT k) = true then 7 else nxt) ∧
      t.rd (F.TRL_STAT_LAST_CAUSE k) = cause ∧ t.rd (F.TRL_STAT_BLOCK_LOCK k) = 0 ∧
      t.rd (F.TRL_STAT_DESKEWED k) = 0 ∧ t.rd (F.TRL_STAT_READY_LOCAL k) = 0 ∧ t.rd (F.TRL_STAT_READY_PEER k) = 0 ∧
      t.rd (F.TRL_STAT_ACCEPTED k) = 0 ∧
      t.rd (F.TRL_RETRAINS k) = (if s.rd (F.TRL_STAT_STATE k) = 6 then min (s.rd (F.TRL_RETRAINS k) + 1) (2 ^ 32 - 1)
        else s.rd (F.TRL_RETRAINS k)) ∧
      t.lm = s.lm ∧ t.sdb = s.sdb ∧ t.core = s.core ∧ t.hq = s.hq))

/-- Descrambling what the scrambler sent, from the same last 58 bits, gives the bits back and leaves the same bits. The
marker of a logical lane is valid and names its lane, whatever its BIP byte. A stripe's byte 8L + j is byte j of
lane L. The blocks a command brings count their invalid sync headers, summed over the lanes, in SYNC_ERR and their
BIP mismatches in BIP_ERR, which stop at 2^32 - 1, and move the receive lanes on; nothing else changes. (Cites R84,
R85, R86, R87.) -/
def Obligations.LaneBlocks : Prop :=
  (∀ (st : BitVec 58) (l : List Bool), descramble st (scramble st l).1 = (l, (scramble st l).2)) ∧
  (∀ (lane : Nat) (bip : Byte) (b : Block), lane < 8 → b.header = 0b10 → blockBytes b = laneMarker lane bip →
    blockMarks b = true ∧ blockLane b = lane) ∧
  (∀ (ls : List Bytes) (i : Nat), (∀ x ∈ ls, x.length = 8) → i < ls.length → laneOf (stripeOf ls) i = ls.getD i []) ∧
  (∀ (s : State) (k : Nat) (rx : List (List Block)), k < 4 → rx ≠ [] → ∃ t : State, s.takeBlocks k rx = t ∧
    t.rd (F.TRL_SYNC_ERR k) = min (s.rd (F.TRL_SYNC_ERR k) + s.badCount k rx) (2 ^ 32 - 1) ∧
    t.rd (F.TRL_BIP_ERR k) = min (s.rd (F.TRL_BIP_ERR k) + ((s.walks k rx).map (·.2.1)).foldl (· + ·) 0) (2 ^ 32 - 1) ∧
    t.rd (F.TRL_STAT_STATE k) = s.rd (F.TRL_STAT_STATE k) ∧ t.lm = s.lm ∧ t.sdb = s.sdb ∧ t.hq = s.hq ∧ t.core = s.core ∧ t.out = s.out)

/-- While the engines run, on a port of the device: at the start of a head's Trail cycle a frame start that is due is
fixed, the old cycle has run to its end and filled every slot it had left, a port that ends for Dormant has stopped,
the plan selected for the port comes into force and its marker goes out with its CRC on an Active port (control
stripes on another); a tile's cycle stops a port that ends for Dormant, sends the control stripes its port sends,
and on the preferred port produces the return traffic due; a chunk one cycle old is dropped with PLAN_DROP. A marker
slot counts the blocks it brings and goes out of a forwarding tile's other port. A good marker on a tile from a tile
feeder (KIND 3) refreshes its feed, and one from a head is acted on; where Root has held over, the tile slews again
to the feed that is back; a bad one counts as missing; a marker 17 CK_CORE cycles late counts as missing, and a
missing marker moves the feed's position on by one Trail cycle. Into an empty slot of a port that sends slot cycles
a tile inserts the waiting echo RSP of that port first, and else, where the port is head-fed, the mask allows and
return traffic waits, a return slot; it forwards it empty otherwise. EPOCH_CMD.ADVANCE announces the next epoch LEAD
cycles ahead, and fires MASK_BUSY where one is pending. A tile unheard for 1,024 Trail cycles leaves the roster.
(Cites R25, R87, R107, R109, R110, R112, R113, R114, R116, R117, R118, R355.) -/
def Obligations.TrailCycles : Prop :=
  (∀ (s : State) (k : Nat), s.runs = true → k < s.portCount → s.isHead = true → ∃ a b c d e f g h : State,
    a = (s.fixDue (s.cycleEnd k)).settleSent ∧ b = (a.advance (a.cycleEnd k - a.core)).fillSlots k 1023 ∧
    c = (if (b.port k).closing.isSome = true then b.closeDown k else b) ∧ d = c.nextCycle k ∧
    e = d.setPort k { d.port k with plan := d.trail.planNext } ∧
    f = (if k = 0 then e.wr F.GLB_PLAN d.trail.planNext else e).pumpOuts ∧
    g = (if k = 0 then f.epochTick else f) ∧ h = (if k = 0 ∧ g.isPair = true then g.emit (.ser g.serFrame) else g) ∧
    exec (.trailCycleStart k) s = .next (if h.portActive k = true
      then (h.sendMarker k).emit (.marker k (h.markerFields k ++ leBytes 4 (crc32c (h.markerFields k)).toNat))
      else (h.setPort k { h.port k with slotAt := 1024 }).sendControl k)) ∧
  (∀ (s : State) (k : Nat), (s.port k).cycleAt = 0 ∨ s.core ≤ (s.port k).cycleAt + 16896 →
    ((s.nextCycle k).core = if (s.port k).cycleAt = 0 then s.core else (s.port k).cycleAt + 16896) ∧
    (k < s.trail.ports.length → ((s.nextCycle k).port k).cycle = (if k = 0 then (s.port 0).cycle + 1 else (s.port 0).cycle) ∧
      ((s.nextCycle k).port k).cycleAt = (s.nextCycle k).core ∧ ((s.nextCycle k).port k).slotAt = 1)) ∧
  (∀ (s : State) (k : Nat), s.runs = true → k < s.portCount → s.isTile = true → exec (.chunkDrop k) s = .next s ∧
    ∃ a b c d e : State, a = s.advance (s.cycleEnd k - s.core) ∧
      b = (if (a.port k).closing.isSome = true then a.closeDown k else a) ∧ c = b.nextCycle k ∧
      d = (if k = 0 ∧ c.isPair = true then c.emit (.ser c.serFrame) else c) ∧
      e = (if d.portActive k = false then d.sendControl k
        else if d.on (F.TRL_STAT_LINK_CYCLES k) = true then d.sendLink k none else d) ∧
      (e.pref.getD 0 ≠ k → exec (.trailCycleStart k) s = .next e) ∧
      (e.pref.getD 0 = k → e.trail.evWait = 0 →
        e.on F.GLB_TILE_ID_VALID = false ∨ e.on F.GLB_D_WEST_VALID = true ∨ e.on F.GLB_D_EAST_VALID = true →
        exec (.trailCycleStart k) s = .next { e with
          trail := { e.trail with
            evSent := 0, evWait := 0, lockAge := 0, ackDue := false
            pendAck := if e.trail.ackDue = true then some (retMsg 1 (e.trail.expect.getD 0).toNat []) else e.trail.pendAck } })) ∧
  (∀ (s : State) (k : Nat) (q : QChunk) (r : List QChunk), s.runs = true → k < s.portCount → s.isTile = false →
    (s.port k).pool = q :: r → ∃ u : State, u = (s.advance (q.since + 16896 + 1 - s.core)).fillSlots k 1023 ∧
      exec (.chunkDrop k) s = .next (u.dropOld k u.core)) ∧
  (∀ (s : State) (k now : Nat) (old : List QChunk), old = (s.port k).pool.filter (fun q => decide (q.since + 16896 < now)) →
    (old = [] → s.dropOld k now = s) ∧
    (old ≠ [] → s.dropOld k now = ((s.setPort k { s.port k with
      pool := (s.port k).pool.filter (fun q => decide (now ≤ q.since + 16896)) }).incBy (F.GLB_SLOT_PLAN_DROP k) old.length).detect
        E.GLB_PLAN_OVERRUN)) ∧
  (∀ (s p : State) (k : Nat) (b f : Bytes) (rx : List (List Block)), s.runs = true → k < s.portCount →
    (s.takeCycle k (s.withMarker k b rx)).relayMarker k b = p → (b.drop 64).take 188 = f →
    (s.portActive k = false → exec (.markerReceive k b rx) s = .next s ∧ exec (.markerMissing k rx) s = .next s) ∧
    (s.portActive k = true → s.isHead = true →
      exec (.markerMissing k rx) s = .next ((s.takeCycle k rx).inc (F.GLB_SLOT_MARKER_MISS k)) ∧
      (markerGood b = true → exec (.markerReceive k b rx) s = .next (p.headMarker f))) ∧
    (s.portActive k = true → s.isHead = false → ∃ u : State, u = s.takeCycle k rx ∧
      exec (.markerMissing k rx) s = .next ((u.advance ((u.port k).feed.arr + 16896 + 17 - u.core)).missMarker k)) ∧
    (s.portActive k = true → markerGood b = false → exec (.markerReceive k b rx) s = .next (p.missMarker k)) ∧
    (s.portActive k = true → s.isHead = false → markerGood b = true → ∃ u v w x y : State,
      u = p.setPort k { p.port k with feed := { (p.port k).feed with
        headFed := decide (bits (numAt f 2 2) 0 2 ≤ 2), missing := 0, arr := p.core, cycle := BitVec.ofNat 32 (numAt f 4 4)
        active := bit (numAt f 1 1) 0, feeder := numAt f 2 2, fields := f } } ∧
      v = ((u.judgeFeed k).feedUpdate).turnaround k ∧ w = v.takeField f ∧
      x = (if w.trail.prefNext = some k then w.takePref k (numAt f 42 1) else w) ∧
      y = (if x.pref = some k ∧ x.rd F.CLK_ROOT_STAT_REF = 4 then (x.slewTo k).rootChanged else x) ∧
      (2 < bits (numAt f 2 2) 0 2 → exec (.markerReceive k b rx) s = .next v) ∧
      (bits (numAt f 2 2) 0 2 ≤ 2 → exec (.markerReceive k b rx) s = .next (if y.pref = some k then y.takeMarker k f else y)))) ∧
  (∀ (s : State) (k i : Nat), s.runs = true → k < s.portCount → s.isHead = false → s.portActive k = true →
    s.on (F.TRL_STAT_LINK_CYCLES k) = false → 1 ≤ i → i ≤ 1023 → ∃ u : State,
    u = (if s.forwards = true then s.emit (.relay k i (0xF0 :: List.replicate 255 0)) else s) ∧
    (s.on F.GLB_TILE_ID_VALID = false → exec (.emptySlotArrive k i) s = .next u) ∧
    (s.on F.GLB_TILE_ID_VALID = true →
      (∀ w, s.trail.rsps.find? (fun w => w.port == k) = some w → exec (.emptySlotArrive k i) s =
        .next (State.emit { s with trail := { s.trail with rsps := s.trail.rsps.erase w } } (.slot k i 6 2
          (tileKey (s.rd F.GLB_TILE_ID_ID) (leBytes 2 w.eseq)) (pad240 (leBytes 4 w.launch ++ leBytes 4 (s.core - w.since) ++
            leBytes 2 w.feeder))))) ∧
      (s.trail.rsps.find? (fun w => w.port == k) = none → exec (.emptySlotArrive k i) s =
        .next (if (s.port k).feed.headFed = true ∧ s.maskBit i = true ∧ s.owes k = true then s.insertReturn k i else u)))) ∧
  (∀ s : State, s.live = true →
    (s.isTile = true → exec .epochAdvance s = .next s) ∧
    (s.isTile = false → s.on F.GLB_EPOCH_STAT_PENDING = true → exec .epochAdvance s = .next (s.detect E.GLB_MASK_BUSY)) ∧
    (s.isTile = false → s.on F.GLB_EPOCH_STAT_PENDING = false → ∃ u : State, u = s.wr F.GLB_EPOCH_STAT_PENDING 1 ∧
      exec .epochAdvance s = .next { u with trail := { u.trail with
        epochAt := some ((s.port 0).cycle + BitVec.ofNat 32 (u.rd F.GLB_EPOCH_CFG_LEAD)) } })) ∧
  (∀ (s : State) (k t : Nat), s.runs = true → k < s.portCount →
    (Map.find (s.port k).heard t = none → exec (.rosterTimeout k t) s = .next s) ∧
    (∀ c, Map.find (s.port k).heard t = some c → s.isTile = false → ∃ u v : State,
      u = s.advance (c + 1024 * 16896 - s.core) ∧
      v = u.wr (F.GLB_ROSTER (16 * k + t / 32)) (clrBit (u.rd (F.GLB_ROSTER (16 * k + t / 32))) (t % 32)) ∧
      exec (.rosterTimeout k t) s = .next ((v.setPort k { v.port k with
        heard := Map.del (v.port k).heard t, dTile := Map.del (v.port k).dTile t }).showDmax k)))

/-- While the engines run, on an Active port: an empty slot changes nothing; any other goes out of a forwarding tile's
other port, and then an ill-formed one counts HDR_BAD and one with a bad CRC counts CRC_ERR. A good chunk on a tile
that one of its interests names is counted as late where its frame is over, as a duplicate where it is held, and
else stored; a good broadcast slot is held by stream, number and sequence, and a later broadcast ends the request
for slots of the one before (that a slot whose BTOTAL differs counts HDR_BAD is the model's choice, log entry 158);
4 Trail cycles without a new slot ask for the first gap. A good REQ for a tile is answered and its D taken; a good
RSP gives a head half the round trip less the hold; a REQ without RSP is dropped after 256 Trail cycles. A good
preview slot of a row inside the preview is stored. (Cites R102, R104, R105, R106, R112, R120, R121, R144.) -/
def Obligations.TrailSlots : Prop :=
  (∀ (s p : State) (k n : Nat) (b : Bytes) (i : Instr), i ∈ [.chunkReceive k n b, .broadcastSlot k n b, .echoReq k n b,
      .echoRsp k n b, .previewReturn k n b, .mailbox k n b, .remoteWrite k n b, .regRead k n b, .regWrite k n b, .resync k n b,
      .readReq k n b] →
    s.runs = true → k < s.portCount → s.pass k n b = p →
    (s.portActive k = false ∨ slotEmpty b = true → exec i s = .next s) ∧
    (s.portActive k = true → slotEmpty b = false →
      (slotFormed b = false → exec i s = .next ((p.inc (F.GLB_SLOT_HDR_BAD k)).detect E.GLB_HDR_BAD)) ∧
      (slotFormed b = true → slotCrcOk b = false →
        exec i s = .next ((p.inc (F.GLB_SLOT_CRC_ERR k)).detect E.GLB_SLOT_CRC)))) ∧
  (∀ (s p : State) (k n lo src line ch len : Nat) (b : Bytes), s.receives k b 1 = true ∨ s.receives k b 2 = true → s.pass k n b = p →
    p.isTile = true → slotSub b = src → src ≤ 31 → numAt b 2 2 = line → line ≤ 8191 → numAt b 4 1 = ch → numAt b 5 1 = len →
    1 ≤ len → len ≤ 240 → numAt b 6 1 = lo → zeroAt b 7 5 = true →
    (p.interest.any (fun e => e.takes (src % 16) line ch) = false → exec (.chunkReceive k n b) s = .next p) ∧
    (p.interest.any (fun e => e.takes (src % 16) line ch) = true → ∃ u : State, u = { p with
        trail := { p.trail with chunks := p.trail.chunks.filter (fun c => decide (0 ≤ p.frameOf c.1)) } } ∧
      (p.frameOf lo < 0 → exec (.chunkReceive k n b) s = .next ((u.inc (F.GLB_SLOT_LATE k)).detect E.GLB_TAKE_LATE)) ∧
      (0 ≤ p.frameOf lo → u.trail.chunks.contains (lo, src % 16, line, ch) = true →
        exec (.chunkReceive k n b) s = .next (u.inc (F.GLB_SLOT_DUP k))) ∧
      (0 ≤ p.frameOf lo → u.trail.chunks.contains (lo, src % 16, line, ch) = false → ∃ v : State, v = { u with
          trail := { u.trail with chunks := (lo, src % 16, line, ch) :: u.trail.chunks } } ∧
        exec (.chunkReceive k n b) s = .next ((v.inc (F.GLB_SLOT_TAKEN k)).storeChunk (src % 16) line ch
          (v.frameNow + BitVec.ofInt 32 (p.frameOf lo)) ((slotBody b).take len))))) ∧
  (∀ (s p : State) (k n stream total q : Nat) (id : BitVec 16) (b : Bytes), s.receives k b 4 = true → s.pass k n b = p →
    p.isTile = true → slotSub b = stream → BitVec.ofNat 16 (numAt b 2 2) = id → numAt b 4 4 = q → numAt b 8 4 = total →
    (stream < 1 ∨ 5 < stream ∨ total ≤ q →
      exec (.broadcastSlot k n b) s = .next ((p.inc (F.GLB_SLOT_HDR_BAD k)).detect E.GLB_HDR_BAD)) ∧
    (1 ≤ stream → stream ≤ 5 → q < total → stream ≠ 4 ∨ p.trialBusy = false →
      (Map.find p.trail.bcasts stream = none →
        exec (.broadcastSlot k n b) s = .next (p.holdBcast k stream q ⟨id, total, [], p.core, true⟩ (slotBody b))) ∧
      (∀ x, Map.find p.trail.bcasts stream = some x →
        (x.bid = id → x.opened = false ∨ (Map.find x.slots q).isSome = true →
          exec (.broadcastSlot k n b) s = .next (p.inc (F.GLB_SLOT_DUP k))) ∧
        (x.bid = id → x.opened = true → Map.find x.slots q = none → exec (.broadcastSlot k n b) s =
          .next (if x.total = total then p.holdBcast k stream q x (slotBody b)
            else (p.inc (F.GLB_SLOT_HDR_BAD k)).detect E.GLB_HDR_BAD)) ∧
        (x.bid ≠ id → later16 id.toNat x.bid.toNat = true → ∃ u : State, u = p.dropGap stream x.bid ∧
          exec (.broadcastSlot k n b) s = .next (u.holdBcast k stream q ⟨id, total, [], u.core, true⟩ (slotBody b))) ∧
        (x.bid ≠ id → later16 id.toNat x.bid.toNat = false →
          exec (.broadcastSlot k n b) s = .next (p.inc (F.GLB_SLOT_DUP k)))))) ∧
  (∀ (s : State) (stream : Nat) (x : Bcast), s.live = true → s.isHead = false → Map.find s.trail.bcasts stream = some x →
    (x.opened = false → exec (.bcastGapTimer stream) s = .next s) ∧
    (x.opened = true → ∃ u : State, u = s.advance (x.last + 4 * 16896 - s.core) ∧
      exec (.bcastGapTimer stream) s = .next ((u.setBcast stream { x with last := u.core }).askGap stream x))) ∧
  (∀ (s p : State) (k n : Nat) (b q : Bytes), s.receives k b 6 = true → s.pass k n b = p → slotBody b = q →
    bits (numAt b 2 2) 9 7 = 0 → zeroAt b 6 6 = true → zeroAt q 10 230 = true →
    (p.forMe b = true → slotSub b = 1 → bits (numAt q 7 1) 1 7 = 0 → ∃ u v : State,
      u = p.inc (F.GLB_SLOT_TAKEN k) ∧
      v = { u with trail := { u.trail with
        rsps := u.trail.rsps ++ [⟨k, numAt b 4 2, numAt q 0 4, numAt q 8 2, u.core⟩] } } ∧
      (bit (numAt q 7 1) 0 = false → exec (.echoReq k n b) s = .next v) ∧
      (bit (numAt q 7 1) 0 = true → exec (.echoReq k n b) s = .next (((v.setPort k { v.port k with
        feed := { (v.port k).feed with dLast := some (numAt q 4 3, v.core) } }).wr (dValid k) 1).lockUpdate))) ∧
    (p.isHead = true → slotSub b = 2 → ∃ u : State, u = (p.inc (F.GLB_SLOT_TAKEN k)).hear k (slotTile b) ∧
      ((u.port k).echo = [] → exec (.echoRsp k n b) s = .next u) ∧
      (∀ r, (u.port k).echo = [r] → r.eseq = numAt b 4 2 → r.tile = slotTile b → r.launch % 2 ^ 32 = numAt q 0 4 →
        numAt q 4 4 ≤ u.core - r.launch → ∃ v : State, v = u.setPort k { u.port k with echo := [] } ∧
          exec (.echoRsp k n b) s = .next ((v.setPort k { v.port k with
            dTile := Map.put (v.port k).dTile (slotTile b) ((u.core - r.launch - numAt q 4 4) / 2 % 2 ^ 24) }).showDmax k)))) ∧
  (∀ (s : State) (k : Nat) (e : BitVec 16) (r : EchoReq), s.runs = true → k < s.portCount →
    (s.port k).echo.find? (fun r => r.eseq == e.toNat) = some r → ∃ u : State,
      u = s.advance (r.launch + 256 * 16896 - s.core) ∧
      exec (.echoTimeout k e) s = .next (u.setPort k { u.port k with echo := (u.port k).echo.erase r })) ∧
  (∀ (s : State) (k n : Nat) (b q : Bytes) (m : RetMsg), s.receives k b 7 = true → s.isHead = true → slotBody b = q →
    slotSub b = 0 → bits (numAt b 2 2) 9 7 = 0 → zeroAt b 7 5 = true → 1 ≤ numAt q 4 1 → numAt q 4 1 ≤ 77 →
    bits (numAt q 5 1) 2 6 = 0 → zeroAt q 6 2 = true → zeroAt q 239 1 = true →
    m = ⟨k, 0, b, 0⟩ →
    (s.freshRet m = false → exec (.previewReturn k n b) s = .next (s.inc (F.GLB_SLOT_DUP k))) ∧
    (s.freshRet m = true → ∃ u : State, u = (s.takeRet m).inc (F.GLB_SLOT_TAKEN k) ∧
      (Map.find s.net.pvw 1 = none → exec (.previewReturn k n b) s = .next u) ∧
      (∀ o, Map.find s.net.pvw 1 = some o → bit (numAt o 16 1) 0 = true → numAt q 0 2 < numAt o 4 2 →
        exec (.previewReturn k n b) s = .next (u.lmWrite (numAt o 8 8 + numAt b 6 1 % 2 * truthImage (numAt o 2 2) (numAt o 4 2) +
          3 * (numAt q 0 2 * numAt o 2 2 + numAt q 2 2)) ((q.drop 8).take (3 * min (numAt q 4 1) (numAt o 2 2 - numAt q 2 2)))))))

/-- While the clocks run on a head whose link is up: an overflowing frame counts RX_OVF; any other counts RX_FRAMES and
its corrected FEC codewords, and then one with a bad FCS counts RX_FCS and one longer than the MTU in force goes no
further; a plain UDP frame goes to the lowest flow entry that matches it; a frame no flow matches goes to the host
where it is addressed to the port's MAC or broadcast, and counts NOFLOW where it is not; PTP over IPv4 on Ranger's
port goes to Ranger with its whole timestamp, any other PTP message to the host. A frame for the host fills the
oldest posted buffer, and is dropped and counted without one. A video row header is good where its line lies in the
frame and its bytes are whole pixel groups inside the line. A new packet of a universe's holder writes its values,
and one of universe 0 or of another universe is a conflict; a silent source leaves after 2.5 s. AUTO raises one wall
commit for changed values. The oldest waiting cue takes its overlay set into the shadow bank and commits; over host
edits it is held with CUE_HELD. Link down and up show in STAT; a loss of link and a write of MODE put the settings
in force. A reference that has ended posts its release, whose write may fail and halt the queue. (Cites R125, R126,
R128, R130, R137, R138, R139, R140, R147, R151, R152, R186.) -/
def Obligations.NetIngest : Prop :=
  (∀ (s : State) (f : NetFrame), s.live = true → s.isTile = false → f.port ≤ 1 → s.on (F.NET_STAT_LINK f.port) = true →
    ∃ u : State, u = (s.inc (F.NET_RX_FRAMES f.port)).incBy (F.NET_FEC_CORR f.port) f.fecCorr ∧
    (f.overflow = true → exec (.netFrameReceive f) s = .next ((s.inc (F.NET_RX_OVF f.port)).detect (E.NET_RX_OVF f.port))) ∧
    (f.overflow = false → f.fcsErr = true → exec (.netFrameReceive f) s = .next (u.inc (F.NET_RX_FCS f.port))) ∧
    (f.overflow = false → f.fcsErr = false → f.fecErr = true →
      exec (.netFrameReceive f) s = .next ((u.inc (F.NET_FEC_UNCORR f.port)).detect (E.NET_FEC_UNCORR f.port))) ∧
    (f.overflow = false → f.fcsErr = false → f.fecErr = false →
      (u.mtu f.port < f.len ∨ f.pause = true → exec (.netFrameReceive f) s = .next u) ∧
      (f.len ≤ u.mtu f.port → f.pause = false →
        (f.doubleTagged = true ∨ f.body = .other → exec (.netFrameReceive f) s = .next (u.unclaimed f)) ∧
        (f.doubleTagged = false → (f.body = .ptpEth ∨ ∃ p, (p = 319 ∨ p = 320) ∧ f.body = .udp6 p) → exec (.netFrameReceive f) s =
          .next (u.toHost f.port 0xFFF 0 f.raw (u.ptpHeader f.port))) ∧
        (∀ (o g c : Bool) (src dst : Word) (dport : BitVec 16) (x : UdpBody), f.body = .udp4 o g c src dst dport x →
          f.doubleTagged = false →
          (dport = 319 ∨ dport = 320 → exec (.netFrameReceive f) s =
            .next (if u.rd F.PTP_CFG_STACK = 0 ∧ u.rd F.PTP_CFG_PTP_PORT = f.port
              then (u.emit (.ptpToRanger f.port (stampNs (u.rxStamp f.port)) (stampFrac (u.rxStamp f.port)) f.raw)).rangerPtp f.port
                (ptpBody f.raw)
              else u.toHost f.port 0xFFF 0 f.raw (u.ptpHeader f.port))) ∧
          (dport ≠ 319 → dport ≠ 320 →
            (o = true ∨ g = true ∨ c = false → exec (.netFrameReceive f) s = .next (u.unclaimed f)) ∧
            (o = false → g = false → c = true →
              (∀ i e, u.net.flows.find? (fun y => flowMatches y.2 f.port f.vlan src dst dport x) = some (i, e) →
                exec (.netFrameReceive f) s = .next (u.flowPacket f i e x)) ∧
              (u.net.flows.find? (fun y => flowMatches y.2 f.port f.vlan src dst dport x) = none →
                exec (.netFrameReceive f) s = .next (u.unclaimed f)))))))) ∧
  (∀ (s : State) (f : NetFrame), ∃ dst own : Nat, dst = numAt f.raw 0 6 ∧
    own = s.rd (F.NET_MAC_LO f.port) + 2 ^ 32 * s.rd (F.NET_MAC_HI f.port) ∧
    (dst = own ∨ dst = 0xFFFFFFFFFFFF ∨ (dst % 2 = 1 ∧ s.on (F.NET_HOST_CFG_MCAST f.port) = true) →
      s.unclaimed f = s.toHost f.port 0xFFF 0 f.raw) ∧
    (dst ≠ own → dst ≠ 0xFFFFFFFFFFFF → dst % 2 = 0 ∨ s.on (F.NET_HOST_CFG_MCAST f.port) = false →
      s.unclaimed f = s.inc (F.NET_NOFLOW f.port))) ∧
  (∀ (f : Fmt) (v : VideoRow), rowOk f v = true ↔ v.line < f.height ∧ v.offset + v.bytes.length ≤ f.lineBytes ∧
    v.offset % f.group.2 = 0 ∧ v.bytes.length % f.group.2 = 0) ∧
  (∀ (s : State) (p flow tag : Nat) (raw pre : Bytes),
    (s.net.rx = [] → s.toHost p flow tag raw pre = (s.inc (F.NET_HOST_DROP p)).detect (E.NET_HOST_DROP p)) ∧
    (∀ d r, s.net.rx = d :: r → pre.length + raw.length ≤ d.num 8 2 → ∃ u : State, u = { s with net := { s.net with rx := r } } ∧
      s.toHost p flow tag raw pre = (u.emit (.hostWrite (d.num 0 8) (pre ++ raw))).finish d 0x43 0x000
        (raw.length % 16384 + 65536 * p + 2 ^ 20 * flow + 2 ^ 32 * tag))) ∧
  (∀ (s : State) (i : Nat) (p : SacnPacket), p.startCode = 0 → p.preview = false → p.syncPkt = false →
    (p.univ.toNat ≠ s.rd (F.NET_SACN_UNIV 0 i) ∨ p.univ = 0 → s.sacnPacket i p = s.detect (E.NET_SACN_CONFLICT 0)) ∧
    (p.univ.toNat = s.rd (F.NET_SACN_UNIV 0 i) → p.univ ≠ 0 → Map.getD s.net.univs i [] = [] → p.terminated = false →
      s.sacnPacket i p = (s.setUniv i [⟨p.cid, p.prio, p.seq, s.core⟩]).sacnSlots i p.slots)) ∧
  (∀ (s : State) (i : Nat) (cid : BitVec 128), s.live = true → ∃ l : List SacnSrc, l = Map.getD s.net.univs i [] ∧
    (l.find? (fun x => x.cid == cid) = none → exec (.sacnSourceTimeout i cid) s = .next s) ∧
    (∀ x, l.find? (fun x => x.cid == cid) = some x → exec (.sacnSourceTimeout i cid) s =
      .next ((s.advance (x.last + 2500000 * 103125 / 64 - s.core)).setUniv i (l.filter (fun y => y.cid != cid))))) ∧
  (∀ s : State, s.live = true →
    (s.isHead = true → s.authority = true → s.on (F.NET_SACN_CFG_AUTO 0) = true → s.net.sacnDirty = true →
      s.stp.commits = [] → s.stp.hostEdit = false → ∃ u : State, u = (s.raiseCommit (ownCommit .sacn)).inc (F.NET_SACN_COMMITS 0) ∧
        exec .sacnCommit s = .next { u with net := { u.net with sacnDirty := false } }) ∧
    (s.frozen = true → exec .sacnHeldWrite s = .next s) ∧
    (∀ e v m, s.frozen = false → s.net.sacnHeld = [(e, v)] → Map.find s.net.smap e = some m →
      exec .sacnHeldWrite s = .next { s.sacnWrite m v with net := { (s.sacnWrite m v).net with sacnHeld := [] } }) ∧
    (s.net.cue = [] → s.net.cueHeld = none → exec .sacnCueCommit s = .next s) ∧
    (∀ v l, s.net.cue = v :: l ∨ (s.net.cue = [] ∧ l = [] ∧ s.net.cueHeld = some v) → s.isTile = false → s.authority = true →
      s.power.ranger = .running → s.frozen = false →
      ∃ w : State, w = { s with net := { s.net with cue := l, cueHeld := none } } ∧
      (s.stp.hostEdit = true → exec .sacnCueCommit s = .next (State.detectIf { s with
        net := { s.net with cue := l, cueHeld := some v } } (!s.net.cue.isEmpty) (E.NET_CUE_HELD 0))) ∧
      (s.stp.hostEdit = false → Map.find s.net.cues v = none → exec .sacnCueCommit s = .next w) ∧
      (∀ set, s.stp.hostEdit = false → Map.find s.net.cues v = some set → s.stp.shadow.stand = none →
        exec .sacnCueCommit s = .next ((((w.setShadowBank { s.stp.shadow with ovl := set }).touch 2 511 0).showShadow).raiseCommit
          (ownCommit (.cue v)))))) ∧
  (∀ (s : State) (p : Nat) (v : Word) (sp : BitVec 2) (an : Bool), s.live = true → s.isTile = false → p ≤ 1 →
    (s.on (F.NET_STAT_LINK p) = false → exec (.netLinkDown p) s = .next s) ∧
    (s.on (F.NET_STAT_LINK p) = true → exec (.netLinkDown p) s = .next (((((s.wr (F.NET_STAT_LINK p) 0).wr (F.NET_STAT_SPEED p) 0).wr
      (F.NET_STAT_AN_DONE p) 0).restartLink p).detect (E.NET_LINK_DOWN p))) ∧
    (∃ (r : State) (m : Nat × Nat × Nat × Nat), r = (if s.on (F.NET_STAT_LINK p) = true then s else s.restartLink p) ∧
      m = Map.getD r.net.inForce p (0, 1, 0, 9216) ∧
      (speedOk m sp.toNat = false → exec (.netLinkUp p sp an) s = .next s) ∧
      (speedOk m sp.toNat = true → exec (.netLinkUp p sp an) s = .next (((r.wr (F.NET_STAT_LINK p) 1).wr (F.NET_STAT_SPEED p)
        sp.toNat).wr (F.NET_STAT_AN_DONE p) (if an = true ∧ m.2.1 = 1 ∧ (m.1 = 1 ∨ m.1 = 2 ∨ m.1 = 4) then 1 else 0)))) ∧
    (∃ u : State, u = (s.wr (F.NET_CFG_AN p) (bits v.toNat 3 1)).wr (F.NET_CFG_ADV100 p) (bits v.toNat 4 1) ∧
      (5 < v.toNat % 8 → exec (.netModeWrite p v) s = .next u) ∧
      (v.toNat % 8 ≤ 5 → exec (.netModeWrite p v) s =
        .next ((netLinkDown p (u.wr (F.NET_CFG_MODE p) (v.toNat % 8))).restartLink p)))) ∧
  (∀ (s : State) (ok : Bool), s.live = true → s.isHead = true →
    (s.cnp.refs.find? s.ended = none → exec (.referenceRelease ok) s = .next s) ∧
    (∀ r, s.cnp.refs.find? s.ended = some r →
      (s.postsTo (s.rd F.CNP_REL_CFG_CQ) = none → exec (.referenceRelease ok) s = .next (s.detect E.CNP_REL_WAIT)) ∧
      (∀ c, s.postsTo (s.rd F.CNP_REL_CFG_CQ) = some c → ∃ u t : State,
        u = s.setCq (s.rd F.CNP_REL_CFG_CQ) { c with halted := true } ∧
        t = s.postEntry (s.rd F.CNP_REL_CFG_CQ) c (fun ph => cplBytes 0 (BitVec.ofNat 32 s.ns) r.lastF
          (BitVec.ofNat 64 (r.rtag + 2 ^ 32 * r.source)) 0 0 0x17 true none 0 ph) ∧
        exec (.referenceRelease ok) s = .next (if ok = true then { t with cnp := { t.cnp with refs := t.cnp.refs.erase r } }
          else u.detect E.HQS_CQ_WRITE_ERR))))

/-- Each accepted with lawful operands: FLOW_SET stores its entry, or completes with FLOW_CONFLICT where the protection
group would get a third leg or two legs of one path; FLOW_CLEAR removes it; SOURCE_SET defines a source, or
completes with SOURCE_IN_USE where a bank's enabled layer names it and with FORMAT_UNSUPPORTED for a format the
device lacks; RX_POST posts its buffer and waits; SACN_MAP, SACN_CUE, TXFLOW_SET and PREVIEW_SET store their item;
PREVIEW_SET, which acts from the next frame start on (for EN = 1 too: the model's choice, log entry 186), with an
unset flow completes with NO_FLOW. FLOW_STATS, CANOPY_STATS and BRANCH_STATS write their counters to host memory, or
to the tile's own Local Memory for a mailbox descriptor. (Cites R127, R128, R129, R139, R140, R141, R145, R187,
R243.) -/
def Obligations.NetOpcodes : Prop :=
  (∀ (s : State) (d : Desc) (i : Nat) (e : Bytes), s.accepts d 0x40 .head = true → d.only [(0, 0, 16), (16, 0, 256)] = true →
    d.num 0 2 = i → i ≤ 4095 → d.bytes 16 32 = e →
    (flowLawful e = false → exec (.flowSet d) s = .next (s.finish d 0x40 0x002)) ∧
    (flowLawful e = true → flowValid e = true →
      (2 ≤ (otherLegs s.net.flows i e).length ∨
        (otherLegs s.net.flows i e).any (fun x => bits (numAt x 16 1) 3 2 == bits (numAt e 16 1) 3 2 && numAt x 0 4 == numAt e 0 4) = true →
        exec (.flowSet d) s = .next (s.finish d 0x40 0x401)) ∧
      ((otherLegs s.net.flows i e).length < 2 →
        (otherLegs s.net.flows i e).any (fun x => bits (numAt x 16 1) 3 2 == bits (numAt e 16 1) 3 2 && numAt x 0 4 == numAt e 0 4) = false →
        exec (.flowSet d) s = .next ({ s with net := { s.net with flows := Map.put s.net.flows i e } }.finish d 0x40 0x000))) ∧
    (flowLawful e = true → flowValid e = false → exec (.flowSet d) s =
      .next ({ s with net := { s.net with flows := Map.put s.net.flows i e } }.finish d 0x40 0x000))) ∧
  (∀ (s : State) (d : Desc), s.accepts d 0x41 .head = true → d.only [(0, 0, 16)] = true →
    exec (.flowClear d) s = .next (if 4095 < d.num 0 2 then s.finish d 0x41 0x002
      else { s with net := { s.net with flows := Map.del s.net.flows (d.num 0 2) } }.finish d 0x41 0x000)) ∧
  (∀ (s : State) (d : Desc) (k : Nat), s.accepts d 0x42 .head = true →
    d.only [(0, 0, 4), (1, 0, 8), (2, 0, 6), (3, 0, 1), (4, 0, 16), (6, 0, 16), (8, 0, 4), (10, 0, 16)] = true →
    d.num 0 1 = k → d.num 1 1 ≤ 2 → 1 ≤ d.num 4 2 → d.num 4 2 ≤ 7680 → 1 ≤ d.num 6 2 → d.num 6 2 ≤ 4320 →
    8 ≤ d.bitsAt 8 0 4 → 1 ≤ d.num 10 2 → d.num 10 2 ≤ 4000 → (d.bitsAt 2 0 4 = 0 → d.num 4 2 % 2 = 0) →
    (s.banks.any (fun b => b.namesSource k) = true → exec (.sourceSet d) s = .next (s.finish d 0x42 0x402)) ∧
    (s.banks.any (fun b => b.namesSource k) = false →
      (fmtCombo (d.bitsAt 2 0 4) (d.bitsAt 2 4 2) = false ∨ (d.bitsAt 2 0 4 = 3 ∧ d.num 1 1 ≠ 2) →
        exec (.sourceSet d) s = .next (s.finish d 0x42 0x403)) ∧
      (fmtCombo (d.bitsAt 2 0 4) (d.bitsAt 2 4 2) = true → d.bitsAt 2 0 4 ≠ 3 → exec (.sourceSet d) s =
        .next (((s.setSource k (.fresh (d.bytes 0 12))).showSrc k false).finish d 0x42 0x000)))) ∧
  (∀ (s : State) (d : Desc), s.accepts d 0x43 .head = true → d.only [(0, 0, 64), (8, 0, 16)] = true →
    (d.num 8 2 < 2048 ∨ 9216 < d.num 8 2 → exec (.rxPost d) s = .next (s.finish d 0x43 0x002)) ∧
    (2048 ≤ d.num 8 2 → d.num 8 2 ≤ 9216 → exec (.rxPost d) s = .next (if d.num 0 8 % 64 ≠ 0 then s.finish d 0x43 0x003
      else { s.starts d with net := { s.net with rx := s.net.rx ++ [d] } }))) ∧
  (∀ (s : State) (d : Desc), s.accepts d 0x45 .head = true → d.only [(0, 0, 16), (8, 0, 64)] = true → d.num 0 2 ≤ 4095 →
    exec (.flowStats d false) s = .next (s.finish d 0x45 0x004) ∧
    ∃ c, c = Map.getD s.net.counts (d.num 0 2) ⟨0, 0, 0, 0, 0, 0, 0, 0⟩ ∧ exec (.flowStats d true) s =
      .next ((s.emit (.hostWrite (d.num 8 8) ([c.taken, c.dup, c.late, c.fmt, c.frames, c.repeats, c.drops, c.diffNs].flatMap
        (leBytes 8)))).finish d 0x45 0x000)) ∧
  (∀ (s : State) (d : Desc) (ok : Bool), s.accepts d 0x61 .both = true → d.only [(8, 0, 64)] = true →
    (d.mbx = true → lmOk (d.num 8 8) 64 = false → exec (.canopyStats d ok) s = .next (s.finish d 0x61 0x003)) ∧
    (d.mbx = false ∨ lmOk (d.num 8 8) 64 = true → exec (.canopyStats d ok) s =
      .next (if ok = false ∧ d.mbx = false then s.finish d 0x61 0x004
        else (s.returnTo d (d.num 8 8) ((List.range 8).flatMap (fun i =>
          leBytes 4 (Map.getD s.cnp.okCount i 0) ++ leBytes 4 (Map.getD s.cnp.missCount i 0)))).finish d 0x61 0x000))) ∧
  (∀ (s : State) (d : Desc) (ok : Bool), s.accepts d 0x81 .tile = true → d.only [(8, 0, 64)] = true → d.num 8 8 % 8 = 0 →
    (d.mbx = true → lmOk (d.num 8 8) 1024 = false → exec (.branchStats d ok) s = .next (s.finish d 0x81 0x003)) ∧
    (d.mbx = false ∨ lmOk (d.num 8 8) 1024 = true → exec (.branchStats d ok) s =
      .next (if ok = false ∧ d.mbx = false then s.finish d 0x81 0x004
        else (s.returnTo d (d.num 8 8) ((List.range 128).flatMap (fun b =>
          leBytes 4 (Map.getD s.brn.bad b 0) ++ leBytes 4 (Map.getD s.brn.compared b 0)))).finish d 0x81 0x000))) ∧
  (∀ (s : State) (d : Desc), s.accepts d 0x46 .head = true → d.num 0 1 ≤ 63 →
    (d.num 5 1 = 0 → d.only [(0, 0, 8), (1, 0, 8), (2, 0, 16), (4, 0, 1), (5, 0, 8)] = true → exec (.sacnMap d) s =
      .next ({ s with net := { s.net with smap := Map.del s.net.smap (d.num 0 1) } }.finish d 0x46 0x000)) ∧
    (d.num 5 1 = 1 → d.only [(0, 0, 8), (1, 0, 8), (2, 0, 16), (4, 0, 1), (5, 0, 8)] = true → d.num 1 1 ≤ 31 →
      1 ≤ d.num 2 2 → d.num 2 2 ≤ 512 → exec (.sacnMap d) s =
      .next ({ s with net := { s.net with smap := Map.put s.net.smap (d.num 0 1) (d.bytes 1 7) } }.finish d 0x46 0x000)) ∧
    (3 < d.num 5 1 → exec (.sacnMap d) s = .next (s.finish d 0x46 0x002))) ∧
  (∀ (s : State) (d : Desc), s.accepts d 0x47 .head = true → d.only [(0, 0, 8), (8, 0, 64)] = true →
    exec (.sacnCue d) s = .next (if d.num 0 1 = 0 then s.finish d 0x47 0x002
      else { s with net := { s.net with
        cues := Map.put s.net.cues (d.num 0 1) (BitVec.ofNat 64 (d.num 8 8)) } }.finish d 0x47 0x000)) ∧
  (∀ (s : State) (d : Desc) (f : Fmt), s.accepts d 0x48 .both = true → s.isHead = true → d.num 0 1 = 0 →
    d.only [(0, 0, 8), (2, 0, 16), (4, 0, 16), (6, 0, 6), (7, 0, 8), (8, 0, 64), (16, 0, 1)] = true →
    pvwFmt (d.bytes 0 17) = f → 1 ≤ d.num 2 2 → d.num 2 2 ≤ 3840 → 1 ≤ d.num 4 2 → d.num 4 2 ≤ 2160 →
    fmtCombo f.sampling f.depth = true → f.sampling ≠ 3 → d.num 7 1 ≤ 63 ∨ d.num 7 1 = 255 →
    (addrOk (d.num 8 8) 4096 (2 * ringFrame f) = false → exec (.previewSet d) s = .next (s.finish d 0x48 0x003)) ∧
    (addrOk (d.num 8 8) 4096 (2 * ringFrame f) = true →
      (d.num 7 1 ≠ 255 → Map.find s.net.txflows (d.num 7 1) = none → exec (.previewSet d) s = .next (s.finish d 0x48 0x404)) ∧
      (d.num 7 1 = 255 ∨ (Map.find s.net.txflows (d.num 7 1)).isSome = true → exec (.previewSet d) s =
        .next ({ s with net := { s.net with pvwSet := Map.put s.net.pvwSet 0 (d.bytes 0 17) } }.finish d 0x48 0x000)))) ∧
  (∀ (s : State) (d : Desc), s.accepts d 0x48 .both = true → s.isTile = true → d.only [(0, 0, 8), (2, 0, 2), (16, 0, 1)] = true →
    d.num 0 1 = 2 → exec (.previewSet d) s =
      .next ({ s with net := { s.net with pvwSet := Map.put s.net.pvwSet 2 (d.bytes 0 17) } }.finish d 0x48 0x000)) ∧
  (∀ (s : State) (d : Desc), s.accepts d 0x49 .head = true →
    d.only [(0, 0, 8), (1, 0, 8), (2, 0, 4), (3, 0, 8), (4, 0, 48), (10, 0, 12), (11, 5, 3), (12, 0, 32), (16, 0, 16), (18, 0, 16),
      (20, 0, 32), (24, 0, 6), (25, 0, 8), (28, 0, 32), (32, 0, 48)] = true →
    (63 < d.num 0 1 ∨ d.num 1 1 < 1 ∨ 2 < d.num 1 1 ∨ 127 < d.num 3 1 → exec (.txflowSet d) s = .next (s.finish d 0x49 0x002)) ∧
    (d.num 0 1 ≤ 63 → 1 ≤ d.num 1 1 → d.num 1 1 ≤ 2 → d.num 3 1 ≤ 127 → exec (.txflowSet d) s =
      .next ({ s with net := { s.net with txflows := Map.put s.net.txflows (d.num 0 1) (d.bytes 0 38) } }.finish d 0x49 0x000)))

/-- While the clocks run: a read of TIME_NS captures nanoseconds and fraction; CMD.SET loads SET_NS with fraction 0 in
the next cycle, and is refused with SET_REJECT on a head whose schedule runs; TIME_STEP adds its signed nanoseconds
in the next cycle, tells the sample schedule where that runs, and fires STEPPED, and a step of 0 completes with
STEP_RANGE; TIME_READ answers time, fraction and servo state. An offset from the other feeder completes with
OFS_IGNORED and a stale one with OFS_STALE; Ranger feeds while it runs PTP, and its feed serves its watchdog load;
one inside STEP_NS updates i and y as R154 gives, clamped to the limit and to 1,000 ppb a step, and sets the addend,
with ADDEND_LIMIT at the limit. Holdover sets y to i, servo state 2 and HOLDOVER. A timed TX_SEND in the future
joins its ports' queues, waits at its own queue's head while one is full, and leaves now and late when its time has
passed; an untimed one joins its ports' untimed frames, which leave in order, none that would still be on the port
at a pending launch; the first of a queue launches at its time, unless another launch is due before it, and
completes with its last port. TS_FETCH hands over the host's entries and keeps the others. (Cites R148, R149, R152,
R153, R154, R155, R156, R158, R159, R160, R162, R164.) -/
def Obligations.NetworkTime : Prop :=
  (∀ s : State, s.live = true →
    exec .timeNsRead s = .next ((s.wr F.PTP_TIME_NS (s.ptp.toNat / 2 ^ 40)).wr F.PTP_TIME_FRAC (s.ptp.toNat / 2 ^ 16 % 2 ^ 24)) ∧
    (s.isHead = true → s.on F.CLK_FRM_CTRL_RUN = true → exec .timeSet s = .next (s.detect E.PTP_SET_REJECT)) ∧
    (s.isTile = true ∨ s.on F.CLK_FRM_CTRL_RUN = false → ∃ t, exec .timeSet s = .next t ∧ t.core = s.core + 1 ∧
      t.ptp = BitVec.ofNat 72 (s.rd F.PTP_SET_NS * 2 ^ 40) ∧ t.regs = s.regs ∧ t.servo.i = s.servo.i ∧ t.servo.y = s.servo.y ∧
      t.servo.lastStep = some (BitVec.ofNat 32 (s.rd F.PTP_SET_NS), s.core + 1))) ∧
  (∀ (s : State) (d : Desc), s.accepts d 0x51 .head = true → d.only [(0, 0, 32)] = true →
    (d.num 0 4 = 0 → exec (.timeStep d) s = .next (s.finish d 0x51 0x503)) ∧
    (d.num 0 4 ≠ 0 → ∃ u v : State, u = s.advance 1 ∧
      v = State.noteStep { u with ptp := u.ptp + BitVec.ofInt 72 (sval (d.num 0 4) 32 * 2 ^ 40) } ∧
      (s.on F.AUD_STAT_RUNNING = false → v.audioStep (sval (d.num 0 4) 32 * 256) = v) ∧
      exec (.timeStep d) s = .next (((v.audioStep (sval (d.num 0 4) 32 * 256)).detect E.PTP_STEPPED).finish d 0x51 0x000))) ∧
  (∀ (s : State) (d : Desc), s.accepts d 0x52 .both = true → d.only [] = true →
    exec (.timeRead d) s = .next (s.finish d 0x52 0x000 (s.ptp.toNat / 2 ^ 40 + 2 ^ 32 * (s.ptp.toNat / 2 ^ 16 % 2 ^ 24) +
      2 ^ 56 * s.rd F.PTP_STATE_SERVO))) ∧
  (∀ (s : State) (d : Desc) (o m : Nat), s.accepts d 0x50 .head = true → d.only [(0, 0, 32), (4, 0, 32)] = true →
    d.num 0 4 = o → d.num 4 4 = m →
    (s.rd F.PTP_SERVO_CFG_FEED ≠ 1 → exec (.servoFeed d) s = .next (s.finish d 0x50 0x501)) ∧
    (s.rd F.PTP_SERVO_CFG_FEED = 1 → s.stale m = true →
      exec (.servoFeed d) s = .next ((s.detect E.PTP_OFS_STALE).finish d 0x50 0x502)) ∧
    (s.rd F.PTP_SERVO_CFG_FEED = 1 → s.stale m = false → exec (.servoFeed d) s = .next ((s.acceptOffset o).finish d 0x50 0x000))) ∧
  (∀ (s : State) (o m : Word), s.live = true → s.isHead = true → s.power.ranger = .running →
    (s.on F.PTP_CFG_STACK = true ∨ s.rd F.PTP_SERVO_CFG_FEED ≠ 0 → exec (.rangerOffsetFeed o m) s = .next s) ∧
    (s.on F.PTP_CFG_STACK = false → s.rd F.PTP_SERVO_CFG_FEED = 0 →
      (s.stale m.toNat = true → exec (.rangerOffsetFeed o m) s = .next (s.detect E.PTP_OFS_STALE)) ∧
      (s.stale m.toNat = false → exec (.rangerOffsetFeed o m) s =
        .next ((s.wr F.WDG_LOAD (clrBit (s.rd F.WDG_LOAD) 0)).acceptOffset o.toNat)))) ∧
  (∀ (s : State) (o : Nat), ∃ u : State, u = { (s.wr F.PTP_LAST_OFS o).wr F.PTP_STATE_SERVO 1 with
      servo := { s.servo with fedAt := some s.core } } ∧
    (-(s.rd F.PTP_STEP_NS * 256 : Int) ≤ sval o 32 → sval o 32 ≤ (s.rd F.PTP_STEP_NS * 256 : Int) →
      s.acceptOffset o = u.servoUpdate (sval o 32)) ∧
    ((s.rd F.PTP_STEP_NS * 256 : Int) < sval o 32 → s.rd F.PTP_SERVO_CFG_AUTO_STEP = 2 →
      s.acceptOffset o = u.stepCounter (-(sval o 32))) ∧
    ((s.rd F.PTP_STEP_NS * 256 : Int) < sval o 32 → s.rd F.PTP_SERVO_CFG_AUTO_STEP = 0 →
      s.acceptOffset o = (u.detect E.PTP_OFS_CLAMP).servoUpdate (s.rd F.PTP_STEP_NS * 256))) ∧
  (∀ (s : State) (th lim i yn y : Int), lim = s.rd F.PTP_SERVO_LIMIT * 1000 * 65536 →
    i = clampI (s.servo.i - s.rd F.PTP_SERVO_KI * th) (-lim) lim → yn = clampI (i - s.rd F.PTP_SERVO_KP * th) (-lim) lim →
    y = s.servo.y + clampI (yn - s.servo.y) (-65536000) 65536000 →
    s.servoUpdate th = State.detectIf { s.pairWr F.PTP_ADDEND_LO F.PTP_ADDEND_HI (addendFor y) with
      servo := { s.servo with i := i, y := y } } (y == lim || y == -lim) E.PTP_ADDEND_LIMIT) ∧
  (∀ (s : State) (c : Nat), s.live = true → s.isTile = false → s.rd F.PTP_STATE_SERVO = 1 → s.servo.fedAt = some c →
    exec .servoHoldover s = .next ((((s.advance (c + ceilDiv (8 * s.syncNs * 2 ^ 40) s.addend - s.core)).setRate s.servo.i
      s.servo.i).wr F.PTP_STATE_SERVO 2).detect E.PTP_HOLDOVER)) ∧
  (∀ (s : State) (d : Desc) (x : HostData) (bs : Bytes), s.accepts d 0x44 .head = true →
    d.only [(0, 0, 64), (8, 0, 16), (10, 0, 2), (11, 0, 3), (12, 0, 32), (16, 0, 16)] = true → d.flag 11 2 = false →
    d.flag 11 1 = false ∨ d.flag 17 7 = false → bs = (List.range (d.num 8 2)).map (byteAt x.bytes) →
    (d.flag 11 0 = false → x.ok = false → exec (.txSend d x) s = .next (s.finish d 0x44 0x004)) ∧
    (d.flag 11 0 = true → (sendPorts d).any (fun p => decide (128 ≤ (s.timedQ p).length)) = true →
      exec (.txSend d x) s = .next s) ∧
    (x.ok = true → sendPorts d ≠ [] →
      (d.flag 11 0 = false → exec (.txSend d x) s = .next ((sendPorts d).foldl (fun s p => s.tryPlain p)
        ((sendPorts d).foldl (fun s p => s.setPlainQ p (s.plainQ p ++ [⟨d, BitVec.ofNat 32 (d.num 12 4), bs⟩])) (s.starts d)))) ∧
      (d.flag 11 0 = true → (sendPorts d).any (fun p => decide (128 ≤ (s.timedQ p).length)) = false →
        (reached32 (d.num 12 4) s.ns = true → exec (.txSend d x) s = .next (((sendPorts d).foldl (fun s p =>
          State.sendFrame (s.startTx p s.core bs.length) p d bs (State.ballTime (s.startTx p s.core bs.length) p) true) s).finish
            d 0x44 0x000)) ∧
        (reached32 (d.num 12 4) s.ns = false → exec (.txSend d x) s = .next ((sendPorts d).foldl (fun s p =>
          s.setTimedQ p (queueTimed (s.timedQ p) ⟨d, BitVec.ofNat 32 (d.num 12 4), bs⟩)) (s.starts d)))))) ∧
  (∀ (s : State) (p : Nat), s.tryPlain p = s.sendPlain p (s.plainQ p).length ∧ s.sendPlain p 0 = s) ∧
  (∀ (s : State) (p n : Nat) (x : TimedTx) (r : List TimedTx), s.plainQ p = x :: r →
    ((s.pendingOn p).any (fun k => decide (k.1 < max s.core (s.busy p) + s.wireCycles p x.bytes.length)) = true →
      s.sendPlain p (n + 1) = s) ∧
    ((s.pendingOn p).any (fun k => decide (k.1 < max s.core (s.busy p) + s.wireCycles p x.bytes.length)) = false →
      ∃ u v : State, u = (s.startTx p s.core x.bytes.length).setPlainQ p r ∧ v = u.sendFrame p x.desc x.bytes (u.ballTime p) false ∧
        s.sendPlain p (n + 1) = (if (v.plainQ (1 - p)).any (fun y => y.desc == x.desc) then v
          else v.finish x.desc 0x44 0x000).sendPlain p n)) ∧
  (∀ (s : State) (p : Nat) (x : TimedTx) (r : List TimedTx), s.live = true → s.isTile = false → p ≤ 1 → s.timedQ p = x :: r →
    (s.launchesNext p (s.timedDue x, 2, 0) = false → exec (.timedLaunch p) s = .next s) ∧
    (s.launchesNext p (s.timedDue x, 2, 0) = true →
      ∃ (u v : State) (late : Bool), u = (s.startTx p (s.timedDue x) x.bytes.length).setTimedQ p r ∧
        late = decide ((u.addend : Int) < timeDiff u.now24 x.launch.toNat * 2 ^ 16) ∧
        v = u.sendFrame p x.desc x.bytes (if late then u.ballTime p else u.now24) late ∧
        exec (.timedLaunch p) s = .next ((if (v.timedQ (1 - p)).any (fun y => y.desc == x.desc) then v
          else v.finish x.desc 0x44 0x000).tryPlain p))) ∧
  (∀ (s : State) (d : Desc) (p mx : Nat) (out : List Bytes), s.accepts d 0x53 .head = true →
    d.only [(0, 0, 8), (8, 0, 64), (16, 0, 16)] = true → d.num 0 1 = p → p ≤ 1 → d.num 16 2 = mx → 1 ≤ mx → mx ≤ 64 →
    out = ((s.tsStore p).filter hostStamp).take mx →
    (d.num 8 8 % 16 ≠ 0 → ∀ ok, exec (.tsFetch d ok) s = .next (s.finish d 0x53 0x003)) ∧
    (d.num 8 8 % 16 = 0 → exec (.tsFetch d false) s = .next (s.finish d 0x53 0x004) ∧
      exec (.tsFetch d true) s = .next (((if out = [] then s else s.emit (.hostWrite (d.num 8 8) out.flatten)).setTs p
        ((s.tsStore p).filter (fun e => !hostStamp e) ++ ((s.tsStore p).filter hostStamp).drop mx)).finish d 0x53 0x000 out.length)))

/-- When a port's store holds 64 entries and a frame that asks for a timestamp leaves, with no quiesce window over the
PTP block then (a late frame whose TX_LATE resets its NET block would open one): the held entries are kept, the
port's TSQ_DROP increments (saturating), TSQ_OVF is set, and the frame itself is sent. TX_SEND without TIMED, where
no frame or launch waits on the port, and TIMED_LAUNCH send their frames so. (Cites R163.) -/
def Obligations.TimestampStoreFull : Prop :=
  (∀ (s : State) (p : Nat) (d : Desc) (bs : Bytes) (at0 : Int) (late : Bool), p ≤ 1 → (s.tsStore p).length = 64 →
    d.flag 11 1 = true → (late = true → s.codeOf (E.NET_TX_LATE p).1 (E.NET_TX_LATE p).2 ≠ 2) →
    s.masked E.PTP_TSQ_OVF.1 E.PTP_TSQ_OVF.2 = false →
    ∃ t f, s.sendFrame p d bs at0 late = t ∧ (d.flag 11 2 = false → f = bs) ∧ Out.frame p (stampNs at0) f ∈ t.out ∧
      t.tsStore p = s.tsStore p ∧
      t.rd (if p = 0 then F.PTP_TSQ_DROP0 else F.PTP_TSQ_DROP1) =
        min (s.rd (if p = 0 then F.PTP_TSQ_DROP0 else F.PTP_TSQ_DROP1) + 1) (2 ^ 32 - 1) ∧
      t.sticky E.PTP_TSQ_OVF = true) ∧
  (∀ (s : State) (d : Desc) (x : HostData) (p : Nat), s.accepts d 0x44 .head = true →
    d.only [(0, 0, 64), (8, 0, 16), (10, 0, 2), (11, 0, 3), (12, 0, 32), (16, 0, 16)] = true → d.flag 11 0 = false →
    d.flag 11 2 = false → d.flag 17 7 = false → x.ok = true → sendPorts d = [p] → s.plainQ p = [] → s.pendingOn p = [] →
    ∃ (u v : State) (bs : Bytes) (y : TimedTx), bs = (List.range (d.num 8 2)).map (byteAt x.bytes) ∧
      y = ⟨d, BitVec.ofNat 32 (d.num 12 4), bs⟩ ∧
      u = ((((s.starts d).setPlainQ p [y]).startTx p s.core bs.length).setPlainQ p []) ∧
      v = u.sendFrame p d bs (u.ballTime p) false ∧
      exec (.txSend d x) s = .next (if (v.plainQ (1 - p)).any (fun z => z.desc == d) then v else v.finish d 0x44 0x000)) ∧
  (∀ (s : State) (p : Nat) (x : TimedTx) (r : List TimedTx), s.live = true → s.isTile = false → p ≤ 1 → s.timedQ p = x :: r →
    s.launchesNext p (s.timedDue x, 2, 0) = true →
    ∃ (u v : State) (at0 : Int) (late : Bool), u = (s.startTx p (s.timedDue x) x.bytes.length).setTimedQ p r ∧
      v = u.sendFrame p x.desc x.bytes at0 late ∧
      exec (.timedLaunch p) s = .next ((if (v.timedQ (1 - p)).any (fun y => y.desc == x.desc) then v
        else v.finish x.desc 0x44 0x000).tryPlain p))

/-- For every Lamp Table entry, whose coefficient A[e][c] is the s1.10 at bit 12(3e + c), every Emitter Table entry,
whose GAIN is its low 14 bits, every working value of three u20 channels and every emitter e: d_e is the floor of
the coefficients' sum plus 512 over 1,024, clamped to 0 and 0xFFFFF, and g_e the floor of d_e GAIN plus 65,536 over
131,072, at most 65,535. A negative sum clamps to 0, no coefficient makes an entry bad, and unit gain shifts d_e
right by 4 and rounds half up. (Cites R210.) -/
def Obligations.CorrectionArithmetic : Prop :=
  ∀ (lamp emit : Bytes) (w0 w1 w2 e : Nat) (sum d : Int), w0 < 2 ^ 20 → w1 < 2 ^ 20 → w2 < 2 ^ 20 →
    sum = sval (leNat lamp / 2 ^ (12 * (3 * e)) % 2 ^ 12) 12 * w0 + sval (leNat lamp / 2 ^ (12 * (3 * e + 1)) % 2 ^ 12) 12 * w1 +
      sval (leNat lamp / 2 ^ (12 * (3 * e + 2)) % 2 ^ 12) 12 * w2 →
    d = max 0 (min ((sum + 512) / 1024) 0xFFFFF) →
    corrD lamp [(w0 : Int), w1, w2] e = d ∧
    corrG lamp emit [(w0 : Int), w1, w2] e = min ((d * (leNat emit % 2 ^ 14 : Nat) + 65536) / 131072) 65535 ∧
    (sum < 0 → corrD lamp [(w0 : Int), w1, w2] e = 0) ∧
    (leNat emit % 2 ^ 14 = 8192 → corrG lamp emit [(w0 : Int), w1, w2] e = min ((d + 8) / 16) 65535) ∧
    (leNat lamp < 2 ^ 145 → lampBad lamp = false)

/-- Accepted with well-formed operands: TABLE_WRITE judges range, then use, waits behind an earlier patch of its region,
then judges content, each refusal with its status and nothing written, and otherwise writes the second read's bytes
at BASE plus entry size times FIRST, or leaves free bytes there where that read fails; TABLE_VERIFY answers the
CRC-32C of the entries, or ECC where they hold a double-bit word; TABLE_PATCH refuses on its first bad record and
otherwise queues every record, and in the gap after the next correction pass they are all written, counted and
completed with the frame of the pass that reads them, while during a pass, and before one has run, nothing changes;
GEOMETRY_CHECK answers reason, layer and need without staging anything; CENSUS_RUN queues the order, is refused in
Panel hold with 0x803 and without a Census primitive with 0x801. (Cites R61, R174, R217, R218, R219, R220, R221,
R236, R243, R244.) -/
def Obligations.TableOpcodes : Prop :=
  (∀ (s : State) (d : Desc) (x y : HostData) (t b a f n z : Nat), s.accepts d 0x70 .tile = true →
    d.only [(0, 0, 8), (8, 0, 64), (16, 0, 64), (24, 0, 32), (28, 0, 32)] = true → d.num 0 1 = t → t ≤ 2 → d.num 8 8 = b →
    d.num 16 8 = a → d.num 24 4 = f → d.num 28 4 = n → entrySize t = z → addrOk b 4096 1 = true → a % 4 = 0 → d.mbx = false →
    (s.entryCount t < f + n → exec (.tableWrite d x y) s = .next (s.finish d 0x70 0x702)) ∧
    (f + n ≤ s.entryCount t → lmOk (b + z * f) (z * n) = true →
      (s.tableInUse (b + z * f) (z * n) = true → exec (.tableWrite d x y) s = .next (s.finish d 0x70 0x701)) ∧
      (s.tableInUse (b + z * f) (z * n) = false → s.patchWaits (b + z * f) (z * n) = true → exec (.tableWrite d x y) s = .next s) ∧
      (s.tableInUse (b + z * f) (z * n) = false → s.patchWaits (b + z * f) (z * n) = false →
        (x.ok = false → exec (.tableWrite d x y) s = .next (s.finish d 0x70 0x004)) ∧
        (x.ok = true → (s.srcBytes d a (z * n) x).bytes.length = z * n →
          (∀ i, (List.range n).find? (fun i => !entryOkBy t (((s.srcBytes d a (z * n) x).bytes.drop (z * i)).take z)) = some i →
            exec (.tableWrite d x y) s = .next (s.finish d 0x70 0x002 (f + i))) ∧
          ((∀ i < n, entryOkBy t (((s.srcBytes d a (z * n) x).bytes.drop (z * i)).take z) = true) →
            exec (.tableWrite d x y) s = .next (if y.ok then
              (s.lmWrite (b + z * f) (s.srcBytes d a (z * n) y).bytes).finish d 0x70 0x000
              else (s.scramble (b + z * f) (z * n)).finish d 0x70 0x004)))))) ∧
  (∀ (s : State) (d : Desc) (t b f n z : Nat), s.accepts d 0x72 .tile = true →
    d.only [(0, 0, 8), (8, 0, 64), (24, 0, 32), (28, 0, 32)] = true → d.num 0 1 = t → t ≤ 2 → d.num 8 8 = b → d.num 24 4 = f →
    d.num 28 4 = n → entrySize t = z →
    (addrOk b 4096 1 = false → exec (.tableVerify d) s = .next (s.finish d 0x72 0x003)) ∧
    (addrOk b 4096 1 = true → s.entryCount t < f + n → exec (.tableVerify d) s = .next (s.finish d 0x72 0x702)) ∧
    (addrOk b 4096 1 = true → f + n ≤ s.entryCount t → lmOk (b + z * f) (z * n) = true →
      exec (.tableVerify d) s = .next (if s.lmBadIn (b + z * f) (z * n) = true then s.lmUncorr.finish d 0x72 0x005
        else s.finish d 0x72 0x000 (crc32c (s.lmRead (b + z * f) (z * n))).toNat))) ∧
  (∀ (s : State) (d : Desc) (x : HostData) (t n : Nat) (rs : List Bytes) (put : Bytes → Nat × Bytes),
    s.accepts d 0x71 .tile = true → d.mbx = false → d.num 0 1 = t → t ≤ 3 → d.num 1 1 = n → n ≠ 0 →
    d.only ([(0, 0, 8), (1, 0, 8), (8, 0, 64), (16, 0, 64)] ++ if t = 3 then [(24, 0, 64), (32, 0, 64)] else []) = true →
    d.num 16 8 % 8 = 0 → (t ≤ 2 → addrOk (d.num 8 8) 4096 1 = true) → x.ok = true →
    rs = (List.range n).map (fun i => ((s.srcBytes d (d.num 16 8) (24 * n) x).bytes.drop (24 * i)).take 24) →
    put = (fun r => (patchBase d (recTable t r) + entrySize (recTable t r) * numAt r 0 3,
      (r.drop 4).take (entrySize (recTable t r)))) →
    (∀ i st, (List.range n).find? (fun i => (s.recStatus t (rs.getD i [])).isSome) = some i → s.recStatus t (rs.getD i []) = some st →
      exec (.tablePatch d x) s = .next (s.finish d 0x71 st i)) ∧
    ((∀ i < n, s.recStatus t (rs.getD i []) = none) → (∀ r ∈ rs, addrOk (patchBase d (recTable t r)) 4096 1 = true ∧
        lmOk (put r).1 (entrySize (recTable t r)) = true) →
      exec (.tablePatch d x) s =
        .next { (s.starts d) with lcr := { s.lcr with patches := s.lcr.patches ++ [⟨d, rs.map put, false⟩] } })) ∧
  (∀ s : State, s.runs = true →
    (s.inGap = false → exec .patchApply s = .next s) ∧
    (s.inGap = true → (∀ p ∈ s.lcr.patches, p.ready = false) → exec .patchApply s = .next s) ∧
    (∀ p, s.inGap = true → s.lcr.patches = [p] → p.ready = true → ∃ u v : State, u = p.recs.foldl (fun s r => s.lmWrite r.1 r.2) s ∧
      v = (u.incBy F.LCR_PATCHES p.recs.length).finishAs p.desc 0x71 0x000 0 s.nextPass none ∧
      exec .patchApply s = .next { v with lcr := { v.lcr with patches := [] } })) ∧
  (∀ (s : State) (d : Desc), s.accepts d 0x60 .tile = true → d.only [(8, 0, 64)] = true →
    (lmOk (d.num 8 8) 384 = false → exec (.geometryCheck d) s = .next (s.finish d 0x60 0x003)) ∧
    (∀ (p : Place) (t : Store) (act : List Interest) (g : Nat × Nat), lmOk (d.num 8 8) 384 = true → s.placeOf s.stp.active = some p →
      t = s.stp.active.layers.write 0 (s.lmRead (d.num 8 8) 384) → act = validOnes s.activeInterest →
      g = geometry t p act (s.roomOf s.stp.active) → s.lmBadIn (d.num 8 8) 384 = false →
      exec (.geometryCheck d) s = .next (s.finish d 0x60 0x000 (g.1 + 256 * g.2 + 2 ^ 32 *
        ceilDiv (storeNeed (act ++ validOnes (tableInterest t p))) 1024))) ∧
    (lmOk (d.num 8 8) 384 = true → s.placeOf s.stp.active = none → exec (.geometryCheck d) s =
      .next (if s.lmBadIn (d.num 8 8) 384 = true then s.lmUncorr.finish d 0x60 0x005 else s.finish d 0x60 0x000 2))) ∧
  (∀ (s : State) (d : Desc), s.accepts d 0x80 .tile = true → d.only [] = true →
    exec (.censusRun d) s = .next (if s.rd F.PAT_HOLD_STAT_STATE = 2 then s.finish d 0x80 0x803
      else if s.hasCensus = false then s.finish d 0x80 0x801
      else { (s.starts d) with brn := { s.brn with wanted := s.brn.wanted ++ [d] } }))

/-- While the clocks run. AUDIO_RUN on a stopped head with a seed at least 64 samples ahead starts the schedule at the
first block boundary from SEED_NUM, and otherwise fires SEED_REJECT. A block boundary plays the old block out,
passes the time to the boundary, slewing what is left of a small step (or jumps to the stepped time), starts the
sides that waited for it, drives FB_START on a driving head of a pair, takes the received block and begins the next.
A pulse locks the standby's boundaries to the edge less FBS_ADJ; 2 blocks without one clear FBS_LOCK and fire
FBS_LOST. A converter of a slave side locks within 2,000 ppm with a 48-sample fade, and unlocks with ASRC_UNLOCK. A
waiting change applies at its input's first zero crossing, or as a ramp with ZC_TIMEOUT. A paced audio packet
launches 144 samples after its first, on its flow's ports, unless another launch is due before it there; a packet of
the confidence preview launches at its place in the frame; each carries its flow's addresses and, over its slack,
TX_LATE; a head that may not transmit launches nothing. (Cites R141, R142, R143, R158, R259, R260, R262, R264, R265,
R266, R269, R279.) -/
def Obligations.AudioSchedule : Prop :=
  (∀ (s : State) (seed gap num ahead : Nat), s.live = true → s.isTile = false → s.on F.AUD_CTRL_RUN = false →
    seed = 3 * s.rd F.AUD_SEED_TIME + s.rd F.AUD_SEED_REM → num = s.rd F.AUD_SEED_NUM → gap = (64 - num % 64) % 64 →
    ahead = (seed * 2 ^ 40 + 6 * 2 ^ 72 - s.ptp.toNat * 3) % (3 * 2 ^ 72) →
    (ahead < 64 * 62500 * 2 ^ 40 ∨ 3 * 2 ^ 71 < ahead → exec .audioRun s = .next (s.detect E.AUD_SEED_REJECT)) ∧
    (64 * 62500 * 2 ^ 40 ≤ ahead → ahead ≤ 3 * 2 ^ 71 → ∃ u : State,
      u = ((s.wr F.AUD_CTRL_RUN 1).wr F.AUD_STAT_RUNNING 1).wr F.AUD_SMP_NOW num ∧
      exec .audioRun s = .next { u with aud := { u.aud with
        tgt := (seed + gap * 62500) % thirdWrap, num := BitVec.ofNat 32 (num + gap), playing := false, pos := 0, jump := none, silent := false, slew := 0, pulse := some s.core } })) ∧
  (∀ (s : State) (l : List (Nat × List (BitVec 24))), s.live = true → s.isTile = false → s.on F.AUD_STAT_RUNNING = true →
    ∃ u v w x y z : State, u = s.playUpTo 64 ∧
      (u.aud.jump = none → v = { (u.advance (u.cyclesTo (u.audTgt * 192))) with aud := { u.aud with silent := false, slew := slewed u.aud.slew } }) ∧
      (∀ d, u.aud.jump = some d → v = u.audioJump d) ∧
      w = { v with aud := { v.aud with
        tgt := (v.aud.tgt + blockThirds) % thirdWrap, num := v.aud.num + 64, playing := true, pos := 0, sides := v.aud.sides.map (fun x => (x.1, { x.2 with restart := false })) } } ∧
      x = w.wr F.AUD_SMP_NOW v.aud.num.toNat ∧ y = x.aud.sides.foldl (fun s x => s.showSide (x.1 / 2) (x.1 % 2)) x ∧
      z = (if y.isPair && y.on F.FBK_STAT_DRIVING then State.emit ((v.aud.sides.filter (fun x => x.2.restart)).foldl
        (fun s x => s.emit (.audioSide x.1 x.2.frame)) y) (.fbStart 16)
        else (v.aud.sides.filter (fun x => x.2.restart)).foldl (fun s x => s.emit (.audioSide x.1 x.2.frame)) y) ∧
      exec (.audioBlockBoundary l) s = .next (let c := z.aud.captures.foldl (fun s e => s.setAudCh (256 + e.1) { e.2 with
          input := if e.2.valid then s.rxBlock l e.2.src else List.replicate 64 0 }) z
        c.aud.routes.foldl (fun s e => s.beginRoute e.1 e.2) c)) ∧
  (∀ s : State, s.live = true →
    (s.followsStart = false → exec .fbStartPulse s = .next s ∧ exec .fbsLost s = .next s) ∧
    (∀ edge off : Int, s.followsStart = true → edge = s.ptp.toNat * 3 / 2 ^ 40 - 3 * sval (s.rd F.AUD_FBS_ADJ) 16 →
      off = (edge - s.aud.tgt + blockThirds / 2) % blockThirds - blockThirds / 2 → ∃ u : State, u = s.wr F.AUD_STAT_FBS_LOCK 1 ∧
      exec .fbStartPulse s = .next { u with aud := { u.aud with
        tgt := ((u.aud.tgt + off) % thirdWrap).toNat, slew := 0, pulse := some s.core } }) ∧
    (∀ c, s.followsStart = true → s.aud.pulse = some c → ∃ u v : State,
      u = s.advance (c + ceilDiv (2 * blockThirds * 103125) (3 * 64000) - s.core) ∧ v = u.wr F.AUD_STAT_FBS_LOCK 0 ∧
      exec .fbsLost s = .next ({ v with aud := { v.aud with pulse := none } }.detect E.AUD_FBS_LOST))) ∧
  (∀ (s u : State) (p : Nat) (rx : Bool) (x : AudSide), s.live = true → s.slaveSide p (b2n rx) = true → u = s.playDue →
    x = u.audSide p (b2n rx) →
    ((s.audSide p (b2n rx)).locked = true → exec (.asrcUnlock p rx) s = .next (State.detect (State.showSide (State.setSide
      (if rx then u.rxSilent p else u) p (b2n rx) { x with locked := false }) p (b2n rx)) E.AUD_ASRC_UNLOCK)) ∧
    (∀ o : BitVec 16, o.toInt.natAbs ≤ 20000 → ∃ v, v = u.wr (if rx then F.AUD_PORT_OFS_RX p else F.AUD_PORT_OFS_TX p) o.toNat ∧
      exec (.asrcLock p rx o) s = .next (if x.locked then v
        else (v.setSide p (b2n rx) { x with locked := true, fade := 48 }).showSide p (b2n rx))) ∧
    (∀ o : BitVec 16, 20000 < o.toInt.natAbs → exec (.asrcLock p rx o) s = .next s)) ∧
  (∀ (s : State) (ch j : Nat) (r : AudRoute), s.live = true → s.audCh ch = some r → r.waits = true → s.aud.playing = true →
    r.crossing s.aud.pos = some j → ∃ u, u = (s.advance (s.cyclesToSample (s.blockNum + j))).playUpTo j ∧
    exec (.silentChangeApply ch) s = .next (match u.audCh ch with
      | some q => (u.putCh ch q (q.applyNow u.core)).audSettle
      | none => u)) ∧
  (∀ (s : State) (ch : Nat) (r : AudRoute), s.live = true → s.audCh ch = some r → r.waits = true →
    ∃ u v : State, u = s.advance (r.waitFrom + usCycles (1000 * s.rd F.AUD_ZC_TO) - s.core) ∧
      v = (if u.aud.playing then u.playUpTo u.samplesDue else u) ∧ exec (.zcTimeout ch) s = .next (match v.audCh ch with
      | some q => ((v.setAudCh ch q.rampNow).inc F.AUD_ZC_TIMEOUTS).detect E.AUD_ZC_TIMEOUT
      | none => v)) ∧
  (∀ (s : State) (f : Nat) (o : Bytes), s.live = true → s.isTile = false → Map.find s.net.txflows f = some o →
    (s.authority = false → (bit (numAt o 2 1) 2 = false ∨ s.pair.overlap = none) → exec (.pacedLaunch f) s = .next s) ∧
    (s.authority = true ∨ bit (numAt o 2 1) 2 = true ∧ s.pair.overlap.isSome = true →
      (∀ v k n due, numAt o 1 1 = 2 → Map.find s.aud.txaud f = some v → s.on F.AUD_STAT_RUNNING = true →
        k = (if bits v 9 2 = 0 then 48 else 6) → n = Map.getD s.aud.nextPkt f 0 → due = s.sampleDue ((n + 144) % 2 ^ 32) →
        (∀ p ∈ flowPorts o, s.launchesNext p (due, 1, f) = true) → ∃ (t u w : State) (l : List Int),
        t = s.advanceTo due ∧ u = (if t.aud.playing then t.playUpTo t.samplesDue else t) ∧
        l = (List.range k).flatMap (fun j => (List.range (v % 256)).map (fun c =>
          u.capturedAt (64 * f + c) ((n + j) % 2 ^ 32) (bit v 8))) ∧
        w = { u with aud := { u.aud with nextPkt := Map.put u.aud.nextPkt f ((n + k) % 2 ^ 32) } } ∧
        exec (.pacedLaunch f) s = .next (w.sendRtp f o due (sampleCycles k) (n / k % 2 ^ 16) n l [])) ∧
      (∀ p v, numAt o 1 1 ≠ 2 → s.previewOn f = some (p, v) →
        (∀ q ∈ flowPorts o, s.launchesNext q (s.videoDue p v, 0, f) = true) → ∃ u : State,
        u = { s with net := { s.net with vtx := some { v with next := v.next + 1 } } } ∧
        exec (.pacedLaunch f) s = .next (u.sendRtp f o (s.videoDue p v) (s.videoTrs p)
          ((v.frame.toNat * ceilDiv (frameBytes (pvwFmt p)) packetBytes + v.next) % 2 ^ 32)
          (Config.rtpStamp (v.frame - 1).toNat % 2 ^ 32) [] (s.videoBytes p v))))) ∧
  (∀ (s : State) (f p due slack seq ts : Nat) (o b : Bytes) (l : List Int), flowPorts o = [p] → ∃ (t u : State) (late : Bool) (x : RtpOut),
    t = s.startTx p due (58 + 3 * l.length + b.length) ∧ late = decide (due + slack < t.core) ∧ x = t.rtpOn f p o late seq ts l b ∧
    (x.srcIp = t.rd (F.NET_IP_ADDR p) ∧ x.dstIp = numAt o (if p = 0 then 12 else 28) 4 ∧ x.dstMac = numAt o (if p = 0 then 4 else 32) 6 ∧
      x.srcPort = numAt o 16 2 ∧ x.dstPort = numAt o 18 2 ∧ x.ssrc = numAt o 20 4 ∧ x.pt = numAt o 3 1 ∧ x.seq = seq ∧ x.ts = ts) ∧
    u = t.emit (.rtp x) ∧
    s.sendRtp f o due slack seq ts l b =
      (if late then (u.inc (F.NET_TX_LATE p)).detect (E.NET_TX_LATE p) else u).tryPlain p)

/-- Accepted with operands in range. PORT_SET refuses a format its rate does not carry with PORT_RATE; otherwise the
side takes the setting unlocked and silent to the next boundary, its rate offset is 0, and its channels' pending
changes apply at once. STREAM_SET refuses a format change of a stream in use with STREAM_IN_USE, and otherwise
stores the stream. TXAUD_SET and CAPTURE_SET refuse a flow that is not an audio flow with 0x904; TXAUD_SET stores
the settings and the flow's next packet at a whole packet. A side that PORT_SET turns off leaves its pins. ROUTE_SET
and CAPTURE_SET put a change on their channel, which completes at once where it changes nothing and the older
pending change, if any, completes with SUPERSEDED. GROUP_SET mutes the group's valid channels and waits; the same
delay again completes at once. (Cites R261, R263, R264, R266, R268.) -/
def Obligations.AudioOpcodes : Prop :=
  (∀ (s : State) (d : Desc) (p side : Nat) (u v w : State), s.accepts d 0x90 .head = true →
    d.only [(0, 0, 8), (1, 0, 8), (2, 0, 8), (3, 0, 2)] = true → d.num 0 1 = p → p ≤ 15 → d.num 1 1 = side → side ≤ 1 →
    d.bitsAt 2 2 3 ≤ 5 → d.bitsAt 2 0 2 ≠ 3 → u = s.playDue →
    v = (((u.setSide p side { cfg := d.num 2 2, restart := d.bitsAt 2 2 3 != 0, locked := false, fade := 0 }).showSide p
      side).wr (if side = 0 then F.AUD_PORT_OFS_TX p else F.AUD_PORT_OFS_RX p) 0) →
    w = (if d.bitsAt 2 2 3 = 0 then v.emit (.audioSide (2 * p + side) none) else v) →
    (d.bitsAt 2 2 3 ≠ 0 → audSlots (d.bitsAt 2 2 3) (d.bitsAt 2 0 2) = 0 →
      exec (.portSet d) s = .next (s.finish d 0x90 0x901)) ∧
    (d.bitsAt 2 2 3 = 0 ∨ audSlots (d.bitsAt 2 2 3) (d.bitsAt 2 0 2) ≠ 0 → exec (.portSet d) s = .next (State.finish (State.audSettle
      (if side = 0 then (w.aud.routes.filter (fun e => e.1 / 16 == p)).foldl (fun s e => s.applyAll e.1) w
        else (w.aud.captures.filter (fun e => e.2.src / 16 == p)).foldl (fun s e => s.applyAll (256 + e.1)) w)) d 0x90 0x000))) ∧
  (∀ (s : State) (d : Desc) (n v : Nat), s.accepts d 0x91 .head = true →
    d.only [(0, 0, 8), (1, 0, 8), (2, 0, 3), (3, 0, 1)] = true → audFormatOk (d.num 1 1) (d.bitsAt 2 1 2) = true →
    d.num 0 1 = n → d.num 1 3 = v →
    (∀ o, Map.find s.aud.streams n = some o → o % 65536 ≠ v % 65536 → s.streamUsed n = true →
      exec (.streamSet d) s = .next (s.finish d 0x91 0x902)) ∧
    (s.streamUsed n = false ∨ (∀ o, Map.find s.aud.streams n = some o → o % 65536 = v % 65536) →
      exec (.streamSet d) s = .next ({ s with aud := { s.aud with streams := Map.put s.aud.streams n v } }.finish d 0x91 0x000))) ∧
  (∀ (s : State) (d : Desc) (f k : Nat), s.accepts d 0x94 .head = true → d.only [(0, 0, 8), (1, 0, 8), (2, 0, 3)] = true →
    d.num 0 1 = f → f ≤ 63 → audFormatOk (d.num 1 1) (d.bitsAt 2 1 2) = true → k = (if bits (d.num 1 2) 9 2 = 0 then 48 else 6) →
    (s.audioFlow f = false → exec (.txaudSet d) s = .next (s.finish d 0x94 0x904)) ∧
    (s.audioFlow f = true → exec (.txaudSet d) s = .next ({ s with aud := { s.aud with
      txaud := Map.put s.aud.txaud f (d.num 1 2), nextPkt := Map.put s.aud.nextPkt f (ceilDiv s.blockNum k * k) } }.finish d 0x94 0x000))) ∧
  (∀ (s : State) (d : Desc), s.accepts d 0x92 .head = true →
    d.only [(0, 0, 8), (1, 0, 8), (2, 0, 8), (3, 0, 6), (4, 0, 6), (4, 7, 1), (6, 0, 16), (8, 0, 4)] = true → d.num 0 1 ≤ 15 →
    (∀ ch, ch = 16 * d.num 0 1 + d.num 1 1 →
      ((s.audSide (d.num 0 1) 0).slots ≤ d.num 1 1 → exec (.routeSet d) s = .next (s.finish d 0x92 0x002)) ∧
      (d.num 1 1 < (s.audSide (d.num 0 1) 0).slots → exec (.routeSet d) s = .next (s.newChange ch d
        (if d.flag 8 1 then some (d.flag 4 7, 64 * d.num 2 1 + d.bitsAt 3 0 6, d.bitsAt 4 0 6) else none)
        (if d.flag 8 2 then some (d.num 6 2) else none) (if d.flag 8 3 then some (d.flag 8 0) else none))))) ∧
  (∀ (s : State) (d : Desc), s.accepts d 0x93 .head = true →
    d.only [(0, 0, 8), (1, 0, 8), (2, 0, 8), (3, 0, 6), (4, 7, 1), (6, 0, 16), (8, 0, 4)] = true → d.num 0 1 ≤ 15 → d.num 2 1 ≤ 63 →
    d.num 1 1 < (s.audSide (d.num 0 1) 1).slots →
    (s.audioFlow (d.num 2 1) = false → exec (.captureSet d) s = .next (s.finish d 0x93 0x904)) ∧
    (s.audioFlow (d.num 2 1) = true → exec (.captureSet d) s = .next (s.newChange (256 + 64 * d.num 2 1 + d.bitsAt 3 0 6) d
        (if d.flag 8 1 then some (d.flag 4 7, 16 * d.num 0 1 + d.num 1 1, 0) else none)
        (if d.flag 8 2 then some (d.num 6 2) else none) (if d.flag 8 3 then some (d.flag 8 0) else none)))) ∧
  (∀ (s : State) (ch : Nat) (d : Desc) (r : AudRoute) (g : Option Nat) (m : Option Bool), s.aud.playing = false → s.audCh ch = some r →
    (r.change = none → g = some r.gain → m = some r.mute →
      s.newChange ch d (some (r.valid, r.src, r.group)) g m = (s.setAudCh ch { r with change := none }).finish d (chOp ch) 0x000) ∧
    (∀ x, r.change = none → x ≠ r.gain → s.newChange ch d none (some x) none =
      (s.starts d).setAudCh ch { r with change := some ⟨none, some x, none, s.core, d, 0, false⟩ }) ∧
    (∀ x c, r.change = some c → c.stage ≠ 2 → x ≠ r.gain → s.newChange ch d none (some x) none =
      State.setAudCh (State.starts ((s.setAudCh ch { r with change := none }).finish c.desc (chOp ch) 0x903) d) ch { r with
        change := some ⟨none, some x, none, c.since, d, b2n (c.stage == 1), c.stage == 1⟩ })) ∧
  (∀ (s : State) (d : Desc) (g x : Nat), s.accepts d 0x95 .head = true → d.only [(0, 0, 8), (4, 0, 32)] = true → d.num 0 1 = g →
    g ≤ 63 → d.num 4 4 = x → x ≤ 48000 → s.aud.regroup = [] →
    (Map.getD s.aud.groups g 0 = x → exec (.groupSet d) s = .next (s.finish d 0x95 0x000)) ∧
    (Map.getD s.aud.groups g 0 ≠ x → s.aud.playing = false → ∃ u : State, u = s.starts d ∧
      exec (.groupSet d) s = .next (State.moveGroups { u with aud := { u.aud with
        routes := s.aud.routes.map (fun e => if e.2.valid ∧ e.2.group = g then
          (e.1, if e.2.gstage = 4 then { e.2 with gstage := 3 }
            else if e.2.gstage = 0 || e.2.gstage = 5 then { e.2 with gstage := 1, gsince := s.core } else e.2) else e)
        regroup := [(g, x, d, false)] } })))

/-- On a pair device whose clocks run. With the claim's conditions met, CLAIM waits out FB_ACT_IN's 64 cycles and takes
the claim; without them nothing changes; a device that holds it begins to drive. A rise of FB_ACT_IN stops every
interlocked driver at once, and within 64 cycles of the device's own claim in native mode side B withdraws with
CLAIM_RACE while side A keeps its claim. A device resigns exactly where a cause of R274 is present; the claim and
the drivers end and the overlap window opens, and with no frame from the peer it ends 190 Trail cycles later. An
update shows the score and the causes, and the DWELLth update in a row that meets R276 resigns. FB_ARB_IN low for 64
cycles resigns in arbiter mode, and high for 64 cycles claims there. 2 Trail cycles and the delays after a takeover
a wall commit still undecided is aborted with ABORT_FAILOVER. (Cites R272, R273, R274, R275, R276, R278, R279, R280,
R287.) -/
def Obligations.PairClaims : Prop :=
  (∀ s : State, s.live = true →
    (s.isPair = false → exec .claim s = .next s ∧ exec .resign s = .next s ∧ exec .healthUpdate s = .next s ∧
      exec .arbSelect s = .next s ∧ exec .arbDeselect s = .next s ∧ exec .fbActInRise s = .next s) ∧
    (s.isPair = true → s.claims = true → exec .claim s = .next (s.actQuiet.wr F.FBK_STAT_DRIVING 1).driveFbclk) ∧
    (s.isPair = true → s.claims = false → exec .claim s = .next (if s.mayClaim then s.actQuiet.takeClaim else s)) ∧
    (s.isPair = true → exec .resign s = .next (if s.mustResign then s.resign else s))) ∧
  (∀ s : State, s.mayClaim = true ↔ s.isPair = true ∧ s.on F.FBK_CTRL_CLAIM_EN = true ∧
    ((s.on F.FBK_CTRL_ARB = true ∧ s.on F.FBK_STAT_ARB_IN = true) ∨ (s.on F.FBK_CTRL_ARB = false ∧ s.pairReady = true))) ∧
  (∀ s : State, (s.on F.FBK_CTRL_ARB = true → (s.mustResign = true ↔ s.power.shutFlag = true ∨ s.on F.FBK_STAT_ARB_IN = false)) ∧
    (s.on F.FBK_CTRL_ARB = false → (s.mustResign = true ↔ s.forced = true ∨
      (0 < s.pair.dwell ∧ s.rd F.FBK_HEALTH_CFG_DWELL ≤ s.pair.dwell)))) ∧
  (∀ s : State, (s.claims = false → s.resign = s) ∧ (s.claims = true → ∃ u v : State,
    u = ((s.wr F.FBK_STAT_CLAIM_OUT 0).wr F.FBK_STAT_DRIVING 0).wr F.FBK_STAT_STATE 3 ∧
    v = { (State.noteHiz { u with pair := { u.pair with claimAt := none, overlap := some u.core, takeover := false } }).driveFbclk with
      aud := { u.aud with pulse := some u.core } } ∧
    s.resign = (if v.isHead && v.power.fbclk then v.takeFbclk else v).flag E.FBK_RESIGNED)) ∧
  (∀ (s : State) (c : Nat), s.live = true → s.pair.overlap = some c → ∃ u : State,
    u = (s.advance (c + 190 * 16896 - s.core)).wr F.FBK_STAT_STATE 1 ∧
    exec .overlapTimeout s = .next { u with pair := { u.pair with overlap := none } }) ∧
  (∀ s : State, s.live = true → s.isPair = true → ∃ u v w : State,
    u = s.advance ((s.pair.updates + 1) * 100708 * 16 - s.core) ∧
    v = State.showHealth { u with pair := { u.pair with 
      updates := u.pair.updates + 1
      corr := u.pair.corr.filter (fun x => decide (u.pair.updates + 1 ≤ x.1 + 1000)) } } ∧
    w = { v with pair := { v.pair with dwell := if v.scoreWorse then v.pair.dwell + 1 else 0 } } ∧
    exec .healthUpdate s = .next (if w.scoreResigns then w.resignNative else w)) ∧
  (∀ s : State, s.showHealth.rd F.FBK_HEALTH_SCORE = scoreOf s.healthCauses ∧ scoreOf s.healthCauses ≤ 255) ∧
  (∀ s : State, s.live = true → s.isPair = true → ∃ u v : State, u = (s.wr F.FBK_STAT_ARB_IN 1).advance 64 ∧
    v = (s.wr F.FBK_STAT_ARB_IN 0).advance 64 ∧
    exec .arbSelect s = .next (if u.on F.FBK_CTRL_ARB && !u.claims && u.mayClaim && u.pair.actLow.isSome then u.actQuiet.takeClaim
      else u) ∧
    exec .arbDeselect s = .next (if v.on F.FBK_CTRL_ARB then v.resign else v)) ∧
  (∀ s : State, s.live = true → s.isPair = true → ∃ u v w : State,
    u = (s.wr F.FBK_STAT_CLAIM_IN 1).wr F.FBK_STAT_DRIVING 0 ∧ v = { u.noteHiz.driveFbclk with pair := { u.pair with actLow := none } } ∧
    w = (v.wr F.FBK_STAT_CLAIM_OUT 0).wr F.FBK_STAT_STATE 1 ∧
    (∀ c, s.claims = true → s.native = true → s.pair.claimAt = some c → s.core ≤ c + 64 → s.side = 2 → exec .fbActInRise s =
      .next ({ w with pair := { w.pair with claimAt := none, takeover := false } }.detect E.FBK_CLAIM_RACE)) ∧
    (s.claims = false ∨ s.native = false ∨ s.pair.claimAt = none ∨ (∀ c, s.pair.claimAt = some c → c + 64 < s.core) ∨ s.side = 1 →
      exec .fbActInRise s = .next v)) ∧
  (∀ (s : State) (c : Nat), s.live = true → s.pair.claimAt = some c → s.isHead = true → s.pair.takeover = true →
    s.claims = true → ∃ u v : State, u = s.advance (c + 2 * 16896 + s.dringMax - s.core) ∧
    v = { u with pair := { u.pair with takeover := false } } ∧
    (s.stp.commits = [] → exec .takeoverDecision s = .next v) ∧
    (∀ x r, s.stp.commits = x :: r → exec .takeoverDecision s = .next (if !x.loc && (x.phase = 1 || x.phase = 2) then
      v.abortCommit x stAbortFailover [] else v)))

/-- On a pair device whose clocks run: a bad FB_SER frame is discarded, counted in SER_ERR, resets the count of good
ones and fires SER_CRC; a good one is the peer's latest, shows round trip, offset and the peer's health, locks the
link when it is the fourth in a row, is compared by digest and stuck claim, and where it shows CLAIM ends the
overlap window and completes a HANDOVER; a standby head then copies frame start, epoch and cycle numbering. 8 Trail
cycles without one clear the lock and fire SER_LOST. A health report serves its watchdog load, clears the count of
failed tests and posts its RESULT, or is dropped where its CQ is full, and halts the CQ where its write fails. A
failed Patrol test counts and fires; an equal one changes nothing. HANDOVER refuses with its four codes or resigns
and waits; PAIR_STATUS reports; DIGEST_RESET empties the chain; on a single device each completes with NO_PAIR.
(Cites R54, R275, R279, R281, R282, R284, R285, R287, R288.) -/
def Obligations.PairLink : Prop :=
  (∀ (s : State) (f : Bytes), s.live = true → s.isPair = true →
    (serGood f = false → ∃ u : State, u = s.inc F.FBK_SER_ERR ∧
      exec (.fbSerFrame f) s = .next ({ u with pair := { s.pair with good := 0 } }.detect E.FBK_SER_CRC)) ∧
    (serGood f = true → ∃ a b c d e g h : State, a = { s with pair := { s.pair with good := min 4 (s.pair.good + 1) } } ∧
      b = (if a.pair.good = 4 then a.wr F.FBK_STAT_SER_LOCK 1 else a) ∧
      c = ((((b.wr F.FBK_SER_RTT (b.serRtt f)).wr F.FBK_PAIR_OFS (b.pairOffset f)).wr
        F.FBK_STAT_PEER_READY (bits (numAt f 3 1) 1 1)).wr F.FBK_PEER_HEALTH_SCORE (numAt f 20 1)).wr
        F.FBK_PEER_HEALTH_CAUSES (numAt f 22 2) ∧
      d = State.judgeStuck (State.compareDigest { c with pair := { c.pair with peer := some (f, c.core) } } f) (bit (numAt f 3 1) 0) ∧
      e = (if d.rd F.FBK_STAT_STATE = 0 && !d.claims then d.wr F.FBK_STAT_STATE 1 else d) ∧
      g = (if bit (numAt f 3 1) 0 then e.peerClaims else e) ∧ h = (if g.claims then g else g.copyPeer f) ∧
      exec (.fbSerFrame f) s = .next (if g.isHead then
        if !h.claims || h.pair.takeover then
          h.copyField (BitVec.ofNat 16 (numAt f 38 2)) (bits (numAt f 40 1) 0 2) (BitVec.ofNat 32 (numAt f 44 4))
        else h else g))) ∧
  (∀ (s : State) (f : Bytes) (r : Nat), s.live = true → s.isPair = true → s.on F.FBK_STAT_SER_LOCK = true →
    s.pair.peer = some (f, r) → ∃ u : State, u = (s.advance (r + 8 * 16896 - s.core)).wr F.FBK_STAT_SER_LOCK 0 ∧
    exec .serLost s = .next ({ u with pair := { u.pair with good := 0 } }.detect E.FBK_SER_LOST)) ∧
  (∀ (s : State) (ok : Bool), s.live = true → s.isPair = true → s.on F.FBK_PATROL_CFG_EN = true →
    ∃ (e : Bool → Bytes) (u : State), e = cplBytes 0 (BitVec.ofNat 32 s.ns) s.frameNow
      (BitVec.ofNat 64 (s.rd F.FBK_HEALTH_SCORE + 2 ^ 8 * s.rd F.FBK_HEALTH_CAUSES + 2 ^ 24 * min 255 s.pair.fails +
        2 ^ 32 * s.rd F.FBK_PEER_HEALTH_SCORE + 2 ^ 40 * s.rd F.FBK_STAT_SER_LOCK)) 0 0 0xAF true none 0x000 ∧
    u = { s.wr F.WDG_LOAD (clrBit (s.rd F.WDG_LOAD) 5) with pair := { s.pair with fails := 0 } } ∧
    exec (.healthReport ok) s = .next (match u.postsTo (s.rd F.FBK_PATROL_CFG_CQ) with
      | none => u
      | some c => if ok then u.postEntry (s.rd F.FBK_PATROL_CFG_CQ) c e else u.haltCq (s.rd F.FBK_PATROL_CFG_CQ) c)) ∧
  (∀ (s : State) (eq unc : Bool), s.live = true →
    (s.isPair = false ∨ s.claims = true ∨ s.on F.FBK_CTRL_PATROL = false → exec (.patrolTest eq unc) s = .next s) ∧
    (s.isPair = true → s.claims = false → s.on F.FBK_CTRL_PATROL = true →
      exec (.patrolTest true false) s = .next s ∧ (∃ u : State, u = { s with pair := { s.pair with
        fails := s.pair.fails + 1, patrolAt := some s.pair.updates } } ∧
      exec (.patrolTest false false) s = .next ((u.inc F.FBK_PATROL_FAILS).detect E.FBK_PATROL_FAIL)) ∧
      (∃ u v : State, u = s.lmUncorr ∧ v = { u with pair := { u.pair with
        fails := u.pair.fails + 1, patrolAt := some u.pair.updates } } ∧
      exec (.patrolTest eq true) s = .next ((v.inc F.FBK_PATROL_FAILS).detect E.FBK_PATROL_FAIL)))) ∧
  (∀ (s : State) (d : Desc), s.accepts d 0xA0 .both = true → d.only [] = true →
    (s.isPair = false → exec (.handover d) s = .next (s.finish d 0xA0 0xA03)) ∧
    (s.isPair = true → s.on F.FBK_CTRL_ARB = true → exec (.handover d) s = .next (s.finish d 0xA0 0xA04)) ∧
    (s.isPair = true → s.on F.FBK_CTRL_ARB = false → s.claims = false → exec (.handover d) s = .next (s.finish d 0xA0 0xA02)) ∧
    (s.isPair = true → s.on F.FBK_CTRL_ARB = false → s.claims = true → s.peerFresh = false →
      exec (.handover d) s = .next (s.finish d 0xA0 0xA01)) ∧
    (s.isPair = true → s.on F.FBK_CTRL_ARB = false → s.claims = true → s.peerFresh = true → ∃ u : State, u = s.starts d ∧
      exec (.handover d) s = .next (State.resign { u with pair := { s.pair with hostBad := true, handover := some d } }))) ∧
  (∀ (s : State) (d : Desc), s.accepts d 0xA1 .both = true → d.only [] = true →
    (s.isPair = false → exec (.pairStatus d) s = .next (s.finish d 0xA1 0xA03)) ∧
    (s.isPair = true → exec (.pairStatus d) s = .next (s.finish d 0xA1 0x000 (s.rd F.FBK_HEALTH_SCORE +
      2 ^ 8 * s.rd F.FBK_PEER_HEALTH_SCORE + 2 ^ 16 * s.rd F.FBK_STAT_STATE + 2 ^ 18 * s.rd F.FBK_STAT_SER_LOCK +
      2 ^ 19 * bits (s.rd (F.BLK_STICKY 16)) 4 1)))) ∧
  (∀ (s : State) (d : Desc), s.accepts d 0xA2 .both = true → d.only [] = true →
    (d.mbx = true → exec (.digestReset d) s = .next (s.finish d 0xA2 0x001)) ∧
    (d.mbx = false → s.isPair = false → exec (.digestReset d) s = .next (s.finish d 0xA2 0xA03)) ∧
    (d.mbx = false → s.isPair = true → ∃ u : State, u = (s.wr F.FBK_DSEQ 0).wr F.FBK_DIGEST 0 ∧
      exec (.digestReset d) s = .next ({ u with pair := { s.pair with digests := [] } }.finish d 0xA2 0x000)))

/-- While the clocks run and NOT_READY is 0: a write with a byte enable clear, or not to an aligned word, is ignored,
counted in REG_DENIED and shown with cause 1; one beyond the windows changes nothing; a whole aligned word acts on a
head with the written value, so a SCRATCH register takes it, a W1C sticky register clears the written bits but those
that hardware set in the same CK_SYS cycle, and a _LO write is held until its _HI write takes both. While NOT_READY
is 1 only HQS takes writes. On a tile, TILE_ID from the local host is denied with cause 3 while a port is Active and
otherwise assigns the ID, over the Trail it assigns it and asks for a RESYNC; an RWS field is denied with cause 3
while the tile is on a wall. An RWS write sets the shadow value alone, or fires SHADOW_BUSY while the bank is
frozen. A register of the other role reads 0 and ignores writes: EVT_CQ on a tile, TWIN_BASE on a head. A write of
an aligned word of BAR2 keeps that word of the MSI-X table, of a control word the mask bit alone. (Cites R7, R60,
R62, R350, R354, R380, R381, R382, R383, R385, R386, R389.) -/
def Obligations.RegisterWrites : Prop :=
  (∀ (s : State) (off : Nat) (v : Word) (be : BitVec 4), s.live = true → off < 0x170000 →
    (s.on F.GLB_BOOT_STAT_NOT_READY = true → blkOf off ≠ 3 → exec (.registerWrite off v be) s = .next s) ∧
    (s.on F.GLB_BOOT_STAT_NOT_READY = false → be ≠ 15 ∨ off % 4 ≠ 0 →
      exec (.registerWrite off v be) s = .next (s.deny (off / 4 * 4) 1 false)) ∧
    (s.on F.GLB_BOOT_STAT_NOT_READY = false → s.isHead = true → be = 15 → off % 4 = 0 →
      exec (.registerWrite off v be) s = .next (s.act off (s.merged off v.toNat allOnes)))) ∧
  (∀ (s : State) (off : Nat) (v : Word) (be : BitVec 4), s.live = true → 0x170000 ≤ off → off < 0x200000 →
    exec (.registerWrite off v be) s = .next s) ∧
  (∀ (s : State) (o c : Nat) (tr : Bool), o < 2 ^ 21 → c < 4 → ∃ t, s.deny o c tr = t ∧
    t.rd F.GLB_REG_DENIED = min (s.rd F.GLB_REG_DENIED + 1) (2 ^ 32 - 1) ∧ t.rd F.GLB_REG_LAST_OFFSET = o ∧
    t.rd F.GLB_REG_LAST_CAUSE = c ∧ t.rd F.GLB_REG_LAST_TRAIL = b2n tr ∧ t.lm = s.lm ∧ t.stp = s.stp ∧ t.hq = s.hq) ∧
  (∀ (s : State) (v : Word), s.live = true → s.on F.GLB_BOOT_STAT_NOT_READY = false →
    exec (.registerWrite 0x80 v 15) s = .next (if s.risen (F.GLB_SCRATCH 0) = 0 then s.wr (F.GLB_SCRATCH 0) v.toNat else s) ∧
    exec (.registerWrite 0x8C v 15) s = .next (if s.risen (F.GLB_SCRATCH 3) = 0 then s.wr (F.GLB_SCRATCH 3) v.toNat else s) ∧
    exec (.registerWrite 0x10010 v 15) s =
      .next ((s.wr (F.BLK_STICKY 1) (andNot (s.rd (F.BLK_STICKY 1)) (andNot v.toNat (s.risen (F.BLK_STICKY 1))))).dropResigners)) ∧
  (∀ (s : State) (v : Word), s.live = true →
    (s.isTile = true → exec (.registerWrite 0x30074 v 15) s = .next s ∧ s.wordAt 0x30074 = 0) ∧
    (s.isHead = true → exec (.registerWrite 0x30084 v 15) s = .next s ∧ exec (.registerWrite 0x30088 v 15) s = .next s ∧
      s.wordAt 0x30084 = 0 ∧ s.wordAt 0x30088 = 0)) ∧
  (∀ (s : State) (o : Nat) (v : Word), s.live = true → o < 4096 → o % 4 = 0 →
    exec (.registerWrite (0x200000 + o) v 15) s = .next (s.msixWrite o v.toNat) ∧
    (s.msixWrite o v.toNat).msixWord (o / 4) =
      (if o / 4 % 4 = 3 then v.toNat % 2 else if o / 4 % 4 = 0 then v.toNat / 4 * 4 else v.toNat)) ∧
  (∀ (s : State) (off : Nat) (v : Word), s.live = true →
    (hiOf off = none → loOf off = none → exec (.loHiPairWrite off v) s = .next s) ∧
    (isRws off = false → exec (.shadowFieldWrite off v) s = .next s)) ∧
  (∀ (s : State) (v : Word), s.live = true → s.isHead = true → s.on F.GLB_BOOT_STAT_NOT_READY = false →
    exec (.loHiPairWrite 0x8004C v) s = .next { s with hq := { s.hq with loHeld := Map.put s.hq.loHeld 0x8004C v } } ∧
    (∀ lo u, s.takeLo 0x8004C (s.rd (F.NET_MAC_LO 0)) = (lo, u) → exec (.loHiPairWrite 0x80050 v) s =
      .next ((u.wr (F.NET_MAC_LO 0) lo).wr (F.NET_MAC_HI 0) (v.toNat % 65536)))) ∧
  (∀ (s : State) (off : Nat) (v : Word), s.live = true → s.isTile = true → s.on F.GLB_BOOT_STAT_NOT_READY = false →
    s.anyActive = true →
    exec (.tileIdWrite v false) s = .next (s.deny 0x48 3 false) ∧
    (isRws off = true → off ≠ 0x48 → off ≠ 0x10054 → off ≠ 0x30084 → off ≠ 0x30088 → s.on F.GLB_TILE_ID_VALID = true →
      exec (.shadowFieldWrite off v) s = .next (s.deny off 3 false))) ∧
  (∀ (s : State) (v : Word), s.live = true →
    (s.isHead = true → ∀ tr, exec (.tileIdWrite v tr) s = .next s) ∧
    (s.isTile = true → s.on F.GLB_BOOT_STAT_NOT_READY = false →
      (s.anyActive = false → exec (.tileIdWrite v false) s = .next (s.hostId (v.toNat % 512))) ∧
      exec (.tileIdWrite v true) s = .next (s.adoptId (v.toNat % 512)))) ∧
  (∀ (s : State) (v : Word), s.live = true → s.isTile = true → s.on F.GLB_BOOT_STAT_NOT_READY = false → s.anyActive = false →
    (s.frozen = true → exec (.shadowFieldWrite 0xC0040 v) s = .next (s.detect E.STP_SHADOW_BUSY)) ∧
    (s.frozen = false → ∃ t, exec (.shadowFieldWrite 0xC0040 v) s = .next t ∧ t.shadowRd F.LCR_CUR_DEF = v.toNat ∧
      t.regs = s.regs ∧ t.stp.active = s.stp.active ∧ t.lm = s.lm))

/-- A release of PORn (TEST_MODE low) samples the straps, and with them role, side and boot source. Every other command,
a register write among them, keeps them in every state; a supply reset's release samples them as PORn's does, since
R300 resets the device as PORn does. (Cites R1.) -/
def Obligations.RoleKept : Prop :=
  (∀ (s : State) (b : StrapBalls), b.test = false → s.power.phase = .porn → ∃ t, exec (.pornRelease b) s = .next t ∧
    t.power.straps = b ∧ t.isTile = b.role ∧ t.isHead = !b.role ∧
    t.side = (match b.side1, b.side0 with
      | false, true => 1
      | true, false => 2
      | _, _ => 0) ∧
    t.bootSrc = (match b.boot1, b.boot0 with
      | false, true => 1
      | true, false => if b.role then 2 else 1
      | _, _ => 0)) ∧
  (∀ (c : Instr) (s t : State), (∀ b, c ≠ .pornRelease b) → (∀ k b, c ≠ .supplyResetRelease k b) → exec c s = .next t →
    t.power.straps = s.power.straps ∧ t.isTile = s.isTile ∧ t.isHead = s.isHead ∧ t.side = s.side ∧ t.bootSrc = s.bootSrc)

/-- Outside every quiesce window, a source that fires with reaction 3 sets its sticky bit and its pending bit with its
vector as one with reaction 1 does, and raises cause BLOCK_RESIGN (bit 3 of the causes) with no points. In native
mode of a pair, which is a device of SIDE A or B with ARB = 0, the device then resigns; on a single device and in
arbiter mode nothing else happens. (Cites R292.) -/
def Obligations.ResignReaction : Prop :=
  (∀ (s : State) (b i : Nat), s.masked b i = false → ∃ u v : State, u = (s.stuck b i).setPend b i ∧
    v = (if u.pair.resigners.contains (b, i) then u
      else { u with pair := { u.pair with resigners := (b, i) :: u.pair.resigners } }) ∧
    (s.codeOf b i = 1 → s.detect (b, i) = u) ∧
    (s.codeOf b i = 3 →
      (v.isPair = true → v.on F.FBK_CTRL_ARB = false → s.detect (b, i) = v.resign) ∧
      (v.isPair = false ∨ v.on F.FBK_CTRL_ARB = true → s.detect (b, i) = v)) ∧
    v.healthCauses[3]? = some (true, 0)) ∧
  (∀ (s : State) (b i : Nat), s.live = true → s.blockHere b = true → (Map.find (reactDefaults b) i).isSome = true →
    sourceCount (b, i) = none → lmReadSource (b, i) = false → sramSource (b, i) = false → (b, i) ≠ E.LMC_UNCORR →
    exec (.faultEvent b i) s = .next (s.detect (b, i)))

/-- Emitter k's entry is bits 2 (k mod 4) + 1 : 2 (k mod 4) of byte floor(k / 4) of the map at its base: writing its
status puts that status there and leaves every other entry and every other byte of Local Memory as it was. The map's
extent, for R218, is ceil(U V EMIT / 4) rounded up to a multiple of 64. Where no read reaches an entry (no CENSUS
segment, or a Return Map entry that names none) nothing is written. (Cites R239.) -/
def Obligations.StatusMap : Prop :=
  (∀ (s : State) (k st : Nat), Store.wf s.lm = true → st < 4 → ∃ t, s.writeStatus k st = t ∧
    bits (Store.get t.lm (s.stp.active.ptr 2 + k / 4)).toNat (2 * (k % 4)) 2 = st ∧
    (∀ j, j ≠ k → bits (Store.get t.lm (s.stp.active.ptr 2 + j / 4)).toNat (2 * (j % 4)) 2 =
      bits (Store.get s.lm (s.stp.active.ptr 2 + j / 4)).toNat (2 * (j % 4)) 2) ∧
    (∀ a, a ≠ s.stp.active.ptr 2 + k / 4 → Store.get t.lm a = Store.get s.lm a)) ∧
  (∀ (b : Bank) (p : Place), (b.ptr 2, ((p.u * p.v * p.emit + 3) / 4 + 63) / 64 * 64) ∈ tableRanges b p) ∧
  (∀ (s : State) (pl : Place) (r : Run) (b : Nat) (x : Seg) (xs : List Seg) (bri : List Bool),
    s.censusReads pl r b [] bri = s ∧ (pOp x.prim ≠ 5 → s.censusReads pl r b (x :: xs) bri = s.censusReads pl r b xs bri) ∧
    ((∀ c < pN x.prim, mapNone (s.retEntry b x.row c) = true) → s.censusRead pl r b x bri = s))
end

