-- ==== Sys2Proof/Laws/Maps.lean ====
section
/-! SUPPORT. Sparse maps and byte stores: what a read finds after a write, and that every operation keeps the canonical
form; with them the register fields, which live in such a map. -/

namespace Sys2Proof.Machine

variable {α : Type}

/-! ### Maps -/

theorem Map.find_ins_same (m : Map α) (k : Nat) (v : α) (h : ∀ c ∈ m, c.1 ≠ k) : Map.find (Map.ins m k v) k = some v := by
  induction m with
  | nil => simp [Map.ins, Map.find]
  | cons c m ih =>
    have hc : c.1 ≠ k := h c (by simp)
    have ih := ih (fun x hx => h x (by simp [hx]))
    unfold Map.ins
    split
    · simp [Map.find]
    · simp [Map.find, hc, ih]

theorem Map.find_ins_ne (m : Map α) {j k : Nat} (v : α) (h : k ≠ j) : Map.find (Map.ins m k v) j = Map.find m j := by
  induction m with
  | nil => simp [Map.ins, Map.find, h]
  | cons c m ih =>
    unfold Map.ins
    split
    · simp [Map.find, h]
    · simp [Map.find, ih]

theorem Map.find_del_same (m : Map α) (k : Nat) : Map.find (Map.del m k) k = none := by
  induction m with
  | nil => simp [Map.del, Map.find]
  | cons c m ih =>
    unfold Map.del at *
    by_cases h : c.1 = k
    · simpa [h] using ih
    · simpa [h, Map.find] using ih

theorem Map.find_del_ne (m : Map α) {j k : Nat} (h : k ≠ j) : Map.find (Map.del m k) j = Map.find m j := by
  induction m with
  | nil => simp [Map.del, Map.find]
  | cons c m ih =>
    unfold Map.del at *
    by_cases hc : c.1 = k
    · have : c.1 ≠ j := fun e => h (by omega)
      simpa [hc, Map.find, h] using ih
    · simp [hc, Map.find, ih]

@[simp] theorem Map.find_put_same (m : Map α) (k : Nat) (v : α) : Map.find (Map.put m k v) k = some v := by
  unfold Map.put
  refine Map.find_ins_same _ _ _ ?_
  intro c hc
  simpa [Map.del] using (List.mem_filter.mp hc).2

theorem Map.find_put_ne (m : Map α) {j k : Nat} (v : α) (h : k ≠ j) : Map.find (Map.put m k v) j = Map.find m j := by
  rw [Map.put, Map.find_ins_ne _ _ h, Map.find_del_ne _ h]

@[simp] theorem Map.getD_set_same [DecidableEq α] (m : Map α) (k : Nat) (v d : α) : Map.getD (Map.set m k v d) k d = v := by
  unfold Map.set Map.getD
  split
  · next h => simp [Map.find_del_same, h]
  · simp

theorem Map.getD_set_ne [DecidableEq α] (m : Map α) {j k : Nat} (v d e : α) (h : k ≠ j) :
    Map.getD (Map.set m k v d) j e = Map.getD m j e := by
  unfold Map.set Map.getD
  split
  · rw [Map.find_del_ne _ h]
  · rw [Map.find_put_ne _ _ h]

/-! ### Register fields -/

@[simp] theorem State.rd_wr_same (s : State) (f : Fld) (v : Nat) : (s.wr f v).rd f = v % 2 ^ f.len := by
  simp [State.rd, State.wr]

theorem State.rd_wr_ne (s : State) {f g : Fld} (v : Nat) (h : f.key ≠ g.key) : (s.wr f v).rd g = s.rd g := by
  simp [State.rd, State.wr, Map.getD_set_ne _ _ _ _ h]

/-- A field's value depends on the register map alone. -/
theorem State.rd_regs {s t : State} (h : s.regs = t.regs) (f : Fld) : s.rd f = t.rd f := by
  simp [State.rd, h]

/-! ### The canonical form of a map -/

/-- Keys strictly rising, as a property that induction can use. -/
theorem Map.rising_cons {c : Nat × α} {m : Map α} : Map.rising (c :: m) = true ↔ (∀ x ∈ m, c.1 < x.1) ∧ Map.rising m = true := by
  induction m generalizing c with
  | nil => simp [Map.rising]
  | cons d m ih =>
    constructor
    · intro h
      simp only [Map.rising, Bool.and_eq_true, decide_eq_true_eq] at h
      refine ⟨?_, h.2⟩
      intro x hx
      rcases List.mem_cons.mp hx with rfl | hx
      · exact h.1
      · exact lt_trans h.1 ((ih.mp h.2).1 x hx)
    · intro h
      simp only [Map.rising, Bool.and_eq_true, decide_eq_true_eq]
      exact ⟨h.1 d (by simp), h.2⟩

theorem Map.rising_filter {m : Map α} (p : Nat × α → Bool) (h : Map.rising m = true) : Map.rising (m.filter p) = true := by
  induction m with
  | nil => simp [Map.rising]
  | cons c m ih =>
    have h := Map.rising_cons.mp h
    by_cases hp : p c = true
    · rw [List.filter_cons_of_pos hp]
      exact Map.rising_cons.mpr ⟨fun x hx => h.1 x (List.mem_filter.mp hx).1, ih h.2⟩
    · rw [List.filter_cons_of_neg hp]
      exact ih h.2

theorem Map.mem_ins {m : Map α} {k : Nat} {v : α} {x : Nat × α} (h : x ∈ Map.ins m k v) : x = (k, v) ∨ x ∈ m := by
  induction m with
  | nil => simpa [Map.ins] using h
  | cons c m ih =>
    unfold Map.ins at h
    split at h
    · simpa using h
    · rcases List.mem_cons.mp h with h | h
      · simp [h]
      · rcases ih h with h | h
        · exact .inl h
        · simp [h]

theorem Map.rising_ins {m : Map α} {k : Nat} (v : α) (h : Map.rising m = true) (hk : ∀ c ∈ m, c.1 ≠ k) :
    Map.rising (Map.ins m k v) = true := by
  induction m with
  | nil => simp [Map.ins, Map.rising]
  | cons c m ih =>
    have h' := Map.rising_cons.mp h
    unfold Map.ins
    split
    · next hlt =>
      refine Map.rising_cons.mpr ⟨?_, h⟩
      intro x hx
      rcases List.mem_cons.mp hx with rfl | hx
      · exact hlt
      · exact lt_trans hlt (h'.1 x hx)
    · next hge =>
      refine Map.rising_cons.mpr ⟨?_, ih h'.2 (fun x hx => hk x (by simp [hx]))⟩
      intro x hx
      have hc := hk c (by simp)
      rcases Map.mem_ins hx with rfl | hx
      · show c.1 < k
        have : ¬ k < c.1 := hge
        omega
      · exact h'.1 x hx

theorem Map.rising_put {m : Map α} (k : Nat) (v : α) (h : Map.rising m = true) : Map.rising (Map.put m k v) = true := by
  refine Map.rising_ins _ (Map.rising_filter _ h) ?_
  intro c hc
  simpa using (List.mem_filter.mp hc).2

end Sys2Proof.Machine
end

