-- ==== Sys2Proof/Laws/Descriptors.lean ====
section
/-! SUPPORT. The shell every command shares: what a descriptor does before its own effect, and the commands that act only
while the clocks run. -/

namespace Sys2Proof.Machine

theorem onLive_of_live {s : State} (f : State → State) (h : s.live = true) : onLive s f = .next (f s) := by
  simp [onLive, h]

theorem onLive_of_stopped {s : State} (f : State → State) (h : s.live = false) : onLive s f = .next s := by
  simp [onLive, h]

theorem onRun_of_runs {s : State} (f : State → State) (h : s.runs = true) : onRun s f = .next (f s) := by
  have h' : (s.live && !s.care.shut) = true := h
  simp [onRun, h']

theorem onPort_of_runs {s : State} {k : Nat} (f : State → State) (h : k < s.portCount) (hs : s.care.shut = false) :
    onPort k f s = f s := by
  simp [onPort, h, hs]

/-- An accepted descriptor has its opcode's own effect. -/
theorem onOp_of_accepts {s : State} {d : Desc} {op : Nat} {role : OpRole} (f : State → State) (h : s.accepts d op role = true) :
    onOp s d op role f = .next (f s) := by
  simp only [State.accepts, Bool.and_eq_true, Bool.not_eq_true', Option.isNone_iff_eq_none] at h
  simp [onOp, onLive, h]

theorem live_of_accepts {s : State} {d : Desc} {op : Nat} {role : OpRole} (h : s.accepts d op role = true) : s.live = true := by
  simp only [State.accepts, Bool.and_eq_true] at h
  exact h.1.1.1

/-- A fresh good message of its KIND acts on the head that has noted it. -/
theorem onRet_of_takes {s : State} {m : RetMsg} {kind : Nat} (f : State → State) (h : s.takes m kind = true) :
    onRet m kind f s = .next (f (s.arrived m)) := by
  simp only [State.takes, Bool.and_eq_true, beq_iff_eq] at h
  obtain ⟨⟨⟨⟨hl, ht⟩, hf⟩, hm⟩, hk⟩ := h
  rw [onRet, onRetAgain, onLive_of_live _ hl]
  simp only [ht, hm, hf, hk, bne_self_eq_false, Bool.and_false, Bool.not_true, Bool.false_eq_true, if_false, if_true]
  simp only [State.arrived, State.noted]

/-- A copy of a class that a port receives well goes on and reaches its taker. -/
theorem onCopy_of_receives {s : State} {k : Nat} {b : Bytes} {cls : Nat} (i : Nat) {l : List Nat} (f : State → State)
    (h : s.receives k b cls = true) (hc : l.contains cls = true) : s.onCopy k i b l f = f (s.pass k i b) := by
  simp only [State.receives, Bool.and_eq_true, Bool.not_eq_true', beq_iff_eq, decide_eq_true_eq] at h
  obtain ⟨⟨⟨⟨⟨⟨⟨_, _⟩, _⟩, ha⟩, he⟩, hf⟩, hr⟩, hs⟩ := h
  simp only [State.onCopy, ha, he, hf, hr, hs, hc, Bool.not_true, Bool.or_self, Bool.false_eq_true, if_false, if_true]

/-- A class-3 slot with the expected SEQ acts on the tile that has taken it. -/
theorem onClass3_of_takes {s : State} {k i kind : Nat} {b : Bytes} (f : Bytes → State → State)
    (h : s.takesSlot k i b kind = true) : onClass3 k i kind b f s = .next (f (slotBody b) (s.tookSlot k i b)) := by
  simp only [State.takesSlot, Bool.and_eq_true, beq_iff_eq] at h
  obtain ⟨⟨⟨⟨⟨⟨hr, hh⟩, hm⟩, he⟩, hk⟩, h1⟩, hz⟩ := h
  have hr' := hr
  simp only [State.receives, Bool.and_eq_true, decide_eq_true_eq] at hr'
  have ht : (s.pass k i b).isTile = true := by
    simp only [State.forMe, Bool.and_eq_true] at hm
    exact hm.1.1
  rw [onClass3, onLive_of_live _ hr'.1.1.1.1.1.1.1, onPort_of_runs _ hr'.1.1.1.1.1.2 (by simpa using hr'.1.1.1.1.1.1.2),
    onCopy_of_receives i _ hr (by decide)]
  simp only [ht, State.takeClass3, hm, hh, he, hk, h1, hz, State.tookSlot, bne_self_eq_false, Bool.and_false, Bool.not_true,
    Bool.or_self, Bool.false_eq_true, if_false, if_true]

/-- Every descriptor goes through the shared judgement. -/
theorem exec_descriptor {i : Instr} {d : Desc} {op : Nat} {role : OpRole} (s : State)
    (h : descriptorOf i = some (d, op, role)) : ∃ f, exec i s = onOp s d op role f := by
  cases i
  all_goals first
    | (cases h; done)
    | (cases h; exact ⟨_, rfl⟩)
    | (cases h; unfold exec execNop; exact ⟨_, rfl⟩)

/-- What `markDone` does: the first unfinished entry of the descriptor takes the result. -/
theorem markDone_at (d : Desc) (op cq : Nat) (r : Done) (f : Flight) (after before : List Flight) (hq : f.sq = d.sq)
    (hi : f.sqHead = d.sqHead) (hd : f.done = none)
    (hb : ∀ g ∈ before, ¬(g.sq = d.sq ∧ g.sqHead = d.sqHead ∧ g.done = none)) :
    markDone (before ++ f :: after) d op cq r = before ++ { f with op := op, done := some r, ranger := false } :: after := by
  induction before with
  | nil => simp [markDone, hq, hi, hd]
  | cons g l ih =>
    have hg := hb g (by simp)
    simp only [List.cons_append, markDone, if_neg hg]
    rw [ih (fun x hx => hb x (by simp [hx]))]

end Sys2Proof.Machine
end

