-- ==== Sys2Proof/Laws/Memory.lean ====
section
/-! SUPPORT. What an operation keeps of the two byte stores and the straps, said once for every property of them: `Mem Q s`
says that `Q` holds of Local Memory, the Seedbank and the straps.  The lemmas of the files Keeps… say that each operation of
the machine keeps `Mem Q`; one that writes Local Memory or the Seedbank asks that `Q` survives such a write. -/

namespace Sys2Proof.Machine

variable {Q : Store → Store → StrapBalls → Prop}

/-- A property of Local Memory, the Seedbank and the straps. -/
def Mem (Q : Store → Store → StrapBalls → Prop) (s : State) : Prop := Q s.lm s.sdb s.power.straps

/-- The property holds of the next state, if there is one. -/
def OutMem (Q : Store → Store → StrapBalls → Prop) (o : Host.Outcome State Fault Refusal) : Prop :=
  ∀ t, o = .next t → Mem Q t

/-- Writes of Local Memory keep the property. -/
def WritesLm (Q : Store → Store → StrapBalls → Prop) : Prop :=
  ∀ lm sdb st a bs, Q lm sdb st → Q (Store.write lm a bs) sdb st

/-- Writes and clearings of the Seedbank keep the property. -/
def WritesSdb (Q : Store → Store → StrapBalls → Prop) : Prop :=
  (∀ lm sdb st a bs, Q lm sdb st → Q lm (Store.write sdb a bs) st) ∧
    (∀ lm sdb st (p : Host.Cell → Bool), Q lm sdb st → Q lm (sdb.filter p) st)

/-- Resets keep the property: Local Memory is emptied, and a release may bring new straps without TEST_MODE. -/
def Resets (Q : Store → Store → StrapBalls → Prop) : Prop :=
  (∀ lm sdb st, Q lm sdb st → Q [] sdb st) ∧
    (∀ lm sdb st (st' : StrapBalls), st'.test = false → Q lm sdb st → Q [] sdb st')

theorem mem_in {s : State} (h : Mem Q s) : Q s.lm s.sdb s.power.straps := h

theorem mem_snd {α : Type} {a : α} {s : State} (h : Mem Q s) : Mem Q (a, s).2 := h

theorem out_next {s : State} (h : Mem Q s) : OutMem Q (.next s) := by
  intro t ht
  cases ht
  exact h

theorem out_refused {r : Refusal} : OutMem Q (.refused r) := by
  intro t ht
  cases ht

theorem keep_ite {c : Prop} [Decidable c] {a b : State} (ha : Mem Q a) (hb : Mem Q b) : Mem Q (if c then a else b) := by
  split
  · exact ha
  · exact hb

theorem keep_ite2 {α : Type} {c : Prop} [Decidable c] {a b : α × State} (ha : Mem Q a.2) (hb : Mem Q b.2) :
    Mem Q (if c then a else b).2 := by
  split
  · exact ha
  · exact hb

theorem out_ite {c : Prop} [Decidable c] {a b : Host.Outcome State Fault Refusal} (ha : OutMem Q a) (hb : OutMem Q b) :
    OutMem Q (if c then a else b) := by
  split
  · exact ha
  · exact hb

theorem keep_foldl {α : Type} {f : State → α → State} {l : List α} {s : State} (h : Mem Q s)
    (hf : ∀ s x, Mem Q s → Mem Q (f s x)) : Mem Q (l.foldl f s) := by
  induction l generalizing s with
  | nil => exact h
  | cons x l ih => exact ih (hf s x h)

theorem keep_foldl2 {α β : Type} {f : β × State → α → β × State} {l : List α} {p : β × State} (h : Mem Q p.2)
    (hf : ∀ p x, Mem Q p.2 → Mem Q (f p x).2) : Mem Q (l.foldl f p).2 := by
  induction l generalizing p with
  | nil => exact h
  | cons x l ih => exact ih (hf p x h)

end Sys2Proof.Machine
end

