-- ==== Sys2Proof/Laws/KeepsQueue.lean ====
section
/-! SUPPORT. The operations and meanings of Time, Cap, Lanes, Ops, Operands, AudioIn, Clock, Feed, Queue, Slot, Return keep any property of the stores and the straps that the writes they
make keep (see Laws/Memory.lean). -/

namespace Sys2Proof.Machine

variable {Q : Store → Store → StrapBalls → Prop}

theorem State.drawn_keeps (s : State) (hs : Mem Q s) : Mem Q (State.drawn s) := by
  unfold State.drawn
  unfold Mem; dsimp only; refine mem_in ?_
  with_reducible exact hs

theorem onLive_keeps (s : State) (f : State → State) (hs : Mem Q s) (hf : ∀ y0, Mem Q y0 → Mem Q (f y0)) : OutMem Q (onLive s f) := by
  unfold onLive
  with_reducible refine out_next ?_
  with_reducible refine keep_ite ?_ ?_
  · with_reducible refine hf _ ?_
    with_reducible exact hs
  · with_reducible exact hs

theorem State.advance_keeps (s : State) (n : Nat) (hs : Mem Q s) : Mem Q (State.advance s n) := by
  unfold State.advance
  unfold Mem; dsimp only; refine mem_in ?_
  with_reducible exact hs

theorem State.wr_keeps (s : State) (f : Fld) (v : Nat) (hs : Mem Q s) : Mem Q (State.wr s f v) := by
  unfold State.wr
  unfold Mem; dsimp only; refine mem_in ?_
  with_reducible exact hs

theorem onRun_keeps (s : State) (f : State → State) (hs : Mem Q s) (hf : ∀ y0, Mem Q y0 → Mem Q (f y0)) : OutMem Q (onRun s f) := by
  unfold onRun
  with_reducible refine out_next ?_
  with_reducible refine keep_ite ?_ ?_
  · with_reducible refine hf _ ?_
    with_reducible exact hs
  · with_reducible exact hs

theorem State.emit_keeps (s : State) (o : Out) (hs : Mem Q s) : Mem Q (State.emit s o) := by
  unfold State.emit
  unfold Mem; dsimp only; refine mem_in ?_
  with_reducible exact hs

theorem State.setPort_keeps (s : State) (k : Nat) (p : Port) (hs : Mem Q s) : Mem Q (State.setPort s k p) := by
  unfold State.setPort
  extract_lets -merge +onlyGivenNames a1
  try clear_value a1
  unfold Mem; dsimp only; refine mem_in ?_
  with_reducible exact hs

theorem idle_keeps (s : State) (hs : Mem Q s) : Mem Q (idle s) := by
  unfold idle
  with_reducible refine keep_ite ?_ ?_
  · with_reducible refine State.advance_keeps _ _ ?_
    with_reducible exact hs
  · with_reducible exact hs

theorem State.advanceTo_keeps (s : State) (cycle : Nat) (hs : Mem Q s) : Mem Q (State.advanceTo s cycle) := by
  unfold State.advanceTo
  with_reducible refine State.advance_keeps _ _ ?_
  with_reducible exact hs

theorem State.incBy_keeps (s : State) (f : Fld) (n : Nat) (hs : Mem Q s) : Mem Q (State.incBy s f n) := by
  unfold State.incBy
  with_reducible refine State.wr_keeps _ _ _ ?_
  with_reducible exact hs

theorem State.pairWr_keeps (s : State) (lo : Fld) (hi : Fld) (v : Nat) (hs : Mem Q s) : Mem Q (State.pairWr s lo hi v) := by
  unfold State.pairWr
  with_reducible refine State.wr_keeps _ _ _ ?_
  with_reducible refine State.wr_keeps _ _ _ ?_
  with_reducible exact hs

theorem State.wrHard_keeps (s : State) (f : Fld) (v : Nat) (hs : Mem Q s) : Mem Q (State.wrHard s f v) := by
  unfold State.wrHard
  extract_lets -merge +onlyGivenNames a1 a2
  try clear_value a1
  have ha2 : Mem Q a2 := by
    subst a2
    with_reducible refine State.wr_keeps _ _ _ ?_
    with_reducible exact hs
  try clear_value a2
  unfold Mem; dsimp only; refine mem_in ?_
  with_reducible exact ha2

theorem State.raise_keeps (s : State) (f : Fld) (i : Nat) (hs : Mem Q s) : Mem Q (State.raise s f i) := by
  unfold State.raise
  extract_lets -merge +onlyGivenNames a1 a2 a3
  try clear_value a1
  try clear_value a2
  have ha3 : Mem Q a3 := by
    subst a3
    with_reducible refine State.wr_keeps _ _ _ ?_
    with_reducible exact hs
  try clear_value a3
  unfold Mem; dsimp only; refine mem_in ?_
  with_reducible exact ha3

theorem State.inc_keeps (s : State) (f : Fld) (hs : Mem Q s) : Mem Q (State.inc s f) := by
  unfold State.inc
  with_reducible refine State.incBy_keeps _ _ _ ?_
  with_reducible exact hs

theorem State.keepCap_keeps (s : State) (k : Nat) (hs : Mem Q s) : Mem Q (State.keepCap s k) := by
  unfold State.keepCap
  extract_lets -merge +onlyGivenNames a1
  try clear_value a1
  with_reducible refine keep_ite ?_ ?_
  · refine keep_foldl ?_ ?_
    · with_reducible exact hs
    · intro x1 x2 h1
      with_reducible refine State.wr_keeps _ _ _ ?_
      with_reducible exact h1
  · with_reducible exact hs

theorem State.refreshPort_keeps (s : State) (k : Nat) (hs : Mem Q s) : Mem Q (State.refreshPort s k) := by
  unfold State.refreshPort
  extract_lets -merge +onlyGivenNames a1 a2
  try clear_value a1
  try clear_value a2
  with_reducible refine keep_ite ?_ ?_
  · with_reducible refine State.setPort_keeps _ _ _ ?_
    with_reducible refine State.wr_keeps _ _ _ ?_
    with_reducible exact hs
  · with_reducible exact hs

theorem State.refreshReady_keeps (s : State) (hs : Mem Q s) : Mem Q (State.refreshReady s) := by
  unfold State.refreshReady
  refine keep_foldl ?_ ?_
  · with_reducible exact hs
  · intro x1 x2 h1
    with_reducible refine State.refreshPort_keeps _ _ ?_
    with_reducible exact h1

theorem State.takeBlocks_keeps (s : State) (k : Nat) (rx : List (List Block)) (hs : Mem Q s) : Mem Q (State.takeBlocks s k rx) := by
  unfold State.takeBlocks
  extract_lets -merge +onlyGivenNames a1 a2 a3 a4
  try clear_value a1
  have ha2 : Mem Q a2 := by
    subst a2
    with_reducible refine State.incBy_keeps _ _ _ ?_
    with_reducible exact hs
  try clear_value a2
  have ha3 : Mem Q a3 := by
    subst a3
    with_reducible refine State.incBy_keeps _ _ _ ?_
    with_reducible exact ha2
  try clear_value a3
  try clear_value a4
  with_reducible refine keep_ite ?_ ?_
  · with_reducible exact hs
  · with_reducible refine State.setPort_keeps _ _ _ ?_
    with_reducible exact ha3

theorem State.sendStripes_keeps (s : State) (k : Nat) (typ : Nat) (n : Nat) (payload : Bytes) (hs : Mem Q s) : Mem Q (State.sendStripes s k typ n payload) := by
  unfold State.sendStripes
  with_reducible refine State.emit_keeps _ _ ?_
  with_reducible exact hs

theorem State.sendMarker_keeps (s : State) (k : Nat) (hs : Mem Q s) : Mem Q (State.sendMarker s k) := by
  unfold State.sendMarker
  with_reducible refine State.sendStripes_keeps _ _ _ _ _ ?_
  with_reducible refine State.drawn_keeps _ ?_
  with_reducible exact hs

theorem State.sendLink_keeps (s : State) (k : Nat) (cap : Option Bytes) (hs : Mem Q s) : Mem Q (State.sendLink s k cap) := by
  unfold State.sendLink
  extract_lets -merge +onlyGivenNames a1
  have ha1 : Mem Q a1 := by
    subst a1
    with_reducible refine State.sendMarker_keeps _ _ ?_
    with_reducible exact hs
  try clear_value a1
  split <;> first
    | (with_reducible refine State.sendStripes_keeps _ _ _ _ _ ?_
       with_reducible exact ha1)
    | (with_reducible refine State.sendStripes_keeps _ _ _ _ _ ?_
       with_reducible refine State.sendStripes_keeps _ _ _ _ _ ?_
       with_reducible exact ha1)

theorem State.countCorr_keeps (s : State) (hs : Mem Q s) : Mem Q (State.countCorr s) := by
  unfold State.countCorr
  extract_lets -merge +onlyGivenNames a1
  try clear_value a1
  unfold Mem; dsimp only; refine mem_in ?_
  with_reducible exact hs

theorem State.pushMsg_keeps (s : State) (m : Bytes) (hs : Mem Q s) : Mem Q (State.pushMsg s m) := by
  unfold State.pushMsg
  extract_lets -merge +onlyGivenNames a1
  try clear_value a1
  unfold Mem; dsimp only; refine mem_in ?_
  with_reducible exact hs

theorem State.noteHiz_keeps (s : State) (hs : Mem Q s) : Mem Q (State.noteHiz s) := by
  unfold State.noteHiz
  extract_lets -merge +onlyGivenNames a1
  try clear_value a1
  unfold Mem; dsimp only; refine mem_in ?_
  with_reducible exact hs

theorem State.lmWrite_keeps (W : WritesLm Q) (s : State) (a : Nat) (bs : Bytes) (hs : Mem Q s) : Mem Q (State.lmWrite s a bs) :=
  W _ _ _ a bs hs

theorem State.notePace_keeps (s : State) (hs : Mem Q s) : Mem Q (State.notePace s) := by
  unfold State.notePace
  extract_lets -merge +onlyGivenNames a1 a2
  try clear_value a1
  try clear_value a2
  unfold Mem; dsimp only; refine mem_in ?_
  with_reducible exact hs

theorem State.raiseEvent_keeps (s : State) (b : Nat) (hs : Mem Q s) : Mem Q (State.raiseEvent s b) := by
  unfold State.raiseEvent
  extract_lets -merge +onlyGivenNames a1 a2 a3
  try clear_value a1
  have ha2 : Mem Q a2 := by
    subst a2
    with_reducible refine State.pushMsg_keeps _ _ ?_
    with_reducible exact hs
  try clear_value a2
  try clear_value a3
  with_reducible refine keep_ite ?_ ?_
  · unfold Mem; dsimp only; refine mem_in ?_
    with_reducible exact hs
  · unfold Mem; dsimp only; refine mem_in ?_
    with_reducible exact ha2

theorem State.countUncorr_keeps (s : State) (hs : Mem Q s) : Mem Q (State.countUncorr s) := by
  unfold State.countUncorr
  extract_lets -merge +onlyGivenNames a1
  try clear_value a1
  unfold Mem; dsimp only; refine mem_in ?_
  with_reducible exact hs

theorem State.sendVector_keeps (s : State) (v : Nat) (hs : Mem Q s) : Mem Q (State.sendVector s v) := by
  unfold State.sendVector
  extract_lets -merge +onlyGivenNames a1
  try clear_value a1
  with_reducible refine keep_ite ?_ ?_
  · with_reducible refine keep_ite ?_ ?_
    · with_reducible refine State.emit_keeps _ _ ?_
      with_reducible exact hs
    · unfold Mem; dsimp only; refine mem_in ?_
      with_reducible exact hs
  · with_reducible exact hs

theorem State.driveFbclk_keeps (s : State) (hs : Mem Q s) : Mem Q (State.driveFbclk s) := by
  unfold State.driveFbclk
  extract_lets -merge +onlyGivenNames a1 a2
  try clear_value a1
  with_reducible refine keep_ite ?_ ?_
  · with_reducible exact hs
  · with_reducible refine State.emit_keeps _ _ ?_
    unfold Mem; dsimp only; refine mem_in ?_
    with_reducible exact hs

theorem State.notify_keeps (s : State) (b : Nat) (hs : Mem Q s) : Mem Q (State.notify s b) := by
  unfold State.notify
  with_reducible refine keep_ite ?_ ?_
  · with_reducible refine State.sendVector_keeps _ _ ?_
    with_reducible refine State.raiseEvent_keeps _ _ ?_
    with_reducible exact hs
  · with_reducible refine State.sendVector_keeps _ _ ?_
    with_reducible exact hs

theorem State.endFeed_keeps (s : State) (k : Nat) (hs : Mem Q s) : Mem Q (State.endFeed s k) := by
  unfold State.endFeed
  extract_lets -merge +onlyGivenNames a1 a2 a3 a4
  try clear_value a1
  try clear_value a2
  try clear_value a3
  have ha4 : Mem Q a4 := by
    subst a4
    with_reducible refine State.setPort_keeps _ _ _ ?_
    with_reducible exact hs
  try clear_value a4
  with_reducible refine keep_ite ?_ ?_
  · with_reducible refine State.wr_keeps _ _ _ ?_
    with_reducible exact ha4
  · with_reducible exact ha4

theorem State.resetAudio_keeps (s : State) (hs : Mem Q s) : Mem Q (State.resetAudio s) := by
  unfold State.resetAudio
  extract_lets -merge +onlyGivenNames a1 a2
  have ha1 : Mem Q a1 := by
    subst a1
    refine keep_foldl ?_ ?_
    · with_reducible exact hs
    · intro x1 x2 h1
      extract_lets -merge +onlyGivenNames a3
      try clear_value a3
      with_reducible refine State.wr_keeps _ _ _ ?_
      with_reducible exact h1
  try clear_value a1
  try clear_value a2
  unfold Mem; dsimp only; refine mem_in ?_
  with_reducible exact ha1

theorem State.enterState_keeps (s : State) (k : Nat) (code : Nat) (hs : Mem Q s) : Mem Q (State.enterState s k code) := by
  unfold State.enterState
  extract_lets -merge +onlyGivenNames a1 a2
  have ha1 : Mem Q a1 := by
    subst a1
    with_reducible refine State.wr_keeps _ _ _ ?_
    with_reducible exact hs
  try clear_value a1
  try clear_value a2
  with_reducible refine State.setPort_keeps _ _ _ ?_
  with_reducible exact ha1

theorem State.setPend_keeps (s : State) (b : Nat) (i : Nat) (hs : Mem Q s) : Mem Q (State.setPend s b i) := by
  unfold State.setPend
  extract_lets -merge +onlyGivenNames a1
  have ha1 : Mem Q a1 := by
    subst a1
    with_reducible refine State.raise_keeps _ _ _ ?_
    with_reducible exact hs
  try clear_value a1
  with_reducible refine keep_ite ?_ ?_
  · with_reducible exact hs
  · with_reducible refine keep_ite ?_ ?_
    · with_reducible refine State.notify_keeps _ _ ?_
      with_reducible exact ha1
    · with_reducible exact ha1

theorem State.record_keeps (s : State) (b : Nat) (i : Nat) (hs : Mem Q s) : Mem Q (State.record s b i) := by
  unfold State.record
  extract_lets -merge +onlyGivenNames a1 a2 a3
  have ha1 : Mem Q a1 := by
    subst a1
    with_reducible refine State.raise_keeps _ _ _ ?_
    with_reducible exact hs
  try clear_value a1
  have ha2 : Mem Q a2 := by
    subst a2
    with_reducible refine keep_ite ?_ ?_
    · with_reducible exact ha1
    · with_reducible refine State.setPend_keeps _ _ _ ?_
      with_reducible exact ha1
  try clear_value a2
  try clear_value a3
  with_reducible refine keep_ite ?_ ?_
  · unfold Mem; dsimp only; refine mem_in ?_
    with_reducible exact ha2
  · with_reducible exact ha2

theorem State.dropPort_keeps (s : State) (k : Nat) (code : Nat) (hs : Mem Q s) : Mem Q (State.dropPort s k code) := by
  unfold State.dropPort
  extract_lets -merge +onlyGivenNames a1 a2 a3 a4 a5
  have ha1 : Mem Q a1 := by
    subst a1
    with_reducible refine State.keepCap_keeps _ _ ?_
    with_reducible exact hs
  try clear_value a1
  try clear_value a2
  have ha3 : Mem Q a3 := by
    subst a3
    with_reducible refine State.setPort_keeps _ _ _ ?_
    with_reducible exact ha1
  try clear_value a3
  have ha4 : Mem Q a4 := by
    subst a4
    with_reducible refine State.wr_keeps _ _ _ ?_
    with_reducible refine State.wr_keeps _ _ _ ?_
    with_reducible refine State.wr_keeps _ _ _ ?_
    with_reducible exact ha3
  try clear_value a4
  have ha5 : Mem Q a5 := by
    subst a5
    with_reducible refine State.wr_keeps _ _ _ ?_
    with_reducible refine State.wr_keeps _ _ _ ?_
    with_reducible refine State.wr_keeps _ _ _ ?_
    with_reducible exact ha4
  try clear_value a5
  with_reducible refine State.endFeed_keeps _ _ ?_
  with_reducible refine State.enterState_keeps _ _ _ ?_
  with_reducible exact ha5

theorem State.takeFbclk_keeps (s : State) (hs : Mem Q s) : Mem Q (State.takeFbclk s) := by
  unfold State.takeFbclk
  extract_lets -merge +onlyGivenNames a1 a2
  have ha1 : Mem Q a1 := by
    subst a1
    with_reducible refine State.wr_keeps _ _ _ ?_
    with_reducible refine State.wr_keeps _ _ _ ?_
    with_reducible refine State.wr_keeps _ _ _ ?_
    with_reducible exact hs
  try clear_value a1
  with_reducible refine State.refreshReady_keeps _ ?_
  unfold Mem; dsimp only; refine mem_in ?_
  with_reducible exact ha1

theorem State.flag_keeps (s : State) (e : Nat × Nat) (hs : Mem Q s) : Mem Q (State.flag s e) := by
  unfold State.flag
  with_reducible refine keep_ite ?_ ?_
  · with_reducible refine State.inc_keeps _ _ ?_
    with_reducible exact hs
  · with_reducible refine State.record_keeps _ _ _ ?_
    with_reducible exact hs

theorem State.cutByReset_keeps (s : State) (hs : Mem Q s) : Mem Q (State.cutByReset s) := by
  unfold State.cutByReset
  extract_lets -merge +onlyGivenNames a1 a2
  have ha1 : Mem Q a1 := by
    subst a1
    refine keep_foldl ?_ ?_
    · with_reducible exact hs
    · intro x1 x2 h1
      with_reducible refine State.flag_keeps _ _ ?_
      with_reducible refine State.inc_keeps _ _ ?_
      with_reducible exact h1
  try clear_value a1
  try clear_value a2
  unfold Mem; dsimp only; refine mem_in ?_
  with_reducible exact ha1

theorem State.cutSource_keeps (s : State) (p : Nat) (x : Nat × Source) (hs : Mem Q s) : Mem Q (State.cutSource s p x) := by
  unfold State.cutSource
  extract_lets -merge +onlyGivenNames a1 a2
  try clear_value a1
  try clear_value a2
  split <;> first
    | (with_reducible exact hs)
    | (extract_lets -merge +onlyGivenNames a3 a4 a5 a6
       try clear_value a3
       have ha4 : Mem Q a4 := by
         subst a4
         unfold Mem; dsimp only; refine mem_in ?_
         with_reducible exact hs
       try clear_value a4
       have ha5 : Mem Q a5 := by
         subst a5
         with_reducible refine keep_ite ?_ ?_
         · with_reducible refine State.wr_keeps _ _ _ ?_
           with_reducible exact ha4
         · with_reducible exact ha4
       try clear_value a5
       have ha6 : Mem Q a6 := by
         subst a6
         with_reducible refine State.wr_keeps _ _ _ ?_
         with_reducible exact ha5
       try clear_value a6
       with_reducible refine keep_ite ?_ ?_
       · with_reducible refine keep_ite ?_ ?_
         · with_reducible refine State.flag_keeps _ _ ?_
           with_reducible exact ha6
         · with_reducible exact ha6
       · with_reducible exact hs)

theorem State.resign_keeps (s : State) (hs : Mem Q s) : Mem Q (State.resign s) := by
  unfold State.resign
  extract_lets -merge +onlyGivenNames a1 a2 a3 a4 a5 a6 a7
  have ha1 : Mem Q a1 := by
    subst a1
    with_reducible refine State.wr_keeps _ _ _ ?_
    with_reducible refine State.wr_keeps _ _ _ ?_
    with_reducible refine State.wr_keeps _ _ _ ?_
    with_reducible exact hs
  try clear_value a1
  try clear_value a2
  have ha3 : Mem Q a3 := by
    subst a3
    unfold Mem; dsimp only; refine mem_in ?_
    with_reducible exact ha1
  try clear_value a3
  have ha4 : Mem Q a4 := by
    subst a4
    with_reducible refine State.driveFbclk_keeps _ ?_
    with_reducible refine State.noteHiz_keeps _ ?_
    with_reducible exact ha3
  try clear_value a4
  try clear_value a5
  have ha6 : Mem Q a6 := by
    subst a6
    unfold Mem; dsimp only; refine mem_in ?_
    with_reducible exact ha4
  try clear_value a6
  have ha7 : Mem Q a7 := by
    subst a7
    with_reducible refine keep_ite ?_ ?_
    · with_reducible refine State.takeFbclk_keeps _ ?_
      with_reducible exact ha6
    · with_reducible exact ha6
  try clear_value a7
  with_reducible refine keep_ite ?_ ?_
  · with_reducible refine State.flag_keeps _ _ ?_
    with_reducible exact ha7
  · with_reducible exact hs

theorem State.resignNative_keeps (s : State) (hs : Mem Q s) : Mem Q (State.resignNative s) := by
  unfold State.resignNative
  with_reducible refine keep_ite ?_ ?_
  · with_reducible refine State.resign_keeps _ ?_
    with_reducible exact hs
  · with_reducible exact hs

theorem State.abandonPass_keeps (s : State) (hs : Mem Q s) : Mem Q (State.abandonPass s) := by
  unfold State.abandonPass
  extract_lets -merge +onlyGivenNames a1
  try clear_value a1
  split <;> first
    | (with_reducible exact hs)
    | (extract_lets -merge +onlyGivenNames a2
       try clear_value a2
       with_reducible refine State.flag_keeps _ _ ?_
       unfold Mem; dsimp only; refine mem_in ?_
       with_reducible exact hs)

theorem State.resetNet_keeps (s : State) (p : Nat) (hs : Mem Q s) : Mem Q (State.resetNet s p) := by
  unfold State.resetNet
  extract_lets -merge +onlyGivenNames a1 a2 a3
  have ha1 : Mem Q a1 := by
    subst a1
    with_reducible refine State.wr_keeps _ _ _ ?_
    with_reducible refine State.wr_keeps _ _ _ ?_
    with_reducible refine State.wr_keeps _ _ _ ?_
    with_reducible exact hs
  try clear_value a1
  try clear_value a2
  try clear_value a3
  refine keep_foldl ?_ ?_
  · unfold Mem; dsimp only; refine mem_in ?_
    with_reducible exact ha1
  · intro x1 x2 h1
    with_reducible refine State.cutSource_keeps _ _ _ ?_
    with_reducible exact h1

theorem State.resetEffect_keeps (s : State) (b : Nat) (hs : Mem Q s) : Mem Q (State.resetEffect s b) := by
  unfold State.resetEffect
  with_reducible refine keep_ite ?_ ?_
  · with_reducible refine keep_ite ?_ ?_
    · with_reducible refine State.dropPort_keeps _ _ _ ?_
      with_reducible exact hs
    · with_reducible exact hs
  · with_reducible refine keep_ite ?_ ?_
    · with_reducible refine State.resetNet_keeps _ _ ?_
      with_reducible exact hs
    · with_reducible refine keep_ite ?_ ?_
      · with_reducible refine State.abandonPass_keeps _ ?_
        with_reducible exact hs
      · with_reducible refine keep_ite ?_ ?_
        · with_reducible refine State.cutByReset_keeps _ ?_
          with_reducible exact hs
        · with_reducible refine keep_ite ?_ ?_
          · with_reducible refine State.resetAudio_keeps _ ?_
            with_reducible exact hs
          · with_reducible exact hs

theorem State.blockReset_keeps (s : State) (b : Nat) (hs : Mem Q s) : Mem Q (State.blockReset s b) := by
  unfold State.blockReset
  split <;> first
    | (with_reducible exact hs)
    | (extract_lets -merge +onlyGivenNames a1
       have ha1 : Mem Q a1 := by
         subst a1
         unfold Mem; dsimp only; refine mem_in ?_
         with_reducible exact hs
       try clear_value a1
       with_reducible refine State.resetEffect_keeps _ _ ?_
       with_reducible exact ha1)

theorem State.detect_keeps (s : State) (e : Nat × Nat) (hs : Mem Q s) : Mem Q (State.detect s e) := by
  unfold State.detect
  extract_lets -merge +onlyGivenNames a1
  have ha1 : Mem Q a1 := by
    subst a1
    with_reducible refine State.record_keeps _ _ _ ?_
    with_reducible exact hs
  try clear_value a1
  with_reducible refine keep_ite ?_ ?_
  · with_reducible refine State.record_keeps _ _ _ ?_
    with_reducible exact hs
  · with_reducible refine keep_ite ?_ ?_
    · with_reducible refine State.inc_keeps _ _ ?_
      with_reducible exact hs
    · split <;> first
        | (with_reducible exact ha1)
        | (with_reducible exact ha1)
        | (with_reducible refine keep_ite ?_ ?_
           · with_reducible refine State.flag_keeps _ _ ?_
             with_reducible exact ha1
           · with_reducible refine State.blockReset_keeps _ _ ?_
             with_reducible exact ha1)
        | (with_reducible refine State.resignNative_keeps _ ?_
           with_reducible exact ha1)

theorem State.lmUncorr_keeps (s : State) (hs : Mem Q s) : Mem Q (State.lmUncorr s) := by
  unfold State.lmUncorr
  with_reducible refine State.countUncorr_keeps _ ?_
  with_reducible refine State.detect_keeps _ _ ?_
  with_reducible refine State.inc_keeps _ _ ?_
  with_reducible exact hs

theorem State.detectIf_keeps (s : State) (c : Bool) (e : Nat × Nat) (hs : Mem Q s) : Mem Q (State.detectIf s c e) := by
  unfold State.detectIf
  with_reducible refine keep_ite ?_ ?_
  · with_reducible refine State.detect_keeps _ _ ?_
    with_reducible exact hs
  · with_reducible exact hs

theorem State.setSq_keeps (s : State) (i : Nat) (q : Sq) (hs : Mem Q s) : Mem Q (State.setSq s i q) := by
  unfold State.setSq
  extract_lets -merge +onlyGivenNames a1
  try clear_value a1
  unfold Mem; dsimp only; refine mem_in ?_
  with_reducible exact hs

theorem settleDeletes_keeps (l : List (Nat × Desc)) (s : State) (hs : Mem Q s) : Mem Q (settleDeletes l s) := by
  induction l generalizing s with
  | nil => exact hs
  | cons x l ih =>
    unfold settleDeletes
    split
    · exact ih _ hs
    · exact ih _ hs

theorem State.starts_keeps (s : State) (d : Desc) (hs : Mem Q s) : Mem Q (State.starts s d) := by
  unfold State.starts
  extract_lets -merge +onlyGivenNames a1
  try clear_value a1
  unfold Mem; dsimp only; refine mem_in ?_
  with_reducible exact hs

theorem State.setCq_keeps (s : State) (i : Nat) (c : Cq) (hs : Mem Q s) : Mem Q (State.setCq s i c) := by
  unfold State.setCq
  extract_lets -merge +onlyGivenNames a1
  try clear_value a1
  unfold Mem; dsimp only; refine mem_in ?_
  with_reducible exact hs

theorem State.returnTo_keeps (W : WritesLm Q) (s : State) (d : Desc) (a : Nat) (bs : Bytes) (hs : Mem Q s) : Mem Q (State.returnTo s d a bs) := by
  unfold State.returnTo
  with_reducible refine keep_ite ?_ ?_
  · with_reducible refine State.lmWrite_keeps W _ _ _ ?_
    with_reducible exact hs
  · with_reducible refine State.emit_keeps _ _ ?_
    with_reducible exact hs

theorem State.postEntry_keeps (s : State) (i : Nat) (c : Cq) (e : Bool → Bytes) (hs : Mem Q s) : Mem Q (State.postEntry s i c e) := by
  unfold State.postEntry
  extract_lets -merge +onlyGivenNames a1 a2 a3 a4 a5
  have ha1 : Mem Q a1 := by
    subst a1
    with_reducible refine State.emit_keeps _ _ ?_
    with_reducible exact hs
  try clear_value a1
  try clear_value a2
  try clear_value a3
  try clear_value a4
  try clear_value a5
  with_reducible refine keep_ite ?_ ?_
  · with_reducible refine State.sendVector_keeps _ _ ?_
    with_reducible refine State.setCq_keeps _ _ _ ?_
    with_reducible exact ha1
  · with_reducible refine State.setCq_keeps _ _ _ ?_
    with_reducible exact ha1

theorem State.digest_keeps (s : State) (f : Flight) (st : Nat) (hs : Mem Q s) : Mem Q (State.digest s f st) := by
  unfold State.digest
  extract_lets -merge +onlyGivenNames a1 a2 a3 a4 a5
  try clear_value a1
  try clear_value a2
  have ha3 : Mem Q a3 := by
    subst a3
    with_reducible refine State.wr_keeps _ _ _ ?_
    with_reducible refine State.wr_keeps _ _ _ ?_
    with_reducible exact hs
  try clear_value a3
  try clear_value a4
  try clear_value a5
  unfold Mem; dsimp only; refine mem_in ?_
  with_reducible exact ha3

theorem State.haltCq_keeps (s : State) (i : Nat) (c : Cq) (hs : Mem Q s) : Mem Q (State.haltCq s i c) := by
  unfold State.haltCq
  with_reducible refine State.detect_keeps _ _ ?_
  with_reducible refine State.setCq_keeps _ _ _ ?_
  with_reducible exact hs

theorem State.pushReply_keeps (s : State) (m : Bytes) (hs : Mem Q s) : Mem Q (State.pushReply s m) := by
  unfold State.pushReply
  extract_lets -merge +onlyGivenNames a1 a2
  have ha1 : Mem Q a1 := by
    subst a1
    with_reducible refine State.detectIf_keeps _ _ _ ?_
    with_reducible exact hs
  try clear_value a1
  try clear_value a2
  with_reducible refine keep_ite ?_ ?_
  · unfold Mem; dsimp only; refine mem_in ?_
    with_reducible exact ha1
  · with_reducible refine State.pushMsg_keeps _ _ ?_
    with_reducible exact hs

theorem State.postMbx_keeps (W : WritesLm Q) (s : State) (f : Flight) (r : Done) (hs : Mem Q s) : Mem Q (State.postMbx s f r) := by
  unfold State.postMbx
  extract_lets -merge +onlyGivenNames a1 a2 a3 a4
  try clear_value a1
  have ha2 : Mem Q a2 := by
    subst a2
    with_reducible refine State.lmWrite_keeps W _ _ _ ?_
    with_reducible exact hs
  try clear_value a2
  try clear_value a3
  have ha4 : Mem Q a4 := by
    subst a4
    unfold Mem; dsimp only; refine mem_in ?_
    with_reducible exact ha2
  try clear_value a4
  with_reducible refine keep_ite ?_ ?_
  · with_reducible exact hs
  · with_reducible refine State.pushReply_keeps _ _ ?_
    with_reducible exact ha4

theorem State.flushMbx_keeps (W : WritesLm Q) (s : State) (n : Nat) (hs : Mem Q s) : Mem Q (State.flushMbx s n) := by
  induction n generalizing s with
  | zero => exact hs
  | succ n ih =>
    unfold State.flushMbx
    split
    · exact hs
    · split
      · exact hs
      · exact ih _ (State.postMbx_keeps W _ _ _ hs)

theorem State.finishMbx_keeps (W : WritesLm Q) (s : State) (d : Desc) (op : Nat) (r : Done) (hs : Mem Q s) : Mem Q (State.finishMbx s d op r) := by
  unfold State.finishMbx
  extract_lets -merge +onlyGivenNames a1 a2
  try clear_value a1
  try clear_value a2
  with_reducible refine State.flushMbx_keeps W _ _ ?_
  unfold Mem; dsimp only; refine mem_in ?_
  with_reducible exact hs

theorem State.finishAs_keeps (W : WritesLm Q) (s : State) (d : Desc) (op : Nat) (status : Nat) (result : BitVec 64) (frame : Word) (tile : Option Nat) (hs : Mem Q s) : Mem Q (State.finishAs s d op status result frame tile) := by
  unfold State.finishAs
  extract_lets -merge +onlyGivenNames a1 a2
  try clear_value a1
  try clear_value a2
  with_reducible refine keep_ite ?_ ?_
  · with_reducible refine State.finishMbx_keeps W _ _ _ _ ?_
    with_reducible exact hs
  · with_reducible refine settleDeletes_keeps _ _ ?_
    unfold Mem; dsimp only; refine mem_in ?_
    with_reducible exact hs

theorem State.finish_keeps (W : WritesLm Q) (s : State) (d : Desc) (op : Nat) (status : Nat) (result : Nat) (hs : Mem Q s) : Mem Q (State.finish s d op status result) := by
  unfold State.finish
  with_reducible refine State.finishAs_keeps W _ _ _ _ _ _ _ ?_
  with_reducible exact hs

theorem onOp_keeps (W : WritesLm Q) (s : State) (d : Desc) (op : Nat) (role : OpRole) (f : State → State) (hs : Mem Q s) (hf : ∀ y0, Mem Q y0 → Mem Q (f y0)) : OutMem Q (onOp s d op role f) := by
  unfold onOp
  with_reducible refine onLive_keeps _ _ ?_ ?_
  · with_reducible exact hs
  · intro x1 h1
    split <;> first
      | (with_reducible refine State.finish_keeps W _ _ _ _ _ ?_
         with_reducible exact h1)
      | (with_reducible refine keep_ite ?_ ?_
         · with_reducible exact h1
         · with_reducible refine hf _ ?_
           with_reducible exact h1)

theorem State.readsLm_keeps (W : WritesLm Q) (s : State) (d : Desc) (op : Nat) (a : Nat) (len : Nat) (f : State) (hs : Mem Q s) (hf : Mem Q f) : Mem Q (State.readsLm s d op a len f) := by
  unfold State.readsLm
  with_reducible refine keep_ite ?_ ?_
  · with_reducible refine State.finish_keeps W _ _ _ _ _ ?_
    with_reducible refine State.lmUncorr_keeps _ ?_
    with_reducible exact hs
  · with_reducible exact hf

theorem State.ringPut_keeps (W : WritesLm Q) (s : State) (ch : Nat) (n : Nat) (delay : Nat) (v : BitVec 24) (hs : Mem Q s) : Mem Q (State.ringPut s ch n delay v) := by
  unfold State.ringPut
  extract_lets -merge +onlyGivenNames a1 a2 a3 a4
  try clear_value a1
  try clear_value a2
  have ha3 : Mem Q a3 := by
    subst a3
    with_reducible refine State.lmWrite_keeps W _ _ _ ?_
    with_reducible exact hs
  try clear_value a3
  try clear_value a4
  with_reducible refine keep_ite ?_ ?_
  · with_reducible refine State.detect_keeps _ _ ?_
    with_reducible refine State.inc_keeps _ _ ?_
    with_reducible exact hs
  · with_reducible refine keep_ite ?_ ?_
    · with_reducible refine State.detect_keeps _ _ ?_
      with_reducible refine State.inc_keeps _ _ ?_
      with_reducible exact hs
    · unfold Mem; dsimp only; refine mem_in ?_
      with_reducible exact ha3

theorem State.audioPacket_keeps (W : WritesLm Q) (s : State) (st : Nat) (ts : Word) (rate48 : Bool) (l24 : Bool) (ptime125 : Bool) (channels : Nat) (samples : List (BitVec 24)) (hs : Mem Q s) : Mem Q (State.audioPacket s st ts rate48 l24 ptime125 channels samples).2 := by
  unfold State.audioPacket
  split <;> first
    | (with_reducible refine mem_snd ?_
       with_reducible exact hs)
    | (with_reducible refine keep_ite2 ?_ ?_
       · with_reducible refine mem_snd ?_
         with_reducible exact hs
       · with_reducible refine mem_snd ?_
         refine keep_foldl ?_ ?_
         · with_reducible exact hs
         · intro x1 x2 h1
           with_reducible refine keep_ite ?_ ?_
           · refine keep_foldl ?_ ?_
             · with_reducible exact h1
             · intro x3 x4 h2
               with_reducible refine State.ringPut_keeps W _ _ _ _ _ ?_
               with_reducible exact h2
           · with_reducible exact h1)

theorem State.dropLate_keeps (s : State) (tgt : Nat) (num : Word) (hs : Mem Q s) : Mem Q (State.dropLate s tgt num) := by
  unfold State.dropLate
  extract_lets -merge +onlyGivenNames a1
  try clear_value a1
  with_reducible refine keep_ite ?_ ?_
  · unfold Mem; dsimp only; refine mem_in ?_
    with_reducible exact hs
  · with_reducible exact hs

theorem State.nextTarget_keeps (s : State) (hs : Mem Q s) : Mem Q (State.nextTarget s) := by
  unfold State.nextTarget
  extract_lets -merge +onlyGivenNames a1 a2 a3 a4 a5 a6 a7
  try clear_value a1
  try clear_value a2
  try clear_value a3
  try clear_value a4
  try clear_value a5
  try clear_value a6
  try clear_value a7
  split <;> first
    | (with_reducible refine keep_ite ?_ ?_
       · unfold Mem; dsimp only; refine mem_in ?_
         with_reducible exact hs
       · unfold Mem; dsimp only; refine mem_in ?_
         with_reducible exact hs)
    | (with_reducible refine keep_ite ?_ ?_
       · unfold Mem; dsimp only; refine mem_in ?_
         with_reducible exact hs
       · unfold Mem; dsimp only; refine mem_in ?_
         with_reducible exact hs)
    | (unfold Mem; dsimp only; refine mem_in ?_
       with_reducible exact hs)

theorem State.setRun_keeps (s : State) (v : Nat) (hs : Mem Q s) : Mem Q (State.setRun s v) := by
  unfold State.setRun
  extract_lets -merge +onlyGivenNames a1
  have ha1 : Mem Q a1 := by
    subst a1
    with_reducible refine State.wr_keeps _ _ _ ?_
    with_reducible exact hs
  try clear_value a1
  with_reducible refine keep_ite ?_ ?_
  · with_reducible refine State.wr_keeps _ _ _ ?_
    with_reducible exact ha1
  · with_reducible exact ha1

theorem State.leaveLost_keeps (s : State) (hs : Mem Q s) : Mem Q (State.leaveLost s) := by
  unfold State.leaveLost
  extract_lets -merge +onlyGivenNames a1 a2 a3
  try clear_value a1
  try clear_value a2
  try clear_value a3
  with_reducible refine keep_ite ?_ ?_
  · unfold Mem; dsimp only; refine mem_in ?_
    with_reducible exact hs
  · with_reducible exact hs

theorem State.setMode_keeps (s : State) (rate : Nat) (mult : Nat) (roll : Nat) (hs : Mem Q s) : Mem Q (State.setMode s rate mult roll) := by
  unfold State.setMode
  extract_lets -merge +onlyGivenNames a1 a2 a3
  have ha1 : Mem Q a1 := by
    subst a1
    with_reducible refine State.wr_keeps _ _ _ ?_
    with_reducible refine State.wr_keeps _ _ _ ?_
    with_reducible refine State.wr_keeps _ _ _ ?_
    with_reducible exact hs
  try clear_value a1
  try clear_value a2
  try clear_value a3
  unfold Mem; dsimp only; refine mem_in ?_
  with_reducible exact ha1

theorem frmStop_keeps (s : State) (hs : Mem Q s) : Mem Q (frmStop s) := by
  unfold frmStop
  extract_lets -merge +onlyGivenNames a1 a2
  have ha1 : Mem Q a1 := by
    subst a1
    with_reducible refine State.setRun_keeps _ _ ?_
    with_reducible exact hs
  try clear_value a1
  try clear_value a2
  with_reducible refine keep_ite ?_ ?_
  · with_reducible exact hs
  · unfold Mem; dsimp only; refine mem_in ?_
    with_reducible exact ha1

theorem execFrmStop_keeps (s : State) (hs : Mem Q s) : OutMem Q (execFrmStop s) := by
  unfold execFrmStop
  with_reducible refine onLive_keeps _ _ ?_ ?_
  · with_reducible exact hs
  · intro x1 h1
    with_reducible refine frmStop_keeps _ ?_
    with_reducible exact h1

theorem State.settleSlew_keeps (s : State) (hs : Mem Q s) : Mem Q (State.settleSlew s) := by
  unfold State.settleSlew
  extract_lets -merge +onlyGivenNames a1 a2
  have ha1 : Mem Q a1 := by
    subst a1
    with_reducible refine State.wr_keeps _ _ _ ?_
    with_reducible exact hs
  try clear_value a1
  with_reducible refine keep_ite ?_ ?_
  · unfold Mem; dsimp only; refine mem_in ?_
    with_reducible exact ha1
  · with_reducible exact hs

theorem State.freezeOfs_keeps (s : State) (hs : Mem Q s) : Mem Q (State.freezeOfs s) := by
  unfold State.freezeOfs
  extract_lets -merge +onlyGivenNames a1
  try clear_value a1
  with_reducible refine keep_ite ?_ ?_
  · with_reducible refine State.settleSlew_keeps _ ?_
    with_reducible exact hs
  · with_reducible refine keep_ite ?_ ?_
    · with_reducible refine State.wr_keeps _ _ _ ?_
      with_reducible exact hs
    · with_reducible refine keep_ite ?_ ?_
      · with_reducible exact hs
      · with_reducible refine State.wr_keeps _ _ _ ?_
        with_reducible refine State.drawn_keeps _ ?_
        with_reducible exact hs

theorem State.holdover_keeps (s : State) (hs : Mem Q s) : Mem Q (State.holdover s) := by
  unfold State.holdover
  extract_lets -merge +onlyGivenNames a1 a2
  have ha1 : Mem Q a1 := by
    subst a1
    with_reducible refine State.wr_keeps _ _ _ ?_
    with_reducible refine State.wr_keeps _ _ _ ?_
    with_reducible refine State.wr_keeps _ _ _ ?_
    with_reducible refine State.freezeOfs_keeps _ ?_
    with_reducible exact hs
  try clear_value a1
  unfold Mem; dsimp only; refine mem_in ?_
  with_reducible exact ha1

theorem State.setShadow_keeps (s : State) (fs : List (Fld × Nat)) (hs : Mem Q s) : Mem Q (State.setShadow s fs) := by
  unfold State.setShadow
  extract_lets -merge +onlyGivenNames a1 a2
  try clear_value a1
  try clear_value a2
  with_reducible refine keep_ite ?_ ?_
  · with_reducible refine State.detect_keeps _ _ ?_
    with_reducible exact hs
  · unfold Mem; dsimp only; refine mem_in ?_
    with_reducible exact hs

theorem frmRun_keeps (s : State) (hs : Mem Q s) : Mem Q (frmRun s) := by
  unfold frmRun
  extract_lets -merge +onlyGivenNames a1 a2
  have ha1 : Mem Q a1 := by
    subst a1
    with_reducible refine State.setRun_keeps _ _ ?_
    with_reducible exact hs
  try clear_value a1
  try clear_value a2
  with_reducible refine keep_ite ?_ ?_
  · with_reducible exact hs
  · with_reducible refine keep_ite ?_ ?_
    · with_reducible refine State.setRun_keeps _ _ ?_
      with_reducible exact hs
    · with_reducible refine keep_ite ?_ ?_
      · unfold Mem; dsimp only; refine mem_in ?_
        with_reducible exact ha1
      · with_reducible refine State.detect_keeps _ _ ?_
        with_reducible exact hs

theorem frmCfgWrite_keeps (v : Word) (s : State) (hs : Mem Q s) : Mem Q (frmCfgWrite v s) := by
  unfold frmCfgWrite
  extract_lets -merge +onlyGivenNames a1 a2 a3 a4 a5
  try clear_value a1
  try clear_value a2
  try clear_value a3
  have ha4 : Mem Q a4 := by
    subst a4
    with_reducible refine State.setShadow_keeps _ _ ?_
    with_reducible exact hs
  try clear_value a4
  try clear_value a5
  with_reducible refine keep_ite ?_ ?_
  · with_reducible exact hs
  · with_reducible refine keep_ite ?_ ?_
    · with_reducible refine keep_ite ?_ ?_
      · with_reducible refine State.setMode_keeps _ _ _ _ ?_
        with_reducible exact hs
      · with_reducible refine State.detect_keeps _ _ ?_
        with_reducible exact hs
    · with_reducible refine keep_ite ?_ ?_
      · with_reducible refine State.detect_keeps _ _ ?_
        with_reducible exact hs
      · with_reducible refine keep_ite ?_ ?_
        · with_reducible exact ha4
        · unfold Mem; dsimp only; refine mem_in ?_
          with_reducible exact ha4

theorem fixFrameStart_keeps (s : State) (hs : Mem Q s) : Mem Q (fixFrameStart s) := by
  unfold fixFrameStart
  extract_lets -merge +onlyGivenNames a1 a2 a3 a4 a5 a6 a7 a8 a9 a10 a11 a12 a13
  try clear_value a1
  try clear_value a2
  try clear_value a3
  try clear_value a4
  have ha5 : Mem Q a5 := by
    subst a5
    with_reducible refine State.wr_keeps _ _ _ ?_
    with_reducible refine State.wr_keeps _ _ _ ?_
    with_reducible exact hs
  try clear_value a5
  try clear_value a6
  have ha7 : Mem Q a7 := by
    subst a7
    unfold Mem; dsimp only; refine mem_in ?_
    with_reducible exact ha5
  try clear_value a7
  try clear_value a8
  try clear_value a9
  try clear_value a10
  try clear_value a11
  have ha12 : Mem Q a12 := by
    subst a12
    unfold Mem; dsimp only; refine mem_in ?_
    with_reducible exact ha7
  try clear_value a12
  try clear_value a13
  with_reducible refine keep_ite ?_ ?_
  · with_reducible exact hs
  · with_reducible refine keep_ite ?_ ?_
    · unfold Mem; dsimp only; refine mem_in ?_
      with_reducible exact ha7
    · with_reducible refine keep_ite ?_ ?_
      · with_reducible refine State.detect_keeps _ _ ?_
        with_reducible exact ha12
      · with_reducible refine State.dropLate_keeps _ _ _ ?_
        unfold Mem; dsimp only; refine mem_in ?_
        with_reducible exact ha7

theorem frmReseed_keeps (s : State) (hs : Mem Q s) : Mem Q (frmReseed s) := by
  unfold frmReseed
  extract_lets -merge +onlyGivenNames a1 a2 a3 a4
  try clear_value a1
  have ha2 : Mem Q a2 := by
    subst a2
    with_reducible refine State.leaveLost_keeps _ ?_
    with_reducible exact hs
  try clear_value a2
  try clear_value a3
  try clear_value a4
  with_reducible refine keep_ite ?_ ?_
  · with_reducible exact hs
  · with_reducible refine keep_ite ?_ ?_
    · with_reducible refine keep_ite ?_ ?_
      · unfold Mem; dsimp only; refine mem_in ?_
        with_reducible exact ha2
      · unfold Mem; dsimp only; refine mem_in ?_
        with_reducible exact ha2
    · with_reducible refine State.detect_keeps _ _ ?_
      with_reducible exact hs

theorem execFrmReseed_keeps (s : State) (hs : Mem Q s) : OutMem Q (execFrmReseed s) := by
  unfold execFrmReseed
  with_reducible refine onLive_keeps _ _ ?_ ?_
  · with_reducible exact hs
  · intro x1 h1
    with_reducible refine frmReseed_keeps _ ?_
    with_reducible exact h1

theorem execFrmCfgWrite_keeps (v : Word) (s : State) (hs : Mem Q s) : OutMem Q (execFrmCfgWrite v s) := by
  unfold execFrmCfgWrite
  with_reducible refine onLive_keeps _ _ ?_ ?_
  · with_reducible exact hs
  · intro x1 h1
    with_reducible refine frmCfgWrite_keeps _ _ ?_
    with_reducible exact h1

theorem execFixFrameStart_keeps (s : State) (hs : Mem Q s) : OutMem Q (execFixFrameStart s) := by
  unfold execFixFrameStart
  with_reducible refine onLive_keeps _ _ ?_ ?_
  · with_reducible exact hs
  · intro x1 h1
    with_reducible refine fixFrameStart_keeps _ ?_
    with_reducible exact h1

theorem execFrmRun_keeps (s : State) (hs : Mem Q s) : OutMem Q (execFrmRun s) := by
  unfold execFrmRun
  with_reducible refine onLive_keeps _ _ ?_ ?_
  · with_reducible exact hs
  · intro x1 h1
    with_reducible refine frmRun_keeps _ ?_
    with_reducible exact h1

theorem State.fixDue_keeps (s : State) (upto : Nat) (hs : Mem Q s) : Mem Q (State.fixDue s upto) := by
  unfold State.fixDue
  with_reducible refine keep_ite ?_ ?_
  · with_reducible refine fixFrameStart_keeps _ ?_
    with_reducible refine State.advanceTo_keeps _ _ ?_
    with_reducible exact hs
  · with_reducible exact hs

theorem State.boundary_keeps (s : State) (hs : Mem Q s) : Mem Q (State.boundary s).2 := by
  unfold State.boundary
  extract_lets -merge +onlyGivenNames a1 a2 a3 a4 a5 a6 a7
  have ha1 : Mem Q a1 := by
    subst a1
    with_reducible refine State.fixDue_keeps _ _ ?_
    with_reducible exact hs
  try clear_value a1
  have ha2 : Mem Q a2 := by
    subst a2
    with_reducible refine State.advanceTo_keeps _ _ ?_
    with_reducible exact ha1
  try clear_value a2
  try clear_value a3
  have ha4 : Mem Q a4 := by
    subst a4
    with_reducible refine keep_ite ?_ ?_
    · with_reducible refine State.wr_keeps _ _ _ ?_
      with_reducible exact ha2
    · with_reducible exact ha2
  try clear_value a4
  have ha5 : Mem Q a5 := by
    subst a5
    with_reducible refine State.wr_keeps _ _ _ ?_
    with_reducible exact ha4
  try clear_value a5
  try clear_value a6
  have ha7 : Mem Q a7 := by
    subst a7
    unfold Mem; dsimp only; refine mem_in ?_
    with_reducible exact ha5
  try clear_value a7
  with_reducible refine keep_ite2 ?_ ?_
  · with_reducible refine mem_snd ?_
    with_reducible refine State.nextTarget_keeps _ ?_
    with_reducible exact ha7
  · with_reducible refine mem_snd ?_
    with_reducible refine State.nextTarget_keeps _ ?_
    with_reducible exact ha2

theorem State.sendLockReport_keeps (s : State) (hs : Mem Q s) : Mem Q (State.sendLockReport s) := by
  unfold State.sendLockReport
  extract_lets -merge +onlyGivenNames a1
  try clear_value a1
  unfold Mem; dsimp only; refine mem_in ?_
  with_reducible exact hs

theorem State.slewTo_keeps (s : State) (k : Nat) (hs : Mem Q s) : Mem Q (State.slewTo s k) := by
  unfold State.slewTo
  with_reducible refine State.wr_keeps _ _ _ ?_
  with_reducible refine State.wr_keeps _ _ _ ?_
  with_reducible refine State.wr_keeps _ _ _ ?_
  with_reducible exact hs

theorem State.linkCycles_keeps (s : State) (hs : Mem Q s) : Mem Q (State.linkCycles s) := by
  unfold State.linkCycles
  with_reducible refine keep_ite ?_ ?_
  · with_reducible exact hs
  · refine keep_foldl ?_ ?_
    · with_reducible exact hs
    · intro x1 x2 h1
      with_reducible refine keep_ite ?_ ?_
      · with_reducible refine State.wr_keeps _ _ _ ?_
        with_reducible exact h1
      · with_reducible exact h1

theorem State.applyD_keeps (s : State) (k : Nat) (hs : Mem Q s) : Mem Q (State.applyD s k).2 := by
  unfold State.applyD
  extract_lets a1 a2 a3
  split
  · exact hs
  · split
    · exact State.setPort_keeps _ _ _ (State.wr_keeps _ _ _ hs)
    · split
      · exact State.wr_keeps _ _ _ hs
      · split
        · exact State.wr_keeps _ _ _ hs
        · exact hs

theorem State.ageD_keeps (s : State) (hs : Mem Q s) : Mem Q (State.ageD s) := by
  unfold State.ageD
  extract_lets -merge +onlyGivenNames a1 a2 a3
  try clear_value a1
  try clear_value a2
  have ha3 : Mem Q a3 := by
    subst a3
    refine keep_foldl ?_ ?_
    · with_reducible exact hs
    · intro x1 x2 h1
      with_reducible refine keep_ite ?_ ?_
      · with_reducible refine State.wr_keeps _ _ _ ?_
        with_reducible exact h1
      · with_reducible exact h1
  try clear_value a3
  with_reducible refine State.detectIf_keeps _ _ _ ?_
  with_reducible exact ha3

theorem State.lockUpdate_keeps (s : State) (hs : Mem Q s) : Mem Q (State.lockUpdate s) := by
  unfold State.lockUpdate
  extract_lets -merge +onlyGivenNames a1 a2 a3 a4 a5
  have ha1 : Mem Q a1 := by
    subst a1
    with_reducible refine State.ageD_keeps _ ?_
    with_reducible exact hs
  try clear_value a1
  try clear_value a2
  have ha3 : Mem Q a3 := by
    subst a3
    with_reducible refine State.sendLockReport_keeps _ ?_
    with_reducible refine State.wr_keeps _ _ _ ?_
    with_reducible exact ha1
  try clear_value a3
  try clear_value a4
  have ha5 : Mem Q a5 := by
    subst a5
    unfold Mem; dsimp only; refine mem_in ?_
    with_reducible exact ha3
  try clear_value a5
  with_reducible refine keep_ite ?_ ?_
  · with_reducible exact hs
  · with_reducible refine keep_ite ?_ ?_
    · with_reducible exact ha1
    · with_reducible refine State.detectIf_keeps _ _ _ ?_
      with_reducible exact ha5

theorem State.rootChanged_keeps (s : State) (hs : Mem Q s) : Mem Q (State.rootChanged s) := by
  unfold State.rootChanged
  with_reducible refine State.lockUpdate_keeps _ ?_
  with_reducible refine State.refreshReady_keeps _ ?_
  with_reducible refine State.linkCycles_keeps _ ?_
  with_reducible exact hs

theorem State.takePref_keeps (s : State) (k : Nat) (mode : Nat) (hs : Mem Q s) : Mem Q (State.takePref s k mode) := by
  unfold State.takePref
  extract_lets -merge +onlyGivenNames a1 a2 a3 a4 a5 a6 a7 a8
  try clear_value a1
  have ha2 : Mem Q a2 := by
    subst a2
    with_reducible refine State.wr_keeps _ _ _ ?_
    with_reducible exact hs
  try clear_value a2
  try clear_value a3
  have ha4 : Mem Q a4 := by
    subst a4
    unfold Mem; dsimp only; refine mem_in ?_
    with_reducible exact ha2
  try clear_value a4
  try clear_value a5
  have ha6 : Mem Q a6 := by
    subst a6
    with_reducible refine keep_ite ?_ ?_
    · with_reducible exact ha4
    · with_reducible refine State.slewTo_keeps _ _ ?_
      with_reducible exact ha4
  try clear_value a6
  have ha7 : Mem Q a7 := by
    subst a7
    with_reducible refine keep_ite ?_ ?_
    · with_reducible refine keep_ite ?_ ?_
      · with_reducible refine State.setMode_keeps _ _ _ _ ?_
        with_reducible exact ha6
      · with_reducible refine State.detect_keeps _ _ ?_
        with_reducible exact ha6
    · with_reducible refine keep_ite ?_ ?_
      · with_reducible refine State.slewTo_keeps _ _ ?_
        with_reducible exact ha4
      · with_reducible refine State.wr_keeps _ _ _ ?_
        with_reducible exact ha4
  try clear_value a7
  have ha8 : Mem Q a8 := by
    subst a8
    with_reducible refine State.detect_keeps _ _ ?_
    with_reducible refine State.inc_keeps _ _ ?_
    with_reducible exact ha7
  try clear_value a8
  with_reducible refine State.sendLockReport_keeps _ ?_
  with_reducible refine State.rootChanged_keeps _ ?_
  with_reducible exact ha8

theorem State.feedLost_keeps (s : State) (hs : Mem Q s) : Mem Q (State.feedLost s) := by
  unfold State.feedLost
  extract_lets -merge +onlyGivenNames a1 a2 a3 a4
  have ha1 : Mem Q a1 := by
    subst a1
    with_reducible refine State.holdover_keeps _ ?_
    with_reducible refine State.wr_keeps _ _ _ ?_
    with_reducible exact hs
  try clear_value a1
  try clear_value a2
  try clear_value a3
  have ha4 : Mem Q a4 := by
    subst a4
    unfold Mem; dsimp only; refine mem_in ?_
    with_reducible exact ha1
  try clear_value a4
  with_reducible refine State.detect_keeps _ _ ?_
  with_reducible refine State.rootChanged_keeps _ ?_
  with_reducible exact ha4

theorem echoStale_keeps (s : State) (hs : Mem Q s) : Mem Q (echoStale s) := by
  unfold echoStale
  split <;> first
    | (with_reducible exact hs)
    | (split <;> first
         | (with_reducible exact hs)
         | (with_reducible refine State.lockUpdate_keeps _ ?_
            with_reducible refine State.advanceTo_keeps _ _ ?_
            with_reducible exact hs))

theorem State.feedUpdate_keeps (s : State) (hs : Mem Q s) : Mem Q (State.feedUpdate s) := by
  unfold State.feedUpdate
  extract_lets -merge +onlyGivenNames a1 a2 a3
  have ha1 : Mem Q a1 := by
    subst a1
    with_reducible refine State.wr_keeps _ _ _ ?_
    with_reducible refine State.wr_keeps _ _ _ ?_
    with_reducible exact hs
  try clear_value a1
  try clear_value a2
  try clear_value a3
  with_reducible refine keep_ite ?_ ?_
  · with_reducible exact hs
  · split <;> first
      | (with_reducible refine keep_ite ?_ ?_
         · with_reducible refine State.feedLost_keeps _ ?_
           with_reducible exact ha1
         · unfold Mem; dsimp only; refine mem_in ?_
           with_reducible exact ha1)
      | (extract_lets -merge +onlyGivenNames a4
         try clear_value a4
         unfold Mem; dsimp only; refine mem_in ?_
         with_reducible exact ha1)

theorem execEchoStale_keeps (s : State) (hs : Mem Q s) : OutMem Q (execEchoStale s) := by
  unfold execEchoStale
  with_reducible refine onLive_keeps _ _ ?_ ?_
  · with_reducible exact hs
  · intro x1 h1
    with_reducible refine echoStale_keeps _ ?_
    with_reducible exact h1

theorem State.holdLo_keeps (s : State) (off : Nat) (v : Word) (hs : Mem Q s) : Mem Q (State.holdLo s off v) := by
  unfold State.holdLo
  extract_lets -merge +onlyGivenNames a1
  try clear_value a1
  unfold Mem; dsimp only; refine mem_in ?_
  with_reducible exact hs

theorem State.takeLo_keeps (s : State) (off : Nat) (stored : Nat) (hs : Mem Q s) : Mem Q (State.takeLo s off stored).2 := by
  unfold State.takeLo
  extract_lets -merge +onlyGivenNames a1
  try clear_value a1
  split <;> first
    | (with_reducible refine mem_snd ?_
       unfold Mem; dsimp only; refine mem_in ?_
       with_reducible exact hs)
    | (with_reducible refine mem_snd ?_
       with_reducible exact hs)

theorem State.abortFlights_keeps (s : State) (sq : Nat) (status : Nat) (which : Flight → Bool) (hs : Mem Q s) : Mem Q (State.abortFlights s sq status which) := by
  unfold State.abortFlights
  extract_lets -merge +onlyGivenNames a1 a2 a3
  try clear_value a1
  try clear_value a2
  try clear_value a3
  unfold Mem; dsimp only; refine mem_in ?_
  with_reducible exact hs

theorem State.takeOff_keeps (s : State) (op : Nat) (d : Desc) (hs : Mem Q s) : Mem Q (State.takeOff s op d) := by
  unfold State.takeOff
  extract_lets -merge +onlyGivenNames a1 a2 a3
  try clear_value a1
  try clear_value a2
  try clear_value a3
  unfold Mem; dsimp only; refine mem_in ?_
  with_reducible exact hs

theorem State.fetchLost_keeps (s : State) (i : Nat) (q : Sq) (hs : Mem Q s) : Mem Q (State.fetchLost s i q) := by
  unfold State.fetchLost
  extract_lets -merge +onlyGivenNames a1 a2 a3
  try clear_value a1
  try clear_value a2
  try clear_value a3
  unfold Mem; dsimp only; refine mem_in ?_
  with_reducible exact hs

theorem State.landed_keeps (s : State) (f : Flight) (hs : Mem Q s) : Mem Q (State.landed s f) := by
  unfold State.landed
  extract_lets -merge +onlyGivenNames a1
  try clear_value a1
  unfold Mem; dsimp only; refine mem_in ?_
  with_reducible exact hs

theorem State.scramble_keeps (W : WritesLm Q) (s : State) (a : Nat) (len : Nat) (hs : Mem Q s) : Mem Q (State.scramble s a len) := by
  unfold State.scramble
  with_reducible refine State.lmWrite_keeps W _ _ _ ?_
  with_reducible refine State.drawn_keeps _ ?_
  with_reducible exact hs

theorem State.bar4Write_keeps (W : WritesLm Q) (s : State) (a : Nat) (bs : Bytes) (hs : Mem Q s) : Mem Q (State.bar4Write s a bs) := by
  induction bs generalizing s a with
  | nil => exact hs
  | cons b bs ih =>
    unfold State.bar4Write
    refine ih _ _ ?_
    split
    · exact State.lmWrite_keeps W _ _ _ hs
    · exact hs

theorem State.setLink_keeps (s : State) (tile : Nat) (l : MbxLink) (hs : Mem Q s) : Mem Q (State.setLink s tile l) := by
  unfold State.setLink
  extract_lets -merge +onlyGivenNames a1
  try clear_value a1
  unfold Mem; dsimp only; refine mem_in ?_
  with_reducible exact hs

theorem State.serveOne_keeps (s : State) (i : Nat) (q : Sq) (hs : Mem Q s) : Mem Q (State.serveOne s i q) := by
  unfold State.serveOne
  extract_lets -merge +onlyGivenNames a1 a2 a3
  try clear_value a1
  try clear_value a2
  try clear_value a3
  with_reducible refine keep_ite ?_ ?_
  · with_reducible exact hs
  · unfold Mem; dsimp only; refine mem_in ?_
    with_reducible exact hs

theorem State.syncAcq_keeps (s : State) (hs : Mem Q s) : Mem Q (State.syncAcq s) := by
  unfold State.syncAcq
  split <;> first
    | (with_reducible exact hs)
    | (with_reducible refine State.setCq_keeps _ _ _ ?_
       with_reducible exact hs)

theorem State.syncAsq_keeps (s : State) (hs : Mem Q s) : Mem Q (State.syncAsq s) := by
  unfold State.syncAsq
  split <;> first
    | (with_reducible exact hs)
    | (with_reducible refine State.setSq_keeps _ _ _ ?_
       with_reducible exact hs)

theorem bar4Access_keeps (W : WritesLm Q) (off : Nat) (write : Option Bytes) (_len : Nat) (s : State) (hs : Mem Q s) : Mem Q (bar4Access off write _len s) := by
  unfold bar4Access
  split <;> first
    | (with_reducible refine keep_ite ?_ ?_
       · with_reducible refine State.bar4Write_keeps W _ _ _ ?_
         with_reducible exact hs
       · with_reducible exact hs)
    | (with_reducible exact hs)

theorem State.writeHi_keeps (s : State) (lo : Fld) (hi : Fld) (align : Nat) (v : Word) (hs : Mem Q s) : Mem Q (State.writeHi s lo hi align v) := by
  unfold State.writeHi
  extract_lets -merge +onlyGivenNames a1
  have ha1 : Mem Q a1.2 := by
    subst a1
    with_reducible refine State.takeLo_keeps _ _ _ ?_
    with_reducible exact hs
  try clear_value a1
  with_reducible refine State.wr_keeps _ _ _ ?_
  with_reducible refine State.wr_keeps _ _ _ ?_
  with_reducible exact ha1

theorem State.queueUni_keeps (s : State) (tile : Nat) (payload : Bytes) (hs : Mem Q s) : Mem Q (State.queueUni s tile payload) := by
  unfold State.queueUni
  with_reducible refine keep_ite ?_ ?_
  · refine keep_foldl ?_ ?_
    · with_reducible exact hs
    · intro x1 x2 h1
      extract_lets -merge +onlyGivenNames a1
      try clear_value a1
      with_reducible refine keep_ite ?_ ?_
      · with_reducible refine State.setPort_keeps _ _ _ ?_
        with_reducible exact h1
      · with_reducible exact h1
  · with_reducible exact hs

theorem hqsEnable_keeps (v : Word) (s : State) (hs : Mem Q s) : Mem Q (hqsEnable v s) := by
  unfold hqsEnable
  with_reducible refine State.wr_keeps _ _ _ ?_
  with_reducible exact hs

theorem coalesceTimer_keeps (i : Nat) (s : State) (hs : Mem Q s) : Mem Q (coalesceTimer i s) := by
  unfold coalesceTimer
  split <;> first
    | (with_reducible exact hs)
    | (extract_lets -merge +onlyGivenNames a1
       have ha1 : Mem Q a1 := by
         subst a1
         with_reducible refine State.advanceTo_keeps _ _ ?_
         with_reducible exact hs
       try clear_value a1
       with_reducible refine keep_ite ?_ ?_
       · with_reducible refine State.sendVector_keeps _ _ ?_
         with_reducible refine State.setCq_keeps _ _ _ ?_
         with_reducible exact ha1
       · with_reducible exact hs)

theorem adminQueueSetup_keeps (off : Nat) (v : Word) (s : State) (hs : Mem Q s) : Mem Q (adminQueueSetup off v s) := by
  unfold adminQueueSetup
  extract_lets -merge +onlyGivenNames a1 a2 a3 a4
  try clear_value a1
  try clear_value a2
  have ha3 : Mem Q a3 := by
    subst a3
    with_reducible refine State.wr_keeps _ _ _ ?_
    with_reducible exact hs
  try clear_value a3
  have ha4 : Mem Q a4 := by
    subst a4
    split <;> first
      | (with_reducible refine State.setCq_keeps _ _ _ ?_
         with_reducible exact ha3)
      | (with_reducible exact ha3)
  try clear_value a4
  with_reducible refine keep_ite ?_ ?_
  · with_reducible exact hs
  · with_reducible refine keep_ite ?_ ?_
    · with_reducible refine State.holdLo_keeps _ _ _ ?_
      with_reducible exact hs
    · with_reducible refine keep_ite ?_ ?_
      · with_reducible refine State.syncAsq_keeps _ ?_
        with_reducible refine State.writeHi_keeps _ _ _ _ _ ?_
        with_reducible exact hs
      · with_reducible refine keep_ite ?_ ?_
        · with_reducible refine State.syncAcq_keeps _ ?_
          with_reducible refine State.writeHi_keeps _ _ _ _ _ ?_
          with_reducible exact hs
        · with_reducible refine keep_ite ?_ ?_
          · with_reducible refine State.writeHi_keeps _ _ _ _ _ ?_
            with_reducible exact hs
          · with_reducible refine keep_ite ?_ ?_
            · with_reducible refine keep_ite ?_ ?_
              · with_reducible refine State.syncAsq_keeps _ ?_
                with_reducible refine State.wr_keeps _ _ _ ?_
                with_reducible exact hs
              · with_reducible exact hs
            · with_reducible refine keep_ite ?_ ?_
              · with_reducible refine keep_ite ?_ ?_
                · with_reducible refine State.syncAcq_keeps _ ?_
                  with_reducible refine State.wr_keeps _ _ _ ?_
                  with_reducible exact ha4
                · with_reducible exact ha4
              · with_reducible exact hs

theorem execBar4Access_keeps (W : WritesLm Q) (off : Nat) (write : Option Bytes) (len : Nat) (s : State) (hs : Mem Q s) : OutMem Q (execBar4Access off write len s) := by
  unfold execBar4Access
  with_reducible refine onLive_keeps _ _ ?_ ?_
  · with_reducible exact hs
  · intro x1 h1
    with_reducible refine bar4Access_keeps W _ _ _ _ ?_
    with_reducible exact h1

theorem execCoalesceTimer_keeps (cq : Nat) (s : State) (hs : Mem Q s) : OutMem Q (execCoalesceTimer cq s) := by
  unfold execCoalesceTimer
  with_reducible refine onLive_keeps _ _ ?_ ?_
  · with_reducible exact hs
  · intro x1 h1
    with_reducible refine coalesceTimer_keeps _ _ ?_
    with_reducible exact h1

theorem State.pumpLink_keeps (s : State) (tile : Nat) (hs : Mem Q s) : Mem Q (State.pumpLink s tile) := by
  unfold State.pumpLink
  extract_lets -merge +onlyGivenNames a1 a2 a3 a4
  try clear_value a1
  try clear_value a2
  try clear_value a3
  have ha4 : Mem Q a4 := by
    subst a4
    with_reducible refine State.setLink_keeps _ _ _ ?_
    with_reducible exact hs
  try clear_value a4
  refine keep_foldl ?_ ?_
  · with_reducible exact ha4
  · intro x1 x2 h1
    with_reducible refine State.queueUni_keeps _ _ _ ?_
    with_reducible exact h1

theorem execHqsEnable_keeps (v : Word) (s : State) (hs : Mem Q s) : OutMem Q (execHqsEnable v s) := by
  unfold execHqsEnable
  with_reducible refine onLive_keeps _ _ ?_ ?_
  · with_reducible exact hs
  · intro x1 h1
    with_reducible refine hqsEnable_keeps _ _ ?_
    with_reducible exact h1

theorem State.linkSend_keeps (s : State) (tile : Nat) (payload : Bytes) (hs : Mem Q s) : Mem Q (State.linkSend s tile payload) := by
  unfold State.linkSend
  extract_lets -merge +onlyGivenNames a1
  try clear_value a1
  with_reducible refine State.pumpLink_keeps _ _ ?_
  with_reducible refine State.setLink_keeps _ _ _ ?_
  with_reducible exact hs

theorem execAdminQueueSetup_keeps (off : Nat) (v : Word) (s : State) (hs : Mem Q s) : OutMem Q (execAdminQueueSetup off v s) := by
  unfold execAdminQueueSetup
  with_reducible refine onLive_keeps _ _ ?_ ?_
  · with_reducible exact hs
  · intro x1 h1
    with_reducible refine adminQueueSetup_keeps _ _ _ ?_
    with_reducible exact h1

theorem State.headWord_keeps (s : State) (i : Nat) (w : Word) (hs : Mem Q s) : Mem Q (State.headWord s i w) := by
  unfold State.headWord
  split <;> first
    | (with_reducible exact hs)
    | (with_reducible refine keep_ite ?_ ?_
       · with_reducible refine State.detect_keeps _ _ ?_
         with_reducible exact hs
       · with_reducible refine State.setCq_keeps _ _ _ ?_
         with_reducible exact hs)

theorem acqHeadWrite_keeps (v : Word) (s : State) (hs : Mem Q s) : Mem Q (acqHeadWrite v s) := by
  unfold acqHeadWrite
  split <;> first
    | (with_reducible exact hs)
    | (with_reducible refine keep_ite ?_ ?_
       · with_reducible refine State.detect_keeps _ _ ?_
         with_reducible exact hs
       · with_reducible refine State.headWord_keeps _ _ _ ?_
         with_reducible refine State.wr_keeps _ _ _ ?_
         with_reducible exact hs)

theorem State.doorbell_keeps (s : State) (i : Nat) (w : Word) (hs : Mem Q s) : Mem Q (State.doorbell s i w) := by
  unfold State.doorbell
  split <;> first
    | (with_reducible exact hs)
    | (with_reducible refine keep_ite ?_ ?_
       · with_reducible exact hs
       · with_reducible refine keep_ite ?_ ?_
         · with_reducible refine State.detect_keeps _ _ ?_
           with_reducible exact hs
         · with_reducible refine State.setSq_keeps _ _ _ ?_
           with_reducible exact hs)

theorem headWordRead_keeps (i : Nat) (w : Word) (s : State) (hs : Mem Q s) : Mem Q (headWordRead i w s) := by
  unfold headWordRead
  split <;> first
    | (with_reducible exact hs)
    | (with_reducible refine keep_ite ?_ ?_
       · with_reducible refine State.headWord_keeps _ _ _ ?_
         with_reducible exact hs
       · with_reducible exact hs)

theorem execAcqHeadWrite_keeps (v : Word) (s : State) (hs : Mem Q s) : OutMem Q (execAcqHeadWrite v s) := by
  unfold execAcqHeadWrite
  with_reducible refine onLive_keeps _ _ ?_ ?_
  · with_reducible exact hs
  · intro x1 h1
    with_reducible refine acqHeadWrite_keeps _ _ ?_
    with_reducible exact h1

theorem doorbellPoll_keeps (words : List (Nat × Word)) (s : State) (hs : Mem Q s) : Mem Q (doorbellPoll words s) := by
  unfold doorbellPoll
  with_reducible refine keep_ite ?_ ?_
  · refine keep_foldl ?_ ?_
    · with_reducible exact hs
    · intro x1 x2 h1
      with_reducible refine State.doorbell_keeps _ _ _ ?_
      with_reducible exact h1
  · with_reducible exact hs

theorem State.postOrWait_keeps (s : State) (i : Nat) (c : Cq) (ok : Bool) (e : Bool → Bytes) (gone : State → State) (hs : Mem Q s) (hgone : ∀ y0, Mem Q y0 → Mem Q (gone y0)) : Mem Q (State.postOrWait s i c ok e gone) := by
  unfold State.postOrWait
  with_reducible refine keep_ite ?_ ?_
  · with_reducible exact hs
  · with_reducible refine keep_ite ?_ ?_
    · with_reducible refine State.detect_keeps _ _ ?_
      with_reducible exact hs
    · with_reducible refine keep_ite ?_ ?_
      · with_reducible refine State.haltCq_keeps _ _ _ ?_
        with_reducible exact hs
      · with_reducible refine State.postEntry_keeps _ _ _ _ ?_
        with_reducible refine hgone _ ?_
        with_reducible exact hs

theorem execHeadWordRead_keeps (cq : Nat) (word : Word) (s : State) (hs : Mem Q s) : OutMem Q (execHeadWordRead cq word s) := by
  unfold execHeadWordRead
  with_reducible refine onLive_keeps _ _ ?_ ?_
  · with_reducible exact hs
  · intro x1 h1
    with_reducible refine headWordRead_keeps _ _ _ ?_
    with_reducible exact h1

theorem State.post_keeps (s : State) (i : Nat) (ok : Bool) (hs : Mem Q s) : Mem Q (State.post s i ok) := by
  unfold State.post
  split <;> first
    | (with_reducible exact hs)
    | (split <;> first
         | (with_reducible refine State.postOrWait_keeps _ _ _ _ _ _ ?_ ?_
            · with_reducible exact hs
            · intro x1 h1
              extract_lets -merge +onlyGivenNames a1
              try clear_value a1
              unfold Mem; dsimp only; refine mem_in ?_
              with_reducible exact h1)
         | (split <;> first
              | (with_reducible exact hs)
              | (split <;> first
                   | (with_reducible exact hs)
                   | (with_reducible refine keep_ite ?_ ?_
                      · with_reducible refine State.landed_keeps _ _ ?_
                        with_reducible refine State.digest_keeps _ _ _ ?_
                        with_reducible exact hs
                      · with_reducible refine State.postOrWait_keeps _ _ _ _ _ _ ?_ ?_
                        · with_reducible exact hs
                        · intro x2 h2
                          with_reducible refine State.landed_keeps _ _ ?_
                          with_reducible refine State.digest_keeps _ _ _ ?_
                          with_reducible exact h2))))

theorem execDoorbellPoll_keeps (words : List (Nat × Word)) (s : State) (hs : Mem Q s) : OutMem Q (execDoorbellPoll words s) := by
  unfold execDoorbellPoll
  with_reducible refine onLive_keeps _ _ ?_ ?_
  · with_reducible exact hs
  · intro x1 h1
    with_reducible refine doorbellPoll_keeps _ _ ?_
    with_reducible exact h1

theorem State.forward_keeps (W : WritesLm Q) (s : State) (tile : Nat) (op : Nat) (d : Desc) (hs : Mem Q s) : Mem Q (State.forward s tile op d) := by
  unfold State.forward
  extract_lets -merge +onlyGivenNames a1
  try clear_value a1
  with_reducible refine keep_ite ?_ ?_
  · with_reducible refine State.finishAs_keeps W _ _ _ _ _ _ _ ?_
    with_reducible exact hs
  · with_reducible refine State.linkSend_keeps _ _ _ ?_
    with_reducible refine State.setLink_keeps _ _ _ ?_
    with_reducible exact hs

theorem completionPost_keeps (cq : Nat) (headWord : Option Word) (ok : Bool) (s : State) (hs : Mem Q s) : Mem Q (completionPost cq headWord ok s) := by
  unfold completionPost
  split <;> first
    | (with_reducible refine State.post_keeps _ _ _ ?_
       with_reducible refine keep_ite ?_ ?_
       · with_reducible exact hs
       · with_reducible refine State.headWord_keeps _ _ _ ?_
         with_reducible exact hs)
    | (with_reducible refine keep_ite ?_ ?_
       · with_reducible exact hs
       · with_reducible refine State.post_keeps _ _ _ ?_
         with_reducible exact hs)

theorem descriptorFetch_keeps (W : WritesLm Q) (data : HostData) (s : State) (hs : Mem Q s) : Mem Q (descriptorFetch data s) := by
  unfold descriptorFetch
  with_reducible refine keep_ite ?_ ?_
  · with_reducible exact hs
  · split <;> first
      | (with_reducible exact hs)
      | (split <;> first
           | (with_reducible exact hs)
           | (extract_lets -merge +onlyGivenNames a1 a2 a3 a4 a5
              have ha1 : Mem Q a1 := by
                subst a1
                with_reducible refine State.serveOne_keeps _ _ _ ?_
                with_reducible exact hs
              try clear_value a1
              try clear_value a2
              have ha3 : Mem Q a3 := by
                subst a3
                with_reducible refine State.setSq_keeps _ _ _ ?_
                with_reducible exact ha1
              try clear_value a3
              try clear_value a4
              have ha5 : Mem Q a5 := by
                subst a5
                with_reducible refine State.takeOff_keeps _ _ _ ?_
                with_reducible exact ha3
              try clear_value a5
              with_reducible refine keep_ite ?_ ?_
              · with_reducible refine State.fetchLost_keeps _ _ _ ?_
                with_reducible refine State.detect_keeps _ _ ?_
                with_reducible refine State.setSq_keeps _ _ _ ?_
                with_reducible exact ha1
              · with_reducible refine keep_ite ?_ ?_
                · with_reducible refine State.forward_keeps W _ _ _ _ ?_
                  with_reducible exact ha5
                · split <;> first
                    | (with_reducible refine State.finish_keeps W _ _ _ _ _ ?_
                       with_reducible exact ha5)
                    | (with_reducible exact ha5)))

theorem onAdmin_keeps (W : WritesLm Q) (d : Desc) (op : Nat) (f : State → State) (s : State) (hf : ∀ y0, Mem Q y0 → Mem Q (f y0)) (hs : Mem Q s) : Mem Q (onAdmin d op f s) := by
  unfold onAdmin
  with_reducible refine keep_ite ?_ ?_
  · with_reducible refine State.finish_keeps W _ _ _ _ _ ?_
    with_reducible exact hs
  · with_reducible refine hf _ ?_
    with_reducible exact hs

theorem cqDelete_keeps (W : WritesLm Q) (d : Desc) (s : State) (hs : Mem Q s) : Mem Q (cqDelete d s) := by
  unfold cqDelete
  extract_lets -merge +onlyGivenNames a1 a2
  try clear_value a1
  try clear_value a2
  with_reducible refine keep_ite ?_ ?_
  · with_reducible refine State.finish_keeps W _ _ _ _ _ ?_
    with_reducible exact hs
  · with_reducible refine keep_ite ?_ ?_
    · with_reducible refine State.finish_keeps W _ _ _ _ _ ?_
      with_reducible exact hs
    · with_reducible refine keep_ite ?_ ?_
      · with_reducible refine State.finish_keeps W _ _ _ _ _ ?_
        with_reducible exact hs
      · with_reducible refine State.finish_keeps W _ _ _ _ _ ?_
        unfold Mem; dsimp only; refine mem_in ?_
        with_reducible exact hs

theorem execNop_keeps (W : WritesLm Q) (d : Desc) (s : State) (hs : Mem Q s) : OutMem Q (execNop d s) := by
  unfold execNop
  with_reducible refine onOp_keeps W _ _ _ _ _ ?_ ?_
  · with_reducible exact hs
  · intro x1 h1
    with_reducible refine State.finish_keeps W _ _ _ _ _ ?_
    with_reducible exact h1

theorem cqCreate_keeps (W : WritesLm Q) (d : Desc) (s : State) (hs : Mem Q s) : Mem Q (cqCreate d s) := by
  unfold cqCreate
  extract_lets -merge +onlyGivenNames a1 a2 a3 a4 a5 a6
  try clear_value a1
  try clear_value a2
  try clear_value a3
  try clear_value a4
  try clear_value a5
  try clear_value a6
  with_reducible refine keep_ite ?_ ?_
  · with_reducible refine State.finish_keeps W _ _ _ _ _ ?_
    with_reducible exact hs
  · with_reducible refine keep_ite ?_ ?_
    · with_reducible refine State.finish_keeps W _ _ _ _ _ ?_
      with_reducible exact hs
    · with_reducible refine keep_ite ?_ ?_
      · with_reducible refine State.finish_keeps W _ _ _ _ _ ?_
        with_reducible exact hs
      · with_reducible refine keep_ite ?_ ?_
        · with_reducible refine State.finish_keeps W _ _ _ _ _ ?_
          with_reducible exact hs
        · with_reducible refine State.finish_keeps W _ _ _ _ _ ?_
          with_reducible refine State.setCq_keeps _ _ _ ?_
          with_reducible exact hs

theorem sqDelete_keeps (W : WritesLm Q) (d : Desc) (s : State) (hs : Mem Q s) : Mem Q (sqDelete d s) := by
  unfold sqDelete
  extract_lets -merge +onlyGivenNames a1 a2 a3 a4
  try clear_value a1
  have ha2 : Mem Q a2 := by
    subst a2
    with_reducible refine State.abortFlights_keeps _ _ _ _ ?_
    with_reducible exact hs
  try clear_value a2
  try clear_value a3
  have ha4 : Mem Q a4 := by
    subst a4
    unfold Mem; dsimp only; refine mem_in ?_
    with_reducible exact ha2
  try clear_value a4
  with_reducible refine keep_ite ?_ ?_
  · with_reducible refine State.finish_keeps W _ _ _ _ _ ?_
    with_reducible exact hs
  · with_reducible refine keep_ite ?_ ?_
    · with_reducible refine State.finish_keeps W _ _ _ _ _ ?_
      with_reducible exact hs
    · with_reducible refine settleDeletes_keeps _ _ ?_
      with_reducible exact ha4

theorem execCompletionPost_keeps (cq : Nat) (headWord : Option Word) (ok : Bool) (s : State) (hs : Mem Q s) : OutMem Q (execCompletionPost cq headWord ok s) := by
  unfold execCompletionPost
  with_reducible refine onLive_keeps _ _ ?_ ?_
  · with_reducible exact hs
  · intro x1 h1
    with_reducible refine completionPost_keeps _ _ _ _ ?_
    with_reducible exact h1

theorem sqCreate_keeps (W : WritesLm Q) (d : Desc) (s : State) (hs : Mem Q s) : Mem Q (sqCreate d s) := by
  unfold sqCreate
  extract_lets -merge +onlyGivenNames a1 a2 a3 a4 a5 a6 a7 a8 a9
  try clear_value a1
  try clear_value a2
  try clear_value a3
  try clear_value a4
  try clear_value a5
  try clear_value a6
  try clear_value a7
  have ha8 : Mem Q a8 := by
    subst a8
    with_reducible refine State.setSq_keeps _ _ _ ?_
    with_reducible exact hs
  try clear_value a8
  have ha9 : Mem Q a9 := by
    subst a9
    with_reducible refine keep_ite ?_ ?_
    · with_reducible refine State.setLink_keeps _ _ _ ?_
      with_reducible exact ha8
    · with_reducible exact ha8
  try clear_value a9
  with_reducible refine keep_ite ?_ ?_
  · with_reducible refine State.finish_keeps W _ _ _ _ _ ?_
    with_reducible exact hs
  · with_reducible refine keep_ite ?_ ?_
    · with_reducible refine State.finish_keeps W _ _ _ _ _ ?_
      with_reducible exact hs
    · with_reducible refine keep_ite ?_ ?_
      · with_reducible refine State.finish_keeps W _ _ _ _ _ ?_
        with_reducible exact hs
      · with_reducible refine keep_ite ?_ ?_
        · with_reducible refine State.finish_keeps W _ _ _ _ _ ?_
          with_reducible exact hs
        · with_reducible refine keep_ite ?_ ?_
          · with_reducible refine State.finish_keeps W _ _ _ _ _ ?_
            with_reducible exact hs
          · with_reducible refine State.finish_keeps W _ _ _ _ _ ?_
            with_reducible exact ha9

theorem execSqCreate_keeps (W : WritesLm Q) (d : Desc) (s : State) (hs : Mem Q s) : OutMem Q (execSqCreate d s) := by
  unfold execSqCreate
  with_reducible refine onOp_keeps W _ _ _ _ _ ?_ ?_
  · with_reducible exact hs
  · intro x1 h1
    with_reducible refine onAdmin_keeps W _ _ _ _ ?_ ?_
    · intro x2 h2
      with_reducible refine sqCreate_keeps W _ _ ?_
      with_reducible exact h2
    · with_reducible exact h1

theorem execSqDelete_keeps (W : WritesLm Q) (d : Desc) (s : State) (hs : Mem Q s) : OutMem Q (execSqDelete d s) := by
  unfold execSqDelete
  with_reducible refine onOp_keeps W _ _ _ _ _ ?_ ?_
  · with_reducible exact hs
  · intro x1 h1
    with_reducible refine onAdmin_keeps W _ _ _ _ ?_ ?_
    · intro x2 h2
      with_reducible refine sqDelete_keeps W _ _ ?_
      with_reducible exact h2
    · with_reducible exact h1

theorem execCqDelete_keeps (W : WritesLm Q) (d : Desc) (s : State) (hs : Mem Q s) : OutMem Q (execCqDelete d s) := by
  unfold execCqDelete
  with_reducible refine onOp_keeps W _ _ _ _ _ ?_ ?_
  · with_reducible exact hs
  · intro x1 h1
    with_reducible refine onAdmin_keeps W _ _ _ _ ?_ ?_
    · intro x2 h2
      with_reducible refine cqDelete_keeps W _ _ ?_
      with_reducible exact h2
    · with_reducible exact h1

theorem localWrite_keeps (W : WritesLm Q) (d : Desc) (src : HostData) (s : State) (hs : Mem Q s) : Mem Q (localWrite d src s) := by
  unfold localWrite
  extract_lets -merge +onlyGivenNames a1
  try clear_value a1
  split <;> first
    | (with_reducible refine State.finish_keeps W _ _ _ _ _ ?_
       with_reducible exact hs)
    | (with_reducible refine keep_ite ?_ ?_
       · with_reducible refine State.finish_keeps W _ _ _ _ _ ?_
         with_reducible refine State.lmWrite_keeps W _ _ _ ?_
         with_reducible exact hs
       · with_reducible refine State.finish_keeps W _ _ _ _ _ ?_
         with_reducible refine State.scramble_keeps W _ _ _ ?_
         with_reducible exact hs)

theorem localRead_keeps (W : WritesLm Q) (d : Desc) (ok : Bool) (s : State) (hs : Mem Q s) : Mem Q (localRead d ok s) := by
  unfold localRead
  split <;> first
    | (with_reducible refine State.finish_keeps W _ _ _ _ _ ?_
       with_reducible exact hs)
    | (with_reducible refine State.readsLm_keeps W _ _ _ _ _ _ ?_ ?_
       · with_reducible exact hs
       · with_reducible refine keep_ite ?_ ?_
         · with_reducible refine State.finish_keeps W _ _ _ _ _ ?_
           with_reducible refine State.emit_keeps _ _ ?_
           with_reducible exact hs
         · with_reducible refine State.finish_keeps W _ _ _ _ _ ?_
           with_reducible exact hs)

theorem execDescriptorFetch_keeps (W : WritesLm Q) (data : HostData) (s : State) (hs : Mem Q s) : OutMem Q (execDescriptorFetch data s) := by
  unfold execDescriptorFetch
  with_reducible refine onLive_keeps _ _ ?_ ?_
  · with_reducible exact hs
  · intro x1 h1
    with_reducible refine descriptorFetch_keeps W _ _ ?_
    with_reducible exact h1

theorem queueQuery_keeps (W : WritesLm Q) (d : Desc) (s : State) (hs : Mem Q s) : Mem Q (queueQuery d s) := by
  unfold queueQuery
  with_reducible refine keep_ite ?_ ?_
  · with_reducible refine State.finish_keeps W _ _ _ _ _ ?_
    with_reducible exact hs
  · with_reducible refine keep_ite ?_ ?_
    · with_reducible refine State.finish_keeps W _ _ _ _ _ ?_
      with_reducible exact hs
    · with_reducible refine State.finish_keeps W _ _ _ _ _ ?_
      with_reducible exact hs

theorem execCqCreate_keeps (W : WritesLm Q) (d : Desc) (s : State) (hs : Mem Q s) : OutMem Q (execCqCreate d s) := by
  unfold execCqCreate
  with_reducible refine onOp_keeps W _ _ _ _ _ ?_ ?_
  · with_reducible exact hs
  · intro x1 h1
    with_reducible refine onAdmin_keeps W _ _ _ _ ?_ ?_
    · intro x2 h2
      with_reducible refine cqCreate_keeps W _ _ ?_
      with_reducible exact h2
    · with_reducible exact h1

theorem execQueueQuery_keeps (W : WritesLm Q) (d : Desc) (s : State) (hs : Mem Q s) : OutMem Q (execQueueQuery d s) := by
  unfold execQueueQuery
  with_reducible refine onOp_keeps W _ _ _ _ _ ?_ ?_
  · with_reducible exact hs
  · intro x1 h1
    with_reducible refine onAdmin_keeps W _ _ _ _ ?_ ?_
    · intro x2 h2
      with_reducible refine queueQuery_keeps W _ _ ?_
      with_reducible exact h2
    · with_reducible exact h1

theorem execLocalWrite_keeps (W : WritesLm Q) (d : Desc) (src : HostData) (s : State) (hs : Mem Q s) : OutMem Q (execLocalWrite d src s) := by
  unfold execLocalWrite
  with_reducible refine onOp_keeps W _ _ _ _ _ ?_ ?_
  · with_reducible exact hs
  · intro x1 h1
    with_reducible refine localWrite_keeps W _ _ _ ?_
    with_reducible exact h1

theorem execLocalRead_keeps (W : WritesLm Q) (d : Desc) (ok : Bool) (s : State) (hs : Mem Q s) : OutMem Q (execLocalRead d ok s) := by
  unfold execLocalRead
  with_reducible refine onOp_keeps W _ _ _ _ _ ?_ ?_
  · with_reducible exact hs
  · intro x1 h1
    with_reducible refine localRead_keeps W _ _ _ ?_
    with_reducible exact h1

theorem State.dup_keeps (s : State) (k : Nat) (hs : Mem Q s) : Mem Q (State.dup s k) := by
  unfold State.dup
  with_reducible refine State.inc_keeps _ _ ?_
  with_reducible exact hs

theorem State.taken_keeps (s : State) (k : Nat) (hs : Mem Q s) : Mem Q (State.taken s k) := by
  unfold State.taken
  with_reducible refine State.inc_keeps _ _ ?_
  with_reducible exact hs

theorem State.crcBad_keeps (s : State) (k : Nat) (hs : Mem Q s) : Mem Q (State.crcBad s k) := by
  unfold State.crcBad
  with_reducible refine State.detect_keeps _ _ ?_
  with_reducible refine State.inc_keeps _ _ ?_
  with_reducible exact hs

theorem State.pass_keeps (s : State) (k : Nat) (i : Nat) (b : Bytes) (hs : Mem Q s) : Mem Q (State.pass s k i b) := by
  unfold State.pass
  extract_lets -merge +onlyGivenNames a1 a2
  try clear_value a1
  have ha2 : Mem Q a2 := by
    subst a2
    with_reducible refine State.emit_keeps _ _ ?_
    with_reducible exact hs
  try clear_value a2
  with_reducible refine keep_ite ?_ ?_
  · with_reducible refine keep_ite ?_ ?_
    · with_reducible refine State.detect_keeps _ _ ?_
      with_reducible refine State.inc_keeps _ _ ?_
      with_reducible exact ha2
    · with_reducible exact ha2
  · with_reducible exact hs

theorem State.hdrBad_keeps (s : State) (k : Nat) (hs : Mem Q s) : Mem Q (State.hdrBad s k) := by
  unfold State.hdrBad
  with_reducible refine State.detect_keeps _ _ ?_
  with_reducible refine State.inc_keeps _ _ ?_
  with_reducible exact hs

theorem State.onCopy_keeps (s : State) (k : Nat) (i : Nat) (b : Bytes) (classes : List Nat) (f : State → State) (hs : Mem Q s) (hf : ∀ y0, Mem Q y0 → Mem Q (f y0)) : Mem Q (State.onCopy s k i b classes f) := by
  unfold State.onCopy
  extract_lets -merge +onlyGivenNames a1
  have ha1 : Mem Q a1 := by
    subst a1
    with_reducible refine State.pass_keeps _ _ _ _ ?_
    with_reducible exact hs
  try clear_value a1
  with_reducible refine keep_ite ?_ ?_
  · with_reducible exact hs
  · with_reducible refine keep_ite ?_ ?_
    · with_reducible refine State.hdrBad_keeps _ _ ?_
      with_reducible exact ha1
    · with_reducible refine keep_ite ?_ ?_
      · with_reducible refine State.crcBad_keeps _ _ ?_
        with_reducible exact ha1
      · with_reducible refine keep_ite ?_ ?_
        · with_reducible refine hf _ ?_
          with_reducible exact ha1
        · with_reducible exact ha1

theorem State.takeRet_keeps (s : State) (m : RetMsg) (hs : Mem Q s) : Mem Q (State.takeRet s m) := by
  unfold State.takeRet
  extract_lets -merge +onlyGivenNames a1 a2 a3 a4
  try clear_value a1
  try clear_value a2
  try clear_value a3
  try clear_value a4
  unfold Mem; dsimp only; refine mem_in ?_
  with_reducible exact hs

theorem State.hear_keeps (s : State) (k : Nat) (t : Nat) (hs : Mem Q s) : Mem Q (State.hear s k t) := by
  unfold State.hear
  extract_lets -merge +onlyGivenNames a1 a2
  try clear_value a1
  try clear_value a2
  with_reducible refine State.setPort_keeps _ _ _ ?_
  with_reducible refine State.wr_keeps _ _ _ ?_
  with_reducible exact hs

theorem State.retSlot_keeps (s : State) (m : RetMsg) (hs : Mem Q s) : Mem Q (State.retSlot s m) := by
  unfold State.retSlot
  extract_lets -merge +onlyGivenNames a1
  have ha1 : Mem Q a1 := by
    subst a1
    with_reducible refine State.pass_keeps _ _ _ _ ?_
    with_reducible exact hs
  try clear_value a1
  with_reducible refine keep_ite ?_ ?_
  · with_reducible exact hs
  · with_reducible refine keep_ite ?_ ?_
    · with_reducible refine State.hdrBad_keeps _ _ ?_
      with_reducible exact ha1
    · with_reducible refine keep_ite ?_ ?_
      · with_reducible refine State.crcBad_keeps _ _ ?_
        with_reducible exact ha1
      · with_reducible refine keep_ite ?_ ?_
        · with_reducible refine State.hdrBad_keeps _ _ ?_
          with_reducible exact ha1
        · with_reducible exact ha1

theorem onRetAgain_keeps (m : RetMsg) (kind : Nat) (f : State → State) (again : State → State) (s : State) (hf : ∀ y0, Mem Q y0 → Mem Q (f y0)) (hagain : ∀ y0, Mem Q y0 → Mem Q (again y0)) (hs : Mem Q s) : OutMem Q (onRetAgain m kind f again s) := by
  unfold onRetAgain
  with_reducible refine onLive_keeps _ _ ?_ ?_
  · with_reducible exact hs
  · intro x1 h1
    extract_lets -merge +onlyGivenNames a1 a2 a3 a4
    have ha1 : Mem Q a1 := by
      subst a1
      with_reducible refine State.retSlot_keeps _ _ ?_
      with_reducible exact h1
    try clear_value a1
    have ha2 : Mem Q a2 := by
      subst a2
      with_reducible refine State.hear_keeps _ _ _ ?_
      with_reducible refine State.takeRet_keeps _ _ ?_
      with_reducible exact ha1
    try clear_value a2
    have ha3 : Mem Q a3 := by
      subst a3
      with_reducible refine keep_ite ?_ ?_
      · with_reducible refine State.taken_keeps _ _ ?_
        with_reducible exact ha2
      · with_reducible exact ha2
    try clear_value a3
    have ha4 : Mem Q a4 := by
      subst a4
      with_reducible refine State.hear_keeps _ _ _ ?_
      with_reducible refine keep_ite ?_ ?_
      · with_reducible refine State.dup_keeps _ _ ?_
        with_reducible exact ha1
      · with_reducible exact ha1
    try clear_value a4
    with_reducible refine keep_ite ?_ ?_
    · with_reducible exact ha1
    · split <;> first
        | (with_reducible exact ha1)
        | (with_reducible refine keep_ite ?_ ?_
           · with_reducible exact ha1
           · with_reducible refine keep_ite ?_ ?_
             · with_reducible refine keep_ite ?_ ?_
               · with_reducible refine hf _ ?_
                 with_reducible exact ha3
               · with_reducible refine State.hdrBad_keeps _ _ ?_
                 with_reducible exact ha3
             · with_reducible refine keep_ite ?_ ?_
               · with_reducible refine hagain _ ?_
                 with_reducible exact ha4
               · with_reducible exact ha4)

theorem onRet_keeps (m : RetMsg) (kind : Nat) (f : State → State) (s : State) (hf : ∀ y0, Mem Q y0 → Mem Q (f y0)) (hs : Mem Q s) : OutMem Q (onRet m kind f s) := by
  unfold onRet
  with_reducible refine onRetAgain_keeps _ _ _ _ _ ?_ ?_ ?_
  · intro x1 h1
    with_reducible refine hf _ ?_
    with_reducible exact h1
  · intro x2 h2
    with_reducible exact h2
  · with_reducible exact hs

end Sys2Proof.Machine
end

