-- ==== Sys2Proof/Laws/KeepsStep.lean ====
section
/-! SUPPORT. The operations and meanings of Stand, Bank, Validate, Commit keep any property of the stores and the straps that the writes they
make keep (see Laws/Memory.lean). -/

namespace Sys2Proof.Machine

variable {Q : Store → Store → StrapBalls → Prop}

theorem State.setOvl_keeps (s : State) (i : Nat) (o : Option Overlay) (hs : Mem Q s) : Mem Q (State.setOvl s i o) := by
  unfold State.setOvl
  extract_lets -merge +onlyGivenNames a1
  try clear_value a1
  unfold Mem; dsimp only; refine mem_in ?_
  with_reducible exact hs

theorem State.setStand_keeps (s : State) (i : Nat) (x : Option Stand) (hs : Mem Q s) : Mem Q (State.setStand s i x) := by
  unfold State.setStand
  extract_lets -merge +onlyGivenNames a1
  try clear_value a1
  unfold Mem; dsimp only; refine mem_in ?_
  with_reducible exact hs

theorem State.broadcast_keeps (s : State) (stream : Nat) (bid : Nat) (bytes : Bytes) (hs : Mem Q s) : Mem Q (State.broadcast s stream bid bytes) := by
  unfold State.broadcast
  extract_lets -merge +onlyGivenNames a1 a2 a3 a4
  try clear_value a1
  try clear_value a2
  have ha3 : Mem Q a3 := by
    subst a3
    refine keep_foldl ?_ ?_
    · with_reducible exact hs
    · intro x1 x2 h1
      extract_lets -merge +onlyGivenNames a5
      try clear_value a5
      with_reducible refine keep_ite ?_ ?_
      · with_reducible refine State.setPort_keeps _ _ _ ?_
        with_reducible exact h1
      · with_reducible exact h1
  try clear_value a3
  try clear_value a4
  unfold Mem; dsimp only; refine mem_in ?_
  with_reducible exact ha3

theorem State.failOvl_keeps (s : State) (i : Nat) (inUse : Bool) (hs : Mem Q s) : Mem Q (State.failOvl s i inUse) := by
  unfold State.failOvl
  extract_lets -merge +onlyGivenNames a1 a2
  have ha1 : Mem Q a1 := by
    subst a1
    with_reducible refine State.detect_keeps _ _ ?_
    with_reducible exact hs
  try clear_value a1
  try clear_value a2
  unfold Mem; dsimp only; refine mem_in ?_
  with_reducible exact ha1

theorem State.bcastOverlay_keeps (s : State) (c : Bytes) (hs : Mem Q s) : Mem Q (State.bcastOverlay s c) := by
  unfold State.bcastOverlay
  extract_lets -merge +onlyGivenNames a1 a2
  try clear_value a1
  try clear_value a2
  with_reducible refine keep_ite ?_ ?_
  · with_reducible refine keep_ite ?_ ?_
    · with_reducible refine State.detect_keeps _ _ ?_
      with_reducible exact hs
    · with_reducible refine State.setOvl_keeps _ _ _ ?_
      with_reducible exact hs
  · with_reducible refine keep_ite ?_ ?_
    · with_reducible refine State.failOvl_keeps _ _ _ ?_
      with_reducible exact hs
    · with_reducible refine keep_ite ?_ ?_
      · with_reducible refine State.setOvl_keeps _ _ _ ?_
        with_reducible exact hs
      · with_reducible refine State.failOvl_keeps _ _ _ ?_
        with_reducible exact hs

theorem State.rejectOvl_keeps (W : WritesLm Q) (s : State) (d : Desc) (st : Nat) (hs : Mem Q s) : Mem Q (State.rejectOvl s d st) := by
  unfold State.rejectOvl
  with_reducible refine State.finish_keeps W _ _ _ _ _ ?_
  with_reducible refine keep_ite ?_ ?_
  · with_reducible refine State.lmUncorr_keeps _ ?_
    with_reducible exact hs
  · with_reducible refine State.detect_keeps _ _ ?_
    with_reducible exact hs

theorem standUnload_keeps (W : WritesLm Q) (d : Desc) (s : State) (hs : Mem Q s) : Mem Q (standUnload d s) := by
  unfold standUnload
  extract_lets -merge +onlyGivenNames a1
  try clear_value a1
  with_reducible refine keep_ite ?_ ?_
  · with_reducible refine State.finish_keeps W _ _ _ _ _ ?_
    with_reducible exact hs
  · with_reducible refine keep_ite ?_ ?_
    · with_reducible refine State.finish_keeps W _ _ _ _ _ ?_
      with_reducible exact hs
    · with_reducible refine State.finish_keeps W _ _ _ _ _ ?_
      with_reducible refine State.setStand_keeps _ _ _ ?_
      with_reducible exact hs

theorem State.broadcastFor_keeps (W : WritesLm Q) (s : State) (stream : Nat) (bytes : Bytes) (d : Desc) (op : Nat) (hs : Mem Q s) : Mem Q (State.broadcastFor s stream bytes d op) := by
  unfold State.broadcastFor
  extract_lets -merge +onlyGivenNames a1 a2 a3 a4 a5
  try clear_value a1
  try clear_value a2
  have ha3 : Mem Q a3 := by
    subst a3
    unfold Mem; dsimp only; refine mem_in ?_
    with_reducible exact hs
  try clear_value a3
  have ha4 : Mem Q a4 := by
    subst a4
    with_reducible refine State.broadcast_keeps _ _ _ _ ?_
    with_reducible exact ha3
  try clear_value a4
  try clear_value a5
  with_reducible refine keep_ite ?_ ?_
  · unfold Mem; dsimp only; refine mem_in ?_
    with_reducible exact ha4
  · with_reducible refine State.finish_keeps W _ _ _ _ _ ?_
    with_reducible exact ha4

theorem overlayUnload_keeps (W : WritesLm Q) (d : Desc) (s : State) (hs : Mem Q s) : Mem Q (overlayUnload d s) := by
  unfold overlayUnload
  extract_lets -merge +onlyGivenNames a1 a2 a3
  try clear_value a1
  try clear_value a2
  try clear_value a3
  with_reducible refine keep_ite ?_ ?_
  · with_reducible refine State.finish_keeps W _ _ _ _ _ ?_
    with_reducible exact hs
  · with_reducible refine keep_ite ?_ ?_
    · with_reducible refine State.broadcastFor_keeps W _ _ _ _ _ ?_
      with_reducible exact hs
    · with_reducible refine keep_ite ?_ ?_
      · with_reducible refine State.finish_keeps W _ _ _ _ _ ?_
        with_reducible refine State.detect_keeps _ _ ?_
        with_reducible exact hs
      · with_reducible refine State.finish_keeps W _ _ _ _ _ ?_
        with_reducible refine State.setOvl_keeps _ _ _ ?_
        with_reducible exact hs

theorem execStandUnload_keeps (W : WritesLm Q) (d : Desc) (s : State) (hs : Mem Q s) : OutMem Q (execStandUnload d s) := by
  unfold execStandUnload
  with_reducible refine onOp_keeps W _ _ _ _ _ ?_ ?_
  · with_reducible exact hs
  · intro x1 h1
    with_reducible refine standUnload_keeps W _ _ ?_
    with_reducible exact h1

theorem execOverlayUnload_keeps (W : WritesLm Q) (d : Desc) (s : State) (hs : Mem Q s) : OutMem Q (execOverlayUnload d s) := by
  unfold execOverlayUnload
  with_reducible refine onOp_keeps W _ _ _ _ _ ?_ ?_
  · with_reducible exact hs
  · intro x1 h1
    with_reducible refine overlayUnload_keeps W _ _ ?_
    with_reducible exact h1

theorem overlayLoad_keeps (W : WritesLm Q) (d : Desc) (s : State) (hs : Mem Q s) : Mem Q (overlayLoad d s) := by
  unfold overlayLoad
  extract_lets -merge +onlyGivenNames a1 a2 a3 a4 a5 a6
  try clear_value a1
  try clear_value a2
  try clear_value a3
  try clear_value a4
  try clear_value a5
  try clear_value a6
  with_reducible refine keep_ite ?_ ?_
  · with_reducible refine State.finish_keeps W _ _ _ _ _ ?_
    with_reducible exact hs
  · with_reducible refine keep_ite ?_ ?_
    · with_reducible refine keep_ite ?_ ?_
      · with_reducible refine State.broadcastFor_keeps W _ _ _ _ _ ?_
        with_reducible exact hs
      · with_reducible refine State.rejectOvl_keeps W _ _ _ ?_
        with_reducible exact hs
    · with_reducible refine keep_ite ?_ ?_
      · with_reducible refine State.finish_keeps W _ _ _ _ _ ?_
        with_reducible refine State.detect_keeps _ _ ?_
        with_reducible exact hs
      · with_reducible refine keep_ite ?_ ?_
        · with_reducible refine State.rejectOvl_keeps W _ _ _ ?_
          with_reducible exact hs
        · with_reducible refine keep_ite ?_ ?_
          · with_reducible refine State.finish_keeps W _ _ _ _ _ ?_
            with_reducible refine State.setOvl_keeps _ _ _ ?_
            with_reducible exact hs
          · with_reducible refine State.finish_keeps W _ _ _ _ _ ?_
            with_reducible refine State.detect_keeps _ _ ?_
            with_reducible exact hs

theorem execOverlayLoad_keeps (W : WritesLm Q) (d : Desc) (s : State) (hs : Mem Q s) : OutMem Q (execOverlayLoad d s) := by
  unfold execOverlayLoad
  with_reducible refine onOp_keeps W _ _ _ _ _ ?_ ?_
  · with_reducible exact hs
  · intro x1 h1
    with_reducible refine overlayLoad_keeps W _ _ ?_
    with_reducible exact h1

theorem standLoad_keeps (W : WritesLm Q) (d : Desc) (s : State) (hs : Mem Q s) : Mem Q (standLoad d s) := by
  unfold standLoad
  extract_lets -merge +onlyGivenNames a1 a2 a3
  try clear_value a1
  try clear_value a2
  try clear_value a3
  with_reducible refine keep_ite ?_ ?_
  · with_reducible refine State.finish_keeps W _ _ _ _ _ ?_
    with_reducible exact hs
  · with_reducible refine keep_ite ?_ ?_
    · with_reducible refine State.finish_keeps W _ _ _ _ _ ?_
      with_reducible exact hs
    · with_reducible refine keep_ite ?_ ?_
      · with_reducible refine State.finish_keeps W _ _ _ _ _ ?_
        with_reducible exact hs
      · with_reducible refine keep_ite ?_ ?_
        · with_reducible refine State.finish_keeps W _ _ _ _ _ ?_
          with_reducible refine State.lmUncorr_keeps _ ?_
          with_reducible exact hs
        · with_reducible refine keep_ite ?_ ?_
          · with_reducible refine State.finish_keeps W _ _ _ _ _ ?_
            with_reducible exact hs
          · with_reducible refine State.readsLm_keeps W _ _ _ _ _ _ ?_ ?_
            · with_reducible exact hs
            · split <;> first
                | (with_reducible refine State.finish_keeps W _ _ _ _ _ ?_
                   with_reducible refine State.detect_keeps _ _ ?_
                   with_reducible exact hs)
                | (with_reducible refine State.finish_keeps W _ _ _ _ _ ?_
                   with_reducible refine State.setStand_keeps _ _ _ ?_
                   with_reducible exact hs)

theorem execStandLoad_keeps (W : WritesLm Q) (d : Desc) (s : State) (hs : Mem Q s) : OutMem Q (execStandLoad d s) := by
  unfold execStandLoad
  with_reducible refine onOp_keeps W _ _ _ _ _ ?_ ?_
  · with_reducible exact hs
  · intro x1 h1
    with_reducible refine standLoad_keeps W _ _ ?_
    with_reducible exact h1

theorem State.setShadowBank_keeps (s : State) (b : Bank) (hs : Mem Q s) : Mem Q (State.setShadowBank s b) := by
  unfold State.setShadowBank
  extract_lets -merge +onlyGivenNames a1
  try clear_value a1
  unfold Mem; dsimp only; refine mem_in ?_
  with_reducible exact hs

theorem State.settlePvw_keeps (s : State) (hs : Mem Q s) : Mem Q (State.settlePvw s) := by
  unfold State.settlePvw
  extract_lets -merge +onlyGivenNames a1 a2
  try clear_value a1
  try clear_value a2
  unfold Mem; dsimp only; refine mem_in ?_
  with_reducible exact hs

theorem State.touch_keeps (s : State) (item : Nat) (tile : Nat) (index : Nat) (hs : Mem Q s) : Mem Q (State.touch s item tile index) := by
  unfold State.touch
  extract_lets -merge +onlyGivenNames a1 a2
  try clear_value a1
  try clear_value a2
  unfold Mem; dsimp only; refine mem_in ?_
  with_reducible exact hs

theorem State.localEdit_keeps (s : State) (hs : Mem Q s) : Mem Q (State.localEdit s) := by
  unfold State.localEdit
  extract_lets -merge +onlyGivenNames a1
  try clear_value a1
  unfold Mem; dsimp only; refine mem_in ?_
  with_reducible exact hs

theorem State.untouch_keeps (s : State) (item : Nat) (index : Nat) (hs : Mem Q s) : Mem Q (State.untouch s item index) := by
  unfold State.untouch
  extract_lets -merge +onlyGivenNames a1
  try clear_value a1
  unfold Mem; dsimp only; refine mem_in ?_
  with_reducible exact hs

theorem State.hostEdited_keeps (s : State) (hs : Mem Q s) : Mem Q (State.hostEdited s) := by
  unfold State.hostEdited
  extract_lets -merge +onlyGivenNames a1
  try clear_value a1
  unfold Mem; dsimp only; refine mem_in ?_
  with_reducible exact hs

theorem State.showShadow_keeps (s : State) (hs : Mem Q s) : Mem Q (State.showShadow s) := by
  unfold State.showShadow
  split <;>
    (with_reducible refine State.wr_keeps _ _ _ ?_
     with_reducible refine State.wr_keeps _ _ _ ?_
     with_reducible exact hs)

theorem State.afterRebuild_keeps (s : State) (old : Bank) (hs : Mem Q s) : Mem Q (State.afterRebuild s old) := by
  unfold State.afterRebuild
  extract_lets -merge +onlyGivenNames a1
  have ha1 : Mem Q a1 := by
    subst a1
    with_reducible refine keep_ite ?_ ?_
    · with_reducible refine State.touch_keeps _ _ _ _ ?_
      with_reducible exact hs
    · with_reducible exact hs
  try clear_value a1
  with_reducible refine State.showShadow_keeps _ ?_
  with_reducible refine State.hostEdited_keeps _ ?_
  with_reducible exact ha1

theorem State.revertShadow_keeps (s : State) (hs : Mem Q s) : Mem Q (State.revertShadow s) := by
  unfold State.revertShadow
  extract_lets -merge +onlyGivenNames a1 a2
  try clear_value a1
  try clear_value a2
  with_reducible refine State.showShadow_keeps _ ?_
  unfold Mem; dsimp only; refine mem_in ?_
  with_reducible exact hs

theorem State.putM_keeps (s : State) (m : Nat) (hs : Mem Q s) : Mem Q (State.putM s m) := by
  unfold State.putM
  extract_lets -merge +onlyGivenNames a1
  try clear_value a1
  with_reducible refine State.touch_keeps _ _ _ _ ?_
  with_reducible refine State.setShadowBank_keeps _ _ ?_
  with_reducible exact hs

theorem State.putK_keeps (s : State) (k : Nat) (hs : Mem Q s) : Mem Q (State.putK s k) := by
  unfold State.putK
  extract_lets -merge +onlyGivenNames a1
  try clear_value a1
  with_reducible refine State.touch_keeps _ _ _ _ ?_
  with_reducible refine State.setShadowBank_keeps _ _ ?_
  with_reducible exact hs

theorem State.putParam_keeps (s : State) (e : Nat) (j : Nat) (v : Nat) (hs : Mem Q s) : Mem Q (State.putParam s e j v) := by
  unfold State.putParam
  extract_lets -merge +onlyGivenNames a1
  try clear_value a1
  with_reducible refine State.touch_keeps _ _ _ _ ?_
  with_reducible refine State.setShadowBank_keeps _ _ ?_
  with_reducible exact hs

theorem State.writeLayers_keeps (s : State) (off : Nat) (bs : Bytes) (hs : Mem Q s) : Mem Q (State.writeLayers s off bs) := by
  unfold State.writeLayers
  extract_lets -merge +onlyGivenNames a1
  try clear_value a1
  with_reducible refine State.hostEdited_keeps _ ?_
  with_reducible refine State.touch_keeps _ _ _ _ ?_
  with_reducible refine State.setShadowBank_keeps _ _ ?_
  with_reducible exact hs

theorem State.putBuf_keeps (s : State) (k : Nat) (v : Bytes) (hs : Mem Q s) : Mem Q (State.putBuf s k v) := by
  unfold State.putBuf
  extract_lets -merge +onlyGivenNames a1
  try clear_value a1
  with_reducible refine State.localEdit_keeps _ ?_
  with_reducible refine State.hostEdited_keeps _ ?_
  with_reducible refine State.setShadowBank_keeps _ _ ?_
  with_reducible exact hs

theorem shadowGlade_keeps (W : WritesLm Q) (d : Desc) (s : State) (hs : Mem Q s) : Mem Q (shadowGlade d s) := by
  unfold shadowGlade
  extract_lets -merge +onlyGivenNames a1 a2 a3 a4 a5
  try clear_value a1
  try clear_value a2
  try clear_value a3
  have ha4 : Mem Q a4 := by
    subst a4
    with_reducible refine State.setShadowBank_keeps _ _ ?_
    with_reducible exact hs
  try clear_value a4
  try clear_value a5
  with_reducible refine keep_ite ?_ ?_
  · with_reducible refine keep_ite ?_ ?_
    · with_reducible refine State.finish_keeps W _ _ _ _ _ ?_
      with_reducible refine State.hostEdited_keeps _ ?_
      with_reducible refine State.touch_keeps _ _ _ _ ?_
      with_reducible exact ha4
    · with_reducible refine State.finish_keeps W _ _ _ _ _ ?_
      with_reducible exact hs
  · with_reducible refine keep_ite ?_ ?_
    · split <;> first
        | (with_reducible refine State.finish_keeps W _ _ _ _ _ ?_
           with_reducible exact hs)
        | (extract_lets -merge +onlyGivenNames a6
           have ha6 : Mem Q a6 := by
             subst a6
             with_reducible refine State.setShadowBank_keeps _ _ ?_
             with_reducible exact hs
           try clear_value a6
           with_reducible refine keep_ite ?_ ?_
           · with_reducible refine keep_ite ?_ ?_
             · with_reducible refine State.finish_keeps W _ _ _ _ _ ?_
               with_reducible exact hs
             · with_reducible refine State.finish_keeps W _ _ _ _ _ ?_
               with_reducible refine State.hostEdited_keeps _ ?_
               with_reducible refine State.touch_keeps _ _ _ _ ?_
               with_reducible exact ha6
           · with_reducible refine State.finish_keeps W _ _ _ _ _ ?_
             with_reducible exact hs)
    · with_reducible refine State.finish_keeps W _ _ _ _ _ ?_
      with_reducible exact hs

theorem shadowRevert_keeps (W : WritesLm Q) (d : Desc) (s : State) (hs : Mem Q s) : Mem Q (shadowRevert d s) := by
  unfold shadowRevert
  with_reducible refine keep_ite ?_ ?_
  · with_reducible refine State.finish_keeps W _ _ _ _ _ ?_
    with_reducible exact hs
  · with_reducible refine State.finish_keeps W _ _ _ _ _ ?_
    with_reducible refine State.revertShadow_keeps _ ?_
    with_reducible exact hs

theorem shadowTables_keeps (W : WritesLm Q) (d : Desc) (s : State) (hs : Mem Q s) : Mem Q (shadowTables d s) := by
  unfold shadowTables
  extract_lets -merge +onlyGivenNames a1 a2
  try clear_value a1
  try clear_value a2
  split <;> first
    | (with_reducible refine State.finish_keeps W _ _ _ _ _ ?_
       with_reducible exact hs)
    | (extract_lets -merge +onlyGivenNames a3 a4
       have ha3 : Mem Q a3 := by
         subst a3
         with_reducible refine State.setShadowBank_keeps _ _ ?_
         with_reducible exact hs
       try clear_value a3
       have ha4 : Mem Q a4 := by
         subst a4
         refine keep_foldl ?_ ?_
         · with_reducible exact ha3
         · intro x1 x2 h1
           with_reducible refine keep_ite ?_ ?_
           · with_reducible refine State.touch_keeps _ _ _ _ ?_
             with_reducible refine keep_ite ?_ ?_
             · with_reducible refine State.untouch_keeps _ _ _ ?_
               with_reducible exact h1
             · with_reducible exact h1
           · with_reducible exact h1
       try clear_value a4
       with_reducible refine keep_ite ?_ ?_
       · with_reducible refine State.finish_keeps W _ _ _ _ _ ?_
         with_reducible exact hs
       · with_reducible refine keep_ite ?_ ?_
         · with_reducible refine State.finish_keeps W _ _ _ _ _ ?_
           with_reducible exact hs
         · with_reducible refine State.finish_keeps W _ _ _ _ _ ?_
           with_reducible refine State.hostEdited_keeps _ ?_
           with_reducible exact ha4)

theorem shadowDimmer_keeps (W : WritesLm Q) (d : Desc) (s : State) (hs : Mem Q s) : Mem Q (shadowDimmer d s) := by
  unfold shadowDimmer
  extract_lets -merge +onlyGivenNames a1 a2 a3 a4
  try clear_value a1
  try clear_value a2
  have ha3 : Mem Q a3 := by
    subst a3
    with_reducible refine keep_ite ?_ ?_
    · with_reducible refine State.putM_keeps _ _ ?_
      with_reducible exact hs
    · with_reducible exact hs
  try clear_value a3
  have ha4 : Mem Q a4 := by
    subst a4
    with_reducible refine keep_ite ?_ ?_
    · with_reducible refine State.putK_keeps _ _ ?_
      with_reducible exact ha3
    · with_reducible exact ha3
  try clear_value a4
  with_reducible refine keep_ite ?_ ?_
  · with_reducible refine State.finish_keeps W _ _ _ _ _ ?_
    with_reducible exact hs
  · with_reducible refine State.finish_keeps W _ _ _ _ _ ?_
    with_reducible refine State.hostEdited_keeps _ ?_
    with_reducible exact ha4

theorem onEdit_keeps (W : WritesLm Q) (d : Desc) (op : Nat) (f : State → State) (s : State) (hf : ∀ y0, Mem Q y0 → Mem Q (f y0)) (hs : Mem Q s) : Mem Q (onEdit d op f s) := by
  unfold onEdit
  with_reducible refine keep_ite ?_ ?_
  · with_reducible refine State.finish_keeps W _ _ _ _ _ ?_
    with_reducible exact hs
  · with_reducible refine keep_ite ?_ ?_
    · with_reducible exact hs
    · with_reducible refine hf _ ?_
      with_reducible exact hs

theorem shadowPattern_keeps (W : WritesLm Q) (d : Desc) (s : State) (hs : Mem Q s) : Mem Q (shadowPattern d s) := by
  unfold shadowPattern
  extract_lets -merge +onlyGivenNames a1 a2 a3 a4 a5 a6
  try clear_value a1
  try clear_value a2
  try clear_value a3
  have ha4 : Mem Q a4 := by
    subst a4
    refine keep_foldl ?_ ?_
    · with_reducible exact hs
    · intro x1 x2 h1
      with_reducible refine keep_ite ?_ ?_
      · with_reducible refine State.putParam_keeps _ _ _ _ ?_
        with_reducible exact h1
      · with_reducible exact h1
  try clear_value a4
  try clear_value a5
  have ha6 : Mem Q a6 := by
    subst a6
    with_reducible refine State.setShadowBank_keeps _ _ ?_
    with_reducible exact hs
  try clear_value a6
  with_reducible refine keep_ite ?_ ?_
  · with_reducible refine keep_ite ?_ ?_
    · with_reducible refine State.finish_keeps W _ _ _ _ _ ?_
      with_reducible refine State.hostEdited_keeps _ ?_
      with_reducible refine State.touch_keeps _ _ _ _ ?_
      with_reducible exact ha4
    · with_reducible refine State.finish_keeps W _ _ _ _ _ ?_
      with_reducible exact hs
  · with_reducible refine keep_ite ?_ ?_
    · with_reducible refine keep_ite ?_ ?_
      · with_reducible refine State.finish_keeps W _ _ _ _ _ ?_
        with_reducible refine State.hostEdited_keeps _ ?_
        with_reducible refine State.touch_keeps _ _ _ _ ?_
        with_reducible exact ha6
      · with_reducible refine State.finish_keeps W _ _ _ _ _ ?_
        with_reducible exact hs
    · with_reducible refine State.finish_keeps W _ _ _ _ _ ?_
      with_reducible exact hs

theorem execShadowGlade_keeps (W : WritesLm Q) (d : Desc) (s : State) (hs : Mem Q s) : OutMem Q (execShadowGlade d s) := by
  unfold execShadowGlade
  with_reducible refine onOp_keeps W _ _ _ _ _ ?_ ?_
  · with_reducible exact hs
  · intro x1 h1
    with_reducible refine onEdit_keeps W _ _ _ _ ?_ ?_
    · intro x2 h2
      with_reducible refine shadowGlade_keeps W _ _ ?_
      with_reducible exact h2
    · with_reducible exact h1

theorem shadowStand_keeps (W : WritesLm Q) (d : Desc) (s : State) (hs : Mem Q s) : Mem Q (shadowStand d s) := by
  unfold shadowStand
  extract_lets -merge +onlyGivenNames a1 a2 a3
  try clear_value a1
  try clear_value a2
  have ha3 : Mem Q a3 := by
    subst a3
    with_reducible refine State.touch_keeps _ _ _ _ ?_
    with_reducible refine State.setShadowBank_keeps _ _ ?_
    with_reducible exact hs
  try clear_value a3
  with_reducible refine keep_ite ?_ ?_
  · with_reducible refine State.finish_keeps W _ _ _ _ _ ?_
    with_reducible exact hs
  · with_reducible refine State.finish_keeps W _ _ _ _ _ ?_
    with_reducible refine State.afterRebuild_keeps _ _ ?_
    with_reducible exact ha3

theorem shadowLayer_keeps (W : WritesLm Q) (d : Desc) (s : State) (hs : Mem Q s) : Mem Q (shadowLayer d s) := by
  unfold shadowLayer
  extract_lets -merge +onlyGivenNames a1 a2 a3 a4
  try clear_value a1
  try clear_value a2
  try clear_value a3
  try clear_value a4
  with_reducible refine keep_ite ?_ ?_
  · with_reducible refine keep_ite ?_ ?_
    · with_reducible refine State.finish_keeps W _ _ _ _ _ ?_
      with_reducible refine State.writeLayers_keeps _ _ _ ?_
      with_reducible exact hs
    · with_reducible refine State.finish_keeps W _ _ _ _ _ ?_
      with_reducible exact hs
  · with_reducible refine keep_ite ?_ ?_
    · with_reducible refine keep_ite ?_ ?_
      · with_reducible refine State.finish_keeps W _ _ _ _ _ ?_
        with_reducible refine State.writeLayers_keeps _ _ _ ?_
        with_reducible exact hs
      · with_reducible refine State.finish_keeps W _ _ _ _ _ ?_
        with_reducible exact hs
    · with_reducible refine keep_ite ?_ ?_
      · with_reducible refine keep_ite ?_ ?_
        · with_reducible refine State.finish_keeps W _ _ _ _ _ ?_
          with_reducible refine State.writeLayers_keeps _ _ _ ?_
          with_reducible exact hs
        · with_reducible refine State.finish_keeps W _ _ _ _ _ ?_
          with_reducible exact hs
      · with_reducible refine keep_ite ?_ ?_
        · with_reducible refine keep_ite ?_ ?_
          · with_reducible refine State.finish_keeps W _ _ _ _ _ ?_
            with_reducible refine State.writeLayers_keeps _ _ _ ?_
            with_reducible exact hs
          · with_reducible refine State.finish_keeps W _ _ _ _ _ ?_
            with_reducible exact hs
        · with_reducible refine keep_ite ?_ ?_
          · with_reducible refine keep_ite ?_ ?_
            · with_reducible refine State.finish_keeps W _ _ _ _ _ ?_
              with_reducible exact hs
            · with_reducible refine keep_ite ?_ ?_
              · with_reducible refine State.finish_keeps W _ _ _ _ _ ?_
                with_reducible exact hs
              · with_reducible refine State.readsLm_keeps W _ _ _ _ _ _ ?_ ?_
                · with_reducible exact hs
                · with_reducible refine keep_ite ?_ ?_
                  · with_reducible refine State.finish_keeps W _ _ _ _ _ ?_
                    with_reducible refine State.writeLayers_keeps _ _ _ ?_
                    with_reducible exact hs
                  · with_reducible refine State.finish_keeps W _ _ _ _ _ ?_
                    with_reducible exact hs
          · with_reducible refine keep_ite ?_ ?_
            · with_reducible refine keep_ite ?_ ?_
              · with_reducible refine State.finish_keeps W _ _ _ _ _ ?_
                with_reducible exact hs
              · with_reducible refine keep_ite ?_ ?_
                · with_reducible refine State.finish_keeps W _ _ _ _ _ ?_
                  with_reducible exact hs
                · with_reducible refine State.readsLm_keeps W _ _ _ _ _ _ ?_ ?_
                  · with_reducible exact hs
                  · with_reducible refine keep_ite ?_ ?_
                    · with_reducible refine State.finish_keeps W _ _ _ _ _ ?_
                      with_reducible refine State.writeLayers_keeps _ _ _ ?_
                      with_reducible exact hs
                    · with_reducible refine State.finish_keeps W _ _ _ _ _ ?_
                      with_reducible exact hs
            · with_reducible refine State.finish_keeps W _ _ _ _ _ ?_
              with_reducible exact hs

theorem shadowOverlays_keeps (W : WritesLm Q) (d : Desc) (s : State) (hs : Mem Q s) : Mem Q (shadowOverlays d s) := by
  unfold shadowOverlays
  extract_lets -merge +onlyGivenNames a1 a2 a3 a4
  try clear_value a1
  try clear_value a2
  try clear_value a3
  have ha4 : Mem Q a4 := by
    subst a4
    with_reducible refine State.touch_keeps _ _ _ _ ?_
    with_reducible refine State.setShadowBank_keeps _ _ ?_
    with_reducible exact hs
  try clear_value a4
  with_reducible refine keep_ite ?_ ?_
  · with_reducible refine State.finish_keeps W _ _ _ _ _ ?_
    with_reducible exact hs
  · with_reducible refine State.finish_keeps W _ _ _ _ _ ?_
    with_reducible refine State.afterRebuild_keeps _ _ ?_
    with_reducible exact ha4

theorem execShadowPattern_keeps (W : WritesLm Q) (d : Desc) (s : State) (hs : Mem Q s) : OutMem Q (execShadowPattern d s) := by
  unfold execShadowPattern
  with_reducible refine onOp_keeps W _ _ _ _ _ ?_ ?_
  · with_reducible exact hs
  · intro x1 h1
    with_reducible refine onEdit_keeps W _ _ _ _ ?_ ?_
    · intro x2 h2
      with_reducible refine shadowPattern_keeps W _ _ ?_
      with_reducible exact h2
    · with_reducible exact h1

theorem shadowBuffer_keeps (W : WritesLm Q) (d : Desc) (s : State) (hs : Mem Q s) : Mem Q (shadowBuffer d s) := by
  unfold shadowBuffer
  extract_lets -merge +onlyGivenNames a1 a2 a3 a4 a5 a6 a7 a8 a9 a10 a11 a12 a13 a14 a15 a16
  try clear_value a1
  try clear_value a2
  try clear_value a3
  try clear_value a4
  try clear_value a5
  try clear_value a6
  have ha7 : Mem Q a7 := by
    subst a7
    with_reducible refine State.putBuf_keeps _ _ _ ?_
    with_reducible exact hs
  try clear_value a7
  try clear_value a8
  try clear_value a9
  try clear_value a10
  try clear_value a11
  try clear_value a12
  try clear_value a13
  try clear_value a14
  have ha15 : Mem Q a15 := by
    subst a15
    with_reducible refine State.setShadowBank_keeps _ _ ?_
    with_reducible exact hs
  try clear_value a15
  have ha16 : Mem Q a16 := by
    subst a16
    with_reducible refine keep_ite ?_ ?_
    · with_reducible refine State.untouch_keeps _ _ _ ?_
      with_reducible exact ha15
    · with_reducible exact ha15
  try clear_value a16
  with_reducible refine keep_ite ?_ ?_
  · with_reducible refine keep_ite ?_ ?_
    · with_reducible refine State.finish_keeps W _ _ _ _ _ ?_
      with_reducible exact hs
    · with_reducible refine keep_ite ?_ ?_
      · with_reducible refine keep_ite ?_ ?_
        · with_reducible refine State.finish_keeps W _ _ _ _ _ ?_
          with_reducible exact hs
        · with_reducible refine keep_ite ?_ ?_
          · with_reducible refine State.finish_keeps W _ _ _ _ _ ?_
            with_reducible exact hs
          · with_reducible refine State.finish_keeps W _ _ _ _ _ ?_
            with_reducible refine State.putBuf_keeps _ _ _ ?_
            with_reducible exact hs
      · with_reducible refine keep_ite ?_ ?_
        · with_reducible refine State.finish_keeps W _ _ _ _ _ ?_
          with_reducible exact hs
        · with_reducible refine keep_ite ?_ ?_
          · with_reducible refine State.finish_keeps W _ _ _ _ _ ?_
            with_reducible exact hs
          · with_reducible refine keep_ite ?_ ?_
            · with_reducible refine State.finish_keeps W _ _ _ _ _ ?_
              with_reducible exact hs
            · with_reducible refine State.finish_keeps W _ _ _ _ _ ?_
              unfold Mem; dsimp only; refine mem_in ?_
              with_reducible exact ha7
  · with_reducible refine keep_ite ?_ ?_
    · with_reducible refine keep_ite ?_ ?_
      · with_reducible refine State.finish_keeps W _ _ _ _ _ ?_
        with_reducible exact hs
      · with_reducible refine keep_ite ?_ ?_
        · with_reducible refine State.finish_keeps W _ _ _ _ _ ?_
          with_reducible exact hs
        · with_reducible refine keep_ite ?_ ?_
          · with_reducible refine State.finish_keeps W _ _ _ _ _ ?_
            with_reducible refine State.putBuf_keeps _ _ _ ?_
            with_reducible exact hs
          · with_reducible refine State.finish_keeps W _ _ _ _ _ ?_
            with_reducible refine State.hostEdited_keeps _ ?_
            with_reducible refine State.touch_keeps _ _ _ _ ?_
            with_reducible exact ha16
    · with_reducible refine State.finish_keeps W _ _ _ _ _ ?_
      with_reducible exact hs

theorem execShadowOverlays_keeps (W : WritesLm Q) (d : Desc) (s : State) (hs : Mem Q s) : OutMem Q (execShadowOverlays d s) := by
  unfold execShadowOverlays
  with_reducible refine onOp_keeps W _ _ _ _ _ ?_ ?_
  · with_reducible exact hs
  · intro x1 h1
    with_reducible refine onEdit_keeps W _ _ _ _ ?_ ?_
    · intro x2 h2
      with_reducible refine shadowOverlays_keeps W _ _ ?_
      with_reducible exact h2
    · with_reducible exact h1

theorem execShadowLayer_keeps (W : WritesLm Q) (d : Desc) (s : State) (hs : Mem Q s) : OutMem Q (execShadowLayer d s) := by
  unfold execShadowLayer
  with_reducible refine onOp_keeps W _ _ _ _ _ ?_ ?_
  · with_reducible exact hs
  · intro x1 h1
    with_reducible refine onEdit_keeps W _ _ _ _ ?_ ?_
    · intro x2 h2
      with_reducible refine shadowLayer_keeps W _ _ ?_
      with_reducible exact h2
    · with_reducible exact h1

theorem execShadowRevert_keeps (W : WritesLm Q) (d : Desc) (s : State) (hs : Mem Q s) : OutMem Q (execShadowRevert d s) := by
  unfold execShadowRevert
  with_reducible refine onOp_keeps W _ _ _ _ _ ?_ ?_
  · with_reducible exact hs
  · intro x1 h1
    with_reducible refine onEdit_keeps W _ _ _ _ ?_ ?_
    · intro x2 h2
      with_reducible refine shadowRevert_keeps W _ _ ?_
      with_reducible exact h2
    · with_reducible exact h1

theorem execShadowStand_keeps (W : WritesLm Q) (d : Desc) (s : State) (hs : Mem Q s) : OutMem Q (execShadowStand d s) := by
  unfold execShadowStand
  with_reducible refine onOp_keeps W _ _ _ _ _ ?_ ?_
  · with_reducible exact hs
  · intro x1 h1
    with_reducible refine onEdit_keeps W _ _ _ _ ?_ ?_
    · intro x2 h2
      with_reducible refine shadowStand_keeps W _ _ ?_
      with_reducible exact h2
    · with_reducible exact h1

theorem execShadowDimmer_keeps (W : WritesLm Q) (d : Desc) (s : State) (hs : Mem Q s) : OutMem Q (execShadowDimmer d s) := by
  unfold execShadowDimmer
  with_reducible refine onOp_keeps W _ _ _ _ _ ?_ ?_
  · with_reducible exact hs
  · intro x1 h1
    with_reducible refine onEdit_keeps W _ _ _ _ ?_ ?_
    · intro x2 h2
      with_reducible refine shadowDimmer_keeps W _ _ ?_
      with_reducible exact h2
    · with_reducible exact h1

theorem execShadowTables_keeps (W : WritesLm Q) (d : Desc) (s : State) (hs : Mem Q s) : OutMem Q (execShadowTables d s) := by
  unfold execShadowTables
  with_reducible refine onOp_keeps W _ _ _ _ _ ?_ ?_
  · with_reducible exact hs
  · intro x1 h1
    with_reducible refine onEdit_keeps W _ _ _ _ ?_ ?_
    · intro x2 h2
      with_reducible refine shadowTables_keeps W _ _ ?_
      with_reducible exact h2
    · with_reducible exact h1

theorem execShadowBuffer_keeps (W : WritesLm Q) (d : Desc) (s : State) (hs : Mem Q s) : OutMem Q (execShadowBuffer d s) := by
  unfold execShadowBuffer
  with_reducible refine onOp_keeps W _ _ _ _ _ ?_ ?_
  · with_reducible exact hs
  · intro x1 h1
    with_reducible refine onEdit_keeps W _ _ _ _ ?_ ?_
    · intro x2 h2
      with_reducible refine shadowBuffer_keeps W _ _ ?_
      with_reducible exact h2
    · with_reducible exact h1

theorem State.showInterest_keeps (s : State) (hs : Mem Q s) : Mem Q (State.showInterest s) := by
  unfold State.showInterest
  extract_lets a1 a2 a3
  refine keep_foldl (State.wr_keeps _ _ _ hs) ?_
  intro x i hx
  have put : ∀ (s : State) (e : Nat) (v : Option Interest), Mem Q s → Mem Q (a3 s e v) := by
    intro s e v h
    exact keep_foldl h (fun s w h => State.wr_keeps _ _ _ h)
  exact put _ _ _ (put _ _ _ hx)

theorem geometryCheck_keeps (W : WritesLm Q) (d : Desc) (s : State) (hs : Mem Q s) : Mem Q (geometryCheck d s) := by
  unfold geometryCheck
  extract_lets -merge +onlyGivenNames a1 a2 a3
  try clear_value a1
  try clear_value a2
  try clear_value a3
  with_reducible refine keep_ite ?_ ?_
  · with_reducible refine State.finish_keeps W _ _ _ _ _ ?_
    with_reducible exact hs
  · with_reducible refine keep_ite ?_ ?_
    · with_reducible refine State.finish_keeps W _ _ _ _ _ ?_
      with_reducible exact hs
    · split <;> first
        | (with_reducible refine State.readsLm_keeps W _ _ _ _ _ _ ?_ ?_
           · with_reducible exact hs
           · with_reducible refine State.finish_keeps W _ _ _ _ _ ?_
             with_reducible exact hs)
        | (extract_lets -merge +onlyGivenNames a4 a5
           try clear_value a4
           try clear_value a5
           with_reducible refine State.readsLm_keeps W _ _ _ _ _ _ ?_ ?_
           · with_reducible exact hs
           · with_reducible refine State.finish_keeps W _ _ _ _ _ ?_
             with_reducible exact hs)

theorem execGeometryCheck_keeps (W : WritesLm Q) (d : Desc) (s : State) (hs : Mem Q s) : OutMem Q (execGeometryCheck d s) := by
  unfold execGeometryCheck
  with_reducible refine onOp_keeps W _ _ _ _ _ ?_ ?_
  · with_reducible exact hs
  · intro x1 h1
    with_reducible refine geometryCheck_keeps W _ _ ?_
    with_reducible exact h1

theorem State.takeExcl_keeps (s : State) (hs : Mem Q s) : Mem Q (State.takeExcl s) := by
  unfold State.takeExcl
  extract_lets -merge +onlyGivenNames a1 a2
  try clear_value a1
  try clear_value a2
  unfold Mem; dsimp only; refine mem_in ?_
  with_reducible exact hs

theorem State.setCommit_keeps (s : State) (c : Commit) (hs : Mem Q s) : Mem Q (State.setCommit s c) := by
  unfold State.setCommit
  extract_lets -merge +onlyGivenNames a1
  try clear_value a1
  unfold Mem; dsimp only; refine mem_in ?_
  with_reducible exact hs

theorem State.replyCommit_keeps (s : State) (id : BitVec 16) (why : Nat) (hs : Mem Q s) : Mem Q (State.replyCommit s id why) := by
  unfold State.replyCommit
  extract_lets -merge +onlyGivenNames a1
  try clear_value a1
  unfold Mem; dsimp only; refine mem_in ?_
  with_reducible exact hs

theorem State.freeLines_keeps (s : State) (hs : Mem Q s) : Mem Q (State.freeLines s) := by
  unfold State.freeLines
  extract_lets -merge +onlyGivenNames a1 a2 a3
  try clear_value a1
  try clear_value a2
  try clear_value a3
  unfold Mem; dsimp only; refine mem_in ?_
  with_reducible exact hs

theorem State.finishRetire_keeps (s : State) (hs : Mem Q s) : Mem Q (State.finishRetire s) := by
  unfold State.finishRetire
  extract_lets -merge +onlyGivenNames a1 a2 a3 a4
  try clear_value a1
  try clear_value a2
  have ha3 : Mem Q a3 := by
    subst a3
    with_reducible refine State.freeLines_keeps _ ?_
    unfold Mem; dsimp only; refine mem_in ?_
    with_reducible exact hs
  try clear_value a3
  have ha4 : Mem Q a4 := by
    subst a4
    with_reducible refine State.wr_keeps _ _ _ ?_
    with_reducible refine State.wr_keeps _ _ _ ?_
    with_reducible exact ha3
  try clear_value a4
  with_reducible refine State.showShadow_keeps _ ?_
  with_reducible exact ha4

theorem State.applyRws_keeps (s : State) (b : Bank) (hs : Mem Q s) : Mem Q (State.applyRws s b) := by
  unfold State.applyRws
  refine keep_foldl ?_ ?_
  · with_reducible exact hs
  · intro x1 x2 h1
    split <;> first
      | (with_reducible refine State.wr_keeps _ _ _ ?_
         with_reducible exact h1)
      | (with_reducible exact h1)

theorem State.writeNaks_keeps (W : WritesLm Q) (s : State) (c : Commit) (naks : List (Nat × Nat)) (hs : Mem Q s) : Mem Q (State.writeNaks s c naks).2 := by
  unfold State.writeNaks
  extract_lets -merge +onlyGivenNames a1
  try clear_value a1
  with_reducible refine keep_ite2 ?_ ?_
  · with_reducible refine mem_snd ?_
    with_reducible exact hs
  · with_reducible refine keep_ite2 ?_ ?_
    · with_reducible refine mem_snd ?_
      with_reducible exact hs
    · with_reducible refine mem_snd ?_
      with_reducible refine State.returnTo_keeps W _ _ _ _ ?_
      with_reducible exact hs

theorem State.prepareSent_keeps (s : State) (hs : Mem Q s) : Mem Q (State.prepareSent s) := by
  unfold State.prepareSent
  split <;> first
    | (with_reducible refine keep_ite ?_ ?_
       · with_reducible refine State.setCommit_keeps _ _ ?_
         with_reducible exact hs
       · with_reducible exact hs)
    | (with_reducible exact hs)

theorem State.showActive_keeps (s : State) (hs : Mem Q s) : Mem Q (State.showActive s) := by
  unfold State.showActive
  extract_lets -merge +onlyGivenNames a1 a2 a3 a4 a5
  try clear_value a1
  have ha2 : Mem Q a2 := by
    subst a2
    split <;>
      (with_reducible refine State.wr_keeps _ _ _ ?_
       with_reducible refine State.wr_keeps _ _ _ ?_
       with_reducible exact hs)
  try clear_value a2
  have ha3 : Mem Q a3 := by
    subst a3
    with_reducible refine State.pairWr_keeps _ _ _ _ ?_
    with_reducible exact ha2
  try clear_value a3
  have ha4 : Mem Q a4 := by
    subst a4
    with_reducible refine State.wr_keeps _ _ _ ?_
    with_reducible refine State.wr_keeps _ _ _ ?_
    with_reducible exact ha3
  try clear_value a4
  have ha5 : Mem Q a5 := by
    subst a5
    with_reducible refine State.pairWr_keeps _ _ _ _ ?_
    with_reducible refine State.pairWr_keeps _ _ _ _ ?_
    with_reducible exact ha4
  try clear_value a5
  with_reducible refine keep_ite ?_ ?_
  · with_reducible refine State.showInterest_keeps _ ?_
    with_reducible refine State.pairWr_keeps _ _ _ _ ?_
    with_reducible refine State.pairWr_keeps _ _ _ _ ?_
    with_reducible exact ha5
  · with_reducible exact ha3

theorem State.settlePrepare_keeps (s : State) (hs : Mem Q s) : Mem Q (State.settlePrepare s) := by
  unfold State.settlePrepare
  split <;> first
    | (with_reducible refine keep_ite ?_ ?_
       · with_reducible refine State.prepareSent_keeps _ ?_
         with_reducible exact hs
       · with_reducible exact hs)
    | (with_reducible exact hs)

theorem State.retireIfDone_keeps (s : State) (hs : Mem Q s) : Mem Q (State.retireIfDone s) := by
  unfold State.retireIfDone
  with_reducible refine keep_ite ?_ ?_
  · with_reducible refine State.finishRetire_keeps _ ?_
    with_reducible exact hs
  · with_reducible exact hs

theorem State.unstage_keeps (s : State) (hs : Mem Q s) : Mem Q (State.unstage s) := by
  unfold State.unstage
  extract_lets -merge +onlyGivenNames a1 a2
  try clear_value a1
  have ha2 : Mem Q a2 := by
    subst a2
    unfold Mem; dsimp only; refine mem_in ?_
    with_reducible exact hs
  try clear_value a2
  with_reducible refine State.showInterest_keeps _ ?_
  with_reducible refine State.wr_keeps _ _ _ ?_
  with_reducible exact ha2

theorem State.applyBank_keeps (s : State) (b : Bank) (id : Nat) (n : Word) (hs : Mem Q s) : Mem Q (State.applyBank s b id n) := by
  unfold State.applyBank
  extract_lets -merge +onlyGivenNames a1 a2 a3 a4 a5 a6 a7 a8 a9 a10 a11 a12 a13 a14
  try clear_value a1
  try clear_value a2
  have ha3 : Mem Q a3 := by
    subst a3
    with_reducible refine State.applyRws_keeps _ _ ?_
    with_reducible exact hs
  try clear_value a3
  try clear_value a4
  try clear_value a5
  try clear_value a6
  try clear_value a7
  try clear_value a8
  try clear_value a9
  have ha10 : Mem Q a10 := by
    subst a10
    unfold Mem; dsimp only; refine mem_in ?_
    with_reducible exact ha3
  try clear_value a10
  have ha11 : Mem Q a11 := by
    subst a11
    with_reducible refine State.wr_keeps _ _ _ ?_
    with_reducible refine State.wr_keeps _ _ _ ?_
    with_reducible exact ha10
  try clear_value a11
  try clear_value a12
  have ha13 : Mem Q a13 := by
    subst a13
    unfold Mem; dsimp only; refine mem_in ?_
    with_reducible exact ha11
  try clear_value a13
  have ha14 : Mem Q a14 := by
    subst a14
    with_reducible refine keep_ite ?_ ?_
    · with_reducible refine State.wr_keeps _ _ _ ?_
      with_reducible refine State.wr_keeps _ _ _ ?_
      with_reducible exact ha13
    · with_reducible refine State.finishRetire_keeps _ ?_
      with_reducible exact ha11
  try clear_value a14
  with_reducible refine State.showActive_keeps _ ?_
  with_reducible exact ha14

theorem execBankRetire_keeps (s : State) (hs : Mem Q s) : OutMem Q (execBankRetire s) := by
  unfold execBankRetire
  with_reducible refine onRun_keeps _ _ ?_ ?_
  · with_reducible exact hs
  · intro x1 h1
    with_reducible refine State.retireIfDone_keeps _ ?_
    with_reducible exact h1

theorem commitValidate_keeps (s : State) (hs : Mem Q s) : Mem Q (commitValidate s) := by
  unfold commitValidate
  extract_lets -merge +onlyGivenNames a1 a2 a3
  have ha1 : Mem Q a1 := by
    subst a1
    with_reducible refine keep_ite ?_ ?_
    · with_reducible refine State.unstage_keeps _ ?_
      with_reducible exact hs
    · with_reducible exact hs
  try clear_value a1
  try clear_value a2
  have ha3 : Mem Q a3 := by
    subst a3
    unfold Mem; dsimp only; refine mem_in ?_
    with_reducible exact ha1
  try clear_value a3
  split <;> first
    | (with_reducible exact hs)
    | (extract_lets -merge +onlyGivenNames a4 a5 a6 a7 a8 a9 a10
       try clear_value a4
       try clear_value a5
       try clear_value a6
       have ha7 : Mem Q a7 := by
         subst a7
         with_reducible refine State.detectIf_keeps _ _ _ ?_
         with_reducible exact ha3
       try clear_value a7
       have ha8 : Mem Q a8 := by
         subst a8
         with_reducible refine keep_ite ?_ ?_
         · with_reducible refine State.lmUncorr_keeps _ ?_
           with_reducible exact ha7
         · with_reducible exact ha7
       try clear_value a8
       try clear_value a9
       have ha10 : Mem Q a10 := by
         subst a10
         unfold Mem; dsimp only; refine mem_in ?_
         with_reducible exact ha8
       try clear_value a10
       with_reducible refine keep_ite ?_ ?_
       · with_reducible exact hs
       · with_reducible refine keep_ite ?_ ?_
         · with_reducible refine State.replyCommit_keeps _ _ _ ?_
           with_reducible exact ha3
         · with_reducible refine keep_ite ?_ ?_
           · with_reducible refine State.replyCommit_keeps _ _ _ ?_
             with_reducible exact ha8
           · with_reducible refine State.replyCommit_keeps _ _ _ ?_
             with_reducible refine State.showInterest_keeps _ ?_
             with_reducible refine State.wr_keeps _ _ _ ?_
             with_reducible exact ha10)

theorem execCommitValidate_keeps (s : State) (hs : Mem Q s) : OutMem Q (execCommitValidate s) := by
  unfold execCommitValidate
  with_reducible refine onRun_keeps _ _ ?_ ?_
  · with_reducible exact hs
  · intro x1 h1
    with_reducible refine commitValidate_keeps _ ?_
    with_reducible exact h1

theorem State.endCommit_keeps (W : WritesLm Q) (s : State) (c : Commit) (status : Nat) (frame : Word) (naks : List (Nat × Nat)) (hs : Mem Q s) : Mem Q (State.endCommit s c status frame naks) := by
  unfold State.endCommit
  extract_lets -merge +onlyGivenNames a1 a2 a3 a4 a5
  have ha1 : Mem Q a1.2 := by
    subst a1
    with_reducible refine State.writeNaks_keeps W _ _ _ ?_
    with_reducible exact hs
  try clear_value a1
  have ha2 : Mem Q a2 := by
    subst a2
    with_reducible exact ha1
  try clear_value a2
  try clear_value a3
  have ha4 : Mem Q a4 := by
    subst a4
    unfold Mem; dsimp only; refine mem_in ?_
    with_reducible exact ha2
  try clear_value a4
  try clear_value a5
  split <;> first
    | (with_reducible exact ha4)
    | (extract_lets -merge +onlyGivenNames a6
       try clear_value a6
       with_reducible refine keep_ite ?_ ?_
       · unfold Mem; dsimp only; refine mem_in ?_
         with_reducible exact ha4
       · with_reducible exact ha4)
    | (with_reducible refine State.finishAs_keeps W _ _ _ _ _ _ _ ?_
       with_reducible exact ha4)

theorem State.commitApplied_keeps (W : WritesLm Q) (s : State) (c : Commit) (b : Bank) (id : Nat) (n : Word) (hs : Mem Q s) : Mem Q (State.commitApplied s c b id n) := by
  unfold State.commitApplied
  extract_lets -merge +onlyGivenNames a1 a2 a3
  have ha1 : Mem Q a1 := by
    subst a1
    with_reducible refine State.applyBank_keeps _ _ _ _ ?_
    with_reducible exact hs
  try clear_value a1
  try clear_value a2
  have ha3 : Mem Q a3 := by
    subst a3
    unfold Mem; dsimp only; refine mem_in ?_
    with_reducible exact ha1
  try clear_value a3
  with_reducible refine State.endCommit_keeps W _ _ _ _ _ ?_
  with_reducible exact ha3

theorem State.commitsAt_keeps (W : WritesLm Q) (s : State) (n : Word) (hs : Mem Q s) : Mem Q (State.commitsAt s n) := by
  unfold State.commitsAt
  extract_lets -merge +onlyGivenNames a1 a2 a3
  have ha1 : Mem Q a1 := by
    subst a1
    split <;> first
      | (with_reducible refine keep_ite ?_ ?_
         · with_reducible refine State.commitApplied_keeps W _ _ _ _ _ ?_
           with_reducible exact hs
         · with_reducible refine keep_ite ?_ ?_
           · with_reducible refine State.commitApplied_keeps W _ _ _ _ _ ?_
             with_reducible exact hs
           · with_reducible exact hs)
      | (with_reducible exact hs)
  try clear_value a1
  have ha2 : Mem Q a2 := by
    subst a2
    split <;> first
      | (split <;> first
           | (with_reducible refine keep_ite ?_ ?_
              · with_reducible refine State.applyBank_keeps _ _ _ _ ?_
                with_reducible exact ha1
              · with_reducible exact ha1)
           | (with_reducible exact ha1))
      | (with_reducible exact ha1)
  try clear_value a2
  try clear_value a3
  with_reducible refine keep_ite ?_ ?_
  · unfold Mem; dsimp only; refine mem_in ?_
    with_reducible exact ha2
  · with_reducible exact ha2

theorem commitPrepare_keeps (W : WritesLm Q) (s : State) (hs : Mem Q s) : Mem Q (commitPrepare s) := by
  unfold commitPrepare
  extract_lets -merge +onlyGivenNames a1 a2 a3 a4 a5
  try clear_value a1
  try clear_value a2
  try clear_value a3
  try clear_value a4
  try clear_value a5
  split <;> first
    | (with_reducible exact hs)
    | (extract_lets -merge +onlyGivenNames a6 a7 a8 a9 a10 a11 a12 a13
       try clear_value a6
       have ha7 : Mem Q a7 := by
         subst a7
         with_reducible refine State.setCommit_keeps _ _ ?_
         with_reducible exact hs
       try clear_value a7
       try clear_value a8
       have ha9 : Mem Q a9 := by
         subst a9
         unfold Mem; dsimp only; refine mem_in ?_
         with_reducible exact ha7
       try clear_value a9
       have ha10 : Mem Q a10 := by
         subst a10
         with_reducible refine State.wr_keeps _ _ _ ?_
         with_reducible exact ha9
       try clear_value a10
       try clear_value a11
       have ha12 : Mem Q a12 := by
         subst a12
         with_reducible refine keep_ite ?_ ?_
         · with_reducible refine State.broadcast_keeps _ _ _ _ ?_
           with_reducible exact ha10
         · with_reducible exact ha10
       try clear_value a12
       try clear_value a13
       with_reducible refine keep_ite ?_ ?_
       · with_reducible exact hs
       · with_reducible refine keep_ite ?_ ?_
         · with_reducible refine State.endCommit_keeps W _ _ _ _ _ ?_
           with_reducible exact hs
         · with_reducible refine keep_ite ?_ ?_
           · with_reducible refine State.broadcast_keeps _ _ _ _ ?_
             with_reducible exact ha12
           · with_reducible exact ha10)

theorem State.abortCommit_keeps (W : WritesLm Q) (s : State) (c : Commit) (status : Nat) (naks : List (Nat × Nat)) (hs : Mem Q s) : Mem Q (State.abortCommit s c status naks) := by
  unfold State.abortCommit
  extract_lets -merge +onlyGivenNames a1 a2 a3 a4
  try clear_value a1
  have ha2 : Mem Q a2 := by
    subst a2
    with_reducible refine State.broadcast_keeps _ _ _ _ ?_
    with_reducible exact hs
  try clear_value a2
  try clear_value a3
  have ha4 : Mem Q a4 := by
    subst a4
    unfold Mem; dsimp only; refine mem_in ?_
    with_reducible exact ha2
  try clear_value a4
  with_reducible refine State.endCommit_keeps W _ _ _ _ _ ?_
  with_reducible refine State.detect_keeps _ _ ?_
  with_reducible refine State.wr_keeps _ _ _ ?_
  with_reducible exact ha4

theorem localCommitDecide_keeps (W : WritesLm Q) (s : State) (hs : Mem Q s) : Mem Q (localCommitDecide s) := by
  unfold localCommitDecide
  extract_lets -merge +onlyGivenNames a1 a2 a3
  try clear_value a1
  have ha2 : Mem Q a2 := by
    subst a2
    with_reducible refine State.detectIf_keeps _ _ _ ?_
    with_reducible exact hs
  try clear_value a2
  have ha3 : Mem Q a3 := by
    subst a3
    with_reducible refine keep_ite ?_ ?_
    · with_reducible refine State.lmUncorr_keeps _ ?_
      with_reducible exact ha2
    · with_reducible exact ha2
  try clear_value a3
  split <;> first
    | (with_reducible exact hs)
    | (with_reducible refine keep_ite ?_ ?_
       · with_reducible exact hs
       · with_reducible refine keep_ite ?_ ?_
         · with_reducible refine State.endCommit_keeps W _ _ _ _ _ ?_
           with_reducible exact hs
         · with_reducible refine keep_ite ?_ ?_
           · with_reducible refine State.endCommit_keeps W _ _ _ _ _ ?_
             with_reducible exact ha3
           · with_reducible refine State.wr_keeps _ _ _ ?_
             with_reducible refine State.setCommit_keeps _ _ ?_
             with_reducible exact ha3)

theorem execCommitPrepare_keeps (W : WritesLm Q) (s : State) (hs : Mem Q s) : OutMem Q (execCommitPrepare s) := by
  unfold execCommitPrepare
  with_reducible refine onRun_keeps _ _ ?_ ?_
  · with_reducible exact hs
  · intro x1 h1
    with_reducible refine commitPrepare_keeps W _ ?_
    with_reducible exact h1

theorem commitStatus_keeps (W : WritesLm Q) (d : Desc) (s : State) (hs : Mem Q s) : Mem Q (commitStatus d s) := by
  unfold commitStatus
  with_reducible refine keep_ite ?_ ?_
  · with_reducible refine State.finish_keeps W _ _ _ _ _ ?_
    with_reducible exact hs
  · with_reducible refine State.finish_keeps W _ _ _ _ _ ?_
    with_reducible exact hs

theorem execCommitStatus_keeps (W : WritesLm Q) (d : Desc) (s : State) (hs : Mem Q s) : OutMem Q (execCommitStatus d s) := by
  unfold execCommitStatus
  with_reducible refine onOp_keeps W _ _ _ _ _ ?_ ?_
  · with_reducible exact hs
  · intro x1 h1
    with_reducible refine commitStatus_keeps W _ _ ?_
    with_reducible exact h1

theorem commit_keeps (W : WritesLm Q) (d : Desc) (s : State) (hs : Mem Q s) : Mem Q (commit d s) := by
  unfold commit
  extract_lets -merge +onlyGivenNames a1 a2 a3 a4 a5 a6
  try clear_value a1
  try clear_value a2
  try clear_value a3
  try clear_value a4
  have ha5 : Mem Q a5 := by
    subst a5
    with_reducible refine State.starts_keeps _ _ ?_
    with_reducible exact hs
  try clear_value a5
  try clear_value a6
  with_reducible refine keep_ite ?_ ?_
  · with_reducible refine State.finish_keeps W _ _ _ _ _ ?_
    with_reducible exact hs
  · with_reducible refine keep_ite ?_ ?_
    · with_reducible refine State.finish_keeps W _ _ _ _ _ ?_
      with_reducible exact hs
    · with_reducible refine keep_ite ?_ ?_
      · with_reducible refine State.finish_keeps W _ _ _ _ _ ?_
        with_reducible exact hs
      · with_reducible refine keep_ite ?_ ?_
        · with_reducible refine State.finish_keeps W _ _ _ _ _ ?_
          with_reducible exact hs
        · unfold Mem; dsimp only; refine mem_in ?_
          with_reducible exact ha5

theorem execCommit_keeps (W : WritesLm Q) (d : Desc) (s : State) (hs : Mem Q s) : OutMem Q (execCommit d s) := by
  unfold execCommit
  with_reducible refine onOp_keeps W _ _ _ _ _ ?_ ?_
  · with_reducible exact hs
  · intro x1 h1
    with_reducible refine commit_keeps W _ _ ?_
    with_reducible exact h1

theorem excludeSet_keeps (W : WritesLm Q) (d : Desc) (s : State) (hs : Mem Q s) : Mem Q (excludeSet d s) := by
  unfold excludeSet
  extract_lets -merge +onlyGivenNames a1 a2
  try clear_value a1
  try clear_value a2
  with_reducible refine keep_ite ?_ ?_
  · with_reducible refine State.finish_keeps W _ _ _ _ _ ?_
    with_reducible exact hs
  · with_reducible refine State.finish_keeps W _ _ _ _ _ ?_
    with_reducible refine State.wr_keeps _ _ _ ?_
    with_reducible exact hs

theorem commitCancel_keeps (W : WritesLm Q) (d : Desc) (s : State) (hs : Mem Q s) : Mem Q (commitCancel d s) := by
  unfold commitCancel
  with_reducible refine keep_ite ?_ ?_
  · with_reducible refine State.finish_keeps W _ _ _ _ _ ?_
    with_reducible exact hs
  · split <;> first
      | (with_reducible refine State.finish_keeps W _ _ _ _ _ ?_
         with_reducible exact hs)
      | (with_reducible refine keep_ite ?_ ?_
         · with_reducible refine State.finish_keeps W _ _ _ _ _ ?_
           with_reducible refine State.abortCommit_keeps W _ _ _ _ ?_
           with_reducible exact hs
         · with_reducible refine State.finish_keeps W _ _ _ _ _ ?_
           with_reducible exact hs)

theorem commitReply_keeps (W : WritesLm Q) (m : RetMsg) (s : State) (hs : Mem Q s) : Mem Q (commitReply m s) := by
  unfold commitReply
  extract_lets -merge +onlyGivenNames a1 a2
  try clear_value a1
  try clear_value a2
  split <;> first
    | (with_reducible exact hs)
    | (with_reducible refine keep_ite ?_ ?_
       · with_reducible exact hs
       · with_reducible refine keep_ite ?_ ?_
         · with_reducible refine State.setCommit_keeps _ _ ?_
           with_reducible exact hs
         · with_reducible refine keep_ite ?_ ?_
           · with_reducible exact hs
           · with_reducible refine keep_ite ?_ ?_
             · with_reducible refine State.setCommit_keeps _ _ ?_
               with_reducible exact hs
             · with_reducible refine State.abortCommit_keeps W _ _ _ _ ?_
               with_reducible exact hs)

theorem execLocalCommitDecide_keeps (W : WritesLm Q) (s : State) (hs : Mem Q s) : OutMem Q (execLocalCommitDecide s) := by
  unfold execLocalCommitDecide
  with_reducible refine onRun_keeps _ _ ?_ ?_
  · with_reducible exact hs
  · intro x1 h1
    with_reducible refine localCommitDecide_keeps W _ ?_
    with_reducible exact h1

theorem cutoff_keeps (W : WritesLm Q) (s : State) (hs : Mem Q s) : Mem Q (cutoff s) := by
  unfold cutoff
  split <;> first
    | (extract_lets -merge +onlyGivenNames a1 a2 a3 a4 a5 a6
       have ha1 : Mem Q a1 := by
         subst a1
         with_reducible refine State.settlePrepare_keeps _ ?_
         with_reducible refine State.takeExcl_keeps _ ?_
         with_reducible refine State.advanceTo_keeps _ _ ?_
         with_reducible exact hs
       try clear_value a1
       try clear_value a2
       try clear_value a3
       try clear_value a4
       have ha5 : Mem Q a5 := by
         subst a5
         with_reducible refine State.setCommit_keeps _ _ ?_
         with_reducible exact ha1
       try clear_value a5
       try clear_value a6
       with_reducible refine keep_ite ?_ ?_
       · with_reducible exact ha1
       · with_reducible refine keep_ite ?_ ?_
         · with_reducible refine keep_ite ?_ ?_
           · with_reducible exact ha1
           · unfold Mem; dsimp only; refine mem_in ?_
             with_reducible exact ha5
         · with_reducible refine keep_ite ?_ ?_
           · with_reducible exact ha1
           · with_reducible refine keep_ite ?_ ?_
             · with_reducible refine State.setCommit_keeps _ _ ?_
               with_reducible exact ha1
             · with_reducible refine State.abortCommit_keeps W _ _ _ _ ?_
               with_reducible exact ha1)
    | (with_reducible refine State.takeExcl_keeps _ ?_
       with_reducible refine State.advanceTo_keeps _ _ ?_
       with_reducible exact hs)
    | (with_reducible exact hs)

theorem execCommitCancel_keeps (W : WritesLm Q) (d : Desc) (s : State) (hs : Mem Q s) : OutMem Q (execCommitCancel d s) := by
  unfold execCommitCancel
  with_reducible refine onOp_keeps W _ _ _ _ _ ?_ ?_
  · with_reducible exact hs
  · intro x1 h1
    with_reducible refine commitCancel_keeps W _ _ ?_
    with_reducible exact h1

theorem execExcludeSet_keeps (W : WritesLm Q) (d : Desc) (s : State) (hs : Mem Q s) : OutMem Q (execExcludeSet d s) := by
  unfold execExcludeSet
  with_reducible refine onOp_keeps W _ _ _ _ _ ?_ ?_
  · with_reducible exact hs
  · intro x1 h1
    with_reducible refine excludeSet_keeps W _ _ ?_
    with_reducible exact h1

theorem execCommitReply_keeps (W : WritesLm Q) (m : RetMsg) (s : State) (hs : Mem Q s) : OutMem Q (execCommitReply m s) := by
  unfold execCommitReply
  with_reducible refine onRet_keeps _ _ _ _ ?_ ?_
  · intro x1 h1
    with_reducible refine commitReply_keeps W _ _ ?_
    with_reducible exact h1
  · with_reducible exact hs

theorem execCutoff_keeps (W : WritesLm Q) (s : State) (hs : Mem Q s) : OutMem Q (execCutoff s) := by
  unfold execCutoff
  with_reducible refine onRun_keeps _ _ ?_ ?_
  · with_reducible exact hs
  · intro x1 h1
    with_reducible refine cutoff_keeps W _ ?_
    with_reducible exact h1

end Sys2Proof.Machine
end

