-- ==== Sys2Proof/Laws/KeepsIngest.lean ====
section
/-! SUPPORT. The operations and meanings of Ptp, PtpRanger, Ingest keep any property of the stores and the straps that the writes they
make keep (see Laws/Memory.lean). -/

namespace Sys2Proof.Machine

variable {Q : Store → Store → StrapBalls → Prop}

theorem State.noteStep_keeps (s : State) (hs : Mem Q s) : Mem Q (State.noteStep s) := by
  unfold State.noteStep
  extract_lets -merge +onlyGivenNames a1
  try clear_value a1
  unfold Mem; dsimp only; refine mem_in ?_
  with_reducible exact hs

theorem State.setTimedQ_keeps (s : State) (p : Nat) (l : List TimedTx) (hs : Mem Q s) : Mem Q (State.setTimedQ s p l) := by
  unfold State.setTimedQ
  extract_lets -merge +onlyGivenNames a1 a2
  try clear_value a1
  try clear_value a2
  with_reducible refine keep_ite ?_ ?_
  · unfold Mem; dsimp only; refine mem_in ?_
    with_reducible exact hs
  · unfold Mem; dsimp only; refine mem_in ?_
    with_reducible exact hs

theorem timeNsRead_keeps (s : State) (hs : Mem Q s) : Mem Q (timeNsRead s) := by
  unfold timeNsRead
  with_reducible refine State.wr_keeps _ _ _ ?_
  with_reducible refine State.wr_keeps _ _ _ ?_
  with_reducible exact hs

theorem State.audioStep_keeps (s : State) (d : Int) (hs : Mem Q s) : Mem Q (State.audioStep s d) := by
  unfold State.audioStep
  extract_lets -merge +onlyGivenNames a1 a2
  try clear_value a1
  try clear_value a2
  with_reducible refine keep_ite ?_ ?_
  · with_reducible exact hs
  · with_reducible refine keep_ite ?_ ?_
    · unfold Mem; dsimp only; refine mem_in ?_
      with_reducible exact hs
    · unfold Mem; dsimp only; refine mem_in ?_
      with_reducible exact hs

theorem execTimeNsRead_keeps (s : State) (hs : Mem Q s) : OutMem Q (execTimeNsRead s) := by
  unfold execTimeNsRead
  with_reducible refine onLive_keeps _ _ ?_ ?_
  · with_reducible exact hs
  · intro x1 h1
    with_reducible refine timeNsRead_keeps _ ?_
    with_reducible exact h1

theorem State.setTs_keeps (s : State) (p : Nat) (l : List Bytes) (hs : Mem Q s) : Mem Q (State.setTs s p l) := by
  unfold State.setTs
  extract_lets -merge +onlyGivenNames a1 a2 a3 a4
  have ha1 : Mem Q a1 := by
    subst a1
    with_reducible refine State.wr_keeps _ _ _ ?_
    with_reducible exact hs
  try clear_value a1
  try clear_value a2
  have ha3 : Mem Q a3 := by
    subst a3
    with_reducible refine State.wr_keeps _ _ _ ?_
    with_reducible exact hs
  try clear_value a3
  try clear_value a4
  with_reducible refine keep_ite ?_ ?_
  · unfold Mem; dsimp only; refine mem_in ?_
    with_reducible exact ha1
  · unfold Mem; dsimp only; refine mem_in ?_
    with_reducible exact ha3

theorem State.stepCounter_keeps (s : State) (d : Int) (hs : Mem Q s) : Mem Q (State.stepCounter s d) := by
  unfold State.stepCounter
  extract_lets -merge +onlyGivenNames a1 a2
  have ha1 : Mem Q a1 := by
    subst a1
    with_reducible refine State.advance_keeps _ _ ?_
    with_reducible exact hs
  try clear_value a1
  have ha2 : Mem Q a2 := by
    subst a2
    unfold Mem; dsimp only; refine mem_in ?_
    with_reducible exact ha1
  try clear_value a2
  with_reducible refine State.detect_keeps _ _ ?_
  with_reducible refine State.audioStep_keeps _ _ ?_
  with_reducible refine State.noteStep_keeps _ ?_
  with_reducible exact ha2

theorem timeSet_keeps (s : State) (hs : Mem Q s) : Mem Q (timeSet s) := by
  unfold timeSet
  extract_lets -merge +onlyGivenNames a1
  have ha1 : Mem Q a1 := by
    subst a1
    with_reducible refine State.advance_keeps _ _ ?_
    with_reducible exact hs
  try clear_value a1
  with_reducible refine keep_ite ?_ ?_
  · with_reducible refine State.detect_keeps _ _ ?_
    with_reducible exact hs
  · with_reducible refine State.noteStep_keeps _ ?_
    unfold Mem; dsimp only; refine mem_in ?_
    with_reducible exact ha1

theorem State.addStamp_keeps (s : State) (p : Nat) (t : Int) (timed : Bool) (late : Bool) (id : Nat) (req : Nat) (hs : Mem Q s) : Mem Q (State.addStamp s p t timed late id req) := by
  unfold State.addStamp
  extract_lets -merge +onlyGivenNames a1
  try clear_value a1
  with_reducible refine keep_ite ?_ ?_
  · with_reducible refine State.detect_keeps _ _ ?_
    with_reducible refine State.inc_keeps _ _ ?_
    with_reducible exact hs
  · with_reducible refine State.setTs_keeps _ _ _ ?_
    with_reducible exact hs

theorem State.setRate_keeps (s : State) (i : Int) (y : Int) (hs : Mem Q s) : Mem Q (State.setRate s i y) := by
  unfold State.setRate
  extract_lets -merge +onlyGivenNames a1 a2
  have ha1 : Mem Q a1 := by
    subst a1
    with_reducible refine State.pairWr_keeps _ _ _ _ ?_
    with_reducible exact hs
  try clear_value a1
  try clear_value a2
  with_reducible refine State.detectIf_keeps _ _ _ ?_
  unfold Mem; dsimp only; refine mem_in ?_
  with_reducible exact ha1

theorem execTimeSet_keeps (s : State) (hs : Mem Q s) : OutMem Q (execTimeSet s) := by
  unfold execTimeSet
  with_reducible refine onLive_keeps _ _ ?_ ?_
  · with_reducible exact hs
  · intro x1 h1
    with_reducible refine timeSet_keeps _ ?_
    with_reducible exact h1

theorem State.sendFrame_keeps (s : State) (p : Nat) (d : Desc) (bytes : Bytes) (balls : Int) (late : Bool) (hs : Mem Q s) : Mem Q (State.sendFrame s p d bytes balls late) := by
  unfold State.sendFrame
  extract_lets -merge +onlyGivenNames a1 a2 a3 a4 a5
  try clear_value a1
  try clear_value a2
  try clear_value a3
  have ha4 : Mem Q a4 := by
    subst a4
    with_reducible refine State.emit_keeps _ _ ?_
    with_reducible exact hs
  try clear_value a4
  have ha5 : Mem Q a5 := by
    subst a5
    with_reducible refine keep_ite ?_ ?_
    · with_reducible refine State.detect_keeps _ _ ?_
      with_reducible refine State.inc_keeps _ _ ?_
      with_reducible exact ha4
    · with_reducible exact ha4
  try clear_value a5
  with_reducible refine keep_ite ?_ ?_
  · with_reducible refine State.addStamp_keeps _ _ _ _ _ _ _ ?_
    with_reducible exact ha5
  · with_reducible exact ha5

theorem State.servoUpdate_keeps (s : State) (th : Int) (hs : Mem Q s) : Mem Q (State.servoUpdate s th) := by
  unfold State.servoUpdate
  extract_lets -merge +onlyGivenNames a1 a2 a3 a4
  try clear_value a1
  try clear_value a2
  try clear_value a3
  try clear_value a4
  with_reducible refine State.setRate_keeps _ _ _ ?_
  with_reducible exact hs

theorem servoHoldover_keeps (s : State) (hs : Mem Q s) : Mem Q (servoHoldover s) := by
  unfold servoHoldover
  split <;> first
    | (with_reducible exact hs)
    | (extract_lets -merge +onlyGivenNames a1
       have ha1 : Mem Q a1 := by
         subst a1
         with_reducible refine State.advanceTo_keeps _ _ ?_
         with_reducible exact hs
       try clear_value a1
       with_reducible refine keep_ite ?_ ?_
       · with_reducible exact hs
       · with_reducible refine State.detect_keeps _ _ ?_
         with_reducible refine State.wr_keeps _ _ _ ?_
         with_reducible refine State.setRate_keeps _ _ _ ?_
         with_reducible exact ha1)

theorem execServoHoldover_keeps (s : State) (hs : Mem Q s) : OutMem Q (execServoHoldover s) := by
  unfold execServoHoldover
  with_reducible refine onLive_keeps _ _ ?_ ?_
  · with_reducible exact hs
  · intro x1 h1
    with_reducible refine servoHoldover_keeps _ ?_
    with_reducible exact h1

theorem State.acceptOffset_keeps (s : State) (ofs : Nat) (hs : Mem Q s) : Mem Q (State.acceptOffset s ofs) := by
  unfold State.acceptOffset
  extract_lets -merge +onlyGivenNames a1 a2 a3 a4 a5
  try clear_value a1
  have ha2 : Mem Q a2 := by
    subst a2
    with_reducible refine State.wr_keeps _ _ _ ?_
    with_reducible refine State.wr_keeps _ _ _ ?_
    with_reducible exact hs
  try clear_value a2
  try clear_value a3
  have ha4 : Mem Q a4 := by
    subst a4
    unfold Mem; dsimp only; refine mem_in ?_
    with_reducible exact ha2
  try clear_value a4
  try clear_value a5
  with_reducible refine keep_ite ?_ ?_
  · with_reducible refine State.servoUpdate_keeps _ _ ?_
    with_reducible exact ha4
  · with_reducible refine keep_ite ?_ ?_
    · with_reducible refine State.stepCounter_keeps _ _ ?_
      with_reducible exact ha4
    · with_reducible refine State.servoUpdate_keeps _ _ ?_
      with_reducible refine State.detect_keeps _ _ ?_
      with_reducible exact ha4

theorem tsFetch_keeps (W : WritesLm Q) (d : Desc) (ok : Bool) (s : State) (hs : Mem Q s) : Mem Q (tsFetch d ok s) := by
  unfold tsFetch
  extract_lets -merge +onlyGivenNames a1 a2 a3 a4 a5
  try clear_value a1
  try clear_value a2
  try clear_value a3
  try clear_value a4
  have ha5 : Mem Q a5 := by
    subst a5
    with_reducible refine keep_ite ?_ ?_
    · with_reducible exact hs
    · with_reducible refine State.emit_keeps _ _ ?_
      with_reducible exact hs
  try clear_value a5
  with_reducible refine keep_ite ?_ ?_
  · with_reducible refine State.finish_keeps W _ _ _ _ _ ?_
    with_reducible exact hs
  · with_reducible refine keep_ite ?_ ?_
    · with_reducible refine State.finish_keeps W _ _ _ _ _ ?_
      with_reducible exact hs
    · with_reducible refine keep_ite ?_ ?_
      · with_reducible refine State.finish_keeps W _ _ _ _ _ ?_
        with_reducible exact hs
      · with_reducible refine State.finish_keeps W _ _ _ _ _ ?_
        with_reducible refine State.setTs_keeps _ _ _ ?_
        with_reducible exact ha5

theorem State.feedServo_keeps (s : State) (feeder : Nat) (ofs : Nat) (meas : Nat) (hs : Mem Q s) : Mem Q (State.feedServo s feeder ofs meas).2 := by
  unfold State.feedServo
  with_reducible refine keep_ite2 ?_ ?_
  · with_reducible refine mem_snd ?_
    with_reducible exact hs
  · with_reducible refine keep_ite2 ?_ ?_
    · with_reducible refine mem_snd ?_
      with_reducible refine State.detect_keeps _ _ ?_
      with_reducible exact hs
    · with_reducible refine mem_snd ?_
      with_reducible refine State.acceptOffset_keeps _ _ ?_
      with_reducible refine keep_ite ?_ ?_
      · with_reducible refine State.wr_keeps _ _ _ ?_
        with_reducible exact hs
      · with_reducible exact hs

theorem servoFeed_keeps (W : WritesLm Q) (d : Desc) (s : State) (hs : Mem Q s) : Mem Q (servoFeed d s) := by
  unfold servoFeed
  extract_lets -merge +onlyGivenNames a1
  have ha1 : Mem Q a1.2 := by
    subst a1
    with_reducible refine State.feedServo_keeps _ _ _ _ ?_
    with_reducible exact hs
  try clear_value a1
  with_reducible refine keep_ite ?_ ?_
  · with_reducible refine State.finish_keeps W _ _ _ _ _ ?_
    with_reducible exact hs
  · with_reducible refine State.finish_keeps W _ _ _ _ _ ?_
    with_reducible exact ha1

theorem execTsFetch_keeps (W : WritesLm Q) (d : Desc) (ok : Bool) (s : State) (hs : Mem Q s) : OutMem Q (execTsFetch d ok s) := by
  unfold execTsFetch
  with_reducible refine onOp_keeps W _ _ _ _ _ ?_ ?_
  · with_reducible exact hs
  · intro x1 h1
    with_reducible refine tsFetch_keeps W _ _ _ ?_
    with_reducible exact h1

theorem timeStep_keeps (W : WritesLm Q) (d : Desc) (s : State) (hs : Mem Q s) : Mem Q (timeStep d s) := by
  unfold timeStep
  with_reducible refine keep_ite ?_ ?_
  · with_reducible refine State.finish_keeps W _ _ _ _ _ ?_
    with_reducible exact hs
  · with_reducible refine keep_ite ?_ ?_
    · with_reducible refine State.finish_keeps W _ _ _ _ _ ?_
      with_reducible exact hs
    · with_reducible refine State.finish_keeps W _ _ _ _ _ ?_
      with_reducible refine State.stepCounter_keeps _ _ ?_
      with_reducible exact hs

theorem timeRead_keeps (W : WritesLm Q) (d : Desc) (s : State) (hs : Mem Q s) : Mem Q (timeRead d s) := by
  unfold timeRead
  with_reducible refine keep_ite ?_ ?_
  · with_reducible refine State.finish_keeps W _ _ _ _ _ ?_
    with_reducible exact hs
  · with_reducible refine State.finish_keeps W _ _ _ _ _ ?_
    with_reducible exact hs

theorem execServoFeed_keeps (W : WritesLm Q) (d : Desc) (s : State) (hs : Mem Q s) : OutMem Q (execServoFeed d s) := by
  unfold execServoFeed
  with_reducible refine onOp_keeps W _ _ _ _ _ ?_ ?_
  · with_reducible exact hs
  · intro x1 h1
    with_reducible refine servoFeed_keeps W _ _ ?_
    with_reducible exact h1

theorem execRangerOffsetFeed_keeps (offset : Word) (measTime : Word) (s : State) (hs : Mem Q s) : OutMem Q (execRangerOffsetFeed offset measTime s) := by
  unfold execRangerOffsetFeed
  with_reducible refine onLive_keeps _ _ ?_ ?_
  · with_reducible exact hs
  · intro x1 h1
    with_reducible refine keep_ite ?_ ?_
    · with_reducible refine State.feedServo_keeps _ _ _ _ ?_
      with_reducible exact h1
    · with_reducible exact h1

theorem execTimeStep_keeps (W : WritesLm Q) (d : Desc) (s : State) (hs : Mem Q s) : OutMem Q (execTimeStep d s) := by
  unfold execTimeStep
  with_reducible refine onOp_keeps W _ _ _ _ _ ?_ ?_
  · with_reducible exact hs
  · intro x1 h1
    with_reducible refine timeStep_keeps W _ _ ?_
    with_reducible exact h1

theorem execTimeRead_keeps (W : WritesLm Q) (d : Desc) (s : State) (hs : Mem Q s) : OutMem Q (execTimeRead d s) := by
  unfold execTimeRead
  with_reducible refine onOp_keeps W _ _ _ _ _ ?_ ?_
  · with_reducible exact hs
  · intro x1 h1
    with_reducible refine timeRead_keeps W _ _ ?_
    with_reducible exact h1

theorem State.ptpAnnounce_keeps (s : State) (m : Bytes) (hs : Mem Q s) : Mem Q (State.ptpAnnounce s m) := by
  unfold State.ptpAnnounce
  extract_lets -merge +onlyGivenNames a1 a2 a3
  try clear_value a1
  have ha2 : Mem Q a2 := by
    subst a2
    with_reducible refine State.drawn_keeps _ ?_
    with_reducible exact hs
  try clear_value a2
  try clear_value a3
  with_reducible refine keep_ite ?_ ?_
  · unfold Mem; dsimp only; refine mem_in ?_
    with_reducible exact hs
  · with_reducible refine keep_ite ?_ ?_
    · unfold Mem; dsimp only; refine mem_in ?_
      with_reducible exact ha2
    · with_reducible refine State.drawn_keeps _ ?_
      with_reducible exact hs

theorem State.dropStamps_keeps (s : State) (p : Nat) (hs : Mem Q s) : Mem Q (State.dropStamps s p) := by
  unfold State.dropStamps
  with_reducible refine State.setTs_keeps _ _ _ ?_
  with_reducible exact hs

theorem State.rangerSends_keeps (s : State) (p : Nat) (typ : Nat) (hs : Mem Q s) : Mem Q (State.rangerSends s p typ) := by
  unfold State.rangerSends
  extract_lets -merge +onlyGivenNames a1 a2
  try clear_value a1
  have ha2 : Mem Q a2 := by
    subst a2
    with_reducible refine State.emit_keeps _ _ ?_
    with_reducible exact hs
  try clear_value a2
  with_reducible refine keep_ite ?_ ?_
  · with_reducible refine State.addStamp_keeps _ _ _ _ _ _ _ ?_
    with_reducible refine State.drawn_keeps _ ?_
    with_reducible exact ha2
  · with_reducible exact ha2

theorem State.rangerMaySend_keeps (s : State) (p : Nat) (typ : Nat) (hs : Mem Q s) : Mem Q (State.rangerMaySend s p typ) := by
  unfold State.rangerMaySend
  with_reducible refine keep_ite ?_ ?_
  · with_reducible refine State.rangerSends_keeps _ _ _ ?_
    with_reducible refine State.drawn_keeps _ ?_
    with_reducible exact hs
  · with_reducible refine State.drawn_keeps _ ?_
    with_reducible exact hs

theorem State.ptpSync_keeps (s : State) (p : Nat) (m : Bytes) (hs : Mem Q s) : Mem Q (State.ptpSync s p m) := by
  unfold State.ptpSync
  extract_lets -merge +onlyGivenNames a1
  try clear_value a1
  with_reducible refine keep_ite ?_ ?_
  · with_reducible exact hs
  · with_reducible refine keep_ite ?_ ?_
    · unfold Mem; dsimp only; refine mem_in ?_
      with_reducible exact hs
    · with_reducible refine State.rangerMaySend_keeps _ _ _ ?_
      with_reducible exact hs

theorem State.rangerPtp_keeps (s : State) (p : Nat) (m : Bytes) (hs : Mem Q s) : Mem Q (State.rangerPtp s p m) := by
  unfold State.rangerPtp
  extract_lets -merge +onlyGivenNames a1
  have ha1 : Mem Q a1 := by
    subst a1
    with_reducible refine State.dropStamps_keeps _ _ ?_
    with_reducible exact hs
  try clear_value a1
  with_reducible refine keep_ite ?_ ?_
  · with_reducible exact hs
  · split <;> first
      | (with_reducible refine State.ptpSync_keeps _ _ _ ?_
         with_reducible exact ha1)
      | (with_reducible refine keep_ite ?_ ?_
         · with_reducible refine State.rangerSends_keeps _ _ _ ?_
           with_reducible exact ha1
         · with_reducible exact ha1)
      | (with_reducible refine keep_ite ?_ ?_
         · with_reducible refine State.rangerSends_keeps _ _ _ ?_
           with_reducible exact ha1
         · with_reducible exact ha1)
      | (with_reducible refine State.ptpAnnounce_keeps _ _ ?_
         with_reducible exact ha1)
      | (with_reducible refine State.emit_keeps _ _ ?_
         with_reducible exact ha1)
      | (with_reducible exact ha1)

theorem State.setCount_keeps (s : State) (i : Nat) (c : FlowCount) (hs : Mem Q s) : Mem Q (State.setCount s i c) := by
  unfold State.setCount
  extract_lets -merge +onlyGivenNames a1
  try clear_value a1
  unfold Mem; dsimp only; refine mem_in ?_
  with_reducible exact hs

theorem State.countSrc_keeps (s : State) (k : Nat) (f : FlowCount → FlowCount) (hs : Mem Q s) : Mem Q (State.countSrc s k f) := by
  unfold State.countSrc
  split <;> first
    | (with_reducible refine State.setCount_keeps _ _ _ ?_
       with_reducible exact hs)
    | (with_reducible exact hs)

theorem State.restartLink_keeps (s : State) (p : Nat) (hs : Mem Q s) : Mem Q (State.restartLink s p) := by
  unfold State.restartLink
  extract_lets -merge +onlyGivenNames a1 a2
  try clear_value a1
  try clear_value a2
  unfold Mem; dsimp only; refine mem_in ?_
  with_reducible exact hs

theorem State.setSource_keeps (s : State) (k : Nat) (x : Source) (hs : Mem Q s) : Mem Q (State.setSource s k x) := by
  unfold State.setSource
  extract_lets -merge +onlyGivenNames a1
  try clear_value a1
  unfold Mem; dsimp only; refine mem_in ?_
  with_reducible exact hs

theorem State.dropHeld_keeps (s : State) (m : Bytes) (hs : Mem Q s) : Mem Q (State.dropHeld s m) := by
  unfold State.dropHeld
  extract_lets -merge +onlyGivenNames a1
  try clear_value a1
  unfold Mem; dsimp only; refine mem_in ?_
  with_reducible exact hs

theorem State.raiseCommit_keeps (s : State) (c : Commit) (hs : Mem Q s) : Mem Q (State.raiseCommit s c) := by
  unfold State.raiseCommit
  extract_lets -merge +onlyGivenNames a1
  try clear_value a1
  unfold Mem; dsimp only; refine mem_in ?_
  with_reducible exact hs

theorem netLinkUp_keeps (p : Nat) (speed : BitVec 2) (anDone : Bool) (s : State) (hs : Mem Q s) : Mem Q (netLinkUp p speed anDone s) := by
  unfold netLinkUp
  extract_lets -merge +onlyGivenNames a1 a2 a3 a4
  have ha1 : Mem Q a1 := by
    subst a1
    with_reducible refine keep_ite ?_ ?_
    · with_reducible exact hs
    · with_reducible refine State.restartLink_keeps _ _ ?_
      with_reducible exact hs
  try clear_value a1
  try clear_value a2
  have ha3 : Mem Q a3 := ha1
  try clear_value a3
  try clear_value a4
  with_reducible refine keep_ite ?_ ?_
  · with_reducible exact hs
  · with_reducible refine State.wr_keeps _ _ _ ?_
    with_reducible refine State.wr_keeps _ _ _ ?_
    with_reducible refine State.wr_keeps _ _ _ ?_
    with_reducible exact ha3

theorem State.cueSlot_keeps (s : State) (e : Nat) (v : Nat) (hs : Mem Q s) : Mem Q (State.cueSlot s e v) := by
  unfold State.cueSlot
  extract_lets -merge +onlyGivenNames a1 a2 a3
  try clear_value a1
  have ha2 : Mem Q a2 := by
    subst a2
    unfold Mem; dsimp only; refine mem_in ?_
    with_reducible exact hs
  try clear_value a2
  try clear_value a3
  with_reducible refine keep_ite ?_ ?_
  · with_reducible exact hs
  · with_reducible refine keep_ite ?_ ?_
    · with_reducible exact ha2
    · unfold Mem; dsimp only; refine mem_in ?_
      with_reducible exact ha2

theorem State.showSrc_keeps (s : State) (k : Nat) (aligned : Bool) (hs : Mem Q s) : Mem Q (State.showSrc s k aligned) := by
  unfold State.showSrc
  split <;> first
    | (with_reducible exact hs)
    | (extract_lets -merge +onlyGivenNames a1
       try clear_value a1
       with_reducible refine State.wr_keeps _ _ _ ?_
       with_reducible refine State.wr_keeps _ _ _ ?_
       with_reducible exact hs)

theorem execNetLinkUp_keeps (port : Nat) (speed : BitVec 2) (anDone : Bool) (s : State) (hs : Mem Q s) : OutMem Q (execNetLinkUp port speed anDone s) := by
  unfold execNetLinkUp
  with_reducible refine onLive_keeps _ _ ?_ ?_
  · with_reducible exact hs
  · intro x1 h1
    with_reducible refine netLinkUp_keeps _ _ _ _ ?_
    with_reducible exact h1

theorem State.queueChunk_keeps (s : State) (q : QChunk) (hs : Mem Q s) : Mem Q (State.queueChunk s q) := by
  unfold State.queueChunk
  refine keep_foldl ?_ ?_
  · with_reducible exact hs
  · intro x1 x2 h1
    extract_lets -merge +onlyGivenNames a1
    try clear_value a1
    with_reducible refine keep_ite ?_ ?_
    · with_reducible refine State.setPort_keeps _ _ _ ?_
      with_reducible exact h1
    · with_reducible exact h1

theorem State.passChunks_keeps (s : State) (k : Nat) (x : Source) (o : OpenFrame) (item : Nat × Nat × Nat) (line : Nat) (hs : Mem Q s) : Mem Q (State.passChunks s k x o item line).2 := by
  unfold State.passChunks
  extract_lets -merge +onlyGivenNames a1 a2
  try clear_value a1
  try clear_value a2
  refine keep_foldl2 ?_ ?_
  · with_reducible refine mem_snd ?_
    with_reducible exact hs
  · intro x1 x2 h1
    extract_lets -merge +onlyGivenNames a3 a4 a5 a6 a7
    try clear_value a3
    try clear_value a4
    try clear_value a5
    try clear_value a6
    try clear_value a7
    with_reducible refine keep_ite2 ?_ ?_
    · with_reducible exact h1
    · with_reducible refine mem_snd ?_
      with_reducible refine State.queueChunk_keeps _ _ ?_
      with_reducible exact h1

theorem State.sacnWrite_keeps (s : State) (m : Bytes) (v : Nat) (hs : Mem Q s) : Mem Q (State.sacnWrite s m v) := by
  unfold State.sacnWrite
  extract_lets -merge +onlyGivenNames a1 a2 a3
  try clear_value a1
  have ha2 : Mem Q a2 := by
    subst a2
    with_reducible refine keep_ite ?_ ?_
    · with_reducible refine State.putM_keeps _ _ ?_
      with_reducible exact hs
    · with_reducible refine keep_ite ?_ ?_
      · with_reducible refine State.putParam_keeps _ _ _ _ ?_
        with_reducible exact hs
      · with_reducible exact hs
  try clear_value a2
  try clear_value a3
  with_reducible refine keep_ite ?_ ?_
  · with_reducible exact ha2
  · unfold Mem; dsimp only; refine mem_in ?_
    with_reducible exact ha2

theorem State.sacnSlots_keeps (s : State) (i : Nat) (slots : Bytes) (hs : Mem Q s) : Mem Q (State.sacnSlots s i slots) := by
  unfold State.sacnSlots
  refine keep_foldl ?_ ?_
  · with_reducible exact hs
  · intro x1 x2 h1
    extract_lets -merge +onlyGivenNames a1 a2
    have ha1 : Mem Q a1 := by
      subst a1
      with_reducible refine State.dropHeld_keeps _ _ ?_
      with_reducible exact h1
    try clear_value a1
    try clear_value a2
    with_reducible refine keep_ite ?_ ?_
    · with_reducible exact h1
    · split <;> first
        | (with_reducible exact h1)
        | (with_reducible refine keep_ite ?_ ?_
           · with_reducible refine State.cueSlot_keeps _ _ _ ?_
             with_reducible exact h1
           · with_reducible refine keep_ite ?_ ?_
             · unfold Mem; dsimp only; refine mem_in ?_
               with_reducible exact ha1
             · with_reducible refine State.sacnWrite_keeps _ _ _ ?_
               with_reducible exact ha1)

theorem sacnHeldWrite_keeps (s : State) (hs : Mem Q s) : Mem Q (sacnHeldWrite s) := by
  unfold sacnHeldWrite
  extract_lets -merge +onlyGivenNames a1 a2
  have ha1 : Mem Q a1 := by
    subst a1
    refine keep_foldl ?_ ?_
    · with_reducible exact hs
    · intro x1 x2 h1
      split <;> first
        | (with_reducible refine State.sacnWrite_keeps _ _ _ ?_
           with_reducible exact h1)
        | (with_reducible exact h1)
  try clear_value a1
  try clear_value a2
  with_reducible refine keep_ite ?_ ?_
  · with_reducible exact hs
  · unfold Mem; dsimp only; refine mem_in ?_
    with_reducible exact ha1

theorem sacnCommit_keeps (s : State) (hs : Mem Q s) : Mem Q (sacnCommit s) := by
  unfold sacnCommit
  extract_lets -merge +onlyGivenNames a1 a2
  have ha1 : Mem Q a1 := by
    subst a1
    with_reducible refine State.inc_keeps _ _ ?_
    with_reducible refine State.raiseCommit_keeps _ _ ?_
    with_reducible exact hs
  try clear_value a1
  try clear_value a2
  with_reducible refine keep_ite ?_ ?_
  · unfold Mem; dsimp only; refine mem_in ?_
    with_reducible exact ha1
  · with_reducible exact hs

theorem execSacnHeldWrite_keeps (s : State) (hs : Mem Q s) : OutMem Q (execSacnHeldWrite s) := by
  unfold execSacnHeldWrite
  with_reducible refine onLive_keeps _ _ ?_ ?_
  · with_reducible exact hs
  · intro x1 h1
    with_reducible refine sacnHeldWrite_keeps _ ?_
    with_reducible exact h1

theorem execSacnCommit_keeps (s : State) (hs : Mem Q s) : OutMem Q (execSacnCommit s) := by
  unfold execSacnCommit
  with_reducible refine onLive_keeps _ _ ?_ ?_
  · with_reducible exact hs
  · intro x1 h1
    with_reducible refine sacnCommit_keeps _ ?_
    with_reducible exact h1

theorem State.fmtErr_keeps (s : State) (port : Nat) (flow : Nat) (hs : Mem Q s) : Mem Q (State.fmtErr s port flow) := by
  unfold State.fmtErr
  extract_lets -merge +onlyGivenNames a1 a2
  try clear_value a1
  have ha2 : Mem Q a2 := by
    subst a2
    with_reducible refine State.setCount_keeps _ _ _ ?_
    with_reducible exact hs
  try clear_value a2
  with_reducible refine State.detect_keeps _ _ ?_
  with_reducible refine State.inc_keeps _ _ ?_
  with_reducible exact ha2

theorem netLinkDown_keeps (p : Nat) (s : State) (hs : Mem Q s) : Mem Q (netLinkDown p s) := by
  unfold netLinkDown
  extract_lets -merge +onlyGivenNames a1
  have ha1 : Mem Q a1 := by
    subst a1
    with_reducible refine State.wr_keeps _ _ _ ?_
    with_reducible refine State.wr_keeps _ _ _ ?_
    with_reducible refine State.wr_keeps _ _ _ ?_
    with_reducible exact hs
  try clear_value a1
  with_reducible refine keep_ite ?_ ?_
  · with_reducible exact hs
  · with_reducible refine State.detect_keeps _ _ ?_
    with_reducible refine State.restartLink_keeps _ _ ?_
    with_reducible exact ha1

theorem State.merge_keeps (s : State) (port : Nat) (flow : Nat) (kind : Nat) (target : Nat) (seq : Nat) (hs : Mem Q s) : Mem Q (State.merge s port flow kind target seq).2 := by
  unfold State.merge
  extract_lets -merge +onlyGivenNames a1 a2 a3 a4 a5 a6 a7 a8 a9
  try clear_value a1
  try clear_value a2
  try clear_value a3
  try clear_value a4
  try clear_value a5
  have ha6 : Mem Q a6 := by
    subst a6
    with_reducible refine State.setCount_keeps _ _ _ ?_
    with_reducible exact hs
  try clear_value a6
  try clear_value a7
  try clear_value a8
  have ha9 : Mem Q a9 := by
    subst a9
    unfold Mem; dsimp only; refine mem_in ?_
    with_reducible exact hs
  try clear_value a9
  split <;> first
    | (extract_lets -merge +onlyGivenNames a10
       try clear_value a10
       with_reducible refine mem_snd ?_
       with_reducible refine State.setCount_keeps _ _ _ ?_
       with_reducible exact hs)
    | (with_reducible refine keep_ite2 ?_ ?_
       · with_reducible refine mem_snd ?_
         with_reducible refine State.detect_keeps _ _ ?_
         with_reducible refine State.inc_keeps _ _ ?_
         with_reducible exact ha6
       · with_reducible refine mem_snd ?_
         with_reducible refine State.setCount_keeps _ _ _ ?_
         with_reducible exact ha9)

theorem State.setUniv_keeps (s : State) (i : Nat) (l : List SacnSrc) (hs : Mem Q s) : Mem Q (State.setUniv s i l) := by
  unfold State.setUniv
  extract_lets -merge +onlyGivenNames a1 a2
  try clear_value a1
  have ha2 : Mem Q a2 := by
    subst a2
    unfold Mem; dsimp only; refine mem_in ?_
    with_reducible exact hs
  try clear_value a2
  with_reducible refine State.detectIf_keeps _ _ _ ?_
  with_reducible exact ha2

theorem sacnCueCommit_keeps (s : State) (hs : Mem Q s) : Mem Q (sacnCueCommit s) := by
  unfold sacnCueCommit
  extract_lets -merge +onlyGivenNames a1 a2 a3 a4
  try clear_value a1
  try clear_value a2
  have ha3 : Mem Q a3 := by
    subst a3
    unfold Mem; dsimp only; refine mem_in ?_
    with_reducible exact hs
  try clear_value a3
  try clear_value a4
  split <;> first
    | (with_reducible exact hs)
    | (with_reducible refine keep_ite ?_ ?_
       · with_reducible exact hs
       · with_reducible refine keep_ite ?_ ?_
         · with_reducible refine State.detectIf_keeps _ _ _ ?_
           unfold Mem; dsimp only; refine mem_in ?_
           with_reducible exact hs
         · split <;> first
             | (with_reducible exact ha3)
             | (extract_lets -merge +onlyGivenNames a5 a6 a7
                try clear_value a5
                have ha6 : Mem Q a6 := by
                  subst a6
                  with_reducible refine State.touch_keeps _ _ _ _ ?_
                  with_reducible refine State.setShadowBank_keeps _ _ ?_
                  with_reducible exact ha3
                try clear_value a6
                have ha7 : Mem Q a7 := by
                  subst a7
                  with_reducible refine keep_ite ?_ ?_
                  · with_reducible refine State.touch_keeps _ _ _ _ ?_
                    with_reducible exact ha6
                  · with_reducible exact ha6
                try clear_value a7
                with_reducible refine State.raiseCommit_keeps _ _ ?_
                with_reducible refine State.showShadow_keeps _ ?_
                with_reducible exact ha7))

theorem sacnSourceTimeout_keeps (i : Nat) (cid : BitVec 128) (s : State) (hs : Mem Q s) : Mem Q (sacnSourceTimeout i cid s) := by
  unfold sacnSourceTimeout
  extract_lets -merge +onlyGivenNames a1
  try clear_value a1
  split <;> first
    | (with_reducible exact hs)
    | (with_reducible refine State.setUniv_keeps _ _ _ ?_
       with_reducible refine State.advanceTo_keeps _ _ ?_
       with_reducible exact hs)

theorem execSacnSourceTimeout_keeps (universeIndex : Nat) (cid : BitVec 128) (s : State) (hs : Mem Q s) : OutMem Q (execSacnSourceTimeout universeIndex cid s) := by
  unfold execSacnSourceTimeout
  with_reducible refine onLive_keeps _ _ ?_ ?_
  · with_reducible exact hs
  · intro x1 h1
    with_reducible refine sacnSourceTimeout_keeps _ _ _ ?_
    with_reducible exact h1

theorem netModeWrite_keeps (p : Nat) (v : Word) (s : State) (hs : Mem Q s) : Mem Q (netModeWrite p v s) := by
  unfold netModeWrite
  extract_lets -merge +onlyGivenNames a1 a2
  try clear_value a1
  have ha2 : Mem Q a2 := by
    subst a2
    with_reducible refine State.wr_keeps _ _ _ ?_
    with_reducible refine State.wr_keeps _ _ _ ?_
    with_reducible exact hs
  try clear_value a2
  with_reducible refine keep_ite ?_ ?_
  · with_reducible exact hs
  · with_reducible refine keep_ite ?_ ?_
    · with_reducible exact ha2
    · with_reducible refine State.restartLink_keeps _ _ ?_
      with_reducible refine netLinkDown_keeps _ _ ?_
      with_reducible refine State.wr_keeps _ _ _ ?_
      with_reducible exact ha2

theorem execSacnCueCommit_keeps (s : State) (hs : Mem Q s) : OutMem Q (execSacnCueCommit s) := by
  unfold execSacnCueCommit
  with_reducible refine onLive_keeps _ _ ?_ ?_
  · with_reducible exact hs
  · intro x1 h1
    with_reducible refine sacnCueCommit_keeps _ ?_
    with_reducible exact h1

theorem execNetLinkDown_keeps (port : Nat) (s : State) (hs : Mem Q s) : OutMem Q (execNetLinkDown port s) := by
  unfold execNetLinkDown
  with_reducible refine onLive_keeps _ _ ?_ ?_
  · with_reducible exact hs
  · intro x1 h1
    with_reducible refine netLinkDown_keeps _ _ ?_
    with_reducible exact h1

theorem State.closeFrame_keeps (s : State) (k : Nat) (port : Nat) (x : Source) (o : OpenFrame) (complete : Bool) (hs : Mem Q s) : Mem Q (State.closeFrame s k port x o complete) := by
  unfold State.closeFrame
  extract_lets -merge +onlyGivenNames a1 a2 a3 a4 a5 a6
  try clear_value a1
  try clear_value a2
  try clear_value a3
  have ha4 : Mem Q a4 := by
    subst a4
    with_reducible refine State.showSrc_keeps _ _ _ ?_
    with_reducible refine State.setSource_keeps _ _ _ ?_
    with_reducible exact hs
  try clear_value a4
  have ha5 : Mem Q a5 := by
    subst a5
    with_reducible refine State.countSrc_keeps _ _ _ ?_
    with_reducible exact ha4
  try clear_value a5
  have ha6 : Mem Q a6 := by
    subst a6
    with_reducible refine keep_ite ?_ ?_
    · with_reducible refine keep_ite ?_ ?_
      · with_reducible refine State.countSrc_keeps _ _ _ ?_
        with_reducible exact ha5
      · with_reducible exact ha5
    · with_reducible exact ha4
  try clear_value a6
  with_reducible refine State.detectIf_keeps _ _ _ ?_
  with_reducible exact ha6

theorem execNetModeWrite_keeps (port : Nat) (v : Word) (s : State) (hs : Mem Q s) : OutMem Q (execNetModeWrite port v s) := by
  unfold execNetModeWrite
  with_reducible refine onLive_keeps _ _ ?_ ?_
  · with_reducible exact hs
  · intro x1 h1
    with_reducible refine netModeWrite_keeps _ _ _ ?_
    with_reducible exact h1

theorem State.sacnPacket_keeps (s : State) (i : Nat) (p : SacnPacket) (hs : Mem Q s) : Mem Q (State.sacnPacket s i p) := by
  unfold State.sacnPacket
  extract_lets -merge +onlyGivenNames a1 a2 a3 a4 a5
  try clear_value a1
  try clear_value a2
  have ha3 : Mem Q a3 := by
    subst a3
    with_reducible refine State.setUniv_keeps _ _ _ ?_
    with_reducible exact hs
  try clear_value a3
  try clear_value a4
  have ha5 : Mem Q a5 := by
    subst a5
    with_reducible refine State.setUniv_keeps _ _ _ ?_
    with_reducible exact hs
  try clear_value a5
  with_reducible refine keep_ite ?_ ?_
  · with_reducible exact hs
  · with_reducible refine keep_ite ?_ ?_
    · with_reducible refine State.detect_keeps _ _ ?_
      with_reducible exact hs
    · split <;> first
        | (with_reducible refine keep_ite ?_ ?_
           · with_reducible exact hs
           · with_reducible refine keep_ite ?_ ?_
             · with_reducible refine State.detect_keeps _ _ ?_
               with_reducible exact hs
             · with_reducible refine keep_ite ?_ ?_
               · with_reducible refine State.sacnSlots_keeps _ _ _ ?_
                 with_reducible exact ha3
               · with_reducible exact ha3)
        | (extract_lets -merge +onlyGivenNames a6
           try clear_value a6
           with_reducible refine keep_ite ?_ ?_
           · with_reducible exact hs
           · with_reducible refine keep_ite ?_ ?_
             · with_reducible refine State.setUniv_keeps _ _ _ ?_
               with_reducible exact hs
             · with_reducible refine keep_ite ?_ ?_
               · with_reducible refine State.sacnSlots_keeps _ _ _ ?_
                 with_reducible exact ha5
               · with_reducible exact ha5)

theorem State.placeRows_keeps (W : WritesLm Q) (s : State) (k : Nat) (port : Nat) (x : Source) (o : OpenFrame) (rows : List VideoRow) (hs : Mem Q s) : Mem Q (State.placeRows s k port x o rows) := by
  unfold State.placeRows
  extract_lets -merge +onlyGivenNames a1 a2
  try clear_value a1
  try clear_value a2
  split <;> first
    | (with_reducible refine State.setSource_keeps _ _ _ ?_
       with_reducible exact hs)
    | (extract_lets -merge +onlyGivenNames a3 a4
       have ha3 : Mem Q a3.2 := by
         subst a3
         refine keep_foldl2 ?_ ?_
         · with_reducible refine mem_snd ?_
           with_reducible exact hs
         · intro x1 x2 h1
           extract_lets -merge +onlyGivenNames a5 a6 a7 a8
           try clear_value a5
           have ha6 : Mem Q a6 := by
             subst a6
             with_reducible refine State.lmWrite_keeps W _ _ _ ?_
             with_reducible exact h1
           try clear_value a6
           try clear_value a7
           try clear_value a8
           with_reducible refine keep_ite2 ?_ ?_
           · with_reducible refine State.passChunks_keeps _ _ _ _ _ _ ?_
             with_reducible exact ha6
           · with_reducible refine mem_snd ?_
             with_reducible exact ha6
       try clear_value a3
       try clear_value a4
       with_reducible refine keep_ite ?_ ?_
       · with_reducible refine State.closeFrame_keeps _ _ _ _ _ _ ?_
         with_reducible exact ha3
       · with_reducible refine State.setSource_keeps _ _ _ ?_
         with_reducible exact ha3)

theorem State.videoPacket_keeps (W : WritesLm Q) (s : State) (port : Nat) (flow : Nat) (k : Nat) (ts : Word) (field : Bool) (rows : List VideoRow) (hs : Mem Q s) : Mem Q (State.videoPacket s port flow k ts field rows) := by
  unfold State.videoPacket
  split <;> first
    | (with_reducible exact hs)
    | (extract_lets -merge +onlyGivenNames a1 a2 a3
       try clear_value a1
       have ha2 : Mem Q a2 := by
         subst a2
         refine keep_foldl ?_ ?_
         · with_reducible exact hs
         · intro x1 x2 h1
           with_reducible refine State.fmtErr_keeps _ _ _ ?_
           with_reducible exact h1
       try clear_value a2
       try clear_value a3
       with_reducible refine keep_ite ?_ ?_
       · with_reducible exact hs
       · with_reducible refine keep_ite ?_ ?_
         · with_reducible refine State.detect_keeps _ _ ?_
           with_reducible exact hs
         · with_reducible refine keep_ite ?_ ?_
           · with_reducible refine State.fmtErr_keeps _ _ _ ?_
             with_reducible exact hs
           · split <;> first
               | (extract_lets -merge +onlyGivenNames a4
                  have ha4 : Mem Q a4 := by
                    subst a4
                    with_reducible refine State.closeFrame_keeps _ _ _ _ _ _ ?_
                    with_reducible exact ha2
                  try clear_value a4
                  with_reducible refine keep_ite ?_ ?_
                  · with_reducible refine State.placeRows_keeps W _ _ _ _ _ _ ?_
                    with_reducible exact ha2
                  · with_reducible refine keep_ite ?_ ?_
                    · split <;> first
                        | (with_reducible refine State.placeRows_keeps W _ _ _ _ _ _ ?_
                           with_reducible exact ha4)
                        | (with_reducible exact ha4)
                    · with_reducible exact ha2)
               | (with_reducible refine keep_ite ?_ ?_
                  · with_reducible refine State.placeRows_keeps W _ _ _ _ _ _ ?_
                    with_reducible exact ha2
                  · with_reducible exact ha2))

theorem State.toHost_keeps (W : WritesLm Q) (s : State) (port : Nat) (flow : Nat) (tag : Nat) (raw : Bytes) (pre : Bytes) (hs : Mem Q s) : Mem Q (State.toHost s port flow tag raw pre) := by
  unfold State.toHost
  extract_lets -merge +onlyGivenNames a1
  try clear_value a1
  split <;> first
    | (with_reducible refine State.detect_keeps _ _ ?_
       with_reducible refine State.inc_keeps _ _ ?_
       with_reducible exact hs)
    | (extract_lets -merge +onlyGivenNames a2
       have ha2 : Mem Q a2 := by
         subst a2
         unfold Mem; dsimp only; refine mem_in ?_
         with_reducible exact hs
       try clear_value a2
       with_reducible refine keep_ite ?_ ?_
       · with_reducible refine State.detect_keeps _ _ ?_
         with_reducible refine State.inc_keeps _ _ ?_
         with_reducible exact hs
       · with_reducible refine State.finish_keeps W _ _ _ _ _ ?_
         with_reducible refine State.emit_keeps _ _ ?_
         with_reducible exact ha2)

theorem State.flowPacket_keeps (W : WritesLm Q) (s : State) (f : NetFrame) (i : Nat) (e : Bytes) (u : UdpBody) (hs : Mem Q s) : Mem Q (State.flowPacket s f i e u) := by
  unfold State.flowPacket
  extract_lets -merge +onlyGivenNames a1
  try clear_value a1
  split <;> first
    | (extract_lets -merge +onlyGivenNames a2
       have ha2 : Mem Q a2.2 := by
         subst a2
         with_reducible refine State.merge_keeps _ _ _ _ _ _ ?_
         with_reducible exact hs
       try clear_value a2
       with_reducible refine keep_ite ?_ ?_
       · with_reducible refine State.fmtErr_keeps _ _ _ ?_
         with_reducible exact hs
       · with_reducible refine keep_ite ?_ ?_
         · with_reducible refine State.videoPacket_keeps W _ _ _ _ _ _ _ ?_
           with_reducible exact ha2
         · with_reducible exact ha2)
    | (extract_lets -merge +onlyGivenNames a3 a4
       have ha3 : Mem Q a3.2 := by
         subst a3
         with_reducible refine State.merge_keeps _ _ _ _ _ _ ?_
         with_reducible exact hs
       try clear_value a3
       have ha4 : Mem Q a4.2 := by
         subst a4
         with_reducible refine State.audioPacket_keeps W _ _ _ _ _ _ _ _ ?_
         with_reducible exact ha3
       try clear_value a4
       with_reducible refine keep_ite ?_ ?_
       · with_reducible refine State.fmtErr_keeps _ _ _ ?_
         with_reducible exact hs
       · with_reducible refine keep_ite ?_ ?_
         · with_reducible refine keep_ite ?_ ?_
           · with_reducible exact ha4
           · with_reducible refine State.fmtErr_keeps _ _ _ ?_
             with_reducible exact ha3
         · with_reducible exact ha3)
    | (with_reducible refine State.fmtErr_keeps _ _ _ ?_
       with_reducible exact hs)
    | (with_reducible refine State.fmtErr_keeps _ _ _ ?_
       with_reducible exact hs)
    | (with_reducible refine State.sacnPacket_keeps _ _ _ ?_
       with_reducible exact hs)
    | (with_reducible exact hs)
    | (with_reducible refine State.toHost_keeps W _ _ _ _ _ _ ?_
       with_reducible exact hs)

theorem State.unclaimed_keeps (W : WritesLm Q) (s : State) (f : NetFrame) (hs : Mem Q s) : Mem Q (State.unclaimed s f) := by
  unfold State.unclaimed
  extract_lets -merge +onlyGivenNames a1 a2
  try clear_value a1
  try clear_value a2
  with_reducible refine keep_ite ?_ ?_
  · with_reducible refine State.toHost_keeps W _ _ _ _ _ _ ?_
    with_reducible exact hs
  · with_reducible refine State.inc_keeps _ _ ?_
    with_reducible exact hs

theorem State.ptpMessage_keeps (W : WritesLm Q) (s : State) (f : NetFrame) (ip4 : Bool) (hs : Mem Q s) : Mem Q (State.ptpMessage s f ip4) := by
  unfold State.ptpMessage
  with_reducible refine keep_ite ?_ ?_
  · with_reducible refine State.rangerPtp_keeps _ _ _ ?_
    with_reducible refine State.emit_keeps _ _ ?_
    with_reducible exact hs
  · with_reducible refine State.toHost_keeps W _ _ _ _ _ _ ?_
    with_reducible exact hs

theorem netFrameReceive_keeps (W : WritesLm Q) (f : NetFrame) (s : State) (hs : Mem Q s) : Mem Q (netFrameReceive f s) := by
  unfold netFrameReceive
  extract_lets -merge +onlyGivenNames a1
  have ha1 : Mem Q a1 := by
    subst a1
    with_reducible refine State.incBy_keeps _ _ _ ?_
    with_reducible refine State.inc_keeps _ _ ?_
    with_reducible exact hs
  try clear_value a1
  with_reducible refine keep_ite ?_ ?_
  · with_reducible exact hs
  · with_reducible refine keep_ite ?_ ?_
    · with_reducible refine State.detect_keeps _ _ ?_
      with_reducible refine State.inc_keeps _ _ ?_
      with_reducible exact hs
    · with_reducible refine keep_ite ?_ ?_
      · with_reducible refine State.inc_keeps _ _ ?_
        with_reducible exact ha1
      · with_reducible refine keep_ite ?_ ?_
        · with_reducible refine State.detect_keeps _ _ ?_
          with_reducible refine State.inc_keeps _ _ ?_
          with_reducible exact ha1
        · with_reducible refine keep_ite ?_ ?_
          · with_reducible exact ha1
          · with_reducible refine keep_ite ?_ ?_
            · with_reducible refine State.unclaimed_keeps W _ _ ?_
              with_reducible exact ha1
            · split <;> first
                | (with_reducible refine State.ptpMessage_keeps W _ _ _ ?_
                   with_reducible exact ha1)
                | (with_reducible refine keep_ite ?_ ?_
                   · with_reducible refine State.ptpMessage_keeps W _ _ _ ?_
                     with_reducible exact ha1
                   · with_reducible refine State.unclaimed_keeps W _ _ ?_
                     with_reducible exact ha1)
                | (with_reducible refine keep_ite ?_ ?_
                   · with_reducible refine State.ptpMessage_keeps W _ _ _ ?_
                     with_reducible exact ha1
                   · with_reducible refine keep_ite ?_ ?_
                     · with_reducible refine State.unclaimed_keeps W _ _ ?_
                       with_reducible exact ha1
                     · split <;> first
                         | (with_reducible refine State.flowPacket_keeps W _ _ _ _ _ ?_
                            with_reducible exact ha1)
                         | (with_reducible refine State.unclaimed_keeps W _ _ ?_
                            with_reducible exact ha1))
                | (with_reducible refine State.unclaimed_keeps W _ _ ?_
                   with_reducible exact ha1)

theorem execNetFrameReceive_keeps (W : WritesLm Q) (f : NetFrame) (s : State) (hs : Mem Q s) : OutMem Q (execNetFrameReceive f s) := by
  unfold execNetFrameReceive
  with_reducible refine onLive_keeps _ _ ?_ ?_
  · with_reducible exact hs
  · intro x1 h1
    with_reducible refine netFrameReceive_keeps W _ _ ?_
    with_reducible exact h1

end Sys2Proof.Machine
end

