-- ==== Sys2Proof/Laws/KeepsLink.lean ====
section
/-! SUPPORT. The operations and meanings of Root, Link keep any property of the stores and the straps that the writes they
make keep (see Laws/Memory.lean). -/

namespace Sys2Proof.Machine

variable {Q : Store → Store → StrapBalls → Prop}

theorem rootCfgWrite_keeps (w : Nat) (s : State) (hs : Mem Q s) : Mem Q (rootCfgWrite w s) := by
  unfold rootCfgWrite
  extract_lets -merge +onlyGivenNames a1 a2 a3
  have ha1 : Mem Q a1 := by
    subst a1
    with_reducible refine State.settleSlew_keeps _ ?_
    with_reducible exact hs
  try clear_value a1
  have ha2 : Mem Q a2 := by
    subst a2
    with_reducible refine State.wr_keeps _ _ _ ?_
    with_reducible exact ha1
  try clear_value a2
  have ha3 : Mem Q a3 := by
    subst a3
    with_reducible refine keep_ite ?_ ?_
    · with_reducible refine State.wr_keeps _ _ _ ?_
      with_reducible exact ha2
    · with_reducible exact ha2
  try clear_value a3
  with_reducible refine State.driveFbclk_keeps _ ?_
  with_reducible refine State.wr_keeps _ _ _ ?_
  with_reducible exact ha3

theorem fbclkPresent_keeps (s : State) (hs : Mem Q s) : Mem Q (fbclkPresent s) := by
  unfold fbclkPresent
  extract_lets -merge +onlyGivenNames a1 a2
  have ha2 : Mem Q a2 := by
    subst a2
    unfold Mem; dsimp only; refine mem_in ?_
    with_reducible exact hs
  try clear_value a2
  with_reducible refine keep_ite ?_ ?_
  · with_reducible refine keep_ite ?_ ?_
    · with_reducible exact ha2
    · with_reducible refine State.takeFbclk_keeps _ ?_
      with_reducible exact ha2
  · with_reducible exact hs

theorem execFbclkPresent_keeps (s : State) (hs : Mem Q s) : OutMem Q (execFbclkPresent s) := by
  unfold execFbclkPresent
  with_reducible refine onLive_keeps _ _ ?_ ?_
  · with_reducible exact hs
  · intro x1 h1
    with_reducible refine fbclkPresent_keeps _ ?_
    with_reducible exact h1

theorem slewComplete_keeps (s : State) (hs : Mem Q s) : Mem Q (slewComplete s) := by
  unfold slewComplete
  extract_lets -merge +onlyGivenNames a1 a2 a3 a4 a5
  have ha1 : Mem Q a1 := by
    subst a1
    with_reducible refine State.advanceTo_keeps _ _ ?_
    with_reducible exact hs
  try clear_value a1
  have ha2 : Mem Q a2 := by
    subst a2
    with_reducible refine State.wr_keeps _ _ _ ?_
    with_reducible refine State.wr_keeps _ _ _ ?_
    with_reducible refine State.wr_keeps _ _ _ ?_
    with_reducible refine State.wr_keeps _ _ _ ?_
    with_reducible exact ha1
  try clear_value a2
  have ha4 : Mem Q a4 := by
    subst a4
    with_reducible refine State.wr_keeps _ _ _ ?_
    with_reducible refine State.wr_keeps _ _ _ ?_
    with_reducible exact hs
  try clear_value a4
  with_reducible refine keep_ite ?_ ?_
  · with_reducible exact hs
  · with_reducible refine keep_ite ?_ ?_
    · with_reducible refine State.rootChanged_keeps _ ?_
      unfold Mem; dsimp only; refine mem_in ?_
      with_reducible exact ha2
    · with_reducible refine State.rootChanged_keeps _ ?_
      unfold Mem; dsimp only; refine mem_in ?_
      with_reducible exact ha4

theorem rootLock_keeps (s : State) (hs : Mem Q s) : Mem Q (rootLock s) := by
  unfold rootLock
  extract_lets -merge +onlyGivenNames a1 a2 a3 a4 a5
  try clear_value a1
  have ha2 : Mem Q a2 := by
    subst a2
    unfold Mem; dsimp only; refine mem_in ?_
    with_reducible exact hs
  try clear_value a2
  have ha4 : Mem Q a4 := by
    subst a4
    unfold Mem; dsimp only; refine mem_in ?_
    with_reducible exact hs
  try clear_value a4
  have ha5 : Mem Q a5 := by
    subst a5
    with_reducible refine State.wr_keeps _ _ _ ?_
    with_reducible exact ha4
  try clear_value a5
  with_reducible refine keep_ite ?_ ?_
  · with_reducible refine keep_ite ?_ ?_
    · with_reducible refine keep_ite ?_ ?_
      · with_reducible exact ha2
      · with_reducible refine State.rootChanged_keeps _ ?_
        with_reducible refine State.wr_keeps _ _ _ ?_
        with_reducible exact ha2
    · with_reducible refine keep_ite ?_ ?_
      · with_reducible exact ha5
      · refine keep_foldl ?_ ?_
        · with_reducible exact ha5
        · intro x1 x2 h1
          with_reducible refine keep_ite ?_ ?_
          · with_reducible refine State.enterState_keeps _ _ _ ?_
            with_reducible exact h1
          · with_reducible exact h1
  · with_reducible exact hs

theorem fbclkLoss_keeps (s : State) (hs : Mem Q s) : Mem Q (fbclkLoss s) := by
  unfold fbclkLoss
  extract_lets -merge +onlyGivenNames a1 a2 a3
  have ha2 : Mem Q a2 := by
    subst a2
    unfold Mem; dsimp only; refine mem_in ?_
    with_reducible exact hs
  try clear_value a2
  have ha3 : Mem Q a3 := by
    subst a3
    with_reducible refine keep_ite ?_ ?_
    · with_reducible refine State.rootChanged_keeps _ ?_
      with_reducible refine State.holdover_keeps _ ?_
      with_reducible exact ha2
    · with_reducible exact ha2
  try clear_value a3
  with_reducible refine keep_ite ?_ ?_
  · with_reducible refine State.detect_keeps _ _ ?_
    with_reducible exact ha3
  · with_reducible exact hs

theorem holdoverExpiry_keeps (s : State) (hs : Mem Q s) : Mem Q (holdoverExpiry s) := by
  unfold holdoverExpiry
  extract_lets -merge +onlyGivenNames a1 a2 a3
  have ha1 : Mem Q a1 := by
    subst a1
    with_reducible refine State.advanceTo_keeps _ _ ?_
    with_reducible exact hs
  try clear_value a1
  have ha2 : Mem Q a2 := by
    subst a2
    with_reducible refine State.wr_keeps _ _ _ ?_
    with_reducible exact ha1
  try clear_value a2
  with_reducible refine keep_ite ?_ ?_
  · with_reducible refine State.rootChanged_keeps _ ?_
    unfold Mem; dsimp only; refine mem_in ?_
    with_reducible exact ha2
  · with_reducible exact hs

theorem rootUnlock_keeps (s : State) (hs : Mem Q s) : Mem Q (rootUnlock s) := by
  unfold rootUnlock
  extract_lets -merge +onlyGivenNames a1 a2 a3
  have ha1 : Mem Q a1 := by
    subst a1
    with_reducible refine State.wr_keeps _ _ _ ?_
    with_reducible exact hs
  try clear_value a1
  try clear_value a2
  have ha3 : Mem Q a3 := by
    subst a3
    with_reducible refine State.rootChanged_keeps _ ?_
    unfold Mem; dsimp only; refine mem_in ?_
    with_reducible exact ha1
  try clear_value a3
  with_reducible refine keep_ite ?_ ?_
  · with_reducible exact hs
  · with_reducible refine State.resignNative_keeps _ ?_
    with_reducible refine State.detect_keeps _ _ ?_
    with_reducible exact ha3

theorem refLoss_keeps (s : State) (hs : Mem Q s) : Mem Q (refLoss s) := by
  unfold refLoss
  with_reducible refine keep_ite ?_ ?_
  · with_reducible exact hs
  · with_reducible refine State.detect_keeps _ _ ?_
    with_reducible refine State.rootChanged_keeps _ ?_
    with_reducible refine State.holdover_keeps _ ?_
    with_reducible exact hs

theorem execRootUnlock_keeps (s : State) (hs : Mem Q s) : OutMem Q (execRootUnlock s) := by
  unfold execRootUnlock
  with_reducible refine onLive_keeps _ _ ?_ ?_
  · with_reducible exact hs
  · intro x1 h1
    with_reducible refine rootUnlock_keeps _ ?_
    with_reducible exact h1

theorem execHoldoverExpiry_keeps (s : State) (hs : Mem Q s) : OutMem Q (execHoldoverExpiry s) := by
  unfold execHoldoverExpiry
  with_reducible refine onLive_keeps _ _ ?_ ?_
  · with_reducible exact hs
  · intro x1 h1
    with_reducible refine holdoverExpiry_keeps _ ?_
    with_reducible exact h1

theorem execRefLoss_keeps (s : State) (hs : Mem Q s) : OutMem Q (execRefLoss s) := by
  unfold execRefLoss
  with_reducible refine onLive_keeps _ _ ?_ ?_
  · with_reducible exact hs
  · intro x1 h1
    with_reducible refine refLoss_keeps _ ?_
    with_reducible exact h1

theorem execFbclkLoss_keeps (s : State) (hs : Mem Q s) : OutMem Q (execFbclkLoss s) := by
  unfold execFbclkLoss
  with_reducible refine onLive_keeps _ _ ?_ ?_
  · with_reducible exact hs
  · intro x1 h1
    with_reducible refine fbclkLoss_keeps _ ?_
    with_reducible exact h1

theorem execSlewComplete_keeps (s : State) (hs : Mem Q s) : OutMem Q (execSlewComplete s) := by
  unfold execSlewComplete
  with_reducible refine onLive_keeps _ _ ?_ ?_
  · with_reducible exact hs
  · intro x1 h1
    with_reducible refine slewComplete_keeps _ ?_
    with_reducible exact h1

theorem execRootLock_keeps (s : State) (hs : Mem Q s) : OutMem Q (execRootLock s) := by
  unfold execRootLock
  with_reducible refine out_next ?_
  with_reducible refine rootLock_keeps _ ?_
  with_reducible exact hs

theorem onPort_keeps (k : Nat) (f : State → State) (s : State) (hf : ∀ y0, Mem Q y0 → Mem Q (f y0)) (hs : Mem Q s) : Mem Q (onPort k f s) := by
  unfold onPort
  with_reducible refine keep_ite ?_ ?_
  · with_reducible refine hf _ ?_
    with_reducible exact hs
  · with_reducible exact hs

theorem State.judgeBer_keeps (s : State) (k : Nat) (bad : Nat) (hs : Mem Q s) : Mem Q (State.judgeBer s k bad) := by
  unfold State.judgeBer
  extract_lets -merge +onlyGivenNames a1
  try clear_value a1
  with_reducible refine State.setPort_keeps _ _ _ ?_
  with_reducible exact hs

theorem trlEnable_keeps (k : Nat) (s : State) (hs : Mem Q s) : Mem Q (trlEnable k s) := by
  unfold trlEnable
  extract_lets -merge +onlyGivenNames a1
  have ha1 : Mem Q a1 := by
    subst a1
    with_reducible refine State.wr_keeps _ _ _ ?_
    with_reducible exact hs
  try clear_value a1
  with_reducible refine keep_ite ?_ ?_
  · with_reducible refine State.enterState_keeps _ _ _ ?_
    with_reducible exact ha1
  · with_reducible exact ha1

theorem wakeRelock_keeps (k : Nat) (s : State) (hs : Mem Q s) : Mem Q (wakeRelock k s) := by
  unfold wakeRelock
  extract_lets -merge +onlyGivenNames a1 a2 a3
  have ha1 : Mem Q a1 := by
    subst a1
    with_reducible refine State.advanceTo_keeps _ _ ?_
    with_reducible refine State.drawn_keeps _ ?_
    with_reducible exact hs
  try clear_value a1
  have ha2 : Mem Q a2 := by
    subst a2
    with_reducible refine State.enterState_keeps _ _ _ ?_
    with_reducible exact ha1
  try clear_value a2
  try clear_value a3
  with_reducible refine keep_ite ?_ ?_
  · with_reducible refine State.setPort_keeps _ _ _ ?_
    with_reducible exact ha2
  · with_reducible exact hs

theorem trainEnd_keeps (k : Nat) (inverted : Byte) (errors : Nat) (s : State) (hs : Mem Q s) : Mem Q (trainEnd k inverted errors s) := by
  unfold trainEnd
  extract_lets -merge +onlyGivenNames a1 a2 a3 a4 a5 a6 a7
  try clear_value a1
  try clear_value a2
  have ha3 : Mem Q a3 := by
    subst a3
    with_reducible refine State.advanceTo_keeps _ _ ?_
    with_reducible exact hs
  try clear_value a3
  have ha4 : Mem Q a4 := by
    subst a4
    with_reducible refine State.wr_keeps _ _ _ ?_
    with_reducible exact ha3
  try clear_value a4
  have ha5 : Mem Q a5 := by
    subst a5
    with_reducible refine keep_ite ?_ ?_
    · with_reducible refine State.wrHard_keeps _ _ _ ?_
      with_reducible exact ha4
    · with_reducible exact ha4
  try clear_value a5
  have ha6 : Mem Q a6 := by
    subst a6
    with_reducible refine State.enterState_keeps _ _ _ ?_
    with_reducible exact ha5
  try clear_value a6
  try clear_value a7
  with_reducible refine keep_ite ?_ ?_
  · with_reducible refine State.setPort_keeps _ _ _ ?_
    with_reducible exact ha6
  · with_reducible exact hs

theorem execTrlEnable_keeps (port : Nat) (s : State) (hs : Mem Q s) : OutMem Q (execTrlEnable port s) := by
  unfold execTrlEnable
  with_reducible refine onLive_keeps _ _ ?_ ?_
  · with_reducible exact hs
  · intro x1 h1
    with_reducible refine onPort_keeps _ _ _ ?_ ?_
    · intro x2 h2
      with_reducible refine trlEnable_keeps _ _ ?_
      with_reducible exact h2
    · with_reducible exact h1

theorem State.wake_keeps (s : State) (k : Nat) (hs : Mem Q s) : Mem Q (State.wake s k) := by
  unfold State.wake
  extract_lets -merge +onlyGivenNames a1 a2
  try clear_value a1
  have ha2 : Mem Q a2 := by
    subst a2
    with_reducible refine State.setPort_keeps _ _ _ ?_
    with_reducible exact hs
  try clear_value a2
  with_reducible refine keep_ite ?_ ?_
  · with_reducible refine keep_ite ?_ ?_
    · with_reducible exact ha2
    · with_reducible refine State.emit_keeps _ _ ?_
      with_reducible exact ha2
  · with_reducible exact hs

theorem execTrainEnd_keeps (port : Nat) (inverted : Byte) (prbsErrors : Nat) (s : State) (hs : Mem Q s) : OutMem Q (execTrainEnd port inverted prbsErrors s) := by
  unfold execTrainEnd
  with_reducible refine onLive_keeps _ _ ?_ ?_
  · with_reducible exact hs
  · intro x1 h1
    with_reducible refine onPort_keeps _ _ _ ?_ ?_
    · intro x2 h2
      with_reducible refine trainEnd_keeps _ _ _ _ ?_
      with_reducible exact h2
    · with_reducible exact h1

theorem State.wakeAll_keeps (s : State) (k : Nat) (hs : Mem Q s) : Mem Q (State.wakeAll s k) := by
  unfold State.wakeAll
  extract_lets -merge +onlyGivenNames a1
  have ha1 : Mem Q a1 := by
    subst a1
    with_reducible refine State.wake_keeps _ _ ?_
    with_reducible exact hs
  try clear_value a1
  with_reducible refine keep_ite ?_ ?_
  · with_reducible refine State.wake_keeps _ _ ?_
    with_reducible exact ha1
  · with_reducible exact ha1

theorem detectSense_keeps (k : Nat) (sensed : Bool) (s : State) (hs : Mem Q s) : Mem Q (detectSense k sensed s) := by
  unfold detectSense
  extract_lets -merge +onlyGivenNames a1 a2 a3 a4 a5 a6
  try clear_value a1
  try clear_value a2
  try clear_value a3
  have ha4 : Mem Q a4 := by
    subst a4
    with_reducible refine State.advanceTo_keeps _ _ ?_
    with_reducible exact hs
  try clear_value a4
  have ha5 : Mem Q a5 := by
    subst a5
    with_reducible refine State.enterState_keeps _ _ _ ?_
    with_reducible exact ha4
  try clear_value a5
  try clear_value a6
  with_reducible refine keep_ite ?_ ?_
  · with_reducible refine keep_ite ?_ ?_
    · with_reducible refine State.setPort_keeps _ _ _ ?_
      with_reducible exact ha5
    · with_reducible refine State.setPort_keeps _ _ _ ?_
      with_reducible exact ha4
  · with_reducible exact hs

theorem execWakeRelock_keeps (port : Nat) (s : State) (hs : Mem Q s) : OutMem Q (execWakeRelock port s) := by
  unfold execWakeRelock
  with_reducible refine onLive_keeps _ _ ?_ ?_
  · with_reducible exact hs
  · intro x1 h1
    with_reducible refine onPort_keeps _ _ _ ?_ ?_
    · intro x2 h2
      with_reducible refine wakeRelock_keeps _ _ ?_
      with_reducible exact h2
    · with_reducible exact h1

theorem State.exitActive_keeps (s : State) (k : Nat) (cause : Nat) (nxt : Nat) (hs : Mem Q s) : Mem Q (State.exitActive s k cause nxt) := by
  unfold State.exitActive
  extract_lets -merge +onlyGivenNames a1 a2 a3
  have ha1 : Mem Q a1 := by
    subst a1
    with_reducible refine keep_ite ?_ ?_
    · with_reducible refine State.inc_keeps _ _ ?_
      with_reducible exact hs
    · with_reducible exact hs
  try clear_value a1
  have ha2 : Mem Q a2 := by
    subst a2
    with_reducible refine State.wr_keeps _ _ _ ?_
    with_reducible refine State.dropPort_keeps _ _ _ ?_
    with_reducible exact ha1
  try clear_value a2
  try clear_value a3
  with_reducible refine keep_ite ?_ ?_
  · with_reducible exact hs
  · with_reducible refine State.setPort_keeps _ _ _ ?_
    with_reducible exact ha2

theorem dormantClear_keeps (k : Nat) (s : State) (hs : Mem Q s) : Mem Q (dormantClear k s) := by
  unfold dormantClear
  extract_lets -merge +onlyGivenNames a1 a2 a3
  have ha1 : Mem Q a1 := by
    subst a1
    with_reducible refine State.wr_keeps _ _ _ ?_
    with_reducible exact hs
  try clear_value a1
  try clear_value a2
  have ha3 : Mem Q a3 := by
    subst a3
    with_reducible refine keep_ite ?_ ?_
    · with_reducible refine State.setPort_keeps _ _ _ ?_
      with_reducible exact ha1
    · with_reducible exact ha1
  try clear_value a3
  with_reducible refine State.wakeAll_keeps _ _ ?_
  with_reducible exact ha3

theorem execDetectSense_keeps (port : Nat) (sensed : Bool) (s : State) (hs : Mem Q s) : OutMem Q (execDetectSense port sensed s) := by
  unfold execDetectSense
  with_reducible refine onLive_keeps _ _ ?_ ?_
  · with_reducible exact hs
  · intro x1 h1
    with_reducible refine onPort_keeps _ _ _ ?_ ?_
    · intro x2 h2
      with_reducible refine detectSense_keeps _ _ _ ?_
      with_reducible exact h2
    · with_reducible exact h1

theorem prbsDetect_keeps (k : Nat) (s : State) (hs : Mem Q s) : Mem Q (prbsDetect k s) := by
  unfold prbsDetect
  extract_lets -merge +onlyGivenNames a1 a2 a3 a4
  try clear_value a1
  try clear_value a2
  have ha3 : Mem Q a3 := by
    subst a3
    with_reducible refine State.wr_keeps _ _ _ ?_
    with_reducible refine State.dropPort_keeps _ _ _ ?_
    with_reducible exact hs
  try clear_value a3
  try clear_value a4
  with_reducible refine keep_ite ?_ ?_
  · with_reducible refine keep_ite ?_ ?_
    · with_reducible exact hs
    · with_reducible refine State.wr_keeps _ _ _ ?_
      with_reducible refine State.setPort_keeps _ _ _ ?_
      with_reducible exact hs
  · with_reducible refine keep_ite ?_ ?_
    · with_reducible refine State.setPort_keeps _ _ _ ?_
      with_reducible exact ha3
    · with_reducible exact hs

theorem State.toDormant_keeps (s : State) (k : Nat) (hs : Mem Q s) : Mem Q (State.toDormant s k) := by
  unfold State.toDormant
  extract_lets -merge +onlyGivenNames a1 a2 a3 a4 a5 a6
  try clear_value a1
  try clear_value a2
  have ha3 : Mem Q a3 := by
    subst a3
    with_reducible refine keep_ite ?_ ?_
    · with_reducible refine State.inc_keeps _ _ ?_
      with_reducible exact hs
    · with_reducible exact hs
  try clear_value a3
  have ha4 : Mem Q a4 := by
    subst a4
    with_reducible refine keep_ite ?_ ?_
    · with_reducible refine State.wr_keeps _ _ _ ?_
      with_reducible exact ha3
    · with_reducible exact ha3
  try clear_value a4
  have ha5 : Mem Q a5 := by
    subst a5
    with_reducible refine State.dropPort_keeps _ _ _ ?_
    with_reducible exact ha4
  try clear_value a5
  try clear_value a6
  with_reducible refine State.setPort_keeps _ _ _ ?_
  with_reducible exact ha5

theorem execDormantClear_keeps (port : Nat) (s : State) (hs : Mem Q s) : OutMem Q (execDormantClear port s) := by
  unfold execDormantClear
  with_reducible refine onLive_keeps _ _ ?_ ?_
  · with_reducible exact hs
  · intro x1 h1
    with_reducible refine onPort_keeps _ _ _ ?_ ?_
    · intro x2 h2
      with_reducible refine dormantClear_keeps _ _ ?_
      with_reducible exact h2
    · with_reducible exact h1

theorem execPrbsDetect_keeps (port : Nat) (s : State) (hs : Mem Q s) : OutMem Q (execPrbsDetect port s) := by
  unfold execPrbsDetect
  with_reducible refine onLive_keeps _ _ ?_ ?_
  · with_reducible exact hs
  · intro x1 h1
    with_reducible refine onPort_keeps _ _ _ ?_ ?_
    · intro x2 h2
      with_reducible refine prbsDetect_keeps _ _ ?_
      with_reducible exact h2
    · with_reducible exact h1

theorem State.sleep_keeps (s : State) (k : Nat) (own : Bool) (hs : Mem Q s) : Mem Q (State.sleep s k own) := by
  unfold State.sleep
  extract_lets -merge +onlyGivenNames a1
  try clear_value a1
  with_reducible refine keep_ite ?_ ?_
  · with_reducible refine State.setPort_keeps _ _ _ ?_
    with_reducible exact hs
  · with_reducible refine State.toDormant_keeps _ _ ?_
    with_reducible exact hs

theorem dormantEnter_keeps (k : Nat) (s : State) (hs : Mem Q s) : Mem Q (dormantEnter k s) := by
  unfold dormantEnter
  extract_lets -merge +onlyGivenNames a1 a2
  have ha1 : Mem Q a1 := by
    subst a1
    with_reducible refine State.wr_keeps _ _ _ ?_
    with_reducible exact hs
  try clear_value a1
  try clear_value a2
  with_reducible refine keep_ite ?_ ?_
  · with_reducible exact ha1
  · with_reducible refine keep_ite ?_ ?_
    · with_reducible refine State.setPort_keeps _ _ _ ?_
      with_reducible exact ha1
    · with_reducible refine State.sleep_keeps _ _ _ ?_
      with_reducible exact ha1

theorem execDormantEnter_keeps (port : Nat) (s : State) (hs : Mem Q s) : OutMem Q (execDormantEnter port s) := by
  unfold execDormantEnter
  with_reducible refine onLive_keeps _ _ ?_ ?_
  · with_reducible exact hs
  · intro x1 h1
    with_reducible refine onPort_keeps _ _ _ ?_ ?_
    · intro x2 h2
      with_reducible refine dormantEnter_keeps _ _ ?_
      with_reducible exact h2
    · with_reducible exact h1

theorem wakeDetect_keeps (k : Nat) (s : State) (hs : Mem Q s) : Mem Q (wakeDetect k s) := by
  unfold wakeDetect
  with_reducible refine keep_ite ?_ ?_
  · with_reducible refine keep_ite ?_ ?_
    · with_reducible refine State.detect_keeps _ _ ?_
      with_reducible exact hs
    · with_reducible refine State.wakeAll_keeps _ _ ?_
      with_reducible exact hs
  · with_reducible exact hs

theorem execWakeDetect_keeps (port : Nat) (s : State) (hs : Mem Q s) : OutMem Q (execWakeDetect port s) := by
  unfold execWakeDetect
  with_reducible refine onLive_keeps _ _ ?_ ?_
  · with_reducible exact hs
  · intro x1 h1
    with_reducible refine onPort_keeps _ _ _ ?_ ?_
    · intro x2 h2
      with_reducible refine wakeDetect_keeps _ _ ?_
      with_reducible exact h2
    · with_reducible exact h1

theorem State.bringupFail_keeps (s : State) (k : Nat) (hs : Mem Q s) : Mem Q (State.bringupFail s k) := by
  unfold State.bringupFail
  with_reducible refine State.detect_keeps _ _ ?_
  with_reducible refine State.wr_keeps _ _ _ ?_
  with_reducible refine State.dropPort_keeps _ _ _ ?_
  with_reducible exact hs

theorem blockLock_keeps (k : Nat) (rx : List (List Block)) (s : State) (hs : Mem Q s) : Mem Q (blockLock k rx s) := by
  unfold blockLock
  extract_lets -merge +onlyGivenNames a1 a2
  try clear_value a1
  have ha2 : Mem Q a2 := by
    subst a2
    with_reducible refine State.takeBlocks_keeps _ _ _ ?_
    with_reducible exact hs
  try clear_value a2
  with_reducible refine keep_ite ?_ ?_
  · with_reducible refine keep_ite ?_ ?_
    · with_reducible refine State.bringupFail_keeps _ _ ?_
      with_reducible exact ha2
    · with_reducible refine keep_ite ?_ ?_
      · with_reducible refine State.enterState_keeps _ _ _ ?_
        with_reducible refine State.wr_keeps _ _ _ ?_
        with_reducible refine State.wr_keeps _ _ _ ?_
        with_reducible exact ha2
      · with_reducible exact ha2
  · with_reducible refine State.takeBlocks_keeps _ _ _ ?_
    with_reducible exact hs

theorem State.setTileId_keeps (s : State) (id : Nat) (src : Nat) (hs : Mem Q s) : Mem Q (State.setTileId s id src) := by
  unfold State.setTileId
  extract_lets -merge +onlyGivenNames a1 a2
  have ha1 : Mem Q a1 := by
    subst a1
    with_reducible refine State.wr_keeps _ _ _ ?_
    with_reducible refine State.wr_keeps _ _ _ ?_
    with_reducible refine State.wr_keeps _ _ _ ?_
    with_reducible exact hs
  try clear_value a1
  have ha2 : Mem Q a2 := by
    subst a2
    with_reducible refine State.wr_keeps _ _ _ ?_
    with_reducible refine State.wr_keeps _ _ _ ?_
    with_reducible exact ha1
  try clear_value a2
  with_reducible refine State.detect_keeps _ _ ?_
  with_reducible refine State.refreshReady_keeps _ ?_
  with_reducible exact ha2

theorem timeout_keeps (k : Nat) (st : Nat) (cycles : Nat) (rx : List (List Block)) (s : State) (hs : Mem Q s) : Mem Q (timeout k st cycles rx s) := by
  unfold timeout
  extract_lets -merge +onlyGivenNames a1
  have ha1 : Mem Q a1 := by
    subst a1
    with_reducible refine State.takeBlocks_keeps _ _ _ ?_
    with_reducible exact hs
  try clear_value a1
  with_reducible refine keep_ite ?_ ?_
  · with_reducible refine State.bringupFail_keeps _ _ ?_
    with_reducible refine State.advanceTo_keeps _ _ ?_
    with_reducible exact ha1
  · with_reducible exact ha1

theorem execLockTimeout_keeps (port : Nat) (rx : List (List Block)) (s : State) (hs : Mem Q s) : OutMem Q (execLockTimeout port rx s) := by
  unfold execLockTimeout
  with_reducible refine onLive_keeps _ _ ?_ ?_
  · with_reducible exact hs
  · intro x1 h1
    with_reducible refine onPort_keeps _ _ _ ?_ ?_
    · intro x2 h2
      with_reducible refine timeout_keeps _ _ _ _ _ ?_
      with_reducible exact h2
    · with_reducible exact h1

theorem capabilityAccept_keeps (k : Nat) (c1 : Bytes) (c2 : Bytes) (rx : List (List Block)) (s : State) (hs : Mem Q s) : Mem Q (capabilityAccept k c1 c2 rx s) := by
  unfold capabilityAccept
  extract_lets -merge +onlyGivenNames a1 a2 a3 a4 a5 a6 a7 a8
  have ha1 : Mem Q a1 := by
    subst a1
    with_reducible refine State.takeBlocks_keeps _ _ _ ?_
    with_reducible exact hs
  try clear_value a1
  have ha2 : Mem Q a2 := by
    subst a2
    with_reducible refine State.detectIf_keeps _ _ _ ?_
    with_reducible exact ha1
  try clear_value a2
  have ha3 : Mem Q a3 := by
    subst a3
    refine keep_foldl ?_ ?_
    · with_reducible exact ha2
    · intro x1 x2 h1
      with_reducible refine State.wr_keeps _ _ _ ?_
      with_reducible exact h1
  try clear_value a3
  try clear_value a4
  have ha5 : Mem Q a5 := by
    subst a5
    with_reducible refine State.setPort_keeps _ _ _ ?_
    with_reducible exact ha3
  try clear_value a5
  try clear_value a6
  have ha7 : Mem Q a7 := by
    subst a7
    with_reducible refine State.wr_keeps _ _ _ ?_
    with_reducible refine State.wr_keeps _ _ _ ?_
    with_reducible exact ha5
  try clear_value a7
  have ha8 : Mem Q a8 := by
    subst a8
    with_reducible refine State.wr_keeps _ _ _ ?_
    with_reducible refine State.wr_keeps _ _ _ ?_
    with_reducible exact ha7
  try clear_value a8
  with_reducible refine keep_ite ?_ ?_
  · with_reducible exact ha1
  · with_reducible refine keep_ite ?_ ?_
    · with_reducible refine State.bringupFail_keeps _ _ ?_
      with_reducible exact ha1
    · with_reducible refine keep_ite ?_ ?_
      · with_reducible exact ha2
      · with_reducible refine State.detectIf_keeps _ _ _ ?_
        with_reducible refine State.refreshPort_keeps _ _ ?_
        with_reducible exact ha8

theorem deskewDone_keeps (k : Nat) (r1 : List (Nat × Block)) (r2 : List (Nat × Block)) (rx : List (List Block)) (s : State) (hs : Mem Q s) : Mem Q (deskewDone k r1 r2 rx s) := by
  unfold deskewDone
  extract_lets -merge +onlyGivenNames a1 a2 a3 a4 a5
  have ha1 : Mem Q a1 := by
    subst a1
    with_reducible refine State.takeBlocks_keeps _ _ _ ?_
    with_reducible exact hs
  try clear_value a1
  try clear_value a2
  have ha3 : Mem Q a3 := by
    subst a3
    with_reducible refine State.wr_keeps _ _ _ ?_
    with_reducible refine State.wr_keeps _ _ _ ?_
    with_reducible refine State.wr_keeps _ _ _ ?_
    with_reducible exact ha1
  try clear_value a3
  have ha4 : Mem Q a4 := by
    subst a4
    with_reducible refine State.enterState_keeps _ _ _ ?_
    with_reducible refine State.wr_keeps _ _ _ ?_
    with_reducible exact ha3
  try clear_value a4
  try clear_value a5
  with_reducible refine keep_ite ?_ ?_
  · with_reducible refine keep_ite ?_ ?_
    · with_reducible refine State.bringupFail_keeps _ _ ?_
      with_reducible exact ha1
    · with_reducible refine keep_ite ?_ ?_
      · with_reducible refine State.setPort_keeps _ _ _ ?_
        with_reducible exact ha4
      · with_reducible exact ha1
  · with_reducible exact ha1

theorem execCapTimeout_keeps (port : Nat) (rx : List (List Block)) (s : State) (hs : Mem Q s) : OutMem Q (execCapTimeout port rx s) := by
  unfold execCapTimeout
  with_reducible refine onLive_keeps _ _ ?_ ?_
  · with_reducible exact hs
  · intro x1 h1
    with_reducible refine onPort_keeps _ _ _ ?_ ?_
    · intro x2 h2
      with_reducible refine timeout_keeps _ _ _ _ _ ?_
      with_reducible exact h2
    · with_reducible exact h1

theorem execDeskewTimeout_keeps (port : Nat) (rx : List (List Block)) (s : State) (hs : Mem Q s) : OutMem Q (execDeskewTimeout port rx s) := by
  unfold execDeskewTimeout
  with_reducible refine onLive_keeps _ _ ?_ ?_
  · with_reducible exact hs
  · intro x1 h1
    with_reducible refine onPort_keeps _ _ _ ?_ ?_
    · intro x2 h2
      with_reducible refine timeout_keeps _ _ _ _ _ ?_
      with_reducible exact h2
    · with_reducible exact h1

theorem execBlockLock_keeps (port : Nat) (rx : List (List Block)) (s : State) (hs : Mem Q s) : OutMem Q (execBlockLock port rx s) := by
  unfold execBlockLock
  with_reducible refine onLive_keeps _ _ ?_ ?_
  · with_reducible exact hs
  · intro x1 h1
    with_reducible refine onPort_keeps _ _ _ ?_ ?_
    · intro x2 h2
      with_reducible refine blockLock_keeps _ _ _ ?_
      with_reducible exact h2
    · with_reducible exact h1

theorem execCapabilityAccept_keeps (port : Nat) (copy1 : Bytes) (copy2 : Bytes) (rx : List (List Block)) (s : State) (hs : Mem Q s) : OutMem Q (execCapabilityAccept port copy1 copy2 rx s) := by
  unfold execCapabilityAccept
  with_reducible refine onLive_keeps _ _ ?_ ?_
  · with_reducible exact hs
  · intro x1 h1
    with_reducible refine onPort_keeps _ _ _ ?_ ?_
    · intro x2 h2
      with_reducible refine capabilityAccept_keeps _ _ _ _ _ ?_
      with_reducible exact h2
    · with_reducible exact h1

theorem execDeskewDone_keeps (port : Nat) (round1 : List (Nat × Block)) (round2 : List (Nat × Block)) (rx : List (List Block)) (s : State) (hs : Mem Q s) : OutMem Q (execDeskewDone port round1 round2 rx s) := by
  unfold execDeskewDone
  with_reducible refine onLive_keeps _ _ ?_ ?_
  · with_reducible exact hs
  · intro x1 h1
    with_reducible refine onPort_keeps _ _ _ ?_ ?_
    · intro x2 h2
      with_reducible refine deskewDone_keeps _ _ _ _ _ ?_
      with_reducible exact h2
    · with_reducible exact h1

theorem peerSleep_keeps (k : Nat) (s : State) (hs : Mem Q s) : Mem Q (peerSleep k s) := by
  unfold peerSleep
  extract_lets -merge +onlyGivenNames a1 a2
  have ha1 : Mem Q a1 := by
    subst a1
    with_reducible refine State.detect_keeps _ _ ?_
    with_reducible refine State.toDormant_keeps _ _ ?_
    with_reducible exact hs
  try clear_value a1
  have ha2 : Mem Q a2 := by
    subst a2
    with_reducible refine keep_ite ?_ ?_
    · with_reducible refine State.sleep_keeps _ _ _ ?_
      with_reducible exact ha1
    · with_reducible exact ha1
  try clear_value a2
  with_reducible refine keep_ite ?_ ?_
  · with_reducible exact hs
  · with_reducible refine State.feedUpdate_keeps _ ?_
    with_reducible exact ha2

theorem trlDisable_keeps (k : Nat) (s : State) (hs : Mem Q s) : Mem Q (trlDisable k s) := by
  unfold trlDisable
  extract_lets -merge +onlyGivenNames a1 a2 a3
  try clear_value a1
  have ha2 : Mem Q a2 := by
    subst a2
    with_reducible refine State.wr_keeps _ _ _ ?_
    with_reducible exact hs
  try clear_value a2
  have ha3 : Mem Q a3 := by
    subst a3
    with_reducible refine State.wr_keeps _ _ _ ?_
    with_reducible refine State.dropPort_keeps _ _ _ ?_
    with_reducible exact ha2
  try clear_value a3
  with_reducible refine keep_ite ?_ ?_
  · with_reducible refine State.feedUpdate_keeps _ ?_
    with_reducible exact ha3
  · with_reducible exact ha3

theorem State.closeDown_keeps (s : State) (k : Nat) (hs : Mem Q s) : Mem Q (State.closeDown s k) := by
  unfold State.closeDown
  extract_lets -merge +onlyGivenNames a1
  have ha1 : Mem Q a1 := by
    subst a1
    with_reducible refine State.advance_keeps _ _ ?_
    with_reducible refine State.sendStripes_keeps _ _ _ _ _ ?_
    with_reducible exact hs
  try clear_value a1
  with_reducible refine State.feedUpdate_keeps _ ?_
  with_reducible refine State.toDormant_keeps _ _ ?_
  with_reducible exact ha1

theorem execTrlDisable_keeps (port : Nat) (s : State) (hs : Mem Q s) : OutMem Q (execTrlDisable port s) := by
  unfold execTrlDisable
  with_reducible refine onLive_keeps _ _ ?_ ?_
  · with_reducible exact hs
  · intro x1 h1
    with_reducible refine onPort_keeps _ _ _ ?_ ?_
    · intro x2 h2
      with_reducible refine trlDisable_keeps _ _ ?_
      with_reducible exact h2
    · with_reducible exact h1

theorem retrain_keeps (k : Nat) (s : State) (hs : Mem Q s) : Mem Q (retrain k s) := by
  unfold retrain
  extract_lets -merge +onlyGivenNames a1
  try clear_value a1
  with_reducible refine keep_ite ?_ ?_
  · with_reducible exact hs
  · with_reducible refine State.feedUpdate_keeps _ ?_
    with_reducible refine State.exitActive_keeps _ _ _ _ ?_
    with_reducible exact hs

theorem linkEvent_keeps (k : Nat) (cause : Nat) (nxt : Nat) (early : Bool) (e : Nat × Nat) (s : State) (hs : Mem Q s) : Mem Q (linkEvent k cause nxt early e s) := by
  unfold linkEvent
  extract_lets -merge +onlyGivenNames a1
  try clear_value a1
  with_reducible refine keep_ite ?_ ?_
  · with_reducible refine State.feedUpdate_keeps _ ?_
    with_reducible refine State.detect_keeps _ _ ?_
    with_reducible refine State.exitActive_keeps _ _ _ _ ?_
    with_reducible exact hs
  · with_reducible exact hs

theorem execSignalLoss_keeps (port : Nat) (s : State) (hs : Mem Q s) : OutMem Q (execSignalLoss port s) := by
  unfold execSignalLoss
  with_reducible refine onLive_keeps _ _ ?_ ?_
  · with_reducible exact hs
  · intro x1 h1
    with_reducible refine onPort_keeps _ _ _ ?_ ?_
    · intro x2 h2
      with_reducible refine linkEvent_keeps _ _ _ _ _ _ ?_
      with_reducible refine State.wr_keeps _ _ _ ?_
      with_reducible exact h2
    · with_reducible exact h1

theorem execRetrain_keeps (port : Nat) (s : State) (hs : Mem Q s) : OutMem Q (execRetrain port s) := by
  unfold execRetrain
  with_reducible refine onLive_keeps _ _ ?_ ?_
  · with_reducible exact hs
  · intro x1 h1
    with_reducible refine onPort_keeps _ _ _ ?_ ?_
    · intro x2 h2
      with_reducible refine retrain_keeps _ _ ?_
      with_reducible exact h2
    · with_reducible exact h1

theorem State.takePosition_keeps (s : State) (k : Nat) (hs : Mem Q s) : Mem Q (State.takePosition s k) := by
  unfold State.takePosition
  extract_lets -merge +onlyGivenNames a1
  try clear_value a1
  with_reducible refine keep_ite ?_ ?_
  · with_reducible exact hs
  · split <;> first
      | (with_reducible exact hs)
      | (extract_lets -merge +onlyGivenNames a2 a3
         have ha2 : Mem Q a2 := by
           subst a2
           with_reducible refine State.setTileId_keeps _ _ _ ?_
           with_reducible exact hs
         try clear_value a2
         try clear_value a3
         with_reducible refine keep_ite ?_ ?_
         · with_reducible refine retrain_keeps _ _ ?_
           with_reducible exact ha2
         · with_reducible exact ha2)

theorem lockLoss_keeps (k : Nat) (rx : List (List Block)) (s : State) (hs : Mem Q s) : Mem Q (lockLoss k rx s) := by
  unfold lockLoss
  extract_lets -merge +onlyGivenNames a1 a2
  try clear_value a1
  have ha2 : Mem Q a2 := by
    subst a2
    with_reducible refine State.takeBlocks_keeps _ _ _ ?_
    with_reducible exact hs
  try clear_value a2
  with_reducible refine keep_ite ?_ ?_
  · with_reducible refine linkEvent_keeps _ _ _ _ _ _ ?_
    with_reducible exact ha2
  · with_reducible exact ha2

theorem execLockLoss_keeps (port : Nat) (rx : List (List Block)) (s : State) (hs : Mem Q s) : OutMem Q (execLockLoss port rx s) := by
  unfold execLockLoss
  with_reducible refine onLive_keeps _ _ ?_ ?_
  · with_reducible exact hs
  · intro x1 h1
    with_reducible refine onPort_keeps _ _ _ ?_ ?_
    · intro x2 h2
      with_reducible refine lockLoss_keeps _ _ _ ?_
      with_reducible exact h2
    · with_reducible exact h1

theorem hiBer_keeps (k : Nat) (s : State) (hs : Mem Q s) : Mem Q (hiBer k s) := by
  unfold hiBer
  with_reducible refine keep_ite ?_ ?_
  · with_reducible refine linkEvent_keeps _ _ _ _ _ _ ?_
    with_reducible exact hs
  · with_reducible exact hs

theorem deskewLoss_keeps (k : Nat) (r1 : List (Nat × Block)) (r2 : List (Nat × Block)) (rx : List (List Block)) (s : State) (hs : Mem Q s) : Mem Q (deskewLoss k r1 r2 rx s) := by
  unfold deskewLoss
  extract_lets -merge +onlyGivenNames a1 a2
  try clear_value a1
  have ha2 : Mem Q a2 := by
    subst a2
    with_reducible refine State.takeBlocks_keeps _ _ _ ?_
    with_reducible exact hs
  try clear_value a2
  with_reducible refine keep_ite ?_ ?_
  · with_reducible refine linkEvent_keeps _ _ _ _ _ _ ?_
    with_reducible exact ha2
  · with_reducible exact ha2

theorem portActive_keeps (k : Nat) (s : State) (hs : Mem Q s) : Mem Q (portActive k s) := by
  unfold portActive
  extract_lets -merge +onlyGivenNames a1 a2 a3 a4 a5 a6 a7 a8 a9 a10
  have ha1 : Mem Q a1 := by
    subst a1
    with_reducible refine State.advanceTo_keeps _ _ ?_
    with_reducible exact hs
  try clear_value a1
  have ha2 : Mem Q a2 := by
    subst a2
    with_reducible refine State.keepCap_keeps _ _ ?_
    with_reducible exact ha1
  try clear_value a2
  have ha3 : Mem Q a3 := by
    subst a3
    with_reducible refine State.enterState_keeps _ _ _ ?_
    with_reducible exact ha2
  try clear_value a3
  try clear_value a4
  have ha5 : Mem Q a5 := by
    subst a5
    with_reducible refine State.setPort_keeps _ _ _ ?_
    with_reducible exact ha3
  try clear_value a5
  try clear_value a6
  try clear_value a7
  try clear_value a8
  have ha9 : Mem Q a9 := by
    subst a9
    with_reducible refine keep_ite ?_ ?_
    · with_reducible refine State.slewTo_keeps _ _ ?_
      with_reducible exact ha5
    · with_reducible exact ha5
  try clear_value a9
  have ha10 : Mem Q a10 := by
    subst a10
    with_reducible refine State.rootChanged_keeps _ ?_
    with_reducible exact ha9
  try clear_value a10
  with_reducible refine keep_ite ?_ ?_
  · with_reducible exact hs
  · with_reducible refine keep_ite ?_ ?_
    · with_reducible refine State.bringupFail_keeps _ _ ?_
      with_reducible exact hs
    · with_reducible refine State.feedUpdate_keeps _ ?_
      with_reducible refine State.takePosition_keeps _ _ ?_
      with_reducible exact ha10

theorem execDeskewLoss_keeps (port : Nat) (round1 : List (Nat × Block)) (round2 : List (Nat × Block)) (rx : List (List Block)) (s : State) (hs : Mem Q s) : OutMem Q (execDeskewLoss port round1 round2 rx s) := by
  unfold execDeskewLoss
  with_reducible refine onLive_keeps _ _ ?_ ?_
  · with_reducible exact hs
  · intro x1 h1
    with_reducible refine onPort_keeps _ _ _ ?_ ?_
    · intro x2 h2
      with_reducible refine deskewLoss_keeps _ _ _ _ _ ?_
      with_reducible exact h2
    · with_reducible exact h1

theorem execHiBer_keeps (port : Nat) (s : State) (hs : Mem Q s) : OutMem Q (execHiBer port s) := by
  unfold execHiBer
  with_reducible refine onLive_keeps _ _ ?_ ?_
  · with_reducible exact hs
  · intro x1 h1
    with_reducible refine onPort_keeps _ _ _ ?_ ?_
    · intro x2 h2
      with_reducible refine hiBer_keeps _ _ ?_
      with_reducible exact h2
    · with_reducible exact h1

end Sys2Proof.Machine
end

