-- ==== Sys2Proof/Laws/KeepsCanopy.lean ====
section
/-! SUPPORT. The operations and meanings of Canopy, Branch, Trim, Tile keep any property of the stores and the straps that the writes they
make keep (see Laws/Memory.lean). -/

namespace Sys2Proof.Machine

variable {Q : Store → Store → StrapBalls → Prop}

theorem State.noteBands_keeps (s : State) (f : Word) (bs : List Nat) (hs : Mem Q s) : Mem Q (State.noteBands s f bs) := by
  unfold State.noteBands
  extract_lets -merge +onlyGivenNames a1 a2
  try clear_value a1
  try clear_value a2
  with_reducible refine keep_ite ?_ ?_
  · unfold Mem; dsimp only; refine mem_in ?_
    with_reducible exact hs
  · with_reducible exact hs

theorem State.queueTruth_keeps (s : State) (pl : Place) (frame : Word) (vals : List (Nat × Nat)) (hs : Mem Q s) : Mem Q (State.queueTruth s pl frame vals) := by
  unfold State.queueTruth
  extract_lets -merge +onlyGivenNames a1 a2
  try clear_value a1
  try clear_value a2
  split <;> first
    | (with_reducible exact hs)
    | (extract_lets -merge +onlyGivenNames a3 a4 a5 a6 a7
       try clear_value a3
       try clear_value a4
       try clear_value a5
       try clear_value a6
       try clear_value a7
       with_reducible refine keep_ite ?_ ?_
       · with_reducible exact hs
       · unfold Mem; dsimp only; refine mem_in ?_
         with_reducible exact hs)

theorem State.noteValue_keeps (s : State) (f : Word) (hs : Mem Q s) : Mem Q (State.noteValue s f) := by
  unfold State.noteValue
  extract_lets -merge +onlyGivenNames a1 a2
  try clear_value a1
  try clear_value a2
  with_reducible refine keep_ite ?_ ?_
  · unfold Mem; dsimp only; refine mem_in ?_
    with_reducible exact hs
  · with_reducible exact hs

theorem State.setPass_keeps (s : State) (p : Pass) (hs : Mem Q s) : Mem Q (State.setPass s p) := by
  unfold State.setPass
  extract_lets -merge +onlyGivenNames a1
  try clear_value a1
  unfold Mem; dsimp only; refine mem_in ?_
  with_reducible exact hs

theorem State.unitDone_keeps (s : State) (u : Nat) (hs : Mem Q s) : Mem Q (State.unitDone s u) := by
  unfold State.unitDone
  extract_lets -merge +onlyGivenNames a1 a2 a3
  try clear_value a1
  try clear_value a2
  try clear_value a3
  unfold Mem; dsimp only; refine mem_in ?_
  with_reducible exact hs

theorem gladeRelease_keeps (v : Word) (s : State) (hs : Mem Q s) : Mem Q (gladeRelease v s) := by
  unfold gladeRelease
  extract_lets -merge +onlyGivenNames a1
  try clear_value a1
  with_reducible refine keep_ite ?_ ?_
  · with_reducible exact hs
  · unfold Mem; dsimp only; refine mem_in ?_
    with_reducible exact hs

theorem State.setLine_keeps (s : State) (source : Nat) (line : Nat) (l : Line) (hs : Mem Q s) : Mem Q (State.setLine s source line l) := by
  unfold State.setLine
  extract_lets -merge +onlyGivenNames a1
  try clear_value a1
  unfold Mem; dsimp only; refine mem_in ?_
  with_reducible exact hs

theorem execGladeRelease_keeps (v : Word) (s : State) (hs : Mem Q s) : OutMem Q (execGladeRelease v s) := by
  unfold execGladeRelease
  with_reducible refine onLive_keeps _ _ ?_ ?_
  · with_reducible exact hs
  · intro x1 h1
    with_reducible refine gladeRelease_keeps _ _ ?_
    with_reducible exact h1

theorem State.flipBand_keeps (s : State) (b : Nat) (f : Word) (hs : Mem Q s) : Mem Q (State.flipBand s b f) := by
  unfold State.flipBand
  extract_lets -merge +onlyGivenNames a1 a2 a3
  try clear_value a1
  have ha2 : Mem Q a2 := by
    subst a2
    with_reducible refine State.wr_keeps _ _ _ ?_
    with_reducible exact hs
  try clear_value a2
  try clear_value a3
  unfold Mem; dsimp only; refine mem_in ?_
  with_reducible exact ha2

theorem State.swapBands_keeps (s : State) (start : Bool) (hs : Mem Q s) : Mem Q (State.swapBands s start) := by
  unfold State.swapBands
  with_reducible refine keep_ite ?_ ?_
  · refine keep_foldl ?_ ?_
    · with_reducible exact hs
    · intro x1 x2 h1
      with_reducible refine keep_ite ?_ ?_
      · with_reducible refine State.flipBand_keeps _ _ _ ?_
        with_reducible exact h1
      · with_reducible exact h1
  · with_reducible refine keep_ite ?_ ?_
    · refine keep_foldl ?_ ?_
      · with_reducible exact hs
      · intro x3 x4 h2
        with_reducible refine State.flipBand_keeps _ _ _ ?_
        with_reducible exact h2
    · with_reducible exact hs

theorem State.correctLamp_keeps (W : WritesLm Q) (s : State) (p : Pass) (bk : Bank) (pl : Place) (k : Nat) (v : Nat) (hs : Mem Q s) : Mem Q (State.correctLamp s p bk pl k v) := by
  unfold State.correctLamp
  extract_lets -merge +onlyGivenNames a1 a2 a3 a4 a5
  try clear_value a1
  try clear_value a2
  try clear_value a3
  try clear_value a4
  try clear_value a5
  refine keep_foldl ?_ ?_
  · with_reducible exact hs
  · intro x1 x2 h1
    extract_lets -merge +onlyGivenNames a6 a7
    try clear_value a6
    try clear_value a7
    with_reducible refine keep_ite ?_ ?_
    · with_reducible exact h1
    · with_reducible refine State.lmWrite_keeps W _ _ _ ?_
      with_reducible exact h1

theorem State.layersOff_keeps (s : State) (t : Store) (hs : Mem Q s) : Mem Q (State.layersOff s t) := by
  unfold State.layersOff
  refine keep_foldl ?_ ?_
  · with_reducible exact hs
  · intro x1 x2 h1
    with_reducible refine keep_ite ?_ ?_
    · with_reducible exact h1
    · with_reducible refine State.wr_keeps _ _ _ ?_
      with_reducible exact h1

theorem State.endPasses_keeps (s : State) (hs : Mem Q s) : Mem Q (State.endPasses s) := by
  unfold State.endPasses
  extract_lets -merge +onlyGivenNames a1 a2 a3
  try clear_value a1
  try clear_value a2
  have ha3 : Mem Q a3 := by
    subst a3
    unfold Mem; dsimp only; refine mem_in ?_
    with_reducible exact hs
  try clear_value a3
  split <;> first
    | (with_reducible exact hs)
    | (extract_lets -merge +onlyGivenNames a4
       have ha4 : Mem Q a4 := by
         subst a4
         with_reducible refine State.wr_keeps _ _ _ ?_
         with_reducible exact ha3
       try clear_value a4
       with_reducible refine State.retireIfDone_keeps _ ?_
       with_reducible exact ha4)

theorem State.unitGlade_keeps (s : State) (hs : Mem Q s) : Mem Q (State.unitGlade s) := by
  unfold State.unitGlade
  extract_lets -merge +onlyGivenNames a1
  try clear_value a1
  with_reducible refine keep_ite ?_ ?_
  · with_reducible refine State.detect_keeps _ _ ?_
    with_reducible exact hs
  · split <;> first
      | (with_reducible exact hs)
      | (extract_lets -merge +onlyGivenNames a2 a3
         try clear_value a2
         try clear_value a3
         with_reducible refine State.wr_keeps _ _ _ ?_
         unfold Mem; dsimp only; refine mem_in ?_
         with_reducible exact hs)

theorem State.countLayer_keeps (s : State) (i : Nat) (out : Nat) (hs : Mem Q s) : Mem Q (State.countLayer s i out) := by
  unfold State.countLayer
  extract_lets -merge +onlyGivenNames a1 a2 a3 a4
  have ha1 : Mem Q a1 := by
    subst a1
    with_reducible refine State.wr_keeps _ _ _ ?_
    with_reducible exact hs
  try clear_value a1
  try clear_value a2
  have ha3 : Mem Q a3 := by
    subst a3
    with_reducible refine State.detect_keeps _ _ ?_
    with_reducible refine State.inc_keeps _ _ ?_
    with_reducible exact ha1
  try clear_value a3
  try clear_value a4
  with_reducible refine keep_ite ?_ ?_
  · unfold Mem; dsimp only; refine mem_in ?_
    with_reducible exact ha1
  · unfold Mem; dsimp only; refine mem_in ?_
    with_reducible exact ha3

theorem State.storeChunk_keeps (s : State) (source : Nat) (line : Nat) (chunk : Nat) (f : Word) (bytes : Bytes) (hs : Mem Q s) : Mem Q (State.storeChunk s source line chunk f bytes) := by
  unfold State.storeChunk
  extract_lets -merge +onlyGivenNames a1 a2 a3
  try clear_value a1
  try clear_value a2
  have ha3 : Mem Q a3 := by
    subst a3
    with_reducible refine State.detect_keeps _ _ ?_
    with_reducible refine State.inc_keeps _ _ ?_
    with_reducible exact hs
  try clear_value a3
  split <;> first
    | (with_reducible exact hs)
    | (with_reducible refine keep_ite ?_ ?_
       · with_reducible exact hs
       · with_reducible refine keep_ite ?_ ?_
         · unfold Mem; dsimp only; refine mem_in ?_
           with_reducible exact hs
         · with_reducible refine keep_ite ?_ ?_
           · with_reducible refine State.detect_keeps _ _ ?_
             with_reducible refine State.inc_keeps _ _ ?_
             with_reducible exact hs
           · with_reducible refine keep_ite ?_ ?_
             · with_reducible exact ha3
             · split <;> first
                 | (with_reducible refine State.setLine_keeps _ _ _ _ ?_
                    with_reducible exact hs)
                 | (with_reducible refine keep_ite ?_ ?_
                    · with_reducible refine State.setLine_keeps _ _ _ _ ?_
                      with_reducible exact hs
                    · with_reducible refine keep_ite ?_ ?_
                      · with_reducible refine State.setLine_keeps _ _ _ _ ?_
                        with_reducible exact hs
                      · with_reducible exact ha3))

theorem bandAbandon_keeps (b : Nat) (s : State) (hs : Mem Q s) : Mem Q (bandAbandon b s) := by
  unfold bandAbandon
  split <;> first
    | (with_reducible exact hs)
    | (extract_lets -merge +onlyGivenNames a1 a2 a3 a4 a5 a6
       have ha1 : Mem Q a1 := by
         subst a1
         split <;> first
           | (with_reducible refine keep_ite ?_ ?_
              · with_reducible refine State.advanceTo_keeps _ _ ?_
                with_reducible exact hs
              · with_reducible exact hs)
           | (with_reducible exact hs)
       try clear_value a1
       try clear_value a2
       try clear_value a3
       try clear_value a4
       try clear_value a5
       have ha6 : Mem Q a6 := by
         subst a6
         unfold Mem; dsimp only; refine mem_in ?_
         with_reducible exact ha1
       try clear_value a6
       with_reducible refine State.endPasses_keeps _ ?_
       with_reducible refine State.detect_keeps _ _ ?_
       with_reducible exact ha6)

theorem State.verdict_keeps (s : State) (p : Pass) (pl : Place) (i : Nat) (hs : Mem Q s) : Mem Q (State.verdict s p pl i) := by
  unfold State.verdict
  extract_lets -merge +onlyGivenNames a1 a2 a3 a4 a5 a6 a7 a8 a9 a10 a11 a12 a13 a14
  try clear_value a1
  try clear_value a2
  try clear_value a3
  try clear_value a4
  try clear_value a5
  try clear_value a6
  have ha7 : Mem Q a7 := by
    subst a7
    with_reducible refine State.wr_keeps _ _ _ ?_
    with_reducible refine State.wr_keeps _ _ _ ?_
    with_reducible exact hs
  try clear_value a7
  have ha8 : Mem Q a8 := by
    subst a8
    with_reducible refine State.inc_keeps _ _ ?_
    with_reducible refine State.raise_keeps _ _ _ ?_
    with_reducible exact ha7
  try clear_value a8
  have ha9 : Mem Q a9 := by
    subst a9
    with_reducible refine keep_ite ?_ ?_
    · with_reducible refine State.detectIf_keeps _ _ _ ?_
      with_reducible refine State.detect_keeps _ _ ?_
      with_reducible exact ha8
    · with_reducible exact ha7
  try clear_value a9
  try clear_value a10
  try clear_value a11
  try clear_value a12
  try clear_value a13
  have ha14 : Mem Q a14 := by
    subst a14
    with_reducible refine keep_ite ?_ ?_
    · unfold Mem; dsimp only; refine mem_in ?_
      with_reducible exact ha9
    · with_reducible exact ha9
  try clear_value a14
  with_reducible refine State.endPasses_keeps _ ?_
  with_reducible refine State.setPass_keeps _ _ ?_
  with_reducible exact ha14

theorem execBandAbandon_keeps (band : Nat) (s : State) (hs : Mem Q s) : OutMem Q (execBandAbandon band s) := by
  unfold execBandAbandon
  with_reducible refine onRun_keeps _ _ ?_ ?_
  · with_reducible exact hs
  · intro x1 h1
    with_reducible refine bandAbandon_keeps _ _ ?_
    with_reducible exact h1

theorem State.judgeBand_keeps (s : State) (p : Pass) (b : Nat) (hs : Mem Q s) : Mem Q (State.judgeBand s p b) := by
  unfold State.judgeBand
  extract_lets -merge +onlyGivenNames a1
  try clear_value a1
  split <;> first
    | (with_reducible exact hs)
    | (extract_lets -merge +onlyGivenNames a2 a3 a4 a5 a6 a7 a8 a9 a10 a11 a12 a13
       try clear_value a2
       try clear_value a3
       try clear_value a4
       try clear_value a5
       try clear_value a6
       try clear_value a7
       try clear_value a8
       have ha9 : Mem Q a9 := by
         subst a9
         refine keep_foldl ?_ ?_
         · with_reducible refine State.layersOff_keeps _ _ ?_
           with_reducible exact hs
         · intro x1 x2 h1
           with_reducible refine State.detectIf_keeps _ _ _ ?_
           with_reducible refine State.countLayer_keeps _ _ _ ?_
           with_reducible exact h1
       try clear_value a9
       try clear_value a10
       try clear_value a11
       try clear_value a12
       try clear_value a13
       with_reducible refine State.noteValue_keeps _ _ ?_
       unfold Mem; dsimp only; refine mem_in ?_
       with_reducible exact ha9)

theorem bandJudgment_keeps (b : Nat) (s : State) (hs : Mem Q s) : Mem Q (bandJudgment b s) := by
  unfold bandJudgment
  split <;> first
    | (with_reducible exact hs)
    | (split <;> first
         | (with_reducible exact hs)
         | (with_reducible refine keep_ite ?_ ?_
            · with_reducible exact hs
            · with_reducible refine keep_ite ?_ ?_
              · with_reducible refine State.judgeBand_keeps _ _ _ ?_
                with_reducible exact hs
              · with_reducible refine State.judgeBand_keeps _ _ _ ?_
                with_reducible refine State.advanceTo_keeps _ _ ?_
                with_reducible exact hs))

theorem State.blockEcc_keeps (s : State) (c : Bool) (e : Nat × Nat) (hs : Mem Q s) : Mem Q (State.blockEcc s c e) := by
  unfold State.blockEcc
  with_reducible refine keep_ite ?_ ?_
  · with_reducible refine State.lmUncorr_keeps _ ?_
    with_reducible refine State.detect_keeps _ _ ?_
    with_reducible exact hs
  · with_reducible exact hs

theorem State.codesAt_keeps (s : State) (n : Word) (hs : Mem Q s) : Mem Q (State.codesAt s n) := by
  unfold State.codesAt
  extract_lets -merge +onlyGivenNames a1
  try clear_value a1
  split <;> first
    | (with_reducible exact hs)
    | (extract_lets -merge +onlyGivenNames a2 a3
       try clear_value a2
       have ha3 : Mem Q a3 := by
         subst a3
         unfold Mem; dsimp only; refine mem_in ?_
         with_reducible exact hs
       try clear_value a3
       with_reducible refine State.detectIf_keeps _ _ _ ?_
       with_reducible refine State.wr_keeps _ _ _ ?_
       with_reducible exact ha3)

theorem gladeVerdict_keeps (i : Nat) (s : State) (hs : Mem Q s) : Mem Q (gladeVerdict i s) := by
  unfold gladeVerdict
  split <;> first
    | (with_reducible exact hs)
    | (split <;> first
         | (with_reducible exact hs)
         | (with_reducible refine keep_ite ?_ ?_
            · with_reducible refine State.verdict_keeps _ _ _ _ ?_
              with_reducible exact hs
            · with_reducible exact hs))

theorem State.lateCheck_keeps (s : State) (n : Word) (hs : Mem Q s) : Mem Q (State.lateCheck s n) := by
  unfold State.lateCheck
  split <;> first
    | (with_reducible exact hs)
    | (extract_lets -merge +onlyGivenNames a1 a2
       try clear_value a1
       try clear_value a2
       with_reducible refine State.detectIf_keeps _ _ _ ?_
       with_reducible refine State.detectIf_keeps _ _ _ ?_
       with_reducible exact hs)

theorem execBandJudgment_keeps (band : Nat) (s : State) (hs : Mem Q s) : OutMem Q (execBandJudgment band s) := by
  unfold execBandJudgment
  with_reducible refine onRun_keeps _ _ ?_ ?_
  · with_reducible exact hs
  · intro x1 h1
    with_reducible refine bandJudgment_keeps _ _ ?_
    with_reducible exact h1

theorem State.unitCompose_keeps (s : State) (hs : Mem Q s) : Mem Q (State.unitCompose s).2 := by
  unfold State.unitCompose
  extract_lets -merge +onlyGivenNames a1 a2 a3 a4 a5
  try clear_value a1
  try clear_value a2
  try clear_value a3
  have ha4 : Mem Q a4 := by
    subst a4
    unfold Mem; dsimp only; refine mem_in ?_
    with_reducible exact hs
  try clear_value a4
  have ha5 : Mem Q a5 := by
    subst a5
    with_reducible refine State.noteBands_keeps _ _ _ ?_
    with_reducible exact ha4
  try clear_value a5
  with_reducible refine keep_ite2 ?_ ?_
  · with_reducible refine mem_snd ?_
    with_reducible exact hs
  · with_reducible refine keep_ite2 ?_ ?_
    · with_reducible refine mem_snd ?_
      with_reducible exact hs
    · with_reducible refine mem_snd ?_
      with_reducible refine keep_ite ?_ ?_
      · with_reducible exact ha5
      · with_reducible refine State.judgeBand_keeps _ _ _ ?_
        with_reducible exact ha5

theorem execGladeVerdict_keeps (glade : Nat) (s : State) (hs : Mem Q s) : OutMem Q (execGladeVerdict glade s) := by
  unfold execGladeVerdict
  with_reducible refine onRun_keeps _ _ ?_ ?_
  · with_reducible exact hs
  · intro x1 h1
    with_reducible refine gladeVerdict_keeps _ _ ?_
    with_reducible exact h1

theorem substitutionDone_keeps (W : WritesLm Q) (i : Nat) (s : State) (hs : Mem Q s) : Mem Q (substitutionDone i s) := by
  unfold substitutionDone
  split <;> first
    | (with_reducible exact hs)
    | (extract_lets -merge +onlyGivenNames a1
       try clear_value a1
       split <;> first
         | (with_reducible exact hs)
         | (extract_lets -merge +onlyGivenNames a2 a3 a4 a5 a6 a7
            try clear_value a2
            try clear_value a3
            try clear_value a4
            have ha5 : Mem Q a5 := by
              subst a5
              refine keep_foldl ?_ ?_
              · with_reducible exact hs
              · intro x1 x2 h1
                extract_lets -merge +onlyGivenNames a8 a9 a10
                try clear_value a8
                have ha9 : Mem Q a9 := by
                  subst a9
                  with_reducible refine State.correctLamp_keeps W _ _ _ _ _ _ ?_
                  with_reducible exact h1
                try clear_value a9
                try clear_value a10
                unfold Mem; dsimp only; refine mem_in ?_
                with_reducible exact ha9
            try clear_value a5
            have ha6 : Mem Q a6 := by
              subst a6
              with_reducible refine State.blockEcc_keeps _ _ _ ?_
              with_reducible exact ha5
            try clear_value a6
            have ha7 : Mem Q a7 := by
              subst a7
              with_reducible refine State.queueTruth_keeps _ _ _ _ ?_
              with_reducible exact ha6
            try clear_value a7
            with_reducible refine State.endPasses_keeps _ ?_
            with_reducible refine State.setPass_keeps _ _ ?_
            with_reducible exact ha7))

theorem State.composeBand_keeps (W : WritesLm Q) (s : State) (p : Pass) (b : Nat) (bj : BandJ) (hs : Mem Q s) : Mem Q (State.composeBand s p b bj) := by
  unfold State.composeBand
  extract_lets -merge +onlyGivenNames a1
  try clear_value a1
  split <;> first
    | (with_reducible exact hs)
    | (extract_lets -merge +onlyGivenNames a2 a3 a4 a5 a6 a7 a8 a9 a10 a11 a12 a13 a14 a15 a16 a17 a18 a19 a20
       try clear_value a2
       have ha3 : Mem Q a3 := by
         subst a3
         with_reducible refine State.advanceTo_keeps _ _ ?_
         with_reducible exact hs
       try clear_value a3
       try clear_value a4
       try clear_value a5
       try clear_value a6
       try clear_value a7
       try clear_value a8
       have ha9 : Mem Q a9 := by
         subst a9
         refine keep_foldl ?_ ?_
         · with_reducible exact ha3
         · intro x1 x2 h1
           with_reducible refine State.correctLamp_keeps W _ _ _ _ _ _ ?_
           with_reducible exact h1
       try clear_value a9
       have ha10 : Mem Q a10 := by
         subst a10
         with_reducible refine State.detectIf_keeps _ _ _ ?_
         with_reducible refine State.incBy_keeps _ _ _ ?_
         with_reducible exact ha9
       try clear_value a10
       have ha11 : Mem Q a11 := by
         subst a11
         with_reducible refine State.blockEcc_keeps _ _ _ ?_
         with_reducible refine State.blockEcc_keeps _ _ _ ?_
         with_reducible exact ha10
       try clear_value a11
       have ha12 : Mem Q a12 := by
         subst a12
         with_reducible refine State.wr_keeps _ _ _ ?_
         with_reducible refine State.incBy_keeps _ _ _ ?_
         with_reducible exact ha11
       try clear_value a12
       have ha13 : Mem Q a13 := by
         subst a13
         with_reducible refine State.queueTruth_keeps _ _ _ _ ?_
         with_reducible exact ha12
       try clear_value a13
       try clear_value a14
       try clear_value a15
       try clear_value a16
       try clear_value a17
       try clear_value a18
       have ha19 : Mem Q a19 := by
         subst a19
         unfold Mem; dsimp only; refine mem_in ?_
         with_reducible exact ha13
       try clear_value a19
       have ha20 : Mem Q a20 := by
         subst a20
         with_reducible refine State.noteBands_keeps _ _ _ ?_
         with_reducible exact ha19
       try clear_value a20
       with_reducible refine keep_ite ?_ ?_
       · with_reducible refine State.unitDone_keeps _ _ ?_
         with_reducible refine State.unitDone_keeps _ _ ?_
         with_reducible exact ha20
       · with_reducible exact ha20)

theorem State.splitAt_keeps (s : State) (n : Word) (hs : Mem Q s) : Mem Q (State.splitAt s n) := by
  unfold State.splitAt
  extract_lets -merge +onlyGivenNames a1 a2 a3 a4
  try clear_value a1
  try clear_value a2
  have ha3 : Mem Q a3 := by
    subst a3
    with_reducible refine State.blockEcc_keeps _ _ _ ?_
    with_reducible refine State.wr_keeps _ _ _ ?_
    with_reducible refine State.wr_keeps _ _ _ ?_
    with_reducible exact hs
  try clear_value a3
  try clear_value a4
  with_reducible refine keep_ite ?_ ?_
  · unfold Mem; dsimp only; refine mem_in ?_
    with_reducible exact ha3
  · with_reducible exact ha3

theorem State.passDone_keeps (W : WritesLm Q) (s : State) (hs : Mem Q s) : Mem Q (State.passDone s) := by
  unfold State.passDone
  split <;> first
    | (with_reducible refine keep_ite ?_ ?_
       · with_reducible exact hs
       · with_reducible refine State.endPasses_keeps _ ?_
         with_reducible refine State.composeBand_keeps W _ _ _ _ ?_
         with_reducible exact hs)
    | (with_reducible exact hs)

theorem bandComposed_keeps (W : WritesLm Q) (b : Nat) (s : State) (hs : Mem Q s) : Mem Q (bandComposed b s) := by
  unfold bandComposed
  split <;> first
    | (with_reducible refine keep_ite ?_ ?_
       · with_reducible refine State.endPasses_keeps _ ?_
         with_reducible refine State.composeBand_keeps W _ _ _ _ ?_
         with_reducible exact hs
       · with_reducible exact hs)
    | (with_reducible exact hs)

theorem execSubstitutionDone_keeps (W : WritesLm Q) (glade : Nat) (s : State) (hs : Mem Q s) : OutMem Q (execSubstitutionDone glade s) := by
  unfold execSubstitutionDone
  with_reducible refine onRun_keeps _ _ ?_ ?_
  · with_reducible exact hs
  · intro x1 h1
    with_reducible refine substitutionDone_keeps W _ _ ?_
    with_reducible exact h1

theorem execBandComposed_keeps (W : WritesLm Q) (band : Nat) (s : State) (hs : Mem Q s) : OutMem Q (execBandComposed band s) := by
  unfold execBandComposed
  with_reducible refine onRun_keeps _ _ ?_ ?_
  · with_reducible exact hs
  · intro x1 h1
    with_reducible refine bandComposed_keeps W _ _ ?_
    with_reducible exact h1

theorem State.censusAt_keeps (s : State) (n : Word) (hs : Mem Q s) : Mem Q (State.censusAt s n) := by
  unfold State.censusAt
  extract_lets -merge +onlyGivenNames a1 a2
  try clear_value a1
  try clear_value a2
  with_reducible refine keep_ite ?_ ?_
  · unfold Mem; dsimp only; refine mem_in ?_
    with_reducible exact hs
  · with_reducible exact hs

theorem State.spanBits_keeps (s : State) (b : Nat) (drive : List Bool) (sample : List Bool) (hs : Mem Q s) : Mem Q (State.spanBits s b drive sample) := by
  unfold State.spanBits
  extract_lets -merge +onlyGivenNames a1 a2
  try clear_value a1
  try clear_value a2
  unfold Mem; dsimp only; refine mem_in ?_
  with_reducible exact hs

theorem State.startRuns_keeps (s : State) (sub : Nat) (m : RunMode) (hs : Mem Q s) : Mem Q (State.startRuns s sub m) := by
  unfold State.startRuns
  extract_lets -merge +onlyGivenNames a1 a2 a3 a4 a5 a6 a7
  have ha1 : Mem Q a1 := by
    subst a1
    with_reducible refine State.wr_keeps _ _ _ ?_
    with_reducible exact hs
  try clear_value a1
  try clear_value a2
  have ha3 : Mem Q a3 := by
    subst a3
    unfold Mem; dsimp only; refine mem_in ?_
    with_reducible exact ha1
  try clear_value a3
  try clear_value a4
  try clear_value a5
  try clear_value a6
  try clear_value a7
  split <;>
    (unfold Mem; dsimp only; refine mem_in ?_
     with_reducible exact ha3)

theorem State.overrun_keeps (s : State) (g : Nat) (hs : Mem Q s) : Mem Q (State.overrun s g) := by
  unfold State.overrun
  extract_lets -merge +onlyGivenNames a1 a2 a3
  try clear_value a1
  have ha2 : Mem Q a2 := by
    subst a2
    unfold Mem; dsimp only; refine mem_in ?_
    with_reducible exact hs
  try clear_value a2
  have ha3 : Mem Q a3 := by
    subst a3
    with_reducible refine keep_ite ?_ ?_
    · with_reducible exact ha2
    · with_reducible refine State.emit_keeps _ _ ?_
      with_reducible exact ha2
  try clear_value a3
  with_reducible refine State.detect_keeps _ _ ?_
  with_reducible refine State.inc_keeps _ _ ?_
  with_reducible exact ha3

theorem State.compareSpan_keeps (s : State) (b : Nat) (hs : Mem Q s) : Mem Q (State.compareSpan s b) := by
  unfold State.compareSpan
  extract_lets -merge +onlyGivenNames a1 a2 a3 a4 a5 a6 a7 a8
  try clear_value a1
  have ha2 : Mem Q a2 := by
    subst a2
    unfold Mem; dsimp only; refine mem_in ?_
    with_reducible exact hs
  try clear_value a2
  try clear_value a3
  try clear_value a4
  have ha5 : Mem Q a5 := by
    subst a5
    unfold Mem; dsimp only; refine mem_in ?_
    with_reducible exact ha2
  try clear_value a5
  try clear_value a6
  have ha7 : Mem Q a7 := by
    subst a7
    with_reducible refine State.detect_keeps _ _ ?_
    with_reducible refine State.inc_keeps _ _ ?_
    with_reducible refine State.raise_keeps _ _ _ ?_
    with_reducible exact ha5
  try clear_value a7
  try clear_value a8
  split <;> first
    | (with_reducible exact hs)
    | (with_reducible refine keep_ite ?_ ?_
       · with_reducible refine State.inc_keeps _ _ ?_
         with_reducible exact ha2
       · with_reducible refine keep_ite ?_ ?_
         · with_reducible exact ha5
         · unfold Mem; dsimp only; refine mem_in ?_
           with_reducible exact ha7)

theorem State.writeStatus_keeps (W : WritesLm Q) (s : State) (k : Nat) (st : Nat) (hs : Mem Q s) : Mem Q (State.writeStatus s k st) := by
  unfold State.writeStatus
  extract_lets -merge +onlyGivenNames a1 a2 a3 a4 a5
  try clear_value a1
  try clear_value a2
  try clear_value a3
  try clear_value a4
  have ha5 : Mem Q a5 := by
    subst a5
    with_reducible refine State.lmWrite_keeps W _ _ _ ?_
    with_reducible exact hs
  try clear_value a5
  with_reducible refine keep_ite ?_ ?_
  · with_reducible refine State.detect_keeps _ _ ?_
    with_reducible refine State.inc_keeps _ _ ?_
    with_reducible exact ha5
  · with_reducible exact ha5

theorem State.censusRead_keeps (W : WritesLm Q) (s : State) (pl : Place) (r : Run) (b : Nat) (x : Seg) (bri : List Bool) (hs : Mem Q s) : Mem Q (State.censusRead s pl r b x bri) := by
  unfold State.censusRead
  extract_lets -merge +onlyGivenNames a1 a2 a3 a4
  try clear_value a1
  try clear_value a2
  try clear_value a3
  try clear_value a4
  refine keep_foldl ?_ ?_
  · with_reducible exact hs
  · intro x1 x2 h1
    extract_lets -merge +onlyGivenNames a5 a6 a7 a8
    try clear_value a5
    try clear_value a6
    try clear_value a7
    try clear_value a8
    with_reducible refine keep_ite ?_ ?_
    · with_reducible exact h1
    · with_reducible refine State.writeStatus_keeps W _ _ _ ?_
      with_reducible exact h1

theorem State.censusReads_keeps (W : WritesLm Q) (s : State) (pl : Place) (r : Run) (b : Nat) (xs : List Seg) (bri : List Bool)
    (hs : Mem Q s) : Mem Q (State.censusReads s pl r b xs bri) := by
  induction xs generalizing s bri with
  | nil => exact hs
  | cons x xs ih =>
    unfold State.censusReads
    split
    · exact ih _ _ (State.censusRead_keeps W _ _ _ _ _ _ hs)
    · exact ih _ _ hs

theorem State.closeRun_keeps (W : WritesLm Q) (s : State) (g : Nat) (r : Run) (limit : Nat) (pads : List (Nat × List Bool)) (bri : List (Nat × List Bool)) (hs : Mem Q s) : Mem Q (State.closeRun s g r limit pads bri) := by
  unfold State.closeRun
  extract_lets -merge +onlyGivenNames a1 a2 a3
  try clear_value a1
  try clear_value a2
  try clear_value a3
  split <;> first
    | (with_reducible exact hs)
    | (extract_lets -merge +onlyGivenNames a4 a5 a6 a7 a8
       try clear_value a4
       have ha5 : Mem Q a5 := by
         subst a5
         refine keep_foldl ?_ ?_
         · with_reducible refine State.drawn_keeps _ ?_
           with_reducible exact hs
         · intro x1 x2 h1
           extract_lets -merge +onlyGivenNames a9 a10
           try clear_value a9
           have ha10 : Mem Q a10 := by
             subst a10
             with_reducible refine keep_ite ?_ ?_
             · with_reducible exact h1
             · with_reducible refine State.spanBits_keeps _ _ _ _ ?_
               with_reducible exact h1
           try clear_value a10
           with_reducible refine keep_ite ?_ ?_
           · with_reducible exact ha10
           · with_reducible refine State.censusReads_keeps W _ _ _ _ _ _ ?_
             with_reducible exact ha10
       try clear_value a5
       have ha6 : Mem Q a6 := by
         subst a6
         with_reducible refine keep_ite ?_ ?_
         · with_reducible exact ha5
         · with_reducible refine State.emit_keeps _ _ ?_
           with_reducible exact ha5
       try clear_value a6
       have ha7 : Mem Q a7 := by
         subst a7
         with_reducible refine State.blockEcc_keeps _ _ _ ?_
         with_reducible refine State.blockEcc_keeps _ _ _ ?_
         with_reducible exact ha6
       try clear_value a7
       try clear_value a8
       unfold Mem; dsimp only; refine mem_in ?_
       with_reducible exact ha7)

theorem State.cutRuns_keeps (W : WritesLm Q) (s : State) (hs : Mem Q s) : Mem Q (State.cutRuns s) := by
  unfold State.cutRuns
  refine keep_foldl ?_ ?_
  · with_reducible exact hs
  · intro x1 x2 h1
    extract_lets -merge +onlyGivenNames a1
    try clear_value a1
    split <;> first
      | (with_reducible refine State.closeRun_keeps W _ _ _ _ _ _ ?_
         with_reducible exact h1)
      | (with_reducible refine keep_ite ?_ ?_
         · with_reducible refine State.closeRun_keeps W _ _ _ _ _ _ ?_
           with_reducible exact h1
         · with_reducible refine State.overrun_keeps _ _ ?_
           with_reducible refine State.closeRun_keeps W _ _ _ _ _ _ ?_
           with_reducible exact h1)

theorem State.censusDone_keeps (W : WritesLm Q) (s : State) (hs : Mem Q s) : Mem Q (State.censusDone s) := by
  unfold State.censusDone
  split <;> first
    | (with_reducible exact hs)
    | (extract_lets -merge +onlyGivenNames a1 a2 a3 a4 a5
       have ha1 : Mem Q a1 := by
         subst a1
         with_reducible refine State.wr_keeps _ _ _ ?_
         with_reducible exact hs
       try clear_value a1
       try clear_value a2
       try clear_value a3
       try clear_value a4
       have ha5 : Mem Q a5 := by
         subst a5
         unfold Mem; dsimp only; refine mem_in ?_
         with_reducible exact ha1
       try clear_value a5
       refine keep_foldl ?_ ?_
       · with_reducible exact ha5
       · intro x1 x2 h1
         with_reducible refine State.finishAs_keeps W _ _ _ _ _ _ _ ?_
         with_reducible exact h1)

theorem scriptRunEnd_keeps (W : WritesLm Q) (g : Nat) (pads : List (Nat × List Bool)) (bri : List (Nat × List Bool)) (s : State) (hs : Mem Q s) : Mem Q (scriptRunEnd g pads bri s) := by
  unfold scriptRunEnd
  split <;> first
    | (with_reducible exact hs)
    | (extract_lets -merge +onlyGivenNames a1 a2 a3 a4
       try clear_value a1
       have ha2 : Mem Q a2 := by
         subst a2
         with_reducible refine State.advanceTo_keeps _ _ ?_
         with_reducible exact hs
       try clear_value a2
       have ha3 : Mem Q a3 := by
         subst a3
         with_reducible refine State.closeRun_keeps W _ _ _ _ _ _ ?_
         with_reducible exact ha2
       try clear_value a3
       have ha4 : Mem Q a4 := by
         subst a4
         refine keep_foldl ?_ ?_
         · with_reducible exact ha3
         · intro x1 x2 h1
           with_reducible refine State.compareSpan_keeps _ _ ?_
           with_reducible exact h1
       try clear_value a4
       with_reducible refine keep_ite ?_ ?_
       · with_reducible exact hs
       · with_reducible refine keep_ite ?_ ?_
         · with_reducible refine keep_ite ?_ ?_
           · with_reducible refine State.censusDone_keeps W _ ?_
             with_reducible exact ha4
           · with_reducible exact ha4
         · with_reducible exact ha3)

theorem State.closeSpans_keeps (W : WritesLm Q) (s : State) (hs : Mem Q s) : Mem Q (State.closeSpans s) := by
  unfold State.closeSpans
  extract_lets -merge +onlyGivenNames a1 a2 a3
  have ha1 : Mem Q a1 := by
    subst a1
    refine keep_foldl ?_ ?_
    · with_reducible exact hs
    · intro x1 x2 h1
      with_reducible refine State.compareSpan_keeps _ _ ?_
      with_reducible exact h1
  try clear_value a1
  have ha2 : Mem Q a2 := by
    subst a2
    with_reducible refine State.censusDone_keeps W _ ?_
    with_reducible exact ha1
  try clear_value a2
  try clear_value a3
  unfold Mem; dsimp only; refine mem_in ?_
  with_reducible exact ha2

theorem State.censusHeld_keeps (W : WritesLm Q) (s : State) (hs : Mem Q s) : Mem Q (State.censusHeld s) := by
  unfold State.censusHeld
  extract_lets -merge +onlyGivenNames a1 a2 a3
  try clear_value a1
  try clear_value a2
  have ha3 : Mem Q a3 := by
    subst a3
    unfold Mem; dsimp only; refine mem_in ?_
    with_reducible exact hs
  try clear_value a3
  refine keep_foldl ?_ ?_
  · with_reducible exact ha3
  · intro x1 x2 h1
    with_reducible refine State.finish_keeps W _ _ _ _ _ ?_
    with_reducible exact h1

theorem execScriptRunEnd_keeps (W : WritesLm Q) (group : Nat) (pads : List (Nat × List Bool)) (bri : List (Nat × List Bool)) (s : State) (hs : Mem Q s) : OutMem Q (execScriptRunEnd group pads bri s) := by
  unfold execScriptRunEnd
  with_reducible refine onRun_keeps _ _ ?_ ?_
  · with_reducible exact hs
  · intro x1 h1
    with_reducible refine scriptRunEnd_keeps W _ _ _ _ ?_
    with_reducible exact h1

theorem branchStats_keeps (W : WritesLm Q) (d : Desc) (ok : Bool) (s : State) (hs : Mem Q s) : Mem Q (branchStats d ok s) := by
  unfold branchStats
  extract_lets -merge +onlyGivenNames a1
  try clear_value a1
  with_reducible refine keep_ite ?_ ?_
  · with_reducible refine State.finish_keeps W _ _ _ _ _ ?_
    with_reducible exact hs
  · with_reducible refine keep_ite ?_ ?_
    · with_reducible refine State.finish_keeps W _ _ _ _ _ ?_
      with_reducible exact hs
    · with_reducible refine keep_ite ?_ ?_
      · with_reducible refine State.finish_keeps W _ _ _ _ _ ?_
        with_reducible exact hs
      · with_reducible refine State.finish_keeps W _ _ _ _ _ ?_
        with_reducible refine State.returnTo_keeps W _ _ _ _ ?_
        with_reducible exact hs

theorem censusRun_keeps (W : WritesLm Q) (d : Desc) (s : State) (hs : Mem Q s) : Mem Q (censusRun d s) := by
  unfold censusRun
  extract_lets -merge +onlyGivenNames a1 a2
  have ha1 : Mem Q a1 := by
    subst a1
    with_reducible refine State.starts_keeps _ _ ?_
    with_reducible exact hs
  try clear_value a1
  try clear_value a2
  with_reducible refine keep_ite ?_ ?_
  · with_reducible refine State.finish_keeps W _ _ _ _ _ ?_
    with_reducible exact hs
  · with_reducible refine keep_ite ?_ ?_
    · with_reducible refine State.finish_keeps W _ _ _ _ _ ?_
      with_reducible exact hs
    · with_reducible refine keep_ite ?_ ?_
      · with_reducible refine State.finish_keeps W _ _ _ _ _ ?_
        with_reducible exact hs
      · unfold Mem; dsimp only; refine mem_in ?_
        with_reducible exact ha1

theorem execCensusRun_keeps (W : WritesLm Q) (d : Desc) (s : State) (hs : Mem Q s) : OutMem Q (execCensusRun d s) := by
  unfold execCensusRun
  with_reducible refine onOp_keeps W _ _ _ _ _ ?_ ?_
  · with_reducible exact hs
  · intro x1 h1
    with_reducible refine censusRun_keeps W _ _ ?_
    with_reducible exact h1

theorem execBranchStats_keeps (W : WritesLm Q) (d : Desc) (ok : Bool) (s : State) (hs : Mem Q s) : OutMem Q (execBranchStats d ok s) := by
  unfold execBranchStats
  with_reducible refine onOp_keeps W _ _ _ _ _ ?_ ?_
  · with_reducible exact hs
  · intro x1 h1
    with_reducible refine branchStats_keeps W _ _ _ ?_
    with_reducible exact h1

theorem State.skipChanged_keeps (s : State) (hs : Mem Q s) : Mem Q (State.skipChanged s) := by
  unfold State.skipChanged
  extract_lets -merge +onlyGivenNames a1 a2
  try clear_value a1
  try clear_value a2
  with_reducible refine keep_ite ?_ ?_
  · with_reducible exact hs
  · unfold Mem; dsimp only; refine mem_in ?_
    with_reducible exact hs

theorem State.stageImage_keeps (s : State) (b : Bytes) (hs : Mem Q s) : Mem Q (State.stageImage s b) := by
  unfold State.stageImage
  extract_lets -merge +onlyGivenNames a1 a2 a3
  have ha1 : Mem Q a1 := by
    subst a1
    unfold Mem; dsimp only; refine mem_in ?_
    with_reducible exact hs
  try clear_value a1
  have ha2 : Mem Q a2 := by
    subst a2
    refine keep_foldl ?_ ?_
    · with_reducible exact ha1
    · intro x1 x2 h1
      extract_lets -merge +onlyGivenNames a4
      try clear_value a4
      with_reducible refine State.wr_keeps _ _ _ ?_
      with_reducible refine State.wr_keeps _ _ _ ?_
      with_reducible exact h1
  try clear_value a2
  have ha3 : Mem Q a3 := by
    subst a3
    refine keep_foldl ?_ ?_
    · with_reducible exact ha2
    · intro x3 x4 h2
      extract_lets -merge +onlyGivenNames a5
      try clear_value a5
      with_reducible refine State.wr_keeps _ _ _ ?_
      with_reducible refine State.wr_keeps _ _ _ ?_
      with_reducible refine State.wr_keeps _ _ _ ?_
      with_reducible exact h2
  try clear_value a3
  refine keep_foldl ?_ ?_
  · with_reducible exact ha3
  · intro x5 x6 h3
    with_reducible refine State.wr_keeps _ _ _ ?_
    with_reducible refine State.wr_keeps _ _ _ ?_
    with_reducible exact h3

theorem State.wipe_keeps (W : WritesLm Q) (s : State) (hs : Mem Q s) : Mem Q (State.wipe s) := by
  unfold State.wipe
  with_reducible refine State.scramble_keeps W _ _ _ ?_
  with_reducible refine State.scramble_keeps W _ _ _ ?_
  with_reducible refine State.drawn_keeps _ ?_
  with_reducible refine State.drawn_keeps _ ?_
  with_reducible exact hs

theorem State.showTrim_keeps (s : State) (hs : Mem Q s) : Mem Q (State.showTrim s) := by
  unfold State.showTrim
  extract_lets -merge +onlyGivenNames a1
  try clear_value a1
  with_reducible refine State.wr_keeps _ _ _ ?_
  with_reducible refine State.wr_keeps _ _ _ ?_
  with_reducible exact hs

theorem State.applyTrim_keeps (s : State) (whenLatch : Bool) (d : Option Desc) (hs : Mem Q s) : Mem Q (State.applyTrim s whenLatch d) := by
  unfold State.applyTrim
  extract_lets -merge +onlyGivenNames a1 a2
  have ha1 : Mem Q a1 := by
    subst a1
    with_reducible refine State.wr_keeps _ _ _ ?_
    with_reducible exact hs
  try clear_value a1
  try clear_value a2
  unfold Mem; dsimp only; refine mem_in ?_
  with_reducible exact ha1

theorem trimApply_keeps (s : State) (hs : Mem Q s) : Mem Q (trimApply s) := by
  unfold trimApply
  with_reducible refine keep_ite ?_ ?_
  · with_reducible refine State.detect_keeps _ _ ?_
    with_reducible exact hs
  · with_reducible refine keep_ite ?_ ?_
    · with_reducible refine State.detect_keeps _ _ ?_
      with_reducible exact hs
    · with_reducible refine State.applyTrim_keeps _ _ _ ?_
      with_reducible exact hs

theorem execTrimApply_keeps (s : State) (hs : Mem Q s) : OutMem Q (execTrimApply s) := by
  unfold execTrimApply
  with_reducible refine onLive_keeps _ _ ?_ ?_
  · with_reducible exact hs
  · intro x1 h1
    with_reducible refine trimApply_keeps _ ?_
    with_reducible exact h1

theorem trimRestore_keeps (W : WritesLm Q) (d : Desc) (src : HostData) (s : State) (hs : Mem Q s) : Mem Q (trimRestore d src s) := by
  unfold trimRestore
  extract_lets -merge +onlyGivenNames a1 a2 a3 a4
  try clear_value a1
  try clear_value a2
  try clear_value a3
  try clear_value a4
  with_reducible refine keep_ite ?_ ?_
  · with_reducible refine State.finish_keeps W _ _ _ _ _ ?_
    with_reducible exact hs
  · with_reducible refine keep_ite ?_ ?_
    · with_reducible refine State.finish_keeps W _ _ _ _ _ ?_
      with_reducible exact hs
    · with_reducible refine keep_ite ?_ ?_
      · with_reducible refine State.finish_keeps W _ _ _ _ _ ?_
        with_reducible exact hs
      · with_reducible refine keep_ite ?_ ?_
        · with_reducible refine State.finish_keeps W _ _ _ _ _ ?_
          with_reducible refine State.lmUncorr_keeps _ ?_
          with_reducible exact hs
        · with_reducible refine keep_ite ?_ ?_
          · with_reducible refine State.finish_keeps W _ _ _ _ _ ?_
            with_reducible exact hs
          · with_reducible refine keep_ite ?_ ?_
            · with_reducible refine State.finish_keeps W _ _ _ _ _ ?_
              with_reducible exact hs
            · with_reducible refine keep_ite ?_ ?_
              · with_reducible refine State.finish_keeps W _ _ _ _ _ ?_
                with_reducible exact hs
              · with_reducible refine State.applyTrim_keeps _ _ _ ?_
                with_reducible refine State.showTrim_keeps _ ?_
                with_reducible refine State.stageImage_keeps _ _ ?_
                with_reducible refine State.starts_keeps _ _ ?_
                with_reducible exact hs

theorem memBist_keeps (W : WritesLm Q) (d : Desc) (results : List BistResult) (ok : Bool) (s : State) (hs : Mem Q s) : Mem Q (memBist d results ok s) := by
  unfold memBist
  extract_lets -merge +onlyGivenNames a1 a2 a3 a4 a5 a6 a7 a8 a9
  try clear_value a1
  try clear_value a2
  try clear_value a3
  try clear_value a4
  try clear_value a5
  try clear_value a6
  have ha7 : Mem Q a7 := by
    subst a7
    with_reducible refine keep_ite ?_ ?_
    · with_reducible refine State.wipe_keeps W _ ?_
      with_reducible exact hs
    · with_reducible exact hs
  try clear_value a7
  have ha8 : Mem Q a8 := by
    subst a8
    with_reducible refine State.detectIf_keeps _ _ _ ?_
    with_reducible exact ha7
  try clear_value a8
  have ha9 : Mem Q a9 := by
    subst a9
    with_reducible refine keep_ite ?_ ?_
    · with_reducible exact ha8
    · with_reducible refine State.returnTo_keeps W _ _ _ _ ?_
      with_reducible exact ha8
  try clear_value a9
  with_reducible refine keep_ite ?_ ?_
  · with_reducible refine State.finish_keeps W _ _ _ _ _ ?_
    with_reducible exact hs
  · with_reducible refine keep_ite ?_ ?_
    · with_reducible refine State.finish_keeps W _ _ _ _ _ ?_
      with_reducible exact hs
    · with_reducible refine keep_ite ?_ ?_
      · with_reducible refine State.finish_keeps W _ _ _ _ _ ?_
        with_reducible exact hs
      · with_reducible refine keep_ite ?_ ?_
        · with_reducible refine State.finish_keeps W _ _ _ _ _ ?_
          with_reducible exact ha8
        · with_reducible refine State.finish_keeps W _ _ _ _ _ ?_
          with_reducible exact ha9

theorem trimSave_keeps (W : WritesLm Q) (d : Desc) (ok : Bool) (s : State) (hs : Mem Q s) : Mem Q (trimSave d ok s) := by
  unfold trimSave
  extract_lets -merge +onlyGivenNames a1
  try clear_value a1
  with_reducible refine keep_ite ?_ ?_
  · with_reducible refine State.finish_keeps W _ _ _ _ _ ?_
    with_reducible exact hs
  · with_reducible refine keep_ite ?_ ?_
    · with_reducible refine State.finish_keeps W _ _ _ _ _ ?_
      with_reducible exact hs
    · with_reducible refine keep_ite ?_ ?_
      · with_reducible refine State.finish_keeps W _ _ _ _ _ ?_
        with_reducible exact hs
      · with_reducible refine State.finish_keeps W _ _ _ _ _ ?_
        with_reducible refine State.returnTo_keeps W _ _ _ _ ?_
        with_reducible exact hs

theorem execTrimRestore_keeps (W : WritesLm Q) (d : Desc) (src : HostData) (s : State) (hs : Mem Q s) : OutMem Q (execTrimRestore d src s) := by
  unfold execTrimRestore
  with_reducible refine onOp_keeps W _ _ _ _ _ ?_ ?_
  · with_reducible exact hs
  · intro x1 h1
    with_reducible refine trimRestore_keeps W _ _ _ ?_
    with_reducible exact h1

theorem State.trimNow_keeps (W : WritesLm Q) (s : State) (d : Option Desc) (hs : Mem Q s) : Mem Q (State.trimNow s d) := by
  unfold State.trimNow
  extract_lets -merge +onlyGivenNames a1 a2 a3
  have ha1 : Mem Q a1 := by
    subst a1
    with_reducible refine keep_ite ?_ ?_
    · with_reducible refine State.wipe_keeps W _ ?_
      with_reducible exact hs
    · with_reducible exact hs
  try clear_value a1
  have ha2 : Mem Q a2 := by
    subst a2
    unfold Mem; dsimp only; refine mem_in ?_
    with_reducible exact ha1
  try clear_value a2
  have ha3 : Mem Q a3 := by
    subst a3
    with_reducible refine State.showTrim_keeps _ ?_
    with_reducible refine State.wr_keeps _ _ _ ?_
    with_reducible refine State.wr_keeps _ _ _ ?_
    with_reducible exact ha2
  try clear_value a3
  split <;> first
    | (with_reducible refine State.finish_keeps W _ _ _ _ _ ?_
       with_reducible exact ha3)
    | (with_reducible exact ha3)

theorem State.trimLatch_keeps (W : WritesLm Q) (s : State) (hs : Mem Q s) : Mem Q (State.trimLatch s) := by
  unfold State.trimLatch
  split <;> first
    | (with_reducible refine keep_ite ?_ ?_
       · with_reducible refine State.trimNow_keeps W _ _ ?_
         with_reducible exact hs
       · with_reducible exact hs)
    | (with_reducible exact hs)

theorem trimChange_keeps (W : WritesLm Q) (s : State) (hs : Mem Q s) : Mem Q (trimChange s) := by
  unfold trimChange
  extract_lets -merge +onlyGivenNames a1
  try clear_value a1
  split <;> first
    | (with_reducible exact hs)
    | (unfold Mem; dsimp only; refine mem_in ?_
       with_reducible exact hs)
    | (with_reducible refine State.trimNow_keeps W _ _ ?_
       with_reducible refine State.skipChanged_keeps _ ?_
       with_reducible exact hs)

theorem execMemBist_keeps (W : WritesLm Q) (d : Desc) (results : List BistResult) (ok : Bool) (s : State) (hs : Mem Q s) : OutMem Q (execMemBist d results ok s) := by
  unfold execMemBist
  with_reducible refine onOp_keeps W _ _ _ _ _ ?_ ?_
  · with_reducible exact hs
  · intro x1 h1
    with_reducible refine memBist_keeps W _ _ _ _ ?_
    with_reducible exact h1

theorem execTrimSave_keeps (W : WritesLm Q) (d : Desc) (ok : Bool) (s : State) (hs : Mem Q s) : OutMem Q (execTrimSave d ok s) := by
  unfold execTrimSave
  with_reducible refine onOp_keeps W _ _ _ _ _ ?_ ?_
  · with_reducible exact hs
  · intro x1 h1
    with_reducible refine trimSave_keeps W _ _ _ ?_
    with_reducible exact h1

theorem execTrimChange_keeps (W : WritesLm Q) (s : State) (hs : Mem Q s) : OutMem Q (execTrimChange s) := by
  unfold execTrimChange
  with_reducible refine onLive_keeps _ _ ?_ ?_
  · with_reducible exact hs
  · intro x1 h1
    with_reducible refine trimChange_keeps W _ ?_
    with_reducible exact h1

theorem State.takeZero_keeps (s : State) (hs : Mem Q s) : Mem Q (State.takeZero s).2 := by
  unfold State.takeZero
  extract_lets -merge +onlyGivenNames a1
  try clear_value a1
  with_reducible refine keep_ite2 ?_ ?_
  · with_reducible refine mem_snd ?_
    unfold Mem; dsimp only; refine mem_in ?_
    with_reducible exact hs
  · with_reducible refine mem_snd ?_
    with_reducible exact hs

theorem State.noteSub_keeps (s : State) (hs : Mem Q s) : Mem Q (State.noteSub s) := by
  unfold State.noteSub
  extract_lets -merge +onlyGivenNames a1 a2
  try clear_value a1
  try clear_value a2
  unfold Mem; dsimp only; refine mem_in ?_
  with_reducible exact hs

theorem State.arm_keeps (s : State) (hs : Mem Q s) : Mem Q (State.arm s) := by
  unfold State.arm
  extract_lets -merge +onlyGivenNames a1 a2
  try clear_value a1
  try clear_value a2
  unfold Mem; dsimp only; refine mem_in ?_
  with_reducible exact hs

theorem execFsyncZeroPulse_keeps (s : State) (hs : Mem Q s) : OutMem Q (execFsyncZeroPulse s) := by
  unfold execFsyncZeroPulse
  with_reducible refine onLive_keeps _ _ ?_ ?_
  · with_reducible exact hs
  · intro x1 h1
    extract_lets -merge +onlyGivenNames a1
    try clear_value a1
    with_reducible refine keep_ite ?_ ?_
    · unfold Mem; dsimp only; refine mem_in ?_
      with_reducible exact h1
    · with_reducible exact h1

theorem State.unitPattern_keeps (s : State) (hs : Mem Q s) : Mem Q (State.unitPattern s) := by
  unfold State.unitPattern
  extract_lets -merge +onlyGivenNames a1 a2 a3 a4
  try clear_value a1
  try clear_value a2
  have ha3 : Mem Q a3 := by
    subst a3
    refine keep_foldl ?_ ?_
    · with_reducible exact hs
    · intro x1 x2 h1
      with_reducible refine State.wr_keeps _ _ _ ?_
      with_reducible exact h1
  try clear_value a3
  try clear_value a4
  with_reducible refine State.wr_keeps _ _ _ ?_
  with_reducible exact ha3

theorem State.setHold_keeps (s : State) (v : Nat) (n : Word) (hs : Mem Q s) : Mem Q (State.setHold s v n) := by
  unfold State.setHold
  with_reducible refine State.wr_keeps _ _ _ ?_
  with_reducible refine State.wr_keeps _ _ _ ?_
  with_reducible exact hs

theorem State.leaveNight_keeps (s : State) (hs : Mem Q s) : Mem Q (State.leaveNight s) := by
  unfold State.leaveNight
  extract_lets -merge +onlyGivenNames a1 a2
  have ha1 : Mem Q a1 := by
    subst a1
    with_reducible refine State.setHold_keeps _ _ _ ?_
    with_reducible exact hs
  try clear_value a1
  try clear_value a2
  with_reducible refine keep_ite ?_ ?_
  · unfold Mem; dsimp only; refine mem_in ?_
    with_reducible exact ha1
  · with_reducible exact hs

theorem State.showPending_keeps (s : State) (hs : Mem Q s) : Mem Q (State.showPending s) := by
  unfold State.showPending
  with_reducible refine State.wr_keeps _ _ _ ?_
  with_reducible exact hs

theorem standaloneExit_keeps (s : State) (hs : Mem Q s) : Mem Q (standaloneExit s) := by
  unfold standaloneExit
  with_reducible refine keep_ite ?_ ?_
  · with_reducible refine State.setRun_keeps _ _ ?_
    with_reducible exact hs
  · with_reducible exact hs

theorem State.applyDs_keeps (s : State) (hs : Mem Q s) : Mem Q (State.applyDs s) := by
  unfold State.applyDs
  extract_lets -merge +onlyGivenNames a1 a2 a3 a4 a5
  try clear_value a1
  have ha2 : Mem Q a2.2 := by
    subst a2
    with_reducible refine State.applyD_keeps _ _ ?_
    with_reducible exact hs
  try clear_value a2
  have ha3 : Mem Q a3.2 := by
    subst a3
    with_reducible refine State.applyD_keeps _ _ ?_
    with_reducible exact ha2
  try clear_value a3
  have ha4 : Mem Q a4 := by
    subst a4
    with_reducible exact ha3
  try clear_value a4
  try clear_value a5
  unfold Mem; dsimp only; refine mem_in ?_
  with_reducible exact ha4

theorem execStandaloneExit_keeps (s : State) (hs : Mem Q s) : OutMem Q (execStandaloneExit s) := by
  unfold execStandaloneExit
  with_reducible refine onLive_keeps _ _ ?_ ?_
  · with_reducible exact hs
  · intro x1 h1
    with_reducible refine standaloneExit_keeps _ ?_
    with_reducible exact h1

theorem State.holdAt_keeps (W : WritesLm Q) (s : State) (n : Word) (hs : Mem Q s) : Mem Q (State.holdAt s n) := by
  unfold State.holdAt
  extract_lets -merge +onlyGivenNames a1 a2 a3
  try clear_value a1
  try clear_value a2
  have ha3 : Mem Q a3 := by
    subst a3
    unfold Mem; dsimp only; refine mem_in ?_
    with_reducible exact hs
  try clear_value a3
  with_reducible refine State.showPending_keeps _ ?_
  refine keep_foldl ?_ ?_
  · with_reducible exact ha3
  · intro x1 x2 h1
    extract_lets -merge +onlyGivenNames a4 a5
    try clear_value a4
    have ha5 : Mem Q a5 := by
      subst a5
      with_reducible refine keep_ite ?_ ?_
      · with_reducible exact h1
      · with_reducible refine State.setHold_keeps _ _ _ ?_
        with_reducible exact h1
    try clear_value a5
    with_reducible refine keep_ite ?_ ?_
    · with_reducible refine State.finishAs_keeps W _ _ _ _ _ _ _ ?_
      with_reducible exact h1
    · with_reducible refine State.finishAs_keeps W _ _ _ _ _ _ _ ?_
      with_reducible exact ha5

theorem execPeerSleep_keeps (port : Nat) (s : State) (hs : Mem Q s) : OutMem Q (execPeerSleep port s) := by
  unfold execPeerSleep
  with_reducible refine onLive_keeps _ _ ?_ ?_
  · with_reducible exact hs
  · intro x1 h1
    with_reducible refine onPort_keeps _ _ _ ?_ ?_
    · intro x2 h2
      with_reducible refine peerSleep_keeps _ _ ?_
      with_reducible exact h2
    · with_reducible exact h1

theorem holdSet_keeps (W : WritesLm Q) (d : Desc) (s : State) (hs : Mem Q s) : Mem Q (holdSet d s) := by
  unfold holdSet
  extract_lets -merge +onlyGivenNames a1 a2 a3 a4 a5
  try clear_value a1
  have ha2 : Mem Q a2 := by
    subst a2
    with_reducible refine State.starts_keeps _ _ ?_
    with_reducible exact hs
  try clear_value a2
  try clear_value a3
  have ha4 : Mem Q a4 := by
    subst a4
    unfold Mem; dsimp only; refine mem_in ?_
    with_reducible exact ha2
  try clear_value a4
  have ha5 : Mem Q a5 := by
    subst a5
    with_reducible refine keep_ite ?_ ?_
    · with_reducible refine dormantEnter_keeps _ _ ?_
      with_reducible refine dormantEnter_keeps _ _ ?_
      with_reducible exact ha4
    · with_reducible exact ha4
  try clear_value a5
  with_reducible refine keep_ite ?_ ?_
  · with_reducible refine State.finish_keeps W _ _ _ _ _ ?_
    with_reducible exact hs
  · with_reducible refine keep_ite ?_ ?_
    · with_reducible refine State.finish_keeps W _ _ _ _ _ ?_
      with_reducible exact hs
    · with_reducible refine keep_ite ?_ ?_
      · with_reducible refine State.finish_keeps W _ _ _ _ _ ?_
        with_reducible exact hs
      · with_reducible refine keep_ite ?_ ?_
        · with_reducible refine State.finish_keeps W _ _ _ _ _ ?_
          with_reducible exact hs
        · with_reducible refine keep_ite ?_ ?_
          · with_reducible refine State.finish_keeps W _ _ _ _ _ ?_
            with_reducible refine State.leaveNight_keeps _ ?_
            with_reducible refine dormantClear_keeps _ _ ?_
            with_reducible refine dormantClear_keeps _ _ ?_
            with_reducible exact hs
          · with_reducible refine State.showPending_keeps _ ?_
            with_reducible exact ha5

theorem subframeBoundary_keeps (W : WritesLm Q) (s : State) (hs : Mem Q s) : Mem Q (subframeBoundary s) := by
  unfold subframeBoundary
  extract_lets -merge +onlyGivenNames a1 a2 a3 a4 a5 a6
  try clear_value a1
  try clear_value a2
  have ha3 : Mem Q a3 := by
    subst a3
    with_reducible refine State.advanceTo_keeps _ _ ?_
    with_reducible exact hs
  try clear_value a3
  try clear_value a4
  have ha5 : Mem Q a5 := by
    subst a5
    unfold Mem; dsimp only; refine mem_in ?_
    with_reducible exact ha3
  try clear_value a5
  have ha6 : Mem Q a6 := by
    subst a6
    with_reducible refine State.swapBands_keeps _ _ ?_
    with_reducible refine State.cutRuns_keeps W _ ?_
    with_reducible refine State.noteSub_keeps _ ?_
    with_reducible exact ha5
  try clear_value a6
  with_reducible refine keep_ite ?_ ?_
  · with_reducible exact hs
  · with_reducible refine keep_ite ?_ ?_
    · with_reducible exact ha5
    · with_reducible refine State.startRuns_keeps _ _ _ ?_
      with_reducible exact ha6

theorem nightEntry_keeps (W : WritesLm Q) (s : State) (hs : Mem Q s) : Mem Q (nightEntry s) := by
  unfold nightEntry
  extract_lets -merge +onlyGivenNames a1 a2 a3 a4 a5 a6 a7 a8 a9
  try clear_value a1
  try clear_value a2
  have ha3 : Mem Q a3 := by
    subst a3
    with_reducible refine State.holdover_keeps _ ?_
    with_reducible refine State.setHold_keeps _ _ _ ?_
    with_reducible exact hs
  try clear_value a3
  try clear_value a4
  try clear_value a5
  try clear_value a6
  try clear_value a7
  have ha8 : Mem Q a8 := by
    subst a8
    unfold Mem; dsimp only; refine mem_in ?_
    with_reducible exact ha3
  try clear_value a8
  have ha9 : Mem Q a9 := by
    subst a9
    with_reducible refine State.linkCycles_keeps _ ?_
    with_reducible refine State.retireIfDone_keeps _ ?_
    with_reducible refine State.detectIf_keeps _ _ _ ?_
    with_reducible exact ha8
  try clear_value a9
  with_reducible refine keep_ite ?_ ?_
  · with_reducible exact hs
  · with_reducible refine State.showPending_keeps _ ?_
    refine keep_foldl ?_ ?_
    · with_reducible exact ha9
    · intro x1 x2 h1
      with_reducible refine State.finish_keeps W _ _ _ _ _ ?_
      with_reducible exact h1

theorem State.tileWork_keeps (W : WritesLm Q) (s : State) (n : Word) (hs : Mem Q s) : Mem Q (State.tileWork s n) := by
  unfold State.tileWork
  extract_lets -merge +onlyGivenNames a1 a2 a3 a4 a5 a6 a7 a8 a9 a10 a11 a12 a13 a14
  try clear_value a1
  have ha2 : Mem Q a2 := by
    subst a2
    with_reducible refine State.closeSpans_keeps W _ ?_
    with_reducible refine State.cutRuns_keeps W _ ?_
    unfold Mem; dsimp only; refine mem_in ?_
    with_reducible exact hs
  try clear_value a2
  have ha3 : Mem Q a3 := by
    subst a3
    with_reducible refine State.swapBands_keeps _ _ ?_
    with_reducible refine State.lateCheck_keeps _ _ ?_
    with_reducible exact ha2
  try clear_value a3
  have ha4 : Mem Q a4 := by
    subst a4
    with_reducible refine State.codesAt_keeps _ _ ?_
    with_reducible exact ha3
  try clear_value a4
  have ha5 : Mem Q a5 := by
    subst a5
    with_reducible refine State.commitsAt_keeps W _ _ ?_
    with_reducible exact ha4
  try clear_value a5
  have ha6 : Mem Q a6 := by
    subst a6
    with_reducible refine State.wr_keeps _ _ _ ?_
    with_reducible exact ha5
  try clear_value a6
  try clear_value a7
  have ha8 : Mem Q a8 := by
    subst a8
    with_reducible refine State.holdAt_keeps W _ _ ?_
    with_reducible exact ha6
  try clear_value a8
  have ha9 : Mem Q a9 := by
    subst a9
    with_reducible refine State.splitAt_keeps _ _ ?_
    with_reducible exact ha8
  try clear_value a9
  have ha10 : Mem Q a10 := by
    subst a10
    with_reducible refine State.arm_keeps _ ?_
    with_reducible exact ha9
  try clear_value a10
  try clear_value a11
  have ha12 : Mem Q a12 := by
    subst a12
    with_reducible refine keep_ite ?_ ?_
    · with_reducible refine State.censusHeld_keeps W _ ?_
      with_reducible exact ha10
    · with_reducible refine keep_ite ?_ ?_
      · with_reducible exact ha10
      · with_reducible refine State.censusAt_keeps _ _ ?_
        with_reducible exact ha10
  try clear_value a12
  try clear_value a13
  have ha14 : Mem Q a14 := by
    subst a14
    with_reducible refine keep_ite ?_ ?_
    · unfold Mem; dsimp only; refine mem_in ?_
      with_reducible exact ha12
    · with_reducible exact ha12
  try clear_value a14
  with_reducible refine State.startRuns_keeps _ _ _ ?_
  with_reducible exact ha14

theorem execSubframeBoundary_keeps (W : WritesLm Q) (s : State) (hs : Mem Q s) : OutMem Q (execSubframeBoundary s) := by
  unfold execSubframeBoundary
  with_reducible refine onLive_keeps _ _ ?_ ?_
  · with_reducible exact hs
  · intro x1 h1
    with_reducible refine subframeBoundary_keeps W _ ?_
    with_reducible exact h1

theorem execHoldSet_keeps (W : WritesLm Q) (d : Desc) (s : State) (hs : Mem Q s) : OutMem Q (execHoldSet d s) := by
  unfold execHoldSet
  with_reducible refine onOp_keeps W _ _ _ _ _ ?_ ?_
  · with_reducible exact hs
  · intro x1 h1
    with_reducible refine holdSet_keeps W _ _ ?_
    with_reducible exact h1

theorem execNightEntry_keeps (W : WritesLm Q) (s : State) (hs : Mem Q s) : OutMem Q (execNightEntry s) := by
  unfold execNightEntry
  with_reducible refine onLive_keeps _ _ ?_ ?_
  · with_reducible exact hs
  · intro x1 h1
    with_reducible refine nightEntry_keeps W _ ?_
    with_reducible exact h1

theorem State.tileFrame_keeps (W : WritesLm Q) (s : State) (n : Word) (hs : Mem Q s) : Mem Q (State.tileFrame s n) := by
  unfold State.tileFrame
  extract_lets -merge +onlyGivenNames a1 a2 a3 a4
  try clear_value a1
  have ha2 : Mem Q a2 := by
    subst a2
    with_reducible refine State.trimLatch_keeps W _ ?_
    with_reducible refine State.settlePvw_keeps _ ?_
    with_reducible refine State.wr_keeps _ _ _ ?_
    with_reducible refine State.wr_keeps _ _ _ ?_
    with_reducible exact hs
  try clear_value a2
  try clear_value a3
  have ha4 : Mem Q a4 := by
    subst a4
    unfold Mem; dsimp only; refine mem_in ?_
    with_reducible exact ha2
  try clear_value a4
  with_reducible refine keep_ite ?_ ?_
  · with_reducible exact ha4
  · with_reducible refine State.tileWork_keeps W _ _ ?_
    with_reducible exact ha4

theorem fsyncLost_keeps (W : WritesLm Q) (s : State) (hs : Mem Q s) : Mem Q (fsyncLost s) := by
  unfold fsyncLost
  extract_lets -merge +onlyGivenNames a1 a2 a3 a4 a5 a6 a7
  try clear_value a1
  try clear_value a2
  have ha3 : Mem Q a3 := by
    subst a3
    with_reducible refine State.advanceTo_keeps _ _ ?_
    with_reducible exact hs
  try clear_value a3
  have ha4 : Mem Q a4.2 := by
    subst a4
    with_reducible refine State.takeZero_keeps _ ?_
    with_reducible exact ha3
  try clear_value a4
  have ha5 : Mem Q a5 := by
    subst a5
    with_reducible refine State.detect_keeps _ _ ?_
    with_reducible refine State.wr_keeps _ _ _ ?_
    with_reducible refine State.inc_keeps _ _ ?_
    with_reducible exact ha4
  try clear_value a5
  have ha6 : Mem Q a6 := by
    subst a6
    with_reducible refine State.tileFrame_keeps W _ _ ?_
    with_reducible exact ha5
  try clear_value a6
  try clear_value a7
  with_reducible refine keep_ite ?_ ?_
  · with_reducible exact hs
  · unfold Mem; dsimp only; refine mem_in ?_
    with_reducible exact ha6

theorem frameLatch_keeps (W : WritesLm Q) (s : State) (hs : Mem Q s) : Mem Q (frameLatch s) := by
  unfold frameLatch
  extract_lets -merge +onlyGivenNames a1
  try clear_value a1
  split <;> first
    | (with_reducible exact hs)
    | (extract_lets -merge +onlyGivenNames a2 a3
       have ha2 : Mem Q a2 := by
         subst a2
         with_reducible refine State.advanceTo_keeps _ _ ?_
         with_reducible exact hs
       try clear_value a2
       have ha3 : Mem Q a3 := by
         subst a3
         unfold Mem; dsimp only; refine mem_in ?_
         with_reducible exact ha2
       try clear_value a3
       with_reducible refine keep_ite ?_ ?_
       · with_reducible exact hs
       · with_reducible refine keep_ite ?_ ?_
         · with_reducible exact ha3
         · with_reducible refine State.tileFrame_keeps W _ _ ?_
           with_reducible refine State.lockUpdate_keeps _ ?_
           with_reducible refine State.applyDs_keeps _ ?_
           with_reducible exact ha3)

theorem execFsyncLost_keeps (W : WritesLm Q) (s : State) (hs : Mem Q s) : OutMem Q (execFsyncLost s) := by
  unfold execFsyncLost
  with_reducible refine onLive_keeps _ _ ?_ ?_
  · with_reducible exact hs
  · intro x1 h1
    with_reducible refine fsyncLost_keeps W _ ?_
    with_reducible exact h1

theorem execPortActive_keeps (port : Nat) (s : State) (hs : Mem Q s) : OutMem Q (execPortActive port s) := by
  unfold execPortActive
  with_reducible refine onLive_keeps _ _ ?_ ?_
  · with_reducible exact hs
  · intro x1 h1
    with_reducible refine onPort_keeps _ _ _ ?_ ?_
    · intro x2 h2
      extract_lets -merge +onlyGivenNames a1
      have ha1 : Mem Q a1 := by
        subst a1
        with_reducible refine portActive_keeps _ _ ?_
        with_reducible exact h2
      try clear_value a1
      with_reducible refine keep_ite ?_ ?_
      · with_reducible refine State.leaveNight_keeps _ ?_
        with_reducible exact ha1
      · with_reducible exact ha1
    · with_reducible exact h1

theorem fsyncEdge_keeps (W : WritesLm Q) (rising : Bool) (s : State) (hs : Mem Q s) : Mem Q (fsyncEdge rising s) := by
  unfold fsyncEdge
  extract_lets -merge +onlyGivenNames a1
  have ha1 : Mem Q a1.2 := by
    subst a1
    with_reducible refine State.takeZero_keeps _ ?_
    with_reducible refine State.advance_keeps _ _ ?_
    with_reducible exact hs
  try clear_value a1
  with_reducible refine keep_ite ?_ ?_
  · with_reducible exact hs
  · with_reducible refine keep_ite ?_ ?_
    · with_reducible refine State.detect_keeps _ _ ?_
      with_reducible refine State.inc_keeps _ _ ?_
      with_reducible exact hs
    · with_reducible refine State.tileFrame_keeps W _ _ ?_
      with_reducible refine State.wr_keeps _ _ _ ?_
      with_reducible exact ha1

theorem freeRunFrameStart_keeps (W : WritesLm Q) (s : State) (hs : Mem Q s) : Mem Q (freeRunFrameStart s) := by
  unfold freeRunFrameStart
  extract_lets -merge +onlyGivenNames a1 a2 a3 a4 a5 a6 a7
  try clear_value a1
  try clear_value a2
  have ha3 : Mem Q a3 := by
    subst a3
    with_reducible refine State.advanceTo_keeps _ _ ?_
    with_reducible exact hs
  try clear_value a3
  have ha4 : Mem Q a4 := by
    subst a4
    with_reducible refine keep_ite ?_ ?_
    · with_reducible refine State.wr_keeps _ _ _ ?_
      with_reducible refine State.inc_keeps _ _ ?_
      with_reducible exact ha3
    · with_reducible exact ha3
  try clear_value a4
  have ha5 : Mem Q a5.2 := by
    subst a5
    with_reducible refine keep_ite2 ?_ ?_
    · with_reducible refine State.takeZero_keeps _ ?_
      with_reducible exact ha4
    · with_reducible refine mem_snd ?_
      with_reducible exact ha4
  try clear_value a5
  have ha6 : Mem Q a6 := by
    subst a6
    with_reducible refine State.lockUpdate_keeps _ ?_
    with_reducible refine State.tileFrame_keeps W _ _ ?_
    with_reducible exact ha5
  try clear_value a6
  try clear_value a7
  with_reducible refine keep_ite ?_ ?_
  · with_reducible exact hs
  · unfold Mem; dsimp only; refine mem_in ?_
    with_reducible exact ha6

theorem execFsyncEdge_keeps (W : WritesLm Q) (rising : Bool) (s : State) (hs : Mem Q s) : OutMem Q (execFsyncEdge rising s) := by
  unfold execFsyncEdge
  with_reducible refine onLive_keeps _ _ ?_ ?_
  · with_reducible exact hs
  · intro x1 h1
    with_reducible refine fsyncEdge_keeps W _ _ ?_
    with_reducible exact h1

theorem execFreeRunFrameStart_keeps (W : WritesLm Q) (s : State) (hs : Mem Q s) : OutMem Q (execFreeRunFrameStart s) := by
  unfold execFreeRunFrameStart
  with_reducible refine onLive_keeps _ _ ?_ ?_
  · with_reducible exact hs
  · intro x1 h1
    with_reducible refine freeRunFrameStart_keeps W _ ?_
    with_reducible exact h1

theorem execFrameLatch_keeps (W : WritesLm Q) (s : State) (hs : Mem Q s) : OutMem Q (execFrameLatch s) := by
  unfold execFrameLatch
  with_reducible refine onLive_keeps _ _ ?_ ?_
  · with_reducible exact hs
  · intro x1 h1
    with_reducible refine frameLatch_keeps W _ ?_
    with_reducible exact h1

end Sys2Proof.Machine
end

