-- ==== Sys2Proof/Laws/KeepsNet.lean ====
section
/-! SUPPORT. The operations and meanings of Tables, NetOps, Audio, Fault keep any property of the stores and the straps that the writes they
make keep (see Laws/Memory.lean). -/

namespace Sys2Proof.Machine

variable {Q : Store → Store → StrapBalls → Prop}

theorem referenceRelease_keeps (ok : Bool) (s : State) (hs : Mem Q s) : Mem Q (referenceRelease ok s) := by
  unfold referenceRelease
  split <;> first
    | (with_reducible exact hs)
    | (extract_lets -merge +onlyGivenNames a1
       try clear_value a1
       split <;> first
         | (with_reducible refine State.detect_keeps _ _ ?_
            with_reducible exact hs)
         | (extract_lets -merge +onlyGivenNames a2 a3
            have ha2 : Mem Q a2 := by
              subst a2
              with_reducible refine State.postEntry_keeps _ _ _ _ ?_
              with_reducible exact hs
            try clear_value a2
            try clear_value a3
            with_reducible refine keep_ite ?_ ?_
            · with_reducible refine State.haltCq_keeps _ _ _ ?_
              with_reducible exact hs
            · unfold Mem; dsimp only; refine mem_in ?_
              with_reducible exact ha2))

theorem execReferenceRelease_keeps (ok : Bool) (s : State) (hs : Mem Q s) : OutMem Q (execReferenceRelease ok s) := by
  unfold execReferenceRelease
  with_reducible refine onLive_keeps _ _ ?_ ?_
  · with_reducible exact hs
  · intro x1 h1
    with_reducible refine keep_ite ?_ ?_
    · with_reducible refine referenceRelease_keeps _ _ ?_
      with_reducible exact h1
    · with_reducible exact h1

theorem patchApply_keeps (W : WritesLm Q) (s : State) (hs : Mem Q s) : Mem Q (patchApply s) := by
  unfold patchApply
  extract_lets -merge +onlyGivenNames a1 a2 a3
  try clear_value a1
  have ha2 : Mem Q a2 := by
    subst a2
    refine keep_foldl ?_ ?_
    · with_reducible exact hs
    · intro x1 x2 h1
      extract_lets -merge +onlyGivenNames a4
      have ha4 : Mem Q a4 := by
        subst a4
        refine keep_foldl ?_ ?_
        · with_reducible exact h1
        · intro x3 x4 h2
          with_reducible refine State.lmWrite_keeps W _ _ _ ?_
          with_reducible exact h2
      try clear_value a4
      with_reducible refine State.finishAs_keeps W _ _ _ _ _ _ _ ?_
      with_reducible refine State.incBy_keeps _ _ _ ?_
      with_reducible exact ha4
  try clear_value a2
  try clear_value a3
  with_reducible refine keep_ite ?_ ?_
  · with_reducible exact hs
  · unfold Mem; dsimp only; refine mem_in ?_
    with_reducible exact ha2

theorem execPatchApply_keeps (W : WritesLm Q) (s : State) (hs : Mem Q s) : OutMem Q (execPatchApply s) := by
  unfold execPatchApply
  with_reducible refine onRun_keeps _ _ ?_ ?_
  · with_reducible exact hs
  · intro x1 h1
    with_reducible refine patchApply_keeps W _ ?_
    with_reducible exact h1

theorem canopyStats_keeps (W : WritesLm Q) (d : Desc) (ok : Bool) (s : State) (hs : Mem Q s) : Mem Q (canopyStats d ok s) := by
  unfold canopyStats
  extract_lets -merge +onlyGivenNames a1
  try clear_value a1
  with_reducible refine keep_ite ?_ ?_
  · with_reducible refine State.finish_keeps W _ _ _ _ _ ?_
    with_reducible exact hs
  · with_reducible refine keep_ite ?_ ?_
    · with_reducible refine State.finish_keeps W _ _ _ _ _ ?_
      with_reducible exact hs
    · with_reducible refine keep_ite ?_ ?_
      · with_reducible refine State.finish_keeps W _ _ _ _ _ ?_
        with_reducible exact hs
      · with_reducible refine State.finish_keeps W _ _ _ _ _ ?_
        with_reducible refine State.returnTo_keeps W _ _ _ _ ?_
        with_reducible exact hs

theorem tablePatch_keeps (W : WritesLm Q) (d : Desc) (src : HostData) (s : State) (hs : Mem Q s) : Mem Q (tablePatch d src s) := by
  unfold tablePatch
  extract_lets -merge +onlyGivenNames a1 a2 a3 a4 a5 a6 a7 a8 a9
  try clear_value a1
  try clear_value a2
  try clear_value a3
  try clear_value a4
  try clear_value a5
  try clear_value a6
  try clear_value a7
  have ha8 : Mem Q a8 := by
    subst a8
    with_reducible refine State.starts_keeps _ _ ?_
    with_reducible exact hs
  try clear_value a8
  try clear_value a9
  with_reducible refine keep_ite ?_ ?_
  · with_reducible refine State.finish_keeps W _ _ _ _ _ ?_
    with_reducible exact hs
  · with_reducible refine keep_ite ?_ ?_
    · with_reducible refine State.finish_keeps W _ _ _ _ _ ?_
      with_reducible exact hs
    · with_reducible refine keep_ite ?_ ?_
      · with_reducible refine State.finish_keeps W _ _ _ _ _ ?_
        with_reducible refine State.lmUncorr_keeps _ ?_
        with_reducible exact hs
      · with_reducible refine keep_ite ?_ ?_
        · with_reducible refine State.finish_keeps W _ _ _ _ _ ?_
          with_reducible exact hs
        · split <;> first
            | (with_reducible refine State.finish_keeps W _ _ _ _ _ ?_
               with_reducible exact hs)
            | (with_reducible refine keep_ite ?_ ?_
               · with_reducible refine State.finish_keeps W _ _ _ _ _ ?_
                 with_reducible exact hs
               · unfold Mem; dsimp only; refine mem_in ?_
                 with_reducible exact ha8)

theorem execCanopyStats_keeps (W : WritesLm Q) (d : Desc) (ok : Bool) (s : State) (hs : Mem Q s) : OutMem Q (execCanopyStats d ok s) := by
  unfold execCanopyStats
  with_reducible refine onOp_keeps W _ _ _ _ _ ?_ ?_
  · with_reducible exact hs
  · intro x1 h1
    with_reducible refine canopyStats_keeps W _ _ _ ?_
    with_reducible exact h1

theorem tableWrite_keeps (W : WritesLm Q) (d : Desc) (src : HostData) (src2 : HostData) (s : State) (hs : Mem Q s) : Mem Q (tableWrite d src src2 s) := by
  unfold tableWrite
  extract_lets -merge +onlyGivenNames a1 a2 a3 a4 a5 a6 a7 a8 a9 a10
  try clear_value a1
  try clear_value a2
  try clear_value a3
  try clear_value a4
  try clear_value a5
  try clear_value a6
  try clear_value a7
  try clear_value a8
  try clear_value a9
  try clear_value a10
  with_reducible refine keep_ite ?_ ?_
  · with_reducible refine State.finish_keeps W _ _ _ _ _ ?_
    with_reducible exact hs
  · with_reducible refine keep_ite ?_ ?_
    · with_reducible refine State.finish_keeps W _ _ _ _ _ ?_
      with_reducible exact hs
    · with_reducible refine keep_ite ?_ ?_
      · with_reducible refine State.finish_keeps W _ _ _ _ _ ?_
        with_reducible exact hs
      · with_reducible refine keep_ite ?_ ?_
        · with_reducible refine State.finish_keeps W _ _ _ _ _ ?_
          with_reducible exact hs
        · with_reducible refine keep_ite ?_ ?_
          · with_reducible refine State.finish_keeps W _ _ _ _ _ ?_
            with_reducible exact hs
          · with_reducible refine keep_ite ?_ ?_
            · with_reducible exact hs
            · with_reducible refine keep_ite ?_ ?_
              · with_reducible refine State.finish_keeps W _ _ _ _ _ ?_
                with_reducible refine State.lmUncorr_keeps _ ?_
                with_reducible exact hs
              · with_reducible refine keep_ite ?_ ?_
                · with_reducible refine State.finish_keeps W _ _ _ _ _ ?_
                  with_reducible exact hs
                · split <;> first
                    | (with_reducible refine State.finish_keeps W _ _ _ _ _ ?_
                       with_reducible exact hs)
                    | (with_reducible refine keep_ite ?_ ?_
                       · with_reducible refine State.finish_keeps W _ _ _ _ _ ?_
                         with_reducible refine State.scramble_keeps W _ _ _ ?_
                         with_reducible refine State.lmUncorr_keeps _ ?_
                         with_reducible exact hs
                       · with_reducible refine keep_ite ?_ ?_
                         · with_reducible refine State.finish_keeps W _ _ _ _ _ ?_
                           with_reducible refine State.lmWrite_keeps W _ _ _ ?_
                           with_reducible exact hs
                         · with_reducible refine State.finish_keeps W _ _ _ _ _ ?_
                           with_reducible refine State.scramble_keeps W _ _ _ ?_
                           with_reducible exact hs)

theorem execTablePatch_keeps (W : WritesLm Q) (d : Desc) (src : HostData) (s : State) (hs : Mem Q s) : OutMem Q (execTablePatch d src s) := by
  unfold execTablePatch
  with_reducible refine onOp_keeps W _ _ _ _ _ ?_ ?_
  · with_reducible exact hs
  · intro x1 h1
    with_reducible refine tablePatch_keeps W _ _ _ ?_
    with_reducible exact h1

theorem tableVerify_keeps (W : WritesLm Q) (d : Desc) (s : State) (hs : Mem Q s) : Mem Q (tableVerify d s) := by
  unfold tableVerify
  extract_lets -merge +onlyGivenNames a1 a2 a3 a4 a5
  try clear_value a1
  try clear_value a2
  try clear_value a3
  try clear_value a4
  try clear_value a5
  with_reducible refine keep_ite ?_ ?_
  · with_reducible refine State.finish_keeps W _ _ _ _ _ ?_
    with_reducible exact hs
  · with_reducible refine keep_ite ?_ ?_
    · with_reducible refine State.finish_keeps W _ _ _ _ _ ?_
      with_reducible exact hs
    · with_reducible refine keep_ite ?_ ?_
      · with_reducible refine State.finish_keeps W _ _ _ _ _ ?_
        with_reducible exact hs
      · with_reducible refine keep_ite ?_ ?_
        · with_reducible refine State.finish_keeps W _ _ _ _ _ ?_
          with_reducible exact hs
        · with_reducible refine State.readsLm_keeps W _ _ _ _ _ _ ?_ ?_
          · with_reducible exact hs
          · with_reducible refine State.finish_keeps W _ _ _ _ _ ?_
            with_reducible exact hs

theorem execTableWrite_keeps (W : WritesLm Q) (d : Desc) (src : HostData) (src2 : HostData) (s : State) (hs : Mem Q s) : OutMem Q (execTableWrite d src src2 s) := by
  unfold execTableWrite
  with_reducible refine onOp_keeps W _ _ _ _ _ ?_ ?_
  · with_reducible exact hs
  · intro x1 h1
    with_reducible refine tableWrite_keeps W _ _ _ _ ?_
    with_reducible exact h1

theorem execTableVerify_keeps (W : WritesLm Q) (d : Desc) (s : State) (hs : Mem Q s) : OutMem Q (execTableVerify d s) := by
  unfold execTableVerify
  with_reducible refine onOp_keeps W _ _ _ _ _ ?_ ?_
  · with_reducible exact hs
  · intro x1 h1
    with_reducible refine tableVerify_keeps W _ _ ?_
    with_reducible exact h1

theorem State.dispatched_keeps (s : State) (i : Nat) (e : Entry) (hs : Mem Q s) : Mem Q (State.dispatched s i e) := by
  unfold State.dispatched
  extract_lets -merge +onlyGivenNames a1 a2 a3
  try clear_value a1
  try clear_value a2
  try clear_value a3
  unfold Mem; dsimp only; refine mem_in ?_
  with_reducible exact hs

theorem State.startOut_keeps (s : State) (k : Nat) (cls : Nat) (a : Nat) (n : Word) (hs : Mem Q s) : Mem Q (State.startOut s k cls a n) := by
  unfold State.startOut
  extract_lets -merge +onlyGivenNames a1
  try clear_value a1
  split <;> first
    | (with_reducible exact hs)
    | (extract_lets -merge +onlyGivenNames a2
       try clear_value a2
       unfold Mem; dsimp only; refine mem_in ?_
       with_reducible exact hs)

theorem State.startVideo_keeps (s : State) (n : Word) (hs : Mem Q s) : Mem Q (State.startVideo s n) := by
  unfold State.startVideo
  extract_lets -merge +onlyGivenNames a1
  try clear_value a1
  unfold Mem; dsimp only; refine mem_in ?_
  with_reducible exact hs

theorem State.selectFrames_keeps (s : State) (n : Word) (hs : Mem Q s) : Mem Q (State.selectFrames s n) := by
  unfold State.selectFrames
  refine keep_foldl ?_ ?_
  · with_reducible exact hs
  · intro x1 x2 h1
    split <;> first
      | (extract_lets -merge +onlyGivenNames a1
         have ha1 : Mem Q a1 := by
           subst a1
           with_reducible refine keep_ite ?_ ?_
           · with_reducible refine State.countSrc_keeps _ _ _ ?_
             with_reducible exact h1
           · with_reducible exact h1
         try clear_value a1
         split <;> first
           | (with_reducible exact h1)
           | (with_reducible refine keep_ite ?_ ?_
              · with_reducible exact h1
              · with_reducible refine State.startOut_keeps _ _ _ _ _ ?_
                with_reducible refine State.setSource_keeps _ _ _ ?_
                with_reducible exact ha1))
      | (with_reducible exact h1)

theorem State.queueLine_keeps (s : State) (o : ReadOut) (f : Fmt) (line : Nat) (hs : Mem Q s) : Mem Q (State.queueLine s o f line) := by
  unfold State.queueLine
  extract_lets -merge +onlyGivenNames a1
  try clear_value a1
  refine keep_foldl ?_ ?_
  · with_reducible exact hs
  · intro x1 x2 h1
    extract_lets -merge +onlyGivenNames a2
    try clear_value a2
    with_reducible refine State.queueChunk_keeps _ _ ?_
    with_reducible exact h1

theorem State.pumpOuts_keeps (s : State) (hs : Mem Q s) : Mem Q (State.pumpOuts s) := by
  unfold State.pumpOuts
  extract_lets -merge +onlyGivenNames a1 a2 a3
  try clear_value a1
  try clear_value a2
  have ha3 : Mem Q a3 := by
    subst a3
    unfold Mem; dsimp only; refine mem_in ?_
    with_reducible exact hs
  try clear_value a3
  refine keep_foldl ?_ ?_
  · with_reducible exact ha3
  · intro x1 x2 h1
    split <;> first
      | (with_reducible exact h1)
      | (extract_lets -merge +onlyGivenNames a4 a5 a6 a7
         try clear_value a4
         try clear_value a5
         have ha6 : Mem Q a6 := by
           subst a6
           refine keep_foldl ?_ ?_
           · with_reducible exact h1
           · intro x3 x4 h2
             with_reducible refine State.queueLine_keeps _ _ _ _ ?_
             with_reducible exact h2
         try clear_value a6
         try clear_value a7
         with_reducible refine keep_ite ?_ ?_
         · unfold Mem; dsimp only; refine mem_in ?_
           with_reducible exact ha6
         · with_reducible refine keep_ite ?_ ?_
           · with_reducible refine State.setSource_keeps _ _ _ ?_
             with_reducible exact ha6
           · with_reducible exact ha6)

theorem State.cutPreview_keeps (s : State) (n : Word) (hs : Mem Q s) : Mem Q (State.cutPreview s n) := by
  unfold State.cutPreview
  extract_lets -merge +onlyGivenNames a1
  try clear_value a1
  split <;> first
    | (with_reducible exact hs)
    | (with_reducible refine keep_ite ?_ ?_
       · with_reducible exact hs
       · with_reducible refine State.retireIfDone_keeps _ ?_
         unfold Mem; dsimp only; refine mem_in ?_
         with_reducible exact hs)

theorem State.fetchFailed_keeps (s : State) (e : Nat × Nat) (hs : Mem Q s) : Mem Q (State.fetchFailed s e) := by
  unfold State.fetchFailed
  with_reducible refine State.detect_keeps _ _ ?_
  with_reducible refine State.inc_keeps _ _ ?_
  with_reducible exact hs

theorem State.waitsUnit_keeps (s : State) (i : Nat) (hs : Mem Q s) : Mem Q (State.waitsUnit s i) := by
  unfold State.waitsUnit
  extract_lets -merge +onlyGivenNames a1 a2
  try clear_value a1
  try clear_value a2
  with_reducible refine keep_ite ?_ ?_
  · with_reducible exact hs
  · with_reducible refine State.detect_keeps _ _ ?_
    unfold Mem; dsimp only; refine mem_in ?_
    with_reducible exact hs

theorem hostFetchComplete_keeps (W : WritesLm Q) (k : Nat) (gen1 : Word) (image : HostData) (gen2 : Word) (s : State) (hs : Mem Q s) : Mem Q (hostFetchComplete k gen1 image gen2 s) := by
  unfold hostFetchComplete
  extract_lets -merge +onlyGivenNames a1 a2 a3
  try clear_value a1
  try clear_value a2
  have ha3 : Mem Q a3 := by
    subst a3
    unfold Mem; dsimp only; refine mem_in ?_
    with_reducible exact hs
  try clear_value a3
  split <;> first
    | (extract_lets -merge +onlyGivenNames a4 a5 a6 a7
       try clear_value a4
       try clear_value a5
       have ha6 : Mem Q a6 := by
         subst a6
         with_reducible refine State.lmWrite_keeps W _ _ _ ?_
         with_reducible exact ha3
       try clear_value a6
       try clear_value a7
       with_reducible refine keep_ite ?_ ?_
       · with_reducible refine State.fetchFailed_keeps _ _ ?_
         with_reducible exact ha3
       · with_reducible refine keep_ite ?_ ?_
         · with_reducible refine State.startOut_keeps _ _ _ _ _ ?_
           unfold Mem; dsimp only; refine mem_in ?_
           with_reducible exact ha6
         · with_reducible refine State.fetchFailed_keeps _ _ ?_
           with_reducible exact ha6)
    | (with_reducible exact hs)

theorem State.beginPreview_keeps (s : State) (o : Bytes) (hs : Mem Q s) : Mem Q (State.beginPreview s o) := by
  unfold State.beginPreview
  extract_lets -merge +onlyGivenNames a1 a2 a3 a4 a5 a6 a7 a8
  try clear_value a1
  try clear_value a2
  try clear_value a3
  try clear_value a4
  try clear_value a5
  try clear_value a6
  have ha7 : Mem Q a7 := by
    subst a7
    refine keep_foldl ?_ ?_
    · with_reducible refine State.layersOff_keeps _ _ ?_
      with_reducible exact hs
    · intro x1 x2 h1
      with_reducible refine State.detectIf_keeps _ _ _ ?_
      with_reducible refine State.countLayer_keeps _ _ _ ?_
      with_reducible exact h1
  try clear_value a7
  try clear_value a8
  unfold Mem; dsimp only; refine mem_in ?_
  with_reducible exact ha7

theorem State.startFetches_keeps (s : State) (n : Word) (hs : Mem Q s) : Mem Q (State.startFetches s n) := by
  unfold State.startFetches
  extract_lets -merge +onlyGivenNames a1 a2 a3
  have ha1 : Mem Q a1 := by
    subst a1
    refine keep_foldl ?_ ?_
    · with_reducible exact hs
    · intro x1 x2 h1
      with_reducible refine State.fetchFailed_keeps _ _ ?_
      with_reducible exact h1
  try clear_value a1
  try clear_value a2
  try clear_value a3
  unfold Mem; dsimp only; refine mem_in ?_
  with_reducible exact ha1

theorem State.unitPreview_keeps (s : State) (hs : Mem Q s) : Mem Q (State.unitPreview s).2 := by
  unfold State.unitPreview
  split <;> first
    | (with_reducible refine mem_snd ?_
       with_reducible refine State.unitDone_keeps _ _ ?_
       with_reducible exact hs)
    | (with_reducible refine keep_ite2 ?_ ?_
       · with_reducible refine mem_snd ?_
         with_reducible refine State.unitDone_keeps _ _ ?_
         with_reducible exact hs
       · with_reducible refine keep_ite2 ?_ ?_
         · with_reducible refine mem_snd ?_
           with_reducible exact hs
         · with_reducible refine mem_snd ?_
           with_reducible refine State.beginPreview_keeps _ _ ?_
           with_reducible exact hs)

theorem execHostFetchComplete_keeps (W : WritesLm Q) (source : Nat) (gen1 : Word) (image : HostData) (gen2 : Word) (s : State) (hs : Mem Q s) : OutMem Q (execHostFetchComplete source gen1 image gen2 s) := by
  unfold execHostFetchComplete
  with_reducible refine onLive_keeps _ _ ?_ ?_
  · with_reducible exact hs
  · intro x1 h1
    with_reducible refine keep_ite ?_ ?_
    · with_reducible refine hostFetchComplete_keeps W _ _ _ _ _ ?_
      with_reducible exact h1
    · with_reducible exact h1

theorem State.previewDone_keeps (W : WritesLm Q) (s : State) (v : Preview) (hs : Mem Q s) : Mem Q (State.previewDone s v) := by
  unfold State.previewDone
  extract_lets -merge +onlyGivenNames a1 a2
  try clear_value a1
  try clear_value a2
  split <;> first
    | (with_reducible refine State.retireIfDone_keeps _ ?_
       unfold Mem; dsimp only; refine mem_in ?_
       with_reducible exact hs)
    | (extract_lets -merge +onlyGivenNames a3 a4 a5 a6 a7 a8 a9 a10 a11
       have ha3 : Mem Q a3 := by
         subst a3
         with_reducible refine State.advanceTo_keeps _ _ ?_
         with_reducible exact hs
       try clear_value a3
       try clear_value a4
       try clear_value a5
       try clear_value a6
       try clear_value a7
       have ha8 : Mem Q a8 := by
         subst a8
         refine keep_foldl ?_ ?_
         · with_reducible exact ha3
         · intro x1 x2 h1
           with_reducible refine State.lmWrite_keeps W _ _ _ ?_
           with_reducible exact h1
       try clear_value a8
       have ha9 : Mem Q a9 := by
         subst a9
         with_reducible refine State.blockEcc_keeps _ _ _ ?_
         with_reducible refine State.detectIf_keeps _ _ _ ?_
         with_reducible exact ha8
       try clear_value a9
       try clear_value a10
       try clear_value a11
       with_reducible refine State.unitDone_keeps _ _ ?_
       with_reducible refine State.retireIfDone_keeps _ ?_
       unfold Mem; dsimp only; refine mem_in ?_
       with_reducible exact ha9)

theorem State.runUnit_keeps (s : State) (e : Entry) (hs : Mem Q s) : Mem Q (State.runUnit s e).2 := by
  unfold State.runUnit
  extract_lets -merge +onlyGivenNames a1
  try clear_value a1
  split <;> first
    | (with_reducible refine keep_ite2 ?_ ?_
       · with_reducible refine State.unitCompose_keeps _ ?_
         with_reducible exact hs
       · with_reducible refine State.unitPreview_keeps _ ?_
         with_reducible exact hs)
    | (with_reducible refine mem_snd ?_
       with_reducible exact hs)
    | (with_reducible refine mem_snd ?_
       with_reducible refine State.unitDone_keeps _ _ ?_
       unfold Mem; dsimp only; refine mem_in ?_
       with_reducible exact hs)
    | (with_reducible refine mem_snd ?_
       with_reducible refine State.unitDone_keeps _ _ ?_
       with_reducible refine State.unitPattern_keeps _ ?_
       with_reducible exact hs)
    | (with_reducible refine mem_snd ?_
       with_reducible refine State.unitDone_keeps _ _ ?_
       with_reducible refine State.unitGlade_keeps _ ?_
       with_reducible exact hs)
    | (with_reducible refine mem_snd ?_
       with_reducible refine State.unitDone_keeps _ _ ?_
       with_reducible exact hs)

theorem passComplete_keeps (W : WritesLm Q) (s : State) (hs : Mem Q s) : Mem Q (passComplete s) := by
  unfold passComplete
  with_reducible refine keep_ite ?_ ?_
  · with_reducible refine State.passDone_keeps W _ ?_
    with_reducible exact hs
  · split <;> first
      | (with_reducible refine State.previewDone_keeps W _ _ ?_
         with_reducible exact hs)
      | (with_reducible exact hs)

theorem State.headFrame_keeps (W : WritesLm Q) (s : State) (n : Word) (hs : Mem Q s) : Mem Q (State.headFrame s n) := by
  unfold State.headFrame
  extract_lets -merge +onlyGivenNames a1 a2 a3 a4
  have ha1 : Mem Q a1 := by
    subst a1
    with_reducible refine State.settlePvw_keeps _ ?_
    with_reducible refine State.startVideo_keeps _ _ ?_
    with_reducible refine State.detectIf_keeps _ _ _ ?_
    with_reducible exact hs
  try clear_value a1
  try clear_value a2
  have ha3 : Mem Q a3 := by
    subst a3
    with_reducible refine State.cutPreview_keeps _ _ ?_
    unfold Mem; dsimp only; refine mem_in ?_
    with_reducible exact ha1
  try clear_value a3
  have ha4 : Mem Q a4 := by
    subst a4
    with_reducible refine State.commitsAt_keeps W _ _ ?_
    with_reducible exact ha3
  try clear_value a4
  with_reducible refine keep_ite ?_ ?_
  · with_reducible exact hs
  · with_reducible refine State.arm_keeps _ ?_
    with_reducible refine State.startFetches_keeps _ _ ?_
    with_reducible refine State.selectFrames_keeps _ _ ?_
    with_reducible exact ha4

theorem execPassComplete_keeps (W : WritesLm Q) (s : State) (hs : Mem Q s) : OutMem Q (execPassComplete s) := by
  unfold execPassComplete
  with_reducible refine onRun_keeps _ _ ?_ ?_
  · with_reducible exact hs
  · intro x1 h1
    with_reducible refine passComplete_keeps W _ ?_
    with_reducible exact h1

theorem flowClear_keeps (W : WritesLm Q) (d : Desc) (s : State) (hs : Mem Q s) : Mem Q (flowClear d s) := by
  unfold flowClear
  extract_lets -merge +onlyGivenNames a1 a2
  try clear_value a1
  try clear_value a2
  with_reducible refine keep_ite ?_ ?_
  · with_reducible refine State.finish_keeps W _ _ _ _ _ ?_
    with_reducible exact hs
  · with_reducible refine State.finish_keeps W _ _ _ _ _ ?_
    unfold Mem; dsimp only; refine mem_in ?_
    with_reducible exact hs

theorem sacnMap_keeps (W : WritesLm Q) (d : Desc) (s : State) (hs : Mem Q s) : Mem Q (sacnMap d s) := by
  unfold sacnMap
  extract_lets -merge +onlyGivenNames a1 a2 a3 a4 a5 a6
  try clear_value a1
  try clear_value a2
  try clear_value a3
  try clear_value a4
  try clear_value a5
  try clear_value a6
  with_reducible refine keep_ite ?_ ?_
  · with_reducible refine State.finish_keeps W _ _ _ _ _ ?_
    with_reducible exact hs
  · with_reducible refine State.finish_keeps W _ _ _ _ _ ?_
    unfold Mem; dsimp only; refine mem_in ?_
    with_reducible exact hs

theorem execFlowClear_keeps (W : WritesLm Q) (d : Desc) (s : State) (hs : Mem Q s) : OutMem Q (execFlowClear d s) := by
  unfold execFlowClear
  with_reducible refine onOp_keeps W _ _ _ _ _ ?_ ?_
  · with_reducible exact hs
  · intro x1 h1
    with_reducible refine flowClear_keeps W _ _ ?_
    with_reducible exact h1

theorem State.setPvw_keeps (W : WritesLm Q) (s : State) (d : Desc) (hs : Mem Q s) : Mem Q (State.setPvw s d) := by
  unfold State.setPvw
  extract_lets -merge +onlyGivenNames a1
  try clear_value a1
  with_reducible refine State.finish_keeps W _ _ _ _ _ ?_
  unfold Mem; dsimp only; refine mem_in ?_
  with_reducible exact hs

theorem txflowSet_keeps (W : WritesLm Q) (d : Desc) (s : State) (hs : Mem Q s) : Mem Q (txflowSet d s) := by
  unfold txflowSet
  extract_lets -merge +onlyGivenNames a1 a2
  try clear_value a1
  try clear_value a2
  with_reducible refine keep_ite ?_ ?_
  · with_reducible refine State.finish_keeps W _ _ _ _ _ ?_
    with_reducible exact hs
  · with_reducible refine State.finish_keeps W _ _ _ _ _ ?_
    unfold Mem; dsimp only; refine mem_in ?_
    with_reducible exact hs

theorem stepDispatch_keeps (i : Nat) (s : State) (hs : Mem Q s) : Mem Q (stepDispatch i s) := by
  unfold stepDispatch
  split <;> first
    | (with_reducible exact hs)
    | (split <;> first
         | (with_reducible exact hs)
         | (extract_lets -merge +onlyGivenNames a1 a2 a3 a4
            have ha1 : Mem Q a1 := by
              subst a1
              with_reducible refine State.advanceTo_keeps _ _ ?_
              with_reducible exact hs
            try clear_value a1
            have ha2 : Mem Q a2.2 := by
              subst a2
              with_reducible refine State.runUnit_keeps _ _ ?_
              with_reducible exact ha1
            try clear_value a2
            have ha3 : Mem Q a3 := by
              subst a3
              with_reducible exact ha2
            try clear_value a3
            try clear_value a4
            with_reducible refine keep_ite ?_ ?_
            · with_reducible exact hs
            · with_reducible refine keep_ite ?_ ?_
              · with_reducible refine State.dispatched_keeps _ _ _ ?_
                with_reducible exact ha1
              · with_reducible refine keep_ite ?_ ?_
                · with_reducible refine State.dispatched_keeps _ _ _ ?_
                  unfold Mem; dsimp only; refine mem_in ?_
                  with_reducible exact ha3
                · with_reducible refine State.waitsUnit_keeps _ _ ?_
                  with_reducible exact ha2))

theorem rxPost_keeps (W : WritesLm Q) (d : Desc) (s : State) (hs : Mem Q s) : Mem Q (rxPost d s) := by
  unfold rxPost
  extract_lets -merge +onlyGivenNames a1 a2 a3
  try clear_value a1
  have ha2 : Mem Q a2 := by
    subst a2
    with_reducible refine State.starts_keeps _ _ ?_
    with_reducible exact hs
  try clear_value a2
  try clear_value a3
  with_reducible refine keep_ite ?_ ?_
  · with_reducible refine State.finish_keeps W _ _ _ _ _ ?_
    with_reducible exact hs
  · with_reducible refine keep_ite ?_ ?_
    · with_reducible refine State.finish_keeps W _ _ _ _ _ ?_
      with_reducible exact hs
    · unfold Mem; dsimp only; refine mem_in ?_
      with_reducible exact ha2

theorem execSacnMap_keeps (W : WritesLm Q) (d : Desc) (s : State) (hs : Mem Q s) : OutMem Q (execSacnMap d s) := by
  unfold execSacnMap
  with_reducible refine onOp_keeps W _ _ _ _ _ ?_ ?_
  · with_reducible exact hs
  · intro x1 h1
    with_reducible refine sacnMap_keeps W _ _ ?_
    with_reducible exact h1

theorem sourceSet_keeps (W : WritesLm Q) (d : Desc) (s : State) (hs : Mem Q s) : Mem Q (sourceSet d s) := by
  unfold sourceSet
  extract_lets -merge +onlyGivenNames a1 a2 a3 a4 a5 a6 a7 a8
  try clear_value a1
  try clear_value a2
  try clear_value a3
  try clear_value a4
  try clear_value a5
  try clear_value a6
  try clear_value a7
  try clear_value a8
  with_reducible refine keep_ite ?_ ?_
  · with_reducible refine State.finish_keeps W _ _ _ _ _ ?_
    with_reducible exact hs
  · with_reducible refine keep_ite ?_ ?_
    · with_reducible refine State.finish_keeps W _ _ _ _ _ ?_
      with_reducible exact hs
    · with_reducible refine keep_ite ?_ ?_
      · with_reducible refine State.finish_keeps W _ _ _ _ _ ?_
        with_reducible exact hs
      · with_reducible refine keep_ite ?_ ?_
        · with_reducible refine State.finish_keeps W _ _ _ _ _ ?_
          with_reducible exact hs
        · with_reducible refine State.finish_keeps W _ _ _ _ _ ?_
          with_reducible refine State.showSrc_keeps _ _ _ ?_
          with_reducible refine State.setSource_keeps _ _ _ ?_
          with_reducible exact hs

theorem flowStats_keeps (W : WritesLm Q) (d : Desc) (ok : Bool) (s : State) (hs : Mem Q s) : Mem Q (flowStats d ok s) := by
  unfold flowStats
  extract_lets -merge +onlyGivenNames a1 a2
  try clear_value a1
  try clear_value a2
  with_reducible refine keep_ite ?_ ?_
  · with_reducible refine State.finish_keeps W _ _ _ _ _ ?_
    with_reducible exact hs
  · with_reducible refine keep_ite ?_ ?_
    · with_reducible refine State.finish_keeps W _ _ _ _ _ ?_
      with_reducible exact hs
    · with_reducible refine State.finish_keeps W _ _ _ _ _ ?_
      with_reducible refine State.emit_keeps _ _ ?_
      with_reducible exact hs

theorem flowSet_keeps (W : WritesLm Q) (d : Desc) (s : State) (hs : Mem Q s) : Mem Q (flowSet d s) := by
  unfold flowSet
  extract_lets -merge +onlyGivenNames a1 a2 a3 a4
  try clear_value a1
  try clear_value a2
  try clear_value a3
  try clear_value a4
  with_reducible refine keep_ite ?_ ?_
  · with_reducible refine State.finish_keeps W _ _ _ _ _ ?_
    with_reducible exact hs
  · with_reducible refine keep_ite ?_ ?_
    · with_reducible refine State.finish_keeps W _ _ _ _ _ ?_
      with_reducible exact hs
    · with_reducible refine State.finish_keeps W _ _ _ _ _ ?_
      unfold Mem; dsimp only; refine mem_in ?_
      with_reducible exact hs

theorem sacnCue_keeps (W : WritesLm Q) (d : Desc) (s : State) (hs : Mem Q s) : Mem Q (sacnCue d s) := by
  unfold sacnCue
  extract_lets -merge +onlyGivenNames a1
  try clear_value a1
  with_reducible refine keep_ite ?_ ?_
  · with_reducible refine State.finish_keeps W _ _ _ _ _ ?_
    with_reducible exact hs
  · with_reducible refine State.finish_keeps W _ _ _ _ _ ?_
    unfold Mem; dsimp only; refine mem_in ?_
    with_reducible exact hs

theorem execSacnCue_keeps (W : WritesLm Q) (d : Desc) (s : State) (hs : Mem Q s) : OutMem Q (execSacnCue d s) := by
  unfold execSacnCue
  with_reducible refine onOp_keeps W _ _ _ _ _ ?_ ?_
  · with_reducible exact hs
  · intro x1 h1
    with_reducible refine sacnCue_keeps W _ _ ?_
    with_reducible exact h1

theorem execSourceSet_keeps (W : WritesLm Q) (d : Desc) (s : State) (hs : Mem Q s) : OutMem Q (execSourceSet d s) := by
  unfold execSourceSet
  with_reducible refine onOp_keeps W _ _ _ _ _ ?_ ?_
  · with_reducible exact hs
  · intro x1 h1
    with_reducible refine sourceSet_keeps W _ _ ?_
    with_reducible exact h1

theorem execRxPost_keeps (W : WritesLm Q) (d : Desc) (s : State) (hs : Mem Q s) : OutMem Q (execRxPost d s) := by
  unfold execRxPost
  with_reducible refine onOp_keeps W _ _ _ _ _ ?_ ?_
  · with_reducible exact hs
  · intro x1 h1
    with_reducible refine rxPost_keeps W _ _ ?_
    with_reducible exact h1

theorem execTxflowSet_keeps (W : WritesLm Q) (d : Desc) (s : State) (hs : Mem Q s) : OutMem Q (execTxflowSet d s) := by
  unfold execTxflowSet
  with_reducible refine onOp_keeps W _ _ _ _ _ ?_ ?_
  · with_reducible exact hs
  · intro x1 h1
    with_reducible refine txflowSet_keeps W _ _ ?_
    with_reducible exact h1

theorem execStepDispatch_keeps (entry : Nat) (s : State) (hs : Mem Q s) : OutMem Q (execStepDispatch entry s) := by
  unfold execStepDispatch
  with_reducible refine onRun_keeps _ _ ?_ ?_
  · with_reducible exact hs
  · intro x1 h1
    with_reducible refine stepDispatch_keeps _ _ ?_
    with_reducible exact h1

theorem execFlowSet_keeps (W : WritesLm Q) (d : Desc) (s : State) (hs : Mem Q s) : OutMem Q (execFlowSet d s) := by
  unfold execFlowSet
  with_reducible refine onOp_keeps W _ _ _ _ _ ?_ ?_
  · with_reducible exact hs
  · intro x1 h1
    with_reducible refine flowSet_keeps W _ _ ?_
    with_reducible exact h1

theorem execFlowStats_keeps (W : WritesLm Q) (d : Desc) (ok : Bool) (s : State) (hs : Mem Q s) : OutMem Q (execFlowStats d ok s) := by
  unfold execFlowStats
  with_reducible refine onOp_keeps W _ _ _ _ _ ?_ ?_
  · with_reducible exact hs
  · intro x1 h1
    with_reducible refine flowStats_keeps W _ _ _ ?_
    with_reducible exact h1

theorem previewSet_keeps (W : WritesLm Q) (d : Desc) (s : State) (hs : Mem Q s) : Mem Q (previewSet d s) := by
  unfold previewSet
  extract_lets -merge +onlyGivenNames a1 a2 a3 a4 a5
  try clear_value a1
  try clear_value a2
  try clear_value a3
  try clear_value a4
  try clear_value a5
  with_reducible refine keep_ite ?_ ?_
  · with_reducible refine keep_ite ?_ ?_
    · with_reducible refine State.finish_keeps W _ _ _ _ _ ?_
      with_reducible exact hs
    · with_reducible refine keep_ite ?_ ?_
      · with_reducible refine State.finish_keeps W _ _ _ _ _ ?_
        with_reducible exact hs
      · with_reducible refine keep_ite ?_ ?_
        · with_reducible refine State.finish_keeps W _ _ _ _ _ ?_
          with_reducible exact hs
        · with_reducible refine State.setPvw_keeps W _ _ ?_
          with_reducible exact hs
  · with_reducible refine keep_ite ?_ ?_
    · with_reducible refine keep_ite ?_ ?_
      · with_reducible refine State.finish_keeps W _ _ _ _ _ ?_
        with_reducible exact hs
      · with_reducible refine keep_ite ?_ ?_
        · with_reducible refine State.finish_keeps W _ _ _ _ _ ?_
          with_reducible exact hs
        · with_reducible refine State.setPvw_keeps W _ _ ?_
          with_reducible exact hs
    · with_reducible refine keep_ite ?_ ?_
      · with_reducible refine keep_ite ?_ ?_
        · with_reducible refine State.setPvw_keeps W _ _ ?_
          with_reducible exact hs
        · with_reducible refine State.finish_keeps W _ _ _ _ _ ?_
          with_reducible exact hs
      · with_reducible refine State.finish_keeps W _ _ _ _ _ ?_
        with_reducible exact hs

theorem execPreviewSet_keeps (W : WritesLm Q) (d : Desc) (s : State) (hs : Mem Q s) : OutMem Q (execPreviewSet d s) := by
  unfold execPreviewSet
  with_reducible refine onOp_keeps W _ _ _ _ _ ?_ ?_
  · with_reducible exact hs
  · intro x1 h1
    with_reducible refine previewSet_keeps W _ _ ?_
    with_reducible exact h1

theorem frameBoundary_keeps (W : WritesLm Q) (s : State) (hs : Mem Q s) : Mem Q (frameBoundary s) := by
  unfold frameBoundary
  extract_lets -merge +onlyGivenNames a1 a2 a3 a4 a5 a6 a7 a8 a9 a10
  try clear_value a1
  try clear_value a2
  try clear_value a3
  have ha4 : Mem Q a4.2 := by
    subst a4
    with_reducible refine State.boundary_keeps _ ?_
    with_reducible exact hs
  try clear_value a4
  have ha5 : Mem Q a5 := by
    subst a5
    with_reducible exact ha4
  try clear_value a5
  try clear_value a6
  have ha7 : Mem Q a7 := by
    subst a7
    unfold Mem; dsimp only; refine mem_in ?_
    with_reducible exact ha5
  try clear_value a7
  try clear_value a8
  have ha9 : Mem Q a9 := by
    subst a9
    with_reducible refine State.tileFrame_keeps W _ _ ?_
    with_reducible exact ha7
  try clear_value a9
  try clear_value a10
  with_reducible refine keep_ite ?_ ?_
  · with_reducible exact hs
  · with_reducible refine keep_ite ?_ ?_
    · with_reducible refine keep_ite ?_ ?_
      · with_reducible refine State.noteSub_keeps _ ?_
        with_reducible exact ha4
      · with_reducible exact ha4
    · with_reducible refine keep_ite ?_ ?_
      · with_reducible refine State.headFrame_keeps W _ _ ?_
        with_reducible refine State.trimLatch_keeps W _ ?_
        with_reducible exact ha4
      · unfold Mem; dsimp only; refine mem_in ?_
        with_reducible exact ha9

theorem execFrameBoundary_keeps (W : WritesLm Q) (s : State) (hs : Mem Q s) : OutMem Q (execFrameBoundary s) := by
  unfold execFrameBoundary
  with_reducible refine onLive_keeps _ _ ?_ ?_
  · with_reducible exact hs
  · intro x1 h1
    with_reducible refine frameBoundary_keeps W _ ?_
    with_reducible exact h1

theorem State.setAudCh_keeps (s : State) (ch : Nat) (r : AudRoute) (hs : Mem Q s) : Mem Q (State.setAudCh s ch r) := by
  unfold State.setAudCh
  extract_lets -merge +onlyGivenNames a1 a2
  try clear_value a1
  try clear_value a2
  with_reducible refine keep_ite ?_ ?_
  · unfold Mem; dsimp only; refine mem_in ?_
    with_reducible exact hs
  · unfold Mem; dsimp only; refine mem_in ?_
    with_reducible exact hs

theorem State.dropRing_keeps (s : State) (ch : Nat) (hs : Mem Q s) : Mem Q (State.dropRing s ch) := by
  unfold State.dropRing
  extract_lets -merge +onlyGivenNames a1
  try clear_value a1
  unfold Mem; dsimp only; refine mem_in ?_
  with_reducible exact hs

theorem State.rxSilent_keeps (s : State) (port : Nat) (hs : Mem Q s) : Mem Q (State.rxSilent s port) := by
  unfold State.rxSilent
  extract_lets -merge +onlyGivenNames a1 a2
  try clear_value a1
  try clear_value a2
  unfold Mem; dsimp only; refine mem_in ?_
  with_reducible exact hs

theorem State.setSide_keeps (s : State) (port : Nat) (side : Nat) (x : AudSide) (hs : Mem Q s) : Mem Q (State.setSide s port side x) := by
  unfold State.setSide
  extract_lets -merge +onlyGivenNames a1
  try clear_value a1
  unfold Mem; dsimp only; refine mem_in ?_
  with_reducible exact hs

theorem State.sendAudio_keeps (s : State) (ch : Nat) (l : List Int) (hs : Mem Q s) : Mem Q (State.sendAudio s ch l) := by
  unfold State.sendAudio
  with_reducible refine keep_ite ?_ ?_
  · with_reducible refine State.emit_keeps _ _ ?_
    with_reducible exact hs
  · with_reducible exact hs

theorem State.putCh_keeps (s : State) (ch : Nat) (old : AudRoute) (new : AudRoute) (hs : Mem Q s) : Mem Q (State.putCh s ch old new) := by
  unfold State.putCh
  extract_lets -merge +onlyGivenNames a1
  have ha1 : Mem Q a1 := by
    subst a1
    with_reducible refine State.setAudCh_keeps _ _ _ ?_
    with_reducible exact hs
  try clear_value a1
  with_reducible refine keep_ite ?_ ?_
  · with_reducible refine State.dropRing_keeps _ _ ?_
    with_reducible exact ha1
  · with_reducible exact ha1

theorem State.setOfs_keeps (s : State) (port : Nat) (side : Nat) (v : Nat) (hs : Mem Q s) : Mem Q (State.setOfs s port side v) := by
  unfold State.setOfs
  with_reducible refine State.wr_keeps _ _ _ ?_
  with_reducible exact hs

theorem State.playTo_keeps (s : State) (k : Nat) (hs : Mem Q s) : Mem Q (State.playTo s k) := by
  unfold State.playTo
  extract_lets -merge +onlyGivenNames a1 a2 a3 a4 a5 a6 a7 a8
  try clear_value a1
  try clear_value a2
  try clear_value a3
  have ha4 : Mem Q a4 := by
    subst a4
    refine keep_foldl ?_ ?_
    · with_reducible exact hs
    · intro x1 x2 h1
      extract_lets -merge +onlyGivenNames a9
      try clear_value a9
      with_reducible refine State.putCh_keeps _ _ _ _ ?_
      with_reducible refine State.sendAudio_keeps _ _ _ ?_
      with_reducible exact h1
  try clear_value a4
  have ha5 : Mem Q a5 := by
    subst a5
    refine keep_foldl ?_ ?_
    · with_reducible exact ha4
    · intro x3 x4 h2
      with_reducible refine State.sendAudio_keeps _ _ _ ?_
      with_reducible exact h2
  try clear_value a5
  have ha6 : Mem Q a6 := by
    subst a6
    refine keep_foldl ?_ ?_
    · with_reducible exact ha5
    · intro x5 x6 h3
      extract_lets -merge +onlyGivenNames a10 a11 a12
      try clear_value a10
      try clear_value a11
      try clear_value a12
      unfold Mem; dsimp only; refine mem_in ?_
      with_reducible exact h3
  try clear_value a6
  try clear_value a7
  try clear_value a8
  with_reducible refine keep_ite ?_ ?_
  · with_reducible exact hs
  · unfold Mem; dsimp only; refine mem_in ?_
    with_reducible exact ha6

theorem fbStartPulse_keeps (s : State) (hs : Mem Q s) : Mem Q (fbStartPulse s) := by
  unfold fbStartPulse
  extract_lets -merge +onlyGivenNames a1 a2 a3 a4
  try clear_value a1
  try clear_value a2
  have ha3 : Mem Q a3 := by
    subst a3
    with_reducible refine State.wr_keeps _ _ _ ?_
    with_reducible exact hs
  try clear_value a3
  try clear_value a4
  with_reducible refine keep_ite ?_ ?_
  · with_reducible exact hs
  · unfold Mem; dsimp only; refine mem_in ?_
    with_reducible exact ha3

theorem State.showSide_keeps (s : State) (port : Nat) (side : Nat) (hs : Mem Q s) : Mem Q (State.showSide s port side) := by
  unfold State.showSide
  extract_lets -merge +onlyGivenNames a1 a2 a3 a4 a5
  try clear_value a1
  try clear_value a2
  try clear_value a3
  try clear_value a4
  try clear_value a5
  with_reducible refine State.wr_keeps _ _ _ ?_
  with_reducible exact hs

theorem State.applyAll_keeps (s : State) (ch : Nat) (hs : Mem Q s) : Mem Q (State.applyAll s ch) := by
  unfold State.applyAll
  split <;> first
    | (with_reducible exact hs)
    | (extract_lets -merge +onlyGivenNames a1
       try clear_value a1
       with_reducible refine State.putCh_keeps _ _ _ _ ?_
       with_reducible exact hs)

theorem execFbStartPulse_keeps (s : State) (hs : Mem Q s) : OutMem Q (execFbStartPulse s) := by
  unfold execFbStartPulse
  with_reducible refine onLive_keeps _ _ ?_ ?_
  · with_reducible exact hs
  · intro x1 h1
    with_reducible refine fbStartPulse_keeps _ ?_
    with_reducible exact h1

theorem State.audioStop_keeps (s : State) (hs : Mem Q s) : Mem Q (State.audioStop s) := by
  unfold State.audioStop
  extract_lets -merge +onlyGivenNames a1 a2 a3
  have ha1 : Mem Q a1 := by
    subst a1
    with_reducible refine State.wr_keeps _ _ _ ?_
    with_reducible refine State.wr_keeps _ _ _ ?_
    with_reducible exact hs
  try clear_value a1
  try clear_value a2
  have ha3 : Mem Q a3 := by
    subst a3
    unfold Mem; dsimp only; refine mem_in ?_
    with_reducible exact ha1
  try clear_value a3
  refine keep_foldl ?_ ?_
  · with_reducible exact ha3
  · intro x1 x2 h1
    with_reducible refine State.showSide_keeps _ _ _ ?_
    with_reducible exact h1

theorem fbsLost_keeps (s : State) (hs : Mem Q s) : Mem Q (fbsLost s) := by
  unfold fbsLost
  split <;> first
    | (with_reducible exact hs)
    | (extract_lets -merge +onlyGivenNames a1 a2 a3
       have ha1 : Mem Q a1 := by
         subst a1
         with_reducible refine State.advanceTo_keeps _ _ ?_
         with_reducible exact hs
       try clear_value a1
       have ha2 : Mem Q a2 := by
         subst a2
         with_reducible refine State.wr_keeps _ _ _ ?_
         with_reducible exact ha1
       try clear_value a2
       try clear_value a3
       with_reducible refine keep_ite ?_ ?_
       · with_reducible exact hs
       · with_reducible refine State.detect_keeps _ _ ?_
         unfold Mem; dsimp only; refine mem_in ?_
         with_reducible exact ha2)

theorem execFbsLost_keeps (s : State) (hs : Mem Q s) : OutMem Q (execFbsLost s) := by
  unfold execFbsLost
  with_reducible refine onLive_keeps _ _ ?_ ?_
  · with_reducible exact hs
  · intro x1 h1
    with_reducible refine fbsLost_keeps _ ?_
    with_reducible exact h1

theorem State.audioJump_keeps (s : State) (d : Int) (hs : Mem Q s) : Mem Q (State.audioJump s d) := by
  unfold State.audioJump
  extract_lets -merge +onlyGivenNames a1 a2 a3 a4 a5
  try clear_value a1
  try clear_value a2
  have ha3 : Mem Q a3 := by
    subst a3
    with_reducible refine State.advance_keeps _ _ ?_
    with_reducible exact hs
  try clear_value a3
  try clear_value a4
  have ha5 : Mem Q a5 := by
    subst a5
    unfold Mem; dsimp only; refine mem_in ?_
    with_reducible exact ha3
  try clear_value a5
  with_reducible refine State.detect_keeps _ _ ?_
  with_reducible exact ha5

theorem State.beginRoute_keeps (s : State) (ch : Nat) (r : AudRoute) (hs : Mem Q s) : Mem Q (State.beginRoute s ch r) := by
  unfold State.beginRoute
  extract_lets -merge +onlyGivenNames a1 a2 a3 a4 a5 a6 a7 a8
  try clear_value a1
  try clear_value a2
  try clear_value a3
  have ha4 : Mem Q a4 := by
    subst a4
    with_reducible refine keep_ite ?_ ?_
    · with_reducible refine State.detect_keeps _ _ ?_
      with_reducible refine State.lmUncorr_keeps _ ?_
      with_reducible exact hs
    · with_reducible exact hs
  try clear_value a4
  try clear_value a5
  try clear_value a6
  have ha7 : Mem Q a7 := by
    subst a7
    unfold Mem; dsimp only; refine mem_in ?_
    with_reducible exact ha4
  try clear_value a7
  have ha8 : Mem Q a8 := by
    subst a8
    with_reducible refine State.setAudCh_keeps _ _ _ ?_
    with_reducible exact ha7
  try clear_value a8
  with_reducible refine keep_ite ?_ ?_
  · with_reducible refine State.setAudCh_keeps _ _ _ ?_
    with_reducible exact hs
  · split <;> first
      | (with_reducible refine State.setAudCh_keeps _ _ _ ?_
         with_reducible exact ha7)
      | (with_reducible refine keep_ite ?_ ?_
         · with_reducible refine State.setAudCh_keeps _ _ _ ?_
           with_reducible exact ha7
         · with_reducible refine State.detect_keeps _ _ ?_
           with_reducible refine State.inc_keeps _ _ ?_
           with_reducible exact ha8)

theorem audioRun_keeps (s : State) (hs : Mem Q s) : Mem Q (audioRun s) := by
  unfold audioRun
  extract_lets -merge +onlyGivenNames a1 a2 a3 a4 a5 a6
  try clear_value a1
  try clear_value a2
  try clear_value a3
  try clear_value a4
  have ha5 : Mem Q a5 := by
    subst a5
    with_reducible refine State.wr_keeps _ _ _ ?_
    with_reducible refine State.wr_keeps _ _ _ ?_
    with_reducible refine State.wr_keeps _ _ _ ?_
    with_reducible exact hs
  try clear_value a5
  try clear_value a6
  with_reducible refine keep_ite ?_ ?_
  · with_reducible exact hs
  · with_reducible refine keep_ite ?_ ?_
    · with_reducible refine State.detect_keeps _ _ ?_
      with_reducible exact hs
    · unfold Mem; dsimp only; refine mem_in ?_
      with_reducible exact ha5

theorem execAudioRun_keeps (s : State) (hs : Mem Q s) : OutMem Q (execAudioRun s) := by
  unfold execAudioRun
  with_reducible refine onLive_keeps _ _ ?_ ?_
  · with_reducible exact hs
  · intro x1 h1
    with_reducible refine audioRun_keeps _ ?_
    with_reducible exact h1

theorem streamSet_keeps (W : WritesLm Q) (d : Desc) (s : State) (hs : Mem Q s) : Mem Q (streamSet d s) := by
  unfold streamSet
  extract_lets -merge +onlyGivenNames a1 a2 a3
  try clear_value a1
  try clear_value a2
  try clear_value a3
  with_reducible refine keep_ite ?_ ?_
  · with_reducible refine State.finish_keeps W _ _ _ _ _ ?_
    with_reducible exact hs
  · with_reducible refine keep_ite ?_ ?_
    · with_reducible refine State.finish_keeps W _ _ _ _ _ ?_
      with_reducible exact hs
    · with_reducible refine State.finish_keeps W _ _ _ _ _ ?_
      unfold Mem; dsimp only; refine mem_in ?_
      with_reducible exact hs

theorem State.moveGroups_keeps (W : WritesLm Q) (s : State) (hs : Mem Q s) : Mem Q (State.moveGroups s) := by
  unfold State.moveGroups
  extract_lets -merge +onlyGivenNames a1 a2 a3
  try clear_value a1
  try clear_value a2
  have ha3 : Mem Q a3 := by
    subst a3
    unfold Mem; dsimp only; refine mem_in ?_
    with_reducible exact hs
  try clear_value a3
  refine keep_foldl ?_ ?_
  · with_reducible exact ha3
  · intro x1 x2 h1
    extract_lets -merge +onlyGivenNames a4 a5 a6 a7 a8 a9
    try clear_value a4
    try clear_value a5
    try clear_value a6
    try clear_value a7
    have ha8 : Mem Q a8 := by
      subst a8
      unfold Mem; dsimp only; refine mem_in ?_
      with_reducible exact h1
    try clear_value a8
    try clear_value a9
    with_reducible refine keep_ite ?_ ?_
    · with_reducible refine keep_ite ?_ ?_
      · with_reducible refine State.finish_keeps W _ _ _ _ _ ?_
        with_reducible exact h1
      · unfold Mem; dsimp only; refine mem_in ?_
        with_reducible exact h1
    · with_reducible refine keep_ite ?_ ?_
      · with_reducible refine keep_ite ?_ ?_
        · with_reducible refine State.finish_keeps W _ _ _ _ _ ?_
          with_reducible exact ha8
        · with_reducible exact ha8
      · unfold Mem; dsimp only; refine mem_in ?_
        with_reducible exact h1

theorem State.endChange_keeps (W : WritesLm Q) (s : State) (ch : Nat) (hs : Mem Q s) : Mem Q (State.endChange s ch) := by
  unfold State.endChange
  split <;> first
    | (with_reducible exact hs)
    | (extract_lets -merge +onlyGivenNames a1
       have ha1 : Mem Q a1 := by
         subst a1
         with_reducible refine State.setAudCh_keeps _ _ _ ?_
         with_reducible exact hs
       try clear_value a1
       split <;> first
         | (with_reducible refine keep_ite ?_ ?_
            · with_reducible refine State.finish_keeps W _ _ _ _ _ ?_
              with_reducible exact ha1
            · with_reducible exact hs)
         | (with_reducible exact hs))

theorem txaudSet_keeps (W : WritesLm Q) (d : Desc) (s : State) (hs : Mem Q s) : Mem Q (txaudSet d s) := by
  unfold txaudSet
  extract_lets -merge +onlyGivenNames a1 a2 a3
  try clear_value a1
  try clear_value a2
  try clear_value a3
  with_reducible refine keep_ite ?_ ?_
  · with_reducible refine State.finish_keeps W _ _ _ _ _ ?_
    with_reducible exact hs
  · with_reducible refine keep_ite ?_ ?_
    · with_reducible refine State.finish_keeps W _ _ _ _ _ ?_
      with_reducible exact hs
    · with_reducible refine State.finish_keeps W _ _ _ _ _ ?_
      unfold Mem; dsimp only; refine mem_in ?_
      with_reducible exact hs

theorem execTxaudSet_keeps (W : WritesLm Q) (d : Desc) (s : State) (hs : Mem Q s) : OutMem Q (execTxaudSet d s) := by
  unfold execTxaudSet
  with_reducible refine onOp_keeps W _ _ _ _ _ ?_ ?_
  · with_reducible exact hs
  · intro x1 h1
    with_reducible refine txaudSet_keeps W _ _ ?_
    with_reducible exact h1

theorem execStreamSet_keeps (W : WritesLm Q) (d : Desc) (s : State) (hs : Mem Q s) : OutMem Q (execStreamSet d s) := by
  unfold execStreamSet
  with_reducible refine onOp_keeps W _ _ _ _ _ ?_ ?_
  · with_reducible exact hs
  · intro x1 h1
    with_reducible refine streamSet_keeps W _ _ ?_
    with_reducible exact h1

theorem State.audSettle_keeps (W : WritesLm Q) (s : State) (hs : Mem Q s) : Mem Q (State.audSettle s) := by
  unfold State.audSettle
  extract_lets -merge +onlyGivenNames a1
  have ha1 : Mem Q a1 := by
    subst a1
    refine keep_foldl ?_ ?_
    · with_reducible exact hs
    · intro x1 x2 h1
      with_reducible refine State.endChange_keeps W _ _ ?_
      with_reducible exact h1
  try clear_value a1
  with_reducible refine State.moveGroups_keeps W _ ?_
  refine keep_foldl ?_ ?_
  · with_reducible exact ha1
  · intro x3 x4 h2
    with_reducible refine State.endChange_keeps W _ _ ?_
    with_reducible exact h2

theorem State.playUpTo_keeps (W : WritesLm Q) (s : State) (k : Nat) (hs : Mem Q s) : Mem Q (State.playUpTo s k) := by
  unfold State.playUpTo
  with_reducible refine State.audSettle_keeps W _ ?_
  with_reducible refine State.playTo_keeps _ _ ?_
  with_reducible exact hs

theorem silentChangeApply_keeps (W : WritesLm Q) (ch : Nat) (s : State) (hs : Mem Q s) : Mem Q (silentChangeApply ch s) := by
  unfold silentChangeApply
  split <;> first
    | (with_reducible exact hs)
    | (with_reducible refine keep_ite ?_ ?_
       · with_reducible exact hs
       · split <;> first
           | (with_reducible exact hs)
           | (extract_lets -merge +onlyGivenNames a1
              have ha1 : Mem Q a1 := by
                subst a1
                with_reducible refine State.playUpTo_keeps W _ _ ?_
                with_reducible refine State.advance_keeps _ _ ?_
                with_reducible exact hs
              try clear_value a1
              split <;> first
                | (with_reducible exact ha1)
                | (with_reducible refine State.audSettle_keeps W _ ?_
                   with_reducible refine State.putCh_keeps _ _ _ _ ?_
                   with_reducible exact ha1)))

theorem State.playDue_keeps (W : WritesLm Q) (s : State) (hs : Mem Q s) : Mem Q (State.playDue s) := by
  unfold State.playDue
  with_reducible refine keep_ite ?_ ?_
  · with_reducible refine State.playUpTo_keeps W _ _ ?_
    with_reducible exact hs
  · with_reducible exact hs

theorem execSilentChangeApply_keeps (W : WritesLm Q) (channel : Nat) (s : State) (hs : Mem Q s) : OutMem Q (execSilentChangeApply channel s) := by
  unfold execSilentChangeApply
  with_reducible refine onLive_keeps _ _ ?_ ?_
  · with_reducible exact hs
  · intro x1 h1
    with_reducible refine silentChangeApply_keeps W _ _ ?_
    with_reducible exact h1

theorem State.newChange_keeps (W : WritesLm Q) (s : State) (ch : Nat) (d : Desc) (src : Option (Bool × Nat × Nat)) (gain : Option Nat) (mute : Option Bool) (hs : Mem Q s) : Mem Q (State.newChange s ch d src gain mute) := by
  unfold State.newChange
  extract_lets -merge +onlyGivenNames a1 a2 a3 a4 a5 a6 a7 a8 a9 a10
  have ha1 : Mem Q a1 := by
    subst a1
    with_reducible refine State.playDue_keeps W _ ?_
    with_reducible exact hs
  try clear_value a1
  try clear_value a2
  try clear_value a3
  try clear_value a4
  try clear_value a5
  try clear_value a6
  try clear_value a7
  have ha8 : Mem Q a8 := by
    subst a8
    split <;> first
      | (with_reducible refine State.finish_keeps W _ _ _ _ _ ?_
         with_reducible refine State.setAudCh_keeps _ _ _ ?_
         with_reducible exact ha1)
      | (with_reducible exact ha1)
  try clear_value a8
  try clear_value a9
  try clear_value a10
  with_reducible refine keep_ite ?_ ?_
  · with_reducible refine State.finish_keeps W _ _ _ _ _ ?_
    with_reducible refine State.setAudCh_keeps _ _ _ ?_
    with_reducible exact ha8
  · with_reducible refine State.putCh_keeps _ _ _ _ ?_
    with_reducible refine State.starts_keeps _ _ ?_
    with_reducible exact ha8

theorem asrcLock_keeps (W : WritesLm Q) (port : Nat) (rx : Bool) (offset : BitVec 16) (s : State) (hs : Mem Q s) : Mem Q (asrcLock port rx offset s) := by
  unfold asrcLock
  extract_lets -merge +onlyGivenNames a1 a2
  have ha1 : Mem Q a1 := by
    subst a1
    with_reducible refine State.setOfs_keeps _ _ _ _ ?_
    with_reducible refine State.playDue_keeps W _ ?_
    with_reducible exact hs
  try clear_value a1
  try clear_value a2
  with_reducible refine keep_ite ?_ ?_
  · with_reducible refine keep_ite ?_ ?_
    · with_reducible exact ha1
    · with_reducible refine State.showSide_keeps _ _ _ ?_
      with_reducible refine State.setSide_keeps _ _ _ _ ?_
      with_reducible exact ha1
  · with_reducible exact hs

theorem audioBlockBoundary_keeps (W : WritesLm Q) (captured : List (Nat × List (BitVec 24))) (s : State) (hs : Mem Q s) : Mem Q (audioBlockBoundary captured s) := by
  unfold audioBlockBoundary
  extract_lets -merge +onlyGivenNames a1 a2 a3 a4 a5 a6 a7 a8 a9 a10 a11 a12 a13 a14
  have ha1 : Mem Q a1 := by
    subst a1
    with_reducible refine State.playUpTo_keeps W _ _ ?_
    with_reducible exact hs
  try clear_value a1
  have ha2 : Mem Q a2 := by
    subst a2
    with_reducible refine State.advance_keeps _ _ ?_
    with_reducible exact ha1
  try clear_value a2
  try clear_value a3
  have ha4 : Mem Q a4 := by
    subst a4
    split <;> first
      | (with_reducible refine State.audioJump_keeps _ _ ?_
         with_reducible exact ha1)
      | (unfold Mem; dsimp only; refine mem_in ?_
         with_reducible exact ha2)
  try clear_value a4
  try clear_value a5
  try clear_value a6
  try clear_value a7
  try clear_value a8
  have ha9 : Mem Q a9 := by
    subst a9
    unfold Mem; dsimp only; refine mem_in ?_
    with_reducible exact ha4
  try clear_value a9
  have ha10 : Mem Q a10 := by
    subst a10
    with_reducible refine State.wr_keeps _ _ _ ?_
    with_reducible exact ha9
  try clear_value a10
  have ha11 : Mem Q a11 := by
    subst a11
    refine keep_foldl ?_ ?_
    · with_reducible exact ha10
    · intro x1 x2 h1
      with_reducible refine State.showSide_keeps _ _ _ ?_
      with_reducible exact h1
  try clear_value a11
  have ha12 : Mem Q a12 := by
    subst a12
    refine keep_foldl ?_ ?_
    · with_reducible exact ha11
    · intro x3 x4 h2
      with_reducible refine State.emit_keeps _ _ ?_
      with_reducible exact h2
  try clear_value a12
  have ha13 : Mem Q a13 := by
    subst a13
    with_reducible refine keep_ite ?_ ?_
    · with_reducible refine State.emit_keeps _ _ ?_
      with_reducible exact ha12
    · with_reducible exact ha12
  try clear_value a13
  have ha14 : Mem Q a14 := by
    subst a14
    refine keep_foldl ?_ ?_
    · with_reducible exact ha13
    · intro x5 x6 h3
      extract_lets -merge +onlyGivenNames a15
      try clear_value a15
      with_reducible refine State.setAudCh_keeps _ _ _ ?_
      with_reducible exact h3
  try clear_value a14
  with_reducible refine keep_ite ?_ ?_
  · with_reducible exact hs
  · refine keep_foldl ?_ ?_
    · with_reducible exact ha14
    · intro x7 x8 h4
      with_reducible refine State.beginRoute_keeps _ _ _ ?_
      with_reducible exact h4

theorem asrcUnlock_keeps (W : WritesLm Q) (port : Nat) (rx : Bool) (s : State) (hs : Mem Q s) : Mem Q (asrcUnlock port rx s) := by
  unfold asrcUnlock
  extract_lets -merge +onlyGivenNames a1 a2 a3 a4
  have ha1 : Mem Q a1 := by
    subst a1
    with_reducible refine State.playDue_keeps W _ ?_
    with_reducible exact hs
  try clear_value a1
  have ha2 : Mem Q a2 := by
    subst a2
    with_reducible refine keep_ite ?_ ?_
    · with_reducible refine State.rxSilent_keeps _ _ ?_
      with_reducible exact ha1
    · with_reducible exact ha1
  try clear_value a2
  try clear_value a3
  have ha4 : Mem Q a4 := by
    subst a4
    with_reducible refine State.setSide_keeps _ _ _ _ ?_
    with_reducible exact ha2
  try clear_value a4
  with_reducible refine keep_ite ?_ ?_
  · with_reducible refine State.detect_keeps _ _ ?_
    with_reducible refine State.showSide_keeps _ _ _ ?_
    with_reducible exact ha4
  · with_reducible exact hs

theorem portSet_keeps (W : WritesLm Q) (d : Desc) (s : State) (hs : Mem Q s) : Mem Q (portSet d s) := by
  unfold portSet
  extract_lets -merge +onlyGivenNames a1 a2 a3 a4 a5 a6 a7 a8 a9
  try clear_value a1
  try clear_value a2
  try clear_value a3
  try clear_value a4
  have ha5 : Mem Q a5 := by
    subst a5
    with_reducible refine State.playDue_keeps W _ ?_
    with_reducible exact hs
  try clear_value a5
  have ha6 : Mem Q a6 := by
    subst a6
    with_reducible refine State.showSide_keeps _ _ _ ?_
    with_reducible refine State.setSide_keeps _ _ _ _ ?_
    with_reducible exact ha5
  try clear_value a6
  have ha7 : Mem Q a7 := by
    subst a7
    with_reducible refine State.setOfs_keeps _ _ _ _ ?_
    with_reducible exact ha6
  try clear_value a7
  have ha8 : Mem Q a8 := by
    subst a8
    with_reducible refine keep_ite ?_ ?_
    · with_reducible refine State.emit_keeps _ _ ?_
      with_reducible exact ha7
    · with_reducible exact ha7
  try clear_value a8
  have ha9 : Mem Q a9 := by
    subst a9
    with_reducible refine keep_ite ?_ ?_
    · refine keep_foldl ?_ ?_
      · with_reducible exact ha8
      · intro x1 x2 h1
        with_reducible refine State.applyAll_keeps _ _ ?_
        with_reducible exact h1
    · refine keep_foldl ?_ ?_
      · with_reducible exact ha8
      · intro x3 x4 h2
        with_reducible refine State.applyAll_keeps _ _ ?_
        with_reducible exact h2
  try clear_value a9
  with_reducible refine keep_ite ?_ ?_
  · with_reducible refine State.finish_keeps W _ _ _ _ _ ?_
    with_reducible exact hs
  · with_reducible refine keep_ite ?_ ?_
    · with_reducible refine State.finish_keeps W _ _ _ _ _ ?_
      with_reducible exact hs
    · with_reducible refine State.finish_keeps W _ _ _ _ _ ?_
      with_reducible refine State.audSettle_keeps W _ ?_
      with_reducible exact ha9

theorem execAsrcUnlock_keeps (W : WritesLm Q) (port : Nat) (rx : Bool) (s : State) (hs : Mem Q s) : OutMem Q (execAsrcUnlock port rx s) := by
  unfold execAsrcUnlock
  with_reducible refine onLive_keeps _ _ ?_ ?_
  · with_reducible exact hs
  · intro x1 h1
    with_reducible refine asrcUnlock_keeps W _ _ _ ?_
    with_reducible exact h1

theorem execAsrcLock_keeps (W : WritesLm Q) (port : Nat) (rx : Bool) (offset : BitVec 16) (s : State) (hs : Mem Q s) : OutMem Q (execAsrcLock port rx offset s) := by
  unfold execAsrcLock
  with_reducible refine onLive_keeps _ _ ?_ ?_
  · with_reducible exact hs
  · intro x1 h1
    with_reducible refine asrcLock_keeps W _ _ _ _ ?_
    with_reducible exact h1

theorem zcTimeout_keeps (W : WritesLm Q) (ch : Nat) (s : State) (hs : Mem Q s) : Mem Q (zcTimeout ch s) := by
  unfold zcTimeout
  split <;> first
    | (with_reducible exact hs)
    | (extract_lets -merge +onlyGivenNames a1 a2
       have ha1 : Mem Q a1 := by
         subst a1
         with_reducible refine State.advanceTo_keeps _ _ ?_
         with_reducible exact hs
       try clear_value a1
       have ha2 : Mem Q a2 := by
         subst a2
         with_reducible refine State.playDue_keeps W _ ?_
         with_reducible exact ha1
       try clear_value a2
       with_reducible refine keep_ite ?_ ?_
       · with_reducible exact hs
       · split <;> first
           | (with_reducible exact ha2)
           | (with_reducible refine State.detect_keeps _ _ ?_
              with_reducible refine State.inc_keeps _ _ ?_
              with_reducible refine State.setAudCh_keeps _ _ _ ?_
              with_reducible exact ha2))

theorem State.channelSet_keeps (W : WritesLm Q) (s : State) (d : Desc) (ch : Nat) (src : Nat) (group : Nat) (hs : Mem Q s) : Mem Q (State.channelSet s d ch src group) := by
  unfold State.channelSet
  with_reducible refine State.newChange_keeps W _ _ _ _ _ _ ?_
  with_reducible exact hs

theorem captureSet_keeps (W : WritesLm Q) (d : Desc) (s : State) (hs : Mem Q s) : Mem Q (captureSet d s) := by
  unfold captureSet
  extract_lets -merge +onlyGivenNames a1 a2 a3 a4
  try clear_value a1
  try clear_value a2
  try clear_value a3
  try clear_value a4
  with_reducible refine keep_ite ?_ ?_
  · with_reducible refine State.finish_keeps W _ _ _ _ _ ?_
    with_reducible exact hs
  · with_reducible refine keep_ite ?_ ?_
    · with_reducible refine State.finish_keeps W _ _ _ _ _ ?_
      with_reducible exact hs
    · with_reducible refine State.channelSet_keeps W _ _ _ _ _ ?_
      with_reducible exact hs

theorem execAudioBlockBoundary_keeps (W : WritesLm Q) (captured : List (Nat × List (BitVec 24))) (s : State) (hs : Mem Q s) : OutMem Q (execAudioBlockBoundary captured s) := by
  unfold execAudioBlockBoundary
  with_reducible refine onLive_keeps _ _ ?_ ?_
  · with_reducible exact hs
  · intro x1 h1
    with_reducible refine audioBlockBoundary_keeps W _ _ ?_
    with_reducible exact h1

theorem execCaptureSet_keeps (W : WritesLm Q) (d : Desc) (s : State) (hs : Mem Q s) : OutMem Q (execCaptureSet d s) := by
  unfold execCaptureSet
  with_reducible refine onOp_keeps W _ _ _ _ _ ?_ ?_
  · with_reducible exact hs
  · intro x1 h1
    with_reducible refine captureSet_keeps W _ _ ?_
    with_reducible exact h1

theorem execPortSet_keeps (W : WritesLm Q) (d : Desc) (s : State) (hs : Mem Q s) : OutMem Q (execPortSet d s) := by
  unfold execPortSet
  with_reducible refine onOp_keeps W _ _ _ _ _ ?_ ?_
  · with_reducible exact hs
  · intro x1 h1
    with_reducible refine portSet_keeps W _ _ ?_
    with_reducible exact h1

theorem groupSet_keeps (W : WritesLm Q) (d : Desc) (s : State) (hs : Mem Q s) : Mem Q (groupSet d s) := by
  unfold groupSet
  extract_lets -merge +onlyGivenNames a1 a2 a3 a4 a5 a6 a7 a8
  try clear_value a1
  try clear_value a2
  have ha3 : Mem Q a3 := by
    subst a3
    with_reducible refine State.playDue_keeps W _ ?_
    with_reducible exact hs
  try clear_value a3
  have ha4 : Mem Q a4 := by
    subst a4
    with_reducible refine State.starts_keeps _ _ ?_
    with_reducible exact ha3
  try clear_value a4
  have ha5 : Mem Q a5 := by
    subst a5
    refine keep_foldl ?_ ?_
    · with_reducible exact ha4
    · intro x1 x2 h1
      with_reducible refine State.finish_keeps W _ _ _ _ _ ?_
      with_reducible exact h1
  try clear_value a5
  try clear_value a6
  try clear_value a7
  try clear_value a8
  with_reducible refine keep_ite ?_ ?_
  · with_reducible refine State.finish_keeps W _ _ _ _ _ ?_
    with_reducible exact hs
  · with_reducible refine keep_ite ?_ ?_
    · with_reducible refine State.finish_keeps W _ _ _ _ _ ?_
      with_reducible exact hs
    · with_reducible refine State.moveGroups_keeps W _ ?_
      unfold Mem; dsimp only; refine mem_in ?_
      with_reducible exact ha5

theorem routeSet_keeps (W : WritesLm Q) (d : Desc) (s : State) (hs : Mem Q s) : Mem Q (routeSet d s) := by
  unfold routeSet
  extract_lets -merge +onlyGivenNames a1 a2
  try clear_value a1
  try clear_value a2
  with_reducible refine keep_ite ?_ ?_
  · with_reducible refine State.finish_keeps W _ _ _ _ _ ?_
    with_reducible exact hs
  · with_reducible refine State.channelSet_keeps W _ _ _ _ _ ?_
    with_reducible exact hs

theorem execGroupSet_keeps (W : WritesLm Q) (d : Desc) (s : State) (hs : Mem Q s) : OutMem Q (execGroupSet d s) := by
  unfold execGroupSet
  with_reducible refine onOp_keeps W _ _ _ _ _ ?_ ?_
  · with_reducible exact hs
  · intro x1 h1
    with_reducible refine groupSet_keeps W _ _ ?_
    with_reducible exact h1

theorem execZcTimeout_keeps (W : WritesLm Q) (channel : Nat) (s : State) (hs : Mem Q s) : OutMem Q (execZcTimeout channel s) := by
  unfold execZcTimeout
  with_reducible refine onLive_keeps _ _ ?_ ?_
  · with_reducible exact hs
  · intro x1 h1
    with_reducible refine zcTimeout_keeps W _ _ ?_
    with_reducible exact h1

theorem execRouteSet_keeps (W : WritesLm Q) (d : Desc) (s : State) (hs : Mem Q s) : OutMem Q (execRouteSet d s) := by
  unfold execRouteSet
  with_reducible refine onOp_keeps W _ _ _ _ _ ?_ ?_
  · with_reducible exact hs
  · intro x1 h1
    with_reducible refine routeSet_keeps W _ _ ?_
    with_reducible exact h1

theorem State.noteLate_keeps (s : State) (e : Nat × Nat) (hs : Mem Q s) : Mem Q (State.noteLate s e) := by
  unfold State.noteLate
  extract_lets -merge +onlyGivenNames a1 a2 a3 a4 a5
  try clear_value a1
  try clear_value a2
  try clear_value a3
  have ha4 : Mem Q a4 := by
    subst a4
    with_reducible refine State.drawn_keeps _ ?_
    with_reducible refine State.drawn_keeps _ ?_
    with_reducible exact hs
  try clear_value a4
  try clear_value a5
  with_reducible refine keep_ite ?_ ?_
  · unfold Mem; dsimp only; refine mem_in ?_
    with_reducible exact ha4
  · with_reducible exact hs

theorem State.noteCanopy_keeps (s : State) (e : Nat × Nat) (hs : Mem Q s) : Mem Q (State.noteCanopy s e) := by
  unfold State.noteCanopy
  extract_lets -merge +onlyGivenNames a1 a2 a3
  try clear_value a1
  have ha2 : Mem Q a2 := by
    subst a2
    with_reducible refine State.drawn_keeps _ ?_
    with_reducible refine State.drawn_keeps _ ?_
    with_reducible exact hs
  try clear_value a2
  try clear_value a3
  split <;> first
    | (with_reducible exact hs)
    | (extract_lets -merge +onlyGivenNames a4 a5
       try clear_value a4
       try clear_value a5
       unfold Mem; dsimp only; refine mem_in ?_
       with_reducible exact ha2)

theorem State.noteScript_keeps (s : State) (e : Nat × Nat) (hs : Mem Q s) : Mem Q (State.noteScript s e) := by
  unfold State.noteScript
  extract_lets -merge +onlyGivenNames a1 a2 a3 a4
  try clear_value a1
  try clear_value a2
  have ha3 : Mem Q a3 := by
    subst a3
    with_reducible refine State.drawn_keeps _ ?_
    with_reducible exact hs
  try clear_value a3
  try clear_value a4
  with_reducible refine keep_ite ?_ ?_
  · unfold Mem; dsimp only; refine mem_in ?_
    with_reducible exact ha3
  · with_reducible exact hs

theorem wdgKick_keeps (s : State) (hs : Mem Q s) : Mem Q (wdgKick s) := by
  unfold wdgKick
  extract_lets -merge +onlyGivenNames a1 a2
  try clear_value a1
  try clear_value a2
  with_reducible refine keep_ite ?_ ?_
  · unfold Mem; dsimp only; refine mem_in ?_
    with_reducible exact hs
  · with_reducible exact hs

theorem State.setCode_keeps (s : State) (b : Nat) (i : Nat) (code : Nat) (hs : Mem Q s) : Mem Q (State.setCode s b i code) := by
  unfold State.setCode
  split <;> first
    | (with_reducible exact hs)
    | (unfold Mem; dsimp only; refine mem_in ?_
       with_reducible exact hs)

theorem execWdgKick_keeps (s : State) (hs : Mem Q s) : OutMem Q (execWdgKick s) := by
  unfold execWdgKick
  with_reducible refine onLive_keeps _ _ ?_ ?_
  · with_reducible exact hs
  · intro x1 h1
    with_reducible refine wdgKick_keeps _ ?_
    with_reducible exact h1

theorem State.notePattern_keeps (s : State) (e : Nat × Nat) (hs : Mem Q s) : Mem Q (State.notePattern s e) := by
  unfold State.notePattern
  extract_lets -merge +onlyGivenNames a1 a2 a3 a4
  try clear_value a1
  try clear_value a2
  have ha3 : Mem Q a3 := by
    subst a3
    with_reducible refine State.drawn_keeps _ ?_
    with_reducible exact hs
  try clear_value a3
  try clear_value a4
  with_reducible refine keep_ite ?_ ?_
  · with_reducible refine State.wr_keeps _ _ _ ?_
    unfold Mem; dsimp only; refine mem_in ?_
    with_reducible exact ha3
  · with_reducible exact hs

theorem reactWrite_keeps (b : Nat) (v : Nat) (we : Bool) (s : State) (hs : Mem Q s) : Mem Q (reactWrite b v we s) := by
  unfold reactWrite
  extract_lets -merge +onlyGivenNames a1 a2 a3
  try clear_value a1
  try clear_value a2
  have ha3 : Mem Q a3 := by
    subst a3
    with_reducible refine State.wr_keeps _ _ _ ?_
    with_reducible exact hs
  try clear_value a3
  with_reducible refine keep_ite ?_ ?_
  · with_reducible refine State.setCode_keeps _ _ _ _ ?_
    with_reducible exact ha3
  · with_reducible exact ha3

theorem resetLimitEnd_keeps (s : State) (hs : Mem Q s) : Mem Q (resetLimitEnd s) := by
  unfold resetLimitEnd
  split <;> first
    | (with_reducible exact hs)
    | (extract_lets -merge +onlyGivenNames a1
       have ha1 : Mem Q a1 := by
         subst a1
         with_reducible refine State.advanceTo_keeps _ _ ?_
         with_reducible exact hs
       try clear_value a1
       unfold Mem; dsimp only; refine mem_in ?_
       with_reducible exact ha1)

theorem execResetLimitEnd_keeps (s : State) (hs : Mem Q s) : OutMem Q (execResetLimitEnd s) := by
  unfold execResetLimitEnd
  with_reducible refine onLive_keeps _ _ ?_ ?_
  · with_reducible exact hs
  · intro x1 h1
    with_reducible refine resetLimitEnd_keeps _ ?_
    with_reducible exact h1

theorem quiesceEnd_keeps (b : Nat) (s : State) (hs : Mem Q s) : Mem Q (quiesceEnd b s) := by
  unfold quiesceEnd
  split <;> first
    | (with_reducible exact hs)
    | (extract_lets -merge +onlyGivenNames a1
       have ha1 : Mem Q a1 := by
         subst a1
         with_reducible refine State.advanceTo_keeps _ _ ?_
         with_reducible exact hs
       try clear_value a1
       unfold Mem; dsimp only; refine mem_in ?_
       with_reducible exact ha1)

theorem execBlkReactWrite_keeps (block : Nat) (v : Word) (s : State) (hs : Mem Q s) : OutMem Q (execBlkReactWrite block v s) := by
  unfold execBlkReactWrite
  with_reducible refine onLive_keeps _ _ ?_ ?_
  · with_reducible exact hs
  · intro x1 h1
    with_reducible refine keep_ite ?_ ?_
    · with_reducible refine reactWrite_keeps _ _ _ _ ?_
      with_reducible exact h1
    · with_reducible exact h1

theorem execQuiesceEnd_keeps (block : Nat) (s : State) (hs : Mem Q s) : OutMem Q (execQuiesceEnd block s) := by
  unfold execQuiesceEnd
  with_reducible refine onLive_keeps _ _ ?_ ?_
  · with_reducible exact hs
  · intro x1 h1
    with_reducible refine quiesceEnd_keeps _ _ ?_
    with_reducible exact h1

theorem execBlockReset_keeps (block : Nat) (s : State) (hs : Mem Q s) : OutMem Q (execBlockReset block s) := by
  unfold execBlockReset
  with_reducible refine onLive_keeps _ _ ?_ ?_
  · with_reducible exact hs
  · intro x1 h1
    with_reducible refine keep_ite ?_ ?_
    · with_reducible refine State.blockReset_keeps _ _ ?_
      with_reducible exact h1
    · with_reducible exact h1

theorem faultEvent_keeps (b : Nat) (i : Nat) (s : State) (hs : Mem Q s) : Mem Q (faultEvent b i s) := by
  unfold faultEvent
  extract_lets -merge +onlyGivenNames a1 a2 a3 a4 a5 a6 a7 a8
  have ha1 : Mem Q a1 := by
    subst a1
    with_reducible refine State.detect_keeps _ _ ?_
    with_reducible exact hs
  try clear_value a1
  try clear_value a2
  have ha3 : Mem Q a3 := by
    subst a3
    with_reducible refine keep_ite ?_ ?_
    · unfold Mem; dsimp only; refine mem_in ?_
      with_reducible exact ha1
    · with_reducible exact ha1
  try clear_value a3
  try clear_value a4
  have ha5 : Mem Q a5 := by
    subst a5
    with_reducible refine keep_ite ?_ ?_
    · unfold Mem; dsimp only; refine mem_in ?_
      with_reducible exact ha3
    · with_reducible exact ha3
  try clear_value a5
  have ha6 : Mem Q a6 := by
    subst a6
    with_reducible refine State.noteCanopy_keeps _ _ ?_
    with_reducible refine keep_ite ?_ ?_
    · with_reducible refine State.countUncorr_keeps _ ?_
      with_reducible exact ha5
    · with_reducible exact ha5
  try clear_value a6
  have ha7 : Mem Q a7 := by
    subst a7
    with_reducible refine State.notePattern_keeps _ _ ?_
    with_reducible refine State.noteLate_keeps _ _ ?_
    with_reducible refine State.noteScript_keeps _ _ ?_
    with_reducible exact ha6
  try clear_value a7
  have ha8 : Mem Q a8 := by
    subst a8
    split <;> first
      | (with_reducible refine State.inc_keeps _ _ ?_
         with_reducible exact ha7)
      | (with_reducible exact ha7)
  try clear_value a8
  with_reducible refine keep_ite ?_ ?_
  · with_reducible refine keep_ite ?_ ?_
    · with_reducible refine State.lmUncorr_keeps _ ?_
      with_reducible exact ha8
    · with_reducible refine keep_ite ?_ ?_
      · with_reducible refine State.countUncorr_keeps _ ?_
        with_reducible exact ha8
      · with_reducible exact ha8
  · with_reducible exact hs

theorem busy_keeps (cls : Nat) (s : State) (hs : Mem Q s) : Mem Q (busy cls s) := by
  unfold busy
  extract_lets -merge +onlyGivenNames a1 a2
  try clear_value a1
  have ha2 : Mem Q a2 := by
    subst a2
    unfold Mem; dsimp only; refine mem_in ?_
    with_reducible exact hs
  try clear_value a2
  with_reducible refine keep_ite ?_ ?_
  · with_reducible refine State.detect_keeps _ _ ?_
    with_reducible refine State.inc_keeps _ _ ?_
    with_reducible refine State.wr_keeps _ _ _ ?_
    with_reducible exact ha2
  · with_reducible exact hs

theorem lmcScrub_keeps (addr : Nat) (read : EccRead) (s : State) (hs : Mem Q s) : Mem Q (lmcScrub addr read s) := by
  unfold lmcScrub
  extract_lets -merge +onlyGivenNames a1 a2
  try clear_value a1
  have ha2 : Mem Q a2 := by
    subst a2
    unfold Mem; dsimp only; refine mem_in ?_
    with_reducible exact hs
  try clear_value a2
  with_reducible refine keep_ite ?_ ?_
  · with_reducible exact hs
  · split <;> first
      | (with_reducible exact ha2)
      | (with_reducible refine State.countCorr_keeps _ ?_
         with_reducible refine State.inc_keeps _ _ ?_
         with_reducible exact ha2)
      | (with_reducible refine State.countCorr_keeps _ ?_
         with_reducible refine State.inc_keeps _ _ ?_
         with_reducible exact ha2)
      | (with_reducible refine State.lmUncorr_keeps _ ?_
         with_reducible exact ha2)

theorem execBusy_keeps (cls : Nat) (s : State) (hs : Mem Q s) : OutMem Q (execBusy cls s) := by
  unfold execBusy
  with_reducible refine onLive_keeps _ _ ?_ ?_
  · with_reducible exact hs
  · intro x1 h1
    with_reducible refine busy_keeps _ _ ?_
    with_reducible exact h1

theorem preExpire_keeps (s : State) (hs : Mem Q s) : Mem Q (preExpire s) := by
  unfold preExpire
  extract_lets -merge +onlyGivenNames a1 a2
  have ha1 : Mem Q a1 := by
    subst a1
    with_reducible refine State.advanceTo_keeps _ _ ?_
    with_reducible exact hs
  try clear_value a1
  try clear_value a2
  with_reducible refine keep_ite ?_ ?_
  · with_reducible refine State.detect_keeps _ _ ?_
    unfold Mem; dsimp only; refine mem_in ?_
    with_reducible exact ha1
  · with_reducible exact hs

theorem supplyDip_keeps (rail : Nat) (s : State) (hs : Mem Q s) : Mem Q (supplyDip rail s) := by
  unfold supplyDip
  extract_lets -merge +onlyGivenNames a1 a2 a3
  have ha2 : Mem Q a2 := by
    subst a2
    unfold Mem; dsimp only; refine mem_in ?_
    with_reducible exact hs
  try clear_value a2
  have ha3 : Mem Q a3 := by
    subst a3
    with_reducible refine State.wr_keeps _ _ _ ?_
    with_reducible refine State.wr_keeps _ _ _ ?_
    with_reducible exact ha2
  try clear_value a3
  with_reducible refine keep_ite ?_ ?_
  · with_reducible refine State.detect_keeps _ _ ?_
    with_reducible refine State.inc_keeps _ _ ?_
    with_reducible exact ha3
  · with_reducible exact hs

theorem execLmcScrub_keeps (addr : Nat) (read : EccRead) (s : State) (hs : Mem Q s) : OutMem Q (execLmcScrub addr read s) := by
  unfold execLmcScrub
  with_reducible refine onLive_keeps _ _ ?_ ?_
  · with_reducible exact hs
  · intro x1 h1
    with_reducible refine lmcScrub_keeps _ _ _ ?_
    with_reducible exact h1

theorem execFaultEvent_keeps (block : Nat) (source : Nat) (s : State) (hs : Mem Q s) : OutMem Q (execFaultEvent block source s) := by
  unfold execFaultEvent
  with_reducible refine onLive_keeps _ _ ?_ ?_
  · with_reducible exact hs
  · intro x1 h1
    with_reducible refine faultEvent_keeps _ _ _ ?_
    with_reducible exact h1

theorem execPreExpire_keeps (s : State) (hs : Mem Q s) : OutMem Q (execPreExpire s) := by
  unfold execPreExpire
  with_reducible refine onLive_keeps _ _ ?_ ?_
  · with_reducible exact hs
  · intro x1 h1
    with_reducible refine preExpire_keeps _ ?_
    with_reducible exact h1

theorem execSupplyDip_keeps (rail : Nat) (s : State) (hs : Mem Q s) : OutMem Q (execSupplyDip rail s) := by
  unfold execSupplyDip
  with_reducible refine onLive_keeps _ _ ?_ ?_
  · with_reducible exact hs
  · intro x1 h1
    with_reducible refine supplyDip_keeps _ _ ?_
    with_reducible exact h1

theorem State.dropRanger_keeps (W : WritesLm Q) (s : State) (hs : Mem Q s) : Mem Q (State.dropRanger s) := by
  unfold State.dropRanger
  extract_lets -merge +onlyGivenNames a1 a2 a3 a4 a5 a6 a7 a8
  try clear_value a1
  try clear_value a2
  try clear_value a3
  try clear_value a4
  try clear_value a5
  try clear_value a6
  try clear_value a7
  try clear_value a8
  with_reducible refine State.flushMbx_keeps W _ _ ?_
  unfold Mem; dsimp only; refine mem_in ?_
  with_reducible exact hs

theorem State.coldRestart_keeps (W : WritesLm Q) (s : State) (hs : Mem Q s) : Mem Q (State.coldRestart s) := by
  unfold State.coldRestart
  extract_lets -merge +onlyGivenNames a1 a2 a3
  have ha1 : Mem Q a1 := by
    subst a1
    with_reducible refine State.wr_keeps _ _ _ ?_
    with_reducible refine State.wr_keeps _ _ _ ?_
    with_reducible refine State.inc_keeps _ _ ?_
    with_reducible exact hs
  try clear_value a1
  try clear_value a3
  with_reducible refine State.dropRanger_keeps W _ ?_
  unfold Mem; dsimp only; refine mem_in ?_
  with_reducible exact ha1

theorem State.wdgRestart_keeps (W : WritesLm Q) (s : State) (hs : Mem Q s) : Mem Q (State.wdgRestart s) := by
  unfold State.wdgRestart
  extract_lets -merge +onlyGivenNames a1 a2 a3 a4 a5 a6 a7
  have ha1 : Mem Q a1 := by
    subst a1
    with_reducible refine State.wr_keeps _ _ _ ?_
    with_reducible refine State.wr_keeps _ _ _ ?_
    with_reducible exact hs
  try clear_value a1
  try clear_value a3
  have ha4 : Mem Q a4 := by
    subst a4
    with_reducible refine State.dropRanger_keeps W _ ?_
    unfold Mem; dsimp only; refine mem_in ?_
    with_reducible exact ha1
  try clear_value a4
  try clear_value a5
  have ha6 : Mem Q a6 := by
    subst a6
    unfold Mem; dsimp only; refine mem_in ?_
    with_reducible exact hs
  try clear_value a6
  have ha7 : Mem Q a7 := by
    subst a7
    with_reducible refine State.wr_keeps _ _ _ ?_
    with_reducible exact ha6
  try clear_value a7
  with_reducible refine keep_ite ?_ ?_
  · with_reducible refine State.detect_keeps _ _ ?_
    with_reducible exact ha4
  · with_reducible refine State.coldRestart_keeps W _ ?_
    with_reducible exact ha7

theorem watchdogExpires_keeps (W : WritesLm Q) (s : State) (hs : Mem Q s) : Mem Q (watchdogExpires s) := by
  unfold watchdogExpires
  extract_lets -merge +onlyGivenNames a1 a2 a3 a4
  have ha1 : Mem Q a1 := by
    subst a1
    with_reducible refine State.advanceTo_keeps _ _ ?_
    with_reducible exact hs
  try clear_value a1
  have ha2 : Mem Q a2 := by
    subst a2
    with_reducible refine State.detect_keeps _ _ ?_
    with_reducible exact ha1
  try clear_value a2
  try clear_value a3
  have ha4 : Mem Q a4 := by
    subst a4
    with_reducible refine State.resignNative_keeps _ ?_
    unfold Mem; dsimp only; refine mem_in ?_
    with_reducible exact ha2
  try clear_value a4
  with_reducible refine State.wdgRestart_keeps W _ ?_
  with_reducible exact ha4

theorem faultSnapshot_keeps (W : WritesLm Q) (d : Desc) (ok : Bool) (s : State) (hs : Mem Q s) : Mem Q (faultSnapshot d ok s) := by
  unfold faultSnapshot
  with_reducible refine keep_ite ?_ ?_
  · with_reducible refine State.finish_keeps W _ _ _ _ _ ?_
    with_reducible exact hs
  · with_reducible refine keep_ite ?_ ?_
    · with_reducible refine State.finish_keeps W _ _ _ _ _ ?_
      with_reducible exact hs
    · with_reducible refine keep_ite ?_ ?_
      · with_reducible refine State.finish_keeps W _ _ _ _ _ ?_
        with_reducible exact hs
      · with_reducible refine State.finish_keeps W _ _ _ _ _ ?_
        with_reducible refine State.returnTo_keeps W _ _ _ _ ?_
        with_reducible exact hs

theorem rangerRestart_keeps (W : WritesLm Q) (d : Desc) (s : State) (hs : Mem Q s) : Mem Q (rangerRestart d s) := by
  unfold rangerRestart
  extract_lets -merge +onlyGivenNames a1 a2
  have ha1 : Mem Q a1 := by
    subst a1
    with_reducible refine State.coldRestart_keeps W _ ?_
    with_reducible refine State.starts_keeps _ _ ?_
    with_reducible exact hs
  try clear_value a1
  try clear_value a2
  with_reducible refine keep_ite ?_ ?_
  · with_reducible refine State.finish_keeps W _ _ _ _ _ ?_
    with_reducible exact hs
  · unfold Mem; dsimp only; refine mem_in ?_
    with_reducible exact ha1

theorem execFaultSnapshot_keeps (W : WritesLm Q) (d : Desc) (ok : Bool) (s : State) (hs : Mem Q s) : OutMem Q (execFaultSnapshot d ok s) := by
  unfold execFaultSnapshot
  with_reducible refine onOp_keeps W _ _ _ _ _ ?_ ?_
  · with_reducible exact hs
  · intro x1 h1
    with_reducible refine faultSnapshot_keeps W _ _ _ ?_
    with_reducible exact h1

theorem execRangerRestart_keeps (W : WritesLm Q) (d : Desc) (s : State) (hs : Mem Q s) : OutMem Q (execRangerRestart d s) := by
  unfold execRangerRestart
  with_reducible refine onOp_keeps W _ _ _ _ _ ?_ ?_
  · with_reducible exact hs
  · intro x1 h1
    with_reducible refine rangerRestart_keeps W _ _ ?_
    with_reducible exact h1

end Sys2Proof.Machine
end

