-- ==== Sys2Proof/Laws/KeepsTrail.lean ====
section
/-! SUPPORT. The operations and meanings of Trail, Pair keep any property of the stores and the straps that the writes they
make keep (see Laws/Memory.lean). -/

namespace Sys2Proof.Machine

variable {Q : Store → Store → StrapBalls → Prop}

theorem State.loadTime_keeps (s : State) (k : Nat) (time : Nat) (hs : Mem Q s) : Mem Q (State.loadTime s k time) := by
  unfold State.loadTime
  unfold Mem; dsimp only; refine mem_in ?_
  with_reducible exact hs

theorem State.epochTick_keeps (s : State) (hs : Mem Q s) : Mem Q (State.epochTick s) := by
  unfold State.epochTick
  extract_lets -merge +onlyGivenNames a1 a2
  have ha1 : Mem Q a1 := by
    subst a1
    with_reducible refine State.wr_keeps _ _ _ ?_
    with_reducible refine State.wr_keeps _ _ _ ?_
    with_reducible exact hs
  try clear_value a1
  try clear_value a2
  split <;> first
    | (with_reducible refine keep_ite ?_ ?_
       · unfold Mem; dsimp only; refine mem_in ?_
         with_reducible exact ha1
       · with_reducible exact hs)
    | (with_reducible exact hs)

theorem State.takeStart_keeps (s : State) (k : Nat) (f : Bytes) (hs : Mem Q s) : Mem Q (State.takeStart s k f) := by
  unfold State.takeStart
  extract_lets -merge +onlyGivenNames a1 a2 a3 a4 a5 a6 a7
  try clear_value a1
  try clear_value a2
  try clear_value a3
  try clear_value a4
  have ha5 : Mem Q a5 := by
    subst a5
    unfold Mem; dsimp only; refine mem_in ?_
    with_reducible exact hs
  try clear_value a5
  try clear_value a6
  try clear_value a7
  with_reducible refine keep_ite ?_ ?_
  · with_reducible exact hs
  · with_reducible refine keep_ite ?_ ?_
    · with_reducible exact ha5
    · unfold Mem; dsimp only; refine mem_in ?_
      with_reducible exact ha5

theorem State.relayMarker_keeps (s : State) (k : Nat) (b : Bytes) (hs : Mem Q s) : Mem Q (State.relayMarker s k b) := by
  unfold State.relayMarker
  with_reducible refine keep_ite ?_ ?_
  · with_reducible refine State.emit_keeps _ _ ?_
    with_reducible refine State.drawn_keeps _ ?_
    with_reducible exact hs
  · with_reducible exact hs

theorem State.sendReq_keeps (s : State) (k : Nat) (i : Nat) (at0 : Nat) (hs : Mem Q s) : Mem Q (State.sendReq s k i at0) := by
  unfold State.sendReq
  extract_lets -merge +onlyGivenNames a1
  try clear_value a1
  split <;> first
    | (with_reducible exact hs)
    | (extract_lets -merge +onlyGivenNames a2 a3 a4
       try clear_value a2
       try clear_value a3
       try clear_value a4
       with_reducible refine State.emit_keeps _ _ ?_
       with_reducible refine State.setPort_keeps _ _ _ ?_
       with_reducible exact hs)

theorem State.takeCycle_keeps (s : State) (k : Nat) (rx : List (List Block)) (hs : Mem Q s) : Mem Q (State.takeCycle s k rx) := by
  unfold State.takeCycle
  with_reducible refine keep_ite ?_ ?_
  · with_reducible exact hs
  · with_reducible refine State.judgeBer_keeps _ _ _ ?_
    with_reducible refine State.takeBlocks_keeps _ _ _ ?_
    with_reducible exact hs

theorem bcastGap_keeps (m : RetMsg) (s : State) (hs : Mem Q s) : Mem Q (bcastGap m s) := by
  unfold bcastGap
  extract_lets -merge +onlyGivenNames a1 a2 a3 a4 a5 a6 a7 a8
  try clear_value a1
  try clear_value a2
  try clear_value a3
  try clear_value a4
  try clear_value a5
  try clear_value a6
  have ha7 : Mem Q a7 := by
    subst a7
    unfold Mem; dsimp only; refine mem_in ?_
    with_reducible exact hs
  try clear_value a7
  try clear_value a8
  split <;> first
    | (with_reducible exact ha7)
    | (extract_lets -merge +onlyGivenNames a9 a10 a11
       try clear_value a9
       try clear_value a10
       try clear_value a11
       with_reducible refine keep_ite ?_ ?_
       · with_reducible exact ha7
       · with_reducible refine State.setPort_keeps _ _ _ ?_
         with_reducible exact ha7)

theorem State.showDmax_keeps (s : State) (k : Nat) (hs : Mem Q s) : Mem Q (State.showDmax s k) := by
  unfold State.showDmax
  with_reducible refine State.wr_keeps _ _ _ ?_
  with_reducible exact hs

theorem bcastGapAgain_keeps (m : RetMsg) (s : State) (hs : Mem Q s) : Mem Q (bcastGapAgain m s) := by
  unfold bcastGapAgain
  extract_lets -merge +onlyGivenNames a1
  try clear_value a1
  with_reducible refine keep_ite ?_ ?_
  · with_reducible refine bcastGap_keeps _ _ ?_
    with_reducible exact hs
  · with_reducible exact hs

theorem State.judgeFeed_keeps (s : State) (k : Nat) (hs : Mem Q s) : Mem Q (State.judgeFeed s k) := by
  unfold State.judgeFeed
  extract_lets -merge +onlyGivenNames a1 a2 a3 a4 a5
  try clear_value a1
  try clear_value a2
  try clear_value a3
  try clear_value a4
  try clear_value a5
  with_reducible refine State.setPort_keeps _ _ _ ?_
  with_reducible exact hs

theorem State.nextCycle_keeps (s : State) (k : Nat) (hs : Mem Q s) : Mem Q (State.nextCycle s k) := by
  unfold State.nextCycle
  extract_lets -merge +onlyGivenNames a1 a2 a3 a4
  try clear_value a1
  have ha2 : Mem Q a2 := by
    subst a2
    with_reducible refine State.advanceTo_keeps _ _ ?_
    with_reducible exact hs
  try clear_value a2
  try clear_value a3
  try clear_value a4
  with_reducible refine State.setPort_keeps _ _ _ ?_
  with_reducible exact ha2

theorem echoTimeout_keeps (k : Nat) (eseq : BitVec 16) (s : State) (hs : Mem Q s) : Mem Q (echoTimeout k eseq s) := by
  unfold echoTimeout
  split <;> first
    | (with_reducible exact hs)
    | (extract_lets -merge +onlyGivenNames a1 a2
       have ha1 : Mem Q a1 := by
         subst a1
         with_reducible refine State.advanceTo_keeps _ _ ?_
         with_reducible exact hs
       try clear_value a1
       try clear_value a2
       with_reducible refine State.setPort_keeps _ _ _ ?_
       with_reducible exact ha1)

theorem execEchoTimeout_keeps (port : Nat) (eseq : BitVec 16) (s : State) (hs : Mem Q s) : OutMem Q (execEchoTimeout port eseq s) := by
  unfold execEchoTimeout
  with_reducible refine onLive_keeps _ _ ?_ ?_
  · with_reducible exact hs
  · intro x1 h1
    with_reducible refine onPort_keeps _ _ _ ?_ ?_
    · intro x2 h2
      with_reducible refine echoTimeout_keeps _ _ _ ?_
      with_reducible exact h2
    · with_reducible exact h1

theorem rosterTimeout_keeps (k : Nat) (t : Nat) (s : State) (hs : Mem Q s) : Mem Q (rosterTimeout k t s) := by
  unfold rosterTimeout
  extract_lets -merge +onlyGivenNames a1
  try clear_value a1
  split <;> first
    | (with_reducible exact hs)
    | (extract_lets -merge +onlyGivenNames a2 a3 a4
       have ha2 : Mem Q a2 := by
         subst a2
         with_reducible refine State.advanceTo_keeps _ _ ?_
         with_reducible exact hs
       try clear_value a2
       have ha3 : Mem Q a3 := by
         subst a3
         with_reducible refine State.wr_keeps _ _ _ ?_
         with_reducible exact ha2
       try clear_value a3
       try clear_value a4
       with_reducible refine keep_ite ?_ ?_
       · with_reducible exact hs
       · with_reducible refine State.showDmax_keeps _ _ ?_
         with_reducible refine State.setPort_keeps _ _ _ ?_
         with_reducible exact ha3)

theorem execRosterTimeout_keeps (port : Nat) (tile : Nat) (s : State) (hs : Mem Q s) : OutMem Q (execRosterTimeout port tile s) := by
  unfold execRosterTimeout
  with_reducible refine onLive_keeps _ _ ?_ ?_
  · with_reducible exact hs
  · intro x1 h1
    with_reducible refine onPort_keeps _ _ _ ?_ ?_
    · intro x2 h2
      with_reducible refine rosterTimeout_keeps _ _ _ ?_
      with_reducible exact h2
    · with_reducible exact h1

theorem State.turnaround_keeps (s : State) (k : Nat) (hs : Mem Q s) : Mem Q (State.turnaround s k) := by
  unfold State.turnaround
  extract_lets -merge +onlyGivenNames a1
  try clear_value a1
  with_reducible refine keep_ite ?_ ?_
  · with_reducible refine State.emit_keeps _ _ ?_
    with_reducible refine State.sendMarker_keeps _ _ ?_
    with_reducible exact hs
  · with_reducible exact hs

theorem State.takeField_keeps (s : State) (f : Bytes) (hs : Mem Q s) : Mem Q (State.takeField s f) := by
  unfold State.takeField
  extract_lets -merge +onlyGivenNames a1 a2 a3
  try clear_value a1
  try clear_value a2
  try clear_value a3
  split <;> first
    | (with_reducible exact hs)
    | (with_reducible refine keep_ite ?_ ?_
       · with_reducible exact hs
       · with_reducible refine keep_ite ?_ ?_
         · unfold Mem; dsimp only; refine mem_in ?_
           with_reducible exact hs
         · with_reducible refine keep_ite ?_ ?_
           · with_reducible refine State.unstage_keeps _ ?_
             with_reducible exact hs
           · with_reducible exact hs)

theorem State.sendControl_keeps (s : State) (k : Nat) (hs : Mem Q s) : Mem Q (State.sendControl s k) := by
  unfold State.sendControl
  with_reducible refine keep_ite ?_ ?_
  · with_reducible refine State.sendLink_keeps _ _ _ ?_
    with_reducible exact hs
  · with_reducible refine keep_ite ?_ ?_
    · with_reducible refine State.sendLink_keeps _ _ _ ?_
      with_reducible exact hs
    · with_reducible exact hs

theorem epochAdvance_keeps (s : State) (hs : Mem Q s) : Mem Q (epochAdvance s) := by
  unfold epochAdvance
  extract_lets -merge +onlyGivenNames a1 a2
  have ha1 : Mem Q a1 := by
    subst a1
    with_reducible refine State.wr_keeps _ _ _ ?_
    with_reducible exact hs
  try clear_value a1
  try clear_value a2
  with_reducible refine keep_ite ?_ ?_
  · with_reducible exact hs
  · with_reducible refine keep_ite ?_ ?_
    · with_reducible refine State.detect_keeps _ _ ?_
      with_reducible exact hs
    · unfold Mem; dsimp only; refine mem_in ?_
      with_reducible exact ha1

theorem State.dropOld_keeps (s : State) (k : Nat) (now : Nat) (hs : Mem Q s) : Mem Q (State.dropOld s k now) := by
  unfold State.dropOld
  extract_lets -merge +onlyGivenNames a1 a2 a3
  try clear_value a1
  try clear_value a2
  have ha3 : Mem Q a3 := by
    subst a3
    with_reducible refine State.setPort_keeps _ _ _ ?_
    with_reducible exact hs
  try clear_value a3
  with_reducible refine keep_ite ?_ ?_
  · with_reducible exact hs
  · with_reducible refine State.detect_keeps _ _ ?_
    with_reducible refine State.incBy_keeps _ _ _ ?_
    with_reducible exact ha3

theorem execEpochAdvance_keeps (s : State) (hs : Mem Q s) : OutMem Q (execEpochAdvance s) := by
  unfold execEpochAdvance
  with_reducible refine onLive_keeps _ _ ?_ ?_
  · with_reducible exact hs
  · intro x1 h1
    with_reducible refine epochAdvance_keeps _ ?_
    with_reducible exact h1

theorem State.takePreview_keeps (W : WritesLm Q) (s : State) (k : Nat) (b : Bytes) (hs : Mem Q s) : Mem Q (State.takePreview s k b) := by
  unfold State.takePreview
  extract_lets -merge +onlyGivenNames a1 a2 a3 a4 a5 a6
  try clear_value a1
  try clear_value a2
  try clear_value a3
  have ha4 : Mem Q a4 := by
    subst a4
    with_reducible refine State.taken_keeps _ _ ?_
    with_reducible refine State.takeRet_keeps _ _ ?_
    with_reducible exact hs
  try clear_value a4
  try clear_value a5
  try clear_value a6
  with_reducible refine keep_ite ?_ ?_
  · with_reducible refine State.hdrBad_keeps _ _ ?_
    with_reducible exact hs
  · with_reducible refine keep_ite ?_ ?_
    · with_reducible refine State.dup_keeps _ _ ?_
      with_reducible exact hs
    · split <;> first
        | (with_reducible exact ha4)
        | (extract_lets -merge +onlyGivenNames a7 a8 a9
           try clear_value a7
           try clear_value a8
           try clear_value a9
           with_reducible refine keep_ite ?_ ?_
           · with_reducible exact ha4
           · with_reducible refine State.lmWrite_keeps W _ _ _ ?_
             with_reducible exact ha4)

theorem State.takeChunk_keeps (s : State) (k : Nat) (b : Bytes) (hs : Mem Q s) : Mem Q (State.takeChunk s k b) := by
  unfold State.takeChunk
  extract_lets -merge +onlyGivenNames a1 a2 a3 a4 a5 a6 a7 a8 a9 a10 a11
  try clear_value a1
  try clear_value a2
  try clear_value a3
  try clear_value a4
  try clear_value a5
  try clear_value a6
  try clear_value a7
  try clear_value a8
  have ha9 : Mem Q a9 := by
    subst a9
    unfold Mem; dsimp only; refine mem_in ?_
    with_reducible exact hs
  try clear_value a9
  try clear_value a10
  have ha11 : Mem Q a11 := by
    subst a11
    unfold Mem; dsimp only; refine mem_in ?_
    with_reducible exact ha9
  try clear_value a11
  with_reducible refine keep_ite ?_ ?_
  · with_reducible exact hs
  · with_reducible refine keep_ite ?_ ?_
    · with_reducible refine State.hdrBad_keeps _ _ ?_
      with_reducible exact hs
    · with_reducible refine keep_ite ?_ ?_
      · with_reducible refine State.detect_keeps _ _ ?_
        with_reducible refine State.inc_keeps _ _ ?_
        with_reducible exact ha9
      · with_reducible refine keep_ite ?_ ?_
        · with_reducible refine State.dup_keeps _ _ ?_
          with_reducible exact ha9
        · with_reducible refine State.storeChunk_keeps _ _ _ _ _ _ ?_
          with_reducible refine State.taken_keeps _ _ ?_
          with_reducible exact ha11

theorem State.takeRsp_keeps (s : State) (k : Nat) (b : Bytes) (hs : Mem Q s) : Mem Q (State.takeRsp s k b) := by
  unfold State.takeRsp
  extract_lets -merge +onlyGivenNames a1 a2 a3 a4 a5
  try clear_value a1
  try clear_value a2
  have ha3 : Mem Q a3 := by
    subst a3
    with_reducible refine State.hear_keeps _ _ _ ?_
    with_reducible refine State.taken_keeps _ _ ?_
    with_reducible exact hs
  try clear_value a3
  try clear_value a4
  try clear_value a5
  with_reducible refine keep_ite ?_ ?_
  · with_reducible refine State.hdrBad_keeps _ _ ?_
    with_reducible exact hs
  · split <;> first
      | (with_reducible exact ha3)
      | (extract_lets -merge +onlyGivenNames a6 a7 a8 a9
         try clear_value a6
         have ha7 : Mem Q a7 := by
           subst a7
           with_reducible refine State.setPort_keeps _ _ _ ?_
           with_reducible exact ha3
         try clear_value a7
         try clear_value a8
         have ha9 : Mem Q a9 := by
           subst a9
           with_reducible refine State.setPort_keeps _ _ _ ?_
           with_reducible exact ha7
         try clear_value a9
         with_reducible refine keep_ite ?_ ?_
         · with_reducible exact ha7
         · with_reducible refine State.showDmax_keeps _ _ ?_
           with_reducible exact ha9)

theorem State.takeReq_keeps (s : State) (k : Nat) (b : Bytes) (hs : Mem Q s) : Mem Q (State.takeReq s k b) := by
  unfold State.takeReq
  extract_lets -merge +onlyGivenNames a1 a2 a3 a4 a5 a6 a7 a8
  try clear_value a1
  have ha2 : Mem Q a2 := by
    subst a2
    with_reducible refine State.taken_keeps _ _ ?_
    with_reducible exact hs
  try clear_value a2
  try clear_value a3
  try clear_value a4
  have ha5 : Mem Q a5 := by
    subst a5
    unfold Mem; dsimp only; refine mem_in ?_
    with_reducible exact ha2
  try clear_value a5
  try clear_value a6
  try clear_value a7
  have ha8 : Mem Q a8 := by
    subst a8
    with_reducible refine State.setPort_keeps _ _ _ ?_
    with_reducible exact ha5
  try clear_value a8
  with_reducible refine keep_ite ?_ ?_
  · with_reducible exact hs
  · with_reducible refine keep_ite ?_ ?_
    · with_reducible refine State.hdrBad_keeps _ _ ?_
      with_reducible exact hs
    · with_reducible refine keep_ite ?_ ?_
      · with_reducible refine State.lockUpdate_keeps _ ?_
        with_reducible refine State.wr_keeps _ _ _ ?_
        with_reducible exact ha8
      · with_reducible exact ha5

theorem execPreviewReturn_keeps (W : WritesLm Q) (port : Nat) (index : Nat) (slot : Bytes) (s : State) (hs : Mem Q s) : OutMem Q (execPreviewReturn port index slot s) := by
  unfold execPreviewReturn
  with_reducible refine onLive_keeps _ _ ?_ ?_
  · with_reducible exact hs
  · intro x1 h1
    with_reducible refine onPort_keeps _ _ _ ?_ ?_
    · intro x2 h2
      with_reducible refine State.onCopy_keeps _ _ _ _ _ _ ?_ ?_
      · with_reducible exact h2
      · intro x3 h3
        with_reducible refine keep_ite ?_ ?_
        · with_reducible refine State.takePreview_keeps W _ _ _ ?_
          with_reducible exact h3
        · with_reducible exact h3
    · with_reducible exact h1

theorem execEchoRsp_keeps (port : Nat) (index : Nat) (slot : Bytes) (s : State) (hs : Mem Q s) : OutMem Q (execEchoRsp port index slot s) := by
  unfold execEchoRsp
  with_reducible refine onLive_keeps _ _ ?_ ?_
  · with_reducible exact hs
  · intro x1 h1
    with_reducible refine onPort_keeps _ _ _ ?_ ?_
    · intro x2 h2
      with_reducible refine State.onCopy_keeps _ _ _ _ _ _ ?_ ?_
      · with_reducible exact h2
      · intro x3 h3
        with_reducible refine keep_ite ?_ ?_
        · with_reducible refine State.takeRsp_keeps _ _ _ ?_
          with_reducible exact h3
        · with_reducible exact h3
    · with_reducible exact h1

theorem execChunkReceive_keeps (port : Nat) (index : Nat) (slot : Bytes) (s : State) (hs : Mem Q s) : OutMem Q (execChunkReceive port index slot s) := by
  unfold execChunkReceive
  with_reducible refine onLive_keeps _ _ ?_ ?_
  · with_reducible exact hs
  · intro x1 h1
    with_reducible refine onPort_keeps _ _ _ ?_ ?_
    · intro x2 h2
      with_reducible refine State.onCopy_keeps _ _ _ _ _ _ ?_ ?_
      · with_reducible exact h2
      · intro x3 h3
        with_reducible refine keep_ite ?_ ?_
        · with_reducible refine State.takeChunk_keeps _ _ _ ?_
          with_reducible exact h3
        · with_reducible exact h3
    · with_reducible exact h1

theorem State.takeMarker_keeps (s : State) (k : Nat) (f : Bytes) (hs : Mem Q s) : Mem Q (State.takeMarker s k f) := by
  unfold State.takeMarker
  extract_lets -merge +onlyGivenNames a1 a2 a3 a4
  have ha1 : Mem Q a1 := by
    subst a1
    with_reducible refine State.loadTime_keeps _ _ _ ?_
    with_reducible exact hs
  try clear_value a1
  have ha2 : Mem Q a2 := by
    subst a2
    with_reducible refine State.wr_keeps _ _ _ ?_
    with_reducible refine State.wr_keeps _ _ _ ?_
    with_reducible exact ha1
  try clear_value a2
  have ha3 : Mem Q a3 := by
    subst a3
    with_reducible refine State.takeStart_keeps _ _ _ ?_
    with_reducible exact ha2
  try clear_value a3
  try clear_value a4
  with_reducible refine State.lockUpdate_keeps _ ?_
  with_reducible refine State.detectIf_keeps _ _ _ ?_
  with_reducible exact ha3

theorem execEchoReq_keeps (port : Nat) (index : Nat) (slot : Bytes) (s : State) (hs : Mem Q s) : OutMem Q (execEchoReq port index slot s) := by
  unfold execEchoReq
  with_reducible refine onLive_keeps _ _ ?_ ?_
  · with_reducible exact hs
  · intro x1 h1
    with_reducible refine onPort_keeps _ _ _ ?_ ?_
    · intro x2 h2
      with_reducible refine State.onCopy_keeps _ _ _ _ _ _ ?_ ?_
      · with_reducible exact h2
      · intro x3 h3
        with_reducible refine keep_ite ?_ ?_
        · with_reducible refine State.takeReq_keeps _ _ _ ?_
          with_reducible exact h3
        · with_reducible exact h3
    · with_reducible exact h1

theorem State.goodMarker_keeps (s : State) (k : Nat) (b : Bytes) (hs : Mem Q s) : Mem Q (State.goodMarker s k b) := by
  unfold State.goodMarker
  extract_lets -merge +onlyGivenNames a1 a2 a3 a4 a5 a6 a7 a8 a9 a10
  try clear_value a1
  try clear_value a2
  try clear_value a3
  try clear_value a4
  have ha5 : Mem Q a5 := by
    subst a5
    with_reducible refine State.setPort_keeps _ _ _ ?_
    with_reducible exact hs
  try clear_value a5
  have ha6 : Mem Q a6 := by
    subst a6
    with_reducible refine State.feedUpdate_keeps _ ?_
    with_reducible refine State.judgeFeed_keeps _ _ ?_
    with_reducible exact ha5
  try clear_value a6
  have ha7 : Mem Q a7 := by
    subst a7
    with_reducible refine State.turnaround_keeps _ _ ?_
    with_reducible exact ha6
  try clear_value a7
  have ha8 : Mem Q a8 := by
    subst a8
    with_reducible refine State.takeField_keeps _ _ ?_
    with_reducible exact ha7
  try clear_value a8
  have ha9 : Mem Q a9 := by
    subst a9
    with_reducible refine keep_ite ?_ ?_
    · with_reducible refine State.takePref_keeps _ _ _ ?_
      with_reducible exact ha8
    · with_reducible exact ha8
  try clear_value a9
  have ha10 : Mem Q a10 := by
    subst a10
    with_reducible refine keep_ite ?_ ?_
    · with_reducible refine State.rootChanged_keeps _ ?_
      with_reducible refine State.slewTo_keeps _ _ ?_
      with_reducible exact ha9
    · with_reducible exact ha9
  try clear_value a10
  with_reducible refine keep_ite ?_ ?_
  · with_reducible exact ha7
  · with_reducible refine keep_ite ?_ ?_
    · with_reducible refine State.takeMarker_keeps _ _ _ ?_
      with_reducible exact ha10
    · with_reducible exact ha10

theorem execLockReport_keeps (m : RetMsg) (s : State) (hs : Mem Q s) : OutMem Q (execLockReport m s) := by
  unfold execLockReport
  with_reducible refine onRet_keeps _ _ _ _ ?_ ?_
  · intro x1 h1
    extract_lets -merge +onlyGivenNames a1
    try clear_value a1
    unfold Mem; dsimp only; refine mem_in ?_
    with_reducible exact h1
  · with_reducible exact hs

theorem State.copyAbort_keeps (W : WritesLm Q) (s : State) (c : Commit) (hs : Mem Q s) : Mem Q (State.copyAbort s c) := by
  unfold State.copyAbort
  extract_lets -merge +onlyGivenNames a1 a2 a3 a4 a5
  try clear_value a1
  have ha2 : Mem Q a2 := by
    subst a2
    with_reducible refine State.revertShadow_keeps _ ?_
    with_reducible exact hs
  try clear_value a2
  try clear_value a3
  have ha4 : Mem Q a4 := by
    subst a4
    unfold Mem; dsimp only; refine mem_in ?_
    with_reducible exact ha2
  try clear_value a4
  have ha5 : Mem Q a5 := by
    subst a5
    with_reducible refine State.wr_keeps _ _ _ ?_
    with_reducible exact ha4
  try clear_value a5
  with_reducible refine keep_ite ?_ ?_
  · with_reducible refine State.endCommit_keeps W _ _ _ _ _ ?_
    with_reducible exact ha5
  · with_reducible refine keep_ite ?_ ?_
    · with_reducible refine State.endCommit_keeps W _ _ _ _ _ ?_
      with_reducible exact ha5
    · with_reducible refine State.endCommit_keeps W _ _ _ _ _ ?_
      with_reducible exact ha5

theorem State.missMarker_keeps (s : State) (k : Nat) (hs : Mem Q s) : Mem Q (State.missMarker s k) := by
  unfold State.missMarker
  extract_lets -merge +onlyGivenNames a1 a2 a3 a4 a5 a6
  try clear_value a1
  try clear_value a2
  have ha3 : Mem Q a3 := by
    subst a3
    with_reducible refine State.setPort_keeps _ _ _ ?_
    with_reducible exact hs
  try clear_value a3
  have ha4 : Mem Q a4 := by
    subst a4
    with_reducible refine State.judgeFeed_keeps _ _ ?_
    with_reducible refine State.inc_keeps _ _ ?_
    with_reducible exact ha3
  try clear_value a4
  try clear_value a5
  have ha6 : Mem Q a6 := by
    subst a6
    with_reducible refine keep_ite ?_ ?_
    · with_reducible refine State.wr_keeps _ _ _ ?_
      with_reducible refine State.wr_keeps _ _ _ ?_
      with_reducible exact ha4
    · with_reducible exact ha4
  try clear_value a6
  with_reducible refine State.feedUpdate_keeps _ ?_
  with_reducible refine State.turnaround_keeps _ _ ?_
  with_reducible exact ha6

theorem execBcastGap_keeps (m : RetMsg) (s : State) (hs : Mem Q s) : OutMem Q (execBcastGap m s) := by
  unfold execBcastGap
  with_reducible refine onRetAgain_keeps _ _ _ _ _ ?_ ?_ ?_
  · intro x1 h1
    with_reducible refine bcastGap_keeps _ _ ?_
    with_reducible exact h1
  · intro x2 h2
    with_reducible refine bcastGapAgain_keeps _ _ ?_
    with_reducible exact h2
  · with_reducible exact hs

theorem markerMissing_keeps (k : Nat) (rx : List (List Block)) (s : State) (hs : Mem Q s) : Mem Q (markerMissing k rx s) := by
  unfold markerMissing
  extract_lets -merge +onlyGivenNames a1
  have ha1 : Mem Q a1 := by
    subst a1
    with_reducible refine State.takeCycle_keeps _ _ _ ?_
    with_reducible exact hs
  try clear_value a1
  with_reducible refine keep_ite ?_ ?_
  · with_reducible exact hs
  · with_reducible refine keep_ite ?_ ?_
    · with_reducible refine State.inc_keeps _ _ ?_
      with_reducible exact ha1
    · with_reducible refine State.missMarker_keeps _ _ ?_
      with_reducible refine State.advanceTo_keeps _ _ ?_
      with_reducible exact ha1

theorem State.bcastSent_keeps (W : WritesLm Q) (s : State) (stream : Nat) (bid : Nat) (hs : Mem Q s) : Mem Q (State.bcastSent s stream bid) := by
  unfold State.bcastSent
  extract_lets -merge +onlyGivenNames a1 a2 a3 a4
  try clear_value a1
  try clear_value a2
  have ha3 : Mem Q a3 := by
    subst a3
    unfold Mem; dsimp only; refine mem_in ?_
    with_reducible exact hs
  try clear_value a3
  have ha4 : Mem Q a4 := by
    subst a4
    with_reducible refine keep_ite ?_ ?_
    · with_reducible refine State.prepareSent_keeps _ ?_
      with_reducible exact ha3
    · with_reducible exact ha3
  try clear_value a4
  with_reducible refine keep_ite ?_ ?_
  · with_reducible exact hs
  · refine keep_foldl ?_ ?_
    · with_reducible exact ha4
    · intro x1 x2 h1
      extract_lets -merge +onlyGivenNames a5
      try clear_value a5
      with_reducible refine State.finish_keeps W _ _ _ _ _ ?_
      with_reducible exact h1

theorem State.copyField_keeps (W : WritesLm Q) (s : State) (id : BitVec 16) (st : Nat) (tgt : Word) (hs : Mem Q s) : Mem Q (State.copyField s id st tgt) := by
  unfold State.copyField
  extract_lets -merge +onlyGivenNames a1 a2 a3 a4
  try clear_value a1
  try clear_value a2
  have ha3 : Mem Q a3 := by
    subst a3
    unfold Mem; dsimp only; refine mem_in ?_
    with_reducible exact hs
  try clear_value a3
  try clear_value a4
  with_reducible refine keep_ite ?_ ?_
  · with_reducible exact ha3
  · split <;> first
      | (with_reducible refine keep_ite ?_ ?_
         · with_reducible refine keep_ite ?_ ?_
           · with_reducible refine State.copyAbort_keeps W _ _ ?_
             with_reducible exact ha3
           · with_reducible refine keep_ite ?_ ?_
             · with_reducible refine State.setCommit_keeps _ _ ?_
               with_reducible exact ha3
             · with_reducible exact ha3
         · with_reducible refine State.detectIf_keeps _ _ _ ?_
           with_reducible exact ha3)
      | (with_reducible refine State.detectIf_keeps _ _ _ ?_
         with_reducible exact ha3)

theorem State.fillSlot_keeps (W : WritesLm Q) (s : State) (k : Nat) (i : Nat) (hs : Mem Q s) : Mem Q (State.fillSlot s k i) := by
  unfold State.fillSlot
  extract_lets -merge +onlyGivenNames a1 a2 a3
  try clear_value a1
  have ha2 : Mem Q a2 := by
    subst a2
    with_reducible refine State.dropOld_keeps _ _ _ ?_
    with_reducible exact hs
  try clear_value a2
  try clear_value a3
  split <;> first
    | (split <;> first
         | (with_reducible refine keep_ite ?_ ?_
            · with_reducible refine State.emit_keeps _ _ ?_
              with_reducible refine State.setPort_keeps _ _ _ ?_
              with_reducible exact ha2
            · with_reducible exact ha2)
         | (with_reducible exact ha2))
    | (split <;> first
         | (with_reducible refine keep_ite ?_ ?_
            · with_reducible refine State.emit_keeps _ _ ?_
              with_reducible refine State.setPort_keeps _ _ _ ?_
              with_reducible exact ha2
            · with_reducible exact ha2)
         | (with_reducible exact ha2))
    | (split <;> first
         | (extract_lets -merge +onlyGivenNames a4 a5
            have ha4 : Mem Q a4 := by
              subst a4
              with_reducible refine State.setPort_keeps _ _ _ ?_
              with_reducible exact ha2
            try clear_value a4
            have ha5 : Mem Q a5 := by
              subst a5
              with_reducible refine keep_ite ?_ ?_
              · with_reducible refine State.emit_keeps _ _ ?_
                with_reducible exact ha4
              · with_reducible exact ha4
            try clear_value a5
            with_reducible refine keep_ite ?_ ?_
            · with_reducible refine State.bcastSent_keeps W _ _ _ ?_
              with_reducible exact ha5
            · with_reducible exact ha2)
         | (with_reducible exact ha2))
    | (with_reducible refine State.sendReq_keeps _ _ _ _ ?_
       with_reducible exact ha2)
    | (with_reducible exact ha2)

theorem execMarkerMissing_keeps (port : Nat) (rx : List (List Block)) (s : State) (hs : Mem Q s) : OutMem Q (execMarkerMissing port rx s) := by
  unfold execMarkerMissing
  with_reducible refine onLive_keeps _ _ ?_ ?_
  · with_reducible exact hs
  · intro x1 h1
    with_reducible refine onPort_keeps _ _ _ ?_ ?_
    · intro x2 h2
      with_reducible refine markerMissing_keeps _ _ _ ?_
      with_reducible exact h2
    · with_reducible exact h1

theorem State.settleSent_keeps (W : WritesLm Q) (s : State) (hs : Mem Q s) : Mem Q (State.settleSent s) := by
  unfold State.settleSent
  refine keep_foldl ?_ ?_
  · with_reducible refine State.settlePrepare_keeps _ ?_
    with_reducible exact hs
  · intro x1 x2 h1
    with_reducible refine State.bcastSent_keeps W _ _ _ ?_
    with_reducible exact h1

theorem State.fillSlots_keeps (W : WritesLm Q) (s : State) (k n : Nat) (hs : Mem Q s) : Mem Q (State.fillSlots s k n) := by
  induction n generalizing s with
  | zero => exact hs
  | succ n ih =>
    unfold State.fillSlots
    extract_lets a1 a2
    split
    · exact ih _ (State.setPort_keeps _ _ _ (State.fillSlot_keeps W _ _ _ hs))
    · exact hs

theorem chunkDrop_keeps (W : WritesLm Q) (k : Nat) (s : State) (hs : Mem Q s) : Mem Q (chunkDrop k s) := by
  unfold chunkDrop
  with_reducible refine keep_ite ?_ ?_
  · with_reducible exact hs
  · split <;> first
      | (with_reducible exact hs)
      | (extract_lets -merge +onlyGivenNames a1
         have ha1 : Mem Q a1 := by
           subst a1
           with_reducible refine State.fillSlots_keeps W _ _ _ ?_
           with_reducible refine State.advanceTo_keeps _ _ ?_
           with_reducible exact hs
         try clear_value a1
         with_reducible refine State.dropOld_keeps _ _ _ ?_
         with_reducible exact ha1)

theorem execChunkDrop_keeps (W : WritesLm Q) (port : Nat) (s : State) (hs : Mem Q s) : OutMem Q (execChunkDrop port s) := by
  unfold execChunkDrop
  with_reducible refine onLive_keeps _ _ ?_ ?_
  · with_reducible exact hs
  · intro x1 h1
    with_reducible refine onPort_keeps _ _ _ ?_ ?_
    · intro x2 h2
      with_reducible refine chunkDrop_keeps W _ _ ?_
      with_reducible exact h2
    · with_reducible exact h1

theorem State.tileCycle_keeps (s : State) (k : Nat) (hs : Mem Q s) : Mem Q (State.tileCycle s k) := by
  unfold State.tileCycle
  extract_lets -merge +onlyGivenNames a1 a2 a3 a4 a5 a6 a7 a8 a9 a10 a11 a12 a13 a14 a15 a16
  have ha1 : Mem Q a1 := by
    subst a1
    with_reducible refine State.advanceTo_keeps _ _ ?_
    with_reducible exact hs
  try clear_value a1
  have ha2 : Mem Q a2 := by
    subst a2
    with_reducible refine keep_ite ?_ ?_
    · with_reducible refine State.closeDown_keeps _ _ ?_
      with_reducible exact ha1
    · with_reducible exact ha1
  try clear_value a2
  have ha3 : Mem Q a3 := by
    subst a3
    with_reducible refine State.nextCycle_keeps _ _ ?_
    with_reducible exact ha2
  try clear_value a3
  have ha4 : Mem Q a4 := by
    subst a4
    with_reducible refine keep_ite ?_ ?_
    · with_reducible refine State.emit_keeps _ _ ?_
      with_reducible exact ha3
    · with_reducible exact ha3
  try clear_value a4
  have ha5 : Mem Q a5 := by
    subst a5
    with_reducible refine keep_ite ?_ ?_
    · with_reducible refine keep_ite ?_ ?_
      · with_reducible refine State.sendLink_keeps _ _ _ ?_
        with_reducible exact ha4
      · with_reducible exact ha4
    · with_reducible refine State.sendControl_keeps _ _ ?_
      with_reducible exact ha4
  try clear_value a5
  try clear_value a6
  try clear_value a7
  have ha8 : Mem Q a8 := by
    subst a8
    unfold Mem; dsimp only; refine mem_in ?_
    with_reducible exact ha5
  try clear_value a8
  have ha9 : Mem Q a9 := by
    subst a9
    refine keep_foldl ?_ ?_
    · with_reducible exact ha8
    · intro x1 x2 h1
      with_reducible refine keep_ite ?_ ?_
      · with_reducible refine State.raiseEvent_keeps _ _ ?_
        with_reducible exact h1
      · with_reducible exact h1
  try clear_value a9
  try clear_value a10
  have ha11 : Mem Q a11 := by
    subst a11
    with_reducible refine keep_ite ?_ ?_
    · unfold Mem; dsimp only; refine mem_in ?_
      with_reducible exact ha9
    · with_reducible exact ha9
  try clear_value a11
  try clear_value a12
  try clear_value a13
  have ha14 : Mem Q a14 := by
    subst a14
    with_reducible refine State.sendLockReport_keeps _ ?_
    with_reducible exact ha11
  try clear_value a14
  try clear_value a15
  try clear_value a16
  with_reducible refine keep_ite ?_ ?_
  · with_reducible exact ha5
  · with_reducible refine keep_ite ?_ ?_
    · unfold Mem; dsimp only; refine mem_in ?_
      with_reducible exact ha11
    · with_reducible refine keep_ite ?_ ?_
      · unfold Mem; dsimp only; refine mem_in ?_
        with_reducible exact ha14
      · unfold Mem; dsimp only; refine mem_in ?_
        with_reducible exact ha11

theorem State.headMarker_keeps (W : WritesLm Q) (s : State) (f : Bytes) (hs : Mem Q s) : Mem Q (State.headMarker s f) := by
  unfold State.headMarker
  with_reducible refine keep_ite ?_ ?_
  · with_reducible refine State.copyField_keeps W _ _ _ _ ?_
    with_reducible exact hs
  · with_reducible exact hs

theorem State.headCycle_keeps (W : WritesLm Q) (s : State) (k : Nat) (hs : Mem Q s) : Mem Q (State.headCycle s k) := by
  unfold State.headCycle
  extract_lets -merge +onlyGivenNames a1 a2 a3 a4 a5 a6 a7 a8 a9 a10 a11
  have ha1 : Mem Q a1 := by
    subst a1
    with_reducible refine State.settleSent_keeps W _ ?_
    with_reducible refine State.fixDue_keeps _ _ ?_
    with_reducible exact hs
  try clear_value a1
  have ha2 : Mem Q a2 := by
    subst a2
    with_reducible refine State.fillSlots_keeps W _ _ _ ?_
    with_reducible refine State.advanceTo_keeps _ _ ?_
    with_reducible exact ha1
  try clear_value a2
  have ha3 : Mem Q a3 := by
    subst a3
    with_reducible refine keep_ite ?_ ?_
    · with_reducible refine State.closeDown_keeps _ _ ?_
      with_reducible exact ha2
    · with_reducible exact ha2
  try clear_value a3
  have ha4 : Mem Q a4 := by
    subst a4
    with_reducible refine State.nextCycle_keeps _ _ ?_
    with_reducible exact ha3
  try clear_value a4
  try clear_value a5
  have ha6 : Mem Q a6 := by
    subst a6
    with_reducible refine State.setPort_keeps _ _ _ ?_
    with_reducible exact ha4
  try clear_value a6
  have ha7 : Mem Q a7 := by
    subst a7
    with_reducible refine keep_ite ?_ ?_
    · with_reducible refine State.wr_keeps _ _ _ ?_
      with_reducible exact ha6
    · with_reducible exact ha6
  try clear_value a7
  have ha8 : Mem Q a8 := by
    subst a8
    with_reducible refine State.pumpOuts_keeps _ ?_
    with_reducible exact ha7
  try clear_value a8
  have ha9 : Mem Q a9 := by
    subst a9
    with_reducible refine keep_ite ?_ ?_
    · with_reducible refine State.epochTick_keeps _ ?_
      with_reducible exact ha8
    · with_reducible exact ha8
  try clear_value a9
  have ha10 : Mem Q a10 := by
    subst a10
    with_reducible refine keep_ite ?_ ?_
    · with_reducible refine State.emit_keeps _ _ ?_
      with_reducible exact ha9
    · with_reducible exact ha9
  try clear_value a10
  try clear_value a11
  with_reducible refine keep_ite ?_ ?_
  · with_reducible refine State.emit_keeps _ _ ?_
    with_reducible refine State.sendMarker_keeps _ _ ?_
    with_reducible exact ha10
  · with_reducible refine State.sendControl_keeps _ _ ?_
    with_reducible refine State.setPort_keeps _ _ _ ?_
    with_reducible exact ha10

theorem markerReceive_keeps (W : WritesLm Q) (k : Nat) (b : Bytes) (rx : List (List Block)) (s : State) (hs : Mem Q s) : Mem Q (markerReceive k b rx s) := by
  unfold markerReceive
  extract_lets -merge +onlyGivenNames a1
  have ha1 : Mem Q a1 := by
    subst a1
    with_reducible refine State.relayMarker_keeps _ _ _ ?_
    with_reducible refine State.takeCycle_keeps _ _ _ ?_
    with_reducible exact hs
  try clear_value a1
  with_reducible refine keep_ite ?_ ?_
  · with_reducible exact hs
  · with_reducible refine keep_ite ?_ ?_
    · with_reducible refine State.missMarker_keeps _ _ ?_
      with_reducible exact ha1
    · with_reducible refine keep_ite ?_ ?_
      · with_reducible refine State.headMarker_keeps W _ _ ?_
        with_reducible exact ha1
      · with_reducible refine State.goodMarker_keeps _ _ _ ?_
        with_reducible exact ha1

theorem execMarkerReceive_keeps (W : WritesLm Q) (port : Nat) (slot : Bytes) (rx : List (List Block)) (s : State) (hs : Mem Q s) : OutMem Q (execMarkerReceive port slot rx s) := by
  unfold execMarkerReceive
  with_reducible refine onLive_keeps _ _ ?_ ?_
  · with_reducible exact hs
  · intro x1 h1
    with_reducible refine onPort_keeps _ _ _ ?_ ?_
    · intro x2 h2
      with_reducible refine markerReceive_keeps W _ _ _ _ ?_
      with_reducible exact h2
    · with_reducible exact h1

theorem execTrailCycleStart_keeps (W : WritesLm Q) (port : Nat) (s : State) (hs : Mem Q s) : OutMem Q (execTrailCycleStart port s) := by
  unfold execTrailCycleStart
  with_reducible refine onLive_keeps _ _ ?_ ?_
  · with_reducible exact hs
  · intro x1 h1
    with_reducible refine onPort_keeps _ _ _ ?_ ?_
    · intro x2 h2
      with_reducible refine keep_ite ?_ ?_
      · with_reducible refine State.headCycle_keeps W _ _ ?_
        with_reducible exact h2
      · with_reducible refine State.tileCycle_keeps _ _ ?_
        with_reducible exact h2
    · with_reducible exact h1

theorem State.arbLevel_keeps (s : State) (v : Nat) (hs : Mem Q s) : Mem Q (State.arbLevel s v) := by
  unfold State.arbLevel
  with_reducible refine State.advance_keeps _ _ ?_
  with_reducible refine State.wr_keeps _ _ _ ?_
  with_reducible exact hs

theorem State.showHealth_keeps (s : State) (hs : Mem Q s) : Mem Q (State.showHealth s) := by
  unfold State.showHealth
  with_reducible refine State.wr_keeps _ _ _ ?_
  with_reducible refine State.wr_keeps _ _ _ ?_
  with_reducible exact hs

theorem State.actQuiet_keeps (s : State) (hs : Mem Q s) : Mem Q (State.actQuiet s) := by
  unfold State.actQuiet
  extract_lets -merge +onlyGivenNames a1 a2
  try clear_value a1
  have ha2 : Mem Q a2 := by
    subst a2
    unfold Mem; dsimp only; refine mem_in ?_
    with_reducible exact hs
  try clear_value a2
  split <;> first
    | (with_reducible refine State.advanceTo_keeps _ _ ?_
       with_reducible exact hs)
    | (with_reducible refine State.advance_keeps _ _ ?_
       with_reducible refine State.wr_keeps _ _ _ ?_
       with_reducible exact ha2)

theorem State.resendBroadcasts_keeps (s : State) (hs : Mem Q s) : Mem Q (State.resendBroadcasts s) := by
  unfold State.resendBroadcasts
  extract_lets -merge +onlyGivenNames a1 a2 a3
  try clear_value a1
  try clear_value a2
  have ha3 : Mem Q a3 := by
    subst a3
    unfold Mem; dsimp only; refine mem_in ?_
    with_reducible exact hs
  try clear_value a3
  refine keep_foldl ?_ ?_
  · with_reducible exact ha3
  · intro x1 x2 h1
    extract_lets -merge +onlyGivenNames a4 a5 a6 a7 a8
    try clear_value a4
    try clear_value a5
    have ha6 : Mem Q a6 := by
      subst a6
      refine keep_foldl ?_ ?_
      · with_reducible exact h1
      · intro x3 x4 h2
        extract_lets -merge +onlyGivenNames a9
        try clear_value a9
        with_reducible refine State.setPort_keeps _ _ _ ?_
        with_reducible exact h2
    try clear_value a6
    try clear_value a7
    have ha8 : Mem Q a8 := by
      subst a8
      unfold Mem; dsimp only; refine mem_in ?_
      with_reducible exact ha6
    try clear_value a8
    split <;> first
      | (unfold Mem; dsimp only; refine mem_in ?_
         with_reducible exact h1)
      | (with_reducible refine State.broadcast_keeps _ _ _ _ ?_
         with_reducible exact ha8)

theorem overlapTimeout_keeps (s : State) (hs : Mem Q s) : Mem Q (overlapTimeout s) := by
  unfold overlapTimeout
  split <;> first
    | (with_reducible exact hs)
    | (extract_lets -merge +onlyGivenNames a1 a2
       have ha1 : Mem Q a1 := by
         subst a1
         with_reducible refine State.wr_keeps _ _ _ ?_
         with_reducible refine State.advanceTo_keeps _ _ ?_
         with_reducible exact hs
       try clear_value a1
       try clear_value a2
       unfold Mem; dsimp only; refine mem_in ?_
       with_reducible exact ha1)

theorem State.copyPeer_keeps (s : State) (f : Bytes) (hs : Mem Q s) : Mem Q (State.copyPeer s f) := by
  unfold State.copyPeer
  extract_lets -merge +onlyGivenNames a1 a2 a3 a4 a5 a6 a7 a8 a9 a10 a11 a12 a13
  try clear_value a1
  try clear_value a2
  try clear_value a3
  try clear_value a4
  try clear_value a5
  try clear_value a6
  have ha7 : Mem Q a7 := by
    subst a7
    with_reducible refine keep_ite ?_ ?_
    · with_reducible refine keep_ite ?_ ?_
      · with_reducible exact hs
      · unfold Mem; dsimp only; refine mem_in ?_
        with_reducible exact hs
    · with_reducible exact hs
  try clear_value a7
  have ha8 : Mem Q a8 := by
    subst a8
    with_reducible refine State.wr_keeps _ _ _ ?_
    with_reducible refine State.wr_keeps _ _ _ ?_
    with_reducible exact ha7
  try clear_value a8
  try clear_value a9
  have ha10 : Mem Q a10 := by
    subst a10
    unfold Mem; dsimp only; refine mem_in ?_
    with_reducible exact ha8
  try clear_value a10
  try clear_value a11
  try clear_value a12
  try clear_value a13
  with_reducible refine keep_ite ?_ ?_
  · with_reducible exact ha10
  · with_reducible refine State.setPort_keeps _ _ _ ?_
    with_reducible exact ha10

theorem execOverlapTimeout_keeps (s : State) (hs : Mem Q s) : OutMem Q (execOverlapTimeout s) := by
  unfold execOverlapTimeout
  with_reducible refine onLive_keeps _ _ ?_ ?_
  · with_reducible exact hs
  · intro x1 h1
    with_reducible refine overlapTimeout_keeps _ ?_
    with_reducible exact h1

theorem State.resendLinks_keeps (s : State) (hs : Mem Q s) : Mem Q (State.resendLinks s) := by
  unfold State.resendLinks
  refine keep_foldl ?_ ?_
  · with_reducible exact hs
  · intro x1 x2 h1
    refine keep_foldl ?_ ?_
    · with_reducible exact h1
    · intro x3 x4 h2
      with_reducible refine State.queueUni_keeps _ _ _ ?_
      with_reducible exact h2

theorem execResign_keeps (s : State) (hs : Mem Q s) : OutMem Q (execResign s) := by
  unfold execResign
  with_reducible refine onLive_keeps _ _ ?_ ?_
  · with_reducible exact hs
  · intro x1 h1
    with_reducible refine keep_ite ?_ ?_
    · with_reducible refine State.resign_keeps _ ?_
      with_reducible exact h1
    · with_reducible exact h1

theorem arbDeselect_keeps (s : State) (hs : Mem Q s) : Mem Q (arbDeselect s) := by
  unfold arbDeselect
  extract_lets -merge +onlyGivenNames a1
  have ha1 : Mem Q a1 := by
    subst a1
    with_reducible refine State.arbLevel_keeps _ _ ?_
    with_reducible exact hs
  try clear_value a1
  with_reducible refine keep_ite ?_ ?_
  · with_reducible exact hs
  · with_reducible refine keep_ite ?_ ?_
    · with_reducible refine State.resign_keeps _ ?_
      with_reducible exact ha1
    · with_reducible exact ha1

theorem healthUpdate_keeps (s : State) (hs : Mem Q s) : Mem Q (healthUpdate s) := by
  unfold healthUpdate
  extract_lets -merge +onlyGivenNames a1 a2 a3 a4 a5 a6 a7 a8
  have ha1 : Mem Q a1 := by
    subst a1
    with_reducible refine State.advanceTo_keeps _ _ ?_
    with_reducible exact hs
  try clear_value a1
  try clear_value a2
  have ha3 : Mem Q a3 := by
    subst a3
    unfold Mem; dsimp only; refine mem_in ?_
    with_reducible exact ha1
  try clear_value a3
  try clear_value a4
  have ha5 : Mem Q a5 := by
    subst a5
    unfold Mem; dsimp only; refine mem_in ?_
    with_reducible exact ha3
  try clear_value a5
  have ha6 : Mem Q a6 := by
    subst a6
    with_reducible refine State.showHealth_keeps _ ?_
    with_reducible exact ha5
  try clear_value a6
  try clear_value a7
  have ha8 : Mem Q a8 := by
    subst a8
    unfold Mem; dsimp only; refine mem_in ?_
    with_reducible exact ha6
  try clear_value a8
  with_reducible refine keep_ite ?_ ?_
  · with_reducible exact hs
  · with_reducible refine keep_ite ?_ ?_
    · with_reducible refine State.resignNative_keeps _ ?_
      with_reducible exact ha8
    · with_reducible exact ha8

theorem execArbDeselect_keeps (s : State) (hs : Mem Q s) : OutMem Q (execArbDeselect s) := by
  unfold execArbDeselect
  with_reducible refine onLive_keeps _ _ ?_ ?_
  · with_reducible exact hs
  · intro x1 h1
    with_reducible refine arbDeselect_keeps _ ?_
    with_reducible exact h1

theorem execHealthUpdate_keeps (s : State) (hs : Mem Q s) : OutMem Q (execHealthUpdate s) := by
  unfold execHealthUpdate
  with_reducible refine onLive_keeps _ _ ?_ ?_
  · with_reducible exact hs
  · intro x1 h1
    with_reducible refine healthUpdate_keeps _ ?_
    with_reducible exact h1

theorem State.compareDigest_keeps (s : State) (f : Bytes) (hs : Mem Q s) : Mem Q (State.compareDigest s f) := by
  unfold State.compareDigest
  split <;> first
    | (with_reducible refine keep_ite ?_ ?_
       · with_reducible exact hs
       · with_reducible refine State.detect_keeps _ _ ?_
         with_reducible refine State.wr_keeps _ _ _ ?_
         with_reducible exact hs)
    | (with_reducible exact hs)

theorem fbActInRise_keeps (s : State) (hs : Mem Q s) : Mem Q (fbActInRise s) := by
  unfold fbActInRise
  extract_lets -merge +onlyGivenNames a1 a2 a3 a4 a5 a6 a7
  try clear_value a1
  have ha2 : Mem Q a2 := by
    subst a2
    with_reducible refine State.wr_keeps _ _ _ ?_
    with_reducible refine State.wr_keeps _ _ _ ?_
    with_reducible exact hs
  try clear_value a2
  have ha3 : Mem Q a3 := by
    subst a3
    with_reducible refine State.driveFbclk_keeps _ ?_
    with_reducible refine State.noteHiz_keeps _ ?_
    with_reducible exact ha2
  try clear_value a3
  try clear_value a4
  have ha5 : Mem Q a5 := by
    subst a5
    unfold Mem; dsimp only; refine mem_in ?_
    with_reducible exact ha3
  try clear_value a5
  have ha6 : Mem Q a6 := by
    subst a6
    with_reducible refine State.wr_keeps _ _ _ ?_
    with_reducible refine State.wr_keeps _ _ _ ?_
    with_reducible exact ha5
  try clear_value a6
  try clear_value a7
  with_reducible refine keep_ite ?_ ?_
  · with_reducible exact hs
  · with_reducible refine keep_ite ?_ ?_
    · with_reducible refine State.detect_keeps _ _ ?_
      unfold Mem; dsimp only; refine mem_in ?_
      with_reducible exact ha6
    · with_reducible exact ha5

theorem serLost_keeps (s : State) (hs : Mem Q s) : Mem Q (serLost s) := by
  unfold serLost
  split <;> first
    | (with_reducible exact hs)
    | (extract_lets -merge +onlyGivenNames a1 a2
       have ha1 : Mem Q a1 := by
         subst a1
         with_reducible refine State.wr_keeps _ _ _ ?_
         with_reducible refine State.advanceTo_keeps _ _ ?_
         with_reducible exact hs
       try clear_value a1
       try clear_value a2
       with_reducible refine keep_ite ?_ ?_
       · with_reducible exact hs
       · with_reducible refine State.detect_keeps _ _ ?_
         unfold Mem; dsimp only; refine mem_in ?_
         with_reducible exact ha1)

theorem execFbActInRise_keeps (s : State) (hs : Mem Q s) : OutMem Q (execFbActInRise s) := by
  unfold execFbActInRise
  with_reducible refine onLive_keeps _ _ ?_ ?_
  · with_reducible exact hs
  · intro x1 h1
    with_reducible refine fbActInRise_keeps _ ?_
    with_reducible exact h1

theorem patrolTest_keeps (equal : Bool) (uncorr : Bool) (s : State) (hs : Mem Q s) : Mem Q (patrolTest equal uncorr s) := by
  unfold patrolTest
  extract_lets -merge +onlyGivenNames a1 a2 a3
  have ha1 : Mem Q a1 := by
    subst a1
    with_reducible refine keep_ite ?_ ?_
    · with_reducible refine State.lmUncorr_keeps _ ?_
      with_reducible exact hs
    · with_reducible exact hs
  try clear_value a1
  try clear_value a2
  have ha3 : Mem Q a3 := by
    subst a3
    unfold Mem; dsimp only; refine mem_in ?_
    with_reducible exact ha1
  try clear_value a3
  with_reducible refine keep_ite ?_ ?_
  · with_reducible exact hs
  · with_reducible refine keep_ite ?_ ?_
    · with_reducible exact ha1
    · with_reducible refine State.detect_keeps _ _ ?_
      with_reducible refine State.inc_keeps _ _ ?_
      with_reducible exact ha3

theorem State.judgeStuck_keeps (s : State) (claimBit : Bool) (hs : Mem Q s) : Mem Q (State.judgeStuck s claimBit) := by
  unfold State.judgeStuck
  extract_lets -merge +onlyGivenNames a1 a2
  try clear_value a1
  try clear_value a2
  with_reducible refine keep_ite ?_ ?_
  · split <;> first
      | (unfold Mem; dsimp only; refine mem_in ?_
         with_reducible exact hs)
      | (with_reducible refine State.detectIf_keeps _ _ _ ?_
         with_reducible exact hs)
  · unfold Mem; dsimp only; refine mem_in ?_
    with_reducible exact hs

theorem execSerLost_keeps (s : State) (hs : Mem Q s) : OutMem Q (execSerLost s) := by
  unfold execSerLost
  with_reducible refine onLive_keeps _ _ ?_ ?_
  · with_reducible exact hs
  · intro x1 h1
    with_reducible refine serLost_keeps _ ?_
    with_reducible exact h1

theorem healthReport_keeps (ok : Bool) (s : State) (hs : Mem Q s) : Mem Q (healthReport ok s) := by
  unfold healthReport
  extract_lets -merge +onlyGivenNames a1 a2 a3 a4
  try clear_value a1
  have ha2 : Mem Q a2 := by
    subst a2
    with_reducible refine State.wr_keeps _ _ _ ?_
    with_reducible exact hs
  try clear_value a2
  try clear_value a3
  have ha4 : Mem Q a4 := by
    subst a4
    unfold Mem; dsimp only; refine mem_in ?_
    with_reducible exact ha2
  try clear_value a4
  with_reducible refine keep_ite ?_ ?_
  · with_reducible exact hs
  · split <;> first
      | (with_reducible refine keep_ite ?_ ?_
         · with_reducible refine State.postEntry_keeps _ _ _ _ ?_
           with_reducible exact ha4
         · with_reducible refine State.haltCq_keeps _ _ _ ?_
           with_reducible exact ha4)
      | (with_reducible exact ha4)

theorem execHealthReport_keeps (ok : Bool) (s : State) (hs : Mem Q s) : OutMem Q (execHealthReport ok s) := by
  unfold execHealthReport
  with_reducible refine onLive_keeps _ _ ?_ ?_
  · with_reducible exact hs
  · intro x1 h1
    with_reducible refine healthReport_keeps _ _ ?_
    with_reducible exact h1

theorem execPatrolTest_keeps (netsEqual : Bool) (uncorr : Bool) (s : State) (hs : Mem Q s) : OutMem Q (execPatrolTest netsEqual uncorr s) := by
  unfold execPatrolTest
  with_reducible refine onLive_keeps _ _ ?_ ?_
  · with_reducible exact hs
  · intro x1 h1
    with_reducible refine patrolTest_keeps _ _ _ ?_
    with_reducible exact h1

theorem State.takeClaim_keeps (s : State) (hs : Mem Q s) : Mem Q (State.takeClaim s) := by
  unfold State.takeClaim
  extract_lets -merge +onlyGivenNames a1 a2 a3 a4 a5 a6 a7 a8 a9
  try clear_value a1
  have ha2 : Mem Q a2 := by
    subst a2
    with_reducible refine State.wr_keeps _ _ _ ?_
    with_reducible refine State.wr_keeps _ _ _ ?_
    with_reducible refine State.wr_keeps _ _ _ ?_
    with_reducible exact hs
  try clear_value a2
  have ha3 : Mem Q a3 := by
    subst a3
    with_reducible refine State.detect_keeps _ _ ?_
    with_reducible refine State.wr_keeps _ _ _ ?_
    with_reducible refine State.inc_keeps _ _ ?_
    with_reducible exact ha2
  try clear_value a3
  try clear_value a5
  have ha6 : Mem Q a6 := by
    subst a6
    unfold Mem; dsimp only; refine mem_in ?_
    with_reducible exact ha3
  try clear_value a6
  have ha7 : Mem Q a7 := by
    subst a7
    with_reducible refine State.driveFbclk_keeps _ ?_
    with_reducible exact ha6
  try clear_value a7
  have ha8 : Mem Q a8 := by
    subst a8
    with_reducible refine keep_ite ?_ ?_
    · with_reducible refine State.rootChanged_keeps _ ?_
      with_reducible refine State.holdover_keeps _ ?_
      with_reducible exact ha7
    · with_reducible exact ha7
  try clear_value a8
  have ha9 : Mem Q a9 := by
    subst a9
    split <;> first
      | (with_reducible refine keep_ite ?_ ?_
         · with_reducible refine State.setCommit_keeps _ _ ?_
           with_reducible exact ha8
         · with_reducible exact ha8)
      | (with_reducible exact ha8)
  try clear_value a9
  with_reducible refine keep_ite ?_ ?_
  · with_reducible refine State.resendBroadcasts_keeps _ ?_
    with_reducible refine State.resendLinks_keeps _ ?_
    with_reducible exact ha9
  · with_reducible exact ha9

theorem claim_keeps (s : State) (hs : Mem Q s) : Mem Q (claim s) := by
  unfold claim
  with_reducible refine keep_ite ?_ ?_
  · with_reducible exact hs
  · with_reducible refine keep_ite ?_ ?_
    · with_reducible refine State.driveFbclk_keeps _ ?_
      with_reducible refine State.wr_keeps _ _ _ ?_
      with_reducible refine State.actQuiet_keeps _ ?_
      with_reducible exact hs
    · with_reducible refine keep_ite ?_ ?_
      · with_reducible refine State.takeClaim_keeps _ ?_
        with_reducible refine State.actQuiet_keeps _ ?_
        with_reducible exact hs
      · with_reducible exact hs

theorem execClaim_keeps (s : State) (hs : Mem Q s) : OutMem Q (execClaim s) := by
  unfold execClaim
  with_reducible refine onLive_keeps _ _ ?_ ?_
  · with_reducible exact hs
  · intro x1 h1
    with_reducible refine claim_keeps _ ?_
    with_reducible exact h1

theorem takeoverDecision_keeps (W : WritesLm Q) (s : State) (hs : Mem Q s) : Mem Q (takeoverDecision s) := by
  unfold takeoverDecision
  split <;> first
    | (with_reducible exact hs)
    | (extract_lets -merge +onlyGivenNames a1 a2 a3
       have ha1 : Mem Q a1 := by
         subst a1
         with_reducible refine State.advanceTo_keeps _ _ ?_
         with_reducible exact hs
       try clear_value a1
       try clear_value a2
       have ha3 : Mem Q a3 := by
         subst a3
         unfold Mem; dsimp only; refine mem_in ?_
         with_reducible exact ha1
       try clear_value a3
       with_reducible refine keep_ite ?_ ?_
       · with_reducible exact hs
       · split <;> first
           | (with_reducible refine keep_ite ?_ ?_
              · with_reducible refine State.abortCommit_keeps W _ _ _ _ ?_
                with_reducible exact ha3
              · with_reducible exact ha3)
           | (with_reducible exact ha3))

theorem arbSelect_keeps (s : State) (hs : Mem Q s) : Mem Q (arbSelect s) := by
  unfold arbSelect
  extract_lets -merge +onlyGivenNames a1
  have ha1 : Mem Q a1 := by
    subst a1
    with_reducible refine State.arbLevel_keeps _ _ ?_
    with_reducible exact hs
  try clear_value a1
  with_reducible refine keep_ite ?_ ?_
  · with_reducible exact hs
  · with_reducible refine keep_ite ?_ ?_
    · with_reducible refine State.takeClaim_keeps _ ?_
      with_reducible refine State.actQuiet_keeps _ ?_
      with_reducible exact ha1
    · with_reducible exact ha1

theorem State.peerClaims_keeps (W : WritesLm Q) (s : State) (hs : Mem Q s) : Mem Q (State.peerClaims s) := by
  unfold State.peerClaims
  extract_lets -merge +onlyGivenNames a1 a2 a3 a4
  have ha1 : Mem Q a1 := by
    subst a1
    with_reducible refine State.wr_keeps _ _ _ ?_
    with_reducible exact hs
  try clear_value a1
  try clear_value a2
  have ha3 : Mem Q a3 := by
    subst a3
    with_reducible refine keep_ite ?_ ?_
    · unfold Mem; dsimp only; refine mem_in ?_
      with_reducible exact ha1
    · with_reducible exact hs
  try clear_value a3
  try clear_value a4
  split <;> first
    | (with_reducible refine State.finish_keeps W _ _ _ _ _ ?_
       unfold Mem; dsimp only; refine mem_in ?_
       with_reducible exact ha3)
    | (with_reducible exact ha3)

theorem execTakeoverDecision_keeps (W : WritesLm Q) (s : State) (hs : Mem Q s) : OutMem Q (execTakeoverDecision s) := by
  unfold execTakeoverDecision
  with_reducible refine onLive_keeps _ _ ?_ ?_
  · with_reducible exact hs
  · intro x1 h1
    with_reducible refine takeoverDecision_keeps W _ ?_
    with_reducible exact h1

theorem execArbSelect_keeps (s : State) (hs : Mem Q s) : OutMem Q (execArbSelect s) := by
  unfold execArbSelect
  with_reducible refine onLive_keeps _ _ ?_ ?_
  · with_reducible exact hs
  · intro x1 h1
    with_reducible refine arbSelect_keeps _ ?_
    with_reducible exact h1

theorem handover_keeps (W : WritesLm Q) (d : Desc) (s : State) (hs : Mem Q s) : Mem Q (handover d s) := by
  unfold handover
  extract_lets -merge +onlyGivenNames a1 a2
  have ha1 : Mem Q a1 := by
    subst a1
    with_reducible refine State.starts_keeps _ _ ?_
    with_reducible exact hs
  try clear_value a1
  try clear_value a2
  with_reducible refine keep_ite ?_ ?_
  · with_reducible refine State.finish_keeps W _ _ _ _ _ ?_
    with_reducible exact hs
  · with_reducible refine keep_ite ?_ ?_
    · with_reducible refine State.finish_keeps W _ _ _ _ _ ?_
      with_reducible exact hs
    · with_reducible refine keep_ite ?_ ?_
      · with_reducible refine State.finish_keeps W _ _ _ _ _ ?_
        with_reducible exact hs
      · with_reducible refine keep_ite ?_ ?_
        · with_reducible refine State.finish_keeps W _ _ _ _ _ ?_
          with_reducible exact hs
        · with_reducible refine keep_ite ?_ ?_
          · with_reducible refine State.finish_keeps W _ _ _ _ _ ?_
            with_reducible exact hs
          · with_reducible refine State.resign_keeps _ ?_
            unfold Mem; dsimp only; refine mem_in ?_
            with_reducible exact ha1

theorem pairStatus_keeps (W : WritesLm Q) (d : Desc) (s : State) (hs : Mem Q s) : Mem Q (pairStatus d s) := by
  unfold pairStatus
  with_reducible refine keep_ite ?_ ?_
  · with_reducible refine State.finish_keeps W _ _ _ _ _ ?_
    with_reducible exact hs
  · with_reducible refine keep_ite ?_ ?_
    · with_reducible refine State.finish_keeps W _ _ _ _ _ ?_
      with_reducible exact hs
    · with_reducible refine State.finish_keeps W _ _ _ _ _ ?_
      with_reducible exact hs

theorem digestReset_keeps (W : WritesLm Q) (d : Desc) (s : State) (hs : Mem Q s) : Mem Q (digestReset d s) := by
  unfold digestReset
  extract_lets -merge +onlyGivenNames a1 a2
  have ha1 : Mem Q a1 := by
    subst a1
    with_reducible refine State.wr_keeps _ _ _ ?_
    with_reducible refine State.wr_keeps _ _ _ ?_
    with_reducible exact hs
  try clear_value a1
  try clear_value a2
  with_reducible refine keep_ite ?_ ?_
  · with_reducible refine State.finish_keeps W _ _ _ _ _ ?_
    with_reducible exact hs
  · with_reducible refine keep_ite ?_ ?_
    · with_reducible refine State.finish_keeps W _ _ _ _ _ ?_
      with_reducible exact hs
    · with_reducible refine keep_ite ?_ ?_
      · with_reducible refine State.finish_keeps W _ _ _ _ _ ?_
        with_reducible exact hs
      · with_reducible refine State.finish_keeps W _ _ _ _ _ ?_
        unfold Mem; dsimp only; refine mem_in ?_
        with_reducible exact ha1

theorem execDigestReset_keeps (W : WritesLm Q) (d : Desc) (s : State) (hs : Mem Q s) : OutMem Q (execDigestReset d s) := by
  unfold execDigestReset
  with_reducible refine onOp_keeps W _ _ _ _ _ ?_ ?_
  · with_reducible exact hs
  · intro x1 h1
    with_reducible refine digestReset_keeps W _ _ ?_
    with_reducible exact h1

theorem execHandover_keeps (W : WritesLm Q) (d : Desc) (s : State) (hs : Mem Q s) : OutMem Q (execHandover d s) := by
  unfold execHandover
  with_reducible refine onOp_keeps W _ _ _ _ _ ?_ ?_
  · with_reducible exact hs
  · intro x1 h1
    with_reducible refine handover_keeps W _ _ ?_
    with_reducible exact h1

theorem execPairStatus_keeps (W : WritesLm Q) (d : Desc) (s : State) (hs : Mem Q s) : OutMem Q (execPairStatus d s) := by
  unfold execPairStatus
  with_reducible refine onOp_keeps W _ _ _ _ _ ?_ ?_
  · with_reducible exact hs
  · intro x1 h1
    with_reducible refine pairStatus_keeps W _ _ ?_
    with_reducible exact h1

theorem fbSerFrame_keeps (W : WritesLm Q) (f : Bytes) (s : State) (hs : Mem Q s) : Mem Q (fbSerFrame f s) := by
  unfold fbSerFrame
  extract_lets -merge +onlyGivenNames a1 a2 a3 a4 a5 a6 a7 a8 a9 a10 a11 a12 a13 a14
  have ha1 : Mem Q a1 := by
    subst a1
    with_reducible refine State.inc_keeps _ _ ?_
    with_reducible exact hs
  try clear_value a1
  try clear_value a2
  try clear_value a3
  try clear_value a4
  have ha5 : Mem Q a5 := by
    subst a5
    unfold Mem; dsimp only; refine mem_in ?_
    with_reducible exact hs
  try clear_value a5
  have ha6 : Mem Q a6 := by
    subst a6
    with_reducible refine keep_ite ?_ ?_
    · with_reducible refine State.wr_keeps _ _ _ ?_
      with_reducible exact ha5
    · with_reducible exact ha5
  try clear_value a6
  have ha7 : Mem Q a7 := by
    subst a7
    with_reducible refine State.wr_keeps _ _ _ ?_
    with_reducible refine State.wr_keeps _ _ _ ?_
    with_reducible exact ha6
  try clear_value a7
  have ha8 : Mem Q a8 := by
    subst a8
    with_reducible refine State.wr_keeps _ _ _ ?_
    with_reducible refine State.wr_keeps _ _ _ ?_
    with_reducible refine State.wr_keeps _ _ _ ?_
    with_reducible exact ha7
  try clear_value a8
  try clear_value a9
  have ha10 : Mem Q a10 := by
    subst a10
    unfold Mem; dsimp only; refine mem_in ?_
    with_reducible exact ha8
  try clear_value a10
  have ha11 : Mem Q a11 := by
    subst a11
    with_reducible refine State.judgeStuck_keeps _ _ ?_
    with_reducible refine State.compareDigest_keeps _ _ ?_
    with_reducible exact ha10
  try clear_value a11
  have ha12 : Mem Q a12 := by
    subst a12
    with_reducible refine keep_ite ?_ ?_
    · with_reducible refine State.wr_keeps _ _ _ ?_
      with_reducible exact ha11
    · with_reducible exact ha11
  try clear_value a12
  have ha13 : Mem Q a13 := by
    subst a13
    with_reducible refine keep_ite ?_ ?_
    · with_reducible refine State.peerClaims_keeps W _ ?_
      with_reducible exact ha12
    · with_reducible exact ha12
  try clear_value a13
  have ha14 : Mem Q a14 := by
    subst a14
    with_reducible refine keep_ite ?_ ?_
    · with_reducible exact ha13
    · with_reducible refine State.copyPeer_keeps _ _ ?_
      with_reducible exact ha13
  try clear_value a14
  with_reducible refine keep_ite ?_ ?_
  · with_reducible exact hs
  · with_reducible refine keep_ite ?_ ?_
    · with_reducible refine State.detect_keeps _ _ ?_
      unfold Mem; dsimp only; refine mem_in ?_
      with_reducible exact ha1
    · with_reducible refine keep_ite ?_ ?_
      · with_reducible refine keep_ite ?_ ?_
        · with_reducible refine State.copyField_keeps W _ _ _ _ ?_
          with_reducible exact ha14
        · with_reducible exact ha14
      · with_reducible exact ha13

theorem execFbSerFrame_keeps (W : WritesLm Q) (frame : Bytes) (s : State) (hs : Mem Q s) : OutMem Q (execFbSerFrame frame s) := by
  unfold execFbSerFrame
  with_reducible refine onLive_keeps _ _ ?_ ?_
  · with_reducible exact hs
  · intro x1 h1
    with_reducible refine fbSerFrame_keeps W _ _ ?_
    with_reducible exact h1

end Sys2Proof.Machine
end

