-- ==== Sys2Proof/Laws/KeepsSeed.lean ====
section
/-! SUPPORT. The operations and meanings of Seedbank, Thermal keep any property of the stores and the straps that the writes they
make keep (see Laws/Memory.lean). -/

namespace Sys2Proof.Machine

variable {Q : Store → Store → StrapBalls → Prop}

theorem State.holdWrite_keeps (s : State) (op : Nat) (d : Desc) (bs : Bytes) (hs : Mem Q s) : Mem Q (State.holdWrite s op d bs) := by
  unfold State.holdWrite
  extract_lets -merge +onlyGivenNames a1 a2
  have ha1 : Mem Q a1 := by
    subst a1
    with_reducible refine State.starts_keeps _ _ ?_
    with_reducible exact hs
  try clear_value a1
  try clear_value a2
  unfold Mem; dsimp only; refine mem_in ?_
  with_reducible exact ha1

theorem State.showRecord_keeps (s : State) (r : BootRec) (hs : Mem Q s) : Mem Q (State.showRecord s r) := by
  unfold State.showRecord
  with_reducible refine State.wr_keeps _ _ _ ?_
  with_reducible refine State.wr_keeps _ _ _ ?_
  with_reducible refine State.wr_keeps _ _ _ ?_
  with_reducible exact hs

theorem State.writeRecord_keeps (B : WritesSdb Q) (s : State) (r : BootRec) (hs : Mem Q s) : Mem Q (State.writeRecord s r) := by
  unfold State.writeRecord
  extract_lets a1 a2
  refine State.showRecord_keeps _ _ ?_
  exact B.1 _ _ _ _ _ hs

theorem State.showVer_keeps (s : State) (k : Nat) (hs : Mem Q s) : Mem Q (State.showVer s k) := by
  unfold State.showVer
  with_reducible refine State.wr_keeps _ _ _ ?_
  with_reducible exact hs

theorem State.setSlot_keeps (s : State) (k : Nat) (v : Nat) (hs : Mem Q s) : Mem Q (State.setSlot s k v) := by
  unfold State.setSlot
  extract_lets -merge +onlyGivenNames a1 a2
  try clear_value a1
  try clear_value a2
  with_reducible refine State.showVer_keeps _ _ ?_
  unfold Mem; dsimp only; refine mem_in ?_
  with_reducible exact hs

theorem State.boots_keeps (s : State) (k : Nat) (trial : Bool) (hs : Mem Q s) : Mem Q (State.boots s k trial) := by
  unfold State.boots
  extract_lets -merge +onlyGivenNames a1 a2 a3 a4
  try clear_value a1
  have ha2 : Mem Q a2 := by
    subst a2
    unfold Mem; dsimp only; refine mem_in ?_
    with_reducible exact hs
  try clear_value a2
  try clear_value a3
  have ha4 : Mem Q a4 := by
    subst a4
    with_reducible refine keep_ite ?_ ?_
    · with_reducible refine State.setSlot_keeps _ _ _ ?_
      with_reducible exact ha2
    · with_reducible refine State.setSlot_keeps _ _ _ ?_
      with_reducible refine keep_ite ?_ ?_
      · with_reducible refine State.setSlot_keeps _ _ _ ?_
        with_reducible exact ha2
      · with_reducible exact ha2
  try clear_value a4
  with_reducible refine State.wr_keeps _ _ _ ?_
  with_reducible exact ha4

theorem State.emptySlot_keeps (B : WritesSdb Q) (s : State) (k : Nat) (hs : Mem Q s) : Mem Q (State.emptySlot s k) := by
  unfold State.emptySlot
  refine State.setSlot_keeps _ _ _ ?_
  exact B.2 _ _ _ _ hs

theorem State.coldEffect_keeps (s : State) (hs : Mem Q s) : Mem Q (State.coldEffect s) := by
  unfold State.coldEffect
  extract_lets -merge +onlyGivenNames a1 a2 a3 a4
  try clear_value a1
  try clear_value a2
  have ha3 : Mem Q a3 := by
    subst a3
    unfold Mem; dsimp only; refine mem_in ?_
    with_reducible exact hs
  try clear_value a3
  have ha4 : Mem Q a4 := by
    subst a4
    with_reducible refine State.showShadow_keeps _ ?_
    with_reducible refine State.showActive_keeps _ ?_
    with_reducible refine State.noteHiz_keeps _ ?_
    with_reducible exact ha3
  try clear_value a4
  with_reducible refine keep_ite ?_ ?_
  · with_reducible refine State.audioStop_keeps _ ?_
    with_reducible refine frmStop_keeps _ ?_
    with_reducible exact ha4
  · with_reducible exact ha4

theorem seedbankScrub_keeps (offset : Nat) (read : EccRead) (s : State) (hs : Mem Q s) : Mem Q (seedbankScrub offset read s) := by
  unfold seedbankScrub
  extract_lets -merge +onlyGivenNames a1
  have ha1 : Mem Q a1 := by
    subst a1
    with_reducible refine State.countUncorr_keeps _ ?_
    with_reducible exact hs
  try clear_value a1
  with_reducible refine keep_ite ?_ ?_
  · with_reducible exact hs
  · split <;> first
      | (with_reducible exact hs)
      | (with_reducible refine State.countCorr_keeps _ ?_
         with_reducible exact hs)
      | (with_reducible refine State.countCorr_keeps _ ?_
         with_reducible exact hs)
      | (with_reducible refine keep_ite ?_ ?_
         · with_reducible refine State.detect_keeps _ _ ?_
           with_reducible refine State.setSlot_keeps _ _ _ ?_
           with_reducible exact ha1
         · with_reducible exact ha1)

theorem State.recover_keeps (s : State) (hs : Mem Q s) : Mem Q (State.recover s) := by
  unfold State.recover
  with_reducible refine State.detect_keeps _ _ ?_
  with_reducible refine State.wr_keeps _ _ _ ?_
  with_reducible exact hs

theorem State.raiseCounter_keeps (s : State) (sec : Nat) (hs : Mem Q s) : Mem Q (State.raiseCounter s sec) := by
  unfold State.raiseCounter
  extract_lets -merge +onlyGivenNames a1
  try clear_value a1
  with_reducible refine keep_ite ?_ ?_
  · with_reducible exact hs
  · with_reducible refine keep_ite ?_ ?_
    · with_reducible refine State.detect_keeps _ _ ?_
      with_reducible exact hs
    · unfold Mem; dsimp only; refine mem_in ?_
      with_reducible exact hs

theorem State.imageReject_keeps (s : State) (hs : Mem Q s) : Mem Q (State.imageReject s) := by
  unfold State.imageReject
  with_reducible refine State.detect_keeps _ _ ?_
  with_reducible exact hs

theorem State.writeBlock_keeps (B : WritesSdb Q) (s : State) (k : Nat) (b : Bytes) (hs : Mem Q s) :
    Mem Q (State.writeBlock s k b).2 := by
  unfold State.writeBlock
  extract_lets t put
  have hp : ∀ s, Mem Q s → Mem Q (put s) := fun s h => B.1 _ _ _ _ _ h
  clear_value put
  split
  · have he := State.emptySlot_keeps B s t hs
    split
    · exact State.imageReject_keeps _ he
    · exact State.setSlot_keeps _ _ _ (hp _ he)
  · split
    · exact hs
    · split
      · exact State.imageReject_keeps _ hs
      · split
        · exact State.imageReject_keeps _ (State.setSlot_keeps _ _ _ (hp _ hs))
        · exact State.setSlot_keeps _ _ _ (hp _ hs)

theorem State.bootTrail_keeps (B : WritesSdb Q) (s : State) (hs : Mem Q s) : Mem Q (State.bootTrail s) := by
  unfold State.bootTrail
  extract_lets -merge +onlyGivenNames a1 a2
  have ha1 : Mem Q a1 := by
    subst a1
    with_reducible refine State.writeRecord_keeps B _ _ ?_
    with_reducible exact hs
  try clear_value a1
  try clear_value a2
  with_reducible refine keep_ite ?_ ?_
  · split <;> first
      | (with_reducible refine State.imageReject_keeps _ ?_
         with_reducible refine State.setSlot_keeps _ _ _ ?_
         with_reducible exact hs)
      | (with_reducible refine State.setSlot_keeps _ _ _ ?_
         unfold Mem; dsimp only; refine mem_in ?_
         with_reducible exact ha1)
  · with_reducible exact hs

theorem execSeedbankScrub_keeps (offset : Nat) (read : EccRead) (s : State) (hs : Mem Q s) : OutMem Q (execSeedbankScrub offset read s) := by
  unfold execSeedbankScrub
  with_reducible refine onLive_keeps _ _ ?_ ?_
  · with_reducible exact hs
  · intro x1 h1
    with_reducible refine seedbankScrub_keeps _ _ _ ?_
    with_reducible exact h1

theorem State.stageBlocks_keeps (B : WritesSdb Q) (s : State) (b : Bcast) (hs : Mem Q s) : Mem Q (State.stageBlocks s b) := by
  unfold State.stageBlocks
  with_reducible refine keep_ite ?_ ?_
  · with_reducible exact hs
  · refine keep_foldl ?_ ?_
    · with_reducible exact hs
    · intro x1 x2 h1
      extract_lets -merge +onlyGivenNames a1 a2 a3
      have ha1 : Mem Q a1.2 := by
        subst a1
        with_reducible refine State.writeBlock_keeps B _ _ _ ?_
        with_reducible exact h1
      try clear_value a1
      have ha2 : Mem Q a2 := by
        subst a2
        with_reducible exact ha1
      try clear_value a2
      try clear_value a3
      split <;> first
        | (with_reducible exact h1)
        | (with_reducible refine keep_ite ?_ ?_
           · with_reducible exact h1
           · unfold Mem; dsimp only; refine mem_in ?_
             with_reducible exact ha2)

theorem State.writeBlocks_keeps (B : WritesSdb Q) (s : State) (bs : Bytes) (k n : Nat) (hs : Mem Q s) :
    Mem Q (State.writeBlocks s bs k n).2 := by
  induction n generalizing s bs k with
  | zero => exact hs
  | succ n ih =>
    unfold State.writeBlocks
    extract_lets r
    have hr : Mem Q r.2 := by subst r; exact State.writeBlock_keeps B _ _ _ hs
    clear_value r
    split
    · exact hr
    · exact ih _ _ _ hr

theorem State.stageSlot_keeps (W : WritesLm Q) (B : WritesSdb Q) (s : State) (b : Bcast) (bseq : Nat) (payload : Bytes) (hs : Mem Q s) : Mem Q (State.stageSlot s b bseq payload) := by
  unfold State.stageSlot
  extract_lets -merge +onlyGivenNames a1 a2 a3 a4 a5 a6
  try clear_value a1
  try clear_value a2
  have ha3 : Mem Q a3 := by
    subst a3
    with_reducible refine keep_ite ?_ ?_
    · with_reducible exact hs
    · unfold Mem; dsimp only; refine mem_in ?_
      with_reducible exact hs
  try clear_value a3
  try clear_value a4
  try clear_value a5
  have ha6 : Mem Q a6 := by
    subst a6
    with_reducible refine keep_ite ?_ ?_
    · with_reducible refine State.lmWrite_keeps W _ _ _ ?_
      with_reducible exact ha3
    · with_reducible exact ha3
  try clear_value a6
  with_reducible refine State.bootTrail_keeps B _ ?_
  with_reducible refine State.stageBlocks_keeps B _ _ ?_
  with_reducible exact ha6

theorem sdbQuery_keeps (W : WritesLm Q) (d : Desc) (s : State) (hs : Mem Q s) : Mem Q (sdbQuery d s) := by
  unfold sdbQuery
  with_reducible refine keep_ite ?_ ?_
  · with_reducible refine State.finish_keeps W _ _ _ _ _ ?_
    with_reducible exact hs
  · with_reducible refine State.finish_keeps W _ _ _ _ _ ?_
    with_reducible exact hs

theorem State.dropGoing_keeps (W : WritesLm Q) (s : State) (status : Nat) (hs : Mem Q s) : Mem Q (State.dropGoing s status) := by
  unfold State.dropGoing
  extract_lets -merge +onlyGivenNames a1
  try clear_value a1
  split <;> first
    | (with_reducible refine State.finish_keeps W _ _ _ _ _ ?_
       unfold Mem; dsimp only; refine mem_in ?_
       with_reducible exact hs)
    | (with_reducible exact hs)

theorem execSdbQuery_keeps (W : WritesLm Q) (d : Desc) (s : State) (hs : Mem Q s) : OutMem Q (execSdbQuery d s) := by
  unfold execSdbQuery
  with_reducible refine onOp_keeps W _ _ _ _ _ ?_ ?_
  · with_reducible exact hs
  · intro x1 h1
    with_reducible refine sdbQuery_keeps W _ _ ?_
    with_reducible exact h1

theorem migrationReport_keeps (W : WritesLm Q) (d : Desc) (ok : Bool) (s : State) (hs : Mem Q s) : Mem Q (migrationReport d ok s) := by
  unfold migrationReport
  extract_lets -merge +onlyGivenNames a1
  try clear_value a1
  with_reducible refine keep_ite ?_ ?_
  · with_reducible refine State.finish_keeps W _ _ _ _ _ ?_
    with_reducible exact hs
  · with_reducible refine keep_ite ?_ ?_
    · with_reducible refine State.finish_keeps W _ _ _ _ _ ?_
      with_reducible exact hs
    · with_reducible refine keep_ite ?_ ?_
      · with_reducible refine State.finish_keeps W _ _ _ _ _ ?_
        with_reducible exact hs
      · with_reducible refine State.finish_keeps W _ _ _ _ _ ?_
        with_reducible refine State.returnTo_keeps W _ _ _ _ ?_
        with_reducible exact hs

theorem State.trialUnbootable_keeps (W : WritesLm Q) (s : State) (k : Nat) (hs : Mem Q s) : Mem Q (State.trialUnbootable s k) := by
  unfold State.trialUnbootable
  extract_lets -merge +onlyGivenNames a1
  try clear_value a1
  with_reducible refine State.dropGoing_keeps W _ _ ?_
  with_reducible refine State.wr_keeps _ _ _ ?_
  with_reducible exact hs

theorem State.activateRecovery_keeps (W : WritesLm Q) (B : WritesSdb Q) (s : State) (d : Desc) (hs : Mem Q s) : Mem Q (State.activateRecovery s d) := by
  unfold State.activateRecovery
  extract_lets -merge +onlyGivenNames a1 a2
  have ha1 : Mem Q a1 := by
    subst a1
    with_reducible refine State.writeRecord_keeps B _ _ ?_
    with_reducible refine State.starts_keeps _ _ ?_
    with_reducible exact hs
  try clear_value a1
  try clear_value a2
  split <;> first
    | (with_reducible refine State.finish_keeps W _ _ _ _ _ ?_
       with_reducible refine State.imageReject_keeps _ ?_
       with_reducible refine State.setSlot_keeps _ _ _ ?_
       with_reducible exact hs)
    | (with_reducible refine State.setSlot_keeps _ _ _ ?_
       unfold Mem; dsimp only; refine mem_in ?_
       with_reducible exact ha1)

theorem State.activateTrial_keeps (W : WritesLm Q) (B : WritesSdb Q) (s : State) (d : Desc) (hs : Mem Q s) : Mem Q (State.activateTrial s d) := by
  unfold State.activateTrial
  extract_lets -merge +onlyGivenNames a1 a2 a3 a4 a5 a6 a7 a8
  try clear_value a1
  try clear_value a2
  try clear_value a3
  try clear_value a4
  try clear_value a5
  have ha6 : Mem Q a6 := by
    subst a6
    with_reducible refine State.writeRecord_keeps B _ _ ?_
    with_reducible refine State.starts_keeps _ _ ?_
    with_reducible exact hs
  try clear_value a6
  have ha7 : Mem Q a7 := by
    subst a7
    with_reducible refine keep_ite ?_ ?_
    · with_reducible exact ha6
    · with_reducible refine State.coldEffect_keeps _ ?_
      with_reducible exact ha6
  try clear_value a7
  try clear_value a8
  split <;> first
    | (with_reducible refine State.finish_keeps W _ _ _ _ _ ?_
       with_reducible refine State.imageReject_keeps _ ?_
       with_reducible refine State.setSlot_keeps _ _ _ ?_
       with_reducible exact hs)
    | (with_reducible refine keep_ite ?_ ?_
       · with_reducible refine State.finish_keeps W _ _ _ _ _ ?_
         with_reducible exact hs
       · with_reducible refine State.coldRestart_keeps W _ ?_
         unfold Mem; dsimp only; refine mem_in ?_
         with_reducible exact ha7)

theorem State.trialRuns_keeps (W : WritesLm Q) (B : WritesSdb Q) (s : State) (hs : Mem Q s) : Mem Q (State.trialRuns s) := by
  have h0 : ∀ (a : Nat) (bs : Bytes) (o : Seed) (n : Nat), Mem Q { s with free := n, sdb := Store.write s.sdb a bs, seed := o } :=
    fun a bs o n => B.1 s.lm s.sdb s.power.straps a bs hs
  unfold State.trialRuns
  extract_lets r n sd u v
  have hu : Mem Q u := h0 (settingsBase (1 - r.setCur)) (leBytes settingsSize (Config.freeNat (n + 4))) _ (n + 5)
  clear_value u
  have hv : Mem Q v := State.wr_keeps _ _ _ hu
  clear_value v
  split
  · exact hv
  · exact State.finish_keeps W _ _ _ _ _ hv

theorem doImageConfirm_keeps (W : WritesLm Q) (B : WritesSdb Q) (d : Desc) (s : State) (hs : Mem Q s) : Mem Q (doImageConfirm d s) := by
  unfold doImageConfirm
  extract_lets -merge +onlyGivenNames a1 a2 a3 a4 a5 a6
  try clear_value a1
  try clear_value a2
  have ha3 : Mem Q a3 := by
    subst a3
    with_reducible refine State.writeRecord_keeps B _ _ ?_
    with_reducible exact hs
  try clear_value a3
  have ha4 : Mem Q a4 := by
    subst a4
    with_reducible refine State.setSlot_keeps _ _ _ ?_
    with_reducible refine State.setSlot_keeps _ _ _ ?_
    with_reducible exact ha3
  try clear_value a4
  try clear_value a5
  have ha6 : Mem Q a6 := by
    subst a6
    unfold Mem; dsimp only; refine mem_in ?_
    with_reducible exact ha4
  try clear_value a6
  with_reducible refine keep_ite ?_ ?_
  · with_reducible refine State.finish_keeps W _ _ _ _ _ ?_
    with_reducible exact hs
  · with_reducible refine State.finish_keeps W _ _ _ _ _ ?_
    with_reducible refine State.raiseCounter_keeps _ _ ?_
    with_reducible exact ha6

theorem doImageWrite_keeps (W : WritesLm Q) (B : WritesSdb Q) (d : Desc) (bs : Bytes) (s : State) (hs : Mem Q s) : Mem Q (doImageWrite d bs s) := by
  unfold doImageWrite
  extract_lets -merge +onlyGivenNames a1
  have ha1 : Mem Q a1.2 := by
    subst a1
    with_reducible refine State.writeBlocks_keeps B _ _ _ _ ?_
    with_reducible exact hs
  try clear_value a1
  split <;>
    (with_reducible refine State.finish_keeps W _ _ _ _ _ ?_
     with_reducible exact ha1)

theorem State.fallBack_keeps (W : WritesLm Q) (B : WritesSdb Q) (s : State) (cause : Nat) (hs : Mem Q s) : Mem Q (State.fallBack s cause) := by
  unfold State.fallBack
  extract_lets -merge +onlyGivenNames a1 a2 a3 a4 a5
  try clear_value a1
  have ha2 : Mem Q a2 := by
    subst a2
    with_reducible refine State.setSlot_keeps _ _ _ ?_
    with_reducible refine State.writeRecord_keeps B _ _ ?_
    with_reducible exact hs
  try clear_value a2
  have ha3 : Mem Q a3 := by
    subst a3
    with_reducible refine State.detect_keeps _ _ ?_
    with_reducible refine State.wr_keeps _ _ _ ?_
    with_reducible exact ha2
  try clear_value a3
  try clear_value a4
  have ha5 : Mem Q a5 := by
    subst a5
    with_reducible refine State.dropGoing_keeps W _ _ ?_
    unfold Mem; dsimp only; refine mem_in ?_
    with_reducible exact ha3
  try clear_value a5
  with_reducible refine keep_ite ?_ ?_
  · with_reducible refine State.coldEffect_keeps _ ?_
    with_reducible exact ha5
  · with_reducible exact ha5

theorem execMigrationReport_keeps (W : WritesLm Q) (d : Desc) (ok : Bool) (s : State) (hs : Mem Q s) : OutMem Q (execMigrationReport d ok s) := by
  unfold execMigrationReport
  with_reducible refine onOp_keeps W _ _ _ _ _ ?_ ?_
  · with_reducible exact hs
  · intro x1 h1
    with_reducible refine migrationReport_keeps W _ _ _ ?_
    with_reducible exact h1

theorem doImageActivate_keeps (W : WritesLm Q) (B : WritesSdb Q) (d : Desc) (s : State) (hs : Mem Q s) : Mem Q (doImageActivate d s) := by
  unfold doImageActivate
  with_reducible refine keep_ite ?_ ?_
  · with_reducible refine keep_ite ?_ ?_
    · with_reducible refine State.activateRecovery_keeps W B _ _ ?_
      with_reducible exact hs
    · with_reducible refine State.finish_keeps W _ _ _ _ _ ?_
      with_reducible exact hs
  · with_reducible refine keep_ite ?_ ?_
    · with_reducible refine State.finish_keeps W _ _ _ _ _ ?_
      with_reducible exact hs
    · with_reducible refine State.activateTrial_keeps W B _ _ ?_
      with_reducible exact hs

theorem State.loadSlot_keeps (W : WritesLm Q) (s : State) (k : Nat) (trial : Bool) (hs : Mem Q s) : Mem Q (State.loadSlot s k trial) := by
  unfold State.loadSlot
  extract_lets -merge +onlyGivenNames a1 a2 a3
  have ha1 : Mem Q a1 := by
    subst a1
    with_reducible refine State.imageReject_keeps _ ?_
    with_reducible exact hs
  try clear_value a1
  have ha2 : Mem Q a2 := by
    subst a2
    with_reducible refine keep_ite ?_ ?_
    · with_reducible exact ha1
    · with_reducible refine State.setSlot_keeps _ _ _ ?_
      with_reducible exact ha1
  try clear_value a2
  have ha3 : Mem Q a3 := by
    subst a3
    with_reducible refine keep_ite ?_ ?_
    · with_reducible refine State.trialUnbootable_keeps W _ _ ?_
      with_reducible exact ha2
    · with_reducible exact ha2
  try clear_value a3
  with_reducible refine keep_ite ?_ ?_
  · with_reducible refine State.boots_keeps _ _ _ ?_
    with_reducible exact hs
  · with_reducible refine keep_ite ?_ ?_
    · with_reducible refine State.detect_keeps _ _ ?_
      with_reducible refine State.boots_keeps _ _ _ ?_
      with_reducible exact ha3
    · with_reducible refine State.recover_keeps _ ?_
      with_reducible exact ha2

theorem imageBroadcast_keeps (W : WritesLm Q) (d : Desc) (src : HostData) (s : State) (hs : Mem Q s) : Mem Q (imageBroadcast d src s) := by
  unfold imageBroadcast
  extract_lets -merge +onlyGivenNames a1
  try clear_value a1
  with_reducible refine keep_ite ?_ ?_
  · with_reducible refine State.finish_keeps W _ _ _ _ _ ?_
    with_reducible exact hs
  · with_reducible refine keep_ite ?_ ?_
    · with_reducible refine State.finish_keeps W _ _ _ _ _ ?_
      with_reducible exact hs
    · with_reducible refine State.broadcastFor_keeps W _ _ _ _ _ ?_
      with_reducible refine State.starts_keeps _ _ ?_
      with_reducible exact hs

theorem expired_keeps (W : WritesLm Q) (B : WritesSdb Q) (s : State) (hs : Mem Q s) : Mem Q (expired s) := by
  unfold expired
  extract_lets -merge +onlyGivenNames a1 a2
  try clear_value a1
  have ha2 : Mem Q a2 := by
    subst a2
    with_reducible refine watchdogExpires_keeps W _ ?_
    with_reducible exact hs
  try clear_value a2
  with_reducible refine keep_ite ?_ ?_
  · with_reducible exact hs
  · with_reducible refine keep_ite ?_ ?_
    · with_reducible refine State.fallBack_keeps W B _ _ ?_
      with_reducible exact ha2
    · with_reducible exact ha2

theorem trialWindowExpiry_keeps (W : WritesLm Q) (B : WritesSdb Q) (s : State) (hs : Mem Q s) : Mem Q (trialWindowExpiry s) := by
  unfold trialWindowExpiry
  split <;> first
    | (with_reducible exact hs)
    | (extract_lets -merge +onlyGivenNames a1 a2
       have ha1 : Mem Q a1 := by
         subst a1
         with_reducible refine State.advanceTo_keeps _ _ ?_
         with_reducible exact hs
       try clear_value a1
       try clear_value a2
       with_reducible refine keep_ite ?_ ?_
       · unfold Mem; dsimp only; refine mem_in ?_
         with_reducible exact ha1
       · with_reducible refine State.coldRestart_keeps W _ ?_
         with_reducible refine State.fallBack_keeps W B _ _ ?_
         with_reducible exact ha1)

theorem doImageRevert_keeps (W : WritesLm Q) (B : WritesSdb Q) (d : Desc) (s : State) (hs : Mem Q s) : Mem Q (doImageRevert d s) := by
  unfold doImageRevert
  with_reducible refine keep_ite ?_ ?_
  · with_reducible refine State.finish_keeps W _ _ _ _ _ ?_
    with_reducible refine State.coldRestart_keeps W _ ?_
    with_reducible refine State.fallBack_keeps W B _ _ ?_
    with_reducible exact hs
  · with_reducible refine State.finish_keeps W _ _ _ _ _ ?_
    with_reducible exact hs

theorem imageWrite_keeps (W : WritesLm Q) (B : WritesSdb Q) (d : Desc) (src : HostData) (s : State) (hs : Mem Q s) : Mem Q (imageWrite d src s) := by
  unfold imageWrite
  extract_lets -merge +onlyGivenNames a1 a2 a3 a4 a5
  try clear_value a1
  try clear_value a2
  try clear_value a3
  try clear_value a4
  try clear_value a5
  with_reducible refine keep_ite ?_ ?_
  · with_reducible refine State.finish_keeps W _ _ _ _ _ ?_
    with_reducible exact hs
  · with_reducible refine keep_ite ?_ ?_
    · with_reducible refine State.finish_keeps W _ _ _ _ _ ?_
      with_reducible exact hs
    · with_reducible refine keep_ite ?_ ?_
      · with_reducible refine State.finish_keeps W _ _ _ _ _ ?_
        with_reducible exact hs
      · with_reducible refine keep_ite ?_ ?_
        · with_reducible refine State.finish_keeps W _ _ _ _ _ ?_
          with_reducible refine State.lmUncorr_keeps _ ?_
          with_reducible exact hs
        · with_reducible refine keep_ite ?_ ?_
          · with_reducible refine State.finish_keeps W _ _ _ _ _ ?_
            with_reducible exact hs
          · with_reducible refine keep_ite ?_ ?_
            · with_reducible refine State.holdWrite_keeps _ _ _ _ ?_
              with_reducible exact hs
            · with_reducible refine doImageWrite_keeps W B _ _ _ ?_
              with_reducible exact hs

theorem imageActivate_keeps (W : WritesLm Q) (B : WritesSdb Q) (d : Desc) (s : State) (hs : Mem Q s) : Mem Q (imageActivate d s) := by
  unfold imageActivate
  with_reducible refine keep_ite ?_ ?_
  · with_reducible refine State.finish_keeps W _ _ _ _ _ ?_
    with_reducible exact hs
  · with_reducible refine keep_ite ?_ ?_
    · with_reducible refine State.finish_keeps W _ _ _ _ _ ?_
      with_reducible exact hs
    · with_reducible refine keep_ite ?_ ?_
      · with_reducible refine State.holdWrite_keeps _ _ _ _ ?_
        with_reducible exact hs
      · with_reducible refine doImageActivate_keeps W B _ _ ?_
        with_reducible exact hs

theorem bootLoad_keeps (W : WritesLm Q) (B : WritesSdb Q) (s : State) (hs : Mem Q s) : Mem Q (bootLoad s) := by
  unfold bootLoad
  extract_lets -merge +onlyGivenNames a1 a2 a3
  try clear_value a1
  have ha2 : Mem Q a2 := by
    subst a2
    with_reducible refine State.detectIf_keeps _ _ _ ?_
    with_reducible exact hs
  try clear_value a2
  try clear_value a3
  with_reducible refine keep_ite ?_ ?_
  · with_reducible exact hs
  · with_reducible refine keep_ite ?_ ?_
    · with_reducible refine State.recover_keeps _ ?_
      with_reducible exact hs
    · with_reducible refine keep_ite ?_ ?_
      · with_reducible refine State.loadSlot_keeps W _ _ _ ?_
        with_reducible refine State.writeRecord_keeps B _ _ ?_
        with_reducible exact ha2
      · with_reducible refine keep_ite ?_ ?_
        · with_reducible refine State.loadSlot_keeps W _ _ _ ?_
          with_reducible refine State.fallBack_keeps W B _ _ ?_
          with_reducible exact ha2
        · with_reducible refine State.loadSlot_keeps W _ _ _ ?_
          with_reducible refine State.showRecord_keeps _ _ ?_
          with_reducible exact ha2

theorem imageConfirm_keeps (W : WritesLm Q) (B : WritesSdb Q) (d : Desc) (s : State) (hs : Mem Q s) : Mem Q (imageConfirm d s) := by
  unfold imageConfirm
  with_reducible refine keep_ite ?_ ?_
  · with_reducible refine State.finish_keeps W _ _ _ _ _ ?_
    with_reducible exact hs
  · with_reducible refine keep_ite ?_ ?_
    · with_reducible refine State.holdWrite_keeps _ _ _ _ ?_
      with_reducible exact hs
    · with_reducible refine doImageConfirm_keeps W B _ _ ?_
      with_reducible exact hs

theorem execBootLoad_keeps (W : WritesLm Q) (B : WritesSdb Q) (s : State) (hs : Mem Q s) : OutMem Q (execBootLoad s) := by
  unfold execBootLoad
  with_reducible refine onLive_keeps _ _ ?_ ?_
  · with_reducible exact hs
  · intro x1 h1
    with_reducible refine bootLoad_keeps W B _ ?_
    with_reducible exact h1

theorem rangerRunning_keeps (W : WritesLm Q) (B : WritesSdb Q) (s : State) (hs : Mem Q s) : Mem Q (rangerRunning s) := by
  unfold rangerRunning
  extract_lets -merge +onlyGivenNames a1 a2 a3 a4 a5 a6 a7 a8 a9 a10 a11
  try clear_value a1
  try clear_value a3
  have ha4 : Mem Q a4 := by
    subst a4
    unfold Mem; dsimp only; refine mem_in ?_
    with_reducible exact hs
  try clear_value a4
  have ha5 : Mem Q a5 := by
    subst a5
    with_reducible refine State.wr_keeps _ _ _ ?_
    with_reducible refine State.wr_keeps _ _ _ ?_
    with_reducible refine State.wr_keeps _ _ _ ?_
    with_reducible exact ha4
  try clear_value a5
  have ha6 : Mem Q a6 := by
    subst a6
    with_reducible refine State.wr_keeps _ _ _ ?_
    with_reducible refine State.wr_keeps _ _ _ ?_
    with_reducible exact ha5
  try clear_value a6
  try clear_value a7
  have ha8 : Mem Q a8 := by
    subst a8
    split <;> first
      | (extract_lets -merge +onlyGivenNames a12
         have ha12 : Mem Q a12 := by
           subst a12
           with_reducible refine State.wr_keeps _ _ _ ?_
           with_reducible exact ha6
         try clear_value a12
         unfold Mem; dsimp only; refine mem_in ?_
         with_reducible exact ha12)
      | (with_reducible exact ha6)
  try clear_value a8
  try clear_value a9
  have ha10 : Mem Q a10 := by
    subst a10
    split <;> first
      | (with_reducible refine State.finish_keeps W _ _ _ _ _ ?_
         unfold Mem; dsimp only; refine mem_in ?_
         with_reducible exact ha8)
      | (with_reducible exact ha8)
  try clear_value a10
  try clear_value a11
  with_reducible refine keep_ite ?_ ?_
  · with_reducible exact hs
  · with_reducible refine keep_ite ?_ ?_
    · with_reducible refine State.trialRuns_keeps W B _ ?_
      with_reducible exact ha10
    · split <;> first
        | (with_reducible refine State.finish_keeps W _ _ _ _ _ ?_
           unfold Mem; dsimp only; refine mem_in ?_
           with_reducible exact ha10)
        | (with_reducible exact ha10)

theorem execImageBroadcast_keeps (W : WritesLm Q) (d : Desc) (src : HostData) (s : State) (hs : Mem Q s) : OutMem Q (execImageBroadcast d src s) := by
  unfold execImageBroadcast
  with_reducible refine onOp_keeps W _ _ _ _ _ ?_ ?_
  · with_reducible exact hs
  · intro x1 h1
    with_reducible refine imageBroadcast_keeps W _ _ _ ?_
    with_reducible exact h1

theorem imageRevert_keeps (W : WritesLm Q) (B : WritesSdb Q) (d : Desc) (s : State) (hs : Mem Q s) : Mem Q (imageRevert d s) := by
  unfold imageRevert
  with_reducible refine keep_ite ?_ ?_
  · with_reducible refine State.finish_keeps W _ _ _ _ _ ?_
    with_reducible exact hs
  · with_reducible refine keep_ite ?_ ?_
    · with_reducible refine State.holdWrite_keeps _ _ _ _ ?_
      with_reducible exact hs
    · with_reducible refine doImageRevert_keeps W B _ _ ?_
      with_reducible exact hs

theorem execImageWrite_keeps (W : WritesLm Q) (B : WritesSdb Q) (d : Desc) (src : HostData) (s : State) (hs : Mem Q s) : OutMem Q (execImageWrite d src s) := by
  unfold execImageWrite
  with_reducible refine onOp_keeps W _ _ _ _ _ ?_ ?_
  · with_reducible exact hs
  · intro x1 h1
    with_reducible refine imageWrite_keeps W B _ _ _ ?_
    with_reducible exact h1

theorem execTrialWindowExpiry_keeps (W : WritesLm Q) (B : WritesSdb Q) (s : State) (hs : Mem Q s) : OutMem Q (execTrialWindowExpiry s) := by
  unfold execTrialWindowExpiry
  with_reducible refine onLive_keeps _ _ ?_ ?_
  · with_reducible exact hs
  · intro x1 h1
    with_reducible refine trialWindowExpiry_keeps W B _ ?_
    with_reducible exact h1

theorem execImageActivate_keeps (W : WritesLm Q) (B : WritesSdb Q) (d : Desc) (s : State) (hs : Mem Q s) : OutMem Q (execImageActivate d s) := by
  unfold execImageActivate
  with_reducible refine onOp_keeps W _ _ _ _ _ ?_ ?_
  · with_reducible exact hs
  · intro x1 h1
    with_reducible refine imageActivate_keeps W B _ _ ?_
    with_reducible exact h1

theorem execExpired_keeps (W : WritesLm Q) (B : WritesSdb Q) (s : State) (hs : Mem Q s) : OutMem Q (execExpired s) := by
  unfold execExpired
  with_reducible refine onLive_keeps _ _ ?_ ?_
  · with_reducible exact hs
  · intro x1 h1
    with_reducible refine expired_keeps W B _ ?_
    with_reducible exact h1

theorem execImageConfirm_keeps (W : WritesLm Q) (B : WritesSdb Q) (d : Desc) (s : State) (hs : Mem Q s) : OutMem Q (execImageConfirm d s) := by
  unfold execImageConfirm
  with_reducible refine onOp_keeps W _ _ _ _ _ ?_ ?_
  · with_reducible exact hs
  · intro x1 h1
    with_reducible refine imageConfirm_keeps W B _ _ ?_
    with_reducible exact h1

theorem State.resumeWrite_keeps (W : WritesLm Q) (B : WritesSdb Q) (s : State) (w : Nat × Desc × Bytes) (hs : Mem Q s) : Mem Q (State.resumeWrite s w) := by
  unfold State.resumeWrite
  with_reducible refine keep_ite ?_ ?_
  · with_reducible refine doImageWrite_keeps W B _ _ _ ?_
    with_reducible exact hs
  · with_reducible refine keep_ite ?_ ?_
    · with_reducible refine doImageActivate_keeps W B _ _ ?_
      with_reducible exact hs
    · with_reducible refine keep_ite ?_ ?_
      · with_reducible refine doImageConfirm_keeps W B _ _ ?_
        with_reducible exact hs
      · with_reducible refine doImageRevert_keeps W B _ _ ?_
        with_reducible exact hs

theorem execRangerRunning_keeps (W : WritesLm Q) (B : WritesSdb Q) (s : State) (hs : Mem Q s) : OutMem Q (execRangerRunning s) := by
  unfold execRangerRunning
  with_reducible refine onLive_keeps _ _ ?_ ?_
  · with_reducible exact hs
  · intro x1 h1
    with_reducible refine rangerRunning_keeps W B _ ?_
    with_reducible exact h1

theorem execImageRevert_keeps (W : WritesLm Q) (B : WritesSdb Q) (d : Desc) (s : State) (hs : Mem Q s) : OutMem Q (execImageRevert d s) := by
  unfold execImageRevert
  with_reducible refine onOp_keeps W _ _ _ _ _ ?_ ?_
  · with_reducible exact hs
  · intro x1 h1
    with_reducible refine imageRevert_keeps W B _ _ ?_
    with_reducible exact h1

theorem dipRecovery_keeps (W : WritesLm Q) (B : WritesSdb Q) (s : State) (hs : Mem Q s) : Mem Q (dipRecovery s) := by
  unfold dipRecovery
  extract_lets -merge +onlyGivenNames a1 a2 a3 a4 a5 a6
  have ha2 : Mem Q a2 := by
    subst a2
    unfold Mem; dsimp only; refine mem_in ?_
    with_reducible exact hs
  try clear_value a2
  have ha3 : Mem Q a3 := by
    subst a3
    with_reducible refine State.wr_keeps _ _ _ ?_
    with_reducible refine State.wr_keeps _ _ _ ?_
    with_reducible exact ha2
  try clear_value a3
  try clear_value a4
  try clear_value a5
  have ha6 : Mem Q a6 := by
    subst a6
    refine keep_foldl ?_ ?_
    · unfold Mem; dsimp only; refine mem_in ?_
      with_reducible exact ha3
    · intro x1 x2 h1
      with_reducible refine State.resumeWrite_keeps W B _ _ ?_
      with_reducible exact h1
  try clear_value a6
  split <;> first
    | (with_reducible refine keep_ite ?_ ?_
       · with_reducible refine State.bootTrail_keeps B _ ?_
         with_reducible refine State.stageBlocks_keeps B _ _ ?_
         with_reducible exact ha6
       · with_reducible exact ha6)
    | (with_reducible exact ha6)

theorem execDipRecovery_keeps (W : WritesLm Q) (B : WritesSdb Q) (s : State) (hs : Mem Q s) : OutMem Q (execDipRecovery s) := by
  unfold execDipRecovery
  with_reducible refine onLive_keeps _ _ ?_ ?_
  · with_reducible exact hs
  · intro x1 h1
    with_reducible refine dipRecovery_keeps W B _ ?_
    with_reducible exact h1

theorem peakReset_keeps (s : State) (hs : Mem Q s) : Mem Q (peakReset s) := by
  unfold peakReset
  with_reducible refine State.wr_keeps _ _ _ ?_
  with_reducible exact hs

theorem State.nextSample_keeps (s : State) (hs : Mem Q s) : Mem Q (State.nextSample s) := by
  unfold State.nextSample
  extract_lets -merge +onlyGivenNames a1 a2
  try clear_value a1
  try clear_value a2
  split <;> first
    | (unfold Mem; dsimp only; refine mem_in ?_
       with_reducible exact hs)
    | (extract_lets -merge +onlyGivenNames a3 a4 a5 a6
       have ha3 : Mem Q a3 := by
         subst a3
         with_reducible refine State.advanceTo_keeps _ _ ?_
         with_reducible exact hs
       try clear_value a3
       try clear_value a4
       have ha5 : Mem Q a5 := by
         subst a5
         with_reducible refine State.wr_keeps _ _ _ ?_
         with_reducible exact ha3
       try clear_value a5
       try clear_value a6
       unfold Mem; dsimp only; refine mem_in ?_
       with_reducible exact ha5)

theorem execPeakReset_keeps (s : State) (hs : Mem Q s) : OutMem Q (execPeakReset s) := by
  unfold execPeakReset
  with_reducible refine onLive_keeps _ _ ?_ ?_
  · with_reducible exact hs
  · intro x1 h1
    with_reducible refine peakReset_keeps _ ?_
    with_reducible exact h1

theorem State.warnAt_keeps (s : State) (t : Int) (hs : Mem Q s) : Mem Q (State.warnAt s t) := by
  unfold State.warnAt
  with_reducible refine keep_ite ?_ ?_
  · with_reducible refine keep_ite ?_ ?_
    · with_reducible refine State.wr_keeps _ _ _ ?_
      with_reducible exact hs
    · with_reducible exact hs
  · with_reducible refine keep_ite ?_ ?_
    · with_reducible refine State.detect_keeps _ _ ?_
      with_reducible refine State.wr_keeps _ _ _ ?_
      with_reducible exact hs
    · with_reducible exact hs

theorem State.levelAt_keeps (s : State) (t : Int) (hs : Mem Q s) : Mem Q (State.levelAt s t) := by
  unfold State.levelAt
  extract_lets -merge +onlyGivenNames a1
  try clear_value a1
  with_reducible refine keep_ite ?_ ?_
  · with_reducible refine State.detect_keeps _ _ ?_
    with_reducible refine State.wr_keeps _ _ _ ?_
    with_reducible refine State.notePace_keeps _ ?_
    with_reducible exact hs
  · with_reducible refine keep_ite ?_ ?_
    · with_reducible refine State.wr_keeps _ _ _ ?_
      with_reducible refine State.notePace_keeps _ ?_
      with_reducible exact hs
    · with_reducible exact hs

theorem State.showSensor_keeps (s : State) (l : List SensorReading) (i : Nat) (hs : Mem Q s) : Mem Q (State.showSensor s l i) := by
  unfold State.showSensor
  extract_lets -merge +onlyGivenNames a1 a2 a3 a4
  try clear_value a1
  try clear_value a2
  have ha3 : Mem Q a3 := by
    subst a3
    with_reducible refine State.wr_keeps _ _ _ ?_
    with_reducible refine State.wr_keeps _ _ _ ?_
    with_reducible exact hs
  try clear_value a3
  have ha4 : Mem Q a4 := by
    subst a4
    with_reducible refine State.wr_keeps _ _ _ ?_
    with_reducible exact ha3
  try clear_value a4
  with_reducible refine State.detectIf_keeps _ _ _ ?_
  with_reducible exact ha4

theorem State.showSample_keeps (s : State) (l : List SensorReading) (hs : Mem Q s) : Mem Q (State.showSample s l) := by
  unfold State.showSample
  extract_lets -merge +onlyGivenNames a1 a2 a3 a4 a5 a6
  try clear_value a1
  have ha2 : Mem Q a2 := by
    subst a2
    with_reducible refine State.nextSample_keeps _ ?_
    with_reducible exact hs
  try clear_value a2
  have ha3 : Mem Q a3 := by
    subst a3
    refine keep_foldl ?_ ?_
    · with_reducible exact ha2
    · intro x1 x2 h1
      with_reducible refine State.showSensor_keeps _ _ _ ?_
      with_reducible exact h1
  try clear_value a3
  try clear_value a4
  have ha5 : Mem Q a5 := by
    subst a5
    with_reducible refine State.wr_keeps _ _ _ ?_
    with_reducible refine State.wr_keeps _ _ _ ?_
    with_reducible exact ha3
  try clear_value a5
  have ha6 : Mem Q a6 := by
    subst a6
    with_reducible refine keep_ite ?_ ?_
    · with_reducible refine State.wr_keeps _ _ _ ?_
      with_reducible exact ha5
    · with_reducible exact ha5
  try clear_value a6
  with_reducible refine keep_ite ?_ ?_
  · with_reducible refine keep_ite ?_ ?_
    · with_reducible refine State.wr_keeps _ _ _ ?_
      with_reducible exact ha6
    · with_reducible exact ha6
  · with_reducible refine keep_ite ?_ ?_
    · with_reducible refine State.wr_keeps _ _ _ ?_
      with_reducible exact ha6
    · with_reducible exact ha6

theorem State.shutdown_keeps (s : State) (hs : Mem Q s) : Mem Q (State.shutdown s) := by
  unfold State.shutdown
  extract_lets -merge +onlyGivenNames a1 a2 a3 a4 a5 a6 a7 a8 a9 a10
  have ha1 : Mem Q a1 := by
    subst a1
    with_reducible refine State.detect_keeps _ _ ?_
    with_reducible refine State.wr_keeps _ _ _ ?_
    with_reducible exact hs
  try clear_value a1
  have ha3 : Mem Q a3 := by
    subst a3
    unfold Mem; dsimp only; refine mem_in ?_
    with_reducible exact ha1
  try clear_value a3
  have ha4 : Mem Q a4 := by
    subst a4
    with_reducible refine keep_ite ?_ ?_
    · with_reducible refine State.resign_keeps _ ?_
      with_reducible exact ha3
    · with_reducible exact ha3
  try clear_value a4
  have ha5 : Mem Q a5 := by
    subst a5
    refine keep_foldl ?_ ?_
    · with_reducible exact ha4
    · intro x1 x2 h1
      with_reducible refine State.dropPort_keeps _ _ _ ?_
      with_reducible exact h1
  try clear_value a5
  have ha6 : Mem Q a6 := by
    subst a6
    with_reducible refine keep_ite ?_ ?_
    · with_reducible refine netLinkDown_keeps _ _ ?_
      with_reducible refine netLinkDown_keeps _ _ ?_
      with_reducible exact ha5
    · with_reducible refine State.feedUpdate_keeps _ ?_
      with_reducible exact ha5
  try clear_value a6
  try clear_value a7
  try clear_value a8
  try clear_value a9
  try clear_value a10
  unfold Mem; dsimp only; refine mem_in ?_
  with_reducible exact ha6

theorem thermalSample_keeps (l : List SensorReading) (s : State) (hs : Mem Q s) : Mem Q (thermalSample l s) := by
  unfold thermalSample
  extract_lets -merge +onlyGivenNames a1 a2 a3 a4 a5
  try clear_value a1
  try clear_value a2
  have ha3 : Mem Q a3 := by
    subst a3
    with_reducible refine State.levelAt_keeps _ _ ?_
    with_reducible refine State.warnAt_keeps _ _ ?_
    with_reducible refine State.showSample_keeps _ _ ?_
    with_reducible exact hs
  try clear_value a3
  try clear_value a4
  have ha5 : Mem Q a5 := by
    subst a5
    unfold Mem; dsimp only; refine mem_in ?_
    with_reducible exact ha3
  try clear_value a5
  with_reducible refine keep_ite ?_ ?_
  · with_reducible refine State.shutdown_keeps _ ?_
    with_reducible exact ha5
  · with_reducible exact ha5

theorem execThermalSample_keeps (readings : List SensorReading) (s : State) (hs : Mem Q s) : OutMem Q (execThermalSample readings s) := by
  unfold execThermalSample
  with_reducible refine onLive_keeps _ _ ?_ ?_
  · with_reducible exact hs
  · intro x1 h1
    with_reducible refine thermalSample_keeps _ _ ?_
    with_reducible exact h1

end Sys2Proof.Machine
end

