-- ==== Sys2Proof/Laws/KeepsBar.lean ====
section
/-! SUPPORT. The operations and meanings of Bar, Jtag, Launch keep any property of the stores and the straps that the writes they
make keep (see Laws/Memory.lean). -/

namespace Sys2Proof.Machine

variable {Q : Store → Store → StrapBalls → Prop}

theorem State.dropResigners_keeps (s : State) (hs : Mem Q s) : Mem Q (State.dropResigners s) := by
  unfold State.dropResigners
  extract_lets -merge +onlyGivenNames a1
  try clear_value a1
  unfold Mem; dsimp only; refine mem_in ?_
  with_reducible exact hs

theorem State.storeRow_keeps (s : State) (off : Nat) (w : Nat) (r : RegRow) (hs : Mem Q s) : Mem Q (State.storeRow s off w r) := by
  unfold State.storeRow
  extract_lets -merge +onlyGivenNames a1
  try clear_value a1
  with_reducible refine keep_ite ?_ ?_
  · with_reducible exact hs
  · split <;> first
      | (with_reducible refine keep_ite ?_ ?_
         · with_reducible refine State.wr_keeps _ _ _ ?_
           with_reducible exact hs
         · with_reducible exact hs)
      | (with_reducible refine State.wr_keeps _ _ _ ?_
         with_reducible exact hs)
      | (with_reducible exact hs)

theorem State.regRead_keeps (s : State) (off : Nat) (hs : Mem Q s) : Mem Q (State.regRead s off).2 := by
  unfold State.regRead
  extract_lets -merge +onlyGivenNames a1 a2
  try clear_value a1
  try clear_value a2
  with_reducible refine keep_ite2 ?_ ?_
  · with_reducible refine mem_snd ?_
    with_reducible exact hs
  · split <;> first
      | (with_reducible refine mem_snd ?_
         unfold Mem; dsimp only; refine mem_in ?_
         with_reducible exact hs)
      | (split <;> first
           | (with_reducible refine mem_snd ?_
              unfold Mem; dsimp only; refine mem_in ?_
              with_reducible exact hs)
           | (with_reducible refine mem_snd ?_
              with_reducible refine keep_ite ?_ ?_
              · with_reducible refine timeNsRead_keeps _ ?_
                with_reducible exact hs
              · with_reducible refine keep_ite ?_ ?_
                · with_reducible refine State.drawn_keeps _ ?_
                  with_reducible exact hs
                · with_reducible exact hs))

theorem State.storeWord_keeps (s : State) (off : Nat) (w : Nat) (hs : Mem Q s) : Mem Q (State.storeWord s off w) := by
  unfold State.storeWord
  refine keep_foldl ?_ ?_
  · with_reducible exact hs
  · intro x1 x2 h1
    with_reducible refine State.storeRow_keeps _ _ _ _ ?_
    with_reducible exact h1

theorem State.basePair_keeps (s : State) (lo : Fld) (hi : Fld) (align : Nat) (size : Nat) (w : Nat) (hs : Mem Q s) : Mem Q (State.basePair s lo hi align size w) := by
  unfold State.basePair
  extract_lets -merge +onlyGivenNames a1 a2
  have ha1 : Mem Q a1.2 := by
    subst a1
    with_reducible refine State.takeLo_keeps _ _ _ ?_
    with_reducible exact hs
  try clear_value a1
  try clear_value a2
  with_reducible refine keep_ite ?_ ?_
  · with_reducible exact ha1
  · with_reducible refine State.wr_keeps _ _ _ ?_
    with_reducible refine State.wr_keeps _ _ _ ?_
    with_reducible exact ha1

theorem txeqWrite_keeps (off : Nat) (w : Nat) (s : State) (hs : Mem Q s) : Mem Q (txeqWrite off w s) := by
  unfold txeqWrite
  with_reducible refine keep_ite ?_ ?_
  · with_reducible refine State.storeWord_keeps _ _ _ ?_
    with_reducible exact hs
  · with_reducible exact hs

theorem State.edited_keeps (s : State) (s' : State) (hs : Mem Q s) (hs' : Mem Q s') : Mem Q (State.edited s s') := by
  unfold State.edited
  with_reducible refine keep_ite ?_ ?_
  · with_reducible exact hs'
  · with_reducible refine State.hostEdited_keeps _ ?_
    with_reducible exact hs'

theorem State.msixWrite_keeps (s : State) (o : Nat) (w : Nat) (hs : Mem Q s) : Mem Q (State.msixWrite s o w) := by
  unfold State.msixWrite
  extract_lets -merge +onlyGivenNames a1 a2 a3 a4 a5 a6
  try clear_value a1
  try clear_value a2
  try clear_value a3
  try clear_value a4
  have ha5 : Mem Q a5 := by
    subst a5
    unfold Mem; dsimp only; refine mem_in ?_
    with_reducible exact hs
  try clear_value a5
  try clear_value a6
  with_reducible refine keep_ite ?_ ?_
  · with_reducible exact hs
  · with_reducible refine keep_ite ?_ ?_
    · with_reducible refine State.sendVector_keeps _ _ ?_
      unfold Mem; dsimp only; refine mem_in ?_
      with_reducible exact ha5
    · with_reducible exact ha5

theorem State.deny_keeps (s : State) (off : Nat) (cause : Nat) (trail : Bool) (hs : Mem Q s) : Mem Q (State.deny s off cause trail) := by
  unfold State.deny
  with_reducible refine State.wr_keeps _ _ _ ?_
  with_reducible refine State.wr_keeps _ _ _ ?_
  with_reducible refine State.wr_keeps _ _ _ ?_
  with_reducible refine State.inc_keeps _ _ ?_
  with_reducible exact hs

theorem State.headerWrite_keeps (s : State) (b : Nat) (o : Nat) (w : Nat) (hs : Mem Q s) : Mem Q (State.headerWrite s b o w) := by
  unfold State.headerWrite
  extract_lets -merge +onlyGivenNames a1 a2 a3
  try clear_value a1
  try clear_value a2
  have ha3 : Mem Q a3 := by
    subst a3
    with_reducible refine State.storeWord_keeps _ _ _ ?_
    with_reducible exact hs
  try clear_value a3
  with_reducible refine keep_ite ?_ ?_
  · with_reducible refine keep_ite ?_ ?_
    · with_reducible refine State.blockReset_keeps _ _ ?_
      with_reducible exact hs
    · with_reducible exact hs
  · with_reducible refine keep_ite ?_ ?_
    · with_reducible refine State.dropResigners_keeps _ ?_
      with_reducible refine State.storeWord_keeps _ _ _ ?_
      with_reducible exact hs
    · with_reducible refine keep_ite ?_ ?_
      · with_reducible refine keep_ite ?_ ?_
        · with_reducible refine State.notify_keeps _ _ ?_
          with_reducible exact ha3
        · with_reducible exact ha3
      · with_reducible refine keep_ite ?_ ?_
        · with_reducible refine reactWrite_keeps _ _ _ _ ?_
          with_reducible exact hs
        · with_reducible refine State.storeWord_keeps _ _ _ ?_
          with_reducible exact hs

theorem maskWrite_keeps (off : Nat) (w : Nat) (s : State) (hs : Mem Q s) : Mem Q (maskWrite off w s) := by
  unfold maskWrite
  with_reducible refine keep_ite ?_ ?_
  · with_reducible exact hs
  · with_reducible refine keep_ite ?_ ?_
    · with_reducible refine State.detect_keeps _ _ ?_
      with_reducible exact hs
    · with_reducible refine State.storeWord_keeps _ _ _ ?_
      with_reducible exact hs

theorem State.shadowPair_keeps (s : State) (lo : Fld) (hi : Fld) (w : Nat) (hs : Mem Q s) : Mem Q (State.shadowPair s lo hi w) := by
  unfold State.shadowPair
  extract_lets -merge +onlyGivenNames a1
  have ha1 : Mem Q a1.2 := by
    subst a1
    with_reducible refine State.takeLo_keeps _ _ _ ?_
    with_reducible exact hs
  try clear_value a1
  with_reducible refine State.setShadow_keeps _ _ ?_
  with_reducible exact ha1

theorem brnWrite_keeps (off : Nat) (w : Nat) (s : State) (hs : Mem Q s) : Mem Q (brnWrite off w s) := by
  unfold brnWrite
  with_reducible refine keep_ite ?_ ?_
  · with_reducible refine State.noteHiz_keeps _ ?_
    with_reducible refine State.storeWord_keeps _ _ _ ?_
    with_reducible exact hs
  · with_reducible refine keep_ite ?_ ?_
    · with_reducible refine State.holdLo_keeps _ _ _ ?_
      with_reducible exact hs
    · with_reducible refine keep_ite ?_ ?_
      · with_reducible refine State.edited_keeps _ _ ?_ ?_
        · with_reducible exact hs
        · with_reducible refine State.shadowPair_keeps _ _ _ _ ?_
          with_reducible exact hs
      · with_reducible refine keep_ite ?_ ?_
        · with_reducible refine State.edited_keeps _ _ ?_ ?_
          · with_reducible exact hs
          · with_reducible refine State.setShadow_keeps _ _ ?_
            with_reducible exact hs
        · with_reducible refine State.storeWord_keeps _ _ _ ?_
          with_reducible exact hs

theorem trimStageWrite_keeps (off : Nat) (w : Nat) (s : State) (hs : Mem Q s) : Mem Q (trimStageWrite off w s) := by
  unfold trimStageWrite
  extract_lets -merge +onlyGivenNames a1 a2 a3
  try clear_value a1
  try clear_value a2
  try clear_value a3
  with_reducible refine keep_ite ?_ ?_
  · with_reducible refine State.detect_keeps _ _ ?_
    with_reducible exact hs
  · with_reducible refine keep_ite ?_ ?_
    · with_reducible refine State.showTrim_keeps _ ?_
      with_reducible refine State.storeWord_keeps _ _ _ ?_
      with_reducible exact hs
    · with_reducible refine State.detect_keeps _ _ ?_
      with_reducible exact hs

theorem hqsWrite_keeps (off : Nat) (w : Nat) (s : State) (hs : Mem Q s) : Mem Q (hqsWrite off w s) := by
  unfold hqsWrite
  extract_lets -merge +onlyGivenNames a1
  try clear_value a1
  with_reducible refine keep_ite ?_ ?_
  · with_reducible refine acqHeadWrite_keeps _ _ ?_
    with_reducible exact hs
  · with_reducible refine keep_ite ?_ ?_
    · with_reducible refine adminQueueSetup_keeps _ _ _ ?_
      with_reducible exact hs
    · with_reducible refine keep_ite ?_ ?_
      · with_reducible refine hqsEnable_keeps _ _ ?_
        with_reducible exact hs
      · with_reducible refine keep_ite ?_ ?_
        · with_reducible refine keep_ite ?_ ?_
          · with_reducible exact hs
          · with_reducible refine State.holdLo_keeps _ _ _ ?_
            with_reducible exact hs
        · with_reducible refine keep_ite ?_ ?_
          · with_reducible refine keep_ite ?_ ?_
            · with_reducible exact hs
            · with_reducible refine State.basePair_keeps _ _ _ _ _ _ ?_
              with_reducible exact hs
          · with_reducible refine keep_ite ?_ ?_
            · with_reducible refine State.holdLo_keeps _ _ _ ?_
              with_reducible exact hs
            · with_reducible refine keep_ite ?_ ?_
              · with_reducible refine State.basePair_keeps _ _ _ _ _ _ ?_
                with_reducible exact hs
              · with_reducible refine State.storeWord_keeps _ _ _ ?_
                with_reducible exact hs

theorem cnpWrite_keeps (off : Nat) (w : Nat) (s : State) (hs : Mem Q s) : Mem Q (cnpWrite off w s) := by
  unfold cnpWrite
  extract_lets -merge +onlyGivenNames a1
  try clear_value a1
  with_reducible refine keep_ite ?_ ?_
  · with_reducible refine State.holdLo_keeps _ _ _ ?_
    with_reducible exact hs
  · with_reducible refine keep_ite ?_ ?_
    · with_reducible refine State.edited_keeps _ _ ?_ ?_
      · with_reducible exact hs
      · with_reducible refine State.shadowPair_keeps _ _ _ _ ?_
        with_reducible exact hs
    · with_reducible refine keep_ite ?_ ?_
      · with_reducible refine keep_ite ?_ ?_
        · with_reducible refine State.edited_keeps _ _ ?_ ?_
          · with_reducible exact hs
          · with_reducible refine State.setShadow_keeps _ _ ?_
            with_reducible exact hs
        · with_reducible exact hs
      · with_reducible refine keep_ite ?_ ?_
        · with_reducible refine gladeRelease_keeps _ _ ?_
          with_reducible exact hs
        · with_reducible refine State.storeWord_keeps _ _ _ ?_
          with_reducible exact hs

theorem frmCtrlWrite_keeps (w : Nat) (s : State) (hs : Mem Q s) : Mem Q (frmCtrlWrite w s) := by
  unfold frmCtrlWrite
  with_reducible refine keep_ite ?_ ?_
  · with_reducible refine keep_ite ?_ ?_
    · with_reducible refine frmRun_keeps _ ?_
      with_reducible exact hs
    · with_reducible refine keep_ite ?_ ?_
      · with_reducible refine frmReseed_keeps _ ?_
        with_reducible exact hs
      · with_reducible exact hs
  · with_reducible refine keep_ite ?_ ?_
    · with_reducible refine frmStop_keeps _ ?_
      with_reducible exact hs
    · with_reducible exact hs

theorem audWrite_keeps (off : Nat) (w : Nat) (s : State) (hs : Mem Q s) : Mem Q (audWrite off w s) := by
  unfold audWrite
  with_reducible refine keep_ite ?_ ?_
  · with_reducible refine keep_ite ?_ ?_
    · with_reducible refine audioRun_keeps _ ?_
      with_reducible exact hs
    · with_reducible refine keep_ite ?_ ?_
      · with_reducible refine State.audioStop_keeps _ ?_
        with_reducible exact hs
      · with_reducible exact hs
  · with_reducible refine keep_ite ?_ ?_
    · with_reducible refine State.holdLo_keeps _ _ _ ?_
      with_reducible exact hs
    · with_reducible refine keep_ite ?_ ?_
      · with_reducible refine keep_ite ?_ ?_
        · with_reducible exact hs
        · with_reducible refine State.basePair_keeps _ _ _ _ _ _ ?_
          with_reducible exact hs
      · with_reducible refine State.storeWord_keeps _ _ _ ?_
        with_reducible exact hs

theorem State.hostId_keeps (s : State) (id : Nat) (hs : Mem Q s) : Mem Q (State.hostId s id) := by
  unfold State.hostId
  extract_lets -merge +onlyGivenNames a1 a2
  have ha1 : Mem Q a1 := by
    subst a1
    with_reducible refine State.setTileId_keeps _ _ _ ?_
    with_reducible exact hs
  try clear_value a1
  try clear_value a2
  with_reducible refine keep_ite ?_ ?_
  · with_reducible refine State.unstage_keeps _ ?_
    with_reducible exact ha1
  · unfold Mem; dsimp only; refine mem_in ?_
    with_reducible exact ha1

theorem netWrite_keeps (off : Nat) (w : Nat) (s : State) (hs : Mem Q s) : Mem Q (netWrite off w s) := by
  unfold netWrite
  extract_lets -merge +onlyGivenNames a1 a2
  try clear_value a1
  try clear_value a2
  with_reducible refine keep_ite ?_ ?_
  · with_reducible refine netModeWrite_keeps _ _ _ ?_
    with_reducible exact hs
  · with_reducible refine keep_ite ?_ ?_
    · with_reducible refine State.holdLo_keeps _ _ _ ?_
      with_reducible exact hs
    · with_reducible refine keep_ite ?_ ?_
      · with_reducible refine State.basePair_keeps _ _ _ _ _ _ ?_
        with_reducible exact hs
      · with_reducible refine State.storeWord_keeps _ _ _ ?_
        with_reducible exact hs

theorem State.adoptId_keeps (s : State) (id : Nat) (hs : Mem Q s) : Mem Q (State.adoptId s id) := by
  unfold State.adoptId
  extract_lets -merge +onlyGivenNames a1 a2
  have ha1 : Mem Q a1 := by
    subst a1
    with_reducible refine State.hostId_keeps _ _ ?_
    with_reducible exact hs
  try clear_value a1
  try clear_value a2
  unfold Mem; dsimp only; refine mem_in ?_
  with_reducible exact ha1

theorem glbWrite_keeps (off : Nat) (w : Nat) (s : State) (hs : Mem Q s) : Mem Q (glbWrite off w s) := by
  unfold glbWrite
  with_reducible refine keep_ite ?_ ?_
  · with_reducible refine keep_ite ?_ ?_
    · with_reducible refine State.hostId_keeps _ _ ?_
      with_reducible exact hs
    · with_reducible exact hs
  · with_reducible refine keep_ite ?_ ?_
    · with_reducible refine keep_ite ?_ ?_
      · with_reducible refine State.wr_keeps _ _ _ ?_
        with_reducible exact hs
      · with_reducible exact hs
    · with_reducible refine keep_ite ?_ ?_
      · with_reducible refine State.feedUpdate_keeps _ ?_
        with_reducible refine State.storeWord_keeps _ _ _ ?_
        with_reducible exact hs
      · with_reducible refine keep_ite ?_ ?_
        · with_reducible refine keep_ite ?_ ?_
          · with_reducible refine epochAdvance_keeps _ ?_
            with_reducible exact hs
          · with_reducible exact hs
        · with_reducible refine keep_ite ?_ ?_
          · with_reducible refine maskWrite_keeps _ _ _ ?_
            with_reducible exact hs
          · with_reducible refine State.storeWord_keeps _ _ _ ?_
            with_reducible exact hs

theorem trlCtrlWrite_keeps (k : Nat) (w : Nat) (s : State) (hs : Mem Q s) : Mem Q (trlCtrlWrite k w s) := by
  unfold trlCtrlWrite
  extract_lets -merge +onlyGivenNames a1 a2 a3
  have ha1 : Mem Q a1 := by
    subst a1
    with_reducible refine State.wr_keeps _ _ _ ?_
    with_reducible refine State.wr_keeps _ _ _ ?_
    with_reducible exact hs
  try clear_value a1
  have ha2 : Mem Q a2 := by
    subst a2
    with_reducible refine keep_ite ?_ ?_
    · with_reducible exact ha1
    · with_reducible refine keep_ite ?_ ?_
      · with_reducible refine trlEnable_keeps _ _ ?_
        with_reducible exact ha1
      · with_reducible refine trlDisable_keeps _ _ ?_
        with_reducible exact ha1
  try clear_value a2
  have ha3 : Mem Q a3 := by
    subst a3
    with_reducible refine keep_ite ?_ ?_
    · with_reducible exact ha2
    · with_reducible refine keep_ite ?_ ?_
      · with_reducible refine dormantEnter_keeps _ _ ?_
        with_reducible exact ha2
      · with_reducible refine dormantClear_keeps _ _ ?_
        with_reducible exact ha2
  try clear_value a3
  with_reducible refine keep_ite ?_ ?_
  · with_reducible refine retrain_keeps _ _ ?_
    with_reducible exact ha3
  · with_reducible exact ha3

theorem State.act_keeps (s : State) (off : Nat) (w : Nat) (hs : Mem Q s) : Mem Q (State.act s off w) := by
  unfold State.act
  extract_lets -merge +onlyGivenNames a1 a2 a3
  try clear_value a1
  try clear_value a2
  have ha3 : Mem Q a3 := by
    subst a3
    with_reducible refine State.storeWord_keeps _ _ _ ?_
    with_reducible exact hs
  try clear_value a3
  with_reducible refine keep_ite ?_ ?_
  · with_reducible exact hs
  · with_reducible refine keep_ite ?_ ?_
    · with_reducible refine State.headerWrite_keeps _ _ _ _ ?_
      with_reducible exact hs
    · with_reducible refine keep_ite ?_ ?_
      · with_reducible refine glbWrite_keeps _ _ _ ?_
        with_reducible exact hs
      · with_reducible refine keep_ite ?_ ?_
        · with_reducible refine rootCfgWrite_keeps _ _ ?_
          with_reducible exact hs
        · with_reducible refine keep_ite ?_ ?_
          · with_reducible refine frmCfgWrite_keeps _ _ ?_
            with_reducible exact hs
          · with_reducible refine keep_ite ?_ ?_
            · with_reducible refine frmCtrlWrite_keeps _ _ ?_
              with_reducible exact hs
            · with_reducible refine keep_ite ?_ ?_
              · with_reducible refine hqsWrite_keeps _ _ _ ?_
                with_reducible exact hs
              · with_reducible refine keep_ite ?_ ?_
                · with_reducible refine keep_ite ?_ ?_
                  · with_reducible refine trlCtrlWrite_keeps _ _ _ ?_
                    with_reducible exact hs
                  · with_reducible refine keep_ite ?_ ?_
                    · with_reducible refine txeqWrite_keeps _ _ _ ?_
                      with_reducible exact hs
                    · with_reducible refine State.storeWord_keeps _ _ _ ?_
                      with_reducible exact hs
                · with_reducible refine keep_ite ?_ ?_
                  · with_reducible refine netWrite_keeps _ _ _ ?_
                    with_reducible exact hs
                  · with_reducible refine keep_ite ?_ ?_
                    · with_reducible refine keep_ite ?_ ?_
                      · with_reducible refine timeSet_keeps _ ?_
                        with_reducible exact hs
                      · with_reducible exact hs
                    · with_reducible refine keep_ite ?_ ?_
                      · with_reducible refine cnpWrite_keeps _ _ _ ?_
                        with_reducible exact hs
                      · with_reducible refine keep_ite ?_ ?_
                        · with_reducible refine State.edited_keeps _ _ ?_ ?_
                          · with_reducible exact hs
                          · with_reducible refine State.setShadow_keeps _ _ ?_
                            with_reducible exact hs
                        · with_reducible refine keep_ite ?_ ?_
                          · with_reducible refine brnWrite_keeps _ _ _ ?_
                            with_reducible exact hs
                          · with_reducible refine keep_ite ?_ ?_
                            · with_reducible refine audWrite_keeps _ _ _ ?_
                              with_reducible exact hs
                            · with_reducible refine keep_ite ?_ ?_
                              · with_reducible refine State.storeWord_keeps _ _ _ ?_
                                with_reducible refine State.notePace_keeps _ ?_
                                with_reducible exact hs
                              · with_reducible refine keep_ite ?_ ?_
                                · with_reducible refine keep_ite ?_ ?_
                                  · with_reducible refine peakReset_keeps _ ?_
                                    with_reducible exact hs
                                  · with_reducible exact hs
                                · with_reducible refine keep_ite ?_ ?_
                                  · with_reducible refine keep_ite ?_ ?_
                                    · with_reducible refine trimApply_keeps _ ?_
                                      with_reducible exact ha3
                                    · with_reducible exact ha3
                                  · with_reducible refine keep_ite ?_ ?_
                                    · with_reducible refine trimStageWrite_keeps _ _ _ ?_
                                      with_reducible exact hs
                                    · with_reducible refine keep_ite ?_ ?_
                                      · with_reducible refine keep_ite ?_ ?_
                                        · with_reducible refine State.holdLo_keeps _ _ _ ?_
                                          with_reducible exact hs
                                        · with_reducible exact hs
                                      · with_reducible refine keep_ite ?_ ?_
                                        · with_reducible refine keep_ite ?_ ?_
                                          · with_reducible refine State.basePair_keeps _ _ _ _ _ _ ?_
                                            with_reducible exact hs
                                          · with_reducible exact hs
                                        · with_reducible refine State.storeWord_keeps _ _ _ ?_
                                          with_reducible exact hs

theorem State.afterReply_keeps (s : State) (hs : Mem Q s) : Mem Q (State.afterReply s) := by
  unfold State.afterReply
  extract_lets -merge +onlyGivenNames a1 a2 a3
  try clear_value a1
  try clear_value a2
  have ha3 : Mem Q a3 := by
    subst a3
    unfold Mem; dsimp only; refine mem_in ?_
    with_reducible exact hs
  try clear_value a3
  refine keep_foldl ?_ ?_
  · with_reducible exact ha3
  · intro x1 x2 h1
    with_reducible refine keep_ite ?_ ?_
    · with_reducible refine State.adoptId_keeps _ _ ?_
      with_reducible exact h1
    · with_reducible refine State.act_keeps _ _ _ ?_
      with_reducible exact h1

theorem State.regWrite_keeps (s : State) (off : Nat) (v : Nat) (mask : Nat) (trail : Bool) (hs : Mem Q s) : Mem Q (State.regWrite s off v mask trail) := by
  unfold State.regWrite
  extract_lets -merge +onlyGivenNames a1 a2
  try clear_value a1
  try clear_value a2
  with_reducible refine keep_ite ?_ ?_
  · with_reducible exact hs
  · split <;> first
      | (with_reducible refine State.deny_keeps _ _ _ _ ?_
         with_reducible exact hs)
      | (with_reducible refine keep_ite ?_ ?_
         · unfold Mem; dsimp only; refine mem_in ?_
           with_reducible exact hs
         · with_reducible refine State.act_keeps _ _ _ ?_
           with_reducible exact hs)

theorem tileIdWrite_keeps (v : Word) (trail : Bool) (s : State) (hs : Mem Q s) : Mem Q (tileIdWrite v trail s) := by
  unfold tileIdWrite
  with_reducible refine keep_ite ?_ ?_
  · with_reducible exact hs
  · with_reducible refine keep_ite ?_ ?_
    · with_reducible refine keep_ite ?_ ?_
      · with_reducible exact hs
      · with_reducible refine State.adoptId_keeps _ _ ?_
        with_reducible exact hs
    · with_reducible refine State.regWrite_keeps _ _ _ _ _ ?_
      with_reducible exact hs

theorem registerWrite_keeps (off : Nat) (v : Word) (be : BitVec 4) (s : State) (hs : Mem Q s) : Mem Q (registerWrite off v be s) := by
  unfold registerWrite
  extract_lets -merge +onlyGivenNames a1
  try clear_value a1
  with_reducible refine keep_ite ?_ ?_
  · with_reducible refine keep_ite ?_ ?_
    · with_reducible refine State.msixWrite_keeps _ _ _ ?_
      with_reducible exact hs
    · with_reducible exact hs
  · with_reducible refine keep_ite ?_ ?_
    · with_reducible exact hs
    · with_reducible refine keep_ite ?_ ?_
      · with_reducible refine State.regWrite_keeps _ _ _ _ _ ?_
        with_reducible exact hs
      · with_reducible refine keep_ite ?_ ?_
        · with_reducible exact hs
        · with_reducible refine State.deny_keeps _ _ _ _ ?_
          with_reducible exact hs

theorem execTileIdWrite_keeps (v : Word) (trail : Bool) (s : State) (hs : Mem Q s) : OutMem Q (execTileIdWrite v trail s) := by
  unfold execTileIdWrite
  with_reducible refine onLive_keeps _ _ ?_ ?_
  · with_reducible exact hs
  · intro x1 h1
    with_reducible refine tileIdWrite_keeps _ _ _ ?_
    with_reducible exact h1

theorem shadowFieldWrite_keeps (off : Nat) (v : Word) (s : State) (hs : Mem Q s) : Mem Q (shadowFieldWrite off v s) := by
  unfold shadowFieldWrite
  with_reducible refine keep_ite ?_ ?_
  · with_reducible refine State.regWrite_keeps _ _ _ _ _ ?_
    with_reducible exact hs
  · with_reducible exact hs

theorem loHiPairWrite_keeps (off : Nat) (v : Word) (s : State) (hs : Mem Q s) : Mem Q (loHiPairWrite off v s) := by
  unfold loHiPairWrite
  with_reducible refine keep_ite ?_ ?_
  · with_reducible refine State.regWrite_keeps _ _ _ _ _ ?_
    with_reducible exact hs
  · with_reducible exact hs

theorem execLoHiPairWrite_keeps (off : Nat) (v : Word) (s : State) (hs : Mem Q s) : OutMem Q (execLoHiPairWrite off v s) := by
  unfold execLoHiPairWrite
  with_reducible refine onLive_keeps _ _ ?_ ?_
  · with_reducible exact hs
  · intro x1 h1
    with_reducible refine loHiPairWrite_keeps _ _ _ ?_
    with_reducible exact h1

theorem execRegisterWrite_keeps (off : Nat) (v : Word) (be : BitVec 4) (s : State) (hs : Mem Q s) : OutMem Q (execRegisterWrite off v be s) := by
  unfold execRegisterWrite
  with_reducible refine onLive_keeps _ _ ?_ ?_
  · with_reducible exact hs
  · intro x1 h1
    with_reducible refine registerWrite_keeps _ _ _ _ ?_
    with_reducible exact h1

theorem execShadowFieldWrite_keeps (off : Nat) (v : Word) (s : State) (hs : Mem Q s) : OutMem Q (execShadowFieldWrite off v s) := by
  unfold execShadowFieldWrite
  with_reducible refine onLive_keeps _ _ ?_ ?_
  · with_reducible exact hs
  · intro x1 h1
    with_reducible refine shadowFieldWrite_keeps _ _ _ ?_
    with_reducible exact h1

theorem execJtagInstruction_keeps (i : TapInstr) (s : State) (hs : Mem Q s) : OutMem Q (execJtagInstruction i s) := by
  unfold execJtagInstruction
  with_reducible refine out_next ?_
  with_reducible refine State.noteHiz_keeps _ ?_
  unfold Mem; dsimp only; refine mem_in ?_
  with_reducible exact hs

theorem State.setPlainQ_keeps (s : State) (p : Nat) (l : List TimedTx) (hs : Mem Q s) : Mem Q (State.setPlainQ s p l) := by
  unfold State.setPlainQ
  extract_lets -merge +onlyGivenNames a1 a2
  try clear_value a1
  try clear_value a2
  with_reducible refine keep_ite ?_ ?_
  · unfold Mem; dsimp only; refine mem_in ?_
    with_reducible exact hs
  · unfold Mem; dsimp only; refine mem_in ?_
    with_reducible exact hs

theorem State.setBusy_keeps (s : State) (p : Nat) (c : Nat) (hs : Mem Q s) : Mem Q (State.setBusy s p c) := by
  unfold State.setBusy
  extract_lets -merge +onlyGivenNames a1 a2
  try clear_value a1
  try clear_value a2
  with_reducible refine keep_ite ?_ ?_
  · unfold Mem; dsimp only; refine mem_in ?_
    with_reducible exact hs
  · unfold Mem; dsimp only; refine mem_in ?_
    with_reducible exact hs

theorem State.startTx_keeps (s : State) (p : Nat) (cycle : Nat) (n : Nat) (hs : Mem Q s) : Mem Q (State.startTx s p cycle n) := by
  unfold State.startTx
  extract_lets -merge +onlyGivenNames a1
  have ha1 : Mem Q a1 := by
    subst a1
    with_reducible refine State.advanceTo_keeps _ _ ?_
    with_reducible exact hs
  try clear_value a1
  with_reducible refine State.setBusy_keeps _ _ _ ?_
  with_reducible exact ha1

theorem State.sendPlain_keeps (W : WritesLm Q) (s : State) (p n : Nat) (hs : Mem Q s) : Mem Q (State.sendPlain s p n) := by
  induction n generalizing s with
  | zero => exact hs
  | succ n ih =>
    unfold State.sendPlain
    split
    · exact hs
    · rename_i x r _
      extract_lets a1 a2 a3 a4
      split
      · exact hs
      · refine ih _ ?_
        have h2 : Mem Q a2 := State.setPlainQ_keeps _ _ _ (State.startTx_keeps _ _ _ _ hs)
        clear_value a2
        have h3 : Mem Q a3 := State.sendFrame_keeps _ _ _ _ _ _ h2
        clear_value a3
        subst a4
        split
        · exact h3
        · exact State.finish_keeps W _ _ _ _ _ h3

theorem State.tryPlain_keeps (W : WritesLm Q) (s : State) (p : Nat) (hs : Mem Q s) : Mem Q (State.tryPlain s p) := by
  unfold State.tryPlain
  with_reducible refine State.sendPlain_keeps W _ _ _ ?_
  with_reducible exact hs

theorem timedLaunch_keeps (W : WritesLm Q) (p : Nat) (s : State) (hs : Mem Q s) : Mem Q (timedLaunch p s) := by
  unfold timedLaunch
  split <;> first
    | (with_reducible exact hs)
    | (extract_lets -merge +onlyGivenNames a1 a2 a3 a4
       have ha1 : Mem Q a1 := by
         subst a1
         with_reducible refine State.setTimedQ_keeps _ _ _ ?_
         with_reducible refine State.startTx_keeps _ _ _ _ ?_
         with_reducible exact hs
       try clear_value a1
       try clear_value a2
       have ha3 : Mem Q a3 := by
         subst a3
         with_reducible refine State.sendFrame_keeps _ _ _ _ _ _ ?_
         with_reducible exact ha1
       try clear_value a3
       have ha4 : Mem Q a4 := by
         subst a4
         with_reducible refine keep_ite ?_ ?_
         · with_reducible exact ha3
         · with_reducible refine State.finish_keeps W _ _ _ _ _ ?_
           with_reducible exact ha3
       try clear_value a4
       with_reducible refine keep_ite ?_ ?_
       · with_reducible exact hs
       · with_reducible refine State.tryPlain_keeps W _ _ ?_
         with_reducible exact ha4)

theorem txSend_keeps (W : WritesLm Q) (d : Desc) (src : HostData) (s : State) (hs : Mem Q s) : Mem Q (txSend d src s) := by
  unfold txSend
  extract_lets -merge +onlyGivenNames a1 a2 a3 a4 a5
  try clear_value a1
  try clear_value a2
  try clear_value a3
  try clear_value a4
  try clear_value a5
  with_reducible refine keep_ite ?_ ?_
  · with_reducible refine State.finish_keeps W _ _ _ _ _ ?_
    with_reducible exact hs
  · with_reducible refine keep_ite ?_ ?_
    · with_reducible exact hs
    · with_reducible refine keep_ite ?_ ?_
      · with_reducible refine State.finish_keeps W _ _ _ _ _ ?_
        with_reducible exact hs
      · with_reducible refine keep_ite ?_ ?_
        · with_reducible refine State.finish_keeps W _ _ _ _ _ ?_
          with_reducible exact hs
        · with_reducible refine keep_ite ?_ ?_
          · refine keep_foldl ?_ ?_
            · refine keep_foldl ?_ ?_
              · with_reducible refine State.starts_keeps _ _ ?_
                with_reducible exact hs
              · intro x1 x2 h1
                with_reducible refine State.setPlainQ_keeps _ _ _ ?_
                with_reducible exact h1
            · intro x3 x4 h2
              with_reducible refine State.tryPlain_keeps W _ _ ?_
              with_reducible exact h2
          · with_reducible refine keep_ite ?_ ?_
            · with_reducible refine State.finish_keeps W _ _ _ _ _ ?_
              refine keep_foldl ?_ ?_
              · with_reducible exact hs
              · intro x5 x6 h3
                extract_lets -merge +onlyGivenNames a6
                have ha6 : Mem Q a6 := by
                  subst a6
                  with_reducible refine State.startTx_keeps _ _ _ _ ?_
                  with_reducible exact h3
                try clear_value a6
                with_reducible refine State.sendFrame_keeps _ _ _ _ _ _ ?_
                with_reducible exact ha6
            · refine keep_foldl ?_ ?_
              · with_reducible refine State.starts_keeps _ _ ?_
                with_reducible exact hs
              · intro x7 x8 h4
                with_reducible refine State.setTimedQ_keeps _ _ _ ?_
                with_reducible exact h4

theorem State.sendRtp_keeps (W : WritesLm Q) (s : State) (flow : Nat) (o : Bytes) (due : Nat) (slack : Nat) (seq : Nat) (ts : Nat) (l : List Int) (payload : Bytes) (hs : Mem Q s) : Mem Q (State.sendRtp s flow o due slack seq ts l payload) := by
  unfold State.sendRtp
  refine keep_foldl ?_ ?_
  · with_reducible exact hs
  · intro x1 x2 h1
    extract_lets -merge +onlyGivenNames a1 a2 a3
    have ha1 : Mem Q a1 := by
      subst a1
      with_reducible refine State.startTx_keeps _ _ _ _ ?_
      with_reducible exact h1
    try clear_value a1
    try clear_value a2
    have ha3 : Mem Q a3 := by
      subst a3
      with_reducible refine State.emit_keeps _ _ ?_
      with_reducible exact ha1
    try clear_value a3
    with_reducible refine State.tryPlain_keeps W _ _ ?_
    with_reducible refine keep_ite ?_ ?_
    · with_reducible refine State.detect_keeps _ _ ?_
      with_reducible refine State.inc_keeps _ _ ?_
      with_reducible exact ha3
    · with_reducible exact ha3

theorem execTxSend_keeps (W : WritesLm Q) (d : Desc) (src : HostData) (s : State) (hs : Mem Q s) : OutMem Q (execTxSend d src s) := by
  unfold execTxSend
  with_reducible refine onOp_keeps W _ _ _ _ _ ?_ ?_
  · with_reducible exact hs
  · intro x1 h1
    with_reducible refine txSend_keeps W _ _ _ ?_
    with_reducible exact h1

theorem State.videoPkt_keeps (W : WritesLm Q) (s : State) (flow : Nat) (o : Bytes) (p : Bytes) (v : VideoTx) (hs : Mem Q s) : Mem Q (State.videoPkt s flow o p v) := by
  unfold State.videoPkt
  extract_lets -merge +onlyGivenNames a1 a2 a3
  try clear_value a1
  try clear_value a2
  have ha3 : Mem Q a3 := by
    subst a3
    unfold Mem; dsimp only; refine mem_in ?_
    with_reducible exact hs
  try clear_value a3
  with_reducible refine State.sendRtp_keeps W _ _ _ _ _ _ _ _ _ ?_
  with_reducible exact ha3

theorem execTimedLaunch_keeps (W : WritesLm Q) (port : Nat) (s : State) (hs : Mem Q s) : OutMem Q (execTimedLaunch port s) := by
  unfold execTimedLaunch
  with_reducible refine onLive_keeps _ _ ?_ ?_
  · with_reducible exact hs
  · intro x1 h1
    with_reducible refine timedLaunch_keeps W _ _ ?_
    with_reducible exact h1

theorem State.audioPkt_keeps (W : WritesLm Q) (s : State) (flow : Nat) (o : Bytes) (hs : Mem Q s) : Mem Q (State.audioPkt s flow o) := by
  unfold State.audioPkt
  extract_lets -merge +onlyGivenNames a1 a2 a3 a4 a5
  try clear_value a1
  try clear_value a2
  have ha3 : Mem Q a3 := by
    subst a3
    with_reducible refine State.advanceTo_keeps _ _ ?_
    with_reducible exact hs
  try clear_value a3
  have ha4 : Mem Q a4 := by
    subst a4
    with_reducible refine keep_ite ?_ ?_
    · with_reducible refine State.playUpTo_keeps W _ _ ?_
      with_reducible exact ha3
    · with_reducible exact ha3
  try clear_value a4
  try clear_value a5
  split <;> first
    | (with_reducible exact hs)
    | (extract_lets -merge +onlyGivenNames a6 a7 a8
       try clear_value a6
       try clear_value a7
       have ha8 : Mem Q a8 := by
         subst a8
         unfold Mem; dsimp only; refine mem_in ?_
         with_reducible exact ha4
       try clear_value a8
       with_reducible refine State.sendRtp_keeps W _ _ _ _ _ _ _ _ _ ?_
       with_reducible exact ha8)

theorem pacedLaunch_keeps (W : WritesLm Q) (flow : Nat) (s : State) (hs : Mem Q s) : Mem Q (pacedLaunch flow s) := by
  unfold pacedLaunch
  split <;> first
    | (with_reducible exact hs)
    | (split <;> first
         | (with_reducible exact hs)
         | (with_reducible refine keep_ite ?_ ?_
            · with_reducible exact hs
            · with_reducible refine keep_ite ?_ ?_
              · with_reducible refine State.audioPkt_keeps W _ _ _ ?_
                with_reducible exact hs
              · split <;> first
                  | (with_reducible refine State.videoPkt_keeps W _ _ _ _ _ ?_
                     with_reducible exact hs)
                  | (with_reducible exact hs)))

theorem execPacedLaunch_keeps (W : WritesLm Q) (flow : Nat) (s : State) (hs : Mem Q s) : OutMem Q (execPacedLaunch flow s) := by
  unfold execPacedLaunch
  with_reducible refine onLive_keeps _ _ ?_ ?_
  · with_reducible exact hs
  · intro x1 h1
    with_reducible refine pacedLaunch_keeps W _ _ ?_
    with_reducible exact h1

end Sys2Proof.Machine
end

