-- ==== Sys2Proof/Laws/KeepsReply.lean ====
section
/-! SUPPORT. The operations and meanings of Mailbox, Power, Reply keep any property of the stores and the straps that the writes they
make keep (see Laws/Memory.lean). -/

namespace Sys2Proof.Machine

variable {Q : Store → Store → StrapBalls → Prop}

theorem State.nextExpect_keeps (s : State) (e : BitVec 16) (hs : Mem Q s) : Mem Q (State.nextExpect s e) := by
  unfold State.nextExpect
  extract_lets -merge +onlyGivenNames a1
  try clear_value a1
  unfold Mem; dsimp only; refine mem_in ?_
  with_reducible exact hs

theorem State.ringWrite_keeps (W : WritesLm Q) (s : State) (q : Bytes) (idx n : Nat) (hs : Mem Q s) :
    Mem Q (State.ringWrite s q idx n) := by
  induction n generalizing s q idx with
  | zero => exact hs
  | succ n ih => exact ih _ _ _ (State.lmWrite_keeps W _ _ _ hs)

theorem State.mbxBad_keeps (s : State) (hs : Mem Q s) : Mem Q (State.mbxBad s) := by
  unfold State.mbxBad
  with_reducible refine State.inc_keeps _ _ ?_
  with_reducible exact hs

theorem regRead_keeps (q : Bytes) (s : State) (hs : Mem Q s) : Mem Q (regRead q s) := by
  unfold regRead
  extract_lets -merge +onlyGivenNames a1 a2 a3
  try clear_value a1
  try clear_value a2
  have ha3 : Mem Q a3.2 := by
    subst a3
    with_reducible refine State.regRead_keeps _ _ ?_
    with_reducible exact hs
  try clear_value a3
  with_reducible refine keep_ite ?_ ?_
  · with_reducible refine State.mbxBad_keeps _ ?_
    with_reducible exact hs
  · with_reducible refine keep_ite ?_ ?_
    · with_reducible refine State.pushMsg_keeps _ _ ?_
      with_reducible exact hs
    · with_reducible refine State.pushMsg_keeps _ _ ?_
      with_reducible exact ha3

theorem mailbox_keeps (W : WritesLm Q) (q : Bytes) (s : State) (hs : Mem Q s) : Mem Q (mailbox q s) := by
  unfold mailbox
  extract_lets -merge +onlyGivenNames a1 a2
  try clear_value a1
  try clear_value a2
  with_reducible refine keep_ite ?_ ?_
  · with_reducible refine State.mbxBad_keeps _ ?_
    with_reducible exact hs
  · with_reducible refine State.lmWrite_keeps W _ _ _ ?_
    with_reducible refine State.ringWrite_keeps W _ _ _ _ ?_
    with_reducible exact hs

theorem remoteWrite_keeps (W : WritesLm Q) (q : Bytes) (s : State) (hs : Mem Q s) : Mem Q (remoteWrite q s) := by
  unfold remoteWrite
  extract_lets -merge +onlyGivenNames a1 a2
  try clear_value a1
  try clear_value a2
  with_reducible refine keep_ite ?_ ?_
  · with_reducible refine State.mbxBad_keeps _ ?_
    with_reducible exact hs
  · with_reducible refine State.lmWrite_keeps W _ _ _ ?_
    with_reducible exact hs

theorem State.askReg_keeps (s : State) (d : Desc) (t : Nat) (l : MbxLink) (p : Bytes) (hs : Mem Q s) : Mem Q (State.askReg s d t l p) := by
  unfold State.askReg
  with_reducible refine State.linkSend_keeps _ _ _ ?_
  with_reducible refine State.setLink_keeps _ _ _ ?_
  with_reducible exact hs

theorem event_keeps (m : RetMsg) (ok : Bool) (s : State) (hs : Mem Q s) : Mem Q (event m ok s) := by
  unfold event
  extract_lets -merge +onlyGivenNames a1 a2
  try clear_value a1
  try clear_value a2
  with_reducible refine keep_ite ?_ ?_
  · with_reducible refine State.inc_keeps _ _ ?_
    with_reducible exact hs
  · split <;> first
      | (with_reducible refine keep_ite ?_ ?_
         · with_reducible refine State.postEntry_keeps _ _ _ _ ?_
           with_reducible exact hs
         · with_reducible refine State.haltCq_keeps _ _ _ ?_
           with_reducible exact hs)
      | (with_reducible refine State.detect_keeps _ _ ?_
         with_reducible refine State.inc_keeps _ _ ?_
         with_reducible exact hs)

theorem State.takeResync_keeps (W : WritesLm Q) (s : State) (k : Nat) (b : Bytes) (hs : Mem Q s) : Mem Q (State.takeResync s k b) := by
  unfold State.takeResync
  extract_lets -merge +onlyGivenNames a1 a2 a3 a4
  try clear_value a1
  have ha2 : Mem Q a2 := by
    subst a2
    with_reducible refine State.taken_keeps _ _ ?_
    with_reducible exact hs
  try clear_value a2
  try clear_value a3
  have ha4 : Mem Q a4 := by
    subst a4
    unfold Mem; dsimp only; refine mem_in ?_
    with_reducible exact ha2
  try clear_value a4
  with_reducible refine keep_ite ?_ ?_
  · with_reducible exact hs
  · with_reducible refine keep_ite ?_ ?_
    · with_reducible refine State.hdrBad_keeps _ _ ?_
      with_reducible exact hs
    · with_reducible refine keep_ite ?_ ?_
      · with_reducible refine State.mbxBad_keeps _ ?_
        with_reducible exact hs
      · with_reducible refine State.lmWrite_keeps W _ _ _ ?_
        with_reducible exact ha4

theorem State.sendData_keeps (s : State) (a : Nat) (bs : Bytes) (n : Nat) (hs : Mem Q s) : Mem Q (State.sendData s a bs n) := by
  induction n generalizing s a bs with
  | zero => exact hs
  | succ n ih =>
    unfold State.sendData
    split
    · exact hs
    · exact ih _ _ _ (State.pushReply_keeps _ _ hs)

theorem State.takeClass3_keeps (s : State) (k : Nat) (kind : Nat) (b : Bytes) (f : Bytes → State → State) (hs : Mem Q s) (hf : ∀ y0 y1, Mem Q y1 → Mem Q (f y0 y1)) : Mem Q (State.takeClass3 s k kind b f) := by
  unfold State.takeClass3
  extract_lets -merge +onlyGivenNames a1 a2 a3 a4 a5
  try clear_value a1
  try clear_value a2
  try clear_value a3
  try clear_value a4
  have ha5 : Mem Q a5 := by
    subst a5
    unfold Mem; dsimp only; refine mem_in ?_
    with_reducible exact hs
  try clear_value a5
  with_reducible refine keep_ite ?_ ?_
  · with_reducible exact hs
  · with_reducible refine keep_ite ?_ ?_
    · with_reducible refine State.hdrBad_keeps _ _ ?_
      with_reducible exact hs
    · split <;> first
        | (with_reducible exact hs)
        | (extract_lets -merge +onlyGivenNames a6
           have ha6 : Mem Q a6 := by
             subst a6
             with_reducible refine State.nextExpect_keeps _ _ ?_
             with_reducible refine State.taken_keeps _ _ ?_
             with_reducible exact ha5
           try clear_value a6
           with_reducible refine keep_ite ?_ ?_
           · with_reducible refine keep_ite ?_ ?_
             · with_reducible refine State.mbxBad_keeps _ ?_
               with_reducible exact ha6
             · with_reducible refine hf _ _ ?_
               with_reducible exact ha6
           · with_reducible refine keep_ite ?_ ?_
             · with_reducible refine State.dup_keeps _ _ ?_
               with_reducible exact ha5
             · with_reducible exact ha5)

theorem onClass3_keeps (port : Nat) (index : Nat) (kind : Nat) (slot : Bytes) (f : Bytes → State → State) (s : State) (hf : ∀ y0 y1, Mem Q y1 → Mem Q (f y0 y1)) (hs : Mem Q s) : OutMem Q (onClass3 port index kind slot f s) := by
  unfold onClass3
  with_reducible refine onLive_keeps _ _ ?_ ?_
  · with_reducible exact hs
  · intro x1 h1
    with_reducible refine onPort_keeps _ _ _ ?_ ?_
    · intro x2 h2
      with_reducible refine State.onCopy_keeps _ _ _ _ _ _ ?_ ?_
      · with_reducible exact h2
      · intro x3 h3
        with_reducible refine keep_ite ?_ ?_
        · with_reducible refine State.takeClass3_keeps _ _ _ _ _ ?_ ?_
          · with_reducible exact h3
          · intro x4 x5 h4
            with_reducible refine hf _ _ ?_
            with_reducible exact h4
        · with_reducible exact h3
    · with_reducible exact h1

theorem execResync_keeps (W : WritesLm Q) (port : Nat) (index : Nat) (slot : Bytes) (s : State) (hs : Mem Q s) : OutMem Q (execResync port index slot s) := by
  unfold execResync
  with_reducible refine onLive_keeps _ _ ?_ ?_
  · with_reducible exact hs
  · intro x1 h1
    with_reducible refine onPort_keeps _ _ _ ?_ ?_
    · intro x2 h2
      with_reducible refine State.onCopy_keeps _ _ _ _ _ _ ?_ ?_
      · with_reducible exact h2
      · intro x3 h3
        with_reducible refine keep_ite ?_ ?_
        · with_reducible refine State.takeResync_keeps W _ _ _ ?_
          with_reducible exact h3
        · with_reducible exact h3
    · with_reducible exact h1

theorem execRegRead_keeps (port : Nat) (index : Nat) (slot : Bytes) (s : State) (hs : Mem Q s) : OutMem Q (execRegRead port index slot s) := by
  unfold execRegRead
  with_reducible refine onClass3_keeps _ _ _ _ _ _ ?_ ?_
  · intro x1 x2 h1
    with_reducible refine regRead_keeps _ _ ?_
    with_reducible exact h1
  · with_reducible exact hs

theorem readReq_keeps (q : Bytes) (s : State) (hs : Mem Q s) : Mem Q (readReq q s) := by
  unfold readReq
  extract_lets -merge +onlyGivenNames a1 a2
  try clear_value a1
  try clear_value a2
  with_reducible refine keep_ite ?_ ?_
  · with_reducible refine State.mbxBad_keeps _ ?_
    with_reducible exact hs
  · with_reducible refine keep_ite ?_ ?_
    · with_reducible refine State.pushReply_keeps _ _ ?_
      with_reducible exact hs
    · with_reducible refine State.sendData_keeps _ _ _ _ ?_
      with_reducible exact hs

theorem execRemoteWrite_keeps (W : WritesLm Q) (port : Nat) (index : Nat) (slot : Bytes) (s : State) (hs : Mem Q s) : OutMem Q (execRemoteWrite port index slot s) := by
  unfold execRemoteWrite
  with_reducible refine onClass3_keeps _ _ _ _ _ _ ?_ ?_
  · intro x1 x2 h1
    with_reducible refine remoteWrite_keeps W _ _ ?_
    with_reducible exact h1
  · with_reducible exact hs

theorem execReadReq_keeps (port : Nat) (index : Nat) (slot : Bytes) (s : State) (hs : Mem Q s) : OutMem Q (execReadReq port index slot s) := by
  unfold execReadReq
  with_reducible refine onClass3_keeps _ _ _ _ _ _ ?_ ?_
  · intro x1 x2 h1
    with_reducible refine readReq_keeps _ _ ?_
    with_reducible exact h1
  · with_reducible exact hs

theorem execMailbox_keeps (W : WritesLm Q) (port : Nat) (index : Nat) (slot : Bytes) (s : State) (hs : Mem Q s) : OutMem Q (execMailbox port index slot s) := by
  unfold execMailbox
  with_reducible refine onClass3_keeps _ _ _ _ _ _ ?_ ?_
  · intro x1 x2 h1
    with_reducible refine mailbox_keeps W _ _ ?_
    with_reducible exact h1
  · with_reducible exact hs

theorem execEvent_keeps (m : RetMsg) (ok : Bool) (s : State) (hs : Mem Q s) : OutMem Q (execEvent m ok s) := by
  unfold execEvent
  with_reducible refine onRet_keeps _ _ _ _ ?_ ?_
  · intro x1 h1
    with_reducible refine event_keeps _ _ _ ?_
    with_reducible exact h1
  · with_reducible exact hs

theorem State.fetchMbx_keeps (W : WritesLm Q) (s : State) (hs : Mem Q s) : Mem Q (State.fetchMbx s) := by
  unfold State.fetchMbx
  extract_lets -merge +onlyGivenNames a1 a2 a3 a4 a5
  try clear_value a1
  try clear_value a2
  try clear_value a3
  try clear_value a4
  have ha5 : Mem Q a5 := by
    subst a5
    unfold Mem; dsimp only; refine mem_in ?_
    with_reducible exact hs
  try clear_value a5
  with_reducible refine keep_ite ?_ ?_
  · with_reducible refine State.finish_keeps W _ _ _ _ _ ?_
    with_reducible refine State.detect_keeps _ _ ?_
    with_reducible refine State.lmUncorr_keeps _ ?_
    with_reducible exact ha5
  · split <;> first
      | (with_reducible refine State.finish_keeps W _ _ _ _ _ ?_
         with_reducible exact ha5)
      | (with_reducible exact ha5)

theorem onTile_keeps (W : WritesLm Q) (d : Desc) (op : Nat) (f : Nat → MbxLink → State → State) (s : State) (hf : ∀ y0 y1 y2, Mem Q y2 → Mem Q (f y0 y1 y2)) (hs : Mem Q s) : Mem Q (onTile d op f s) := by
  unfold onTile
  extract_lets -merge +onlyGivenNames a1
  try clear_value a1
  with_reducible refine keep_ite ?_ ?_
  · with_reducible refine State.finish_keeps W _ _ _ _ _ ?_
    with_reducible exact hs
  · with_reducible refine keep_ite ?_ ?_
    · with_reducible refine State.finish_keeps W _ _ _ _ _ ?_
      with_reducible exact hs
    · with_reducible refine hf _ _ _ ?_
      with_reducible refine State.starts_keeps _ _ ?_
      with_reducible exact hs

theorem State.finishIf_keeps (W : WritesLm Q) (s : State) (d : Desc) (status : Nat) (result : Nat) (hs : Mem Q s) : Mem Q (State.finishIf s d status result) := by
  unfold State.finishIf
  split <;> first
    | (with_reducible refine State.finish_keeps W _ _ _ _ _ ?_
       with_reducible exact hs)
    | (with_reducible exact hs)

theorem tileRegRead_keeps (W : WritesLm Q) (d : Desc) (s : State) (hs : Mem Q s) : Mem Q (tileRegRead d s) := by
  unfold tileRegRead
  with_reducible refine keep_ite ?_ ?_
  · with_reducible refine State.finish_keeps W _ _ _ _ _ ?_
    with_reducible exact hs
  · with_reducible refine keep_ite ?_ ?_
    · with_reducible refine State.finish_keeps W _ _ _ _ _ ?_
      with_reducible exact hs
    · with_reducible refine onTile_keeps W _ _ _ _ ?_ ?_
      · intro x1 x2 x3 h1
        with_reducible refine State.askReg_keeps _ _ _ _ _ ?_
        with_reducible exact h1
      · with_reducible exact hs

theorem tileRead_keeps (W : WritesLm Q) (d : Desc) (s : State) (hs : Mem Q s) : Mem Q (tileRead d s) := by
  unfold tileRead
  extract_lets -merge +onlyGivenNames a1
  try clear_value a1
  split <;> first
    | (with_reducible refine State.finish_keeps W _ _ _ _ _ ?_
       with_reducible exact hs)
    | (with_reducible refine onTile_keeps W _ _ _ _ ?_ ?_
       · intro x1 x2 x3 h1
         with_reducible refine State.linkSend_keeps _ _ _ ?_
         with_reducible refine State.setLink_keeps _ _ _ ?_
         with_reducible exact h1
       · with_reducible exact hs)

theorem tileWrite_keeps (W : WritesLm Q) (d : Desc) (src : HostData) (s : State) (hs : Mem Q s) : Mem Q (tileWrite d src s) := by
  unfold tileWrite
  extract_lets -merge +onlyGivenNames a1 a2
  try clear_value a1
  try clear_value a2
  split <;> first
    | (with_reducible refine State.finish_keeps W _ _ _ _ _ ?_
       with_reducible exact hs)
    | (with_reducible refine onTile_keeps W _ _ _ _ ?_ ?_
       · intro x1 x2 x3 h1
         extract_lets -merge +onlyGivenNames a3
         try clear_value a3
         with_reducible refine keep_ite ?_ ?_
         · with_reducible refine State.finish_keeps W _ _ _ _ _ ?_
           with_reducible exact h1
         · with_reducible refine State.pumpLink_keeps _ _ ?_
           with_reducible refine State.setLink_keeps _ _ _ ?_
           with_reducible exact h1
       · with_reducible exact hs)

theorem completion_keeps (W : WritesLm Q) (m : RetMsg) (s : State) (hs : Mem Q s) : Mem Q (completion m s) := by
  unfold completion
  extract_lets -merge +onlyGivenNames a1 a2 a3
  try clear_value a1
  try clear_value a2
  try clear_value a3
  split <;> first
    | (with_reducible exact hs)
    | (extract_lets -merge +onlyGivenNames a4 a5 a6 a7
       try clear_value a4
       have ha5 : Mem Q a5 := by
         subst a5
         with_reducible refine State.setLink_keeps _ _ _ ?_
         with_reducible exact hs
       try clear_value a5
       have ha6 : Mem Q a6 := by
         subst a6
         refine keep_foldl ?_ ?_
         · with_reducible exact ha5
         · intro x1 x2 h1
           with_reducible refine State.finishIf_keeps W _ _ _ _ ?_
           with_reducible exact h1
       try clear_value a6
       try clear_value a7
       split <;> first
         | (with_reducible exact ha6)
         | (with_reducible refine settleDeletes_keeps _ _ ?_
            unfold Mem; dsimp only; refine mem_in ?_
            with_reducible exact ha6))

theorem execTileRegRead_keeps (W : WritesLm Q) (d : Desc) (s : State) (hs : Mem Q s) : OutMem Q (execTileRegRead d s) := by
  unfold execTileRegRead
  with_reducible refine onOp_keeps W _ _ _ _ _ ?_ ?_
  · with_reducible exact hs
  · intro x1 h1
    with_reducible refine tileRegRead_keeps W _ _ ?_
    with_reducible exact h1

theorem execCompletion_keeps (W : WritesLm Q) (m : RetMsg) (s : State) (hs : Mem Q s) : OutMem Q (execCompletion m s) := by
  unfold execCompletion
  with_reducible refine onRet_keeps _ _ _ _ ?_ ?_
  · intro x1 h1
    with_reducible refine completion_keeps W _ _ ?_
    with_reducible exact h1
  · with_reducible exact hs

theorem State.fetchTo_keeps (W : WritesLm Q) (s : State) (tail n : Nat) (hs : Mem Q s) : Mem Q (State.fetchTo s tail n) := by
  induction n generalizing s with
  | zero => exact hs
  | succ n ih =>
    unfold State.fetchTo
    split
    · exact hs
    · exact ih _ (State.fetchMbx_keeps W _ hs)

theorem State.dropLink_keeps (W : WritesLm Q) (s : State) (t : Nat) (hs : Mem Q s) : Mem Q (State.dropLink s t) := by
  unfold State.dropLink
  extract_lets -merge +onlyGivenNames a1 a2 a3 a4
  try clear_value a1
  try clear_value a2
  try clear_value a3
  have ha4 : Mem Q a4 := by
    subst a4
    with_reducible refine State.setLink_keeps _ _ _ ?_
    with_reducible exact hs
  try clear_value a4
  refine keep_foldl ?_ ?_
  · with_reducible exact ha4
  · intro x1 x2 h1
    with_reducible refine State.finishIf_keeps W _ _ _ _ ?_
    with_reducible exact h1

theorem tileRegWrite_keeps (W : WritesLm Q) (d : Desc) (s : State) (hs : Mem Q s) : Mem Q (tileRegWrite d s) := by
  unfold tileRegWrite
  with_reducible refine keep_ite ?_ ?_
  · with_reducible refine State.finish_keeps W _ _ _ _ _ ?_
    with_reducible exact hs
  · with_reducible refine keep_ite ?_ ?_
    · with_reducible refine State.finish_keeps W _ _ _ _ _ ?_
      with_reducible exact hs
    · with_reducible refine onTile_keeps W _ _ _ _ ?_ ?_
      · intro x1 x2 x3 h1
        with_reducible refine State.askReg_keeps _ _ _ _ _ ?_
        with_reducible exact h1
      · with_reducible exact hs

theorem readData_keeps (W : WritesLm Q) (m : RetMsg) (ok : Bool) (s : State) (hs : Mem Q s) : Mem Q (readData m ok s) := by
  unfold readData
  extract_lets -merge +onlyGivenNames a1 a2 a3
  try clear_value a1
  try clear_value a2
  try clear_value a3
  split <;> first
    | (with_reducible exact hs)
    | (extract_lets -merge +onlyGivenNames a4 a5
       try clear_value a4
       have ha5 : Mem Q a5 := by
         subst a5
         with_reducible refine State.emit_keeps _ _ ?_
         with_reducible exact hs
       try clear_value a5
       with_reducible refine keep_ite ?_ ?_
       · with_reducible refine State.finishIf_keeps W _ _ _ _ ?_
         with_reducible refine State.setLink_keeps _ _ _ ?_
         with_reducible exact hs
       · with_reducible refine keep_ite ?_ ?_
         · with_reducible refine State.finishIf_keeps W _ _ _ _ ?_
           with_reducible refine State.setLink_keeps _ _ _ ?_
           with_reducible exact hs
         · with_reducible refine keep_ite ?_ ?_
           · with_reducible refine State.finishIf_keeps W _ _ _ _ ?_
             with_reducible refine State.setLink_keeps _ _ _ ?_
             with_reducible exact ha5
           · with_reducible refine State.setLink_keeps _ _ _ ?_
             with_reducible exact ha5)

theorem mbxAck_keeps (W : WritesLm Q) (m : RetMsg) (s : State) (hs : Mem Q s) : Mem Q (mbxAck m s) := by
  unfold mbxAck
  extract_lets -merge +onlyGivenNames a1 a2 a3 a4 a5 a6 a7 a8 a9 a10
  try clear_value a1
  try clear_value a2
  try clear_value a3
  try clear_value a4
  try clear_value a5
  try clear_value a6
  try clear_value a7
  try clear_value a8
  have ha9 : Mem Q a9 := by
    subst a9
    with_reducible refine State.setLink_keeps _ _ _ ?_
    with_reducible exact hs
  try clear_value a9
  have ha10 : Mem Q a10 := by
    subst a10
    refine keep_foldl ?_ ?_
    · with_reducible exact ha9
    · intro x1 x2 h1
      with_reducible refine State.finishIf_keeps W _ _ _ _ ?_
      with_reducible exact h1
  try clear_value a10
  with_reducible refine keep_ite ?_ ?_
  · with_reducible exact hs
  · with_reducible refine State.pumpLink_keeps _ _ ?_
    with_reducible exact ha10

theorem execTileRead_keeps (W : WritesLm Q) (d : Desc) (s : State) (hs : Mem Q s) : OutMem Q (execTileRead d s) := by
  unfold execTileRead
  with_reducible refine onOp_keeps W _ _ _ _ _ ?_ ?_
  · with_reducible exact hs
  · intro x1 h1
    with_reducible refine tileRead_keeps W _ _ ?_
    with_reducible exact h1

theorem mbxRetransmit_keeps (W : WritesLm Q) (t : Nat) (s : State) (hs : Mem Q s) : Mem Q (mbxRetransmit t s) := by
  unfold mbxRetransmit
  extract_lets -merge +onlyGivenNames a1 a2 a3
  try clear_value a1
  have ha2 : Mem Q a2 := by
    subst a2
    with_reducible refine State.advanceTo_keeps _ _ ?_
    with_reducible exact hs
  try clear_value a2
  have ha3 : Mem Q a3 := by
    subst a3
    with_reducible refine State.setLink_keeps _ _ _ ?_
    with_reducible exact ha2
  try clear_value a3
  with_reducible refine keep_ite ?_ ?_
  · with_reducible exact hs
  · with_reducible refine keep_ite ?_ ?_
    · with_reducible refine State.detect_keeps _ _ ?_
      with_reducible refine State.dropLink_keeps W _ _ ?_
      with_reducible refine State.setLink_keeps _ _ _ ?_
      with_reducible exact ha2
    · refine keep_foldl ?_ ?_
      · with_reducible exact ha3
      · intro x1 x2 h1
        with_reducible refine State.queueUni_keeps _ _ _ ?_
        with_reducible exact h1

theorem regReply_keeps (W : WritesLm Q) (m : RetMsg) (s : State) (hs : Mem Q s) : Mem Q (regReply m s) := by
  unfold regReply
  extract_lets -merge +onlyGivenNames a1
  try clear_value a1
  split <;> first
    | (with_reducible exact hs)
    | (extract_lets -merge +onlyGivenNames a2
       have ha2 : Mem Q a2 := by
         subst a2
         with_reducible refine State.setLink_keeps _ _ _ ?_
         with_reducible exact hs
       try clear_value a2
       with_reducible refine State.finishIf_keeps W _ _ _ _ ?_
       with_reducible exact ha2)

theorem tileMailboxPoll_keeps (W : WritesLm Q) (s : State) (hs : Mem Q s) : Mem Q (tileMailboxPoll s) := by
  unfold tileMailboxPoll
  with_reducible refine keep_ite ?_ ?_
  · with_reducible exact hs
  · with_reducible refine State.fetchTo_keeps W _ _ _ ?_
    with_reducible exact hs

theorem mbxResync_keeps (W : WritesLm Q) (d : Desc) (s : State) (hs : Mem Q s) : Mem Q (mbxResync d s) := by
  unfold mbxResync
  extract_lets -merge +onlyGivenNames a1 a2 a3 a4
  try clear_value a1
  have ha2 : Mem Q a2 := by
    subst a2
    with_reducible refine State.dropLink_keeps W _ _ ?_
    with_reducible refine State.starts_keeps _ _ ?_
    with_reducible exact hs
  try clear_value a2
  try clear_value a3
  have ha4 : Mem Q a4 := by
    subst a4
    with_reducible refine State.setLink_keeps _ _ _ ?_
    with_reducible exact ha2
  try clear_value a4
  with_reducible refine keep_ite ?_ ?_
  · with_reducible refine State.finish_keeps W _ _ _ _ _ ?_
    with_reducible exact hs
  · with_reducible refine State.queueUni_keeps _ _ _ ?_
    with_reducible exact ha4

theorem execMbxAck_keeps (W : WritesLm Q) (m : RetMsg) (s : State) (hs : Mem Q s) : OutMem Q (execMbxAck m s) := by
  unfold execMbxAck
  with_reducible refine onRet_keeps _ _ _ _ ?_ ?_
  · intro x1 h1
    with_reducible refine mbxAck_keeps W _ _ ?_
    with_reducible exact h1
  · with_reducible exact hs

theorem execMbxRetransmit_keeps (W : WritesLm Q) (tile : Nat) (s : State) (hs : Mem Q s) : OutMem Q (execMbxRetransmit tile s) := by
  unfold execMbxRetransmit
  with_reducible refine onLive_keeps _ _ ?_ ?_
  · with_reducible exact hs
  · intro x1 h1
    with_reducible refine mbxRetransmit_keeps W _ _ ?_
    with_reducible exact h1

theorem execMbxResync_keeps (W : WritesLm Q) (d : Desc) (s : State) (hs : Mem Q s) : OutMem Q (execMbxResync d s) := by
  unfold execMbxResync
  with_reducible refine onOp_keeps W _ _ _ _ _ ?_ ?_
  · with_reducible exact hs
  · intro x1 h1
    with_reducible refine mbxResync_keeps W _ _ ?_
    with_reducible exact h1

theorem execTileRegWrite_keeps (W : WritesLm Q) (d : Desc) (s : State) (hs : Mem Q s) : OutMem Q (execTileRegWrite d s) := by
  unfold execTileRegWrite
  with_reducible refine onOp_keeps W _ _ _ _ _ ?_ ?_
  · with_reducible exact hs
  · intro x1 h1
    with_reducible refine tileRegWrite_keeps W _ _ ?_
    with_reducible exact h1

theorem execTileWrite_keeps (W : WritesLm Q) (d : Desc) (src : HostData) (s : State) (hs : Mem Q s) : OutMem Q (execTileWrite d src s) := by
  unfold execTileWrite
  with_reducible refine onOp_keeps W _ _ _ _ _ ?_ ?_
  · with_reducible exact hs
  · intro x1 h1
    with_reducible refine tileWrite_keeps W _ _ _ ?_
    with_reducible exact h1

theorem execReadData_keeps (W : WritesLm Q) (m : RetMsg) (ok : Bool) (s : State) (hs : Mem Q s) : OutMem Q (execReadData m ok s) := by
  unfold execReadData
  with_reducible refine onRet_keeps _ _ _ _ ?_ ?_
  · intro x1 h1
    with_reducible refine readData_keeps W _ _ _ ?_
    with_reducible exact h1
  · with_reducible exact hs

theorem execTileMailboxPoll_keeps (W : WritesLm Q) (s : State) (hs : Mem Q s) : OutMem Q (execTileMailboxPoll s) := by
  unfold execTileMailboxPoll
  with_reducible refine onLive_keeps _ _ ?_ ?_
  · with_reducible exact hs
  · intro x1 h1
    with_reducible refine tileMailboxPoll_keeps W _ ?_
    with_reducible exact h1

theorem execRegReply_keeps (W : WritesLm Q) (m : RetMsg) (s : State) (hs : Mem Q s) : OutMem Q (execRegReply m s) := by
  unfold execRegReply
  with_reducible refine onRet_keeps _ _ _ _ ?_ ?_
  · intro x1 h1
    with_reducible refine regReply_keeps W _ _ ?_
    with_reducible exact h1
  · with_reducible exact hs

theorem regWrite_keeps (q : Bytes) (s : State) (hs : Mem Q s) : Mem Q (regWrite q s) := by
  unfold regWrite
  extract_lets -merge +onlyGivenNames a1 a2 a3
  try clear_value a1
  try clear_value a2
  try clear_value a3
  with_reducible refine keep_ite ?_ ?_
  · with_reducible refine State.mbxBad_keeps _ ?_
    with_reducible exact hs
  · with_reducible refine keep_ite ?_ ?_
    · with_reducible refine State.pushMsg_keeps _ _ ?_
      with_reducible refine State.drawn_keeps _ ?_
      with_reducible exact hs
    · with_reducible refine State.pushMsg_keeps _ _ ?_
      with_reducible refine State.regWrite_keeps _ _ _ _ _ ?_
      with_reducible refine State.drawn_keeps _ ?_
      with_reducible exact hs

theorem execRegWrite_keeps (port : Nat) (index : Nat) (slot : Bytes) (s : State) (hs : Mem Q s) : OutMem Q (execRegWrite port index slot s) := by
  unfold execRegWrite
  with_reducible refine onClass3_keeps _ _ _ _ _ _ ?_ ?_
  · intro x1 x2 h1
    with_reducible refine regWrite_keeps _ _ ?_
    with_reducible exact h1
  · with_reducible exact hs

theorem execPerst_keeps (s : State) (hs : Mem Q s) : OutMem Q (execPerst s) := by
  unfold execPerst
  extract_lets -merge +onlyGivenNames a1
  try clear_value a1
  with_reducible refine out_next ?_
  unfold Mem; dsimp only; refine mem_in ?_
  with_reducible exact hs

theorem State.heldIn_keeps (R : Resets Q) (s : State) (ph : PowerPhase) (last : Nat) (hs : Mem Q s) : Mem Q (State.heldIn s ph last) :=
  R.1 _ _ _ hs

theorem execPornAssert_keeps (R : Resets Q) (s : State) (hs : Mem Q s) : OutMem Q (execPornAssert s) :=
  out_next (State.heldIn_keeps R _ _ _ hs)

theorem execSupplyReset_keeps (R : Resets Q) (rail : Nat) (s : State) (hs : Mem Q s) : OutMem Q (execSupplyReset rail s) := by
  unfold execSupplyReset
  refine out_next ?_
  split
  · exact State.heldIn_keeps R _ _ _ hs
  · exact hs

theorem State.releaseWith_keeps (R : Resets Q) (s : State) (straps : StrapBalls) (flag : Bool) (last : Nat) (supply : Bool)
    (ht : straps.test = false) (hs : Mem Q s) : Mem Q (State.releaseWith s straps flag last supply) := by
  unfold State.releaseWith
  extract_lets a1 a2 a3 a4 a5
  have h2 : Mem Q a2 := R.2 _ _ _ _ ht hs
  clear_value a2
  have h3 : Mem Q a3 := State.wr_keeps _ _ _ h2
  clear_value a3
  have h4 : Mem Q a4 := State.detectIf_keeps _ _ _ h3
  clear_value a4
  have h5 : Mem Q a5 := State.detectIf_keeps _ _ _ h4
  clear_value a5
  split
  · exact State.detect_keeps _ _ (show Mem Q ((a5.wr F.THM_STAT_SHUTDOWN 1).wr F.THM_STAT_SD_PRIOR 1) from
      State.wr_keeps _ _ _ (State.wr_keeps _ _ _ h5))
  · exact h5

theorem execSupplyResetRelease_keeps (R : Resets Q) (auxKept : Bool) (straps : StrapBalls) (s : State) (hs : Mem Q s) :
    OutMem Q (execSupplyResetRelease auxKept straps s) := by
  unfold execSupplyResetRelease
  split
  · exact out_refused
  · rename_i ht
    split
    · exact out_next (State.releaseWith_keeps R _ _ _ _ _ (by simpa using ht) hs)
    · exact out_next hs

theorem execPornRelease_keeps (R : Resets Q) (straps : StrapBalls) (s : State) (hs : Mem Q s) : OutMem Q (execPornRelease straps s) := by
  unfold execPornRelease
  split
  · exact out_refused
  · rename_i ht
    split
    · exact out_next (State.releaseWith_keeps R _ _ _ _ _ (by simpa using ht) hs)
    · exact out_next hs

theorem State.pruneBuilt_keeps (s : State) (hs : Mem Q s) : Mem Q (State.pruneBuilt s) := by
  unfold State.pruneBuilt
  extract_lets -merge +onlyGivenNames a1 a2 a3
  try clear_value a1
  try clear_value a2
  try clear_value a3
  unfold Mem; dsimp only; refine mem_in ?_
  with_reducible exact hs

theorem State.setBcast_keeps (s : State) (stream : Nat) (b : Bcast) (hs : Mem Q s) : Mem Q (State.setBcast s stream b) := by
  unfold State.setBcast
  extract_lets -merge +onlyGivenNames a1
  try clear_value a1
  unfold Mem; dsimp only; refine mem_in ?_
  with_reducible exact hs

theorem State.resumeReplies_keeps (s : State) (n : Nat) (hs : Mem Q s) : Mem Q (State.resumeReplies s n) := by
  induction n generalizing s with
  | zero => exact hs
  | succ n ih =>
    unfold State.resumeReplies
    split
    · exact hs
    · split
      · exact hs
      · exact ih _ (State.pushMsg_keeps _ _ hs)

theorem State.leaveEmpty_keeps (s : State) (k : Nat) (i : Nat) (hs : Mem Q s) : Mem Q (State.leaveEmpty s k i) := by
  unfold State.leaveEmpty
  with_reducible refine keep_ite ?_ ?_
  · with_reducible refine State.emit_keeps _ _ ?_
    with_reducible exact hs
  · with_reducible exact hs

theorem State.buildReturn_keeps (s : State) (hs : Mem Q s) : Mem Q (State.buildReturn s) := by
  unfold State.buildReturn
  extract_lets -merge +onlyGivenNames a1 a2 a3 a4
  try clear_value a1
  try clear_value a2
  try clear_value a3
  try clear_value a4
  with_reducible refine keep_ite ?_ ?_
  · with_reducible exact hs
  · with_reducible refine keep_ite ?_ ?_
    · with_reducible refine State.resumeReplies_keeps _ _ ?_
      unfold Mem; dsimp only; refine mem_in ?_
      with_reducible exact hs
    · split <;> first
        | (with_reducible exact hs)
        | (extract_lets -merge +onlyGivenNames a5
           try clear_value a5
           with_reducible refine keep_ite ?_ ?_
           · with_reducible exact hs
           · unfold Mem; dsimp only; refine mem_in ?_
             with_reducible exact hs)

theorem State.dropGap_keeps (s : State) (stream : Nat) (bid : BitVec 16) (hs : Mem Q s) : Mem Q (State.dropGap s stream bid) := by
  unfold State.dropGap
  extract_lets -merge +onlyGivenNames a1
  try clear_value a1
  with_reducible refine keep_ite ?_ ?_
  · unfold Mem; dsimp only; refine mem_in ?_
    with_reducible exact hs
  · with_reducible exact hs

theorem State.insertRsp_keeps (s : State) (k : Nat) (i : Nat) (w : EchoRspWait) (hs : Mem Q s) : Mem Q (State.insertRsp s k i w) := by
  unfold State.insertRsp
  extract_lets -merge +onlyGivenNames a1 a2
  try clear_value a1
  try clear_value a2
  with_reducible refine State.emit_keeps _ _ ?_
  unfold Mem; dsimp only; refine mem_in ?_
  with_reducible exact hs

theorem State.skipBcast_keeps (s : State) (bid : Nat) (hs : Mem Q s) : Mem Q (State.skipBcast s bid) := by
  unfold State.skipBcast
  extract_lets -merge +onlyGivenNames a1 a2
  have ha1 : Mem Q a1 := by
    subst a1
    with_reducible refine State.inc_keeps _ _ ?_
    with_reducible exact hs
  try clear_value a1
  try clear_value a2
  with_reducible refine keep_ite ?_ ?_
  · with_reducible exact hs
  · unfold Mem; dsimp only; refine mem_in ?_
    with_reducible exact ha1

theorem State.bcastAbort_keeps (s : State) (bid : BitVec 16) (hs : Mem Q s) : Mem Q (State.bcastAbort s bid) := by
  unfold State.bcastAbort
  extract_lets -merge +onlyGivenNames a1 a2
  try clear_value a1
  have ha2 : Mem Q a2 := by
    subst a2
    split <;> first
      | (with_reducible refine keep_ite ?_ ?_
         · unfold Mem; dsimp only; refine mem_in ?_
           with_reducible exact hs
         · with_reducible exact hs)
      | (with_reducible exact hs)
  try clear_value a2
  split <;> first
    | (with_reducible refine keep_ite ?_ ?_
       · with_reducible refine State.unstage_keeps _ ?_
         with_reducible exact ha2
       · with_reducible exact ha2)
    | (with_reducible exact ha2)

theorem State.askGap_keeps (s : State) (stream : Nat) (b : Bcast) (hs : Mem Q s) : Mem Q (State.askGap s stream b) := by
  unfold State.askGap
  extract_lets -merge +onlyGivenNames a1
  try clear_value a1
  split <;> first
    | (with_reducible exact hs)
    | (extract_lets -merge +onlyGivenNames a2
       try clear_value a2
       with_reducible refine State.detect_keeps _ _ ?_
       unfold Mem; dsimp only; refine mem_in ?_
       with_reducible exact hs)

theorem bcastGapTimer_keeps (stream : Nat) (s : State) (hs : Mem Q s) : Mem Q (bcastGapTimer stream s) := by
  unfold bcastGapTimer
  split <;> first
    | (with_reducible exact hs)
    | (extract_lets -merge +onlyGivenNames a1
       have ha1 : Mem Q a1 := by
         subst a1
         with_reducible refine State.advanceTo_keeps _ _ ?_
         with_reducible exact hs
       try clear_value a1
       with_reducible refine keep_ite ?_ ?_
       · with_reducible exact hs
       · with_reducible refine State.askGap_keeps _ _ _ ?_
         with_reducible refine State.setBcast_keeps _ _ _ ?_
         with_reducible exact ha1)

theorem execBcastGapTimer_keeps (stream : Nat) (s : State) (hs : Mem Q s) : OutMem Q (execBcastGapTimer stream s) := by
  unfold execBcastGapTimer
  with_reducible refine onLive_keeps _ _ ?_ ?_
  · with_reducible exact hs
  · intro x1 h1
    with_reducible refine bcastGapTimer_keeps _ _ ?_
    with_reducible exact h1

theorem State.bcastAct_keeps (s : State) (k : Nat) (stream : Nat) (b : Bcast) (hs : Mem Q s) : Mem Q (State.bcastAct s k stream b) := by
  unfold State.bcastAct
  extract_lets -merge +onlyGivenNames a1 a2 a3 a4
  try clear_value a1
  have ha2 : Mem Q a2 := by
    subst a2
    with_reducible refine State.hdrBad_keeps _ _ ?_
    with_reducible exact hs
  try clear_value a2
  try clear_value a3
  try clear_value a4
  split <;> first
    | (with_reducible refine keep_ite ?_ ?_
       · with_reducible refine State.replyCommit_keeps _ _ _ ?_
         with_reducible exact ha2
       · with_reducible exact ha2)
    | (split <;> first
         | (unfold Mem; dsimp only; refine mem_in ?_
            with_reducible exact hs)
         | (unfold Mem; dsimp only; refine mem_in ?_
            with_reducible exact hs)
         | (with_reducible refine State.bcastOverlay_keeps _ _ ?_
            with_reducible exact hs)
         | (with_reducible refine State.bcastAbort_keeps _ _ ?_
            with_reducible exact hs))

theorem State.holdBcast_keeps (W : WritesLm Q) (B : WritesSdb Q) (s : State) (k : Nat) (stream : Nat) (bseq : Nat) (b : Bcast) (payload : Bytes) (hs : Mem Q s) : Mem Q (State.holdBcast s k stream bseq b payload) := by
  unfold State.holdBcast
  extract_lets -merge +onlyGivenNames a1 a2 a3 a4
  try clear_value a1
  have ha2 : Mem Q a2 := by
    subst a2
    with_reducible refine State.setBcast_keeps _ _ _ ?_
    with_reducible refine State.taken_keeps _ _ ?_
    with_reducible exact hs
  try clear_value a2
  have ha3 : Mem Q a3 := by
    subst a3
    with_reducible refine keep_ite ?_ ?_
    · with_reducible refine State.stageSlot_keeps W B _ _ _ _ ?_
      with_reducible exact ha2
    · with_reducible exact ha2
  try clear_value a3
  have ha4 : Mem Q a4 := by
    subst a4
    with_reducible refine State.setBcast_keeps _ _ _ ?_
    with_reducible exact ha3
  try clear_value a4
  with_reducible refine keep_ite ?_ ?_
  · with_reducible refine keep_ite ?_ ?_
    · with_reducible exact ha4
    · with_reducible refine State.bcastAct_keeps _ _ _ _ ?_
      with_reducible exact ha4
  · with_reducible refine keep_ite ?_ ?_
    · with_reducible refine State.askGap_keeps _ _ _ ?_
      with_reducible exact ha3
    · with_reducible exact ha3

theorem State.takeBcast_keeps (W : WritesLm Q) (B : WritesSdb Q) (s : State) (k : Nat) (slot : Bytes) (hs : Mem Q s) : Mem Q (State.takeBcast s k slot) := by
  unfold State.takeBcast
  extract_lets -merge +onlyGivenNames a1 a2 a3 a4 a5
  try clear_value a1
  try clear_value a2
  try clear_value a3
  try clear_value a4
  try clear_value a5
  with_reducible refine keep_ite ?_ ?_
  · with_reducible refine State.hdrBad_keeps _ _ ?_
    with_reducible exact hs
  · split <;> first
      | (with_reducible refine keep_ite ?_ ?_
         · with_reducible refine State.skipBcast_keeps _ _ ?_
           with_reducible exact hs
         · with_reducible refine State.holdBcast_keeps W B _ _ _ _ _ _ ?_
           with_reducible exact hs)
      | (extract_lets -merge +onlyGivenNames a6
         have ha6 : Mem Q a6 := by
           subst a6
           with_reducible refine State.dropGap_keeps _ _ _ ?_
           with_reducible exact hs
         try clear_value a6
         with_reducible refine keep_ite ?_ ?_
         · with_reducible refine keep_ite ?_ ?_
           · with_reducible refine State.dup_keeps _ _ ?_
             with_reducible exact hs
           · with_reducible refine keep_ite ?_ ?_
             · with_reducible refine State.hdrBad_keeps _ _ ?_
               with_reducible exact hs
             · with_reducible refine State.holdBcast_keeps W B _ _ _ _ _ _ ?_
               with_reducible exact hs
         · with_reducible refine keep_ite ?_ ?_
           · with_reducible refine keep_ite ?_ ?_
             · with_reducible refine State.skipBcast_keeps _ _ ?_
               with_reducible exact ha6
             · with_reducible refine State.holdBcast_keeps W B _ _ _ _ _ _ ?_
               with_reducible exact ha6
           · with_reducible refine State.dup_keeps _ _ ?_
             with_reducible exact hs)

theorem execBroadcastSlot_keeps (W : WritesLm Q) (B : WritesSdb Q) (port : Nat) (index : Nat) (slot : Bytes) (s : State) (hs : Mem Q s) : OutMem Q (execBroadcastSlot port index slot s) := by
  unfold execBroadcastSlot
  with_reducible refine onLive_keeps _ _ ?_ ?_
  · with_reducible exact hs
  · intro x1 h1
    with_reducible refine onPort_keeps _ _ _ ?_ ?_
    · intro x2 h2
      with_reducible refine State.onCopy_keeps _ _ _ _ _ _ ?_ ?_
      · with_reducible exact h2
      · intro x3 h3
        with_reducible refine keep_ite ?_ ?_
        · with_reducible refine State.takeBcast_keeps W B _ _ _ ?_
          with_reducible exact h3
        · with_reducible exact h3
    · with_reducible exact h1

theorem State.settleReplies_keeps (s : State) (hs : Mem Q s) : Mem Q (State.settleReplies s) := by
  unfold State.settleReplies
  with_reducible refine keep_ite ?_ ?_
  · with_reducible exact hs
  · with_reducible refine State.afterReply_keeps _ ?_
    with_reducible exact hs

theorem State.insertReturn_keeps (s : State) (k : Nat) (i : Nat) (hs : Mem Q s) : Mem Q (State.insertReturn s k i) := by
  unfold State.insertReturn
  extract_lets -merge +onlyGivenNames a1 a2
  have ha1 : Mem Q a1 := by
    subst a1
    with_reducible refine State.pruneBuilt_keeps _ ?_
    with_reducible exact hs
  try clear_value a1
  have ha2 : Mem Q a2 := by
    subst a2
    with_reducible refine keep_ite ?_ ?_
    · with_reducible exact ha1
    · with_reducible refine State.buildReturn_keeps _ ?_
      with_reducible exact ha1
  try clear_value a2
  split <;> first
    | (with_reducible exact ha2)
    | (extract_lets -merge +onlyGivenNames a3 a4 a5 a6 a7
       try clear_value a3
       have ha4 : Mem Q a4 := by
         subst a4
         with_reducible refine State.emit_keeps _ _ ?_
         with_reducible exact ha2
       try clear_value a4
       try clear_value a5
       try clear_value a6
       have ha7 : Mem Q a7 := by
         subst a7
         unfold Mem; dsimp only; refine mem_in ?_
         with_reducible exact ha4
       try clear_value a7
       with_reducible refine State.settleReplies_keeps _ ?_
       with_reducible refine State.resumeReplies_keeps _ _ ?_
       with_reducible exact ha7)

theorem emptySlotArrive_keeps (k : Nat) (i : Nat) (s : State) (hs : Mem Q s) : Mem Q (emptySlotArrive k i s) := by
  unfold emptySlotArrive
  with_reducible refine keep_ite ?_ ?_
  · with_reducible exact hs
  · with_reducible refine keep_ite ?_ ?_
    · with_reducible refine State.leaveEmpty_keeps _ _ _ ?_
      with_reducible exact hs
    · split <;> first
        | (with_reducible refine State.insertRsp_keeps _ _ _ _ ?_
           with_reducible exact hs)
        | (with_reducible refine keep_ite ?_ ?_
           · with_reducible refine State.insertReturn_keeps _ _ _ ?_
             with_reducible exact hs
           · with_reducible refine State.leaveEmpty_keeps _ _ _ ?_
             with_reducible exact hs)

theorem execEmptySlotArrive_keeps (port : Nat) (index : Nat) (s : State) (hs : Mem Q s) : OutMem Q (execEmptySlotArrive port index s) := by
  unfold execEmptySlotArrive
  with_reducible refine onLive_keeps _ _ ?_ ?_
  · with_reducible exact hs
  · intro x1 h1
    with_reducible refine onPort_keeps _ _ _ ?_ ?_
    · intro x2 h2
      with_reducible refine emptySlotArrive_keeps _ _ _ ?_
      with_reducible exact h2
    · with_reducible exact h1

end Sys2Proof.Machine
end

