-- ==== Sys2Proof/Laws/Stores.lean ====
section
/-! SUPPORT. Byte stores: a write is read back, leaves every other byte alone, and keeps the canonical form. -/

namespace Sys2Proof.Machine

@[simp] theorem Store.get_put_same (m : Store) (a : Nat) (v : Byte) : Store.get (Store.put m a v) a = v := by
  simp [Store.get, Store.put]

theorem Store.get_put_ne (m : Store) {a b : Nat} (v : Byte) (h : a ≠ b) : Store.get (Store.put m a v) b = Store.get m b := by
  simp [Store.get, Store.put, Map.getD_set_ne _ _ _ _ h]

/-- A byte outside the bytes written reads as before. -/
theorem Store.get_write_out (bs : Bytes) (m : Store) (a b : Nat) (h : b < a ∨ a + bs.length ≤ b) :
    Store.get (Store.write m a bs) b = Store.get m b := by
  induction bs generalizing m a with
  | nil => rfl
  | cons v bs ih =>
    simp only [List.length_cons] at h
    rw [Store.write, ih _ _ (by omega), Store.get_put_ne _ _ (by omega)]

/-- A byte written reads as the byte written there. -/
theorem Store.get_write_in (bs : Bytes) (m : Store) (a k : Nat) (h : k < bs.length) :
    Store.get (Store.write m a bs) (a + k) = bs[k] := by
  induction bs generalizing m a k with
  | nil => simp at h
  | cons v bs ih =>
    cases k with
    | zero => rw [Store.write, Store.get_write_out _ _ _ _ (by omega)]; simp
    | succ k =>
      have hk : k < bs.length := by simpa using h
      have := ih (Store.put m a v) (a + 1) k hk
      rw [Store.write, show a + (k + 1) = a + 1 + k by omega, this]
      rfl

theorem Store.wf_iff {m : Store} : Store.wf m = true ↔ Map.rising m = true ∧ ∀ c ∈ m, c.2 ≠ 0 := by
  simp [Store.wf]

theorem Store.wf_filter {m : Store} (p : Host.Cell → Bool) (h : Store.wf m = true) : Store.wf (m.filter p) = true := by
  have h := Store.wf_iff.mp h
  exact Store.wf_iff.mpr ⟨Map.rising_filter p h.1, fun c hc => h.2 c (List.mem_filter.mp hc).1⟩

theorem Store.wf_put {m : Store} (a : Nat) (v : Byte) (h : Store.wf m = true) : Store.wf (Store.put m a v) = true := by
  unfold Store.put Map.set
  split
  · exact Store.wf_filter _ h
  · next hv =>
    have h := Store.wf_iff.mp h
    refine Store.wf_iff.mpr ⟨Map.rising_put _ _ h.1, ?_⟩
    intro c hc
    rcases Map.mem_ins hc with rfl | hc
    · exact hv
    · exact h.2 c (List.mem_filter.mp hc).1

/-- Every write keeps the canonical form. -/
theorem Store.wf_write (bs : Bytes) {m : Store} (a : Nat) (h : Store.wf m = true) : Store.wf (Store.write m a bs) = true := by
  induction bs generalizing m a with
  | nil => exact h
  | cons v bs ih => exact ih _ (Store.wf_put a v h)

theorem Store.length_fill (cells : Store) (a k : Nat) : (Store.fill cells a k).length = k := by
  induction k generalizing cells a with
  | zero => rfl
  | succ k ih =>
    unfold Store.fill
    split
    · simp [ih]
    · split <;> simp [ih]

/-- A range has as many bytes as were asked for. -/
@[simp] theorem Store.length_range (m : Store) (a len : Nat) : (Store.range m a len).length = len := Store.length_fill _ _ _

theorem Map.getD_eq_of_lt {m : Store} (a : Nat) (h : ∀ c ∈ m, a < c.1) : Map.getD m a 0 = 0 := by
  induction m with
  | nil => rfl
  | cons c m ih =>
    have hc : c.1 ≠ a := by have := h c (by simp); omega
    have := ih (fun x hx => h x (by simp [hx]))
    simpa [Map.getD, Map.find, hc] using this

theorem Store.fill_get (cells : Store) (a k n : Nat) (hr : Map.rising cells = true) (hlo : ∀ c ∈ cells, a ≤ c.1) (h : n < k) :
    (Store.fill cells a k)[n]'(by rw [Store.length_fill]; exact h) = Map.getD cells (a + n) 0 := by
  induction k generalizing cells a n with
  | zero => omega
  | succ k ih =>
    cases cells with
    | nil =>
      cases n with
      | zero => simp [Store.fill, Map.getD, Map.find]
      | succ n =>
        have := ih [] (a + 1) n hr (by simp) (by omega)
        simp only [Store.fill, List.getElem_cons_succ, this]
        rfl
    | cons c r =>
      have hr' := Map.rising_cons.mp hr
      by_cases hc : c.1 = a
      · cases n with
        | zero => simp [Store.fill, hc, Map.getD, Map.find]
        | succ n =>
          have := ih r (a + 1) n hr'.2 (fun x hx => by have := hr'.1 x hx; omega) (by omega)
          simp only [Store.fill, hc, if_true, List.getElem_cons_succ, this]
          rw [show a + 1 + n = a + (n + 1) by omega]
          simp [Map.getD, Map.find, hc]
      · have hlt : a < c.1 := by have := hlo c (by simp); omega
        cases n with
        | zero =>
          simp only [Store.fill, hc, if_false, List.getElem_cons_zero]
          symm
          refine Map.getD_eq_of_lt _ ?_
          intro x hx
          rcases List.mem_cons.mp hx with rfl | hx
          · simpa using hlt
          · have := hr'.1 x hx; omega
        | succ n =>
          have := ih (c :: r) (a + 1) n hr (fun x hx => by
            rcases List.mem_cons.mp hx with rfl | hx
            · omega
            · have := hr'.1 x hx; omega) (by omega)
          simp only [Store.fill, hc, if_false, List.getElem_cons_succ]
          rw [show a + (n + 1) = a + 1 + n by omega]
          exact this

theorem Map.getD_filter_in {m : Store} (a : Nat) (p : Host.Cell → Bool) (hp : ∀ c, c.1 = a → p c = true) :
    Map.getD (m.filter p) a 0 = Map.getD m a 0 := by
  induction m with
  | nil => rfl
  | cons c m ih =>
    by_cases hc : c.1 = a
    · simp [Map.getD, Map.find, List.filter_cons_of_pos (hp c hc), hc]
    · by_cases h : p c = true
      · simpa [List.filter_cons_of_pos h, Map.getD, Map.find, hc] using ih
      · rw [List.filter_cons_of_neg h, ih]
        simp [Map.getD, Map.find, hc]

/-- In a canonical store, byte `k` of a range is the byte at that address. -/
theorem Store.range_get {m : Store} (h : Store.wf m = true) (a len k : Nat) (hk : k < len) :
    (Store.range m a len)[k]'(by simpa using hk) = Store.get m (a + k) := by
  unfold Store.range Store.get
  rw [Store.fill_get _ _ _ _ (Map.rising_filter _ (Store.wf_iff.mp h).1) _ hk]
  · refine Map.getD_filter_in _ _ ?_
    intro c hc
    simp [hc]
    omega
  · intro c hc
    have := (List.mem_filter.mp hc).2
    simp at this
    exact this.1

end Sys2Proof.Machine
end

