-- ==== Sys2Proof/Laws/KeepsExec.lean ====
section
/-! SUPPORT. Every command keeps any property of the stores and the straps that writes and resets keep; the canonical form of
the stores is one. -/

namespace Sys2Proof.Machine

variable {Q : Store → Store → StrapBalls → Prop}

theorem exec_keeps (W : WritesLm Q) (B : WritesSdb Q) (R : Resets Q) (i : Instr) (s : State) (hs : Mem Q s) :
    OutMem Q (exec i s) := by
  cases i with
  | pornAssert => exact Sys2Proof.Machine.execPornAssert_keeps R _ hs
  | pornRelease => exact Sys2Proof.Machine.execPornRelease_keeps R _ _ hs
  | perst => exact Sys2Proof.Machine.execPerst_keeps _ hs
  | rootLock => exact Sys2Proof.Machine.execRootLock_keeps _ hs
  | bootLoad => exact Sys2Proof.Machine.execBootLoad_keeps W B _ hs
  | rangerRunning => exact Sys2Proof.Machine.execRangerRunning_keeps W B _ hs
  | refLoss => exact Sys2Proof.Machine.execRefLoss_keeps _ hs
  | fbclkLoss => exact Sys2Proof.Machine.execFbclkLoss_keeps _ hs
  | holdoverExpiry => exact Sys2Proof.Machine.execHoldoverExpiry_keeps _ hs
  | slewComplete => exact Sys2Proof.Machine.execSlewComplete_keeps _ hs
  | rootUnlock => exact Sys2Proof.Machine.execRootUnlock_keeps _ hs
  | frameBoundary => exact Sys2Proof.Machine.execFrameBoundary_keeps W _ hs
  | fixFrameStart => exact Sys2Proof.Machine.execFixFrameStart_keeps _ hs
  | frameLatch => exact Sys2Proof.Machine.execFrameLatch_keeps W _ hs
  | subframeBoundary => exact Sys2Proof.Machine.execSubframeBoundary_keeps W _ hs
  | scriptRunEnd => exact Sys2Proof.Machine.execScriptRunEnd_keeps W _ _ _ _ hs
  | frmCfgWrite => exact Sys2Proof.Machine.execFrmCfgWrite_keeps _ _ hs
  | frmRun => exact Sys2Proof.Machine.execFrmRun_keeps _ hs
  | frmStop => exact Sys2Proof.Machine.execFrmStop_keeps _ hs
  | frmReseed => exact Sys2Proof.Machine.execFrmReseed_keeps _ hs
  | stepDispatch => exact Sys2Proof.Machine.execStepDispatch_keeps _ _ hs
  | bandJudgment => exact Sys2Proof.Machine.execBandJudgment_keeps _ _ hs
  | bandComposed => exact Sys2Proof.Machine.execBandComposed_keeps W _ _ hs
  | passComplete => exact Sys2Proof.Machine.execPassComplete_keeps W _ hs
  | bandAbandon => exact Sys2Proof.Machine.execBandAbandon_keeps _ _ hs
  | bankRetire => exact Sys2Proof.Machine.execBankRetire_keeps _ hs
  | gladeVerdict => exact Sys2Proof.Machine.execGladeVerdict_keeps _ _ hs
  | substitutionDone => exact Sys2Proof.Machine.execSubstitutionDone_keeps W _ _ hs
  | gladeRelease => exact Sys2Proof.Machine.execGladeRelease_keeps _ _ hs
  | standLoad => exact Sys2Proof.Machine.execStandLoad_keeps W _ _ hs
  | standUnload => exact Sys2Proof.Machine.execStandUnload_keeps W _ _ hs
  | overlayLoad => exact Sys2Proof.Machine.execOverlayLoad_keeps W _ _ hs
  | overlayUnload => exact Sys2Proof.Machine.execOverlayUnload_keeps W _ _ hs
  | shadowStand => exact Sys2Proof.Machine.execShadowStand_keeps W _ _ hs
  | shadowOverlays => exact Sys2Proof.Machine.execShadowOverlays_keeps W _ _ hs
  | shadowLayer => exact Sys2Proof.Machine.execShadowLayer_keeps W _ _ hs
  | shadowBuffer => exact Sys2Proof.Machine.execShadowBuffer_keeps W _ _ hs
  | shadowTables => exact Sys2Proof.Machine.execShadowTables_keeps W _ _ hs
  | shadowGlade => exact Sys2Proof.Machine.execShadowGlade_keeps W _ _ hs
  | shadowPattern => exact Sys2Proof.Machine.execShadowPattern_keeps W _ _ hs
  | shadowDimmer => exact Sys2Proof.Machine.execShadowDimmer_keeps W _ _ hs
  | shadowRevert => exact Sys2Proof.Machine.execShadowRevert_keeps W _ _ hs
  | commit => exact Sys2Proof.Machine.execCommit_keeps W _ _ hs
  | commitPrepare => exact Sys2Proof.Machine.execCommitPrepare_keeps W _ hs
  | commitValidate => exact Sys2Proof.Machine.execCommitValidate_keeps _ hs
  | cutoff => exact Sys2Proof.Machine.execCutoff_keeps W _ hs
  | localCommitDecide => exact Sys2Proof.Machine.execLocalCommitDecide_keeps W _ hs
  | commitCancel => exact Sys2Proof.Machine.execCommitCancel_keeps W _ _ hs
  | excludeSet => exact Sys2Proof.Machine.execExcludeSet_keeps W _ _ hs
  | commitStatus => exact Sys2Proof.Machine.execCommitStatus_keeps W _ _ hs
  | doorbellPoll => exact Sys2Proof.Machine.execDoorbellPoll_keeps _ _ hs
  | descriptorFetch => exact Sys2Proof.Machine.execDescriptorFetch_keeps W _ _ hs
  | completionPost => exact Sys2Proof.Machine.execCompletionPost_keeps _ _ _ _ hs
  | headWordRead => exact Sys2Proof.Machine.execHeadWordRead_keeps _ _ _ hs
  | acqHeadWrite => exact Sys2Proof.Machine.execAcqHeadWrite_keeps _ _ hs
  | coalesceTimer => exact Sys2Proof.Machine.execCoalesceTimer_keeps _ _ hs
  | hqsEnable => exact Sys2Proof.Machine.execHqsEnable_keeps _ _ hs
  | adminQueueSetup => exact Sys2Proof.Machine.execAdminQueueSetup_keeps _ _ _ hs
  | bar4Access => exact Sys2Proof.Machine.execBar4Access_keeps W _ _ _ _ hs
  | nop => exact Sys2Proof.Machine.execNop_keeps W _ _ hs
  | sqCreate => exact Sys2Proof.Machine.execSqCreate_keeps W _ _ hs
  | sqDelete => exact Sys2Proof.Machine.execSqDelete_keeps W _ _ hs
  | cqCreate => exact Sys2Proof.Machine.execCqCreate_keeps W _ _ hs
  | cqDelete => exact Sys2Proof.Machine.execCqDelete_keeps W _ _ hs
  | queueQuery => exact Sys2Proof.Machine.execQueueQuery_keeps W _ _ hs
  | mbxResync => exact Sys2Proof.Machine.execMbxResync_keeps W _ _ hs
  | tileRegRead => exact Sys2Proof.Machine.execTileRegRead_keeps W _ _ hs
  | tileRegWrite => exact Sys2Proof.Machine.execTileRegWrite_keeps W _ _ hs
  | tileWrite => exact Sys2Proof.Machine.execTileWrite_keeps W _ _ _ hs
  | tileRead => exact Sys2Proof.Machine.execTileRead_keeps W _ _ hs
  | localWrite => exact Sys2Proof.Machine.execLocalWrite_keeps W _ _ _ hs
  | localRead => exact Sys2Proof.Machine.execLocalRead_keeps W _ _ _ hs
  | mailbox => exact Sys2Proof.Machine.execMailbox_keeps W _ _ _ _ hs
  | remoteWrite => exact Sys2Proof.Machine.execRemoteWrite_keeps W _ _ _ _ hs
  | regRead => exact Sys2Proof.Machine.execRegRead_keeps _ _ _ _ hs
  | regWrite => exact Sys2Proof.Machine.execRegWrite_keeps _ _ _ _ hs
  | resync => exact Sys2Proof.Machine.execResync_keeps W _ _ _ _ hs
  | readReq => exact Sys2Proof.Machine.execReadReq_keeps _ _ _ _ hs
  | tileMailboxPoll => exact Sys2Proof.Machine.execTileMailboxPoll_keeps W _ hs
  | mbxAck => exact Sys2Proof.Machine.execMbxAck_keeps W _ _ hs
  | mbxRetransmit => exact Sys2Proof.Machine.execMbxRetransmit_keeps W _ _ hs
  | completion => exact Sys2Proof.Machine.execCompletion_keeps W _ _ hs
  | regReply => exact Sys2Proof.Machine.execRegReply_keeps W _ _ hs
  | event => exact Sys2Proof.Machine.execEvent_keeps _ _ _ hs
  | readData => exact Sys2Proof.Machine.execReadData_keeps W _ _ _ hs
  | trlEnable => exact Sys2Proof.Machine.execTrlEnable_keeps _ _ hs
  | trlDisable => exact Sys2Proof.Machine.execTrlDisable_keeps _ _ hs
  | detectSense => exact Sys2Proof.Machine.execDetectSense_keeps _ _ _ hs
  | trainEnd => exact Sys2Proof.Machine.execTrainEnd_keeps _ _ _ _ hs
  | prbsDetect => exact Sys2Proof.Machine.execPrbsDetect_keeps _ _ hs
  | blockLock => exact Sys2Proof.Machine.execBlockLock_keeps _ _ _ hs
  | deskewDone => exact Sys2Proof.Machine.execDeskewDone_keeps _ _ _ _ _ hs
  | lockTimeout => exact Sys2Proof.Machine.execLockTimeout_keeps _ _ _ hs
  | deskewTimeout => exact Sys2Proof.Machine.execDeskewTimeout_keeps _ _ _ hs
  | capTimeout => exact Sys2Proof.Machine.execCapTimeout_keeps _ _ _ hs
  | capabilityAccept => exact Sys2Proof.Machine.execCapabilityAccept_keeps _ _ _ _ _ hs
  | portActive => exact Sys2Proof.Machine.execPortActive_keeps _ _ hs
  | signalLoss => exact Sys2Proof.Machine.execSignalLoss_keeps _ _ hs
  | lockLoss => exact Sys2Proof.Machine.execLockLoss_keeps _ _ _ hs
  | deskewLoss => exact Sys2Proof.Machine.execDeskewLoss_keeps _ _ _ _ _ hs
  | hiBer => exact Sys2Proof.Machine.execHiBer_keeps _ _ hs
  | retrain => exact Sys2Proof.Machine.execRetrain_keeps _ _ hs
  | peerSleep => exact Sys2Proof.Machine.execPeerSleep_keeps _ _ hs
  | dormantEnter => exact Sys2Proof.Machine.execDormantEnter_keeps _ _ hs
  | dormantClear => exact Sys2Proof.Machine.execDormantClear_keeps _ _ hs
  | wakeDetect => exact Sys2Proof.Machine.execWakeDetect_keeps _ _ hs
  | wakeRelock => exact Sys2Proof.Machine.execWakeRelock_keeps _ _ hs
  | trailCycleStart => exact Sys2Proof.Machine.execTrailCycleStart_keeps W _ _ hs
  | chunkDrop => exact Sys2Proof.Machine.execChunkDrop_keeps W _ _ hs
  | markerReceive => exact Sys2Proof.Machine.execMarkerReceive_keeps W _ _ _ _ hs
  | markerMissing => exact Sys2Proof.Machine.execMarkerMissing_keeps _ _ _ hs
  | chunkReceive => exact Sys2Proof.Machine.execChunkReceive_keeps _ _ _ _ hs
  | broadcastSlot => exact Sys2Proof.Machine.execBroadcastSlot_keeps W B _ _ _ _ hs
  | bcastGapTimer => exact Sys2Proof.Machine.execBcastGapTimer_keeps _ _ hs
  | bcastGap => exact Sys2Proof.Machine.execBcastGap_keeps _ _ hs
  | commitReply => exact Sys2Proof.Machine.execCommitReply_keeps W _ _ hs
  | lockReport => exact Sys2Proof.Machine.execLockReport_keeps _ _ hs
  | emptySlotArrive => exact Sys2Proof.Machine.execEmptySlotArrive_keeps _ _ _ hs
  | echoReq => exact Sys2Proof.Machine.execEchoReq_keeps _ _ _ _ hs
  | echoRsp => exact Sys2Proof.Machine.execEchoRsp_keeps _ _ _ _ hs
  | echoTimeout => exact Sys2Proof.Machine.execEchoTimeout_keeps _ _ _ hs
  | echoStale => exact Sys2Proof.Machine.execEchoStale_keeps _ hs
  | previewReturn => exact Sys2Proof.Machine.execPreviewReturn_keeps W _ _ _ _ hs
  | epochAdvance => exact Sys2Proof.Machine.execEpochAdvance_keeps _ hs
  | rosterTimeout => exact Sys2Proof.Machine.execRosterTimeout_keeps _ _ _ hs
  | netFrameReceive => exact Sys2Proof.Machine.execNetFrameReceive_keeps W _ _ hs
  | hostFetchComplete => exact Sys2Proof.Machine.execHostFetchComplete_keeps W _ _ _ _ _ hs
  | referenceRelease => exact Sys2Proof.Machine.execReferenceRelease_keeps _ _ hs
  | sacnSourceTimeout => exact Sys2Proof.Machine.execSacnSourceTimeout_keeps _ _ _ hs
  | sacnCommit => exact Sys2Proof.Machine.execSacnCommit_keeps _ hs
  | sacnHeldWrite => exact Sys2Proof.Machine.execSacnHeldWrite_keeps _ hs
  | sacnCueCommit => exact Sys2Proof.Machine.execSacnCueCommit_keeps _ hs
  | netLinkDown => exact Sys2Proof.Machine.execNetLinkDown_keeps _ _ hs
  | netModeWrite => exact Sys2Proof.Machine.execNetModeWrite_keeps _ _ _ hs
  | pacedLaunch => exact Sys2Proof.Machine.execPacedLaunch_keeps W _ _ hs
  | timedLaunch => exact Sys2Proof.Machine.execTimedLaunch_keeps W _ _ hs
  | flowSet => exact Sys2Proof.Machine.execFlowSet_keeps W _ _ hs
  | flowClear => exact Sys2Proof.Machine.execFlowClear_keeps W _ _ hs
  | sourceSet => exact Sys2Proof.Machine.execSourceSet_keeps W _ _ hs
  | rxPost => exact Sys2Proof.Machine.execRxPost_keeps W _ _ hs
  | txSend => exact Sys2Proof.Machine.execTxSend_keeps W _ _ _ hs
  | flowStats => exact Sys2Proof.Machine.execFlowStats_keeps W _ _ _ hs
  | sacnMap => exact Sys2Proof.Machine.execSacnMap_keeps W _ _ hs
  | sacnCue => exact Sys2Proof.Machine.execSacnCue_keeps W _ _ hs
  | previewSet => exact Sys2Proof.Machine.execPreviewSet_keeps W _ _ hs
  | txflowSet => exact Sys2Proof.Machine.execTxflowSet_keeps W _ _ hs
  | timeNsRead => exact Sys2Proof.Machine.execTimeNsRead_keeps _ hs
  | timeSet => exact Sys2Proof.Machine.execTimeSet_keeps _ hs
  | rangerOffsetFeed => exact Sys2Proof.Machine.execRangerOffsetFeed_keeps _ _ _ hs
  | servoFeed => exact Sys2Proof.Machine.execServoFeed_keeps W _ _ hs
  | servoHoldover => exact Sys2Proof.Machine.execServoHoldover_keeps _ hs
  | timeStep => exact Sys2Proof.Machine.execTimeStep_keeps W _ _ hs
  | timeRead => exact Sys2Proof.Machine.execTimeRead_keeps W _ _ hs
  | tsFetch => exact Sys2Proof.Machine.execTsFetch_keeps W _ _ _ hs
  | geometryCheck => exact Sys2Proof.Machine.execGeometryCheck_keeps W _ _ hs
  | canopyStats => exact Sys2Proof.Machine.execCanopyStats_keeps W _ _ _ hs
  | tableWrite => exact Sys2Proof.Machine.execTableWrite_keeps W _ _ _ _ hs
  | tablePatch => exact Sys2Proof.Machine.execTablePatch_keeps W _ _ _ hs
  | patchApply => exact Sys2Proof.Machine.execPatchApply_keeps W _ hs
  | tableVerify => exact Sys2Proof.Machine.execTableVerify_keeps W _ _ hs
  | censusRun => exact Sys2Proof.Machine.execCensusRun_keeps W _ _ hs
  | branchStats => exact Sys2Proof.Machine.execBranchStats_keeps W _ _ _ hs
  | holdSet => exact Sys2Proof.Machine.execHoldSet_keeps W _ _ hs
  | nightEntry => exact Sys2Proof.Machine.execNightEntry_keeps W _ hs
  | fsyncEdge => exact Sys2Proof.Machine.execFsyncEdge_keeps W _ _ hs
  | fsyncLost => exact Sys2Proof.Machine.execFsyncLost_keeps W _ hs
  | fsyncZeroPulse => exact Sys2Proof.Machine.execFsyncZeroPulse_keeps _ hs
  | standaloneExit => exact Sys2Proof.Machine.execStandaloneExit_keeps _ hs
  | audioRun => exact Sys2Proof.Machine.execAudioRun_keeps _ hs
  | audioBlockBoundary => exact Sys2Proof.Machine.execAudioBlockBoundary_keeps W _ _ hs
  | fbStartPulse => exact Sys2Proof.Machine.execFbStartPulse_keeps _ hs
  | fbsLost => exact Sys2Proof.Machine.execFbsLost_keeps _ hs
  | asrcUnlock => exact Sys2Proof.Machine.execAsrcUnlock_keeps W _ _ _ hs
  | asrcLock => exact Sys2Proof.Machine.execAsrcLock_keeps W _ _ _ _ hs
  | silentChangeApply => exact Sys2Proof.Machine.execSilentChangeApply_keeps W _ _ hs
  | zcTimeout => exact Sys2Proof.Machine.execZcTimeout_keeps W _ _ hs
  | portSet => exact Sys2Proof.Machine.execPortSet_keeps W _ _ hs
  | streamSet => exact Sys2Proof.Machine.execStreamSet_keeps W _ _ hs
  | routeSet => exact Sys2Proof.Machine.execRouteSet_keeps W _ _ hs
  | captureSet => exact Sys2Proof.Machine.execCaptureSet_keeps W _ _ hs
  | txaudSet => exact Sys2Proof.Machine.execTxaudSet_keeps W _ _ hs
  | groupSet => exact Sys2Proof.Machine.execGroupSet_keeps W _ _ hs
  | claim => exact Sys2Proof.Machine.execClaim_keeps _ hs
  | takeoverDecision => exact Sys2Proof.Machine.execTakeoverDecision_keeps W _ hs
  | resign => exact Sys2Proof.Machine.execResign_keeps _ hs
  | healthUpdate => exact Sys2Proof.Machine.execHealthUpdate_keeps _ hs
  | arbSelect => exact Sys2Proof.Machine.execArbSelect_keeps _ hs
  | arbDeselect => exact Sys2Proof.Machine.execArbDeselect_keeps _ hs
  | fbSerFrame => exact Sys2Proof.Machine.execFbSerFrame_keeps W _ _ hs
  | serLost => exact Sys2Proof.Machine.execSerLost_keeps _ hs
  | overlapTimeout => exact Sys2Proof.Machine.execOverlapTimeout_keeps _ hs
  | healthReport => exact Sys2Proof.Machine.execHealthReport_keeps _ _ hs
  | patrolTest => exact Sys2Proof.Machine.execPatrolTest_keeps _ _ _ hs
  | handover => exact Sys2Proof.Machine.execHandover_keeps W _ _ hs
  | pairStatus => exact Sys2Proof.Machine.execPairStatus_keeps W _ _ hs
  | digestReset => exact Sys2Proof.Machine.execDigestReset_keeps W _ _ hs
  | faultEvent => exact Sys2Proof.Machine.execFaultEvent_keeps _ _ _ hs
  | blockReset => exact Sys2Proof.Machine.execBlockReset_keeps _ _ hs
  | quiesceEnd => exact Sys2Proof.Machine.execQuiesceEnd_keeps _ _ hs
  | resetLimitEnd => exact Sys2Proof.Machine.execResetLimitEnd_keeps _ hs
  | blkReactWrite => exact Sys2Proof.Machine.execBlkReactWrite_keeps _ _ _ hs
  | lmcScrub => exact Sys2Proof.Machine.execLmcScrub_keeps _ _ _ hs
  | supplyDip => exact Sys2Proof.Machine.execSupplyDip_keeps _ _ hs
  | dipRecovery => exact Sys2Proof.Machine.execDipRecovery_keeps W B _ hs
  | supplyReset => exact Sys2Proof.Machine.execSupplyReset_keeps R _ _ hs
  | supplyResetRelease => exact Sys2Proof.Machine.execSupplyResetRelease_keeps R _ _ _ hs
  | wdgKick => exact Sys2Proof.Machine.execWdgKick_keeps _ hs
  | preExpire => exact Sys2Proof.Machine.execPreExpire_keeps _ hs
  | expired => exact Sys2Proof.Machine.execExpired_keeps W B _ hs
  | busy => exact Sys2Proof.Machine.execBusy_keeps _ _ hs
  | faultSnapshot => exact Sys2Proof.Machine.execFaultSnapshot_keeps W _ _ _ hs
  | rangerRestart => exact Sys2Proof.Machine.execRangerRestart_keeps W _ _ hs
  | thermalSample => exact Sys2Proof.Machine.execThermalSample_keeps _ _ hs
  | peakReset => exact Sys2Proof.Machine.execPeakReset_keeps _ hs
  | trimApply => exact Sys2Proof.Machine.execTrimApply_keeps _ hs
  | trimChange => exact Sys2Proof.Machine.execTrimChange_keeps W _ hs
  | trimSave => exact Sys2Proof.Machine.execTrimSave_keeps W _ _ _ hs
  | trimRestore => exact Sys2Proof.Machine.execTrimRestore_keeps W _ _ _ hs
  | memBist => exact Sys2Proof.Machine.execMemBist_keeps W _ _ _ _ hs
  | imageWrite => exact Sys2Proof.Machine.execImageWrite_keeps W B _ _ _ hs
  | imageActivate => exact Sys2Proof.Machine.execImageActivate_keeps W B _ _ hs
  | imageConfirm => exact Sys2Proof.Machine.execImageConfirm_keeps W B _ _ hs
  | imageRevert => exact Sys2Proof.Machine.execImageRevert_keeps W B _ _ hs
  | migrationReport => exact Sys2Proof.Machine.execMigrationReport_keeps W _ _ _ hs
  | imageBroadcast => exact Sys2Proof.Machine.execImageBroadcast_keeps W _ _ _ hs
  | sdbQuery => exact Sys2Proof.Machine.execSdbQuery_keeps W _ _ hs
  | trialWindowExpiry => exact Sys2Proof.Machine.execTrialWindowExpiry_keeps W B _ hs
  | seedbankScrub => exact Sys2Proof.Machine.execSeedbankScrub_keeps _ _ _ hs
  | tileIdWrite => exact Sys2Proof.Machine.execTileIdWrite_keeps _ _ _ hs
  | loHiPairWrite => exact Sys2Proof.Machine.execLoHiPairWrite_keeps _ _ _ hs
  | shadowFieldWrite => exact Sys2Proof.Machine.execShadowFieldWrite_keeps _ _ _ hs
  | registerWrite => exact Sys2Proof.Machine.execRegisterWrite_keeps _ _ _ _ hs
  | jtagInstruction => exact Sys2Proof.Machine.execJtagInstruction_keeps _ _ hs
  | netLinkUp => exact Sys2Proof.Machine.execNetLinkUp_keeps _ _ _ _ hs
  | fbclkPresent => exact Sys2Proof.Machine.execFbclkPresent_keeps _ hs
  | fbActInRise => exact Sys2Proof.Machine.execFbActInRise_keeps _ hs
  | freeRunFrameStart => exact Sys2Proof.Machine.execFreeRunFrameStart_keeps W _ hs

/-- The canonical form of the stores, with TEST_MODE low. -/
def Canonical (lm sdb : Store) (b : StrapBalls) : Prop := Store.wf lm = true ∧ Store.wf sdb = true ∧ b.test = false

theorem writesLm_canonical : WritesLm Canonical := fun _ _ _ a bs h => ⟨Store.wf_write bs a h.1, h.2.1, h.2.2⟩

theorem writesSdb_canonical : WritesSdb Canonical :=
  ⟨fun _ _ _ a bs h => ⟨h.1, Store.wf_write bs a h.2.1, h.2.2⟩, fun _ _ _ p h => ⟨h.1, Store.wf_filter p h.2.1, h.2.2⟩⟩

theorem resets_canonical : Resets Canonical := ⟨fun _ _ _ h => ⟨rfl, h.2.1, h.2.2⟩, fun _ _ _ _ ht h => ⟨rfl, h.2.1, ht⟩⟩

end Sys2Proof.Machine
end

