-- ==== Sys2Proof/Laws/State.lean ====
section
/-! SUPPORT. One lemma for each field of State under each plain update of it. -/

namespace Sys2Proof.Machine

@[simp] theorem State.wr_pending (s : State) (f : Fld) (v : Nat) : (s.wr f v).pending = s.pending := rfl
@[simp] theorem State.wr_power (s : State) (f : Fld) (v : Nat) : (s.wr f v).power = s.power := rfl
@[simp] theorem State.wr_fuses (s : State) (f : Fld) (v : Nat) : (s.wr f v).fuses = s.fuses := rfl
@[simp] theorem State.wr_core (s : State) (f : Fld) (v : Nat) : (s.wr f v).core = s.core := rfl
@[simp] theorem State.wr_ptp (s : State) (f : Fld) (v : Nat) : (s.wr f v).ptp = s.ptp := rfl
@[simp] theorem State.wr_regs (s : State) (f : Fld) (v : Nat) : (s.wr f v).regs = Map.set s.regs f.key (v % 2 ^ f.len) f.reset := rfl
@[simp] theorem State.wr_react (s : State) (f : Fld) (v : Nat) : (s.wr f v).react = s.react := rfl
@[simp] theorem State.wr_roseAt (s : State) (f : Fld) (v : Nat) : (s.wr f v).roseAt = s.roseAt := rfl
@[simp] theorem State.wr_rose (s : State) (f : Fld) (v : Nat) : (s.wr f v).rose = s.rose := rfl
@[simp] theorem State.wr_quiesce (s : State) (f : Fld) (v : Nat) : (s.wr f v).quiesce = s.quiesce := rfl
@[simp] theorem State.wr_limitFrom (s : State) (f : Fld) (v : Nat) : (s.wr f v).limitFrom = s.limitFrom := rfl
@[simp] theorem State.wr_lm (s : State) (f : Fld) (v : Nat) : (s.wr f v).lm = s.lm := rfl
@[simp] theorem State.wr_lmBad (s : State) (f : Fld) (v : Nat) : (s.wr f v).lmBad = s.lmBad := rfl
@[simp] theorem State.wr_sdb (s : State) (f : Fld) (v : Nat) : (s.wr f v).sdb = s.sdb := rfl
@[simp] theorem State.wr_frames (s : State) (f : Fld) (v : Nat) : (s.wr f v).frames = s.frames := rfl
@[simp] theorem State.wr_stp (s : State) (f : Fld) (v : Nat) : (s.wr f v).stp = s.stp := rfl
@[simp] theorem State.wr_hq (s : State) (f : Fld) (v : Nat) : (s.wr f v).hq = s.hq := rfl
@[simp] theorem State.wr_trail (s : State) (f : Fld) (v : Nat) : (s.wr f v).trail = s.trail := rfl
@[simp] theorem State.wr_net (s : State) (f : Fld) (v : Nat) : (s.wr f v).net = s.net := rfl
@[simp] theorem State.wr_servo (s : State) (f : Fld) (v : Nat) : (s.wr f v).servo = s.servo := rfl
@[simp] theorem State.wr_pair (s : State) (f : Fld) (v : Nat) : (s.wr f v).pair = s.pair := rfl
@[simp] theorem State.wr_care (s : State) (f : Fld) (v : Nat) : (s.wr f v).care = s.care := rfl
@[simp] theorem State.wr_cnp (s : State) (f : Fld) (v : Nat) : (s.wr f v).cnp = s.cnp := rfl
@[simp] theorem State.wr_lcr (s : State) (f : Fld) (v : Nat) : (s.wr f v).lcr = s.lcr := rfl
@[simp] theorem State.wr_brn (s : State) (f : Fld) (v : Nat) : (s.wr f v).brn = s.brn := rfl
@[simp] theorem State.wr_hold (s : State) (f : Fld) (v : Nat) : (s.wr f v).hold = s.hold := rfl
@[simp] theorem State.wr_aud (s : State) (f : Fld) (v : Nat) : (s.wr f v).aud = s.aud := rfl
@[simp] theorem State.wr_trm (s : State) (f : Fld) (v : Nat) : (s.wr f v).trm = s.trm := rfl
@[simp] theorem State.wr_seed (s : State) (f : Fld) (v : Nat) : (s.wr f v).seed = s.seed := rfl
@[simp] theorem State.wr_tap (s : State) (f : Fld) (v : Nat) : (s.wr f v).tap = s.tap := rfl
@[simp] theorem State.wr_out (s : State) (f : Fld) (v : Nat) : (s.wr f v).out = s.out := rfl
@[simp] theorem State.wr_free (s : State) (f : Fld) (v : Nat) : (s.wr f v).free = s.free := rfl

@[simp] theorem State.emit_pending (s : State) (o : Out) : (s.emit o).pending = s.pending := rfl
@[simp] theorem State.emit_power (s : State) (o : Out) : (s.emit o).power = s.power := rfl
@[simp] theorem State.emit_fuses (s : State) (o : Out) : (s.emit o).fuses = s.fuses := rfl
@[simp] theorem State.emit_core (s : State) (o : Out) : (s.emit o).core = s.core := rfl
@[simp] theorem State.emit_ptp (s : State) (o : Out) : (s.emit o).ptp = s.ptp := rfl
@[simp] theorem State.emit_regs (s : State) (o : Out) : (s.emit o).regs = s.regs := rfl
@[simp] theorem State.emit_react (s : State) (o : Out) : (s.emit o).react = s.react := rfl
@[simp] theorem State.emit_roseAt (s : State) (o : Out) : (s.emit o).roseAt = s.roseAt := rfl
@[simp] theorem State.emit_rose (s : State) (o : Out) : (s.emit o).rose = s.rose := rfl
@[simp] theorem State.emit_quiesce (s : State) (o : Out) : (s.emit o).quiesce = s.quiesce := rfl
@[simp] theorem State.emit_limitFrom (s : State) (o : Out) : (s.emit o).limitFrom = s.limitFrom := rfl
@[simp] theorem State.emit_lm (s : State) (o : Out) : (s.emit o).lm = s.lm := rfl
@[simp] theorem State.emit_lmBad (s : State) (o : Out) : (s.emit o).lmBad = s.lmBad := rfl
@[simp] theorem State.emit_sdb (s : State) (o : Out) : (s.emit o).sdb = s.sdb := rfl
@[simp] theorem State.emit_frames (s : State) (o : Out) : (s.emit o).frames = s.frames := rfl
@[simp] theorem State.emit_stp (s : State) (o : Out) : (s.emit o).stp = s.stp := rfl
@[simp] theorem State.emit_hq (s : State) (o : Out) : (s.emit o).hq = s.hq := rfl
@[simp] theorem State.emit_trail (s : State) (o : Out) : (s.emit o).trail = s.trail := rfl
@[simp] theorem State.emit_net (s : State) (o : Out) : (s.emit o).net = s.net := rfl
@[simp] theorem State.emit_servo (s : State) (o : Out) : (s.emit o).servo = s.servo := rfl
@[simp] theorem State.emit_pair (s : State) (o : Out) : (s.emit o).pair = s.pair := rfl
@[simp] theorem State.emit_care (s : State) (o : Out) : (s.emit o).care = s.care := rfl
@[simp] theorem State.emit_cnp (s : State) (o : Out) : (s.emit o).cnp = s.cnp := rfl
@[simp] theorem State.emit_lcr (s : State) (o : Out) : (s.emit o).lcr = s.lcr := rfl
@[simp] theorem State.emit_brn (s : State) (o : Out) : (s.emit o).brn = s.brn := rfl
@[simp] theorem State.emit_hold (s : State) (o : Out) : (s.emit o).hold = s.hold := rfl
@[simp] theorem State.emit_aud (s : State) (o : Out) : (s.emit o).aud = s.aud := rfl
@[simp] theorem State.emit_trm (s : State) (o : Out) : (s.emit o).trm = s.trm := rfl
@[simp] theorem State.emit_seed (s : State) (o : Out) : (s.emit o).seed = s.seed := rfl
@[simp] theorem State.emit_tap (s : State) (o : Out) : (s.emit o).tap = s.tap := rfl
@[simp] theorem State.emit_out (s : State) (o : Out) : (s.emit o).out = o :: s.out := rfl
@[simp] theorem State.emit_free (s : State) (o : Out) : (s.emit o).free = s.free := rfl

@[simp] theorem State.drawn_pending (s : State) : (s.drawn).pending = s.pending := rfl
@[simp] theorem State.drawn_power (s : State) : (s.drawn).power = s.power := rfl
@[simp] theorem State.drawn_fuses (s : State) : (s.drawn).fuses = s.fuses := rfl
@[simp] theorem State.drawn_core (s : State) : (s.drawn).core = s.core := rfl
@[simp] theorem State.drawn_ptp (s : State) : (s.drawn).ptp = s.ptp := rfl
@[simp] theorem State.drawn_regs (s : State) : (s.drawn).regs = s.regs := rfl
@[simp] theorem State.drawn_react (s : State) : (s.drawn).react = s.react := rfl
@[simp] theorem State.drawn_roseAt (s : State) : (s.drawn).roseAt = s.roseAt := rfl
@[simp] theorem State.drawn_rose (s : State) : (s.drawn).rose = s.rose := rfl
@[simp] theorem State.drawn_quiesce (s : State) : (s.drawn).quiesce = s.quiesce := rfl
@[simp] theorem State.drawn_limitFrom (s : State) : (s.drawn).limitFrom = s.limitFrom := rfl
@[simp] theorem State.drawn_lm (s : State) : (s.drawn).lm = s.lm := rfl
@[simp] theorem State.drawn_lmBad (s : State) : (s.drawn).lmBad = s.lmBad := rfl
@[simp] theorem State.drawn_sdb (s : State) : (s.drawn).sdb = s.sdb := rfl
@[simp] theorem State.drawn_frames (s : State) : (s.drawn).frames = s.frames := rfl
@[simp] theorem State.drawn_stp (s : State) : (s.drawn).stp = s.stp := rfl
@[simp] theorem State.drawn_hq (s : State) : (s.drawn).hq = s.hq := rfl
@[simp] theorem State.drawn_trail (s : State) : (s.drawn).trail = s.trail := rfl
@[simp] theorem State.drawn_net (s : State) : (s.drawn).net = s.net := rfl
@[simp] theorem State.drawn_servo (s : State) : (s.drawn).servo = s.servo := rfl
@[simp] theorem State.drawn_pair (s : State) : (s.drawn).pair = s.pair := rfl
@[simp] theorem State.drawn_care (s : State) : (s.drawn).care = s.care := rfl
@[simp] theorem State.drawn_cnp (s : State) : (s.drawn).cnp = s.cnp := rfl
@[simp] theorem State.drawn_lcr (s : State) : (s.drawn).lcr = s.lcr := rfl
@[simp] theorem State.drawn_brn (s : State) : (s.drawn).brn = s.brn := rfl
@[simp] theorem State.drawn_hold (s : State) : (s.drawn).hold = s.hold := rfl
@[simp] theorem State.drawn_aud (s : State) : (s.drawn).aud = s.aud := rfl
@[simp] theorem State.drawn_trm (s : State) : (s.drawn).trm = s.trm := rfl
@[simp] theorem State.drawn_seed (s : State) : (s.drawn).seed = s.seed := rfl
@[simp] theorem State.drawn_tap (s : State) : (s.drawn).tap = s.tap := rfl
@[simp] theorem State.drawn_out (s : State) : (s.drawn).out = s.out := rfl
@[simp] theorem State.drawn_free (s : State) : (s.drawn).free = s.free + 1 := rfl

@[simp] theorem State.advance_pending (s : State) (n : Nat) : (s.advance n).pending = s.pending := rfl
@[simp] theorem State.advance_power (s : State) (n : Nat) : (s.advance n).power = s.power := rfl
@[simp] theorem State.advance_fuses (s : State) (n : Nat) : (s.advance n).fuses = s.fuses := rfl
@[simp] theorem State.advance_core (s : State) (n : Nat) : (s.advance n).core = s.core + n := rfl
@[simp] theorem State.advance_ptp (s : State) (n : Nat) : (s.advance n).ptp = s.ptp + BitVec.ofNat 72 (n * s.addend) := rfl
@[simp] theorem State.advance_regs (s : State) (n : Nat) : (s.advance n).regs = s.regs := rfl
@[simp] theorem State.advance_react (s : State) (n : Nat) : (s.advance n).react = s.react := rfl
@[simp] theorem State.advance_roseAt (s : State) (n : Nat) : (s.advance n).roseAt = s.roseAt := rfl
@[simp] theorem State.advance_rose (s : State) (n : Nat) : (s.advance n).rose = s.rose := rfl
@[simp] theorem State.advance_quiesce (s : State) (n : Nat) : (s.advance n).quiesce = s.quiesce := rfl
@[simp] theorem State.advance_limitFrom (s : State) (n : Nat) : (s.advance n).limitFrom = s.limitFrom := rfl
@[simp] theorem State.advance_lm (s : State) (n : Nat) : (s.advance n).lm = s.lm := rfl
@[simp] theorem State.advance_lmBad (s : State) (n : Nat) : (s.advance n).lmBad = s.lmBad := rfl
@[simp] theorem State.advance_sdb (s : State) (n : Nat) : (s.advance n).sdb = s.sdb := rfl
@[simp] theorem State.advance_frames (s : State) (n : Nat) : (s.advance n).frames = s.frames := rfl
@[simp] theorem State.advance_stp (s : State) (n : Nat) : (s.advance n).stp = s.stp := rfl
@[simp] theorem State.advance_hq (s : State) (n : Nat) : (s.advance n).hq = s.hq := rfl
@[simp] theorem State.advance_trail (s : State) (n : Nat) : (s.advance n).trail = s.trail := rfl
@[simp] theorem State.advance_net (s : State) (n : Nat) : (s.advance n).net = s.net := rfl
@[simp] theorem State.advance_servo (s : State) (n : Nat) : (s.advance n).servo = s.servo := rfl
@[simp] theorem State.advance_pair (s : State) (n : Nat) : (s.advance n).pair = s.pair := rfl
@[simp] theorem State.advance_care (s : State) (n : Nat) : (s.advance n).care = s.care := rfl
@[simp] theorem State.advance_cnp (s : State) (n : Nat) : (s.advance n).cnp = s.cnp := rfl
@[simp] theorem State.advance_lcr (s : State) (n : Nat) : (s.advance n).lcr = s.lcr := rfl
@[simp] theorem State.advance_brn (s : State) (n : Nat) : (s.advance n).brn = s.brn := rfl
@[simp] theorem State.advance_hold (s : State) (n : Nat) : (s.advance n).hold = s.hold := rfl
@[simp] theorem State.advance_aud (s : State) (n : Nat) : (s.advance n).aud = s.aud := rfl
@[simp] theorem State.advance_trm (s : State) (n : Nat) : (s.advance n).trm = s.trm := rfl
@[simp] theorem State.advance_seed (s : State) (n : Nat) : (s.advance n).seed = s.seed := rfl
@[simp] theorem State.advance_tap (s : State) (n : Nat) : (s.advance n).tap = s.tap := rfl
@[simp] theorem State.advance_out (s : State) (n : Nat) : (s.advance n).out = s.out := rfl
@[simp] theorem State.advance_free (s : State) (n : Nat) : (s.advance n).free = s.free := rfl

@[simp] theorem State.setPort_pending (s : State) (k : Nat) (p : Port) : (s.setPort k p).pending = s.pending := rfl
@[simp] theorem State.setPort_power (s : State) (k : Nat) (p : Port) : (s.setPort k p).power = s.power := rfl
@[simp] theorem State.setPort_fuses (s : State) (k : Nat) (p : Port) : (s.setPort k p).fuses = s.fuses := rfl
@[simp] theorem State.setPort_core (s : State) (k : Nat) (p : Port) : (s.setPort k p).core = s.core := rfl
@[simp] theorem State.setPort_ptp (s : State) (k : Nat) (p : Port) : (s.setPort k p).ptp = s.ptp := rfl
@[simp] theorem State.setPort_regs (s : State) (k : Nat) (p : Port) : (s.setPort k p).regs = s.regs := rfl
@[simp] theorem State.setPort_react (s : State) (k : Nat) (p : Port) : (s.setPort k p).react = s.react := rfl
@[simp] theorem State.setPort_roseAt (s : State) (k : Nat) (p : Port) : (s.setPort k p).roseAt = s.roseAt := rfl
@[simp] theorem State.setPort_rose (s : State) (k : Nat) (p : Port) : (s.setPort k p).rose = s.rose := rfl
@[simp] theorem State.setPort_quiesce (s : State) (k : Nat) (p : Port) : (s.setPort k p).quiesce = s.quiesce := rfl
@[simp] theorem State.setPort_limitFrom (s : State) (k : Nat) (p : Port) : (s.setPort k p).limitFrom = s.limitFrom := rfl
@[simp] theorem State.setPort_lm (s : State) (k : Nat) (p : Port) : (s.setPort k p).lm = s.lm := rfl
@[simp] theorem State.setPort_lmBad (s : State) (k : Nat) (p : Port) : (s.setPort k p).lmBad = s.lmBad := rfl
@[simp] theorem State.setPort_sdb (s : State) (k : Nat) (p : Port) : (s.setPort k p).sdb = s.sdb := rfl
@[simp] theorem State.setPort_frames (s : State) (k : Nat) (p : Port) : (s.setPort k p).frames = s.frames := rfl
@[simp] theorem State.setPort_stp (s : State) (k : Nat) (p : Port) : (s.setPort k p).stp = s.stp := rfl
@[simp] theorem State.setPort_hq (s : State) (k : Nat) (p : Port) : (s.setPort k p).hq = s.hq := rfl
@[simp] theorem State.setPort_trail (s : State) (k : Nat) (p : Port) : (s.setPort k p).trail = { s.trail with ports := setAt s.trail.ports k p } := rfl
@[simp] theorem State.setPort_net (s : State) (k : Nat) (p : Port) : (s.setPort k p).net = s.net := rfl
@[simp] theorem State.setPort_servo (s : State) (k : Nat) (p : Port) : (s.setPort k p).servo = s.servo := rfl
@[simp] theorem State.setPort_pair (s : State) (k : Nat) (p : Port) : (s.setPort k p).pair = s.pair := rfl
@[simp] theorem State.setPort_care (s : State) (k : Nat) (p : Port) : (s.setPort k p).care = s.care := rfl
@[simp] theorem State.setPort_cnp (s : State) (k : Nat) (p : Port) : (s.setPort k p).cnp = s.cnp := rfl
@[simp] theorem State.setPort_lcr (s : State) (k : Nat) (p : Port) : (s.setPort k p).lcr = s.lcr := rfl
@[simp] theorem State.setPort_brn (s : State) (k : Nat) (p : Port) : (s.setPort k p).brn = s.brn := rfl
@[simp] theorem State.setPort_hold (s : State) (k : Nat) (p : Port) : (s.setPort k p).hold = s.hold := rfl
@[simp] theorem State.setPort_aud (s : State) (k : Nat) (p : Port) : (s.setPort k p).aud = s.aud := rfl
@[simp] theorem State.setPort_trm (s : State) (k : Nat) (p : Port) : (s.setPort k p).trm = s.trm := rfl
@[simp] theorem State.setPort_seed (s : State) (k : Nat) (p : Port) : (s.setPort k p).seed = s.seed := rfl
@[simp] theorem State.setPort_tap (s : State) (k : Nat) (p : Port) : (s.setPort k p).tap = s.tap := rfl
@[simp] theorem State.setPort_out (s : State) (k : Nat) (p : Port) : (s.setPort k p).out = s.out := rfl
@[simp] theorem State.setPort_free (s : State) (k : Nat) (p : Port) : (s.setPort k p).free = s.free := rfl

@[simp] theorem State.lmWrite_pending (s : State) (a : Nat) (bs : Bytes) : (s.lmWrite a bs).pending = s.pending := rfl
@[simp] theorem State.lmWrite_power (s : State) (a : Nat) (bs : Bytes) : (s.lmWrite a bs).power = s.power := rfl
@[simp] theorem State.lmWrite_fuses (s : State) (a : Nat) (bs : Bytes) : (s.lmWrite a bs).fuses = s.fuses := rfl
@[simp] theorem State.lmWrite_core (s : State) (a : Nat) (bs : Bytes) : (s.lmWrite a bs).core = s.core := rfl
@[simp] theorem State.lmWrite_ptp (s : State) (a : Nat) (bs : Bytes) : (s.lmWrite a bs).ptp = s.ptp := rfl
@[simp] theorem State.lmWrite_regs (s : State) (a : Nat) (bs : Bytes) : (s.lmWrite a bs).regs = s.regs := rfl
@[simp] theorem State.lmWrite_react (s : State) (a : Nat) (bs : Bytes) : (s.lmWrite a bs).react = s.react := rfl
@[simp] theorem State.lmWrite_roseAt (s : State) (a : Nat) (bs : Bytes) : (s.lmWrite a bs).roseAt = s.roseAt := rfl
@[simp] theorem State.lmWrite_rose (s : State) (a : Nat) (bs : Bytes) : (s.lmWrite a bs).rose = s.rose := rfl
@[simp] theorem State.lmWrite_quiesce (s : State) (a : Nat) (bs : Bytes) : (s.lmWrite a bs).quiesce = s.quiesce := rfl
@[simp] theorem State.lmWrite_limitFrom (s : State) (a : Nat) (bs : Bytes) : (s.lmWrite a bs).limitFrom = s.limitFrom := rfl
@[simp] theorem State.lmWrite_lm (s : State) (a : Nat) (bs : Bytes) : (s.lmWrite a bs).lm = Store.write s.lm a bs := rfl
@[simp] theorem State.lmWrite_lmBad (s : State) (a : Nat) (bs : Bytes) : (s.lmWrite a bs).lmBad = s.lmBad.filter (fun w => decide (8 * w < a) || decide (a + bs.length < 8 * w + 8)) := rfl
@[simp] theorem State.lmWrite_sdb (s : State) (a : Nat) (bs : Bytes) : (s.lmWrite a bs).sdb = s.sdb := rfl
@[simp] theorem State.lmWrite_frames (s : State) (a : Nat) (bs : Bytes) : (s.lmWrite a bs).frames = s.frames := rfl
@[simp] theorem State.lmWrite_stp (s : State) (a : Nat) (bs : Bytes) : (s.lmWrite a bs).stp = s.stp := rfl
@[simp] theorem State.lmWrite_hq (s : State) (a : Nat) (bs : Bytes) : (s.lmWrite a bs).hq = s.hq := rfl
@[simp] theorem State.lmWrite_trail (s : State) (a : Nat) (bs : Bytes) : (s.lmWrite a bs).trail = s.trail := rfl
@[simp] theorem State.lmWrite_net (s : State) (a : Nat) (bs : Bytes) : (s.lmWrite a bs).net = s.net := rfl
@[simp] theorem State.lmWrite_servo (s : State) (a : Nat) (bs : Bytes) : (s.lmWrite a bs).servo = s.servo := rfl
@[simp] theorem State.lmWrite_pair (s : State) (a : Nat) (bs : Bytes) : (s.lmWrite a bs).pair = s.pair := rfl
@[simp] theorem State.lmWrite_care (s : State) (a : Nat) (bs : Bytes) : (s.lmWrite a bs).care = s.care := rfl
@[simp] theorem State.lmWrite_cnp (s : State) (a : Nat) (bs : Bytes) : (s.lmWrite a bs).cnp = s.cnp := rfl
@[simp] theorem State.lmWrite_lcr (s : State) (a : Nat) (bs : Bytes) : (s.lmWrite a bs).lcr = s.lcr := rfl
@[simp] theorem State.lmWrite_brn (s : State) (a : Nat) (bs : Bytes) : (s.lmWrite a bs).brn = s.brn := rfl
@[simp] theorem State.lmWrite_hold (s : State) (a : Nat) (bs : Bytes) : (s.lmWrite a bs).hold = s.hold := rfl
@[simp] theorem State.lmWrite_aud (s : State) (a : Nat) (bs : Bytes) : (s.lmWrite a bs).aud = s.aud := rfl
@[simp] theorem State.lmWrite_trm (s : State) (a : Nat) (bs : Bytes) : (s.lmWrite a bs).trm = s.trm := rfl
@[simp] theorem State.lmWrite_seed (s : State) (a : Nat) (bs : Bytes) : (s.lmWrite a bs).seed = s.seed := rfl
@[simp] theorem State.lmWrite_tap (s : State) (a : Nat) (bs : Bytes) : (s.lmWrite a bs).tap = s.tap := rfl
@[simp] theorem State.lmWrite_out (s : State) (a : Nat) (bs : Bytes) : (s.lmWrite a bs).out = s.out := rfl
@[simp] theorem State.lmWrite_free (s : State) (a : Nat) (bs : Bytes) : (s.lmWrite a bs).free = s.free := rfl

@[simp] theorem State.pushMsg_pending (s : State) (m : Bytes) : (s.pushMsg m).pending = s.pending := rfl
@[simp] theorem State.pushMsg_power (s : State) (m : Bytes) : (s.pushMsg m).power = s.power := rfl
@[simp] theorem State.pushMsg_fuses (s : State) (m : Bytes) : (s.pushMsg m).fuses = s.fuses := rfl
@[simp] theorem State.pushMsg_core (s : State) (m : Bytes) : (s.pushMsg m).core = s.core := rfl
@[simp] theorem State.pushMsg_ptp (s : State) (m : Bytes) : (s.pushMsg m).ptp = s.ptp := rfl
@[simp] theorem State.pushMsg_regs (s : State) (m : Bytes) : (s.pushMsg m).regs = s.regs := rfl
@[simp] theorem State.pushMsg_react (s : State) (m : Bytes) : (s.pushMsg m).react = s.react := rfl
@[simp] theorem State.pushMsg_roseAt (s : State) (m : Bytes) : (s.pushMsg m).roseAt = s.roseAt := rfl
@[simp] theorem State.pushMsg_rose (s : State) (m : Bytes) : (s.pushMsg m).rose = s.rose := rfl
@[simp] theorem State.pushMsg_quiesce (s : State) (m : Bytes) : (s.pushMsg m).quiesce = s.quiesce := rfl
@[simp] theorem State.pushMsg_limitFrom (s : State) (m : Bytes) : (s.pushMsg m).limitFrom = s.limitFrom := rfl
@[simp] theorem State.pushMsg_lm (s : State) (m : Bytes) : (s.pushMsg m).lm = s.lm := rfl
@[simp] theorem State.pushMsg_lmBad (s : State) (m : Bytes) : (s.pushMsg m).lmBad = s.lmBad := rfl
@[simp] theorem State.pushMsg_sdb (s : State) (m : Bytes) : (s.pushMsg m).sdb = s.sdb := rfl
@[simp] theorem State.pushMsg_frames (s : State) (m : Bytes) : (s.pushMsg m).frames = s.frames := rfl
@[simp] theorem State.pushMsg_stp (s : State) (m : Bytes) : (s.pushMsg m).stp = s.stp := rfl
@[simp] theorem State.pushMsg_hq (s : State) (m : Bytes) : (s.pushMsg m).hq = s.hq := rfl
@[simp] theorem State.pushMsg_trail (s : State) (m : Bytes) : (s.pushMsg m).trail = { s.trail with msgs := s.trail.msgs ++ [m] } := rfl
@[simp] theorem State.pushMsg_net (s : State) (m : Bytes) : (s.pushMsg m).net = s.net := rfl
@[simp] theorem State.pushMsg_servo (s : State) (m : Bytes) : (s.pushMsg m).servo = s.servo := rfl
@[simp] theorem State.pushMsg_pair (s : State) (m : Bytes) : (s.pushMsg m).pair = s.pair := rfl
@[simp] theorem State.pushMsg_care (s : State) (m : Bytes) : (s.pushMsg m).care = s.care := rfl
@[simp] theorem State.pushMsg_cnp (s : State) (m : Bytes) : (s.pushMsg m).cnp = s.cnp := rfl
@[simp] theorem State.pushMsg_lcr (s : State) (m : Bytes) : (s.pushMsg m).lcr = s.lcr := rfl
@[simp] theorem State.pushMsg_brn (s : State) (m : Bytes) : (s.pushMsg m).brn = s.brn := rfl
@[simp] theorem State.pushMsg_hold (s : State) (m : Bytes) : (s.pushMsg m).hold = s.hold := rfl
@[simp] theorem State.pushMsg_aud (s : State) (m : Bytes) : (s.pushMsg m).aud = s.aud := rfl
@[simp] theorem State.pushMsg_trm (s : State) (m : Bytes) : (s.pushMsg m).trm = s.trm := rfl
@[simp] theorem State.pushMsg_seed (s : State) (m : Bytes) : (s.pushMsg m).seed = s.seed := rfl
@[simp] theorem State.pushMsg_tap (s : State) (m : Bytes) : (s.pushMsg m).tap = s.tap := rfl
@[simp] theorem State.pushMsg_out (s : State) (m : Bytes) : (s.pushMsg m).out = s.out := rfl
@[simp] theorem State.pushMsg_free (s : State) (m : Bytes) : (s.pushMsg m).free = s.free := rfl

@[simp] theorem State.setCq_pending (s : State) (i : Nat) (c : Cq) : (s.setCq i c).pending = s.pending := rfl
@[simp] theorem State.setCq_power (s : State) (i : Nat) (c : Cq) : (s.setCq i c).power = s.power := rfl
@[simp] theorem State.setCq_fuses (s : State) (i : Nat) (c : Cq) : (s.setCq i c).fuses = s.fuses := rfl
@[simp] theorem State.setCq_core (s : State) (i : Nat) (c : Cq) : (s.setCq i c).core = s.core := rfl
@[simp] theorem State.setCq_ptp (s : State) (i : Nat) (c : Cq) : (s.setCq i c).ptp = s.ptp := rfl
@[simp] theorem State.setCq_regs (s : State) (i : Nat) (c : Cq) : (s.setCq i c).regs = s.regs := rfl
@[simp] theorem State.setCq_react (s : State) (i : Nat) (c : Cq) : (s.setCq i c).react = s.react := rfl
@[simp] theorem State.setCq_roseAt (s : State) (i : Nat) (c : Cq) : (s.setCq i c).roseAt = s.roseAt := rfl
@[simp] theorem State.setCq_rose (s : State) (i : Nat) (c : Cq) : (s.setCq i c).rose = s.rose := rfl
@[simp] theorem State.setCq_quiesce (s : State) (i : Nat) (c : Cq) : (s.setCq i c).quiesce = s.quiesce := rfl
@[simp] theorem State.setCq_limitFrom (s : State) (i : Nat) (c : Cq) : (s.setCq i c).limitFrom = s.limitFrom := rfl
@[simp] theorem State.setCq_lm (s : State) (i : Nat) (c : Cq) : (s.setCq i c).lm = s.lm := rfl
@[simp] theorem State.setCq_lmBad (s : State) (i : Nat) (c : Cq) : (s.setCq i c).lmBad = s.lmBad := rfl
@[simp] theorem State.setCq_sdb (s : State) (i : Nat) (c : Cq) : (s.setCq i c).sdb = s.sdb := rfl
@[simp] theorem State.setCq_frames (s : State) (i : Nat) (c : Cq) : (s.setCq i c).frames = s.frames := rfl
@[simp] theorem State.setCq_stp (s : State) (i : Nat) (c : Cq) : (s.setCq i c).stp = s.stp := rfl
@[simp] theorem State.setCq_hq (s : State) (i : Nat) (c : Cq) : (s.setCq i c).hq = { s.hq with cqs := Map.put s.hq.cqs i c } := rfl
@[simp] theorem State.setCq_trail (s : State) (i : Nat) (c : Cq) : (s.setCq i c).trail = s.trail := rfl
@[simp] theorem State.setCq_net (s : State) (i : Nat) (c : Cq) : (s.setCq i c).net = s.net := rfl
@[simp] theorem State.setCq_servo (s : State) (i : Nat) (c : Cq) : (s.setCq i c).servo = s.servo := rfl
@[simp] theorem State.setCq_pair (s : State) (i : Nat) (c : Cq) : (s.setCq i c).pair = s.pair := rfl
@[simp] theorem State.setCq_care (s : State) (i : Nat) (c : Cq) : (s.setCq i c).care = s.care := rfl
@[simp] theorem State.setCq_cnp (s : State) (i : Nat) (c : Cq) : (s.setCq i c).cnp = s.cnp := rfl
@[simp] theorem State.setCq_lcr (s : State) (i : Nat) (c : Cq) : (s.setCq i c).lcr = s.lcr := rfl
@[simp] theorem State.setCq_brn (s : State) (i : Nat) (c : Cq) : (s.setCq i c).brn = s.brn := rfl
@[simp] theorem State.setCq_hold (s : State) (i : Nat) (c : Cq) : (s.setCq i c).hold = s.hold := rfl
@[simp] theorem State.setCq_aud (s : State) (i : Nat) (c : Cq) : (s.setCq i c).aud = s.aud := rfl
@[simp] theorem State.setCq_trm (s : State) (i : Nat) (c : Cq) : (s.setCq i c).trm = s.trm := rfl
@[simp] theorem State.setCq_seed (s : State) (i : Nat) (c : Cq) : (s.setCq i c).seed = s.seed := rfl
@[simp] theorem State.setCq_tap (s : State) (i : Nat) (c : Cq) : (s.setCq i c).tap = s.tap := rfl
@[simp] theorem State.setCq_out (s : State) (i : Nat) (c : Cq) : (s.setCq i c).out = s.out := rfl
@[simp] theorem State.setCq_free (s : State) (i : Nat) (c : Cq) : (s.setCq i c).free = s.free := rfl

@[simp] theorem State.setSq_pending (s : State) (i : Nat) (q : Sq) : (s.setSq i q).pending = s.pending := rfl
@[simp] theorem State.setSq_power (s : State) (i : Nat) (q : Sq) : (s.setSq i q).power = s.power := rfl
@[simp] theorem State.setSq_fuses (s : State) (i : Nat) (q : Sq) : (s.setSq i q).fuses = s.fuses := rfl
@[simp] theorem State.setSq_core (s : State) (i : Nat) (q : Sq) : (s.setSq i q).core = s.core := rfl
@[simp] theorem State.setSq_ptp (s : State) (i : Nat) (q : Sq) : (s.setSq i q).ptp = s.ptp := rfl
@[simp] theorem State.setSq_regs (s : State) (i : Nat) (q : Sq) : (s.setSq i q).regs = s.regs := rfl
@[simp] theorem State.setSq_react (s : State) (i : Nat) (q : Sq) : (s.setSq i q).react = s.react := rfl
@[simp] theorem State.setSq_roseAt (s : State) (i : Nat) (q : Sq) : (s.setSq i q).roseAt = s.roseAt := rfl
@[simp] theorem State.setSq_rose (s : State) (i : Nat) (q : Sq) : (s.setSq i q).rose = s.rose := rfl
@[simp] theorem State.setSq_quiesce (s : State) (i : Nat) (q : Sq) : (s.setSq i q).quiesce = s.quiesce := rfl
@[simp] theorem State.setSq_limitFrom (s : State) (i : Nat) (q : Sq) : (s.setSq i q).limitFrom = s.limitFrom := rfl
@[simp] theorem State.setSq_lm (s : State) (i : Nat) (q : Sq) : (s.setSq i q).lm = s.lm := rfl
@[simp] theorem State.setSq_lmBad (s : State) (i : Nat) (q : Sq) : (s.setSq i q).lmBad = s.lmBad := rfl
@[simp] theorem State.setSq_sdb (s : State) (i : Nat) (q : Sq) : (s.setSq i q).sdb = s.sdb := rfl
@[simp] theorem State.setSq_frames (s : State) (i : Nat) (q : Sq) : (s.setSq i q).frames = s.frames := rfl
@[simp] theorem State.setSq_stp (s : State) (i : Nat) (q : Sq) : (s.setSq i q).stp = s.stp := rfl
@[simp] theorem State.setSq_hq (s : State) (i : Nat) (q : Sq) : (s.setSq i q).hq = { s.hq with sqs := Map.put s.hq.sqs i q } := rfl
@[simp] theorem State.setSq_trail (s : State) (i : Nat) (q : Sq) : (s.setSq i q).trail = s.trail := rfl
@[simp] theorem State.setSq_net (s : State) (i : Nat) (q : Sq) : (s.setSq i q).net = s.net := rfl
@[simp] theorem State.setSq_servo (s : State) (i : Nat) (q : Sq) : (s.setSq i q).servo = s.servo := rfl
@[simp] theorem State.setSq_pair (s : State) (i : Nat) (q : Sq) : (s.setSq i q).pair = s.pair := rfl
@[simp] theorem State.setSq_care (s : State) (i : Nat) (q : Sq) : (s.setSq i q).care = s.care := rfl
@[simp] theorem State.setSq_cnp (s : State) (i : Nat) (q : Sq) : (s.setSq i q).cnp = s.cnp := rfl
@[simp] theorem State.setSq_lcr (s : State) (i : Nat) (q : Sq) : (s.setSq i q).lcr = s.lcr := rfl
@[simp] theorem State.setSq_brn (s : State) (i : Nat) (q : Sq) : (s.setSq i q).brn = s.brn := rfl
@[simp] theorem State.setSq_hold (s : State) (i : Nat) (q : Sq) : (s.setSq i q).hold = s.hold := rfl
@[simp] theorem State.setSq_aud (s : State) (i : Nat) (q : Sq) : (s.setSq i q).aud = s.aud := rfl
@[simp] theorem State.setSq_trm (s : State) (i : Nat) (q : Sq) : (s.setSq i q).trm = s.trm := rfl
@[simp] theorem State.setSq_seed (s : State) (i : Nat) (q : Sq) : (s.setSq i q).seed = s.seed := rfl
@[simp] theorem State.setSq_tap (s : State) (i : Nat) (q : Sq) : (s.setSq i q).tap = s.tap := rfl
@[simp] theorem State.setSq_out (s : State) (i : Nat) (q : Sq) : (s.setSq i q).out = s.out := rfl
@[simp] theorem State.setSq_free (s : State) (i : Nat) (q : Sq) : (s.setSq i q).free = s.free := rfl

end Sys2Proof.Machine
end

