-- ==== Sys2Proof/WellFormed.lean ====
section
/-! DEFINITION. Which commands are well formed: every index, number and length an operand carries lies in the range that the
rule at its constructor gives the place it names.  The meanings are total; a command that is not well formed names something
the device does not have. -/

namespace Sys2Proof

/-- A descriptor comes from one of the 1,024 queue numbers (R63). -/
def Desc.wf (d : Desc) : Bool := decide (d.sq < 1024)

/-- A payload or marker slot is 256 bytes (R101). -/
def slotWf (b : Bytes) : Bool := decide (b.length = 256)

/-- A payload slot has an index from 1 to 1,023 (R101). -/
def indexWf (i : Nat) : Bool := decide (1 ≤ i) && decide (i < 1024)

/-- Blocks come by the eight lanes of a port (R83), or none do. -/
def lanesWf (rx : List (List Block)) : Bool := decide (rx.length = 8) || rx.isEmpty

/-- A marker round has a block on each of the eight lanes (R89). -/
def roundWf (r : List (Nat × Block)) : Bool := decide (r.length = 8)

/-- A return message names a port, a payload slot and a place in its payload (R114, R115). -/
def RetMsg.wf (m : RetMsg) : Bool := decide (m.port < 4) && indexWf m.at0 && slotWf m.slot && decide (m.idx < 60)

/-- A received frame comes from NET0 or NET1 and is no shorter than its bytes say, an Ethernet header at least (R125). -/
def NetFrame.wf (f : NetFrame) : Bool := decide (f.port < 2) && decide (f.raw.length ≤ f.len) && decide (14 ≤ f.raw.length)

/-- A register offset is word-aligned and lies in BAR0, or in BAR2 placed after it (R60, R381). -/
def offWf (off : Nat) : Bool := off % 4 == 0 && decide (off < 2 ^ 22)

/-- Bits of branches 0 to 127 (R222). -/
def branchWf (l : List (Nat × List Bool)) : Bool := l.all (fun x => decide (x.1 < 128))

/-- The command is well formed. -/
def Instr.wf (i : Instr) : Bool :=
  match i with
  | .pornAssert => true
  | .pornRelease _ => true
  | .perst => true
  | .rootLock => true
  | .bootLoad => true
  | .rangerRunning => true
  | .refLoss => true
  | .fbclkLoss => true
  | .holdoverExpiry => true
  | .slewComplete => true
  | .rootUnlock => true
  | .frameBoundary => true
  | .fixFrameStart => true
  | .frameLatch => true
  | .subframeBoundary => true
  | .scriptRunEnd group pads bri => decide (group < 16) && branchWf pads && branchWf bri
  | .frmCfgWrite _ => true
  | .frmRun => true
  | .frmStop => true
  | .frmReseed => true
  | .stepDispatch entry => decide (entry < 256)
  | .bandJudgment band => decide (band < 16)
  | .bandComposed band => decide (band < 16)
  | .passComplete => true
  | .bandAbandon band => decide (band < 16)
  | .bankRetire => true
  | .gladeVerdict glade => decide (glade < 16)
  | .substitutionDone glade => decide (glade < 16)
  | .gladeRelease _ => true
  | .standLoad d => d.wf
  | .standUnload d => d.wf
  | .overlayLoad d => d.wf
  | .overlayUnload d => d.wf
  | .shadowStand d => d.wf
  | .shadowOverlays d => d.wf
  | .shadowLayer d => d.wf
  | .shadowBuffer d => d.wf
  | .shadowTables d => d.wf
  | .shadowGlade d => d.wf
  | .shadowPattern d => d.wf
  | .shadowDimmer d => d.wf
  | .shadowRevert d => d.wf
  | .commit d => d.wf
  | .commitPrepare => true
  | .commitValidate => true
  | .cutoff => true
  | .localCommitDecide => true
  | .commitCancel d => d.wf
  | .excludeSet d => d.wf
  | .commitStatus d => d.wf
  | .doorbellPoll words => words.all (fun w => decide (w.1 < 1024))
  | .descriptorFetch _ => true
  | .completionPost cq _ _ => decide (cq < 256)
  | .headWordRead cq _ => decide (cq < 256)
  | .acqHeadWrite _ => true
  | .coalesceTimer cq => decide (cq < 256)
  | .hqsEnable _ => true
  | .adminQueueSetup off _ => offWf off
  | .bar4Access off _ len => decide (off + len ≤ 2 ^ 28)
  | .nop d => d.wf
  | .sqCreate d => d.wf
  | .sqDelete d => d.wf
  | .cqCreate d => d.wf
  | .cqDelete d => d.wf
  | .queueQuery d => d.wf
  | .mbxResync d => d.wf
  | .tileRegRead d => d.wf
  | .tileRegWrite d => d.wf
  | .tileWrite d _ => d.wf
  | .tileRead d => d.wf
  | .localWrite d _ => d.wf
  | .localRead d _ => d.wf
  | .mailbox port index slot => decide (port < 4) && indexWf index && slotWf slot
  | .remoteWrite port index slot => decide (port < 4) && indexWf index && slotWf slot
  | .regRead port index slot => decide (port < 4) && indexWf index && slotWf slot
  | .regWrite port index slot => decide (port < 4) && indexWf index && slotWf slot
  | .resync port index slot => decide (port < 4) && indexWf index && slotWf slot
  | .readReq port index slot => decide (port < 4) && indexWf index && slotWf slot
  | .tileMailboxPoll => true
  | .mbxAck m => m.wf
  | .mbxRetransmit tile => decide (tile < 512)
  | .completion m => m.wf
  | .regReply m => m.wf
  | .event m _ => m.wf
  | .readData m _ => m.wf
  | .trlEnable port => decide (port < 4)
  | .trlDisable port => decide (port < 4)
  | .detectSense port _ => decide (port < 4)
  | .trainEnd port _ _ => decide (port < 4)
  | .prbsDetect port => decide (port < 4)
  | .blockLock port rx => decide (port < 4) && lanesWf rx
  | .deskewDone port round1 round2 rx => decide (port < 4) && roundWf round1 && roundWf round2 && lanesWf rx
  | .lockTimeout port rx => decide (port < 4) && lanesWf rx
  | .deskewTimeout port rx => decide (port < 4) && lanesWf rx
  | .capTimeout port rx => decide (port < 4) && lanesWf rx
  | .capabilityAccept port copy1 copy2 rx => decide (port < 4) && decide (copy1.length = 56) && decide (copy2.length = 56) && lanesWf rx
  | .portActive port => decide (port < 4)
  | .signalLoss port => decide (port < 4)
  | .lockLoss port rx => decide (port < 4) && lanesWf rx
  | .deskewLoss port round1 round2 rx => decide (port < 4) && roundWf round1 && roundWf round2 && lanesWf rx
  | .hiBer port => decide (port < 4)
  | .retrain port => decide (port < 4)
  | .peerSleep port => decide (port < 4)
  | .dormantEnter port => decide (port < 4)
  | .dormantClear port => decide (port < 4)
  | .wakeDetect port => decide (port < 4)
  | .wakeRelock port => decide (port < 4)
  | .trailCycleStart port => decide (port < 4)
  | .chunkDrop port => decide (port < 4)
  | .markerReceive port slot rx => decide (port < 4) && slotWf slot && lanesWf rx
  | .markerMissing port rx => decide (port < 4) && lanesWf rx
  | .chunkReceive port index slot => decide (port < 4) && indexWf index && slotWf slot
  | .broadcastSlot port index slot => decide (port < 4) && indexWf index && slotWf slot
  | .bcastGapTimer stream => decide (1 ≤ stream) && decide (stream ≤ 5)
  | .bcastGap m => m.wf
  | .commitReply m => m.wf
  | .lockReport m => m.wf
  | .emptySlotArrive port index => decide (port < 4) && decide (index < 1024)
  | .echoReq port index slot => decide (port < 4) && indexWf index && slotWf slot
  | .echoRsp port index slot => decide (port < 4) && indexWf index && slotWf slot
  | .echoTimeout port _ => decide (port < 4)
  | .echoStale => true
  | .previewReturn port index slot => decide (port < 4) && indexWf index && slotWf slot
  | .epochAdvance => true
  | .rosterTimeout port tile => decide (port < 4) && decide (tile < 512)
  | .netFrameReceive f => f.wf
  | .hostFetchComplete source _ _ _ => decide (source < 16)
  | .referenceRelease _ => true
  | .sacnSourceTimeout universeIndex _ => decide (universeIndex < 32)
  | .sacnCommit => true
  | .sacnHeldWrite => true
  | .sacnCueCommit => true
  | .netLinkDown port => decide (port < 2)
  | .netModeWrite port _ => decide (port < 2)
  | .pacedLaunch flow => decide (flow < 64)
  | .timedLaunch port => decide (port < 2)
  | .flowSet d => d.wf
  | .flowClear d => d.wf
  | .sourceSet d => d.wf
  | .rxPost d => d.wf
  | .txSend d _ => d.wf
  | .flowStats d _ => d.wf
  | .sacnMap d => d.wf
  | .sacnCue d => d.wf
  | .previewSet d => d.wf
  | .txflowSet d => d.wf
  | .timeNsRead => true
  | .timeSet => true
  | .rangerOffsetFeed _ _ => true
  | .servoFeed d => d.wf
  | .servoHoldover => true
  | .timeStep d => d.wf
  | .timeRead d => d.wf
  | .tsFetch d _ => d.wf
  | .geometryCheck d => d.wf
  | .canopyStats d _ => d.wf
  | .tableWrite d _ _ => d.wf
  | .tablePatch d _ => d.wf
  | .patchApply => true
  | .tableVerify d => d.wf
  | .censusRun d => d.wf
  | .branchStats d _ => d.wf
  | .holdSet d => d.wf
  | .nightEntry => true
  | .fsyncEdge _ => true
  | .fsyncLost => true
  | .fsyncZeroPulse => true
  | .standaloneExit => true
  | .audioRun => true
  | .audioBlockBoundary _ => true
  | .fbStartPulse => true
  | .fbsLost => true
  | .asrcUnlock port _ => decide (port < 16)
  | .asrcLock port _ _ => decide (port < 16)
  | .silentChangeApply channel => decide (channel < 4352)
  | .zcTimeout channel => decide (channel < 4352)
  | .portSet d => d.wf
  | .streamSet d => d.wf
  | .routeSet d => d.wf
  | .captureSet d => d.wf
  | .txaudSet d => d.wf
  | .groupSet d => d.wf
  | .claim => true
  | .takeoverDecision => true
  | .resign => true
  | .healthUpdate => true
  | .arbSelect => true
  | .arbDeselect => true
  | .fbSerFrame frame => decide (frame.length = 64)
  | .serLost => true
  | .overlapTimeout => true
  | .healthReport _ => true
  | .patrolTest _ _ => true
  | .handover d => d.wf
  | .pairStatus d => d.wf
  | .digestReset d => d.wf
  | .faultEvent block source => decide (block < 23) && decide (source < 32)
  | .blockReset block => decide (block < 23)
  | .quiesceEnd block => decide (block < 23)
  | .resetLimitEnd => true
  | .blkReactWrite block _ => decide (block < 23)
  | .lmcScrub addr _ => decide (addr < 2 ^ 33)
  | .supplyDip rail => decide (rail < 5)
  | .dipRecovery => true
  | .supplyReset rail => decide (rail < 5)
  | .supplyResetRelease _ _ => true
  | .wdgKick => true
  | .preExpire => true
  | .expired => true
  | .busy cls => decide (1 ≤ cls) && decide (cls ≤ 6)
  | .faultSnapshot d _ => d.wf
  | .rangerRestart d => d.wf
  | .thermalSample readings => decide (readings.length = 16)
  | .peakReset => true
  | .trimApply => true
  | .trimChange => true
  | .trimSave d _ => d.wf
  | .trimRestore d _ => d.wf
  | .memBist d _ _ => d.wf
  | .imageWrite d _ => d.wf
  | .imageActivate d => d.wf
  | .imageConfirm d => d.wf
  | .imageRevert d => d.wf
  | .migrationReport d _ => d.wf
  | .imageBroadcast d _ => d.wf
  | .sdbQuery d => d.wf
  | .trialWindowExpiry => true
  | .seedbankScrub offset _ => decide (offset < 2 ^ 26)
  | .tileIdWrite _ _ => true
  | .loHiPairWrite off _ => offWf off
  | .shadowFieldWrite off _ => offWf off
  | .registerWrite off _ _ => decide (off < 2 ^ 22)
  | .jtagInstruction _ => true
  | .netLinkUp port speed _ => decide (port < 2) && decide (speed = 1 ∨ speed = 2)
  | .fbclkPresent => true
  | .fbActInRise => true
  | .freeRunFrameStart => true

end Sys2Proof
end

