-- ==== Sys2Proof/Tests/Slice0.lean ====
section
/-! SUPPORT. Tests: witnesses of the statements' hypotheses, values the manual gives, and ill-formed commands refused. -/

open Sys2Proof Sys2Proof.Machine

/-- A head whose clocks and Ranger run, with every other field at reset. -/
def hd : State :=
  let s := { State.reset with power := { State.reset.power with clocks := true, ranger := .running } }
  s.wr F.GLB_BOOT_STAT_NOT_READY 0

/-- A tile whose clocks and Ranger run, with every other field at reset. -/
def tl : State := { hd with power := { hd.power with straps := { hd.power.straps with role := true } } }

/-- A descriptor of SQ 0 with the given operand bits. -/
def dsc (ops : BitVec 384) : Desc := { mbx := false, sq := 0, sqHead := 0, flags := 0, rsv := 0, tag := 7, ops := ops }

/-- A payload slot from its first 12 bytes and the first bytes of its payload, with its CRC. -/
def slotOf (head body : Bytes) : Bytes :=
  let b := head ++ List.replicate 4 0 ++ body ++ List.replicate (240 - body.length) 0
  head ++ leBytes 4 (crc32c b).toNat ++ body ++ List.replicate (240 - body.length) 0

theorem length_leBytes (n v : Nat) : (leBytes n v).length = n := by
  induction n generalizing v with
  | zero => rfl
  | succ n ih => simp [leBytes, ih]

theorem leNat_leBytes4 (v : BitVec 32) : leNat (leBytes 4 v.toNat) = v.toNat := by
  have h := v.isLt
  simp only [leBytes, leNat, BitVec.toNat_ofNat]
  omega

theorem slotCrcOk_slotOf {h b : Bytes} (hh : h.length = 12) (hb : b.length ≤ 240) : slotCrcOk (slotOf h b) = true := by
  have hl : (slotOf h b).length = 256 := by simp [slotOf, length_leBytes, hh]; omega
  have hd : (slotOf h b).drop 16 = b ++ List.replicate (240 - b.length) 0 := by
    simp [slotOf, List.drop_append, length_leBytes, hh]
  have ht : (slotOf h b).take 12 = h := by simp [slotOf, hh]
  have hn : ((slotOf h b).drop 12).take 4 = leBytes 4 (crc32c (h ++ List.replicate 4 0 ++ b ++ List.replicate (240 - b.length) 0)).toNat := by
    simp [slotOf, List.drop_append, length_leBytes, hh]
  have hc : blank ((slotOf h b).take 256) 12 4 = h ++ List.replicate 4 0 ++ b ++ List.replicate (240 - b.length) 0 := by
    rw [List.take_of_length_le (by omega), blank, ht, hd]; simp
  simp only [slotCrcOk, slotCrc, hl, hc, numAt, hn, leNat_leBytes4]; simp

theorem retSlot_of {s : State} {m : RetMsg} (hc : slotCrcOk m.slot = true) (h : (m.idx == 0 && s.portActive m.port &&
    !slotEmpty m.slot && slotFormed m.slot && class5Head m.slot && !s.forwards) = true) : s.retSlot m = s := by
  simp only [Bool.and_eq_true, beq_iff_eq, Bool.not_eq_true'] at h
  simp [State.retSlot, h, hc, State.pass]
theorem takes_of {s : State} {m : RetMsg} {kind : Nat} (hc : slotCrcOk m.slot = true) (h : (m.idx == 0 &&
    s.portActive m.port && !slotEmpty m.slot && slotFormed m.slot && class5Head m.slot && !s.forwards) = true)
    (h2 : (s.live && s.isHead && slotClass m.slot == 5 && s.freshRet m && m.msg == some (true, m.body) &&
      numAt m.body 0 1 == kind) = true) : s.takes m kind = true := by
  have hr := retSlot_of hc h
  simp only [Bool.and_eq_true, beq_iff_eq, Bool.not_eq_true'] at h h2
  simp [State.takes, hr, State.takesRet, h, h2, hc]

theorem arrived_of {s : State} {m : RetMsg} (hc : slotCrcOk m.slot = true) (h : (m.idx == 0 && s.portActive m.port &&
    !slotEmpty m.slot && slotFormed m.slot && class5Head m.slot && !s.forwards) = true) : s.arrived m = s.noted m := by
  rw [State.arrived, retSlot_of hc h]

/-- A head with an Active port, and a return slot of tile 4 there with one message. -/
def hearing : State := hd.wr (F.TRL_STAT_STATE 0) 6
def msgOf (body : Bytes) : RetMsg := { port := 0, at0 := 1, slot := slotOf ([0xA5, 0, 4, 0] ++ List.replicate 8 0) body, idx := 0 }

theorem msgOf_crc {b : Bytes} (h : b.length ≤ 240) : slotCrcOk (msgOf b).slot = true := slotCrcOk_slotOf rfl h

theorem wit_IdleCycle_runs : hd.pending = [] ∧ hd.live = true := by decide
theorem wit_IdleCycle_stopped : State.reset.pending = [] ∧ State.reset.live = false := by decide
theorem wit_InvKept : hd.inv = true ∧ (step hd matches .next _) = true := by decide
theorem wit_StoresLeftAlone : storesNothing .refLoss = true ∧ (exec .refLoss hd matches .next _) = true := by decide
theorem wit_SeedbankLeftAlone : keepsSeedbank .pornAssert = true ∧ (exec .pornAssert hd matches .next _) = true := by decide
theorem wit_TurnedAway : descriptorOf (.nop (dsc 0)) = some (dsc 0, 0, .both) ∧ hd.live = true ∧
    hd.on F.GLB_BOOT_STAT_NOT_READY = false := by decide
theorem wit_TurnedAway_format : ({ dsc 0 with flags := 4 } : Desc).commonOk = false := by decide
theorem wit_TurnedAway_role : (dsc 0).commonOk = true ∧ tl.has .head = false := by decide
theorem wit_TurnedAway_mailbox : ({ dsc 0 with mbx := true } : Desc).commonOk = true := by decide
theorem wit_Waits_ranger : ({ hd with power := { hd.power with ranger := .starting } } : State).judge (dsc 0) 0x14 .both = none ∧
    ({ hd with power := { hd.power with ranger := .starting } } : State).waitsRanger 0x14 = true := by decide

/-- A fetched entry of SQ 0 at a head index. -/
def flightAt (h : BitVec 16) : Flight :=
  { sq := 0, sqHead := h, op := 0, flags := 0, tag := 0, ops := 0, cq := 0, ranger := false, started := true, done := none, at0 := 0 }

theorem wit_Waits_fence : ({ hd with hq := { hd.hq with flights := [flightAt 1, flightAt 0] } } : State).judge
      { dsc 0 with flags := 1 } 0 .both = none ∧
    ahead [flightAt 1, flightAt 0] { dsc 0 with flags := 1 } = [flightAt 1] ∧ (flightAt 1).done = none ∧
    ({ hd with hq := { hd.hq with flights := [flightAt 1, flightAt 0] } } : State).forwarded (flightAt 1) = false ∧
    ({ dsc 0 with flags := 1 } : Desc).flags.getLsbD 0 = true := by decide
theorem wit_Waits_frozen : (hd.wr F.STP_STATE_FROZEN 1).frozen = true ∧ editOp 0x14 = true := by decide
theorem wit_FinishMarksFlight : ({ hd with hq := { hd.hq with flights := [flightAt 1] ++ flightAt 0 :: [] } } : State).hq.deleting = [] ∧
    (flightAt 0).sqHead = (dsc 0).sqHead ∧ ∀ g ∈ [flightAt 1], ¬(g.sq = 0 ∧ g.sqHead = 0 ∧ g.done = none) := by decide

theorem wit_ResetWipes : hd.monitored 0 = true ∧ hd.monitored 3 = true ∧ hd.power.phase ≠ .porn := by decide

/-- The head held by PORn, and held by a supply reset. -/
def heldPorn : State := { hd with power := { hd.power with phase := .porn } }
def heldSupply : State := { hd with power := { hd.power with phase := .supply } }

theorem wit_ReleaseSamples : strapsLow.test = false ∧ heldPorn.power.phase = .porn ∧ heldSupply.power.phase = .supply := by decide
theorem wit_RootStarts_first : State.reset.power.phase = .run ∧ State.reset.power.clocks = false ∧ State.reset.care.shut = false ∧
    3 < State.reset.portCount := by decide
theorem wit_RootStarts_again : hd.power.phase = .run ∧ hd.power.clocks = true ∧ hd.rd F.CLK_ROOT_STAT_REF ≠ 4 ∧
    hd.on F.CLK_ROOT_STAT_SLEWING = false := by decide
theorem wit_RootStarts_held : heldPorn.power.phase ≠ .run := by decide

/-- The head as side A of a pair, standing by. -/
def standby : State := { hd with power := { hd.power with straps := { hd.power.straps with side0 := true } } }

theorem wit_RootReferences_pair : standby.live = true ∧ standby.isHead = true ∧ standby.isPair = true ∧ standby.claims = false := by
  decide
theorem wit_RootReferences_holdover : (hd.wr F.CLK_ROOT_STAT_REF 4).rd F.CLK_ROOT_STAT_REF = 4 ∧
    (hd.wr F.CLK_ROOT_STAT_REF 4).on F.CLK_ROOT_STAT_SLEWING = false ∧ hd.rd F.CLK_ROOT_STAT_REF ≠ 4 ∧
    (hd.wr F.CLK_ROOT_STAT_REF 4).live = true ∧ hd.isHead = true := by decide

/-- R348: each of the three illegal settings is decoded as the table gives (side, boot source). -/
theorem test_straps_decoded :
    ({ hd with power := { hd.power with straps := ⟨false, true, true, true, true, false⟩ } } : State).side = 0 ∧
    ({ hd with power := { hd.power with straps := ⟨false, false, false, true, true, false⟩ } } : State).bootSrc = 0 ∧
    ({ hd with power := { hd.power with straps := ⟨false, false, false, true, false, false⟩ } } : State).bootSrc = 1 := by decide

theorem wit_ModeWrite_stopped : hd.live = true ∧ (hd.isTile && hd.anyActive) = false ∧ hd.on F.CLK_FRM_CTRL_RUN = false ∧
    lawfulMode 14 2 = true ∧ lawfulMode 14 3 = false ∧ lawfulMode 15 0 = false := by decide

/-- The head with its schedule running. -/
def running : State := hd.wr F.CLK_FRM_CTRL_RUN 1

theorem wit_ModeWrite_running : running.live = true ∧ running.on F.CLK_FRM_CTRL_RUN = true ∧ running.rate = 9 ∧
    running.frozen = false ∧ lawfulMode 9 3 = true := by decide

/-- A tile whose West port is Active. -/
def tileWest : State := tl.wr (F.TRL_STAT_STATE 0) 6

theorem wit_ModeWrite_tile : tileWest.live = true ∧ tileWest.isTile = true ∧ tileWest.anyActive = true := by decide

/-- The head seeded 10 ms ahead of the counter, with the nominal addend. -/
def seeded : State := hd.wr F.CLK_FRM_SEED_TIME 10000000

theorem wit_ScheduleStarts : seeded.live = true ∧ seeded.isHead = true ∧ seeded.seedOk (seeded.leadFor seeded.dringMax + 16896) = true ∧
    hd.seedOk (hd.leadFor hd.dringMax + 16896) = false ∧ (seeded.wr F.CLK_FRM_CTRL_RUN 1).seedOk 0 = true ∧
    seeded.frames.begun = false ∧ seeded.frames.fixed = none := by decide
theorem wit_ScheduleStarts_begun : ({ running with frames := { running.frames with begun := true } } : State).seedOk 0 = true := by
  decide
theorem wit_FrameFixed : running.schedules = true ∧ running.frames.fixed = none ∧ running.frames.lost = false ∧
    running.frames.k = 0 ∧ running.frames.begun = false ∧ lengthOk running.rate (running.core + running.cyclesTo 0 - 0) = false := by
  decide
theorem wit_BoundarySteps : running.refresh = 16 ∧ running.isHead = true ∧ running.frames.reseed = none ∧
    ({ running with frames := { running.frames with k := 2 } } : State).core + ({ running with frames := { running.frames with k := 2 } } :
      State).cyclesTo 576 < ({ running with frames := { running.frames with k := 2, tgt := 576 } } : State).fixBy := by decide

/-- R28, R34: at 59.94 Hz and x32 a sub-frame is 300,300,000 schedule ticks. -/
theorem test_subTicks : frameTicks 8 / multOf 2 = 300300000 := by decide
/-- R31: 59.94 Hz is 26,882,324 whole CK_CORE cycles. -/
theorem test_frame_cycles : ticksToCycles (frameTicks 8) = 26882324 := by decide
/-- R31: the frame ledger's sub-frames 1, 16 and 31. -/
theorem test_ledger : ([1, 16, 31].map (fun k => k * 26882324 / 32)) = [840072, 13441162, 26042251] := by decide

/-- A tile with an announced start, and one whose frame is 100 cycles old. -/
def latched : State := { tl with frames := { tl.frames with latch := some (50000000, 7) } }
def begun : State := { latched with frames := { latched.frames with begun := true, start := 49999900, len := 26882324 } }

theorem wit_TileFrameStart : latched.live = true ∧ latched.isTile = true ∧ latched.frames.begun = false ∧
    latched.care.shut = false ∧ begun.frames.begun = true ∧
    2 * (50000000 - begun.frames.start) * 36864000 < frameTicks begun.rate * 103125 ∧
    frameTicks begun.rate * 103125 ≤ 2 * (50000000 - 0) * 36864000 := by decide
theorem wit_TileSubframes : tl.refresh = 16 ∧ begun.frames.sub + 1 < tl.refresh ∧ begun.frames.len ≠ 0 ∧
    begun.care.shut = false ∧ hd.isHead = true := by decide

/-- A standalone tile on FSYNC_IN. -/
def onFs : State := ({ begun with frames := { begun.frames with latch := none } }.wr F.CLK_FRM_CTRL_RUN 1).wr F.PAT_SA_CFG_FSYNC 1

theorem wit_TileOnItsOwn : onFs.onFsync = true ∧ onFs.on F.PAT_SA_CFG_POL = false ∧ onFs.hold.zero = false ∧
    begun.schedules = false ∧ begun.onFsync = false ∧ onFs.on F.PAT_SA_STAT_FSYNC_LOCK = false ∧
    2 * (onFs.core - onFs.frames.start) * 36864000 < frameTicks onFs.rate * 103125 ∧
    frameTicks onFs.rate * 103125 ≤ 2 * ((onFs.advance 100000000).core - onFs.frames.start) * 36864000 := by decide
theorem wit_TileOnItsOwn_exit : (begun.wr (F.TRL_STAT_STATE 0) 6 |>.wr F.CLK_FRM_CTRL_RUN 1).anyActive = true ∧
    (begun.wr (F.TRL_STAT_STATE 0) 6 |>.wr F.CLK_FRM_CTRL_RUN 1).on F.CLK_FRM_CTRL_RUN = true ∧
    begun.frames.latch.isSome = true := by decide
theorem wit_HoldRequests : tl.accepts (dsc 1) 0x88 .tile = true ∧ (dsc 1).only [(0, 0, 8)] = true ∧ (dsc 1).num 0 1 = 1 ∧
    (dsc 0).num 0 1 = 0 ∧ tl.hold.byHost = false ∧ tl.rd F.PAT_HOLD_STAT_STATE ≠ 3 ∧
    (tl.wr F.PAT_HOLD_STAT_STATE 3).accepts (dsc 1) 0x88 .tile = true ∧
    tl.accepts { dsc 3 with mbx := true } 0x88 .tile = true := by decide
theorem wit_HoldRequests_night : ((tl.wr (F.TRL_STAT_STATE 0) 7).wr (F.TRL_STAT_STATE 1) 7).rd (F.TRL_STAT_STATE 0) = 7 ∧
    ((tl.wr (F.TRL_STAT_STATE 0) 7).wr (F.TRL_STAT_STATE 1) 7).rd (F.TRL_STAT_STATE 1) = 7 := by decide
theorem wit_SlewAndStaleDelay : (hd.wr F.CLK_ROOT_STAT_SLEWING 1).on F.CLK_ROOT_STAT_SLEWING = true ∧
    hd.on F.CLK_ROOT_STAT_SLEWING = false := by decide

theorem wit_FaultRecords : hd.live = true ∧ hd.blockHere 1 = true ∧ (Map.find (reactDefaults 1) 3).isSome = true ∧
    hd.masked 1 3 = false ∧ hd.codeOf 1 3 = 0 ∧ hd.codeOf 1 4 = 1 ∧ sourceCount (1, 3) = none ∧ sourceCount (1, 4) = none ∧
    lmReadSource (1, 4) = false ∧ sramSource (1, 4) = false ∧ bit (hd.rd (F.BLK_IRQ_EN 1)) 4 = true ∧
    bit (hd.rd (F.BLK_IRQ_PEND 1)) 4 = false ∧ hd.power.pcie = true := by decide
theorem wit_FaultRecords_pending : bit ((hd.wr (F.BLK_IRQ_PEND 1) 16).rd (F.BLK_IRQ_PEND 1)) 4 = true ∧
    bit ((hd.wr (F.BLK_IRQ_EN 1) 0).rd (F.BLK_IRQ_EN 1)) 4 = false := by decide

/-- The head inside a quiesce window of PTP, which covers CLK. -/
def quiet : State := { hd with quiesce := [⟨10, 2 ^ 10 + 2 ^ 1 + 2 ^ 15, 0⟩] }

theorem wit_MaskedEvents : quiet.masked 1 3 = true ∧ quiet.live = true ∧ quiet.blockHere 1 = true ∧ quiet.sameReset (1, 3) = false := by decide
theorem wit_MaskedEvents_same : (let s := { quiet with react := [(32 * 10 + E.PTP_SET_REJECT.2, 2)] }
    s.sameReset E.PTP_SET_REJECT && s.masked 10 E.PTP_SET_REJECT.2 && s.blockHere 10 && (sourceCount E.PTP_SET_REJECT).isNone &&
      !lmReadSource E.PTP_SET_REJECT && !sramSource E.PTP_SET_REJECT) = true := by decide
theorem wit_ReactionWrites : hd.live = true ∧ hd.blockHere 0 = true ∧ hd.blockHere 22 = true ∧
    (Map.find (reactDefaults 0) 31).isNone = true ∧ (Map.find (reactDefaults 11) 10).isSome = true := by decide
/-- R291: CODE 2 is stored for CNP.STORE_ECC (bit 10), and CODE 0 is not stored for SUP.DIP_WARN (bit 0). -/
theorem test_react : (match exec (.blkReactWrite 11 0x8000020A) hd with | .next t => t.codeOf 11 10 | _ => 9) = 2 ∧
    (match exec (.blkReactWrite 17 0x80000000) hd with | .next t => t.codeOf 17 0 | _ => 9) = hd.codeOf 17 0 := by decide
theorem wit_BlockResets : hd.blockHere 4 = true ∧ hd.blockHere 15 = true ∧ tl.blockHere 13 = true ∧ tl.blockHere 3 = true ∧
    quiet.quiesce = [] ++ ⟨10, 2 ^ 10 + 2 ^ 1 + 2 ^ 15, 0⟩ :: [] := by decide
theorem wit_BlockResets_limit : ({ hd with limitFrom := some 5 } : State).limitFrom = some 5 ∧ hd.live = true := by decide
theorem wit_Supervision : hd.rd F.LMC_SCRUB_PERIOD ≠ 0 ∧ hd.monitored 0 = true ∧ hd.monitored 3 = true ∧
    hd.power.ranger = .running ∧ hd.on F.SDB_STAT_TRIAL = false ∧
    ({ hd with care := { hd.care with counting := true } } : State).care.preDone = false ∧ hd.care.counting = false ∧
    (hd.recent < hd.rd F.WDG_CFG_LOOP_MAX) := by decide
theorem wit_Diagnostics : hd.accepts (dsc 0) 0xF0 .both = true ∧ (dsc 0).only [(8, 0, 64)] = true ∧
    (dsc (2 ^ 64)).only [(8, 0, 64)] = true ∧ (dsc (2 ^ 64)).num 8 8 % 64 ≠ 0 ∧ lmOk 0 368 = true ∧ lmOk 0x1E0000000 368 = false ∧
    tl.accepts { dsc 0 with mbx := true } 0xF0 .both = true ∧ hd.workWaits 2 = false ∧ hd.accepts (dsc 0) 0xF1 .both = true ∧
    (dsc 0).only [] = true := by decide +kernel
theorem wit_ThermalState : hd.rd F.THM_STAT_LEVEL = 0 ∧ (hd.wr F.THM_STAT_LEVEL 4).rd F.THM_STAT_LEVEL = 4 ∧
    hd.rd F.THM_STAT_WARN = 0 ∧ (hd.wr F.THM_STAT_WARN 1).rd F.THM_STAT_WARN ≠ 0 := by decide

theorem wit_TrimApplies : hd.trm.going = none ∧ hd.isHead = true ∧
    ({ hd with trm := { hd.trm with going := some (false, none) } } : State).trm.going.isSome = true := by decide
theorem wit_TrimApplies_ok : repairsOk [] = true ∧ repairsOk [32768 + 65536 * 64] = false := by decide
theorem wit_TrimDescriptors : hd.accepts (dsc 0) 0xC0 .both = true ∧ (dsc 0).only [(8, 0, 64), (16, 0, 32)] = true ∧
    hd.accepts (dsc 0) 0xC1 .both = true ∧ (dsc 0).only [(0, 0, 1), (8, 0, 64), (16, 0, 32)] = true ∧
    hd.accepts (dsc 0x2020) 0xC2 .both = true ∧ (dsc 0x2020).only [(0, 0, 8), (1, 0, 8), (8, 0, 64), (16, 0, 16)] = true ∧
    mbxRefuses (dsc 0) 0 64 = false ∧ hd.srcBytes (dsc 0) 0 0 ⟨[], true⟩ = ⟨[], true⟩ ∧ (dsc 0x2020).num 0 1 = 32 ∧ (dsc 0x2020).num 1 1 = 32 ∧ hd.stp.stands = [] ∧ hd.on F.AUD_CTRL_RUN = false := by decide

/-- A head whose Ranger loads. -/
def loading : State := { State.reset with power := { State.reset.power with clocks := true } }

theorem wit_BootAndRun : loading.live = true ∧ loading.power.ranger = .starting ∧ loading.seed.loaded = false ∧
    loading.on F.GLB_BOOT_STAT_RECOVERY = false ∧ loading.on F.GLB_BOOT_STAT_NOT_READY = true ∧
    ({ loading with power := { loading.power with straps := { strapsLow with boot0 := true } } } : State).bootSrc = 1 ∧
    loading.bootSrc = 0 ∧ loading.seed.source = none ∧ loading.on F.SDB_STAT_TRIAL = false := by decide
theorem wit_BootAndRun_dip : hd.seed.waiting = [] ∧ hd.trail.bcasts = [] := by decide
theorem wit_ImageWrites : hd.accepts (dsc (2 ^ 96)) 0xB0 .both = true ∧
    (dsc (2 ^ 96)).only [(0, 0, 64), (8, 0, 32), (12, 0, 32)] = true ∧ (dsc (2 ^ 96)).num 12 4 = 1 ∧
    hd.on F.SDB_STAT_TRIAL = false ∧ hd.on F.SUP_STAT_SDB_SUSPENDED = false ∧ hd.target = 1 ∧
    (hd.wr F.SDB_STAT_TRIAL 1).accepts (dsc 0) 0xB2 .both = true ∧ hd.slotState hd.target ≠ 2 ∧ hd.seed.going = none ∧
    hd.accepts (dsc 0) 0xB1 .both = true ∧ (dsc 0).only [(0, 0, 1), (4, 0, 32)] = true := by decide +kernel
theorem wit_SeedbankService : hd.accepts (dsc 0) 0xB4 .both = true ∧ hd.accepts (dsc (2 ^ 80)) 0xB5 .head = true ∧
    (dsc (2 ^ 80)).only [(0, 0, 64), (8, 0, 32)] = true ∧ (dsc (2 ^ 80)).num 8 4 = 65536 ∧ hd.accepts (dsc 0) 0xB6 .both = true ∧
    hd.seed.deadline = none ∧ hd.hq.flights = [] := by decide +kernel
/-- R378: die revision 1 reads 0x1812_84C7. -/
theorem test_idcode : ({ hd with fuses := { hd.fuses with dieRev := 1 } } : State).idcode = 0x181284C7 := by decide

theorem wit_Stands : hd.accepts (dsc 0) 0x10 .both = true ∧ (dsc 0).only [(0, 0, 8), (8, 0, 64)] = true ∧ (dsc 0).num 0 1 = 0 ∧
    (dsc 8).num 0 1 = 8 ∧ addrOk 0 4096 64 = true ∧ addrOk 1 4096 64 = false ∧ hd.standInUse 0 = false ∧
    lmOk 0 (numAt (hd.lmRead 0 64) 12 4) = true ∧ hd.readStand 0 = none ∧
    ({ hd with stp := { hd.stp with active := { hd.stp.active with stand := some 0 } } } : State).standInUse 0 = true := by decide
theorem wit_Overlays : hd.accepts (dsc 0) 0x12 .both = true ∧ (dsc 0).only [(0, 0, 8), (1, 0, 1), (8, 0, 64)] = true ∧
    (dsc 63).num 0 1 = 63 ∧ (dsc 0).flag 1 0 = false ∧ hd.ovlInUse 0 = false ∧ (hd.readOvl 0).1 = 0x103 ∧
    hd.accepts (dsc 0) 0x13 .both = true ∧ hd.accepts (dsc 0) 0x11 .both = true := by decide
theorem wit_ShadowGuard : hd.accepts (dsc 0) 0x1C .both = true ∧ descriptorOf (.shadowRevert (dsc 0)) = some (dsc 0, 0x1C, .both) ∧
    (hd.wr F.STP_STATE_FROZEN 1).on F.STP_STATE_FROZEN = true ∧
    (let t := tileWest.wr F.GLB_TILE_ID_VALID 1; t.isTile && !(dsc 0).mbx && t.on F.GLB_TILE_ID_VALID && t.anyActive) = true := by
  decide
theorem wit_ShadowItems : hd.roleLocked (dsc 0) = false ∧ hd.frozen = false ∧ hd.accepts (dsc 0) 0x14 .both = true ∧
    hd.accepts (dsc 0) 0x15 .both = true ∧ hd.stp.shadow.stand = none ∧ hd.accepts (dsc 0) 0x16 .both = true ∧
    layerOk ((dsc 0).bytes 16 32) = true ∧ tl.accepts (dsc 2) 0x17 .both = true ∧
    (dsc 2).only [(0, 0, 8), (1, 0, 8), (2, 0, 9), (3, 7, 1), (8, 0, 64)] = true ∧
    hd.accepts (dsc 0x1ff0001) 0x18 .both = true ∧ (dsc 0x1ff0001).bitsAt 2 0 9 = 511 ∧
    (dsc 0x1ff0001).bitsAt 0 0 4 = 1 ∧ ptrOk 0 = true ∧ gladeOk ((dsc 0x10000000100000000000000000000000000000000000000000000000000000000).bytes 16 32) = true ∧ hd.accepts (dsc 0x10000000100000000000000000000000000000000000000000000000000000000) 0x19 .both = true ∧
    regionOk ((dsc 0x100000001000000000000000000000000000000000000000000000100).bytes 16 16) = true ∧
    (dsc 0x100000001000000000000000000000000000000000000000000000100).num 1 1 = 1 := by decide
theorem wit_ShadowItems_dimmer : hd.accepts (dsc 0x100010000) 0x1B .both = true ∧
    (dsc 0x100010000).only [(0, 0, 16), (2, 0, 16), (4, 0, 2)] = true ∧ (dsc 0x100010000).num 2 2 = 1 ∧
    (dsc 0x100010000).bitsAt 4 0 2 = 1 ∧ (dsc 0x200010000).bitsAt 4 0 2 = 2 ∧ (dsc 65536).bitsAt 4 0 2 = 0 := by decide

/-- A wall commit in a phase, and a head that holds it alone. -/
def wallCommit (phase : Nat) (loc : Bool) : Commit :=
  { src := .host, desc := dsc 0, asap := true, loc := loc, target := 0, nakAddr := 0, nakMax := 0, id := 1, phase := phase,
    sentAt := 0, required := [4], acks := [], naks := [], postp := 0, frame := 0 }
def committing (phase : Nat) (loc : Bool) : State := { hd with stp := { hd.stp with commits := [wallCommit phase loc] } }

theorem wit_CommitOrders : hd.accepts (dsc 0x100000000) 0x20 .both = true ∧
    (dsc 0x100000000).only [(0, 0, 32), (4, 0, 2), (8, 0, 64), (16, 0, 16)] = true ∧ (dsc 0x100000000).flag 4 0 = true ∧
    (dsc 0x300000000).flag 4 1 = true ∧ (dsc 4097).flag 4 0 = false ∧ later32 4097 hd.frameNow.toNat = true ∧
    4096 < diff32 4097 hd.frameNow.toNat ∧ hd.accepts (dsc 1) 0x21 .both = true ∧ (dsc 1).only [(0, 0, 16)] = true ∧
    (committing 2 false).stp.commits = wallCommit 2 false :: [] ∧ (wallCommit 2 false).id.toNat = (dsc 1).num 0 2 ∧
    hd.accepts (dsc 511) 0x22 .head = true ∧ (dsc 511).bitsAt 0 0 9 = 511 ∧ hd.accepts (dsc 0) 0x23 .both = true ∧
    hd.stp.lastCommit = none := by decide
theorem wit_CommitPhases : (committing 0 false).runs = true ∧ (committing 0 false).frozen = false ∧
    (committing 0 false).anyActive = false ∧ hd.authority = true ∧ hd.pair.takeover = false ∧
    [4].filter (fun t => !hd.excluded t && !([] : List Nat).contains t) = [4] ∧
    (committing 0 false).judgeOwn hd.stp.shadow hd.shadowMode = 2 ∧ hd.rd F.STP_CFG_POSTPONE ≠ 0 := by decide
theorem wit_LocalCommits : (committing 0 true).runs = true ∧ (committing 0 true).isLocal (wallCommit 0 true) = true ∧
    (committing 0 false).isLocal (wallCommit 0 false) = false ∧ parsePrep 2 [1] = none ∧ tl.stp.staged = none ∧
    tl.rd F.STP_STATE_COMMIT_ID = tl.wallId ∧ ({ hd with stp := { hd.stp with retiring := some .fresh } } : State).oldWork = false := by
  decide
/-- A head with a West Active port and a wall commit. -/
def awaiting : State := (committing 2 false).wr (F.TRL_STAT_STATE 0) 6


theorem wit_CommitPhases_reply : awaiting.takes (msgOf [6, 8, 1, 0, 0, 0, 0, 0]) 6 = true ∧
    awaiting.takes (msgOf [6, 8, 1, 0, 5, 0, 0, 0]) 6 = true :=
  ⟨takes_of (msgOf_crc (by decide)) (by decide) (by decide +kernel), takes_of (msgOf_crc (by decide)) (by decide) (by decide +kernel)⟩
theorem wit_CommitPhases_naks : (awaiting.arrived (msgOf [6, 8, 1, 0, 0, 0, 0, 0])).authority = true ∧
    (awaiting.arrived (msgOf [6, 8, 1, 0, 0, 0, 0, 0])).stp.commits = [wallCommit 2 false] ∧
    (awaiting.arrived (msgOf [6, 8, 1, 0, 0, 0, 0, 0])).stp.excl.getLsbD 4 = false := by
  rw [arrived_of (msgOf_crc (by decide)) (by decide)]
  decide +kernel

/-- A prepare list that names the mode alone, and a tile whose shadow bank has a Stand of 2 x 2 lamps that passes validation. -/
def onlyMode : Bytes := prepRec 10 511 0 (leBytes 8 tl.shadowMode)
def validTile : State :=
  let b : Bank := { tl.stp.shadow with
    ptrs := ⟨leBytes 8 0 ++ leBytes 8 0x20000000 ++ leBytes 8 0x20010000 ++ leBytes 8 0x20020000 ++ leBytes 8 0x20030000, []⟩
    stand := some 0, img := [{ typ := 4, len := 96, items := 1, cells := [(8, 2), (10, 2), (12, 1)] }] }
  { tl with stp := { tl.stp with
      shadow := b, prepIn := some (5, onlyMode)
      stands := [(0, { base := 0x100000, id := 1, mode := BitVec.ofNat 8 tl.shadowMode, total := 64,
                       sects := [{ typ := 4, off := 0, len := 96, patch := true, items := 1 }] })] } }

theorem wit_LocalCommits_valid : validTile.runs = true ∧ validTile.stp.prepIn = some (5, onlyMode) ∧
    (parsePrep (onlyMode.length + 1) onlyMode).isSome = true ∧ validTile.stp.staged = none ∧ validTile.stp.retiring = none ∧
    validTile.stp.layerIn = none ∧ validTile.rd F.STP_STATE_COMMIT_ID = validTile.wallId := by decide +kernel
theorem wit_LocalCommits_passes : (({ validTile with stp := { validTile.stp with prepIn := none, layerIn := none, staged := none } } :
    State).judgePrep onlyMode []).1 = ⟨0, false⟩ := by decide +kernel

/-- A head whose shadow bank has a one-section Stand that passes its own judgement. -/
def standing : State :=
  let h := committing 0 false
  { h with stp := { h.stp with
      stands := [(0, { base := 0, id := 1, mode := BitVec.ofNat 8 h.shadowMode, total := 64, sects := [] })]
      shadow := { h.stp.shadow with stand := some 0 } } }

theorem wit_CommitPhases_ok : standing.judgeOwn standing.stp.shadow standing.shadowMode = 0 ∧ standing.runs = true ∧
    standing.anyActive = false := by decide

/-- A tile with a placement of 2 x 2 lamps at the origin, and one that composes a frame there. -/
def placed : State :=
  { begun with stp := { begun.stp with
      stands := [(0, { base := 0, id := 1, mode := 0, total := 64, sects := [{ typ := 4, off := 0, len := 96, patch := true, items := 1 }] })]
      active := { begun.stp.active with stand := some 0, img := [{ typ := 4, len := 96, items := 1, cells := [(8, 2), (10, 2), (12, 1)] }] } } }
def passOf (rolling : Bool) : Pass :=
  { fs := 0, frame := placed.frameNow, rolling := rolling, bank := placed.stp.active, old := false, scale := 0, bands := [], lost := []
    armed := 1, verdicts := 0, subst := 0, subd := 0, latched := 0, meets := [] }
def judged : BandJ := { outs := [], lines := [], composed := false, vals := [], taps := [], eccs := [] }
def composes (rolling : Bool) : State :=
  { placed with cnp := { placed.cnp with passes := [{ passOf rolling with bands := [(0, judged)] }], queue := [(placed.frameNow, 0)] } }

theorem wit_BandPasses : (composes true).runs = true ∧ (composes true).toJudge 1 = some { passOf true with bands := [(0, judged)] } ∧
    (composes true).composing 0 = some ({ passOf true with bands := [(0, judged)] }, judged) ∧
    (composes false).composing 0 = some ({ passOf false with bands := [(0, judged)] }, judged) ∧ (composes false).isTile = true ∧
    (placed.placeOf placed.stp.active).isSome = true ∧ (placed.placeOf placed.stp.active).map (·.u) = some 2 := by decide
theorem wit_BandPasses_rows : (placed.placeOf placed.stp.active).map (fun p => (p.empty 0, p.empty 7)) = some (true, false) ∧
    ((composes true).toJudge 7).isSome = true ∧ placed.lmBad = [] := by decide
theorem wit_BandPasses_late : ({ placed with cnp := { placed.cnp with passes := [passOf true] } } : State).bandReady
    (passOf true) 0 = true ∧ (composes true).badEntries placed.stp.active ((placed.placeOf placed.stp.active).getD
      { x0 := 0, y0 := 0, u := 0, v := 0, emit := 0, dl := [] }) [0, 1, 2, 3] = 0 ∧
    ({ passOf true with frame := placed.frameNow - 1 } : Pass).frame + 1 = placed.frameNow ∧
    Map.find (passOf true).bands 3 = none := by decide

/-- A tile whose step table has one entry: UNIT 0x05 at the frame start. -/
def stepping : State :=
  { begun with stp := { begun.stp with
      armed := [0], stands := [(0, { base := 0, id := 1, mode := 0, total := 64, sects := [{ typ := 1, off := 0, len := 16, patch := true, items := 1 }] })]
      active := { begun.stp.active with stand := some 0, img := [{ typ := 1, len := 16, items := 1, cells := [(0, 5)] }] } } }

theorem wit_BandPasses_step : stepping.runs = true ∧ (stepping.entriesOf stepping.stp.active)[0]?.isSome = true ∧
    ((stepping.entriesOf stepping.stp.active)[0]?.map (fun e => (e.unit, stepping.dueAt 0 e))) =
      some (5, some stepping.frames.start) ∧ stepping.earlierDue 0 stepping.frames.start = false ∧
    skipped stepping.holdState 5 = false := by decide
/-- A head whose preview pass runs, and which fetches the buffer of a host-layer source. -/
def previewing : State :=
  { hd with
    cnp := { hd.cnp with
      preview := some { frame := 3, bank := .fresh, outs := [], src := [], eccs := [] }, fetching := [(2, 3, 0)] }
    net := { hd.net with pvw := [(0, [0, 0, 2, 0, 2, 0, 0, 0, 0, 0, 0, 0, 0, 0, 0, 0, 1])] }
    stp := { hd.stp with active := { hd.stp.active with bufs := [(66, [])] } } }

theorem wit_BandPasses_head : previewing.runs = true ∧ previewing.isTile = false ∧
    (List.range 8).any (previewing.decimated .fresh [0, 0, 2, 0, 2, 0, 0, 0, 0, 0, 0, 0, 0, 0, 0, 0, 1]) = false ∧
    previewing.cnp.fetching.find? (fun f => f.1 == 2) = some (2, 3, 0) ∧ previewing.lmBad = [] ∧
    Map.find previewing.stp.active.bufs (64 + 2) = some [] ∧ (0 : Word).toNat = numAt [] 20 4 := by decide
theorem wit_GladeVerdicts : (composes false).cnp.passes.find? (fun p => bit p.armed 0 && !bit p.verdicts 0) =
      some { passOf false with bands := [(0, judged)] } ∧
    ({ placed with cnp := { placed.cnp with passes := [{ passOf false with subst := 1 }] } } : State).cnp.passes.find?
      (fun p => bit p.subst 0) = some { passOf false with subst := 1 } ∧ Map.find placed.net.pvw 2 = none ∧
    (passOf false).signed ((placed.placeOf placed.stp.active).getD
      { x0 := 0, y0 := 0, u := 0, v := 0, emit := 0, dl := [] }) (placed.stp.active.glade 0) = true ∧
    placed.latchedFor (passOf false) = 0 ∧ (passOf false).old = false ∧
    bits (numAt [12] 0 1) 2 2 = 3 ∧ bits (numAt [8] 0 1) 2 2 = 2 ∧ bits (numAt [4] 0 1) 2 2 = 1 ∧
    bit (numAt [24] 0 1) 4 = true := by decide
/-- A tile with a script run of group 0. -/
def runOf (cut : Option Nat) : Run :=
  { start := 0, sub := 0, live := 0, first := 0, next := none, census := false, cut := cut, dark := [], lat := 0 }
def scripting (r : Run) : State := { begun with brn := { begun.brn with runs := [(0, r)] } }

theorem wit_ScriptRunEnds : (scripting (runOf none)).runs = true ∧ Map.find (scripting (runOf none)).brn.runs 0 = some (runOf none) ∧
    (runOf none).cut = none ∧ Map.find (scripting (runOf (some 3))).brn.runs 0 = some (runOf (some 3)) ∧
    Map.find begun.brn.runs 0 = none := by decide

/-- A head that serves queues, with a descriptor to fetch in SQ 0 and a completion queue 1. -/
def serving : State :=
  let h := hd.wr F.HQS_CTRL_EN 1
  let h := h.setCq 1 { base := 0, depth := 16, headAddr := 0, vector := 0, irqEn := true, coalCount := 1, coalTime := 5, tail := 15, phase := true, head := 3, halted := false, unsig := 1, unsigAt := 0 }
  h.setSq 0 { ((h.sq 0).getD { base := 0, depth := 16, cq := 0, prio := 0, mailbox := false, burst := 1, head := 0, tail := 0, halted := false }) with depth := 16, tail := 1 }
def sqArg : Desc := dsc 0x100000400020000000000001000
def cqArg : Desc := dsc 0x10100040500000000000000080000000000001000

theorem wit_QueueRings : serving.live = true ∧ serving.serves = true ∧ serving.nextSq = some 0 ∧ (serving.sq 0).isSome = true ∧
    (serving.cq 1).map (·.full) = some false ∧ (serving.cq 0).isSome = true ∧
    serving.on F.GLB_BOOT_STAT_NOT_READY = false ∧ hd.on F.HQS_CTRL_EN = false ∧ (hd.sq 0).isSome = true ∧
    (serving.cq 1).map (·.unsig) = some 1 ∧ hd.rd F.HQS_CTRL_EN = 0 ∧ serving.needsHead 1 = false ∧ serving.on F.HQS_CTRL_EN = true ∧
    (serving.cq 1).map (fun c => ({ c with head := 1 } : Cq).free) = some 1 ∧
    ((serving.cq 1).map (fun c => (serving.setCq 1 { c with head := 1 }).needsHead 1)) = some true := by decide
theorem wit_QueueRings_post : (let f : Flight := { flightAt 0 with cq := 1, done := some { status := 0, result := 0, frame := 0, time := 0, fromTile := none } }
    (postable 1 [f] []) = some f ∧ f.flags.getLsbD 1 = false) := by decide
theorem wit_AdminQueues : hd.accepts (dsc 0) 0x00 .both = true ∧ hd.accepts { dsc 0 with sq := 3 } 1 .both = true ∧
    hd.accepts { dsc 0 with sq := 3 } 5 .both = true ∧ sqArg.sq = 0 := by decide
theorem wit_AdminQueues_sq : hd.accepts sqArg 1 .both = true ∧
    sqArg.only [(0, 0, 64), (8, 0, 16), (10, 0, 8), (11, 0, 8), (12, 0, 2), (12, 4, 1), (13, 0, 8)] = true ∧
    sqArg.num 10 1 = 4 ∧ sqArg.num 13 1 = 1 ∧ sqArg.num 0 8 % 4096 = 0 ∧ sqArg.num 8 2 = 2 ∧ hd.sq 2 = none ∧
    sqArg.num 11 1 = 0 ∧ sqArg.flag 12 4 = false ∧ hd.cq 5 = none ∧ (hd.cq 0).isSome = true := by decide
theorem wit_AdminQueues_cq : hd.accepts cqArg 3 .both = true ∧
    cqArg.only [(0, 0, 64), (8, 0, 64), (16, 0, 8), (17, 0, 8), (18, 0, 8), (19, 0, 1), (20, 0, 16), (22, 0, 16)] = true ∧
    cqArg.num 17 1 = 4 ∧ cqArg.num 20 2 = 1 ∧ cqArg.num 16 1 = 5 ∧ hd.cq 5 = none ∧ serving.accepts (dsc 1) 2 .both = true ∧
    (dsc 1).only [(0, 0, 16)] = true ∧ serving.sq 1 = none ∧ ((serving.setSq 1 ((serving.sq 0).getD
      { base := 0, depth := 16, cq := 0, prio := 0, mailbox := false, burst := 1, head := 0, tail := 0, halted := false })).sq
      ((dsc 1).num 0 2)).isSome = true ∧ serving.accepts (dsc 0x100000000000000000000000000000000) 4 .both = true ∧
    (dsc 0x100000000000000000000000000000000).num 16 1 = 1 ∧ (dsc 0x100000000000000000000000000000000).only [(16, 0, 8)] = true ∧
    (dsc 0x100000000000000000000000000000000).only [(0, 0, 16), (16, 0, 8)] = true ∧ serving.accepts (dsc 0x100000000000000000000000000000000) 5 .both = true ∧
    (dsc 0x400).num 0 2 = 1024 := by decide
theorem wit_LocalBytes : hd.accepts (dsc 0x4000000000000000000000000000000640000000000000000) 0x35 .both = true ∧ hd.accepts (dsc 0x4000000000000000000000000000000640000000000000000) 0x36 .both = true ∧
    (dsc 0x4000000000000000000000000000000640000000000000000).only [(8, 0, 64), (16, 0, 64), (24, 0, 32)] = true ∧ (dsc 0x4000000000000000000000000000000640000000000000000).num 8 8 = 100 ∧
    (dsc 0x4000000000000000000000000000000640000000000000000).num 24 4 = 4 ∧ lmOk 100 4 = true ∧ hd.lmBadIn 100 4 = false ∧
    { hd with lmBad := [12] }.lmBadIn 100 4 = true ∧ lmOk 0x1E0000000 1 = false ∧ hd.power.pcie = true := by decide

theorem wit_HeadMailbox : hd.accepts (dsc 4) 0x30 .head = true ∧ (dsc 4).only [(0, 0, 16)] = true ∧ (dsc 512).num 0 2 = 512 ∧
    (dsc 4).num 0 2 = 4 ∧ hd.accepts (dsc 0x8000001ff) 0x31 .head = true ∧
    (dsc 0x8000001ff).only [(0, 0, 16), (4, 0, 32)] = true ∧ (dsc 0x8000001ff).num 4 4 = 8 ∧
    (dsc 0x8000001ff).num 0 2 = 511 ∧ (hd.link 511).unreachable = false ∧
    hd.accepts (dsc 0x8000001ff) 0x32 .head = true ∧ hd.accepts (dsc 0x8000000000000000000000000000000000000000000000005) 0x33 .head = true ∧
    hd.accepts (dsc 0x8000000000000000000000000000000000000000000000005) 0x34 .head = true ∧ (dsc 0x8000000000000000000000000000000000000000000000005).num 24 4 = 8 ∧ lmOk 0 8 = true ∧
    (dsc 0x8000000000000000000000000000000000000000000000005).only [(0, 0, 16), (8, 0, 64), (16, 0, 64), (24, 0, 32)] = true := by decide
theorem wit_HeadMailbox_timer : (let s := hd.setLink 5 { MbxLink.fresh with unacked := [(1, [])] }
    decide ((s.link 5).unacked ≠ []) && decide ((s.link 5).retx < s.rd F.HQS_MBX_CFG_RETRIES)) = true := by decide

/-- A tile 7 with an Active West port that expects SEQ 1, and class-3 slots for it. -/
def posted : State :=
  let t := (tileWest.wr F.GLB_TILE_ID_ID 7).wr F.GLB_TILE_ID_VALID 1
  { t with trail := { t.trail with expect := some 1 } }
def slot3 (body : Bytes) : Bytes := slotOf ([0xC3, 0, 7, 0] ++ List.replicate 8 0) body

theorem receives_slotOf {s : State} {k cls : Nat} {h b : Bytes} (hh : h.length = 12) (hb : b.length ≤ 240)
    (hr : (s.live && !s.care.shut && decide (k < s.portCount) && s.portActive k && !slotEmpty (slotOf h b) &&
      slotFormed (slotOf h b) && slotClass (slotOf h b) == cls) = true) : s.receives k (slotOf h b) cls = true := by
  simp only [State.receives, slotCrcOk_slotOf hh hb]
  simpa using hr
theorem takesSlot_of {s : State} {k i kind : Nat} {b : Bytes} (h : s.receives k b 3 = true)
    (hs : (!s.forwards && class3Head b && s.forMe b && s.trail.expect == some (BitVec.ofNat 16 (numAt (slotBody b) 2 2)) &&
      numAt (slotBody b) 0 1 == kind && numAt (slotBody b) 1 1 == 0 && zeroAt (slotBody b) 4 4) = true) :
    s.takesSlot k i b kind = true := by
  simp only [Bool.and_eq_true, beq_iff_eq, Bool.not_eq_true'] at hs
  simp [State.takesSlot, h, State.pass, hs]
theorem wit_TileMailbox : posted.takesSlot 0 1 (slot3 [1, 0, 1, 0]) 1 = true :=
  takesSlot_of (receives_slotOf rfl (by decide) rfl) (by decide)
theorem wit_TileMailbox_write : posted.takesSlot 0 1 (slot3 [2, 0, 1, 0]) 2 = true :=
  takesSlot_of (receives_slotOf rfl (by decide) rfl) (by decide)
theorem wit_TileMailbox_regs : posted.takesSlot 0 1 (slot3 [3, 0, 1, 0]) 3 = true ∧ posted.takesSlot 0 1 (slot3 [4, 0, 1, 0]) 4 = true :=
  ⟨takesSlot_of (receives_slotOf rfl (by decide) rfl) (by decide), takesSlot_of (receives_slotOf rfl (by decide) rfl) (by decide)⟩
theorem wit_TileMailbox_read : posted.takesSlot 0 1 (slot3 [6, 0, 1, 0]) 6 = true :=
  takesSlot_of (receives_slotOf rfl (by decide) rfl) (by decide)
theorem wit_TileMailbox_resync : posted.receives 0 (slot3 [5]) 3 = true ∧ posted.receives 0 (slot3 [2]) 3 = true ∧
    posted.receives 0 (slotOf ([0xC3, 0, 8, 0] ++ List.replicate 8 0) [2]) 3 = true :=
  ⟨receives_slotOf rfl (by decide) rfl, receives_slotOf rfl (by decide) rfl, receives_slotOf rfl (by decide) rfl⟩
theorem wit_TileMailbox_seq : posted.forwards = false ∧ class3Head (slot3 [5]) = true ∧ posted.forMe (slot3 [5]) = true ∧
    (1 : BitVec 16).toNat ≠ numAt (slotBody (slot3 [2])) 2 2 ∧ posted.isHead = false ∧
    posted.forMe (slotOf ([0xC3, 0, 8, 0] ++ List.replicate 8 0) [2]) = false ∧
    posted.on F.GLB_BOOT_STAT_NOT_READY = false := by decide

theorem wit_TileAnswers (k : Nat) (b : Bytes) (hb : (decide (b.length ≤ 240) && (hearing.live && hearing.isHead &&
    slotClass (msgOf b).slot == 5 && hearing.freshRet (msgOf b) && (msgOf b).msg == some (true, (msgOf b).body) &&
    numAt (msgOf b).body 0 1 == k) && (!slotEmpty (msgOf b).slot && slotFormed (msgOf b).slot && class5Head (msgOf b).slot)) = true) :
    hearing.takes (msgOf b) k = true := by
  simp only [Bool.and_eq_true, decide_eq_true_eq] at hb
  exact takes_of (msgOf_crc hb.1.1) (by
    have h1 : (msgOf b).idx = 0 := rfl
    have h2 : hearing.portActive (msgOf b).port = true := rfl
    have h3 : hearing.forwards = false := rfl
    simp [hb.2, h1, h2, h3]) (by simpa using hb.1.2)
theorem wit_TileAnswers_kinds : hearing.takes (msgOf [1, 4, 2, 0]) 1 = true ∧
    hearing.takes (msgOf (2 :: 36 :: List.replicate 34 0)) 2 = true ∧ hearing.takes (msgOf (3 :: 12 :: List.replicate 10 0)) 3 = true ∧
    hearing.takes (msgOf (4 :: 20 :: List.replicate 18 0)) 4 = true ∧ hearing.takes (msgOf (5 :: 16 :: List.replicate 14 0)) 5 = true ∧
    hearing.takes (msgOf (7 :: 16 :: List.replicate 14 0)) 7 = true ∧ hearing.takes (msgOf (8 :: 16 :: List.replicate 14 0)) 8 = true :=
  ⟨wit_TileAnswers _ _ (by decide +kernel), wit_TileAnswers _ _ (by decide +kernel), wit_TileAnswers _ _ (by decide +kernel),
    wit_TileAnswers _ _ (by decide +kernel), wit_TileAnswers _ _ (by decide +kernel), wit_TileAnswers _ _ (by decide +kernel),
    wit_TileAnswers _ _ (by decide +kernel)⟩
theorem wit_TileAnswers_bad : (msgOf [9, 1]).msg = some (false, [9]) ∧
    (hearing.takeRet (msgOf [1, 4, 2, 0])).freshRet (msgOf [1, 4, 2, 0]) = false := by decide +kernel
theorem wit_TileAnswers_again : (let m := msgOf (8 :: 16 :: List.replicate 14 0)
    let s := (hearing.takeRet m).served m
    m.msg == some (true, m.body) && !s.freshRet m && numAt m.body 0 1 == 8 && !s.asked m &&
      s.asked { m with port := 1 } && s.authority) = true := by decide +kernel

/-- A head whose TRL0 is in a state. -/
def linkAt (st : Nat) : State := hd.wr (F.TRL_STAT_STATE 0) st
/-- The markers of the eight lanes, aligned, and a lane of valid and of invalid blocks. -/
def marks : List (Nat × Block) := (List.range 8).map (fun l => (0, ⟨0b10, BitVec.ofNat 64 (leNat (laneMarker l 0))⟩))
def goodLane : List Block := List.replicate 64 ⟨0b10, BitVec.ofNat 64 (leNat (laneMarker 0 0))⟩
def badLane : List Block := List.replicate 16 ⟨0b11, 0⟩

theorem wit_LinkBringUp : (linkAt 0).runs = true ∧ 0 < (linkAt 0).portCount ∧ (linkAt 0).rd (F.TRL_STAT_STATE 0) = 0 ∧
    (linkAt 2).rd (F.TRL_STAT_STATE 0) = 2 ∧ ((linkAt 2).port 0).seenPrbs = false ∧ (linkAt 7).rd (F.TRL_STAT_STATE 0) = 7 ∧
    deskewHolds marks marks = true ∧ deskewHolds marks [] = false ∧ (linkAt 7).on (F.TRL_CTRL_DORMANT 0) = false ∧
    0 < ((linkAt 1).port 0).cfg.interval ∧ ((linkAt 4).port 0).since + 8 * 16896 < { linkAt 4 with core := 200000 }.core ∧
    (linkAt 4).core ≤ ((linkAt 4).port 0).since + 8 * 16896 ∧ hd.isHead = true := by decide +kernel
theorem wit_LinkBringUp_lock : lanesLocked ((linkAt 3).badBlocks 0 (List.replicate 8 goodLane)) = true := by decide +kernel
/-- A capability message of a tile (bytes 0 to 51) with its CRC: version 1, West port, 8 lanes, PEER_SEEN and READY. -/
def capOf (body : Bytes) : Bytes := body ++ leBytes 4 (crc32c body).toNat
def capTile : Bytes := capOf ([1, 1, 8, 2, 3] ++ List.replicate 47 0)
/-- A head in Capability that has accepted that message. -/
def readied : State :=
  let s := ((linkAt 5).wr (F.TRL_STAT_ACCEPTED 0) 1).wr (F.TRL_STAT_READY_LOCAL 0) 1
  (s.wr (F.TRL_CAP_RX 0 0) 0x02080101).wr (F.TRL_CAP_RX 0 1) 3

theorem wit_LinkBringUp_cap : capCrcOk capTile = true ∧ capCrcOk (0 :: capTile) = false := by decide +kernel
theorem wit_LinkBringUp_copies : capCrcOk (capOf (List.replicate 52 0)) = true ∧ numAt (capOf (List.replicate 52 0)) 0 1 ≠ numAt capTile 0 1 := by decide +kernel
theorem wit_LinkBringUp_refuse : (linkAt 5).capRefuse 0 capTile = 0 ∧ (linkAt 5).capRefuse 0 (capOf (List.replicate 52 0)) = 1 := by decide +kernel
theorem wit_LinkBringUp_active : readied.activeOk 0 = true ∧ (linkAt 5).activeOk 0 = false := by decide +kernel
theorem wit_LinkBringUp_wake : ((linkAt 7).setPort 0 { (linkAt 7).port 0 with sleeping := true }).runs = true ∧
    (((linkAt 7).setPort 0 { (linkAt 7).port 0 with sleeping := true }).port 0).sleeping = true ∧
    ((linkAt 7).wr (F.TRL_CTRL_DORMANT 0) 1).on (F.TRL_CTRL_DORMANT 0) = true := by decide
theorem wit_LinkLeaves : (linkAt 6).runs = true ∧ (linkAt 6).rd (F.TRL_STAT_STATE 0) = 6 ∧ (linkAt 4).rd (F.TRL_STAT_STATE 0) = 4 ∧
    (linkAt 5).rd (F.TRL_STAT_STATE 0) = 5 ∧ (linkAt 1).rd (F.TRL_STAT_STATE 0) = 1 ∧ (linkAt 6).leftNow 0 = none ∧
    ((linkAt 1).setPort 0 { (linkAt 1).port 0 with left := some ((linkAt 1).core, 2) }).leftNow 0 = some 2 ∧
    ((linkAt 6).port 0).berRun < ((linkAt 6).port 0).cfg.berCycles := by decide
theorem wit_LinkLeaves_lost : ((linkAt 6).badBlocks 0 [badLane]).any laneLost = true ∧
    (linkAt 6).roundLost 0 [(0, ⟨0b01, 0⟩)] = true := by decide +kernel
theorem wit_LaneBlocks : blockBytes (⟨0b10, BitVec.ofNat 64 (leNat (laneMarker 5 0x3C))⟩ : Block) = laneMarker 5 0x3C ∧
    (linkAt 6).badCount 0 [badLane] = 16 := by decide +kernel

theorem wit_TrailCycles : hearing.runs = true ∧ 0 < hearing.portCount ∧ hearing.isPair = false ∧ hearing.portActive 0 = true ∧
    (hd.port 0).cycleAt = 0 ∧ posted.on (F.TRL_STAT_LINK_CYCLES 0) = false ∧ posted.forwards = false ∧ 0 < hd.trail.ports.length ∧ tileWest.portActive 0 = true ∧ posted.on F.GLB_TILE_ID_VALID = true ∧
    posted.portActive 0 = true ∧ posted.trail.rsps.find? (fun w => w.port == 0) = none ∧ hd.on F.GLB_EPOCH_STAT_PENDING = false ∧
    (hd.wr F.GLB_EPOCH_STAT_PENDING 1).on F.GLB_EPOCH_STAT_PENDING = true ∧ hd.isTile = false ∧
    Map.find (hd.port 0).heard 3 = none ∧
    Map.find ((hd.setPort 0 { hd.port 0 with heard := [(3, 100)] }).port 0).heard 3 = some 100 := by decide
/-- A marker slot of head A's TRL0: fields at bytes 64 to 251 and their CRC. -/
def markerOf (f : Bytes) : Bytes :=
  List.replicate 64 0 ++ f ++ List.replicate (188 - f.length) 0 ++ leBytes 4 (crc32c (f ++ List.replicate (188 - f.length) 0)).toNat
def oldChunk : QChunk := { since := 0, cls := 1, source := 2, line := 0, chunk := 0, frameLo := 0, last := false, bytes := [1] }

theorem markerCrc_markerOf {f : Bytes} (hf : f.length ≤ 188) : numAt (markerOf f) 252 4 = (crc32c (((markerOf f).drop 64).take 188)).toNat := by
  have hd : ((markerOf f).drop 64).take 188 = f ++ List.replicate (188 - f.length) 0 := by
    have hf' : (f ++ List.replicate (188 - f.length) (0 : Byte)).length = 188 := by simp; omega
    simp only [markerOf, List.append_assoc]
    rw [List.drop_append_of_le_length (by simp), ← List.append_assoc]
    simp only [List.drop_replicate, Nat.sub_self, List.replicate_zero, List.nil_append]
    rw [← List.append_assoc, List.take_append_of_le_length (Nat.le_of_eq hf'.symm), List.take_of_length_le (Nat.le_of_eq hf')]
  have hn : ((markerOf f).drop 252).take 4 = leBytes 4 (crc32c (f ++ List.replicate (188 - f.length) 0)).toNat := by
    have hf' : (List.replicate 64 (0 : Byte) ++ f ++ List.replicate (188 - f.length) (0 : Byte)).length = 252 := by simp; omega
    rw [markerOf, List.drop_append_of_le_length (by omega), ← hf', List.drop_length]
    simp [length_leBytes]
  rw [numAt, hn, hd, leNat_leBytes4]
theorem wit_TrailCycles_marker : markerGood (markerOf [1, 1, 1]) = true := by
  rw [markerGood, markerCrc_markerOf (by decide)]
  simp only [beq_self_eq_true]
  decide +kernel
theorem wit_TrailCycles_bad : markerGood [] = false ∧ bits (numAt ([1, 1, 1] : Bytes) 2 2) 0 2 ≤ 2 := by decide
theorem wit_TrailCycles_chunk : ((hd.setPort 0 { hd.port 0 with pool := [oldChunk] }).port 0).pool = oldChunk :: [] ∧
    [oldChunk].filter (fun q => decide (q.since + 16896 < 20000)) = [oldChunk] := by decide
theorem wit_TrailSlots : slotFormed [0xC4] = false ∧ slotEmpty [0xC4] = false ∧ slotFormed [0xC3] = true ∧ slotCrcOk [0xC3] = false := by decide
theorem wit_TrailSlots_chunk : posted.receives 0 (slotOf ([0xE1, 2, 0, 0, 0, 240] ++ List.replicate 6 0) []) 1 = true :=
  receives_slotOf rfl (by decide) rfl
theorem wit_TrailSlots_interest : posted.trialBusy = false ∧ posted.interest.any (fun e => e.takes 2 0 0) = false ∧ posted.frameOf 0 = 0 ∧
    posted.frameOf 255 = -1 ∧
    ((posted.wr (F.GLB_INTEREST 0) 1).wr (F.GLB_INTEREST 1) 100).interest.any (fun e => e.takes 0 0 0) = true := by decide
theorem wit_TrailSlots_bcast : posted.receives 0 (slotOf ([0xB4, 1, 5, 0, 0, 0, 0, 0, 2, 0, 0, 0]) []) 4 = true ∧
    Map.find posted.trail.bcasts 1 = none ∧ later16 (6 : BitVec 16).toNat (5 : BitVec 16).toNat = true :=
  ⟨receives_slotOf rfl (by decide) rfl, by decide, by decide⟩
theorem wit_TrailSlots_echo : posted.receives 0 (slotOf ([0x96, 1, 7, 0] ++ List.replicate 8 0) []) 6 = true ∧
    hearing.receives 0 (slotOf ([0x96, 2, 7, 0] ++ List.replicate 8 0) []) 6 = true :=
  ⟨receives_slotOf rfl (by decide) rfl, receives_slotOf rfl (by decide) rfl⟩
theorem wit_TrailSlots_me : posted.forMe (slotOf ([0x96, 1, 7, 0] ++ List.replicate 8 0) []) = true := by decide
theorem wit_TrailSlots_preview : hearing.receives 0 (slotOf ([0x87, 0, 7, 0] ++ List.replicate 8 0) [0, 0, 0, 0, 1]) 7 = true ∧
    hearing.freshRet ⟨0, 0, [0x87, 0, 7, 0], 0⟩ = true ∧ Map.find hearing.net.pvw 1 = none ∧
    (hearing.takeRet ⟨0, 0, [0x87, 0, 7, 0], 0⟩).freshRet ⟨0, 0, [0x87, 0, 7, 0], 0⟩ = false :=
  ⟨receives_slotOf rfl (by decide) rfl, by decide, by decide, by decide⟩

/-- A head whose NET0 has link, and a frame with a body. -/
def linked : State := hd.wr (F.NET_STAT_LINK 0) 1
def frameOf (b : NetBody) : NetFrame :=
  { port := 0, fcsErr := false, fecErr := false, fecCorr := 2, overflow := false, len := 64, vlan := none, doubleTagged := false
    pause := false, body := b, raw := [0xFF, 0xFF, 0xFF, 0xFF, 0xFF, 0xFF, 3] }

theorem wit_NetIngest : linked.live = true ∧ linked.isTile = false ∧ linked.on (F.NET_STAT_LINK 0) = true ∧
    (frameOf .other).len ≤ (linked.inc (F.NET_RX_FRAMES 0)).mtu 0 ∧ linked.net.rx = [] ∧
    linked.on (F.NET_HOST_CFG_MCAST 0) = false ∧
    (linked.inc (F.NET_RX_FRAMES 0)).net.flows.find? (fun y => flowMatches y.2 0 none 0 0 0 .other) = none ∧
    linked.rd (F.NET_SACN_UNIV 0 0) = 0 ∧ Map.getD linked.net.univs 0 [] = [] ∧ speedOk (Map.getD linked.net.inForce 0 (0, 1, 0, 9216)) 2 = false ∧
    speedOk (2, 1, 0, 9216) 2 = true ∧ numAt (frameOf .other).raw 0 6 = 0xFFFFFFFFFFFF ∧ rowOk ⟨0, 0, true, 16, 16⟩ ⟨3, 0, []⟩ = true ∧ hd.on (F.NET_STAT_LINK 0) = false ∧ hd.cnp.refs.find? hd.ended = none := by decide
theorem wit_NetIngest_flow : (let s : State := { linked with net := { linked.net with flows := [(7, (dsc 0x301010000138c00000000000000000a00000100000000000000000000000000000000).bytes 16 32)] } }
    s.net.flows.find? (fun y => flowMatches y.2 0 none 0 0x0A000001 5004 .other)) = some (7, (dsc 0x301010000138c00000000000000000a00000100000000000000000000000000000000).bytes 16 32) := by decide
/-- A head with a changed sACN value, a held value and a cue, whose Ranger runs. -/
def cueing : State :=
  { (hd.wr (F.NET_SACN_CFG_AUTO 0) 1) with net := { hd.net with
      sacnDirty := true, cue := [4], cues := [(4, 3)], sacnHeld := [(2, 9)], smap := [(2, [0, 1, 0, 0, 1, 0, 0])]
      univs := [(1, [⟨5, 100, 0, 0⟩])] } }

theorem wit_NetIngest_sacn : cueing.authority = true ∧ cueing.on (F.NET_SACN_CFG_AUTO 0) = true ∧ cueing.stp.commits = [] ∧
    cueing.stp.hostEdit = false ∧ cueing.frozen = false ∧ Map.find cueing.net.smap 2 = some [0, 1, 0, 0, 1, 0, 0] ∧
    Map.find cueing.net.cues 4 = some 3 ∧ cueing.stp.shadow.stand = none ∧ cueing.power.ranger = .running ∧
    (Map.getD cueing.net.univs 1 []).find? (fun x => x.cid == 5) = some ⟨5, 100, 0, 0⟩ := by decide
theorem wit_NetIngest_ref : (let r : BufRef := { source := 1, addr := 0, gen := 0, rtag := 0, lastF := 0, id := 0 }
    let s : State := { hd with cnp := { hd.cnp with refs := [r] } }
    decide (s.cnp.refs.find? s.ended = some r) && (s.postsTo (s.rd F.CNP_REL_CFG_CQ)).isSome) = true := by decide
theorem wit_NetOpcodes : hd.accepts (dsc 0x301010000138c00000000000000000a00000100000000000000000000000000000000) 0x40 .head = true ∧ (dsc 0x301010000138c00000000000000000a00000100000000000000000000000000000000).only [(0, 0, 16), (16, 0, 256)] = true ∧
    flowLawful ((dsc 0x301010000138c00000000000000000a00000100000000000000000000000000000000).bytes 16 32) = true ∧ flowValid ((dsc 0x301010000138c00000000000000000a00000100000000000000000000000000000000).bytes 16 32) = true ∧
    otherLegs hd.net.flows 0 ((dsc 0x301010000138c00000000000000000a00000100000000000000000000000000000000).bytes 16 32) = [] ∧ flowLawful ((dsc 0).bytes 16 32) = false ∧
    hd.accepts (dsc 4095) 0x41 .head = true ∧ hd.accepts (dsc 0x8000000000000000040) 0x43 .head = true ∧
    (dsc 0x8000000000000000040).only [(0, 0, 64), (8, 0, 16)] = true ∧ (dsc 0x8000000000000000040).num 8 2 = 2048 ∧ hd.accepts (dsc 0) 0x45 .head = true ∧
    hd.accepts (dsc 0) 0x61 .both = true ∧ tl.accepts (dsc 0) 0x81 .tile = true ∧ hd.accepts (dsc 5) 0x47 .head = true := by decide
theorem wit_NetOpcodes_source : hd.accepts (dsc 0x64000f0438078000020102) 0x42 .head = true ∧
    (dsc 0x64000f0438078000020102).only [(0, 0, 4), (1, 0, 8), (2, 0, 6), (3, 0, 1), (4, 0, 16), (6, 0, 16), (8, 0, 4), (10, 0, 16)] = true ∧
    (dsc 0x64000f0438078000020102).num 1 1 = 1 ∧ (dsc 0x64000f0438078000020102).num 4 2 = 1920 ∧ (dsc 0x64000f0438078000020102).num 6 2 = 1080 ∧ (dsc 0x64000f0438078000020102).bitsAt 8 0 4 = 15 ∧
    (dsc 0x64000f0438078000020102).num 10 2 = 100 ∧ hd.banks.any (fun b => b.namesSource 2) = false ∧
    fmtCombo ((dsc 0x64000f0438078000020102).bitsAt 2 0 4) ((dsc 0x64000f0438078000020102).bitsAt 2 4 2) = true := by decide
theorem wit_NetOpcodes_preview : hd.accepts (dsc 0x100000000000010000502016802800000) 0x48 .both = true ∧
    (dsc 0x100000000000010000502016802800000).only [(0, 0, 8), (2, 0, 16), (4, 0, 16), (6, 0, 6), (7, 0, 8), (8, 0, 64), (16, 0, 1)] = true ∧
    fmtCombo (pvwFmt ((dsc 0x100000000000010000502016802800000).bytes 0 17)).sampling (pvwFmt ((dsc 0x100000000000010000502016802800000).bytes 0 17)).depth = true ∧
    (pvwFmt ((dsc 0x100000000000010000502016802800000).bytes 0 17)).sampling ≠ 3 ∧ (dsc 0x100000000000010000502016802800000).num 7 1 = 5 ∧
    addrOk 4096 4096 (2 * ringFrame (pvwFmt ((dsc 0x100000000000010000502016802800000).bytes 0 17))) = true ∧ Map.find hd.net.txflows 5 = none := by decide
theorem wit_NetOpcodes_tx : hd.accepts (dsc 0x10203) 0x49 .head = true ∧
    (dsc 0x10203).only [(0, 0, 8), (1, 0, 8), (2, 0, 4), (3, 0, 8), (4, 0, 48), (10, 0, 12), (11, 5, 3), (12, 0, 32), (16, 0, 16), (18, 0, 16),
      (20, 0, 32), (24, 0, 6), (25, 0, 8), (28, 0, 32), (32, 0, 48)] = true ∧ (dsc 0x10203).num 1 1 = 2 ∧
    hd.accepts (dsc 0x10000010001) 0x46 .head = true ∧ (dsc 0x10000010001).num 5 1 = 1 ∧ (dsc 0x10000010001).num 2 2 = 1 ∧
    (dsc 0x10000010001).only [(0, 0, 8), (1, 0, 8), (2, 0, 16), (4, 0, 1), (5, 0, 8)] = true := by decide

/-- A head with a full timestamp store on NET0, and one whose servo the host feeds. -/
def stamped : State := { hd with net := { hd.net with ts0 := List.replicate 64 (List.replicate 16 1) } }
def hostFed : State := hd.wr F.PTP_SERVO_CFG_FEED 1
/-- A head that waits to launch a timed frame. -/
def launching : State := { hd with net := { hd.net with timed0 := [⟨dsc 0x700001388030300400000000000000000, 5000, [1, 2, 3]⟩] } }
/-- The same head with an untimed frame that must wait for the launch, for the port is busy until then. -/
def waiting : State := { launching with net := { launching.net with busy0 := 9000, plain0 := [⟨dsc 0x100400000000000000000, 0, [1]⟩] } }

theorem wit_NetworkTime : hd.live = true ∧ hd.isHead = true ∧ (hd.wr F.CLK_FRM_CTRL_RUN 1).on F.CLK_FRM_CTRL_RUN = true ∧
    hd.on F.CLK_FRM_CTRL_RUN = false ∧ hd.accepts (dsc 100) 0x51 .head = true ∧ (dsc 100).only [(0, 0, 32)] = true ∧
    (dsc 100).num 0 4 ≠ 0 ∧ hd.on F.AUD_STAT_RUNNING = false ∧ hd.accepts (dsc 0) 0x52 .both = true ∧
    hostFed.accepts (dsc 0x900000100) 0x50 .head = true ∧ (dsc 0x900000100).only [(0, 0, 32), (4, 0, 32)] = true ∧
    hostFed.rd F.PTP_SERVO_CFG_FEED = 1 ∧ hostFed.stale 0 = false ∧ hd.rd F.PTP_SERVO_CFG_FEED ≠ 1 ∧
    ({ hostFed with ptp := BitVec.ofNat 72 (2000000000 * 2 ^ 40) } : State).stale 0 = true := by decide
theorem wit_NetworkTime_servo : (hd.rd F.PTP_STEP_NS * 256 : Int) < sval 0x7FFFFFFF 32 ∧
    (let s := hd.wr F.PTP_SERVO_CFG_AUTO_STEP 2; s.rd F.PTP_SERVO_CFG_AUTO_STEP = 2 ∧ hd.rd F.PTP_SERVO_CFG_AUTO_STEP ≠ 2) ∧
    clampI (hd.servo.i - hd.rd F.PTP_SERVO_KI * 256) (-hd.servoLimit) hd.servoLimit ≠ hd.servoLimit := by decide
theorem wit_NetworkTime_hold : (let s := { hd.wr F.PTP_STATE_SERVO 1 with servo := { hd.servo with fedAt := some 0 } }
    s.live = true ∧ s.isTile = false ∧ s.rd F.PTP_STATE_SERVO = 1 ∧ s.servo.fedAt = some 0) := by decide
theorem wit_NetworkTime_tx : hd.accepts (dsc 0x100400000000000000000) 0x44 .head = true ∧ hd.accepts (dsc 0x700001388030300400000000000000000) 0x44 .head = true ∧
    (dsc 0x700001388030300400000000000000000).only [(0, 0, 64), (8, 0, 16), (10, 0, 2), (11, 0, 3), (12, 0, 32), (16, 0, 16)] = true ∧
    (dsc 0x700001388030300400000000000000000).flag 11 0 = true ∧ (dsc 0x700001388030300400000000000000000).flag 11 2 = false ∧ (dsc 0x700001388030300400000000000000000).flag 17 7 = false ∧ sendPorts (dsc 0x700001388030300400000000000000000) = [0, 1] ∧
    reached32 ((dsc 0x700001388030300400000000000000000).num 12 4) hd.ns = false ∧ (dsc 0x100400000000000000000).flag 11 0 = false ∧ (dsc 0x100400000000000000000).flag 11 1 = false ∧
    launching.timedQ 0 = [⟨dsc 0x700001388030300400000000000000000, 5000, [1, 2, 3]⟩] ∧
    launching.launchesNext 0 (launching.timedDue ⟨dsc 0x700001388030300400000000000000000, 5000, [1, 2, 3]⟩, 2, 0) = true ∧ hd.on F.PTP_CFG_STACK = false ∧ hd.accepts (dsc 0x400000000000010000000000000000000) 0x53 .head = true ∧
    (dsc 0x400000000000010000000000000000000).only [(0, 0, 8), (8, 0, 64), (16, 0, 16)] = true ∧ (dsc 0x400000000000010000000000000000000).num 8 8 % 16 = 0 ∧ (dsc 0x400000000000010000000000000000000).num 16 2 = 4 := by decide
theorem wit_TimestampStoreFull : (stamped.tsStore 0).length = 64 ∧ (dsc 0x700000000020100400000000000000000).flag 11 1 = true ∧ (dsc 0x700000000020100400000000000000000).flag 11 0 = false ∧
    stamped.codeOf (E.NET_TX_LATE 0).1 (E.NET_TX_LATE 0).2 ≠ 2 ∧ stamped.masked E.PTP_TSQ_OVF.1 E.PTP_TSQ_OVF.2 = false ∧
    stamped.accepts (dsc 0x700000000020100400000000000000000) 0x44 .head = true ∧ sendPorts (dsc 0x700000000020100400000000000000000) = [0] ∧
    stamped.plainQ 0 = [] ∧ stamped.pendingOn 0 = [] := by decide
theorem wit_NetworkTime_plain : waiting.plainQ 0 = [⟨dsc 0x100400000000000000000, 0, [1]⟩] ∧ (waiting.pendingOn 0).any (fun k => decide (k.1 <
    max waiting.core (waiting.busy 0) + waiting.wireCycles 0 1)) = true ∧ (launching.pendingOn 0).any (fun k => decide (k.1 <
    max launching.core (launching.busy 0) + launching.wireCycles 0 1)) = false := by decide
/-- R163 on the full store: the drop is counted and the store unchanged. -/
theorem test_full_store : (let t := stamped.sendFrame 0 (dsc 0x700000000020100400000000000000000) [1] 0 false
    t.rd F.PTP_TSQ_DROP0 = 1 ∧ t.tsStore 0 = stamped.tsStore 0 ∧ t.sticky E.PTP_TSQ_OVF = true ∧ t.out.length = 1) := by decide
/-- R148: with no correction the addend is the nominal one. -/
theorem test_addend_nominal : addendFor 0 = nominalAddend := by decide
/-- R210: unit coefficients and unit gain carry W = 1,000 x 16 through to 1,000. -/
theorem wit_CorrectionArithmetic : (let lamp := leBytes 20 1024; let emit := leBytes 4 8192
    sval (leNat lamp / 2 ^ 0 % 2 ^ 12) 12 = 1024 ∧ leNat emit % 2 ^ 14 = 8192 ∧ leNat lamp < 2 ^ 145 ∧
    corrD lamp [16000, 0, 0] 0 = 16000 ∧ corrG lamp emit [16000, 0, 0] 0 = 1000) ∧
    (let lamp := leBytes 20 (2048 + 1024); corrD lamp [16000, 0, 0] 0 = 0) := by decide

/-- A tile with an order to patch entry 3 of a driver current table at 0. -/
def patching : State := { tl with lcr := { tl.lcr with patches := [⟨dsc 0x100000000000000000000000000000000000102, [(12, [1, 2, 3, 4])], true⟩] } }
def patchRec : HostData := ⟨[3, 0, 0, 0, 1, 2, 3, 4] ++ List.replicate 16 0, true⟩

theorem wit_TableWrite : tl.accepts (dsc 0x200000000000000000100000000000000000000000000000000000002) 0x70 .tile = true ∧
    (dsc 0x200000000000000000100000000000000000000000000000000000002).only [(0, 0, 8), (8, 0, 64), (16, 0, 64), (24, 0, 32), (28, 0, 32)] = true ∧ (dsc 0x200000000000000000100000000000000000000000000000000000002).num 0 1 = 2 ∧
    (dsc 0x200000000000000000100000000000000000000000000000000000002).num 28 4 = 2 ∧ addrOk ((dsc 0x200000000000000000100000000000000000000000000000000000002).num 8 8) 4096 1 = true ∧ (dsc 0x200000000000000000100000000000000000000000000000000000002).num 16 8 % 4 = 0 ∧ (dsc 0x200000000000000000100000000000000000000000000000000000002).mbx = false ∧
    tl.entryCount 2 = 8192 ∧ lmOk 0 8 = true ∧ tl.tableInUse 0 8 = false ∧ tl.patchWaits 0 8 = false ∧ patching.tableInUse 0 16 = false ∧ patching.patchWaits 0 16 = true ∧ (tl.srcBytes (dsc 0x200000000000000000100000000000000000000000000000000000002) 0x1000000 8 ⟨[], true⟩).bytes.length = 8 ∧
    tl.entryCount 2 < (dsc 0x200001fff000000000000000000000000000000000000000000000002).num 24 4 + (dsc 0x200001fff000000000000000000000000000000000000000000000002).num 28 4 := by decide
theorem wit_TableVerify : tl.accepts (dsc 0x400000000000000000000000000000000000000000000000000000002) 0x72 .tile = true ∧
    (dsc 0x400000000000000000000000000000000000000000000000000000002).only [(0, 0, 8), (8, 0, 64), (24, 0, 32), (28, 0, 32)] = true ∧ (dsc 0x400000000000000000000000000000000000000000000000000000002).num 28 4 = 4 ∧ lmOk 0 16 = true ∧
    tl.entryCount 2 < (dsc 0x100002000000000000000000000000000000000000000000000000002).num 24 4 + (dsc 0x100002000000000000000000000000000000000000000000000000002).num 28 4 := by decide
theorem wit_TablePatch : tl.accepts (dsc 0x100000000000000000000000000000000000102) 0x71 .tile = true ∧ (dsc 0x100000000000000000000000000000000000102).num 1 1 = 1 ∧
    (dsc 0x100000000000000000000000000000000000102).only [(0, 0, 8), (1, 0, 8), (8, 0, 64), (16, 0, 64)] = true ∧ (dsc 0x100000000000000000000000000000000000102).num 16 8 % 8 = 0 ∧
    (tl.srcBytes (dsc 0x100000000000000000000000000000000000102) 0x1000000 24 patchRec).bytes = patchRec.bytes ∧ tl.recStatus 2 patchRec.bytes = none ∧
    tl.recStatus 0 patchRec.bytes = some 0x702 ∧ lmOk 12 4 = true ∧ patching.inGap = true ∧ patching.runs = true ∧
({ tl with cnp := { tl.cnp with passes := [passOf false] } } : State).inGap = true := by decide
/-- A patch of the three tables in one descriptor. -/
theorem wit_TablePatch_all : tl.accepts (dsc 0x20000000000000001000000000000100000000000000000000000000000000000103) 0x71 .tile = true ∧ (dsc 0x20000000000000001000000000000100000000000000000000000000000000000103).num 0 1 = 3 ∧
    (dsc 0x20000000000000001000000000000100000000000000000000000000000000000103).only ([(0, 0, 8), (1, 0, 8), (8, 0, 64), (16, 0, 64)] ++ [(24, 0, 64), (32, 0, 64)]) = true ∧
    tl.recStatus 3 ([3, 0, 0, 32, 1, 2, 3, 4] ++ List.replicate 16 0) = none ∧
    patchBase (dsc 0x20000000000000001000000000000100000000000000000000000000000000000103) (recTable 3 [3, 0, 0, 32]) = 8192 := by decide
theorem wit_TableOthers : tl.accepts (dsc 0x0) 0x60 .tile = true ∧ (dsc 0x0).only [(8, 0, 64)] = true ∧ lmOk 0 384 = true ∧ tl.lmBadIn 0 384 = false ∧
    tl.placeOf tl.stp.active = none ∧ tl.accepts (dsc 0) 0x80 .tile = true ∧ (dsc 0).only [] = true ∧ tl.hasCensus = false ∧
    (tl.wr F.PAT_HOLD_STAT_STATE 2).rd F.PAT_HOLD_STAT_STATE = 2 := by decide
/-- R220: the records of a patch are written in the gap. -/
theorem test_patch : (patchApply patching).lmRead 12 4 = [1, 2, 3, 4] ∧ (patchApply patching).rd F.LCR_PATCHES = 1 := by decide

/-- A head with one routed channel and one slave receive side, its schedule running; the route waits with a change of gain. -/
def sounding : State :=
  { (hd.wr F.AUD_STAT_RUNNING 1) with aud := { hd.aud with
      playing := true
      sides := [(0, ⟨4 + 32, false, false, 0⟩), (1, ⟨4, false, false, 0⟩), (3, ⟨4, false, true, 0⟩)]
      routes := [(0, { AudRoute.off with valid := true, change := some ⟨none, some 2048, none, 0, dsc 7, 0, false⟩, input := List.replicate 64 0 })] } }
def quietRoute : AudRoute := { AudRoute.off with valid := true }
def idleRoute (c : Option AudChange) : State := { hd with aud := { hd.aud with routes := [(0, { quietRoute with change := c })] } }
/-- A head with flow 4 an audio flow and flow 5 a video preview flow. -/
def pacing : State :=
  { (hd.wr F.AUD_STAT_RUNNING 1) with
      aud := { hd.aud with txaud := [(4, 0x101)], sides := [(1, ⟨4, false, false, 0⟩)] }
      net := { hd.net with txflows := [(4, [4, 2, 1]), (5, [5, 1, 1])] } }
/-- A head that sends its confidence preview of 64 x 36 on flow 5. -/
def showO : Bytes := [5, 1, 1]
def showP : Bytes := [0, 0, 64, 0, 36, 0, 1, 5, 0, 0, 0, 0, 0, 0, 0, 0, 1]
def showing : State := { hd with net := { hd.net with txflows := [(5, showO)], vtx := some ⟨8, 0, 6, 0⟩, pvw := [(0, showP)] } }
/-- The standby head of a pair, its schedule running. -/
def follower : State := { (hd.wr F.AUD_STAT_RUNNING 1) with
    power := { hd.power with straps := { hd.power.straps with side0 := true } }, aud := { hd.aud with pulse := some 0 } }

theorem wit_AudioSchedule : hd.live = true ∧ hd.isTile = false ∧ hd.on F.AUD_CTRL_RUN = false ∧
    (let s := hd.wr F.AUD_SEED_TIME 2000000; (3 * s.rd F.AUD_SEED_TIME + s.rd F.AUD_SEED_REM) * 2 ^ 40 ≥ 64 * 62500 * 2 ^ 40) ∧
    sounding.on F.AUD_STAT_RUNNING = true ∧ sounding.live = true ∧ hd.followsStart = false ∧ follower.followsStart = true ∧
    follower.aud.pulse = some 0 ∧ sounding.slaveSide 0 1 = true ∧ sounding.slaveSide 1 1 = true ∧ (sounding.audSide 1 1).locked = true ∧
    (100 : BitVec 16).toInt.natAbs ≤ 20000 ∧ 20000 < (30000 : BitVec 16).toInt.natAbs := by decide
theorem wit_AudioSchedule_change : (match sounding.audCh 0 with
    | some r => r.waits && sounding.aud.playing && r.crossing sounding.aud.pos == some 0 && decide (r.waitFrom = 0)
    | none => false) = true := by decide
theorem wit_AudioSchedule_paced : Map.find pacing.net.txflows 4 = some [4, 2, 1] ∧ pacing.authority = true ∧
    Map.find pacing.aud.txaud 4 = some 0x101 ∧ pacing.on F.AUD_STAT_RUNNING = true ∧ follower.authority = false ∧ pacing.audioFlow 4 = true ∧
    pacing.audioFlow 5 = false ∧ flowPorts [4, 2, 1] = [0] ∧
    pacing.launchesNext 0 (pacing.sampleDue 144, 1, 4) = true ∧ follower.pair.overlap = none := by decide
theorem wit_AudioSchedule_jump : (let s := { sounding with aud := { sounding.aud with jump := some 9, routes := [] } }
    s.live && s.on F.AUD_STAT_RUNNING && s.aud.jump == some 9) = true := by decide
theorem wit_AudioOpcodes : hd.accepts (dsc 0x240001) 0x90 .head = true ∧ (dsc 0x240001).only [(0, 0, 8), (1, 0, 8), (2, 0, 8), (3, 0, 2)] = true ∧
    (dsc 0x240001).bitsAt 2 2 3 = 1 ∧ (dsc 0x240001).num 0 1 = 1 ∧ audSlots 1 0 = 2 ∧ (dsc 0x150000).bitsAt 2 2 3 = 5 ∧ audSlots 5 1 = 0 ∧
    hd.accepts (dsc 0x1010203) 0x91 .head = true ∧ (dsc 0x1010203).only [(0, 0, 8), (1, 0, 8), (2, 0, 3), (3, 0, 1)] = true ∧
    audFormatOk ((dsc 0x1010203).num 1 1) ((dsc 0x1010203).bitsAt 2 1 2) = true ∧ hd.streamUsed 3 = false ∧ sounding.streamUsed 0 = true ∧
    pacing.accepts (dsc 0x10204) 0x94 .head = true ∧ (dsc 0x10204).only [(0, 0, 8), (1, 0, 8), (2, 0, 3)] = true ∧
    hd.audioFlow 4 = false ∧ hd.accepts (dsc 0x1e000000002) 0x95 .head = true ∧ (dsc 0x1e000000002).num 4 4 = 480 ∧ hd.aud.regroup = [] ∧
    Map.getD hd.aud.groups 2 0 ≠ 480 := by decide
theorem wit_AudioOpcodes_change : sounding.accepts (dsc 0x70800008201030000) 0x92 .head = true ∧
    (dsc 0x70800008201030000).only [(0, 0, 8), (1, 0, 8), (2, 0, 8), (3, 0, 6), (4, 0, 6), (4, 7, 1), (6, 0, 16), (8, 0, 4)] = true ∧
    (dsc 0x70800008201030000).num 1 1 < (sounding.audSide 0 0).slots ∧ (hd.audSide 0 0).slots ≤ (dsc 0x70800008201030000).num 1 1 ∧
    pacing.accepts (dsc 0x70800008001040000) 0x93 .head = true ∧
    (dsc 0x70800008001040000).only [(0, 0, 8), (1, 0, 8), (2, 0, 8), (3, 0, 6), (4, 7, 1), (6, 0, 16), (8, 0, 4)] = true ∧
    (dsc 0x70800008001040000).num 1 1 < (pacing.audSide 0 1).slots ∧ pacing.audioFlow ((dsc 0x70800008001040000).num 2 1) = true ∧
    (idleRoute none).audCh 0 = some quietRoute ∧ quietRoute.gain ≠ 2048 ∧
    (idleRoute (some ⟨none, some 1, none, 0, dsc 7, 0, false⟩)).audCh 0 = some { quietRoute with change := some ⟨none, some 1, none, 0, dsc 7, 0, false⟩ } := by
  decide
theorem showing_on : showing.previewOn 5 = some (showP, ⟨8, 0, 6, 0⟩) := by
  have h : showing.pvwOn = true ∧ 0 < frameBytes (pvwFmt showP) ∧ Map.find showing.net.pvw 0 = some showP ∧
      showing.net.vtx = some ⟨8, 0, 6, 0⟩ ∧ numAt showP 7 1 = 5 := by decide
  simp [State.previewOn, h]
theorem wit_AudioSchedule_video : showing.launchesNext 0 (showing.videoDue showP ⟨8, 0, 6, 0⟩, 0, 5) = true ∧ flowPorts showO = [0] := by
  have a : showing.mayTransmit showO = true ∧ numAt showO 1 1 ≠ 2 ∧ showing.net.txflows = [(5, showO)] ∧ showing.timedQ 0 = [] ∧
    flowPorts showO = [0] := by decide
  have h := showing_on
  simp [State.launchesNext, State.pendingOn, State.pacedDue, a, h, launchBefore]
/-- R263: unity gain passes a sample, and a gain of 15 clamps at 2^23 - 1. -/
theorem test_gain : scaled (-5000) 4096 = -5000 ∧ scaled 8000000 (15 * 4096) = 8388607 := by decide

/-- A head of a pair on side A or B, in native or arbiter mode, with the claim or without it. -/
def paired (b claim : Bool) : State :=
  let h := { hd with power := { hd.power with straps := { hd.power.straps with side0 := !b, side1 := b } } }
  if claim then { (h.wr F.FBK_STAT_CLAIM_OUT 1) with pair := { h.pair with claimAt := some 0, takeover := true } } else h
def peerFrame (claim : Nat) : Bytes :=
  let f := [0x46, 0x42, 1, BitVec.ofNat 8 (claim + 2 + 8)] ++ List.replicate 56 0
  f ++ leBytes 4 (crc32c f).toNat

/-- A claimed head whose report queue is CQ 0. -/
def reporting : State := ((paired false true).wr F.FBK_PATROL_CFG_EN 1)
theorem wit_PairLink_report : reporting.isPair = true ∧ reporting.on F.FBK_PATROL_CFG_EN = true ∧
    (reporting.postsTo (reporting.rd F.FBK_PATROL_CFG_CQ)).isSome = true := by decide
theorem wit_PairClaims : hd.isPair = false ∧ (paired false false).live = true ∧ (paired false false).isPair = true ∧
    (paired false true).claims = true ∧ (paired false false).claims = false ∧
    (let s := (((paired false false).wr F.FBK_CTRL_CLAIM_EN 1).wr F.FBK_CTRL_ARB 1).wr F.FBK_STAT_ARB_IN 1; s.mayClaim = true ∧
      s.on F.FBK_CTRL_ARB = true) ∧ (paired true true).side = 2 ∧ (paired true true).native = true ∧
    (paired true true).pair.claimAt = some 0 ∧ (paired true true).core ≤ 64 ∧ (paired false true).side = 1 ∧
    (paired true true).isHead = true ∧ (paired true true).pair.takeover = true := by decide
theorem wit_PairClaims_cause : ({ (paired false true) with pair := { (paired false true).pair with hostBad := true } } : State).mustResign = true ∧
    (paired false true).on F.FBK_CTRL_ARB = false ∧ ({ hd with pair := { hd.pair with overlap := some 0 } } : State).pair.overlap = some 0 ∧
    (paired false true).scoreResigns = false := by decide
/-- R275: THROTTLE at level 3, HOLDOVER and four enabled Trail ports that are not Active score 48 + 8 + 128. -/
theorem test_score : scoreOf ((((paired false true).wr F.THM_STAT_LEVEL 3).wr F.PTP_STATE_SERVO 2).healthCauses) = 184 := by decide
theorem wit_PairLink : serGood (peerFrame 1) = true := by decide +kernel
theorem wit_PairLink_more : serGood [] = false ∧ (paired false true).isPair = true ∧
    ((paired false true).wr F.FBK_STAT_SER_LOCK 1).on F.FBK_STAT_SER_LOCK = true ∧
    ((paired false true).wr F.FBK_PATROL_CFG_EN 1).on F.FBK_PATROL_CFG_EN = true ∧
    ((paired false false).wr F.FBK_CTRL_PATROL 1).on F.FBK_CTRL_PATROL = true ∧ hd.accepts (dsc 0) 0xA0 .both = true ∧
    (paired false true).accepts (dsc 0) 0xA0 .both = true ∧ (dsc 0).only [] = true ∧ (paired false true).on F.FBK_CTRL_ARB = false ∧
    (paired false true).peerFresh = false ∧
    ({ paired false true with pair := { (paired false true).pair with peer := some ([0x46, 0x42, 1, 10], 0) } } : State).peerFresh = true ∧
    hd.accepts (dsc 0) 0xA1 .both = true ∧ hd.accepts (dsc 0) 0xA2 .both = true ∧
    (paired false true).accepts (dsc 0) 0xA2 .both = true ∧ (dsc 0).mbx = false ∧ tl.accepts { dsc 0 with mbx := true } 0xA2 .both = true := by decide

theorem wit_RegisterWrites : hd.live = true ∧ hd.on F.GLB_BOOT_STAT_NOT_READY = false ∧ hd.isHead = true ∧ tl.isTile = true ∧
    (hd.wr F.GLB_BOOT_STAT_NOT_READY 1).on F.GLB_BOOT_STAT_NOT_READY = true ∧ blkOf 0x80 ≠ 3 ∧ (7 : BitVec 4) ≠ 15 ∧
    tl.anyActive = false ∧ tl.frozen = false ∧ (tl.wr F.STP_STATE_FROZEN 1).frozen = true ∧
    ((tileWest.wr F.GLB_TILE_ID_VALID 1).anyActive && (tileWest.wr F.GLB_TILE_ID_VALID 1).on F.GLB_TILE_ID_VALID) = true ∧
    hiOf 0x80 = none ∧ loOf 0x80 = none ∧ hiOf 0x8004C = some 0x80050 := by decide
/-- R7: a sticky bit recorded in this CK_SYS cycle stays set; in a later one it is cleared. -/
theorem test_w1c : (let s := hd.detect E.CLK_REF_LOSS
    (registerWrite 0x10010 0xFFFFFFFF 15 s).sticky E.CLK_REF_LOSS = true ∧
    (registerWrite 0x10010 0xFFFFFFFF 15 (s.advance 16)).sticky E.CLK_REF_LOSS = false) := by decide +kernel
theorem wit_RegisterWrites_rws : isRws 0xC0040 = true ∧ isRws 0x80 = false := by decide +kernel
/-- R381, R389: a partial write is counted and shown; a SCRATCH register reads back. -/
theorem test_partial : (registerWrite 0x81 5 1 hd).rd F.GLB_REG_DENIED = 1 ∧ (registerWrite 0x81 5 1 hd).rd F.GLB_REG_LAST_OFFSET = 0x80 := by
  decide +kernel
theorem test_scratch : ((registerWrite 0x84 0xCAFEF00D 15 hd).regRead 0x84).1 = 0xCAFEF00D := by decide +kernel
/-- R389: DEVICE reads hardware type 0x8128; R350: a block register reads 0x4E524459 while NOT_READY is 1. -/
theorem test_device : (hd.regRead 0x50).1 % 65536 = 0x8128 ∧ ((hd.wr F.GLB_BOOT_STAT_NOT_READY 1).regRead 0x20040).1 = 0x4E524459 := by
  decide +kernel

theorem wit_RoleKept : heldPorn.power.phase = .porn ∧ (∀ b, Instr.perst ≠ .pornRelease b) ∧
    exec .perst hd = .next { hd with hq := { hd.hq with msixTab := [], msixPend := [] } } := by
  refine ⟨by decide, ?_, rfl⟩; intro b h; cases h
theorem wit_ResignReaction : hd.masked 11 0 = false ∧
    ({ hd with react := [(32 * 11, 3)] } : State).codeOf 11 0 = 3 ∧ ({ hd with react := [(32 * 11, 1)] } : State).codeOf 11 0 = 1 ∧ hd.isPair = false ∧ (paired false true).isPair = true ∧
    (paired false true).on F.FBK_CTRL_ARB = false ∧ ((paired false true).wr F.FBK_CTRL_ARB 1).on F.FBK_CTRL_ARB = true := by decide
theorem wit_StatusMap : Store.wf tl.lm = true ∧ Store.wf (tl.writeStatus 5 2).lm = true ∧
    bits (Store.get (tl.writeStatus 5 2).lm 1).toNat 2 2 = 2 := by decide

/-! Ill-formed commands, one for each check of WellFormed, are refused. -/

/-- A descriptor of a queue that does not exist; return messages with one bad part each; a slot, a round and lanes; ill-formed
fillings of the slot arms and of the lane arms. -/
def dBad : Desc := { dsc 0 with sq := 1024 }
def slotOk : Bytes := List.replicate 256 0
def msg (port idx len : Nat) : RetMsg := { port := port, at0 := 1, slot := List.replicate len 0, idx := idx }
def lanesOff : List (List Block) := [[], []]
def roundOk : List (Nat × Block) := (List.range 8).map (fun i => (i, ⟨0, 0⟩))
def slotArm (f : Nat → Nat → Bytes → Instr) : List Instr := [f 4 1 slotOk, f 0 0 slotOk, f 0 1024 slotOk, f 0 1 []]
def laneArm (f : Nat → List (List Block) → Instr) : List Instr := [f 4 [], f 0 lanesOff]
def allRefused (l : List Instr) : Bool := l.all (fun i => !i.wf)

theorem smoke_helpers : dBad.wf = false ∧ slotWf [1] = false ∧ (msg 4 0 256).wf = false ∧ ({ msg 0 0 256 with at0 := 0 } : RetMsg).wf = false ∧
    (msg 0 60 256).wf = false ∧ (msg 0 0 255).wf = false ∧ indexWf 0 = false ∧ indexWf 1024 = false ∧ lanesWf lanesOff = false ∧
    roundWf [] = false ∧ roundWf roundOk = true ∧ offWf 2 = false ∧ offWf 0x400000 = false ∧
    branchWf [(128, [])] = false ∧ ({ frameOf .other with port := 2 } : NetFrame).wf = false ∧
    ({ frameOf .other with len := 2 } : NetFrame).wf = false ∧ ({ frameOf .other with raw := [1] } : NetFrame).wf = false := by decide +kernel
theorem smoke_frames : allRefused [.scriptRunEnd 16 [] [], .scriptRunEnd 0 [(128, [])] [], .scriptRunEnd 0 [] [(128, [])],
    .stepDispatch 256, .bandJudgment 16, .bandComposed 16, .bandAbandon 16, .gladeVerdict 16, .substitutionDone 16] = true := by decide
theorem smoke_stands : allRefused [.standLoad dBad, .standUnload dBad, .overlayLoad dBad, .overlayUnload dBad, .shadowStand dBad,
    .shadowOverlays dBad, .shadowLayer dBad, .shadowBuffer dBad, .shadowTables dBad, .shadowGlade dBad, .shadowPattern dBad,
    .shadowDimmer dBad, .shadowRevert dBad, .commit dBad, .commitCancel dBad, .excludeSet dBad, .commitStatus dBad] = true := by decide
theorem smoke_queues : allRefused [.doorbellPoll [(1024, 0)], .completionPost 256 none true, .headWordRead 256 0, .coalesceTimer 256,
    .adminQueueSetup 2 0, .bar4Access (2 ^ 28) none 1, .nop dBad, .sqCreate dBad, .sqDelete dBad, .cqCreate dBad, .cqDelete dBad,
    .queueQuery dBad, .mbxResync dBad, .tileRegRead dBad, .tileRegWrite dBad, .tileWrite dBad ⟨[], true⟩, .tileRead dBad,
    .localWrite dBad ⟨[], true⟩, .localRead dBad true] = true := by decide
theorem smoke_mailbox : allRefused (slotArm .mailbox ++ slotArm .remoteWrite ++ slotArm .regRead ++ slotArm .regWrite ++
    slotArm .resync ++ slotArm .readReq ++ [.mbxAck (msg 4 0 256), .mbxRetransmit 512, .completion (msg 4 0 256), .regReply (msg 0 60 256),
    .event (msg 0 60 256) true, .readData (msg 0 0 3) true]) = true := by decide +kernel
theorem smoke_link : allRefused (laneArm .blockLock ++ laneArm .lockTimeout ++ laneArm .deskewTimeout ++ laneArm .capTimeout ++
    laneArm .lockLoss ++ laneArm .markerMissing ++ laneArm (.markerReceive · slotOk) ++ laneArm (.deskewDone · roundOk roundOk) ++
    laneArm (.deskewLoss · roundOk roundOk) ++ laneArm (.capabilityAccept · (List.replicate 56 0) (List.replicate 56 0)) ++
    [.deskewDone 0 [] roundOk [], .deskewDone 0 roundOk [] [], .deskewLoss 0 [] roundOk [], .deskewLoss 0 roundOk [] [],
    .capabilityAccept 0 [] (List.replicate 56 0) [], .capabilityAccept 0 (List.replicate 56 0) [] [], .markerReceive 0 [] [],
    .trlEnable 4, .trlDisable 4, .detectSense 4 false, .trainEnd 4 0 0, .prbsDetect 4, .portActive 4, .signalLoss 4, .hiBer 4,
    .retrain 4, .peerSleep 4, .dormantEnter 4, .dormantClear 4, .wakeDetect 4, .wakeRelock 4]) = true := by decide +kernel
theorem smoke_trail : allRefused (slotArm .chunkReceive ++ slotArm .broadcastSlot ++ slotArm .echoReq ++ slotArm .echoRsp ++
    slotArm .previewReturn ++ [.trailCycleStart 4, .chunkDrop 4, .bcastGapTimer 0, .bcastGapTimer 6, .bcastGap (msg 4 0 256),
    .commitReply (msg 4 0 256), .lockReport (msg 4 0 256), .emptySlotArrive 4 0, .emptySlotArrive 0 1024, .echoTimeout 4 0,
    .rosterTimeout 4 0, .rosterTimeout 0 512]) = true := by decide +kernel
theorem smoke_net : allRefused [.netFrameReceive { frameOf .other with port := 2 }, .hostFetchComplete 16 0 ⟨[], true⟩ 0,
    .sacnSourceTimeout 32 0, .netLinkDown 2, .netModeWrite 2 0, .netLinkUp 2 1 false, .netLinkUp 0 0 false, .pacedLaunch 64,
    .timedLaunch 2, .flowSet dBad, .flowClear dBad, .sourceSet dBad, .rxPost dBad, .txSend dBad ⟨[], true⟩, .flowStats dBad true,
    .sacnMap dBad, .sacnCue dBad, .previewSet dBad, .txflowSet dBad, .servoFeed dBad, .timeStep dBad, .timeRead dBad,
    .tsFetch dBad true] = true := by decide
theorem smoke_tile : allRefused [.geometryCheck dBad, .canopyStats dBad true, .tableWrite dBad ⟨[], true⟩ ⟨[], true⟩,
    .tablePatch dBad ⟨[], true⟩, .tableVerify dBad, .censusRun dBad, .branchStats dBad true, .holdSet dBad, .asrcUnlock 16 false,
    .asrcLock 16 false 0, .silentChangeApply 4352, .zcTimeout 4352, .portSet dBad, .streamSet dBad, .routeSet dBad, .captureSet dBad,
    .txaudSet dBad, .groupSet dBad] = true := by decide
theorem smoke_care : allRefused [.fbSerFrame [], .handover dBad, .pairStatus dBad, .digestReset dBad, .faultEvent 23 0,
    .faultEvent 0 32, .blockReset 23, .quiesceEnd 23, .blkReactWrite 23 0, .lmcScrub (2 ^ 33) .clean, .supplyDip 5, .supplyReset 5,
    .busy 0, .busy 7, .faultSnapshot dBad true, .rangerRestart dBad, .thermalSample [], .trimSave dBad true,
    .trimRestore dBad ⟨[], true⟩, .memBist dBad [] true, .imageWrite dBad ⟨[], true⟩, .imageActivate dBad, .imageConfirm dBad,
    .imageRevert dBad, .migrationReport dBad true, .imageBroadcast dBad ⟨[], true⟩, .sdbQuery dBad, .seedbankScrub (2 ^ 26) .clean,
    .loHiPairWrite 1 0, .shadowFieldWrite 1 0, .registerWrite (2 ^ 22) 0 15] = true := by decide

/-! Values that the manual's worked examples give. -/

/-- R201: the CRC-32C check value. -/
theorem test_crc32c : crc32c [0x31, 0x32, 0x33, 0x34, 0x35, 0x36, 0x37, 0x38, 0x39] = 0xE3069283 := by decide +kernel
/-- The worked lamp of tile 150 (R210, R211, R214): the drive taps and the current codes. -/
def lamp150 : Bytes := [128, 3, 4, 0, 0, 2, 64, 3, 4, 0, 0, 1, 192, 3, 0, 0, 0, 0, 0, 0]
theorem test_lamp_g : [corrG lamp150 [184, 30, 3, 0] [600000, 400000, 200000] 0, corrG lamp150 [0, 32, 0, 0] [600000, 400000, 200000] 1,
    corrG lamp150 [154, 161, 1, 0] [600000, 400000, 200000] 2] = [32999, 22266, 12715] := by decide
theorem test_lamp_tap : driveTap lamp150 [184, 30, 3, 0] [600000, 400000, 200000] 0 = 33011 ∧
    driveTap lamp150 [154, 161, 1, 0] [600000, 400000, 200000] 2 = 12721 := by decide
theorem test_codes : splitOf 49152 16384 = (49152, 65536) ∧ [codeOfB 200 49152, codeOfB 176 49152, codeOfB 230 49152] = [150, 132, 173] := by
  decide
/-- SHAKE256 of the empty string, from FIPS 202's published examples. -/
theorem test_shake : (shake 4 []).map (·.toNat) = [0x46, 0xb9, 0xdd, 0x2b] := by decide +kernel
/-- The chase of R250's example at n mod 120 = 30: w = Q at lamps 1,600, 1,920 and 2,239. -/
def chase : Bytes := [0, 128, 0, 192, 255, 255, 120, 0, 0, 64, 222, 125, 0, 128, 0, 0, 0, 0, 0, 0, 0, 0, 0, 0, 0, 0, 0, 0, 0, 0, 0, 0, 0, 0, 0, 0, 0, 0, 0, 0, 0, 0, 8, 0, 0, 0, 8, 0]
theorem test_chase : [patGain chase 30 1600 0, patGain chase 30 1920 0, patGain chase 30 2239 0] = [27300, 32760, 0] ∧
    patPhase chase 30 1920 0 = 262144 := by decide
/-- Tile 150's main feed (R172 - R176): the Interest entry, the span and the store. -/
def place150 : Place := ⟨1920, 1920, 320, 320, 3, []⟩
def main150 : Layer := Layer.parse [1, 0, 0, 0, 0, 0, 0, 0, 0, 0, 0, 0, 0, 0, 224, 1, 0, 0, 240, 0, 0, 0, 0, 0, 0, 30, 224, 16, 0, 128, 0, 0]
def feedFmt : Fmt := ⟨0, 1, true, 7680, 4320⟩
theorem test_interest : interestOf place150 main150 feedFmt 0 320 = some ⟨0, 2157, 2522, 19, 23⟩ ∧ spanOf place150 main150 feedFmt = 654 ∧
    storeNeed [⟨0, 2157, 2522, 19, 23⟩] = 890112 ∧ storeNeed [⟨1, 2877, 3522, 0, 6⟩] = 2232576 := by decide
theorem test_band0 : interestOf place150 main150 feedFmt 0 20 = some ⟨0, 2157, 2185, 19, 23⟩ ∧ main150.ay.tap 1920 = (2160, 4) ∧
    main150.ay.tap 2239 = (2518, 60) := by decide
/-- R117's time difference of chapter 8's example, and the Lamp Status Map's extent of tile 150 (R239). -/
theorem test_diff : diff32 5000 3159130112 = 1135842184 ∧ ceilDiv (ceilDiv (place150.lamps * place150.emit) 4) 64 * 64 = 76800 := by
  decide
end

section
/-! Every command keeps any property of the stores and the straps that survives the writes of its own class. -/

namespace Sys2Proof.Machine

variable {Q : Store → Store → StrapBalls → Prop}

/-- The two commands that sample the strap balls (R348, R300). -/
def samplesStraps : Instr → Bool
  | .pornRelease _ | .supplyResetRelease _ _ => true
  | _ => false

/-- The property survives Local Memory going back to its reset value (R347). -/
def ClearsLm (Q : Store → Store → StrapBalls → Prop) : Prop := ∀ lm sdb st, Q lm sdb st → Q [] sdb st

/-- The property survives every kind of write that the command's class can make: of Local Memory unless `storesNothing` lists
it, of the Seedbank unless `keepsSeedbank` does, of the straps where it is a release. -/
structure Survives (Q : Store → Store → StrapBalls → Prop) (i : Instr) : Prop where
  writesLm : storesNothing i = false → WritesLm Q
  clearsLm : storesNothing i = false → ClearsLm Q
  writesSdb : keepsSeedbank i = false → WritesSdb Q
  resets : samplesStraps i = true → Resets Q

theorem State.heldIn_keeps_of_clears (C : ClearsLm Q) (s : State) (ph : PowerPhase) (last : Nat) (hs : Mem Q s) :
    Mem Q (s.heldIn ph last) :=
  C _ _ _ hs

theorem execSupplyReset_keeps_of_clears (C : ClearsLm Q) (rail : Nat) (s : State) (hs : Mem Q s) :
    OutMem Q (execSupplyReset rail s) :=
  out_next (keep_ite (State.heldIn_keeps_of_clears C _ _ _ hs) hs)

/-- One row for each command: the lemma of its meaning asks for no write that its class rules out. -/
theorem exec_keeps_of_survives (i : Instr) (h : Survives Q i) (s : State) (hs : Mem Q s) : OutMem Q (exec i s) := by
  cases i with
  | pornAssert => exact out_next (State.heldIn_keeps_of_clears (h.clearsLm rfl) _ _ _ hs)
  | pornRelease => exact execPornRelease_keeps (h.resets rfl) _ _ hs
  | perst => exact execPerst_keeps _ hs
  | rootLock => exact execRootLock_keeps _ hs
  | bootLoad => exact execBootLoad_keeps (h.writesLm rfl) (h.writesSdb rfl) _ hs
  | rangerRunning => exact execRangerRunning_keeps (h.writesLm rfl) (h.writesSdb rfl) _ hs
  | refLoss => exact execRefLoss_keeps _ hs
  | fbclkLoss => exact execFbclkLoss_keeps _ hs
  | holdoverExpiry => exact execHoldoverExpiry_keeps _ hs
  | slewComplete => exact execSlewComplete_keeps _ hs
  | rootUnlock => exact execRootUnlock_keeps _ hs
  | frameBoundary => exact execFrameBoundary_keeps (h.writesLm rfl) _ hs
  | fixFrameStart => exact execFixFrameStart_keeps _ hs
  | frameLatch => exact execFrameLatch_keeps (h.writesLm rfl) _ hs
  | subframeBoundary => exact execSubframeBoundary_keeps (h.writesLm rfl) _ hs
  | scriptRunEnd => exact execScriptRunEnd_keeps (h.writesLm rfl) _ _ _ _ hs
  | frmCfgWrite => exact execFrmCfgWrite_keeps _ _ hs
  | frmRun => exact execFrmRun_keeps _ hs
  | frmStop => exact execFrmStop_keeps _ hs
  | frmReseed => exact execFrmReseed_keeps _ hs
  | stepDispatch => exact execStepDispatch_keeps _ _ hs
  | bandJudgment => exact execBandJudgment_keeps _ _ hs
  | bandComposed => exact execBandComposed_keeps (h.writesLm rfl) _ _ hs
  | passComplete => exact execPassComplete_keeps (h.writesLm rfl) _ hs
  | bandAbandon => exact execBandAbandon_keeps _ _ hs
  | bankRetire => exact execBankRetire_keeps _ hs
  | gladeVerdict => exact execGladeVerdict_keeps _ _ hs
  | substitutionDone => exact execSubstitutionDone_keeps (h.writesLm rfl) _ _ hs
  | gladeRelease => exact execGladeRelease_keeps _ _ hs
  | standLoad => exact execStandLoad_keeps (h.writesLm rfl) _ _ hs
  | standUnload => exact execStandUnload_keeps (h.writesLm rfl) _ _ hs
  | overlayLoad => exact execOverlayLoad_keeps (h.writesLm rfl) _ _ hs
  | overlayUnload => exact execOverlayUnload_keeps (h.writesLm rfl) _ _ hs
  | shadowStand => exact execShadowStand_keeps (h.writesLm rfl) _ _ hs
  | shadowOverlays => exact execShadowOverlays_keeps (h.writesLm rfl) _ _ hs
  | shadowLayer => exact execShadowLayer_keeps (h.writesLm rfl) _ _ hs
  | shadowBuffer => exact execShadowBuffer_keeps (h.writesLm rfl) _ _ hs
  | shadowTables => exact execShadowTables_keeps (h.writesLm rfl) _ _ hs
  | shadowGlade => exact execShadowGlade_keeps (h.writesLm rfl) _ _ hs
  | shadowPattern => exact execShadowPattern_keeps (h.writesLm rfl) _ _ hs
  | shadowDimmer => exact execShadowDimmer_keeps (h.writesLm rfl) _ _ hs
  | shadowRevert => exact execShadowRevert_keeps (h.writesLm rfl) _ _ hs
  | commit => exact execCommit_keeps (h.writesLm rfl) _ _ hs
  | commitPrepare => exact execCommitPrepare_keeps (h.writesLm rfl) _ hs
  | commitValidate => exact execCommitValidate_keeps _ hs
  | cutoff => exact execCutoff_keeps (h.writesLm rfl) _ hs
  | localCommitDecide => exact execLocalCommitDecide_keeps (h.writesLm rfl) _ hs
  | commitCancel => exact execCommitCancel_keeps (h.writesLm rfl) _ _ hs
  | excludeSet => exact execExcludeSet_keeps (h.writesLm rfl) _ _ hs
  | commitStatus => exact execCommitStatus_keeps (h.writesLm rfl) _ _ hs
  | doorbellPoll => exact execDoorbellPoll_keeps _ _ hs
  | descriptorFetch => exact execDescriptorFetch_keeps (h.writesLm rfl) _ _ hs
  | completionPost => exact execCompletionPost_keeps _ _ _ _ hs
  | headWordRead => exact execHeadWordRead_keeps _ _ _ hs
  | acqHeadWrite => exact execAcqHeadWrite_keeps _ _ hs
  | coalesceTimer => exact execCoalesceTimer_keeps _ _ hs
  | hqsEnable => exact execHqsEnable_keeps _ _ hs
  | adminQueueSetup => exact execAdminQueueSetup_keeps _ _ _ hs
  | bar4Access => exact execBar4Access_keeps (h.writesLm rfl) _ _ _ _ hs
  | nop => exact execNop_keeps (h.writesLm rfl) _ _ hs
  | sqCreate => exact execSqCreate_keeps (h.writesLm rfl) _ _ hs
  | sqDelete => exact execSqDelete_keeps (h.writesLm rfl) _ _ hs
  | cqCreate => exact execCqCreate_keeps (h.writesLm rfl) _ _ hs
  | cqDelete => exact execCqDelete_keeps (h.writesLm rfl) _ _ hs
  | queueQuery => exact execQueueQuery_keeps (h.writesLm rfl) _ _ hs
  | mbxResync => exact execMbxResync_keeps (h.writesLm rfl) _ _ hs
  | tileRegRead => exact execTileRegRead_keeps (h.writesLm rfl) _ _ hs
  | tileRegWrite => exact execTileRegWrite_keeps (h.writesLm rfl) _ _ hs
  | tileWrite => exact execTileWrite_keeps (h.writesLm rfl) _ _ _ hs
  | tileRead => exact execTileRead_keeps (h.writesLm rfl) _ _ hs
  | localWrite => exact execLocalWrite_keeps (h.writesLm rfl) _ _ _ hs
  | localRead => exact execLocalRead_keeps (h.writesLm rfl) _ _ _ hs
  | mailbox => exact execMailbox_keeps (h.writesLm rfl) _ _ _ _ hs
  | remoteWrite => exact execRemoteWrite_keeps (h.writesLm rfl) _ _ _ _ hs
  | regRead => exact execRegRead_keeps _ _ _ _ hs
  | regWrite => exact execRegWrite_keeps _ _ _ _ hs
  | resync => exact execResync_keeps (h.writesLm rfl) _ _ _ _ hs
  | readReq => exact execReadReq_keeps _ _ _ _ hs
  | tileMailboxPoll => exact execTileMailboxPoll_keeps (h.writesLm rfl) _ hs
  | mbxAck => exact execMbxAck_keeps (h.writesLm rfl) _ _ hs
  | mbxRetransmit => exact execMbxRetransmit_keeps (h.writesLm rfl) _ _ hs
  | completion => exact execCompletion_keeps (h.writesLm rfl) _ _ hs
  | regReply => exact execRegReply_keeps (h.writesLm rfl) _ _ hs
  | event => exact execEvent_keeps _ _ _ hs
  | readData => exact execReadData_keeps (h.writesLm rfl) _ _ _ hs
  | trlEnable => exact execTrlEnable_keeps _ _ hs
  | trlDisable => exact execTrlDisable_keeps _ _ hs
  | detectSense => exact execDetectSense_keeps _ _ _ hs
  | trainEnd => exact execTrainEnd_keeps _ _ _ _ hs
  | prbsDetect => exact execPrbsDetect_keeps _ _ hs
  | blockLock => exact execBlockLock_keeps _ _ _ hs
  | deskewDone => exact execDeskewDone_keeps _ _ _ _ _ hs
  | lockTimeout => exact execLockTimeout_keeps _ _ _ hs
  | deskewTimeout => exact execDeskewTimeout_keeps _ _ _ hs
  | capTimeout => exact execCapTimeout_keeps _ _ _ hs
  | capabilityAccept => exact execCapabilityAccept_keeps _ _ _ _ _ hs
  | portActive => exact execPortActive_keeps _ _ hs
  | signalLoss => exact execSignalLoss_keeps _ _ hs
  | lockLoss => exact execLockLoss_keeps _ _ _ hs
  | deskewLoss => exact execDeskewLoss_keeps _ _ _ _ _ hs
  | hiBer => exact execHiBer_keeps _ _ hs
  | retrain => exact execRetrain_keeps _ _ hs
  | peerSleep => exact execPeerSleep_keeps _ _ hs
  | dormantEnter => exact execDormantEnter_keeps _ _ hs
  | dormantClear => exact execDormantClear_keeps _ _ hs
  | wakeDetect => exact execWakeDetect_keeps _ _ hs
  | wakeRelock => exact execWakeRelock_keeps _ _ hs
  | trailCycleStart => exact execTrailCycleStart_keeps (h.writesLm rfl) _ _ hs
  | chunkDrop => exact execChunkDrop_keeps (h.writesLm rfl) _ _ hs
  | markerReceive => exact execMarkerReceive_keeps (h.writesLm rfl) _ _ _ _ hs
  | markerMissing => exact execMarkerMissing_keeps _ _ _ hs
  | chunkReceive => exact execChunkReceive_keeps _ _ _ _ hs
  | broadcastSlot => exact execBroadcastSlot_keeps (h.writesLm rfl) (h.writesSdb rfl) _ _ _ _ hs
  | bcastGapTimer => exact execBcastGapTimer_keeps _ _ hs
  | bcastGap => exact execBcastGap_keeps _ _ hs
  | commitReply => exact execCommitReply_keeps (h.writesLm rfl) _ _ hs
  | lockReport => exact execLockReport_keeps _ _ hs
  | emptySlotArrive => exact execEmptySlotArrive_keeps _ _ _ hs
  | echoReq => exact execEchoReq_keeps _ _ _ _ hs
  | echoRsp => exact execEchoRsp_keeps _ _ _ _ hs
  | echoTimeout => exact execEchoTimeout_keeps _ _ _ hs
  | echoStale => exact execEchoStale_keeps _ hs
  | previewReturn => exact execPreviewReturn_keeps (h.writesLm rfl) _ _ _ _ hs
  | epochAdvance => exact execEpochAdvance_keeps _ hs
  | rosterTimeout => exact execRosterTimeout_keeps _ _ _ hs
  | netFrameReceive => exact execNetFrameReceive_keeps (h.writesLm rfl) _ _ hs
  | hostFetchComplete => exact execHostFetchComplete_keeps (h.writesLm rfl) _ _ _ _ _ hs
  | referenceRelease => exact execReferenceRelease_keeps _ _ hs
  | sacnSourceTimeout => exact execSacnSourceTimeout_keeps _ _ _ hs
  | sacnCommit => exact execSacnCommit_keeps _ hs
  | sacnHeldWrite => exact execSacnHeldWrite_keeps _ hs
  | sacnCueCommit => exact execSacnCueCommit_keeps _ hs
  | netLinkDown => exact execNetLinkDown_keeps _ _ hs
  | netModeWrite => exact execNetModeWrite_keeps _ _ _ hs
  | pacedLaunch => exact execPacedLaunch_keeps (h.writesLm rfl) _ _ hs
  | timedLaunch => exact execTimedLaunch_keeps (h.writesLm rfl) _ _ hs
  | flowSet => exact execFlowSet_keeps (h.writesLm rfl) _ _ hs
  | flowClear => exact execFlowClear_keeps (h.writesLm rfl) _ _ hs
  | sourceSet => exact execSourceSet_keeps (h.writesLm rfl) _ _ hs
  | rxPost => exact execRxPost_keeps (h.writesLm rfl) _ _ hs
  | txSend => exact execTxSend_keeps (h.writesLm rfl) _ _ _ hs
  | flowStats => exact execFlowStats_keeps (h.writesLm rfl) _ _ _ hs
  | sacnMap => exact execSacnMap_keeps (h.writesLm rfl) _ _ hs
  | sacnCue => exact execSacnCue_keeps (h.writesLm rfl) _ _ hs
  | previewSet => exact execPreviewSet_keeps (h.writesLm rfl) _ _ hs
  | txflowSet => exact execTxflowSet_keeps (h.writesLm rfl) _ _ hs
  | timeNsRead => exact execTimeNsRead_keeps _ hs
  | timeSet => exact execTimeSet_keeps _ hs
  | rangerOffsetFeed => exact execRangerOffsetFeed_keeps _ _ _ hs
  | servoFeed => exact execServoFeed_keeps (h.writesLm rfl) _ _ hs
  | servoHoldover => exact execServoHoldover_keeps _ hs
  | timeStep => exact execTimeStep_keeps (h.writesLm rfl) _ _ hs
  | timeRead => exact execTimeRead_keeps (h.writesLm rfl) _ _ hs
  | tsFetch => exact execTsFetch_keeps (h.writesLm rfl) _ _ _ hs
  | geometryCheck => exact execGeometryCheck_keeps (h.writesLm rfl) _ _ hs
  | canopyStats => exact execCanopyStats_keeps (h.writesLm rfl) _ _ _ hs
  | tableWrite => exact execTableWrite_keeps (h.writesLm rfl) _ _ _ _ hs
  | tablePatch => exact execTablePatch_keeps (h.writesLm rfl) _ _ _ hs
  | patchApply => exact execPatchApply_keeps (h.writesLm rfl) _ hs
  | tableVerify => exact execTableVerify_keeps (h.writesLm rfl) _ _ hs
  | censusRun => exact execCensusRun_keeps (h.writesLm rfl) _ _ hs
  | branchStats => exact execBranchStats_keeps (h.writesLm rfl) _ _ _ hs
  | holdSet => exact execHoldSet_keeps (h.writesLm rfl) _ _ hs
  | nightEntry => exact execNightEntry_keeps (h.writesLm rfl) _ hs
  | fsyncEdge => exact execFsyncEdge_keeps (h.writesLm rfl) _ _ hs
  | fsyncLost => exact execFsyncLost_keeps (h.writesLm rfl) _ hs
  | fsyncZeroPulse => exact execFsyncZeroPulse_keeps _ hs
  | standaloneExit => exact execStandaloneExit_keeps _ hs
  | audioRun => exact execAudioRun_keeps _ hs
  | audioBlockBoundary => exact execAudioBlockBoundary_keeps (h.writesLm rfl) _ _ hs
  | fbStartPulse => exact execFbStartPulse_keeps _ hs
  | fbsLost => exact execFbsLost_keeps _ hs
  | asrcUnlock => exact execAsrcUnlock_keeps (h.writesLm rfl) _ _ _ hs
  | asrcLock => exact execAsrcLock_keeps (h.writesLm rfl) _ _ _ _ hs
  | silentChangeApply => exact execSilentChangeApply_keeps (h.writesLm rfl) _ _ hs
  | zcTimeout => exact execZcTimeout_keeps (h.writesLm rfl) _ _ hs
  | portSet => exact execPortSet_keeps (h.writesLm rfl) _ _ hs
  | streamSet => exact execStreamSet_keeps (h.writesLm rfl) _ _ hs
  | routeSet => exact execRouteSet_keeps (h.writesLm rfl) _ _ hs
  | captureSet => exact execCaptureSet_keeps (h.writesLm rfl) _ _ hs
  | txaudSet => exact execTxaudSet_keeps (h.writesLm rfl) _ _ hs
  | groupSet => exact execGroupSet_keeps (h.writesLm rfl) _ _ hs
  | claim => exact execClaim_keeps _ hs
  | takeoverDecision => exact execTakeoverDecision_keeps (h.writesLm rfl) _ hs
  | resign => exact execResign_keeps _ hs
  | healthUpdate => exact execHealthUpdate_keeps _ hs
  | arbSelect => exact execArbSelect_keeps _ hs
  | arbDeselect => exact execArbDeselect_keeps _ hs
  | fbSerFrame => exact execFbSerFrame_keeps (h.writesLm rfl) _ _ hs
  | serLost => exact execSerLost_keeps _ hs
  | overlapTimeout => exact execOverlapTimeout_keeps _ hs
  | healthReport => exact execHealthReport_keeps _ _ hs
  | patrolTest => exact execPatrolTest_keeps _ _ _ hs
  | handover => exact execHandover_keeps (h.writesLm rfl) _ _ hs
  | pairStatus => exact execPairStatus_keeps (h.writesLm rfl) _ _ hs
  | digestReset => exact execDigestReset_keeps (h.writesLm rfl) _ _ hs
  | faultEvent => exact execFaultEvent_keeps _ _ _ hs
  | blockReset => exact execBlockReset_keeps _ _ hs
  | quiesceEnd => exact execQuiesceEnd_keeps _ _ hs
  | resetLimitEnd => exact execResetLimitEnd_keeps _ hs
  | blkReactWrite => exact execBlkReactWrite_keeps _ _ _ hs
  | lmcScrub => exact execLmcScrub_keeps _ _ _ hs
  | supplyDip => exact execSupplyDip_keeps _ _ hs
  | dipRecovery => exact execDipRecovery_keeps (h.writesLm rfl) (h.writesSdb rfl) _ hs
  | supplyReset => exact execSupplyReset_keeps_of_clears (h.clearsLm rfl) _ _ hs
  | supplyResetRelease => exact execSupplyResetRelease_keeps (h.resets rfl) _ _ _ hs
  | wdgKick => exact execWdgKick_keeps _ hs
  | preExpire => exact execPreExpire_keeps _ hs
  | expired => exact execExpired_keeps (h.writesLm rfl) (h.writesSdb rfl) _ hs
  | busy => exact execBusy_keeps _ _ hs
  | faultSnapshot => exact execFaultSnapshot_keeps (h.writesLm rfl) _ _ _ hs
  | rangerRestart => exact execRangerRestart_keeps (h.writesLm rfl) _ _ hs
  | thermalSample => exact execThermalSample_keeps _ _ hs
  | peakReset => exact execPeakReset_keeps _ hs
  | trimApply => exact execTrimApply_keeps _ hs
  | trimChange => exact execTrimChange_keeps (h.writesLm rfl) _ hs
  | trimSave => exact execTrimSave_keeps (h.writesLm rfl) _ _ _ hs
  | trimRestore => exact execTrimRestore_keeps (h.writesLm rfl) _ _ _ hs
  | memBist => exact execMemBist_keeps (h.writesLm rfl) _ _ _ _ hs
  | imageWrite => exact execImageWrite_keeps (h.writesLm rfl) (h.writesSdb rfl) _ _ _ hs
  | imageActivate => exact execImageActivate_keeps (h.writesLm rfl) (h.writesSdb rfl) _ _ hs
  | imageConfirm => exact execImageConfirm_keeps (h.writesLm rfl) (h.writesSdb rfl) _ _ hs
  | imageRevert => exact execImageRevert_keeps (h.writesLm rfl) (h.writesSdb rfl) _ _ hs
  | migrationReport => exact execMigrationReport_keeps (h.writesLm rfl) _ _ _ hs
  | imageBroadcast => exact execImageBroadcast_keeps (h.writesLm rfl) _ _ _ hs
  | sdbQuery => exact execSdbQuery_keeps (h.writesLm rfl) _ _ hs
  | trialWindowExpiry => exact execTrialWindowExpiry_keeps (h.writesLm rfl) (h.writesSdb rfl) _ hs
  | seedbankScrub => exact execSeedbankScrub_keeps _ _ _ hs
  | tileIdWrite => exact execTileIdWrite_keeps _ _ _ hs
  | loHiPairWrite => exact execLoHiPairWrite_keeps _ _ _ hs
  | shadowFieldWrite => exact execShadowFieldWrite_keeps _ _ _ hs
  | registerWrite => exact execRegisterWrite_keeps _ _ _ _ hs
  | jtagInstruction => exact execJtagInstruction_keeps _ _ hs
  | netLinkUp => exact execNetLinkUp_keeps _ _ _ _ hs
  | fbclkPresent => exact execFbclkPresent_keeps _ hs
  | fbActInRise => exact execFbActInRise_keeps _ hs
  | freeRunFrameStart => exact execFreeRunFrameStart_keeps (h.writesLm rfl) _ hs

theorem keepsSeedbank_of_storesNothing {i : Instr} (h : storesNothing i = true) : keepsSeedbank i = true := by
  have key : (!storesNothing i || keepsSeedbank i) = true := by cases i <;> rfl
  simpa [h] using key

theorem samplesStraps_of_storesNothing {i : Instr} (h : storesNothing i = true) : samplesStraps i = false := by
  have key : (storesNothing i && samplesStraps i) = false := by cases i <;> rfl
  simpa [h] using key

/-! ### The stores -/

/-- Both stores are the given ones. -/
def SameStores (lm₀ sdb₀ : Store) : Store → Store → StrapBalls → Prop := fun lm sdb _ => lm = lm₀ ∧ sdb = sdb₀

/-- The Seedbank is the given one. -/
def SameSeedbank (sdb₀ : Store) : Store → Store → StrapBalls → Prop := fun _ sdb _ => sdb = sdb₀

/-- The straps are the given ones. -/
def SameStraps (b : StrapBalls) : Store → Store → StrapBalls → Prop := fun _ _ st => st = b

theorem survives_sameStores {i : Instr} (h : storesNothing i = true) (lm₀ sdb₀ : Store) : Survives (SameStores lm₀ sdb₀) i where
  writesLm hw := by rw [h] at hw; cases hw
  clearsLm hw := by rw [h] at hw; cases hw
  writesSdb hw := by rw [keepsSeedbank_of_storesNothing h] at hw; cases hw
  resets hw := by rw [samplesStraps_of_storesNothing h] at hw; cases hw

theorem survives_sameSeedbank {i : Instr} (h : keepsSeedbank i = true) (sdb₀ : Store) : Survives (SameSeedbank sdb₀) i where
  writesLm _ := fun _ _ _ _ _ hq => hq
  clearsLm _ := fun _ _ _ hq => hq
  writesSdb hw := by rw [h] at hw; cases hw
  resets _ := ⟨fun _ _ _ hq => hq, fun _ _ _ _ _ hq => hq⟩

theorem survives_sameStraps {i : Instr} (h : samplesStraps i = false) (b : StrapBalls) : Survives (SameStraps b) i where
  writesLm _ := fun _ _ _ _ _ hq => hq
  clearsLm _ := fun _ _ _ hq => hq
  writesSdb _ := ⟨fun _ _ _ _ _ hq => hq, fun _ _ _ _ hq => hq⟩
  resets hr := by rw [h] at hr; cases hr

theorem exec_keeps_stores {i : Instr} {s t : State} (h : storesNothing i = true) (ht : exec i s = .next t) :
    t.lm = s.lm ∧ t.sdb = s.sdb :=
  exec_keeps_of_survives i (survives_sameStores h s.lm s.sdb) s ⟨rfl, rfl⟩ t ht

theorem exec_keeps_seedbank {i : Instr} {s t : State} (h : keepsSeedbank i = true) (ht : exec i s = .next t) : t.sdb = s.sdb :=
  exec_keeps_of_survives i (survives_sameSeedbank h s.sdb) s rfl t ht

theorem exec_keeps_straps {i : Instr} {s t : State} (h : samplesStraps i = false) (ht : exec i s = .next t) :
    t.power.straps = s.power.straps :=
  exec_keeps_of_survives i (survives_sameStraps h s.power.straps) s rfl t ht

/-- Settles O5: what is said byte by byte holds of the stores themselves. -/
theorem storesLeftAlone : Obligations.StoresLeftAlone := by
  unfold Obligations.StoresLeftAlone
  refine ⟨fun i s t h ht a => ?_, fun i s t h ht a => ?_⟩
  · obtain ⟨hlm, hsdb⟩ := exec_keeps_stores h ht
    rw [hlm, hsdb]
    exact ⟨rfl, rfl⟩
  · rw [exec_keeps_seedbank h ht]

/-! ### The straps -/

theorem samplesStraps_eq_false {c : Instr} (hp : ∀ b, c ≠ .pornRelease b) (hs : ∀ k b, c ≠ .supplyResetRelease k b) :
    samplesStraps c = false := by
  unfold samplesStraps
  split
  · exact absurd rfl (hp _)
  · exact absurd rfl (hs _ _)
  · rfl

/-- A release puts the sampled straps in force, whatever sources fire at it. -/
theorem State.releaseWith_straps (s : State) (b : StrapBalls) (flag : Bool) (last : Nat) (supply : Bool) :
    (s.releaseWith b flag last supply).power.straps = b := by
  have key : Mem (SameStraps b) (s.releaseWith b flag last supply) := by
    unfold State.releaseWith
    extract_lets _ sampled noted judged told
    have hsampled : Mem (SameStraps b) sampled := rfl
    have htold : Mem (SameStraps b) told :=
      State.detectIf_keeps _ _ _ (State.detectIf_keeps _ _ _ (State.wr_keeps _ _ _ hsampled))
    clear_value told
    exact keep_ite (State.detect_keeps _ _ (mem_in htold)) htold
  exact key

/-- Role, side and boot source follow from the straps alone. -/
theorem State.role_of_straps {s t : State} (h : t.power.straps = s.power.straps) :
    t.isTile = s.isTile ∧ t.isHead = s.isHead ∧ t.side = s.side ∧ t.bootSrc = s.bootSrc := by
  simp only [State.isTile, State.isHead, State.side, State.bootSrc, h, and_self]

theorem execPornRelease_sampled {s : State} {b : StrapBalls} (hb : b.test = false) (hp : s.power.phase = .porn) :
    exec (.pornRelease b) s = .next (s.releaseWith b s.power.shutFlag s.power.lastReset false) := by
  simp [exec, execPornRelease, hb, hp]

/-- Settles O58: a release samples the straps, and the class of every other command rules out a write of them. -/
theorem roleKept : Obligations.RoleKept := by
  unfold Obligations.RoleKept
  refine ⟨fun s b hb hp => ⟨_, execPornRelease_sampled hb hp, ?_⟩, fun c s t hp hr ht => ?_⟩
  · have h := s.releaseWith_straps b s.power.shutFlag s.power.lastReset false
    generalize s.releaseWith b s.power.shutFlag s.power.lastReset false = t at h ⊢
    subst h
    exact ⟨rfl, rfl, rfl, rfl, rfl⟩
  · have h := exec_keeps_straps (samplesStraps_eq_false hp hr) ht
    exact ⟨h, State.role_of_straps h⟩

end Sys2Proof.Machine
end

section
/-! The shared judgement of descriptors: which completions it gives, and when a descriptor waits. -/

namespace Sys2Proof.Machine

/-- A descriptor that the shared judgement turns away completes with its status and has no other effect. -/
theorem exec_of_judged {i : Instr} {s : State} {d : Desc} {op : Nat} {role : OpRole} {st : Nat}
    (h : descriptorOf i = some (d, op, role)) (hl : s.live = true) (hj : s.judge d op role = some st) :
    exec i s = .next (s.finish d op st) := by
  obtain ⟨f, hf⟩ := exec_descriptor s h
  simp [hf, onOp, onLive_of_live _ hl, hj]

/-- A descriptor that waits changes nothing. -/
theorem exec_of_waits {i : Instr} {s : State} {d : Desc} {op : Nat} {role : OpRole}
    (h : descriptorOf i = some (d, op, role)) (hl : s.live = true) (hj : s.judge d op role = none)
    (hw : s.waitsRanger op = true ∨ s.held d op = true) : exec i s = .next s := by
  obtain ⟨f, hf⟩ := exec_descriptor s h
  simp [hf, onOp, onLive_of_live _ hl, hj, hw]

theorem State.judge_format {s : State} {d : Desc} {op : Nat} {role : OpRole} (hc : d.commonOk = false) :
    s.judge d op role = some stFormat := by
  simp [State.judge, hc]

theorem State.judge_role {s : State} {d : Desc} {op : Nat} {role : OpRole} (hn : s.on F.GLB_BOOT_STAT_NOT_READY = false)
    (hc : d.commonOk = true) (hr : s.has role = false) : s.judge d op role = some stUnsupported := by
  simp [State.judge, hn, hc, hr]

/-- A mailbox carries neither queue management nor the mailbox opcodes (R76), whichever role has them. -/
theorem State.judge_mailbox {s : State} {d : Desc} {op : Nat} {role : OpRole} (hn : s.on F.GLB_BOOT_STAT_NOT_READY = false)
    (hc : d.commonOk = true) (hm : d.mbx = true) (ho : op < 0x10 ∨ (0x30 ≤ op ∧ op < 0x40)) :
    s.judge d op role = some stUnsupported := by
  simp [State.judge, hn, hc, hm, ho]

/-- One earlier unfinished descriptor of its queue holds a fenced descriptor, and any descriptor where it is an edit that the
freeze holds. -/
theorem State.held_of_ahead {s : State} {d : Desc} {op : Nat} {f : Flight}
    (hf : f ∈ ahead (if d.mbx then s.trail.mbxFly else s.hq.flights) d) (hq : f.sq = d.sq) (hd : f.done = none)
    (hw : s.forwarded f = false) (h : d.flags.getLsbD 0 = true ∨ (s.frozen = true ∧ editOp f.op = true)) :
    s.held d op = true := by
  have hb : s.blocks d op f = true := by
    rcases h with h | ⟨h1, h2⟩
    · simp [State.blocks, hq, hd, hw, h]
    · simp [State.blocks, hq, hd, hw, h1, h2]
  exact List.any_eq_true.mpr ⟨f, hf, hb⟩

/-- Settles O6: the completions come from the judgement's cases in their order, the waits from `held` and `waitsRanger`. -/
theorem descriptorTurnedAway : Obligations.DescriptorTurnedAway := by
  unfold Obligations.DescriptorTurnedAway
  refine ⟨fun i s d op role h hl hn => ⟨fun hc => ?_, fun hc hr => ?_, fun hc hm ho => ?_⟩,
    fun i s d op role h hl hj => ⟨fun f hf hq hd hw hh => ?_, fun hr => ?_⟩⟩
  · exact exec_of_judged h hl (State.judge_format hc)
  · exact exec_of_judged h hl (State.judge_role hn hc hr)
  · exact exec_of_judged h hl (State.judge_mailbox hn hc hm ho)
  · exact exec_of_waits h hl hj (.inr (State.held_of_ahead hf hq hd hw hh))
  · exact exec_of_waits h hl hj (.inl hr)

end Sys2Proof.Machine
end

section
/-! The register space: what a whole-word write from the local host comes to, register by register (R380 - R386). -/

namespace Sys2Proof.Machine

/-! ### The role -/

theorem State.isHead_of_isTile {s : State} (h : s.isTile = true) : s.isHead = false := by
  simpa [State.isHead, State.isTile] using h

theorem State.isTile_of_isHead {s : State} (h : s.isHead = true) : s.isTile = false := by
  simpa [State.isHead, State.isTile] using h

/-! ### The word a full write brings -/

/-- A full mask leaves no bit below bit 32. -/
theorem andNot_allOnes_mod (n : Nat) : andNot n allOnes % 2 ^ 32 = 0 := by
  have h : n &&& allOnes = n % 2 ^ 32 := Nat.and_two_pow_sub_one_eq_mod n 32
  rw [andNot, h]
  omega

/-- A write of all 32 bits brings the written word, whatever the field held. -/
theorem State.merged_mod (s : State) (off : Nat) (v : Word) : s.merged off v.toNat allOnes % 2 ^ 32 = v.toNat := by
  have hv : v.toNat &&& allOnes = v.toNat % 2 ^ 32 := Nat.and_two_pow_sub_one_eq_mod v.toNat 32
  have hz := andNot_allOnes_mod (((rowsAt off).map (s.oldRow off)).foldl (· + ·) 0)
  have hlt := v.isLt
  rw [State.merged, hv]
  omega

theorem State.merged_mod_of_le (s : State) (off : Nat) (v : Word) {n : Nat} (hn : n ≤ 32) :
    s.merged off v.toNat allOnes % 2 ^ n = v.toNat % 2 ^ n := by
  rw [← Nat.mod_mod_of_dvd (s.merged off v.toNat allOnes) (Nat.pow_dvd_pow 2 hn), s.merged_mod]

theorem State.bits_merged (s : State) (off : Nat) (v : Word) {n : Nat} (hn : n ≤ 32) :
    bits (s.merged off v.toNat allOnes) 0 n = v.toNat % 2 ^ n := by
  rw [bits, pow_zero, Nat.div_one, s.merged_mod_of_le off v hn]

theorem State.bits_merged_word (s : State) (off : Nat) (v : Word) : bits (s.merged off v.toNat allOnes) 0 32 = v.toNat := by
  rw [s.bits_merged off v le_rfl, Nat.mod_eq_of_lt v.isLt]

theorem State.ofNat_merged (s : State) (off : Nat) (v : Word) : BitVec.ofNat 32 (s.merged off v.toNat allOnes) = v :=
  BitVec.eq_of_toNat_eq (by rw [BitVec.toNat_ofNat, s.merged_mod])

/-! ### Rows -/

theorem State.storeWord_of_row (s : State) {off : Nat} (w : Nat) {r : RegRow} (h : rowsAt off = [r]) :
    s.storeWord off w = s.storeRow off w r := by
  rw [State.storeWord, h]
  rfl

/-- A write to a register none of whose rows the device has changes nothing. -/
theorem State.storeWord_of_absent {s : State} {off : Nat} (w : Nat) (h : ∀ r ∈ rowsAt off, s.rowHere r off = false) :
    s.storeWord off w = s := by
  refine List.foldlRecOn (motive := (· = s)) _ _ rfl fun t ht r hr => ?_
  rw [ht, State.storeRow, h r hr]
  rfl

/-- A register none of whose rows the device has reads 0. -/
theorem State.wordAt_of_absent {s : State} {off : Nat} (h : ∀ r ∈ rowsAt off, s.rowHere r off = false) : s.wordAt off = 0 := by
  refine List.foldlRecOn (motive := (· = 0)) _ _ rfl fun n hn x hx => ?_
  obtain ⟨r, hr, rfl⟩ := List.mem_map.mp hx
  simp [hn, State.readRow, h r hr]

theorem State.rowHere_of_head_row {s : State} {r : RegRow} (off : Nat) (ht : s.isTile = true) (hr : r.role = .head) :
    s.rowHere r off = false := by
  simp [State.rowHere, hr, State.isHead_of_isTile ht]

theorem State.rowHere_of_tile_row {s : State} {r : RegRow} (off : Nat) (hh : s.isHead = true) (hr : r.role = .tile) :
    s.rowHere r off = false := by
  simp [State.rowHere, hr, State.isTile_of_isHead hh]

theorem State.evtCq_absent {s : State} (ht : s.isTile = true) : ∀ r ∈ rowsAt 0x30074, s.rowHere r 0x30074 = false := by
  have hrole : ∀ r ∈ rowsAt 0x30074, r.role = .head := by decide
  exact fun r hr => State.rowHere_of_head_row _ ht (hrole r hr)

theorem State.twinBaseLo_absent {s : State} (hh : s.isHead = true) : ∀ r ∈ rowsAt 0x30084, s.rowHere r 0x30084 = false := by
  have hrole : ∀ r ∈ rowsAt 0x30084, r.role = .tile := by decide
  exact fun r hr => State.rowHere_of_tile_row _ hh (hrole r hr)

theorem State.twinBaseHi_absent {s : State} (hh : s.isHead = true) : ∀ r ∈ rowsAt 0x30088, s.rowHere r 0x30088 = false := by
  have hrole : ∀ r ∈ rowsAt 0x30088, r.role = .tile := by decide
  exact fun r hr => State.rowHere_of_tile_row _ hh (hrole r hr)

/-! ### The access rules -/

theorem State.denied_of_head {s : State} (off : Nat) (trail : Bool) (h : s.isHead = true) : s.denied off trail = none := by
  simp [State.denied, h]

/-- On a tile the local host is refused only FRM_CTRL, TWIN_BASE, TILE_ID and the shadowed registers (R386). -/
theorem State.denied_host_of_plain (s : State) {off : Nat} (hr : isRws off = false)
    (h : off ≠ 0x10054 ∧ off ≠ 0x30084 ∧ off ≠ 0x30088 ∧ off ≠ 0x48) : s.denied off false = none := by
  obtain ⟨h1, h2, h3, h4⟩ := h
  simp [State.denied, hr, h1, h2, h3, h4]

theorem State.denied_tileId {s : State} (ht : s.isTile = true) :
    s.denied 0x48 false = if s.anyActive then some 3 else none := by
  simp [State.denied, State.isHead_of_isTile ht]

theorem State.denied_rws {s : State} {off : Nat} (ht : s.isTile = true) (hr : isRws off = true)
    (h : off ≠ 0x10054 ∧ off ≠ 0x30084 ∧ off ≠ 0x30088 ∧ off ≠ 0x48) :
    s.denied off false = if s.on F.GLB_TILE_ID_VALID && s.anyActive then some 3 else none := by
  obtain ⟨h1, h2, h3, h4⟩ := h
  simp [State.denied, State.isHead_of_isTile ht, hr, h1, h2, h3, h4]

theorem State.regWrite_denied {s : State} {off v mask c : Nat} {trail : Bool}
    (hn : s.on F.GLB_BOOT_STAT_NOT_READY = false ∨ blkOf off = 3) (hd : s.denied off trail = some c) :
    s.regWrite off v mask trail = s.deny off c trail := by
  rcases hn with hn | hn <;> simp [State.regWrite, hn, hd]

theorem State.regWrite_host {s : State} {off v mask : Nat} (hn : s.on F.GLB_BOOT_STAT_NOT_READY = false ∨ blkOf off = 3)
    (hd : s.denied off false = none) : s.regWrite off v mask false = s.act off (s.merged off v mask) := by
  rcases hn with hn | hn <;> simp [State.regWrite, hn, hd]

/-- While NOT_READY is 1 a write outside HQS changes nothing (R350). -/
theorem State.regWrite_not_ready {s : State} {off : Nat} (v mask : Nat) (trail : Bool)
    (hn : s.on F.GLB_BOOT_STAT_NOT_READY = true) (hb : blkOf off ≠ 3) : s.regWrite off v mask trail = s := by
  simp [State.regWrite, hn, hb]

/-! ### A BAR0 write -/

theorem registerWrite_word {off : Nat} (v : Word) (s : State) (ha : off % 4 = 0) (ho : off < 0x170000) :
    registerWrite off v 15 s = s.regWrite off v.toNat allOnes false := by
  have he : off / 4 * 4 = off := by omega
  have h1 : ¬ 0x200000 ≤ off := by omega
  have h2 : ¬ 0x170000 ≤ off := by omega
  simp [registerWrite, he, ha, h1, h2]

theorem registerWrite_part {off : Nat} (v : Word) {be : BitVec 4} (s : State) (h : be ≠ 15 ∨ off % 4 ≠ 0)
    (ho : off < 0x170000) :
    registerWrite off v be s =
      if s.on F.GLB_BOOT_STAT_NOT_READY && blkOf (off / 4 * 4) != 3 then s else s.deny (off / 4 * 4) 1 false := by
  have h1 : ¬ 0x200000 ≤ off / 4 * 4 := by omega
  have h2 : ¬ 0x170000 ≤ off / 4 * 4 := by omega
  have h3 : ¬ (be = 15 ∧ off % 4 = 0) := fun ⟨hb, ha⟩ => h.elim (· hb) (· ha)
  simp only [registerWrite, h1, h2, if_false, Bool.and_eq_true, decide_eq_true_eq, h3]

theorem registerWrite_beyond {off : Nat} (v : Word) (be : BitVec 4) (s : State) (h1 : 0x170000 ≤ off) (h2 : off < 0x200000) :
    registerWrite off v be s = s := by
  have h3 : ¬ 0x200000 ≤ off / 4 * 4 := by omega
  have h4 : 0x170000 ≤ off / 4 * 4 := by omega
  simp [registerWrite, h3, h4]

theorem registerWrite_bar2 {o : Nat} (v : Word) (s : State) (ha : o % 4 = 0) :
    registerWrite (0x200000 + o) v 15 s = s.msixWrite o v.toNat := by
  have he : (0x200000 + o) / 4 * 4 = 0x200000 + o := by omega
  have h4 : (0x200000 + o) % 4 = 0 := by omega
  simp [registerWrite, he, h4]

theorem blkOf_word (off : Nat) : blkOf (off / 4 * 4) = blkOf off := by
  unfold blkOf
  omega

theorem registerWrite_not_ready {off : Nat} (v : Word) (be : BitVec 4) {s : State} (ho : off < 0x170000)
    (hn : s.on F.GLB_BOOT_STAT_NOT_READY = true) (hb : blkOf off ≠ 3) : registerWrite off v be s = s := by
  by_cases h : be = 15 ∧ off % 4 = 0
  · obtain ⟨rfl, ha⟩ := h
    rw [registerWrite_word v s ha ho, State.regWrite_not_ready _ _ _ hn hb]
  · rw [registerWrite_part v s (by tauto) ho, blkOf_word]
    simp [hn, hb]

theorem exec_registerWrite_live {s : State} (off : Nat) (v : Word) (be : BitVec 4) (hl : s.live = true) :
    exec (.registerWrite off v be) s = .next (registerWrite off v be s) :=
  onLive_of_live _ hl

/-- A whole aligned word that the access rules let through acts with the written bits. -/
theorem exec_registerWrite_acts {s : State} {off : Nat} (v : Word) (hl : s.live = true) (ha : off % 4 = 0) (ho : off < 0x170000)
    (hn : s.on F.GLB_BOOT_STAT_NOT_READY = false ∨ blkOf off = 3) (hd : s.denied off false = none) :
    exec (.registerWrite off v 15) s = .next (s.act off (s.merged off v.toNat allOnes)) := by
  rw [exec_registerWrite_live _ v _ hl, registerWrite_word v s ha ho, State.regWrite_host hn hd]

/-! ### Registers that act -/

theorem State.act_scratch (s : State) {i : Nat} (w : Nat) (hi : i < 4) :
    s.act (0x80 + 4 * i) w = s.storeWord (0x80 + 4 * i) w := by
  interval_cases i <;> simp [State.act, State.blockHere, blkOf, inBlk, glbWrite]

theorem State.act_clkSticky (s : State) (w : Nat) : s.act 0x10010 w = (s.storeWord 0x10010 w).dropResigners := by
  simp [State.act, State.headerWrite, State.blockHere, blkOf, inBlk]

theorem State.act_evtCq (s : State) (w : Nat) : s.act 0x30074 w = s.storeWord 0x30074 w := by
  simp [State.act, State.blockHere, blkOf, inBlk, hqsWrite]

theorem State.act_twinBaseLo {s : State} (w : Nat) (hh : s.isHead = true) : s.act 0x30084 w = s := by
  simp [State.act, State.blockHere, blkOf, inBlk, hqsWrite, hh]

theorem State.act_twinBaseHi {s : State} (w : Nat) (hh : s.isHead = true) : s.act 0x30088 w = s := by
  simp [State.act, State.blockHere, blkOf, inBlk, hqsWrite, hh]

theorem State.act_macLo {s : State} (w : Nat) (hh : s.isHead = true) :
    s.act 0x8004C w = s.holdLo 0x8004C (BitVec.ofNat 32 w) := by
  simp [State.act, State.blockHere, blkOf, inBlk, netWrite, hh]

theorem State.act_macHi {s : State} (w : Nat) (hh : s.isHead = true) :
    s.act 0x80050 w = s.basePair (F.NET_MAC_LO 0) (F.NET_MAC_HI 0) 1 0 (w % 65536) := by
  simp [State.act, State.blockHere, blkOf, inBlk, netWrite, hh]

theorem State.act_tileId {s : State} (w : Nat) (ht : s.isTile = true) : s.act 0x48 w = s.hostId (bits w 0 9) := by
  simp [State.act, State.blockHere, blkOf, inBlk, glbWrite, ht]

theorem State.act_curDef {s : State} (w : Nat) (ht : s.isTile = true) :
    s.act 0xC0040 w = s.edited (s.setShadow [(F.LCR_CUR_DEF, w)]) := by
  simp [State.act, State.blockHere, blkOf, inBlk, ht]

/-- The row of the SCRATCH registers (R390). -/
def scratchRow : RegRow := ⟨0, 1, 0x80, 0, 32, 0, 4, 4, .rw, .both, 0, 4294967295⟩

/-- The row of the blocks' STICKY registers (R290). -/
def stickyRow : RegRow := ⟨0, 23, 0x10, 0, 32, 0, 1, 4, .w1c, .both, 0, 4294967295⟩

theorem rowsAt_scratch : ∀ i < 4, rowsAt (0x80 + 4 * i) = [scratchRow] := by decide

theorem rowsAt_clkSticky : rowsAt 0x10010 = [stickyRow] := by decide

theorem isRws_scratch : ∀ i < 4, isRws (0x80 + 4 * i) = false := by
  intro i hi
  rw [isRws, rowsAt_scratch i hi]
  rfl

theorem isRws_clkSticky : isRws 0x10010 = false := by rw [isRws, rowsAt_clkSticky]; rfl

theorem isRws_evtCq : isRws 0x30074 = false := by decide

theorem isRws_curDef : isRws 0xC0040 = true := by decide

/-- A value in range is stored, unless the hardware writes the field in the same CK_SYS cycle (R7, R383). -/
theorem State.storeRow_rw {s : State} {off w : Nat} {r : RegRow} (hacc : r.acc = .rw) (hhere : s.rowHere r off = true)
    (hmin : r.mn ≤ bits w r.lo r.len) (hmax : bits w r.lo r.len ≤ r.mx) :
    s.storeRow off w r = if s.risen (r.fld off) = 0 then s.wr (r.fld off) (bits w r.lo r.len) else s := by
  by_cases hz : s.risen (r.fld off) = 0 <;> simp [State.storeRow, hhere, hacc, hmin, hmax, hz]

theorem State.storeRow_scratch (s : State) {i : Nat} (w : Nat) (hi : i < 4) :
    s.storeRow (0x80 + 4 * i) w scratchRow =
      if s.risen (F.GLB_SCRATCH i) = 0 then s.wr (F.GLB_SCRATCH i) (bits w 0 32) else s := by
  have hb : blkOf (0x80 + 4 * i) = 0 := by unfold blkOf; omega
  have hhere : s.rowHere scratchRow (0x80 + 4 * i) = true := by simp [State.rowHere, State.blockHere, hb, scratchRow]
  have hmax : bits w 0 32 ≤ 4294967295 := Nat.le_pred_of_lt (Nat.mod_lt _ (by norm_num))
  exact State.storeRow_rw rfl hhere (Nat.zero_le _) hmax

theorem State.storeRow_clkSticky (s : State) (w : Nat) : s.storeRow 0x10010 w stickyRow =
    s.wr (F.BLK_STICKY 1) (andNot (s.rd (F.BLK_STICKY 1)) (andNot (bits w 0 32) (s.risen (F.BLK_STICKY 1)))) := by
  simp [State.storeRow, State.rowHere, State.blockHere, blkOf, stickyRow, RegRow.fld, F.BLK_STICKY]

theorem exec_write_scratch {s : State} {i : Nat} (v : Word) (hi : i < 4) (hl : s.live = true)
    (hn : s.on F.GLB_BOOT_STAT_NOT_READY = false) : exec (.registerWrite (0x80 + 4 * i) v 15) s =
      .next (if s.risen (F.GLB_SCRATCH i) = 0 then s.wr (F.GLB_SCRATCH i) v.toNat else s) := by
  have hd := s.denied_host_of_plain (isRws_scratch i hi) (by omega)
  rw [exec_registerWrite_acts v hl (by omega) (by omega) (.inl hn) hd, s.act_scratch _ hi,
    s.storeWord_of_row _ (rowsAt_scratch i hi), s.storeRow_scratch _ hi, s.bits_merged_word]

theorem exec_write_clkSticky {s : State} (v : Word) (hl : s.live = true) (hn : s.on F.GLB_BOOT_STAT_NOT_READY = false) :
    exec (.registerWrite 0x10010 v 15) s = .next ((s.wr (F.BLK_STICKY 1)
      (andNot (s.rd (F.BLK_STICKY 1)) (andNot v.toNat (s.risen (F.BLK_STICKY 1))))).dropResigners) := by
  have hd := s.denied_host_of_plain isRws_clkSticky (by omega)
  rw [exec_registerWrite_acts v hl (by omega) (by omega) (.inl hn) hd, s.act_clkSticky, s.storeWord_of_row _ rowsAt_clkSticky,
    s.storeRow_clkSticky, s.bits_merged_word]

theorem exec_write_evtCq_tile {s : State} (v : Word) (hl : s.live = true) (ht : s.isTile = true) :
    exec (.registerWrite 0x30074 v 15) s = .next s := by
  have hd := s.denied_host_of_plain isRws_evtCq (by omega)
  rw [exec_registerWrite_acts v hl (by omega) (by omega) (.inr (by decide)) hd, s.act_evtCq,
    State.storeWord_of_absent _ (State.evtCq_absent ht)]

theorem exec_write_twinBaseLo_head {s : State} (v : Word) (hl : s.live = true) (hh : s.isHead = true) :
    exec (.registerWrite 0x30084 v 15) s = .next s := by
  rw [exec_registerWrite_acts v hl (by omega) (by omega) (.inr (by decide)) (State.denied_of_head _ _ hh),
    State.act_twinBaseLo _ hh]

theorem exec_write_twinBaseHi_head {s : State} (v : Word) (hl : s.live = true) (hh : s.isHead = true) :
    exec (.registerWrite 0x30088 v 15) s = .next s := by
  rw [exec_registerWrite_acts v hl (by omega) (by omega) (.inr (by decide)) (State.denied_of_head _ _ hh),
    State.act_twinBaseHi _ hh]

/-! ### Denied writes -/

theorem State.deny_frame (s : State) (o c : Nat) (tr : Bool) :
    (s.deny o c tr).lm = s.lm ∧ (s.deny o c tr).stp = s.stp ∧ (s.deny o c tr).hq = s.hq :=
  ⟨rfl, rfl, rfl⟩

/-- A denial counts one and shows the write (R389). -/
theorem State.deny_shows (s : State) {o c : Nat} (tr : Bool) (ho : o < 2 ^ 21) (hc : c < 4) :
    (s.deny o c tr).rd F.GLB_REG_DENIED = min (s.rd F.GLB_REG_DENIED + 1) (2 ^ 32 - 1) ∧
    (s.deny o c tr).rd F.GLB_REG_LAST_OFFSET = o ∧ (s.deny o c tr).rd F.GLB_REG_LAST_CAUSE = c ∧
    (s.deny o c tr).rd F.GLB_REG_LAST_TRAIL = b2n tr := by
  have hcount : min (s.rd F.GLB_REG_DENIED + 1) (2 ^ 32 - 1) % 2 ^ 32 = min (s.rd F.GLB_REG_DENIED + 1) (2 ^ 32 - 1) := by omega
  have hbit : b2n tr % 2 ^ 1 = b2n tr := by cases tr <;> rfl
  refine ⟨?_, ?_, ?_, ?_⟩ <;> unfold State.deny State.inc State.incBy
  · rw [State.rd_wr_ne _ _ (by decide), State.rd_wr_ne _ _ (by decide), State.rd_wr_ne _ _ (by decide), State.rd_wr_same]
    exact hcount
  · rw [State.rd_wr_ne _ _ (by decide), State.rd_wr_ne _ _ (by decide), State.rd_wr_same]
    exact Nat.mod_eq_of_lt ho
  · rw [State.rd_wr_ne _ _ (by decide), State.rd_wr_same]
    exact Nat.mod_eq_of_lt hc
  · rw [State.rd_wr_same]
    exact hbit

/-! ### The MSI-X table -/

/-- Sending or pending a vector leaves the table alone. -/
theorem State.sendVector_msixTab (s : State) (v : Nat) : (s.sendVector v).hq.msixTab = s.hq.msixTab := by
  unfold State.sendVector
  split
  · split <;> rfl
  · rfl

theorem State.msixWrite_word (s : State) {o : Nat} (w : Nat) (ho : o < 4096) : (s.msixWrite o w).msixWord (o / 4) =
    if o / 4 % 4 = 3 then w % 2 else if o / 4 % 4 = 0 then w / 4 * 4 else w := by
  have h : ¬ 4096 ≤ o := by omega
  rw [State.msixWrite, if_neg h]
  extract_lets i vec kept q t
  have ht : Map.getD t.hq.msixTab i (if i % 4 = 3 then 1 else 0) = kept := Map.getD_set_same _ _ _ _
  clear_value t
  split
  · rw [State.msixWord, State.sendVector_msixTab]
    exact ht
  · exact ht

theorem exec_write_msix {s : State} {o : Nat} (v : Word) (hl : s.live = true) (ha : o % 4 = 0) :
    exec (.registerWrite (0x200000 + o) v 15) s = .next (s.msixWrite o v.toNat) := by
  rw [exec_registerWrite_live _ v _ hl, registerWrite_bar2 v s ha]

/-! ### Pairs, shadowed fields and the tile's ID -/

theorem exec_loHiPairWrite_live {s : State} (off : Nat) (v : Word) (hl : s.live = true) :
    exec (.loHiPairWrite off v) s = .next (loHiPairWrite off v s) :=
  onLive_of_live _ hl

theorem exec_loHiPairWrite_other {s : State} {off : Nat} (v : Word) (hl : s.live = true) (h1 : hiOf off = none)
    (h2 : loOf off = none) : exec (.loHiPairWrite off v) s = .next s := by
  rw [exec_loHiPairWrite_live _ v hl]
  simp [loHiPairWrite, h1, h2]

theorem exec_loHiPairWrite_acts {s : State} {off : Nat} (v : Word) (hl : s.live = true)
    (hp : (hiOf off).isSome = true ∨ (loOf off).isSome = true) (hn : s.on F.GLB_BOOT_STAT_NOT_READY = false)
    (hd : s.denied off false = none) : exec (.loHiPairWrite off v) s = .next (s.act off (s.merged off v.toNat allOnes)) := by
  rw [exec_loHiPairWrite_live _ v hl, loHiPairWrite, if_pos (by simpa using hp), State.regWrite_host (.inl hn) hd]

theorem exec_write_macLo {s : State} (v : Word) (hl : s.live = true) (hh : s.isHead = true)
    (hn : s.on F.GLB_BOOT_STAT_NOT_READY = false) : exec (.loHiPairWrite 0x8004C v) s = .next (s.holdLo 0x8004C v) := by
  rw [exec_loHiPairWrite_acts v hl (.inl (by decide)) hn (State.denied_of_head _ _ hh), State.act_macLo _ hh, s.ofNat_merged]

/-- The _HI write takes the held _LO value, or the stored one, with it (R382). -/
theorem exec_write_macHi {s u : State} {lo : Nat} (v : Word) (hl : s.live = true) (hh : s.isHead = true)
    (hn : s.on F.GLB_BOOT_STAT_NOT_READY = false) (hu : s.takeLo 0x8004C (s.rd (F.NET_MAC_LO 0)) = (lo, u)) :
    exec (.loHiPairWrite 0x80050 v) s = .next ((u.wr (F.NET_MAC_LO 0) lo).wr (F.NET_MAC_HI 0) (v.toNat % 65536)) := by
  have hw : s.merged 0x80050 v.toNat allOnes % 65536 = v.toNat % 65536 := s.merged_mod_of_le _ v (n := 16) (by omega)
  have hu' : s.takeLo (F.NET_MAC_LO 0).off (s.rd (F.NET_MAC_LO 0)) = (lo, u) := hu
  rw [exec_loHiPairWrite_acts v hl (.inr (by decide)) hn (State.denied_of_head _ _ hh), State.act_macHi _ hh, hw]
  simp [State.basePair, hu']

theorem exec_shadowFieldWrite_live {s : State} (off : Nat) (v : Word) (hl : s.live = true) :
    exec (.shadowFieldWrite off v) s = .next (shadowFieldWrite off v s) :=
  onLive_of_live _ hl

theorem exec_shadowFieldWrite_other {s : State} {off : Nat} (v : Word) (hl : s.live = true) (h : isRws off = false) :
    exec (.shadowFieldWrite off v) s = .next s := by
  rw [exec_shadowFieldWrite_live _ v hl]
  simp [shadowFieldWrite, h]

theorem exec_shadowFieldWrite_rws {s : State} {off : Nat} (v : Word) (hl : s.live = true) (h : isRws off = true) :
    exec (.shadowFieldWrite off v) s = .next (s.regWrite off v.toNat allOnes false) := by
  rw [exec_shadowFieldWrite_live _ v hl, shadowFieldWrite, if_pos h]

theorem exec_shadowFieldWrite_denied {s : State} {off : Nat} (v : Word) (hl : s.live = true) (ht : s.isTile = true)
    (hn : s.on F.GLB_BOOT_STAT_NOT_READY = false) (hr : isRws off = true) (hv : s.on F.GLB_TILE_ID_VALID = true)
    (ha : s.anyActive = true) (ho : off ≠ 0x10054 ∧ off ≠ 0x30084 ∧ off ≠ 0x30088 ∧ off ≠ 0x48) :
    exec (.shadowFieldWrite off v) s = .next (s.deny off 3 false) := by
  rw [exec_shadowFieldWrite_rws v hl hr, State.regWrite_denied (.inl hn)]
  rw [State.denied_rws ht hr ho, hv, ha]
  rfl

/-- With no port Active a tile's CUR_DEF takes the written word into the shadow bank (R385). -/
theorem exec_write_curDef {s : State} (v : Word) (hl : s.live = true) (ht : s.isTile = true)
    (hn : s.on F.GLB_BOOT_STAT_NOT_READY = false) (ha : s.anyActive = false) : exec (.shadowFieldWrite 0xC0040 v) s =
      .next (s.edited (s.setShadow [(F.LCR_CUR_DEF, s.merged 0xC0040 v.toNat allOnes)])) := by
  have hd : s.denied 0xC0040 false = none := by
    rw [State.denied_rws ht isRws_curDef (by omega), ha, Bool.and_false]
    rfl
  rw [exec_shadowFieldWrite_rws v hl isRws_curDef, State.regWrite_host (.inl hn) hd, State.act_curDef _ ht]

theorem State.edited_setShadow_frozen {s : State} (fs : List (Fld × Nat)) (hf : s.frozen = true) :
    s.edited (s.setShadow fs) = s.detect E.STP_SHADOW_BUSY := by
  simp [State.edited, State.setShadow, hf]

/-- What an edit of one shadowed field leaves: its shadow value, cut to the field's width, and nothing in force. -/
theorem State.edited_setShadow {s : State} (f : Fld) (n : Nat) (hf : s.frozen = false) :
    (s.edited (s.setShadow [(f, n)])).shadowRd f = n % 2 ^ f.len ∧ (s.edited (s.setShadow [(f, n)])).regs = s.regs ∧
    (s.edited (s.setShadow [(f, n)])).stp.active = s.stp.active ∧ (s.edited (s.setShadow [(f, n)])).lm = s.lm := by
  simp [State.edited, State.setShadow, hf, State.hostEdited, State.shadowRd, Map.getD]

theorem exec_tileIdWrite_live {s : State} (v : Word) (tr : Bool) (hl : s.live = true) :
    exec (.tileIdWrite v tr) s = .next (tileIdWrite v tr s) :=
  onLive_of_live _ hl

theorem exec_tileIdWrite_head {s : State} (v : Word) (tr : Bool) (hl : s.live = true) (hh : s.isHead = true) :
    exec (.tileIdWrite v tr) s = .next s := by
  rw [exec_tileIdWrite_live v _ hl, tileIdWrite, if_pos hh]

theorem exec_tileIdWrite_host {s : State} (v : Word) (hl : s.live = true) (ht : s.isTile = true) :
    exec (.tileIdWrite v false) s = .next (s.regWrite 0x48 v.toNat allOnes false) := by
  rw [exec_tileIdWrite_live v _ hl]
  simp [tileIdWrite, State.isHead_of_isTile ht]

theorem exec_tileIdWrite_denied {s : State} (v : Word) (hl : s.live = true) (ht : s.isTile = true)
    (hn : s.on F.GLB_BOOT_STAT_NOT_READY = false) (ha : s.anyActive = true) :
    exec (.tileIdWrite v false) s = .next (s.deny 0x48 3 false) := by
  rw [exec_tileIdWrite_host v hl ht, State.regWrite_denied (.inl hn)]
  rw [State.denied_tileId ht, if_pos ha]

theorem exec_tileIdWrite_assigns {s : State} (v : Word) (hl : s.live = true) (ht : s.isTile = true)
    (hn : s.on F.GLB_BOOT_STAT_NOT_READY = false) (ha : s.anyActive = false) :
    exec (.tileIdWrite v false) s = .next (s.hostId (v.toNat % 512)) := by
  have hd : s.denied 0x48 false = none := by simp [State.denied_tileId ht, ha]
  have hb : bits (s.merged 0x48 v.toNat allOnes) 0 9 = v.toNat % 512 := s.bits_merged _ v (by omega)
  rw [exec_tileIdWrite_host v hl ht, State.regWrite_host (.inl hn) hd, State.act_tileId _ ht, hb]

theorem exec_tileIdWrite_trail {s : State} (v : Word) (hl : s.live = true) (ht : s.isTile = true)
    (hn : s.on F.GLB_BOOT_STAT_NOT_READY = false) : exec (.tileIdWrite v true) s = .next (s.adoptId (v.toNat % 512)) := by
  have hb : bits v.toNat 0 9 = v.toNat % 512 := congrArg (· % 512) (Nat.div_one _)
  rw [exec_tileIdWrite_live v _ hl]
  simp [tileIdWrite, State.isHead_of_isTile ht, hn, hb]

/-- Settles O57: each clause is the rule of its register, met by the access rules. -/
theorem registerWrites : Obligations.RegisterWrites := by
  unfold Obligations.RegisterWrites
  refine ⟨?bar0, ?beyond, ?denial, ?plain, ?otherRole, ?msix, ?unlisted, ?pair, ?onWall, ?tileId, ?shadowed⟩
  case bar0 =>
    refine fun s off v be hl ho => ⟨fun hn hb => ?_, fun hn hp => ?_, fun hn hh hb ha => ?_⟩
    · rw [exec_registerWrite_live _ v _ hl, registerWrite_not_ready v be ho hn hb]
    · rw [exec_registerWrite_live _ v _ hl, registerWrite_part v s hp ho, hn]
      rfl
    · subst hb
      exact exec_registerWrite_acts v hl ha ho (.inl hn) (State.denied_of_head _ _ hh)
  case beyond =>
    intro s off v be hl h1 h2
    rw [exec_registerWrite_live _ v _ hl, registerWrite_beyond v be s h1 h2]
  case denial =>
    intro s o c tr ho hc
    obtain ⟨hcount, hoff, hcause, htrail⟩ := s.deny_shows tr ho hc
    obtain ⟨hlm, hstp, hhq⟩ := s.deny_frame o c tr
    exact ⟨s.deny o c tr, rfl, hcount, hoff, hcause, htrail, hlm, hstp, hhq⟩
  case plain =>
    exact fun s v hl hn => ⟨exec_write_scratch (i := 0) v (by omega) hl hn, exec_write_scratch (i := 3) v (by omega) hl hn,
      exec_write_clkSticky v hl hn⟩
  case otherRole =>
    refine fun s v hl => ⟨fun ht => ⟨?_, ?_⟩, fun hh => ⟨?_, ?_, ?_, ?_⟩⟩
    · exact exec_write_evtCq_tile v hl ht
    · exact State.wordAt_of_absent (State.evtCq_absent ht)
    · exact exec_write_twinBaseLo_head v hl hh
    · exact exec_write_twinBaseHi_head v hl hh
    · exact State.wordAt_of_absent (State.twinBaseLo_absent hh)
    · exact State.wordAt_of_absent (State.twinBaseHi_absent hh)
  case msix =>
    exact fun s o v hl ho ha => ⟨exec_write_msix v hl ha, s.msixWrite_word v.toNat ho⟩
  case unlisted =>
    exact fun s off v hl => ⟨exec_loHiPairWrite_other v hl, exec_shadowFieldWrite_other v hl⟩
  case pair =>
    exact fun s v hl hh hn => ⟨exec_write_macLo v hl hh hn, fun lo u => exec_write_macHi v hl hh hn⟩
  case onWall =>
    refine fun s off v hl ht hn ha => ⟨exec_tileIdWrite_denied v hl ht hn ha, fun hr hId hCtrl hLo hHi hv => ?_⟩
    exact exec_shadowFieldWrite_denied v hl ht hn hr hv ha ⟨hCtrl, hLo, hHi, hId⟩
  case tileId =>
    refine fun s v hl => ⟨fun hh tr => exec_tileIdWrite_head v tr hl hh, fun ht hn => ⟨fun ha => ?_, ?_⟩⟩
    · exact exec_tileIdWrite_assigns v hl ht hn ha
    · exact exec_tileIdWrite_trail v hl ht hn
  case shadowed =>
    refine fun s v hl ht hn ha => ⟨fun hf => ?_, fun hf => ?_⟩
    · rw [exec_write_curDef v hl ht hn ha, State.edited_setShadow_frozen _ hf]
    · obtain ⟨hsh, hregs, hact, hlm⟩ := State.edited_setShadow F.LCR_CUR_DEF (s.merged 0xC0040 v.toNat allOnes) hf
      have hw : s.merged 0xC0040 v.toNat allOnes % 2 ^ F.LCR_CUR_DEF.len = v.toNat := s.merged_mod _ v
      exact ⟨_, exec_write_curDef v hl ht hn ha, hsh.trans hw, hregs, hact, hlm⟩

end Sys2Proof.Machine
end

section
/-! The step itself, and the shell of the commands of a Trail port. -/

namespace Sys2Proof.Machine

theorem step_of_empty {s : State} (h : s.pending = []) : step s = .next (idle s) := by
  rw [step, h]

/-- Settles O1: both cases are those of `step`, and an idle cycle is one cycle of `advance`. -/
theorem stepRunsFront : Obligations.StepRunsFront := by
  unfold Obligations.StepRunsFront
  refine ⟨fun c rest s => rfl, fun s hp => ⟨fun hl => ?_, fun hl => ?_⟩⟩
  · rw [step_of_empty hp, idle, if_pos hl, State.advance, Nat.one_mul]
  · rw [step_of_empty hp, idle, hl]
    rfl

/-- A command that acts while the clocks run answers what its meaning gives (R20). -/
theorem next_of_live {s t : State} {f : State → State} (hl : s.live = true) (h : f s = t) : onLive s f = .next t := by
  rw [onLive_of_live f hl, h]

theorem State.live_of_runs {s : State} (h : s.runs = true) : s.live = true := (Bool.and_eq_true_iff.mp h).1

theorem State.not_shut_of_runs {s : State} (h : s.runs = true) : s.care.shut = false := by
  simpa using (Bool.and_eq_true_iff.mp h).2

/-- A command of a port the device has answers, while the engines run, what its meaning gives (R316). -/
theorem next_of_runs {s t : State} {k : Nat} {f : State → State} (hr : s.runs = true) (hk : k < s.portCount) (h : f s = t) :
    onLive s (onPort k f) = .next t :=
  next_of_live (State.live_of_runs hr) (by rw [onPort_of_runs f hk (State.not_shut_of_runs hr), h])

end Sys2Proof.Machine
end

section
/-! Root's lock and its references (R20 - R26, R36). -/

namespace Sys2Proof.Machine

/-! ### Holdover -/

theorem State.freezeOfs_core (s : State) : s.freezeOfs.core = s.core := by
  unfold State.freezeOfs State.settleSlew
  extract_lets
  split_ifs <;> rfl

/-- What entering holdover shows and notes (R24, R36). -/
theorem State.holdover_shows (s : State) : s.holdover.rd F.CLK_ROOT_STAT_REF = 4 ∧ s.holdover.rd F.CLK_ROOT_STAT_LOCK = 0 ∧
    s.holdover.rd F.CLK_ROOT_STAT_SLEWING = 0 ∧ s.holdover.power.holdAt = some s.core := by
  set u := ((s.freezeOfs.wr F.CLK_ROOT_STAT_REF 4).wr F.CLK_ROOT_STAT_LOCK 0).wr F.CLK_ROOT_STAT_SLEWING 0 with hu
  have hreg : ∀ f, s.holdover.rd f = u.rd f := State.rd_regs rfl
  refine ⟨?_, ?_, ?_, congrArg some s.freezeOfs_core⟩ <;> rw [hreg, hu]
  · rw [State.rd_wr_ne _ _ (by decide), State.rd_wr_ne _ _ (by decide), State.rd_wr_same]
    rfl
  · rw [State.rd_wr_ne _ _ (by decide), State.rd_wr_same]
    rfl
  · rw [State.rd_wr_same]
    rfl

/-! ### The first lock -/

/-- A port with CTRL.EN = 1 enters Detect, or Dormant where CTRL.DORMANT is 1 (R97, R349). -/
def State.startPort (s : State) (k : Nat) : State := if s.on (F.TRL_CTRL_EN k) then s.enterState k (s.detectCode k) else s

/-- Starting a port writes its state code and nothing else in the registers. -/
theorem State.startPort_rd_ne (s : State) {k : Nat} {f : Fld} (h : (F.TRL_STAT_STATE k).key ≠ f.key) :
    (s.startPort k).rd f = s.rd f := by
  unfold State.startPort
  split
  · exact State.rd_wr_ne _ _ h
  · rfl

theorem State.startPort_on_ne (s : State) {k : Nat} {f : Fld} (h : (F.TRL_STAT_STATE k).key ≠ f.key) :
    (s.startPort k).on f = s.on f := by
  rw [State.on, s.startPort_rd_ne h, State.on]

theorem State.startPort_frame (s : State) (k : Nat) : (s.startPort k).power = s.power ∧ (s.startPort k).core = s.core := by
  unfold State.startPort
  split <;> exact ⟨rfl, rfl⟩

/-- The state code a port has once the clocks have started. -/
def State.startCode (s : State) (k : Nat) : Nat :=
  if s.on (F.TRL_CTRL_EN k) then (if s.on (F.TRL_CTRL_DORMANT k) then 7 else 1) else s.rd (F.TRL_STAT_STATE k)

theorem State.startPort_code (s : State) (k : Nat) : (s.startPort k).rd (F.TRL_STAT_STATE k) = s.startCode k := by
  unfold State.startPort State.startCode
  split
  · rw [State.enterState, State.rd_regs (State.setPort_regs _ _ _), State.rd_wr_same, State.detectCode]
    split <;> rfl
  · rfl

theorem key_state_inj {j k : Nat} (h : j ≠ k) : (F.TRL_STAT_STATE j).key ≠ (F.TRL_STAT_STATE k).key := by
  simp only [Fld.key, F.TRL_STAT_STATE]
  omega

theorem key_state_ne_en (j k : Nat) : (F.TRL_STAT_STATE j).key ≠ (F.TRL_CTRL_EN k).key := by
  simp only [Fld.key, F.TRL_STAT_STATE, F.TRL_CTRL_EN]
  omega

theorem key_state_ne_dormant (j k : Nat) : (F.TRL_STAT_STATE j).key ≠ (F.TRL_CTRL_DORMANT k).key := by
  simp only [Fld.key, F.TRL_STAT_STATE, F.TRL_CTRL_DORMANT]
  omega

theorem key_state_ne_lock (k : Nat) : (F.TRL_STAT_STATE k).key ≠ F.CLK_ROOT_STAT_LOCK.key := by
  simp only [Fld.key, F.TRL_STAT_STATE, F.CLK_ROOT_STAT_LOCK]
  omega

/-- Starting one port leaves the code another one starts with. -/
theorem State.startCode_startPort_ne (s : State) {j k : Nat} (h : j ≠ k) : (s.startPort j).startCode k = s.startCode k := by
  rw [State.startCode, s.startPort_on_ne (key_state_ne_en j k), s.startPort_on_ne (key_state_ne_dormant j k),
    s.startPort_rd_ne (key_state_inj h), State.startCode]

/-- The ports of the device start one after the other. -/
def State.startPorts (s : State) (n : Nat) : State := (List.range n).foldl State.startPort s

theorem State.startPorts_succ (s : State) (n : Nat) : s.startPorts (n + 1) = (s.startPorts n).startPort n := by
  simp [State.startPorts, List.range_succ]

theorem State.startPorts_frame (s : State) (n : Nat) : (s.startPorts n).power = s.power ∧ (s.startPorts n).core = s.core ∧
    (s.startPorts n).rd F.CLK_ROOT_STAT_LOCK = s.rd F.CLK_ROOT_STAT_LOCK := by
  induction n with
  | zero => exact ⟨rfl, rfl, rfl⟩
  | succ n ih =>
    obtain ⟨hp, hc, hr⟩ := ih
    obtain ⟨hp', hc'⟩ := (s.startPorts n).startPort_frame n
    rw [s.startPorts_succ, hp', hc', State.startPort_rd_ne _ (key_state_ne_lock n)]
    exact ⟨hp, hc, hr⟩

theorem State.startCode_startPorts (s : State) {n k : Nat} (h : n ≤ k) : (s.startPorts n).startCode k = s.startCode k := by
  induction n with
  | zero => rfl
  | succ n ih => rw [s.startPorts_succ, State.startCode_startPort_ne _ (by omega), ih (by omega)]

theorem State.startPorts_code (s : State) {n k : Nat} (h : k < n) : (s.startPorts n).rd (F.TRL_STAT_STATE k) = s.startCode k := by
  induction n with
  | zero => omega
  | succ n ih =>
    rw [s.startPorts_succ]
    rcases Nat.lt_succ_iff_lt_or_eq.mp h with hk | rfl
    · rw [State.startPort_rd_ne _ (key_state_inj (by omega)), ih hk]
    · rw [State.startPort_code, s.startCode_startPorts le_rfl]

/-- The state in which the ports start: the clocks run, their count is 0 and LOCK is set (R21). -/
def State.clocked (s : State) : State :=
  { (s.wr F.CLK_ROOT_STAT_LOCK 1) with power := { s.power with clocks := true }, core := 0 }

theorem next_of_rootLock {s t : State} (h : rootLock s = t) : exec .rootLock s = .next t := congrArg _ h

theorem rootLock_first {s : State} (hp : s.power.phase = .run) (hc : s.power.clocks = false) (hs : s.care.shut = false) :
    rootLock s = s.clocked.startPorts s.portCount := by
  rw [rootLock, if_pos hp, hc]
  exact if_neg (Bool.eq_false_iff.mp hs)

theorem State.startCode_clocked (s : State) (k : Nat) : s.clocked.startCode k = s.startCode k := by
  have hreg : ∀ f, s.clocked.rd f = (s.wr F.CLK_ROOT_STAT_LOCK 1).rd f := State.rd_regs rfl
  have hrd : ∀ f : Fld, F.CLK_ROOT_STAT_LOCK.key ≠ f.key → s.clocked.rd f = s.rd f :=
    fun f h => (hreg f).trans (s.rd_wr_ne 1 h)
  have hon : ∀ f : Fld, F.CLK_ROOT_STAT_LOCK.key ≠ f.key → s.clocked.on f = s.on f :=
    fun f h => by rw [State.on, hrd f h, State.on]
  have hen : F.CLK_ROOT_STAT_LOCK.key ≠ (F.TRL_CTRL_EN k).key := by
    simp only [Fld.key, F.TRL_CTRL_EN, F.CLK_ROOT_STAT_LOCK]
    omega
  have hdor : F.CLK_ROOT_STAT_LOCK.key ≠ (F.TRL_CTRL_DORMANT k).key := by
    simp only [Fld.key, F.TRL_CTRL_DORMANT, F.CLK_ROOT_STAT_LOCK]
    omega
  rw [State.startCode, hon _ hen, hon _ hdor, hrd _ (key_state_ne_lock k).symm, State.startCode]

/-! ### Later locks, and the references -/

theorem rootLock_again {s : State} (hp : s.power.phase = .run) (hc : s.power.clocks = true) :
    rootLock s = if s.rd F.CLK_ROOT_STAT_REF = 4 ∨ s.on F.CLK_ROOT_STAT_SLEWING = true
      then { s with pair := { s.pair with rootBad := false } }
      else (State.wr { s with pair := { s.pair with rootBad := false } } F.CLK_ROOT_STAT_LOCK 1).rootChanged := by
  simp only [rootLock, hp, hc, if_true, Bool.or_eq_true, decide_eq_true_eq]
  rfl

theorem refLoss_of_ref {s : State} (h : s.rd F.CLK_ROOT_STAT_REF ≠ 4 ∨ s.on F.CLK_ROOT_STAT_SLEWING = true) :
    refLoss s = s.holdover.rootChanged.detect E.CLK_REF_LOSS := by
  refine if_neg ?_
  rcases h with h | h <;> simp [h]

theorem refLoss_of_holdover {s : State} (h : s.rd F.CLK_ROOT_STAT_REF = 4) (hs : s.on F.CLK_ROOT_STAT_SLEWING = false) :
    refLoss s = s := by
  simp [refLoss, h, hs]

/-- The device is a head of a pair that does not hold the claim (R23). -/
def State.standby (s : State) : Bool := s.isHead && s.isPair && !s.claims

theorem fbclkLoss_standby {s : State} (h : s.standby = true) : fbclkLoss s =
    ((if s.rd F.CLK_ROOT_STAT_REF = 1 then State.rootChanged (State.holdover { s with power := { s.power with fbclk := false } })
      else { s with power := { s.power with fbclk := false } }).detect E.CLK_FBCLK_LOSS) :=
  if_pos h

theorem fbclkPresent_standby {s : State} (h : s.standby = true) :
    fbclkPresent s = State.takeFbclk { s with power := { s.power with fbclk := true } } := by
  obtain ⟨⟨hh, hp⟩, hc⟩ : (s.isHead = true ∧ s.isPair = true) ∧ s.claims = false := by simpa [State.standby] using h
  refine (if_pos (by rw [hh, hp]; rfl)).trans (if_neg ?_)
  exact fun hn => absurd (hc.symm.trans hn) (by decide)

theorem holdoverExpiry_head {s : State} (hh : s.isHead = true) (hr : s.rd F.CLK_ROOT_STAT_REF = 4)
    (hs : s.on F.CLK_ROOT_STAT_SLEWING = false) : holdoverExpiry s =
      (let u := (s.advanceTo (s.power.holdAt.getD s.core + s.rd F.CLK_ROOT_CFG_HOLD_S * rootSec)).wr F.CLK_ROOT_STAT_SLEWING 1
       State.rootChanged { u with power := { u.power with slewAt := some u.core } }) := by
  simp only [holdoverExpiry, hh, hr, hs]
  rfl

theorem rootUnlock_outside {s : State} (h : s.rd F.CLK_ROOT_STAT_REF ≠ 4) : rootUnlock s =
    State.resignNative ((State.rootChanged { s.wr F.CLK_ROOT_STAT_LOCK 0 with pair := { s.pair with rootBad := true } }).detect
      E.CLK_ROOT_UNLOCK) :=
  if_neg h

/-- Settles O10: a case for each command and each state of the references in which it acts. -/
theorem rootStarts : Obligations.RootStarts := by
  unfold Obligations.RootStarts
  refine ⟨⟨?first, ?again, ?held⟩, ?refLoss, ?fbclkLoss, ?fbclkPresent, ?expiry, ?unlock⟩
  case first =>
    intro s hp hc hs
    obtain ⟨hpower, hcore, hlock⟩ := s.clocked.startPorts_frame s.portCount
    refine ⟨_, next_of_rootLock (rootLock_first hp hc hs), ?_, hcore, ?_, fun k hk => ?_⟩
    · rw [State.live, hpower]
      simp [State.clocked, hp]
    · rw [hlock]
      exact s.rd_wr_same F.CLK_ROOT_STAT_LOCK 1
    · rw [State.startPorts_code _ hk, s.startCode_clocked]
      rfl
  case again =>
    refine fun s hp hc => ⟨_, rfl, fun hr hs => next_of_rootLock ?_, fun h => next_of_rootLock ?_⟩
    · rw [rootLock_again hp hc, if_neg (by simp [hr, hs])]
    · rw [rootLock_again hp hc, if_pos h]
  case held => exact fun s hp => next_of_rootLock (if_neg hp)
  case refLoss =>
    refine fun s hl => ⟨fun h => ?_, fun hr hs => next_of_live hl (refLoss_of_holdover hr hs)⟩
    obtain ⟨href, hlock, hslew, hat⟩ := s.holdover_shows
    exact ⟨_, rfl, href, hlock, hslew, hat, next_of_live hl (refLoss_of_ref h)⟩
  case fbclkLoss =>
    exact fun s hl hh hp hc => ⟨_, rfl, next_of_live hl (fbclkLoss_standby (by simp [State.standby, hh, hp, hc]))⟩
  case fbclkPresent =>
    exact fun s hl hh hp hc => ⟨_, rfl, next_of_live hl (fbclkPresent_standby (by simp [State.standby, hh, hp, hc]))⟩
  case expiry => exact fun s hl hh hr hs => ⟨_, rfl, next_of_live hl (holdoverExpiry_head hh hr hs)⟩
  case unlock => exact fun s hl hr => ⟨_, rfl, next_of_live hl (rootUnlock_outside hr)⟩

end Sys2Proof.Machine
end

section
/-! The frame modes, and a write of FRM_CFG (R28, R32, R33). -/

namespace Sys2Proof.Machine

theorem count_lawfulMode : ((List.range 16).flatMap (fun r => (List.range 4).filter (fun m => lawfulMode r m))).length = 58 := by
  decide

/-- P is a whole number of schedule ticks at every rate, and each M that is lawful with it divides it (R28, R32). -/
theorem frameTicks_exact : ∀ r < 16, ∀ m < 4, lawfulMode r m = true →
    frameTicks r * (rateOf r).1 = 576000000000 * (rateOf r).2 ∧ multOf m * (frameTicks r / multOf m) = frameTicks r := by
  decide

theorem frmCfgWrite_onWall {s : State} (v : Word) (ht : s.isTile = true) (ha : s.anyActive = true) : frmCfgWrite v s = s := by
  simp [frmCfgWrite, ht, ha]

theorem frmCfgWrite_stopped {s : State} (v : Word) (h : (s.isTile && s.anyActive) = false)
    (hr : s.on F.CLK_FRM_CTRL_RUN = false) : frmCfgWrite v s =
      if lawfulMode (bits v.toNat 0 4) (bits v.toNat 4 2)
        then s.setMode (bits v.toNat 0 4) (bits v.toNat 4 2) (bits v.toNat 8 1) else s.detect E.CLK_MODE_REJECT := by
  simp [frmCfgWrite, h, hr]

theorem frmCfgWrite_running {s : State} (v : Word) (h : (s.isTile && s.anyActive) = false)
    (hr : s.on F.CLK_FRM_CTRL_RUN = true) (hb : bits v.toNat 0 4 ≠ s.rate ∨ lawfulMode s.rate (bits v.toNat 4 2) = false) :
    frmCfgWrite v s = s.detect E.CLK_MODE_REJECT := by
  rcases hb with hb | hb <;> simp [frmCfgWrite, h, hr, hb]

/-- A lawful change of MULT and ROLL goes to the shadow bank, as an item of the next commit (R33). -/
theorem frmCfgWrite_shadow {s : State} (v : Word) (h : (s.isTile && s.anyActive) = false)
    (hr : s.on F.CLK_FRM_CTRL_RUN = true) (he : bits v.toNat 0 4 = s.rate) (hm : lawfulMode s.rate (bits v.toNat 4 2) = true)
    (hf : s.frozen = false) : frmCfgWrite v s =
      (let s' := s.setShadow [(F.CLK_FRM_CFG_MULT, bits v.toNat 4 2), (F.CLK_FRM_CFG_ROLL, bits v.toNat 8 1)]
       { s' with stp := { s'.stp with dirty := (10, 511, 0) :: s'.stp.dirty.erase (10, 511, 0) } }) := by
  simp [frmCfgWrite, h, hr, he, hm, hf]

/-- The mode in force after it is set. -/
theorem State.setMode_rd (s : State) (rate mult roll : Nat) : (s.setMode rate mult roll).rd F.CLK_FRM_CFG_RATE = rate % 16 ∧
    (s.setMode rate mult roll).rd F.CLK_FRM_CFG_MULT = mult % 4 ∧ (s.setMode rate mult roll).rd F.CLK_FRM_CFG_ROLL = roll % 2 := by
  have hreg : ∀ f, (s.setMode rate mult roll).rd f =
    (((s.wr F.CLK_FRM_CFG_RATE rate).wr F.CLK_FRM_CFG_MULT mult).wr F.CLK_FRM_CFG_ROLL roll).rd f := State.rd_regs rfl
  refine ⟨?_, ?_, ?_⟩ <;> rw [hreg]
  · rw [State.rd_wr_ne _ _ (by decide), State.rd_wr_ne _ _ (by decide), State.rd_wr_same]
    rfl
  · rw [State.rd_wr_ne _ _ (by decide), State.rd_wr_same]
    rfl
  · exact State.rd_wr_same _ _ _

/-- A write of two RWS fields of an unfrozen bank shows in their shadow values, and in nothing that is in force (R385). -/
theorem State.setShadow_two {s : State} {f g : Fld} (v w : Nat) (hf : s.frozen = false) (hk : g.key ≠ f.key) :
    (s.setShadow [(f, v), (g, w)]).shadowRd f = v % 2 ^ f.len ∧ (s.setShadow [(f, v), (g, w)]).shadowRd g = w % 2 ^ g.len ∧
    (s.setShadow [(f, v), (g, w)]).regs = s.regs ∧ (s.setShadow [(f, v), (g, w)]).stp.active = s.stp.active := by
  simp [State.setShadow, hf, State.shadowRd, Map.getD, Map.find_put_ne _ _ hk]

/-- Settles O11: the lawful modes by enumeration, the write by the state of RUN and of the ports. -/
theorem frameModes : Obligations.FrameModes := by
  unfold Obligations.FrameModes
  refine ⟨⟨count_lawfulMode, frameTicks_exact⟩, fun s v hl => ?_⟩
  have hrate : bits v.toNat 0 4 = v.toNat % 16 := congrArg (· % 16) (Nat.div_one _)
  have hmult : bits v.toNat 4 2 = v.toNat / 16 % 4 := rfl
  have hroll : bits v.toNat 8 1 = v.toNat / 256 % 2 := rfl
  refine ⟨fun ht ha => next_of_live hl (frmCfgWrite_onWall v ht ha), fun h hr => ?_, fun h hr => ?_⟩
  · rw [← hrate, ← hmult, ← hroll]
    refine ⟨fun hm => ?_, fun hm => next_of_live hl ?_⟩
    · obtain ⟨hra, hmu, hro⟩ := s.setMode_rd (bits v.toNat 0 4) (bits v.toNat 4 2) (bits v.toNat 8 1)
      refine ⟨_, next_of_live hl ((frmCfgWrite_stopped v h hr).trans (if_pos hm)), ?_, ?_, ?_⟩
      · exact hra.trans (Nat.mod_mod _ 16)
      · exact hmu.trans (Nat.mod_mod _ 4)
      · exact hro.trans (Nat.mod_mod _ 2)
    · exact (frmCfgWrite_stopped v h hr).trans (if_neg (Bool.eq_false_iff.mp hm))
  · rw [← hrate, ← hmult, ← hroll]
    refine ⟨fun hb => next_of_live hl (frmCfgWrite_running v h hr hb), fun he hm hf => ?_⟩
    obtain ⟨hmu, hro, hregs, hact⟩ := State.setShadow_two (f := F.CLK_FRM_CFG_MULT) (g := F.CLK_FRM_CFG_ROLL)
      (bits v.toNat 4 2) (bits v.toNat 8 1) hf (by decide)
    have hwrite := frmCfgWrite_shadow v h hr he hm hf
    generalize s.setShadow _ = t at hwrite hmu hro hregs hact
    exact ⟨_, next_of_live hl hwrite, hregs, hact, hmu.trans (Nat.mod_mod _ 4), hro.trans (Nat.mod_mod _ 2)⟩

end Sys2Proof.Machine
end

section
/-! The head's frame schedule: RUN and RESEED, fixed frame starts and boundaries (R28 - R30, R34, R36). -/

namespace Sys2Proof.Machine

theorem State.schedules_of_head {s : State} (hh : s.isHead = true) (hr : s.on F.CLK_FRM_CTRL_RUN = true) :
    s.schedules = true := by
  simp [State.schedules, hh, hr]

theorem State.setRun_head {s : State} (v : Nat) (hh : s.isHead = true) : s.setRun v = s.wr F.CLK_FRM_CTRL_RUN v :=
  if_neg (Bool.eq_false_iff.mp (State.isTile_of_isHead hh))

theorem frmRun_head {s : State} (hh : s.isHead = true) (hr : s.on F.CLK_FRM_CTRL_RUN = false) : frmRun s =
    if s.seedOk (s.leadFor s.dringMax + trailCycle) then
      { s.wr F.CLK_FRM_CTRL_RUN 1 with frames := { s.frames with
          tgt := s.seedTgt, k := 0, next := BitVec.ofNat 32 (s.rd F.CLK_FRM_SEED_NUM), fixed := none, reseed := none,
          begun := false, lost := false, lostN := 0 } }
    else s.detect E.CLK_SEED_REJECT := by
  have hrd : ∀ f : Fld, F.CLK_FRM_CTRL_RUN.key ≠ f.key → (s.wr F.CLK_FRM_CTRL_RUN 1).rd f = s.rd f := fun f h => s.rd_wr_ne 1 h
  have htgt : (s.wr F.CLK_FRM_CTRL_RUN 1).seedTgt = s.seedTgt := by
    rw [State.seedTgt, hrd _ (by decide), hrd _ (by decide), State.seedTgt]
  have ht := State.isTile_of_isHead hh
  rw [frmRun, if_neg (by simp [hr, ht]), if_neg (by simp [ht])]
  refine if_congr Iff.rfl ?_ rfl
  simp only [s.setRun_head 1 hh, htgt, hrd F.CLK_FRM_SEED_NUM (by decide), State.wr_frames]

theorem frmStop_head {s : State} (hh : s.isHead = true) :
    frmStop s = { s.wr F.CLK_FRM_CTRL_RUN 0 with frames := { s.frames with fixed := none, reseed := none } } := by
  simp only [frmStop, State.isTile_of_isHead hh, s.setRun_head 0 hh]
  rfl

theorem State.leaveLost_of_held {s : State} (h : s.frames.lost = false) : s.leaveLost = s := by
  simp [State.leaveLost, h]

/-- The seed takes the place of the next frame start, or where a sub-frame boundary comes first waits for the frame's end
(R34). -/
def State.reseeded (s : State) : State :=
  if s.frames.k = 0 then { s with frames := { s.frames with
    tgt := s.seedTgt, next := BitVec.ofNat 32 (s.rd F.CLK_FRM_SEED_NUM), reseed := none } }
  else { s with frames := { s.frames with reseed := some ⟨s.seedTgt, BitVec.ofNat 32 (s.rd F.CLK_FRM_SEED_NUM)⟩ } }

theorem frmReseed_held {s : State} (hs : s.schedules = true) (hf : s.frames.fixed = none) (hl : s.frames.lost = false) :
    frmReseed s = if s.seedOk 0 && (!s.frames.begun || lengthOk s.rate (s.core + s.cyclesTo s.seedTgt - s.frames.start))
      then s.reseeded else s.detect E.CLK_SEED_REJECT := by
  have hstart : s.lastStart = s.frames.start := by rw [State.lastStart, hf]
  simp only [frmReseed, State.reseeded, hs, hf, hstart, State.leaveLost_of_held hl]
  simp

theorem State.reseeded_at_start {s : State} (hk : s.frames.k = 0) : s.reseeded = { s with frames := { s.frames with
    tgt := s.seedTgt, next := BitVec.ofNat 32 (s.rd F.CLK_FRM_SEED_NUM), reseed := none } } :=
  if_pos hk

/-! ### Fixing a frame start -/

/-- The head records the lead and the ring delay it uses (R55, R59). -/
def State.noteLead (s : State) : State := (s.wr F.STP_LEAD (s.leadFor s.dringMax)).wr F.STP_DRING s.dringMax

theorem State.noteLead_rate (s : State) : s.noteLead.rate = s.rate := by
  rw [State.rate, State.noteLead, State.rd_wr_ne _ _ (by decide), State.rd_wr_ne _ _ (by decide), State.rate]

/-- The frame in progress ends at the fixed target within the bounds of R30, or is the first. -/
def State.phaseHeld (s : State) : Bool :=
  !s.frames.begun || lengthOk s.rate (s.core + s.cyclesTo s.frames.tgt - s.frames.start)

theorem State.nextStart_of_zero {s : State} (hk : s.frames.k = 0) : s.nextStart = (s.frames.tgt, s.frames.next) :=
  if_pos hk

theorem nominalCycle_one (rate start : Nat) : nominalCycle rate 1 start 1 0 = start + ticksToCycles (frameTicks rate) := by
  simp [nominalCycle]

section
variable {s : State} (hs : s.schedules = true) (hf : s.frames.fixed = none) (hl : s.frames.lost = false) (hk : s.frames.k = 0)
include hs hf hl hk

theorem fixFrameStart_held (hp : s.phaseHeld = true) : fixFrameStart s = { s.noteLead with frames := { s.frames with
    fixed := some ⟨s.frames.tgt, s.core + s.cyclesTo s.frames.tgt, s.frames.next, s.leadFor s.dringMax, s.dringMax⟩ } } := by
  have hlen : (s.frames.begun && !lengthOk s.noteLead.rate (s.core + s.cyclesTo s.frames.tgt - s.frames.start)) = false := by
    rw [s.noteLead_rate]
    simpa [State.phaseHeld, or_iff_not_imp_left] using hp
  rw [fixFrameStart, if_neg (by simp [hs, hf])]
  simp only [State.nextStart_of_zero hk, State.wr_frames, hl, hk, if_true, Bool.false_eq_true, if_false]
  refine (if_neg (Bool.eq_false_iff.mp hlen)).trans ?_
  exact if_neg (by simp)

theorem fixFrameStart_lost (hp : s.phaseHeld = false) : fixFrameStart s = State.detect { s.noteLead with
    frames := { s.frames with
      fixed := some ⟨s.frames.tgt, s.frames.start + ticksToCycles (frameTicks s.rate), s.frames.next, s.leadFor s.dringMax,
        s.dringMax⟩
      lost := true, lostN := 0, lostAt := s.frames.start } } E.CLK_PHASE_LOST := by
  have hlen : (s.frames.begun && !lengthOk s.noteLead.rate (s.core + s.cyclesTo s.frames.tgt - s.frames.start)) = true := by
    rw [s.noteLead_rate]
    simpa [State.phaseHeld] using hp
  have hr : State.rate { s.noteLead with frames := { s.frames with reseed := s.frames.reseed } } = s.rate := s.noteLead_rate
  rw [fixFrameStart, if_neg (by simp [hs, hf])]
  simp only [State.nextStart_of_zero hk, State.wr_frames, hl, hk, if_true, Bool.false_eq_true, if_false]
  refine (if_pos hlen).trans ?_
  rw [← nominalCycle_one, ← hr]
  rfl

end

/-- Settles O12: RUN, RESEED and the fixing of a start, each by the seed's or the frame's bounds. -/
theorem scheduleStarts : Obligations.ScheduleStarts := by
  unfold Obligations.ScheduleStarts
  refine ⟨fun s hl hh => ⟨?run, ?seedRejected, ?stop, ?beforeFirst, ?inFrame⟩, ?fix⟩
  case run => exact fun hr ho => next_of_live hl ((frmRun_head hh hr).trans (if_pos ho))
  case seedRejected =>
    exact fun hr ho => next_of_live hl ((frmRun_head hh hr).trans (if_neg (Bool.eq_false_iff.mp ho)))
  case stop => exact next_of_live hl (frmStop_head hh)
  case beforeFirst =>
    intro hr hb hf hlost hk
    refine next_of_live hl ?_
    rw [frmReseed_held (State.schedules_of_head hh hr) hf hlost, State.reseeded_at_start hk, hb]
    simp only [Bool.not_false, Bool.true_or, Bool.and_true]
    rfl
  case inFrame =>
    intro hr hb hf hlost ho
    refine next_of_live hl ?_
    rw [frmReseed_held (State.schedules_of_head hh hr) hf hlost, ho, hb]
    cases lengthOk s.rate (s.core + s.cyclesTo s.seedTgt - s.frames.start) <;> rfl
  case fix =>
    refine fun s hl hs hf hlost hk => ⟨_, rfl, fun hb => next_of_live hl ?_, fun hb hlen => next_of_live hl ?_⟩
    · exact fixFrameStart_held hs hf hlost hk (by simpa [State.phaseHeld] using hb)
    · exact fixFrameStart_lost hs hf hlost hk (by simp [State.phaseHeld, hb, hlen])

end Sys2Proof.Machine
end

section
/-! The boundaries of the head's schedule (R28, R29, R36). -/

namespace Sys2Proof.Machine

/-- The next boundary is not counted in Root cycles and no start is fixed for it: the counter reaches T then (R28). -/
theorem State.boundaryCycle_of_target {s : State} (hf : s.frames.fixed = none) (hl : s.frames.lost = false) :
    s.boundaryCycle = s.core + s.cyclesTo s.frames.tgt := by
  rw [State.boundaryCycle, hf]
  simp [hl]

theorem State.boundaryCycle_of_fixed {s : State} {f : FixedStart} (hk : s.frames.k = 0) (hf : s.frames.fixed = some f) :
    s.boundaryCycle = f.cycle := by
  simp only [State.boundaryCycle, hk, hf]

theorem State.fixDue_of_fixed {s : State} {f : FixedStart} (upto : Nat) (hf : s.frames.fixed = some f) : s.fixDue upto = s := by
  simp [State.fixDue, hf]

theorem State.fixDue_of_early {s : State} {upto : Nat} (h : upto < s.fixBy) : s.fixDue upto = s := by
  have h' : ¬ s.fixBy ≤ upto := by omega
  simp [State.fixDue, h']

/-- With nothing fixed and no reseed the schedule goes on by one sub-frame (R28). -/
theorem State.nextTarget_plain {s : State} (hf : s.frames.fixed = none) (hr : s.frames.reseed = none) :
    s.nextTarget = { s with frames := { s.frames with
      tgt := (s.frames.tgt + s.subTicks) % tickWrap, k := (s.frames.k + 1) % s.refresh } } := by
  rw [State.nextTarget, hf, hr]

theorem State.advanceTo_target {s : State} (hf : s.frames.fixed = none) (hl : s.frames.lost = false) :
    s.advanceTo s.boundaryCycle = s.advance (s.cyclesTo s.frames.tgt) := by
  rw [s.boundaryCycle_of_target hf hl, State.advanceTo, Nat.add_sub_cancel_left]

theorem State.boundary_inFrame {s : State} (hk : s.frames.k ≠ 0) (h : s.boundaryCycle < s.fixBy) :
    s.boundary = (false, (s.advanceTo s.boundaryCycle).nextTarget) := by
  unfold State.boundary
  extract_lets due there
  have hdue : due = s := State.fixDue_of_early h
  have hthere : there = s.advanceTo s.boundaryCycle := by rw [← hdue]
  rw [if_neg (by rw [hthere]; exact hk), hthere]

/-- The frame that starts at a fixed cycle: its number, and the length of the frame that ends (R29, R36). -/
def State.startsFixed (s : State) (f : FixedStart) : State :=
  { (((s.advanceTo f.cycle).wr F.CLK_FRM_LEN ((s.advanceTo f.cycle).core - s.frames.start)).wr F.CLK_FRM_NOW f.num.toNat) with
    frames := { s.frames with start := (s.advanceTo f.cycle).core, fixed := none, next := f.num + 1, lostN := 0 } }

theorem State.boundary_fixed {s : State} {f : FixedStart} (hk : s.frames.k = 0) (hf : s.frames.fixed = some f)
    (hl : s.frames.lost = false) (hb : s.frames.begun = true) : s.boundary = (true, (s.startsFixed f).nextTarget) := by
  simp [State.boundary, State.fixDue_of_fixed _ hf, State.boundaryCycle_of_fixed hk hf, State.advanceTo, State.startsFixed, hk,
    hf, hl, hb]

theorem State.startsFixed_rd (s : State) (f : FixedStart) {g : Fld} (h1 : F.CLK_FRM_LEN.key ≠ g.key)
    (h2 : F.CLK_FRM_NOW.key ≠ g.key) : (s.startsFixed f).rd g = s.rd g := by
  have hreg : (s.startsFixed f).rd g = (((s.advanceTo f.cycle).wr F.CLK_FRM_LEN
      ((s.advanceTo f.cycle).core - s.frames.start)).wr F.CLK_FRM_NOW f.num.toNat).rd g := State.rd_regs rfl g
  rw [hreg, State.rd_wr_ne _ _ h2, State.rd_wr_ne _ _ h1]
  rfl

theorem State.startsFixed_mode (s : State) (f : FixedStart) :
    (s.startsFixed f).refresh = s.refresh ∧ (s.startsFixed f).subTicks = s.subTicks := by
  have hm : (s.startsFixed f).refresh = s.refresh := by
    rw [State.refresh, s.startsFixed_rd f (by decide) (by decide), State.refresh]
  refine ⟨hm, ?_⟩
  rw [State.subTicks, hm, State.rate, s.startsFixed_rd f (by decide) (by decide), State.subTicks, State.rate]

theorem State.startsFixed_number (s : State) (f : FixedStart) : BitVec.ofNat 32 ((s.startsFixed f).rd F.CLK_FRM_NOW) = f.num := by
  have hn : (s.startsFixed f).rd F.CLK_FRM_NOW = f.num.toNat % 2 ^ 32 := State.rd_wr_same _ _ _
  rw [hn, Nat.mod_eq_of_lt f.num.isLt, BitVec.ofNat_toNat, BitVec.setWidth_eq]

/-- The first sub-frame boundary of a frame has index 1 in every mode (R28). -/
theorem State.one_mod_refresh (s : State) : 1 % s.refresh = 1 :=
  Nat.mod_eq_of_lt (Nat.one_lt_two_pow (by omega))

/-- After a frame start the schedule goes on to the frame's first sub-frame boundary. -/
theorem State.startsFixed_nextTarget {s : State} (f : FixedStart) (hk : s.frames.k = 0) (hr : s.frames.reseed = none) :
    (s.startsFixed f).nextTarget = { s.startsFixed f with frames := { (s.startsFixed f).frames with
      tgt := (s.frames.tgt + s.subTicks) % tickWrap, k := 1 } } := by
  obtain ⟨hm, hsub⟩ := s.startsFixed_mode f
  have hone : ((s.startsFixed f).frames.k + 1) % s.refresh = 1 := by
    rw [show (s.startsFixed f).frames.k = 0 from hk]
    exact s.one_mod_refresh
  rw [State.nextTarget_plain (s := s.startsFixed f) rfl hr, hm, hsub, hone]
  rfl

theorem State.nextTarget_isHead (s : State) : s.nextTarget.isHead = s.isHead := by
  unfold State.nextTarget
  extract_lets t k
  clear_value t k
  split <;> (try split_ifs) <;> rfl

theorem State.mode_advanceTo (s : State) (c : Nat) : (s.advanceTo c).refresh = s.refresh ∧ (s.advanceTo c).subTicks = s.subTicks :=
  ⟨rfl, rfl⟩

/-- The schedule is this head's own: FSYNC_IN concerns tiles alone. -/
theorem frameBoundary_head {s : State} (hh : s.isHead = true) (hs : s.schedules = true) (hr : s.boundary.2.isHead = true) :
    frameBoundary s = if s.boundary.1 then s.boundary.2.trimLatch.headFrame s.boundary.2.frameNow else s.boundary.2.noteSub := by
  rw [frameBoundary, if_neg (by simp [hs, State.isTile_of_isHead hh])]
  cases hb : s.boundary.1 <;> simp [hb, hr]


section
variable {s : State} (hh : s.isHead = true) (hr : s.on F.CLK_FRM_CTRL_RUN = true)
include hh hr

theorem frameBoundary_inFrame (hk : s.frames.k ≠ 0) (hm : s.frames.k + 1 < s.refresh) (hf : s.frames.fixed = none)
    (hrs : s.frames.reseed = none) (hfix : s.boundaryCycle < s.fixBy) :
    frameBoundary s = State.noteSub { s.advanceTo s.boundaryCycle with frames := { s.frames with
      tgt := (s.frames.tgt + s.subTicks) % tickWrap, k := s.frames.k + 1 } } := by
  have hbd := State.boundary_inFrame hk hfix
  generalize s.boundaryCycle = c at hbd ⊢
  have hhead : s.boundary.2.isHead = true := by rw [hbd]; exact (State.nextTarget_isHead _).trans hh
  rw [frameBoundary_head hh (State.schedules_of_head hh hr) hhead, hbd, if_neg Bool.false_ne_true,
    State.nextTarget_plain (s := s.advanceTo c) hf hrs, s.mode_advanceTo c |>.1, s.mode_advanceTo c |>.2]
  rw [← Nat.mod_eq_of_lt hm]
  rfl

theorem frameBoundary_atStart {f : FixedStart} (hk : s.frames.k = 0) (hf : s.frames.fixed = some f)
    (hrs : s.frames.reseed = none) (hb : s.frames.begun = true) (hlost : s.frames.lost = false) :
    frameBoundary s = State.headFrame (State.trimLatch { s.startsFixed f with frames := { (s.startsFixed f).frames with
      tgt := (s.frames.tgt + s.subTicks) % tickWrap, k := 1 } }) f.num := by
  have hbd := State.boundary_fixed hk hf hlost hb
  have hhead : s.boundary.2.isHead = true := by rw [hbd]; exact (State.nextTarget_isHead _).trans hh
  rw [frameBoundary_head hh (State.schedules_of_head hh hr) hhead, hbd, if_pos rfl, State.startsFixed_nextTarget f hk hrs]
  exact congrArg _ (s.startsFixed_number f)

end

/-- Settles O13: the boundary's cycle, then what `nextTarget` makes of the frame there. -/
theorem boundarySteps : Obligations.BoundarySteps := by
  unfold Obligations.BoundarySteps
  refine fun s hl hh hr => ⟨fun hk hm hf hrs hlost hfix => ?_, fun f hk hf hrs hb hlost => ?_⟩
  · rw [← s.boundaryCycle_of_target hf hlost] at hfix
    refine next_of_live hl ?_
    rw [frameBoundary_inFrame hh hr (by omega) hm hf hrs hfix, State.advanceTo_target hf hlost, State.subTicks, tickWrap]
  · refine next_of_live hl ?_
    rw [frameBoundary_atStart hh hr hk hf hrs hb hlost, State.subTicks, tickWrap]
    rfl

end Sys2Proof.Machine
end

section
/-! A tile's frame starts and sub-frames, the end of a slew, a stale delay, and FSYNC_IN (R23 - R25, R31, R121 - R123, R254). -/

namespace Sys2Proof.Machine

/-! ### Frame starts -/

/-- The length a frame start gives the frame that ends: nominal P for the first one after frame lock (R31). -/
def State.lengthThatEnds (s : State) : Nat :=
  if s.frames.nominal = true ∨ s.frames.begun = false then ticksToCycles (frameTicks s.rate) else s.core - s.frames.start

/-- The latch's own part of a frame start: the frame's number and length, and the changes that wait for it (R31, R36). -/
def State.latched (s : State) (n : Word) : State :=
  ((s.wr F.CLK_FRM_LEN s.lengthThatEnds).wr F.CLK_FRM_NOW n.toNat).settlePvw.trimLatch

/-- The frame has begun with a length, and its sub-frame count restarts. -/
def State.beginsFrame (s : State) (n : Word) (len : Nat) : State :=
  { s with frames := { s.frames with start := s.core, begun := true, len := len, nominal := false, sub := 0, next := n + 1 } }

theorem State.tileFrame_eq (s : State) (n : Word) : s.tileFrame n =
    if ((s.latched n).beginsFrame n s.lengthThatEnds).care.shut then (s.latched n).beginsFrame n s.lengthThatEnds
    else ((s.latched n).beginsFrame n s.lengthThatEnds).tileWork n := by
  have hlen : (if (s.frames.nominal || !s.frames.begun) = true then ticksToCycles (frameTicks s.rate)
      else s.core - s.frames.start) = s.lengthThatEnds := if_congr (by simp) rfl rfl
  rw [State.tileFrame, hlen]
  rfl

/-- The device and its clocks once it has taken the announced start. -/
def State.takesLatch (s : State) (c : Nat) : State := { s.advanceTo c with frames := { s.frames with latch := none } }

theorem frameLatch_tile {s : State} {c : Nat} {n : Word} (ht : s.isTile = true) (hf : s.frames.latch = some (c, n)) :
    frameLatch s = if s.tooShort c then s.takesLatch c else (s.takesLatch c).applyDs.lockUpdate.tileFrame n := by
  rw [frameLatch, hf]
  exact if_neg (Bool.eq_false_iff.mp (State.isHead_of_isTile ht))

theorem State.tooShort_eq_true {s : State} {c : Nat} : s.tooShort c = true ↔
    s.frames.begun = true ∧ 2 * (c - s.frames.start) * 36864000 < frameTicks s.rate * 103125 := by
  simp [State.tooShort]

theorem State.tooShort_eq_false {s : State} {c : Nat} : s.tooShort c = false ↔
    s.frames.begun = false ∨ frameTicks s.rate * 103125 ≤ 2 * (c - s.frames.start) * 36864000 := by
  simp [State.tooShort, or_iff_not_imp_left]

/-! ### Slews and the feeder's delay -/

theorem slewComplete_idle {s : State} (h : s.on F.CLK_ROOT_STAT_SLEWING = false) : slewComplete s = s := by
  rw [slewComplete, h]
  rfl

theorem slewComplete_head {s : State} (h : s.on F.CLK_ROOT_STAT_SLEWING = true) (hh : s.isHead = true) : slewComplete s =
    (let v := ((((s.advanceTo s.slewEnd).wr F.CLK_ROOT_STAT_SLEWING 0).wr F.CLK_ROOT_STAT_LOCK 1).wr
      F.CLK_ROOT_STAT_REF 0).wr F.CLK_ROOT_STAT_FREQ_OFS 0
     State.rootChanged { v with power := { v.power with holdAt := none, slewAt := none } }) := by
  rw [slewComplete, h]
  exact if_pos hh

theorem slewComplete_tile {s : State} (h : s.on F.CLK_ROOT_STAT_SLEWING = true) (ht : s.isTile = true) : slewComplete s =
    (let v := (s.wr F.CLK_ROOT_STAT_SLEWING 0).wr F.CLK_ROOT_STAT_LOCK 1
     State.rootChanged { v with power := { v.power with holdAt := none } }) := by
  rw [slewComplete, h]
  exact if_neg (Bool.eq_false_iff.mp (State.isHead_of_isTile ht))

theorem echoStale_of_pref {s : State} {k d at0 : Nat} (hp : s.pref = some k) (hd : (s.port k).feed.dLast = some (d, at0)) :
    echoStale s = (s.advanceTo (at0 + s.rd F.GLB_ECHO_CFG_MAX_AGE * trailCycle + 1)).lockUpdate := by
  simp only [echoStale, hp, hd]

/-- Settles O14: the latch by the length of the frame in progress, the slew by role. -/
theorem tileFrameStart : Obligations.TileFrameStart := by
  unfold Obligations.TileFrameStart
  refine ⟨fun s c n hl ht hf => ⟨fun hb hlt => ?_, fun hok => ?_⟩, ?head, ?tile, ?idle, ?stale⟩
  · exact next_of_live hl ((frameLatch_tile ht hf).trans (if_pos (State.tooShort_eq_true.mpr ⟨hb, hlt⟩)))
  · have hstart : frameLatch s = (s.takesLatch c).applyDs.lockUpdate.tileFrame n := by
      rw [frameLatch_tile ht hf, State.tooShort_eq_false.mpr hok, if_neg Bool.false_ne_true]
    rw [State.tileFrame_eq] at hstart
    refine ⟨_, _, _, _, rfl, rfl, rfl, rfl, fun hs => next_of_live hl ?_, fun hs => next_of_live hl ?_⟩
    · exact hstart.trans (if_neg (Bool.eq_false_iff.mp hs))
    · exact hstart.trans (if_pos hs)
  case head => exact fun s hl h hh => ⟨_, _, rfl, rfl, next_of_live hl (slewComplete_head h hh)⟩
  case tile => exact fun s hl h ht => ⟨_, rfl, next_of_live hl (slewComplete_tile h ht)⟩
  case idle => exact fun s hl h => next_of_live hl (slewComplete_idle h)
  case stale => exact fun s d at0 hl hp hd => next_of_live hl (echoStale_of_pref hp hd)

end Sys2Proof.Machine
end

section
/-! A tile's sub-frames, and a tile on its own schedule or on FSYNC_IN (R31, R35, R228, R254, R255). -/

namespace Sys2Proof.Machine

/-! ### Sub-frames -/

theorem subframeBoundary_none {s : State} (h : s.isHead = true ∨ s.refresh ≤ s.frames.sub + 1) : subframeBoundary s = s := by
  refine if_pos ?_
  rcases h with h | h <;> simp [h]

/-- The next sub-frame begins: the clock stands at its boundary (R31). -/
def State.nextSub (s : State) : State := { s.advanceTo s.subCycle with frames := { s.frames with sub := s.frames.sub + 1 } }

/-- The engines' work at a sub-frame boundary (R35, R43, R228). -/
def State.subWork (s : State) : State := s.noteSub.cutRuns.swapBands false

theorem subframeBoundary_tile {s : State} (ht : s.isTile = true) (hb : s.frames.begun = true) (hf : s.frames.latch = none)
    (hm : s.frames.sub + 1 < s.refresh) : subframeBoundary s =
      if s.nextSub.care.shut then s.nextSub
      else s.nextSub.subWork.startRuns s.nextSub.subWork.frames.sub
        (if s.nextSub.subWork.rd F.PAT_HOLD_STAT_STATE = 2 ∨ s.nextSub.subWork.rd F.PAT_HOLD_STAT_STATE = 3 then .none else .normal) := by
  have hm' : ¬ s.refresh ≤ s.frames.sub + 1 := by omega
  have hmode : ∀ u : State, (if (decide (u.holdState = 2) || decide (u.holdState = 3)) = true then RunMode.none else .normal) =
      if u.rd F.PAT_HOLD_STAT_STATE = 2 ∨ u.rd F.PAT_HOLD_STAT_STATE = 3 then .none else .normal :=
    fun u => if_congr (by rw [Bool.or_eq_true, decide_eq_true_eq, decide_eq_true_eq, State.holdState]) rfl rfl
  rw [subframeBoundary, if_neg (by simp [State.isHead_of_isTile ht, hb, hf, hm'])]
  simp only [hmode]
  rfl

/-! ### A schedule of its own -/

theorem freeRunFrameStart_alone {s : State} (ht : s.isTile = true) (hb : s.frames.begun = true) (hf : s.frames.latch = none)
    (hs : s.schedules = false) (hy : s.onFsync = false) : freeRunFrameStart s =
      (let u := ((s.advanceTo (s.frames.start + s.frames.len)).tileFrame (s.frameNow + 1)).lockUpdate
       { u with frames := { u.frames with len := s.frames.len } }) := by
  rw [freeRunFrameStart, hy]
  exact if_neg (by simp [State.isHead_of_isTile ht, hb, hf, hs])

theorem State.takeZero_of_running {s : State} (hz : s.hold.zero = false) (hb : s.frames.begun = true) :
    s.takeZero = (s.frameNow + 1, s) := by
  simp [State.takeZero, hz, hb]

theorem State.takeZero_advanceTo {s : State} (c : Nat) (hz : s.hold.zero = false) (hb : s.frames.begun = true) :
    (s.advanceTo c).takeZero = (s.frameNow + 1, s.advanceTo c) :=
  State.takeZero_of_running hz hb

/-- A frame start without an edge counts a miss and costs the FSYNC lock (R254). -/
def State.missesEdge (s : State) : State := (s.inc F.PAT_FSYNC_MISS).wr F.PAT_SA_STAT_FSYNC_LOCK 0

theorem State.takeZero_missesEdge {s : State} (hz : s.hold.zero = false) (hb : s.frames.begun = true) :
    s.missesEdge.takeZero = (s.missesEdge.frameNow + 1, s.missesEdge) :=
  State.takeZero_of_running hz hb

theorem freeRunFrameStart_fsync {s : State} (ht : s.isTile = true) (hb : s.frames.begun = true) (hf : s.frames.latch = none)
    (hy : s.onFsync = true) (hk : s.on F.PAT_SA_STAT_FSYNC_LOCK = false) (hz : s.hold.zero = false) : freeRunFrameStart s =
      (let v := (s.advanceTo (s.frames.start + ticksToCycles (frameTicks s.rate))).missesEdge
       let u := (v.tileFrame (v.frameNow + 1)).lockUpdate
       { u with frames := { u.frames with len := ticksToCycles (frameTicks s.rate) } }) := by
  have hheld : ∀ c, (s.advanceTo c).hold.zero = false ∧ (s.advanceTo c).frames.begun = true := fun _ => ⟨hz, hb⟩
  obtain ⟨hz', hb'⟩ := hheld (s.frames.start + ticksToCycles (frameTicks s.rate))
  have hzero := State.takeZero_missesEdge hz' hb'
  rw [freeRunFrameStart, hy, if_neg (by simp [State.isHead_of_isTile ht, hb, hf, hk])]
  simp only [State.missesEdge] at hzero
  simp only [if_true, State.missesEdge, hzero]

/-! ### FSYNC_IN -/

/-- The edge has the active polarity. -/
theorem fsyncEdge_active {s : State} {rising : Bool} (hy : s.onFsync = true) (he : rising ≠ s.on F.PAT_SA_CFG_POL) :
    fsyncEdge rising s = if s.tooShort s.core then (s.inc F.PAT_FSYNC_EARLY).detect E.PAT_FSYNC_EARLY
      else ((s.advance 64).takeZero.2.wr F.PAT_SA_STAT_FSYNC_LOCK 1).tileFrame (s.advance 64).takeZero.1 :=
  if_neg (by simp [hy, he])

theorem fsyncLost_running {s : State} (hy : s.onFsync = true) (hb : s.frames.begun = true) (hz : s.hold.zero = false) :
    fsyncLost s =
      (let p := ticksToCycles (frameTicks s.rate)
       let v := ((s.advanceTo (s.frames.start + 3 * p / 2)).missesEdge.detect E.PAT_FSYNC_LOST).tileFrame (s.frameNow + 1)
       { v with frames := { v.frames with start := s.frames.start + p, len := p } }) := by
  rw [fsyncLost, if_neg (by simp [hy, hb])]
  simp only [State.missesEdge, State.takeZero_advanceTo _ hz hb]

theorem standaloneExit_announced {s : State} (ht : s.isTile = true) (hr : s.on F.CLK_FRM_CTRL_RUN = true)
    (ha : s.anyActive = true) (hf : s.frames.latch.isSome = true) :
    standaloneExit s = (s.wr F.CLK_FRM_CTRL_RUN 0).wr F.PAT_SA_STAT_STANDALONE 0 :=
  (if_pos (by simp [ht, hr, ha, hf])).trans (if_pos ht)

/-- Settles O15: sub-frames by role and index, and for a tile on its own each event of FSYNC_IN. -/
theorem tileSubframes : Obligations.TileSubframes := by
  unfold Obligations.TileSubframes
  refine ⟨fun s hl => ⟨fun ht hb hf hm => ?_, fun h => next_of_live hl (subframeBoundary_none h)⟩, fun s hl ht => ?_⟩
  · have hsub := subframeBoundary_tile ht hb hf hm
    refine ⟨s.nextSub, rfl, fun hs => next_of_live hl ?_, fun hs => ⟨_, rfl, next_of_live hl ?_⟩⟩
    · exact hsub.trans (if_pos hs)
    · exact hsub.trans (if_neg (Bool.eq_false_iff.mp hs))
  refine ⟨?alone, ?grid, fun rising hy he => ⟨?early, ?edge⟩, ?lost, ?zero, ?exit⟩
  case alone => exact fun hb hf hs hy => ⟨_, rfl, next_of_live hl (freeRunFrameStart_alone ht hb hf hs hy)⟩
  case grid =>
    exact fun hb hf hy hk hz => ⟨_, _, _, rfl, rfl, rfl, next_of_live hl (freeRunFrameStart_fsync ht hb hf hy hk hz)⟩
  case early =>
    exact fun hb hlt => next_of_live hl ((fsyncEdge_active hy he).trans (if_pos (State.tooShort_eq_true.mpr ⟨hb, hlt⟩)))
  case edge =>
    intro hb hle hz
    have hlong : s.tooShort s.core = false := State.tooShort_eq_false.mpr (.inr hle)
    refine next_of_live hl ?_
    rw [fsyncEdge_active hy he, hlong, if_neg Bool.false_ne_true, State.takeZero_of_running (s := s.advance 64) hz hb]
    rfl
  case lost => exact fun hy hb hz => ⟨_, _, rfl, rfl, next_of_live hl (fsyncLost_running hy hb hz)⟩
  case zero => exact fun hy => next_of_live hl (if_pos hy)
  case exit => exact fun hr ha hf => next_of_live hl (standaloneExit_announced ht hr ha hf)

end Sys2Proof.Machine
end

section
/-! What the shared operations of a Trail port change of its state code and of the port itself (R89 - R98). -/

namespace Sys2Proof.Machine

/-! ### Ports -/

theorem getD_setAt_same {α : Type} (l : List α) (i : Nat) (v d : α) :
    (setAt l i v).getD i d = if i < l.length then v else l.getD i d := by
  induction l generalizing i with
  | nil => rfl
  | cons a l ih =>
    cases i with
    | zero => rfl
    | succ i => simpa [setAt] using ih i

theorem State.port_setPort_same {s : State} {k : Nat} (p : Port) (h : k < s.trail.ports.length) : (s.setPort k p).port k = p :=
  (getD_setAt_same s.trail.ports k p .fresh).trans (if_pos h)

/-- What a port does not lose when it is set, it still has, whether or not the device lists the port. -/
theorem State.port_setPort_field {β : Type} (s : State) {k : Nat} {p : Port} (g : Port → β) (h : g p = g (s.port k)) :
    g ((s.setPort k p).port k) = g (s.port k) := by
  have hport : (s.setPort k p).port k = if k < s.trail.ports.length then p else s.port k := getD_setAt_same _ k p .fresh
  rw [hport]
  split
  · exact h
  · rfl

theorem State.portCount_le (s : State) : s.portCount ≤ 4 := by
  unfold State.portCount
  split <;> omega

/-! ### State codes -/

theorem State.lst_of_regs {s t : State} (h : t.regs = s.regs) (k : Nat) : t.lst k = s.lst k := State.rd_regs h _

/-- The state codes are the fields whose key is 0x1000 in their block's window. -/
theorem State.lst_wr (s : State) {f : Fld} (v k : Nat) (h : f.key % 0x200000 ≠ 0x1000) : (s.wr f v).lst k = s.lst k := by
  refine State.rd_wr_ne s v fun he => h ?_
  rw [he]
  simp only [Fld.key, F.TRL_STAT_STATE]
  omega

theorem State.lst_incBy (s : State) {f : Fld} (n k : Nat) (h : f.key % 0x200000 ≠ 0x1000) : (s.incBy f n).lst k = s.lst k :=
  s.lst_wr _ k h

theorem State.lst_enterState (s : State) (k code : Nat) : (s.enterState k code).lst k = code % 8 :=
  (State.lst_of_regs (State.setPort_regs _ _ _) k).trans (s.rd_wr_same _ _)

theorem State.lst_endFeed (s : State) (k j : Nat) : (s.endFeed k).lst j = s.lst j := by
  unfold State.endFeed
  extract_lets p _ f t
  have ht : t.lst j = s.lst j := rfl
  clear_value t
  split
  · rw [State.lst_wr, ht]
    split <;> decide
  · exact ht

theorem State.lst_dropPort (s : State) (k code : Nat) : (s.dropPort k code).lst k = code % 8 := by
  rw [State.dropPort, State.lst_endFeed, State.lst_enterState]

/-! ### Sources -/

theorem State.sendVector_regs (s : State) (v : Nat) : (s.sendVector v).regs = s.regs := by
  unfold State.sendVector
  split_ifs <;> rfl

theorem State.raiseEvent_regs (s : State) (b : Nat) : (s.raiseEvent b).regs = s.regs := by
  unfold State.raiseEvent
  split_ifs <;> rfl

theorem State.notify_regs (s : State) (b : Nat) : (s.notify b).regs = s.regs := by
  unfold State.notify
  split_ifs
  · rw [State.sendVector_regs, State.raiseEvent_regs]
  · exact s.sendVector_regs b

theorem State.lst_raise (s : State) {f : Fld} (i k : Nat) (h : f.key % 0x200000 ≠ 0x1000) : (s.raise f i).lst k = s.lst k :=
  (State.lst_of_regs rfl k).trans (s.lst_wr _ k h)

theorem key_sticky (b : Nat) : (F.BLK_STICKY b).key % 0x200000 ≠ 0x1000 := by
  simp only [Fld.key, F.BLK_STICKY]
  omega

theorem key_irqPend (b : Nat) : (F.BLK_IRQ_PEND b).key % 0x200000 ≠ 0x1000 := by
  simp only [Fld.key, F.BLK_IRQ_PEND]
  omega

theorem key_masked (b : Nat) : (F.BLK_MASKED b).key % 0x200000 ≠ 0x1000 := by
  simp only [Fld.key, F.BLK_MASKED]
  omega

theorem State.lst_setPend (s : State) (b i k : Nat) : (s.setPend b i).lst k = s.lst k := by
  have hraise := s.lst_raise i k (key_irqPend b)
  unfold State.setPend
  extract_lets t
  split_ifs
  · rfl
  · exact (State.lst_of_regs (State.notify_regs _ _) k).trans hraise
  · exact hraise

theorem State.lst_record (s : State) (b i k : Nat) : (s.record b i).lst k = s.lst k := by
  unfold State.record
  extract_lets t u
  have ht : t.lst k = s.lst k := s.lst_raise i k (key_sticky b)
  have hu : u.lst k = s.lst k := by
    rw [← ht]
    simp only [u]
    split_ifs
    · rfl
    · exact t.lst_setPend b i k
  split_ifs
  · exact (State.lst_of_regs rfl k).trans hu
  · exact hu

theorem State.lst_flag (s : State) (e : Nat × Nat) (k : Nat) : (s.flag e).lst k = s.lst k := by
  unfold State.flag
  split_ifs
  · exact s.lst_incBy 1 k (key_masked e.1)
  · exact s.lst_record e.1 e.2 k

/-! ### Resignation -/

theorem key_readyLocal (k : Nat) : (F.TRL_STAT_READY_LOCAL k).key % 0x200000 ≠ 0x1000 := by
  simp only [Fld.key, F.TRL_STAT_READY_LOCAL]
  omega

theorem State.lst_refreshPort (s : State) (j k : Nat) : (s.refreshPort j).lst k = s.lst k := by
  unfold State.refreshPort
  split_ifs
  · exact (State.lst_of_regs rfl k).trans (s.lst_wr _ k (key_readyLocal j))
  · rfl

theorem State.lst_refreshReady (s : State) (k : Nat) : s.refreshReady.lst k = s.lst k :=
  List.foldlRecOn (motive := fun t : State => t.lst k = s.lst k) _ _ rfl fun t ht j _ => (t.lst_refreshPort j k).trans ht

theorem State.lst_takeFbclk (s : State) (k : Nat) : s.takeFbclk.lst k = s.lst k := by
  unfold State.takeFbclk
  extract_lets t
  have ht : t.lst k = s.lst k := by
    simp only [t]
    rw [State.lst_wr _ _ k (by decide), State.lst_wr _ _ k (by decide), State.lst_wr _ _ k (by decide)]
  exact (State.lst_refreshReady _ k).trans ht

theorem State.driveFbclk_regs (s : State) : s.driveFbclk.regs = s.regs := by
  unfold State.driveFbclk
  extract_lets on
  split_ifs <;> rfl

theorem State.lst_resign (s : State) (k : Nat) : s.resign.lst k = s.lst k := by
  unfold State.resign
  split_ifs
  · extract_lets t _ _ u _ v w
    have ht : t.lst k = s.lst k := by
      simp only [t]
      rw [State.lst_wr _ _ k (by decide), State.lst_wr _ _ k (by decide), State.lst_wr _ _ k (by decide)]
    have hv : v.lst k = s.lst k := (State.lst_of_regs (State.driveFbclk_regs _) k).trans ht
    rw [State.lst_flag]
    simp only [w]
    split_ifs
    · exact (v.lst_takeFbclk k).trans hv
    · exact hv
  · rfl

theorem State.lst_resignNative (s : State) (k : Nat) : s.resignNative.lst k = s.lst k := by
  unfold State.resignNative
  split_ifs
  · exact s.lst_resign k
  · rfl

/-! ### A port's own source does not make it Active -/

/-- The reset of a port's own block takes it to Detect or Dormant, or leaves it as it is (R293). -/
theorem State.blockReset_inactive {s : State} {k : Nat} (hk : k < 4) (h : s.lst k ≠ 6) : (s.blockReset (4 + k)).lst k ≠ 6 := by
  have hm : resetMask (4 + k) = some (2 ^ (4 + k) + 2 ^ 0 + 2 ^ 3) := if_pos (by simp; omega)
  have hb : (decide (4 ≤ 4 + k) && decide (4 + k ≤ 7)) = true := by simp; omega
  rw [State.blockReset, hm]
  simp only [State.resetEffect, if_pos hb, Nat.add_sub_cancel_left]
  split_ifs
  · rw [State.lst_dropPort, State.detectCode]
    split_ifs <;> decide
  · exact h

theorem State.detect_inactive {s : State} {k : Nat} (i : Nat) (hk : k < 4) (h : s.lst k ≠ 6) :
    (s.detect (4 + k, i)).lst k ≠ 6 := by
  have hrec : (s.record (4 + k) i).lst k ≠ 6 := by rwa [s.lst_record]
  unfold State.detect
  split_ifs
  · exact hrec
  · rwa [State.inc, s.lst_incBy 1 k (key_masked (4 + k))]
  · dsimp only
    split
    · exact hrec
    · exact hrec
    · split_ifs
      · rwa [State.lst_flag]
      · exact State.blockReset_inactive hk hrec
    · rwa [State.lst_resignNative]

theorem State.bringupFail_inactive (s : State) {k : Nat} (hk : k < 4) : (s.bringupFail k).portActive k = false := by
  have hkey : (F.TRL_STAT_LAST_CAUSE k).key % 0x200000 ≠ 0x1000 := by
    simp only [Fld.key, F.TRL_STAT_LAST_CAUSE]
    omega
  have hdrop : ((s.dropPort k 1).wr (F.TRL_STAT_LAST_CAUSE k) 6).lst k ≠ 6 := by
    rw [State.lst_wr _ _ k hkey, State.lst_dropPort]
    decide
  have h : (s.bringupFail k).rd (F.TRL_STAT_STATE k) ≠ 6 := State.detect_inactive 4 hk hdrop
  simp [State.portActive, h]

end Sys2Proof.Machine
end

section
/-! Trail link bring-up, its timeouts, Dormant and waking (R89 - R98). -/

namespace Sys2Proof.Machine

/-! ### What the blocks a command brings leave alone -/

theorem State.takeBlocks_lst (s : State) (k j : Nat) (rx : List (List Block)) : (s.takeBlocks k rx).lst j = s.lst j := by
  have hsync : (F.TRL_SYNC_ERR k).key % 0x200000 ≠ 0x1000 := by
    simp only [Fld.key, F.TRL_SYNC_ERR]
    omega
  have hbip : (F.TRL_BIP_ERR k).key % 0x200000 ≠ 0x1000 := by
    simp only [Fld.key, F.TRL_BIP_ERR]
    omega
  unfold State.takeBlocks
  split_ifs
  · rfl
  · exact (State.lst_of_regs (State.setPort_regs _ _ _) j).trans ((State.lst_incBy _ _ j hbip).trans (s.lst_incBy _ j hsync))

theorem State.takeBlocks_core (s : State) (k : Nat) (rx : List (List Block)) : (s.takeBlocks k rx).core = s.core := by
  unfold State.takeBlocks
  split_ifs
  · rfl
  · rw [State.setPort_core, State.incBy, State.wr_core, State.incBy, State.wr_core]

theorem State.incBy_port (s : State) (f : Fld) (n k : Nat) : (s.incBy f n).port k = s.port k := rfl

/-- Only the receive lanes of the port move on. -/
theorem State.takeBlocks_port {β : Type} (s : State) (k : Nat) (rx : List (List Block)) (g : Port → β)
    (h : ∀ p r, g { p with rx := r } = g p) : g ((s.takeBlocks k rx).port k) = g (s.port k) := by
  unfold State.takeBlocks
  split_ifs
  · rfl
  · extract_lets ws t u
    have hu : u.port k = s.port k := by rw [State.incBy_port, State.incBy_port]
    rw [State.port_setPort_field u g (h _ _), hu]

theorem State.takeBlocks_since (s : State) (k : Nat) (rx : List (List Block)) :
    ((s.takeBlocks k rx).port k).since = (s.port k).since := s.takeBlocks_port k rx Port.since fun _ _ => rfl

theorem State.takeBlocks_cfg (s : State) (k : Nat) (rx : List (List Block)) :
    ((s.takeBlocks k rx).port k).cfg = (s.port k).cfg := s.takeBlocks_port k rx Port.cfg fun _ _ => rfl

/-! ### Times of a state -/

theorem State.overdue_eq_true {s : State} {k n : Nat} : s.overdue k n = true ↔ (s.port k).since + n * 16896 < s.core :=
  decide_eq_true_iff

theorem State.overdue_eq_false {s : State} {k n : Nat} : s.overdue k n = false ↔ s.core ≤ (s.port k).since + n * 16896 :=
  decide_eq_false_iff_not.trans Nat.not_lt

theorem State.overdue_takeBlocks (s : State) (k n : Nat) (rx : List (List Block)) :
    (s.takeBlocks k rx).overdue k n = s.overdue k n := by
  rw [State.overdue, s.takeBlocks_since, s.takeBlocks_core, State.overdue]

/-! ### Detect and Train -/

theorem State.enterState_eq (s : State) (k c : Nat) : s.enterState k c =
    (s.wr (F.TRL_STAT_STATE k) c).setPort k { s.port k with
      since := s.core, seenPrbs := false, senses := 0
      cfg := if c = 1 ∨ c = 2 then (s.wr (F.TRL_STAT_STATE k) c).portCfg k else (s.port k).cfg
      rx := if c = 3 then Port.fresh.rx else (s.port k).rx } := by
  have hcfg : (if (decide (c = 1) || decide (c = 2)) = true then (s.wr (F.TRL_STAT_STATE k) c).portCfg k else (s.port k).cfg) =
      if c = 1 ∨ c = 2 then (s.wr (F.TRL_STAT_STATE k) c).portCfg k else (s.port k).cfg := if_congr (by simp) rfl rfl
  rw [← hcfg]
  rfl

theorem trlEnable_eq (s : State) (k : Nat) : trlEnable k s = if s.lst k = 0
    then (s.wr (F.TRL_CTRL_EN k) 1).enterState k ((s.wr (F.TRL_CTRL_EN k) 1).detectCode k) else s.wr (F.TRL_CTRL_EN k) 1 := by
  have hkey : (F.TRL_CTRL_EN k).key % 0x200000 ≠ 0x1000 := by
    simp only [Fld.key, F.TRL_CTRL_EN]
    omega
  rw [trlEnable, s.lst_wr 1 k hkey]

/-- How many intervals after its entry to Detect a port next senses (R89). -/
def State.nextSense (s : State) (k : Nat) : Nat :=
  max (s.port k).senses (ceilDiv (s.core - (s.port k).since) ((s.port k).cfg.interval * trailCycle))

theorem detectSense_sensed {s : State} {k : Nat} (h : s.lst k = 1) : detectSense k true s =
    (let u := (s.advanceTo ((s.port k).since + s.nextSense k * ((s.port k).cfg.interval * trailCycle))).enterState k 2
     u.setPort k { u.port k with fast := false }) := by
  rw [detectSense, if_pos h]
  rfl

theorem detectSense_idle {s : State} {k : Nat} (h : s.lst k = 1) (hi : 0 < (s.port k).cfg.interval) : detectSense k false s =
    (s.advanceTo ((s.port k).since + s.nextSense k * ((s.port k).cfg.interval * trailCycle))).setPort k
      { s.port k with senses := s.nextSense k + 1 } := by
  have hstep : 0 < (s.port k).cfg.interval * trailCycle := Nat.mul_pos hi (by decide)
  have hat : s.senseAt k = (s.port k).since + s.nextSense k * ((s.port k).cfg.interval * trailCycle) := rfl
  have hn : (s.senseAt k - (s.port k).since) / ((s.port k).cfg.interval * trailCycle) = s.nextSense k := by
    rw [hat, Nat.add_sub_cancel_left, Nat.mul_div_cancel _ hstep]
  rw [detectSense, if_pos h]
  simp only [hn, Bool.false_eq_true, if_false]
  rw [hat]

theorem trainEnd_train {s : State} {k : Nat} (inv : Byte) (n : Nat) (h : s.lst k = 2) : trainEnd k inv n s =
    (let u := s.advanceTo ((s.port k).since + (if (s.port k).fast then (s.port k).cfg.fast else (s.port k).cfg.time) * trailCycle)
     let v := u.wr (F.TRL_PRBS_ERR k) (min n (2 ^ 32 - 1))
     let w := (if v.on (F.TRL_CTRL_POL_AUTO k) then v.wrHard (F.TRL_POL_INV k) inv.toNat else v).enterState k 3
     w.setPort k { w.port k with adapted := true, fast := false }) := by
  rw [trainEnd, if_pos h]

/-! ### PRBS31 -/

theorem prbsDetect_train {s : State} {k : Nat} (h : s.lst k = 2) : prbsDetect k s =
    if (s.port k).seenPrbs then s
    else (s.setPort k { s.port k with since := s.core, seenPrbs := true }).wr (F.TRL_STAT_SIGNAL k) 1 :=
  if_pos h

theorem prbsDetect_later {s : State} {k : Nat} (h : s.lst k = 3 ∨ s.lst k = 4 ∨ s.lst k = 5) : prbsDetect k s =
    (let u := (s.dropPort k 2).wr (F.TRL_STAT_LAST_CAUSE k) 2
     u.setPort k { u.port k with seenPrbs := true, fast := false }) := by
  rcases h with h | h | h <;> rw [prbsDetect, h] <;> rfl

theorem prbsDetect_other {s : State} {k : Nat} (h2 : s.lst k ≠ 2) (h3 : s.lst k ≠ 3) (h4 : s.lst k ≠ 4) (h5 : s.lst k ≠ 5) :
    prbsDetect k s = s := by
  simp [prbsDetect, h2, h3, h4, h5]

/-! ### Lock, Deskew and Capability -/

theorem blockLock_other {s : State} {k : Nat} (rx : List (List Block)) (h : s.lst k ≠ 3) : blockLock k rx s = s.takeBlocks k rx :=
  if_neg h

theorem blockLock_lock {s : State} {k : Nat} (rx : List (List Block)) (h : s.lst k = 3) : blockLock k rx s =
    if (s.port k).since + (s.port k).cfg.lockTo * 16896 < s.core then (s.takeBlocks k rx).bringupFail k
    else if lanesLocked (s.badBlocks k rx) = true then
      (((s.takeBlocks k rx).wr (F.TRL_STAT_BLOCK_LOCK k) 0xFF).wr (F.TRL_STAT_SIGNAL k) 1).enterState k 4
    else s.takeBlocks k rx := by
  rw [blockLock, if_pos h]
  refine if_congr ?_ rfl rfl
  rw [s.overdue_takeBlocks, s.takeBlocks_cfg]
  exact State.overdue_eq_true

section
variable {s : State} {k : Nat} (r1 r2 : List (Nat × Block)) (rx : List (List Block))

theorem deskewDone_other (h : s.lst k ≠ 4) : deskewDone k r1 r2 rx s = s.takeBlocks k rx :=
  if_neg (by rwa [s.takeBlocks_lst])

theorem deskewDone_late (h : s.lst k = 4) (ho : s.overdue k 8 = true) :
    deskewDone k r1 r2 rx s = (s.takeBlocks k rx).bringupFail k :=
  (if_pos ((s.takeBlocks_lst k k rx).trans h)).trans (if_pos ((s.overdue_takeBlocks k 8 rx).trans ho))

/-- A deskew that holds shows where each lane lies, and leads to Capability (R85, R89, R100). -/
def State.deskewed (u : State) (k : Nat) (r : List (Nat × Block)) : State :=
  let v := ((((u.wr (F.TRL_STAT_DESKEWED k) 1).wr (F.TRL_LANE_MAP k) (laneMapOf r)).wr (F.TRL_SKEW k)
    ((roundOffs r).foldl max 0)).wr (F.TRL_STAT_REFUSE k) 0).enterState k 5
  v.setPort k { v.port k with offs := roundOffs r }

theorem deskewDone_inTime (h : s.lst k = 4) (ho : s.overdue k 8 = false) : deskewDone k r1 r2 rx s =
    if deskewHolds r1 r2 then (s.takeBlocks k rx).deskewed k r2 else s.takeBlocks k rx :=
  (if_pos ((s.takeBlocks_lst k k rx).trans h)).trans
    (if_neg (Bool.eq_false_iff.mp ((s.overdue_takeBlocks k 8 rx).trans ho)))

end

theorem timeout_eq (s : State) (k st n : Nat) (rx : List (List Block)) : timeout k st n rx s =
    if s.lst k = st then ((s.takeBlocks k rx).advance ((s.port k).since + n * trailCycle - s.core)).bringupFail k
    else s.takeBlocks k rx := by
  rw [timeout]
  refine if_congr (by rw [s.takeBlocks_lst]) ?_ rfl
  rw [State.advanceTo, s.takeBlocks_since, s.takeBlocks_core]

/-- What an accepted message shows and answers (R91, R92). -/
def State.acceptsCap (u : State) (k : Nat) (m : Bytes) : State :=
  let v := (List.range 14).foldl (fun s n => s.wr (F.TRL_CAP_RX k n) (numAt m (4 * n) 4)) u
  let w := v.setPort k { v.port k with since := v.core }
  let code := w.capRefuse k m
  let x := (((w.wr (F.TRL_STAT_ACCEPTED k) 1).wr (F.TRL_STAT_REFUSE k) code).wr
    (F.TRL_STAT_PEER_REFUSE k) (numAt m 5 1)).wr (F.TRL_STAT_READY_PEER k) (bits (numAt m 4 1) 1 1)
  (x.refreshPort k).detectIf (code != 0) (E.TRL_CAP_REFUSED k)

section
variable {s : State} {k : Nat} {a b : Bytes} (rx : List (List Block))

theorem capabilityAccept_other (h : s.lst k ≠ 5) : capabilityAccept k a b rx s = s.takeBlocks k rx :=
  if_pos (by rw [s.takeBlocks_lst]; simpa using h)

theorem capabilityAccept_late (h : s.lst k = 5) (ho : s.overdue k (s.port k).cfg.capTo = true) :
    capabilityAccept k a b rx s = (s.takeBlocks k rx).bringupFail k := by
  rw [capabilityAccept]
  refine (if_neg (by rw [s.takeBlocks_lst, h]; decide)).trans (if_pos ?_)
  rw [s.overdue_takeBlocks, s.takeBlocks_cfg, ho]

theorem capabilityAccept_inTime (h : s.lst k = 5) (ho : s.overdue k (s.port k).cfg.capTo = false) :
    capabilityAccept k a b rx s =
      (let u := (s.takeBlocks k rx).detectIf (!capCrcOk a || !capCrcOk b) (E.TRL_CAP_CRC k)
       if !capCrcOk a || a != b then u else u.acceptsCap k a) := by
  rw [capabilityAccept]
  refine (if_neg (by rw [s.takeBlocks_lst, h]; decide)).trans (if_neg ?_)
  rw [s.overdue_takeBlocks, s.takeBlocks_cfg, ho]
  decide

theorem capabilityAccept_badCrc (h : s.lst k = 5) (ho : s.overdue k (s.port k).cfg.capTo = false)
    (hc : capCrcOk a = false ∨ capCrcOk b = false) :
    capabilityAccept k a b rx s = (s.takeBlocks k rx).detect (E.TRL_CAP_CRC k) := by
  have hne : (!capCrcOk a || a != b) = true := by
    by_cases hab : a = b
    · subst hab
      simpa using hc
    · simp [hab]
  have hbad : (!capCrcOk a || !capCrcOk b) = true := by simpa using hc
  rw [capabilityAccept_inTime rx h ho, hne, hbad]
  rfl

theorem capabilityAccept_differs (h : s.lst k = 5) (ho : s.overdue k (s.port k).cfg.capTo = false) (ha : capCrcOk a = true)
    (hb : capCrcOk b = true) (hab : a ≠ b) : capabilityAccept k a b rx s = s.takeBlocks k rx := by
  rw [capabilityAccept_inTime rx h ho, ha, hb]
  exact if_pos (by simpa using hab)

theorem capabilityAccept_equal (h : s.lst k = 5) (ho : s.overdue k (s.port k).cfg.capTo = false) (ha : capCrcOk a = true) :
    capabilityAccept k a a rx s = (s.takeBlocks k rx).acceptsCap k a := by
  rw [capabilityAccept_inTime rx h ho, ha]
  exact if_neg (by simp)

end

/-! ### Active -/

/-- The port has entered Active, after the two copies that R93 asks for. -/
def State.entersActive (s : State) (k : Nat) : State :=
  let u := s.advanceTo ((s.port k).readySince.getD s.core + twoCopies)
  let v := (u.keepCap k).enterState k 6
  v.setPort k { v.port k with readySince := none, left := none, berRun := 0 }

/-- On a tile that a locked or feeding partner serves, Root slews to it where it follows no feed (R25, R94). -/
def State.slewsToPartner (w : State) (k : Nat) : State :=
  if w.isTile = true ∧ (bits (numAt (w.capRx k) 1 1) 0 2 = 0 ∨ bits (numAt (w.capRx k) 3 1) 0 3 = 2 ∨
      bits (numAt (w.capRx k) 3 1) 0 3 = 3) ∧ (w.rd F.CLK_ROOT_STAT_REF = 0 ∨ w.rd F.CLK_ROOT_STAT_REF = 4)
    then w.slewTo k else w

theorem portActive_notOk {s : State} {k : Nat} (h : s.activeOk k = false) : portActive k s = s :=
  if_pos (by rw [h]; rfl)

theorem portActive_late {s : State} {k : Nat} (h : s.activeOk k = true) (ho : s.overdue k (s.port k).cfg.capTo = true) :
    portActive k s = s.bringupFail k :=
  (if_neg (by rw [h]; decide)).trans (if_pos ho)

theorem portActive_inTime {s : State} {k : Nat} (h : s.activeOk k = true) (ho : s.overdue k (s.port k).cfg.capTo = false) :
    portActive k s = (((s.entersActive k).slewsToPartner k).rootChanged.takePosition k).feedUpdate := by
  unfold portActive
  rw [if_neg (by rw [h]; decide), if_neg (Bool.eq_false_iff.mp ho)]
  extract_lets _ _ _ _ w m r fed x y
  have hw : w = s.entersActive k := rfl
  have hx : x = w.slewsToPartner k := if_congr (by simp [fed, m, r, and_assoc]) rfl rfl
  have hy : y = ((s.entersActive k).slewsToPartner k).rootChanged := by rw [← hw, ← hx]
  rw [hy]

theorem State.portActive_of_lst {s : State} {k : Nat} (h : s.lst k ≠ 6) : s.portActive k = false := by
  have h' : s.rd (F.TRL_STAT_STATE k) ≠ 6 := h
  simp [State.portActive, h']

/-- A tile leaves a Night that it entered by itself once the port is Active (R249). -/
def State.endsNight (y : State) (k : Nat) : State :=
  if y.portActive k = true ∧ y.isTile = true ∧ y.hold.byHost = false then y.leaveNight else y

theorem execPortActive_runs {s : State} {k : Nat} (hr : s.runs = true) (hk : k < s.portCount) :
    exec (.portActive k) s = .next ((portActive k s).endsNight k) :=
  next_of_runs hr hk (if_congr (by simp [and_assoc]) rfl rfl)

theorem State.endsNight_of_inactive {y : State} {k : Nat} (h : y.portActive k = false) : y.endsNight k = y :=
  if_neg (by simp [h])

/-! ### Dormant -/

theorem key_dormant (k : Nat) : (F.TRL_CTRL_DORMANT k).key % 0x200000 ≠ 0x1000 := by
  simp only [Fld.key, F.TRL_CTRL_DORMANT]
  omega

theorem dormantEnter_eq (s : State) (k : Nat) : dormantEnter k s =
    (let u := s.wr (F.TRL_CTRL_DORMANT k) 1
     if s.lst k = 0 then u
     else if s.lst k = 7 then u.setPort k { u.port k with sleeping := false }
     else if s.lst k = 6 then u.setPort k { u.port k with closing := some true }
     else u.toDormant k) := by
  rw [dormantEnter, s.lst_wr 1 k (key_dormant k)]
  simp only [State.sleep, s.lst_wr 1 k (key_dormant k), Bool.true_or]

theorem wakeDetect_dormant {s : State} {k : Nat} (h : s.lst k = 7) : wakeDetect k s =
    if s.on (F.TRL_CTRL_DORMANT k) then s.detect (E.TRL_WAKE_IGNORED k) else s.wakeAll k :=
  if_pos h

/-- A head wakes the port itself alone, with a burst unless a retimed module is fitted (R98). -/
theorem State.wakeAll_head {s : State} {k : Nat} (hh : s.isHead = true) (h : s.lst k = 7)
    (hd : s.on (F.TRL_CTRL_DORMANT k) = false) (hp : (s.port k).sleeping = false) : s.wakeAll k =
      (let u := s.setPort k { s.port k with since := s.core, sleeping := true }
       if s.on (F.TRL_CTRL_RETIMED k) = true then u else u.emit (.burst k)) := by
  have hwake : s.wake k = (let u := s.setPort k { s.port k with since := s.core, sleeping := true }
      if s.on (F.TRL_CTRL_RETIMED k) = true then u else u.emit (.burst k)) := if_pos (by simp [h, hd, hp])
  have htile : (s.wake k).isTile = false := by
    rw [hwake]
    dsimp only
    split <;> exact State.isTile_of_isHead hh
  rw [State.wakeAll, htile]
  exact hwake

theorem wakeRelock_none {s : State} {k : Nat} (h : s.lst k ≠ 7 ∨ (s.port k).sleeping = false ∨ s.on (F.TRL_CTRL_DORMANT k) = true) :
    wakeRelock k s = s := by
  refine if_neg ?_
  rcases h with h | h | h <;> simp [h]

theorem wakeRelock_waking {s : State} {k : Nat} (h : s.lst k = 7) (hp : (s.port k).sleeping = true)
    (hd : s.on (F.TRL_CTRL_DORMANT k) = false) : wakeRelock k s =
      (let u := (s.drawn.advanceTo ((s.port k).since + Config.freeNat s.free % (relockMax + 1))).enterState k 2
       u.setPort k { u.port k with sleeping := false, fast := true }) :=
  if_pos (by simp [h, hp, hd])

/-- Settles O42: for each command, the states of R89 in which it acts and the times it is held to. -/
theorem linkBringUp : Obligations.LinkBringUp := by
  unfold Obligations.LinkBringUp
  refine ⟨State.enterState_eq, fun s k st hr hk hst => ?_⟩
  have hlst : s.lst k = st := hst
  subst hst
  refine ⟨?enable, ?senseOther, ?sense, fun inv n => ⟨?trainOther, ?train⟩, ?prbsAgain, ?prbsFirst, ?prbsLater, ?prbsOther,
    fun rx => ⟨_, rfl, ?lockOther, ?lock, fun r1 r2 => ⟨?deskewOther, ?deskewLate, ?deskewFails, ?deskew⟩, ?lockTimeout,
      ?deskewTimeout, ?capTimeout, fun a b => ⟨?capOther, ?capLate, fun h ho => ⟨?badCrc, ?differs, ?accept⟩⟩⟩, ?notOk, ?late,
    ?active, ⟨_, rfl, ?enterOff, ?enterAgain, ?enterEarly, ?enterActive⟩, ⟨_, rfl, ?clear⟩, ?wakeOther, ?wakeHeld, ?wake, ?wakeHead,
    ?relockNone, ?relock⟩
  case enable => exact next_of_runs hr hk (trlEnable_eq s k)
  case senseOther => exact fun h b => next_of_runs hr hk (if_neg h)
  case sense =>
    intro h
    exact ⟨_, _, rfl, rfl, next_of_runs hr hk (detectSense_sensed h), fun hi => next_of_runs hr hk (detectSense_idle h hi)⟩
  case trainOther => exact fun h => next_of_runs hr hk (if_neg h)
  case train => exact fun h => ⟨_, _, _, rfl, rfl, rfl, next_of_runs hr hk (trainEnd_train inv n h)⟩
  case prbsAgain => exact fun h hp => next_of_runs hr hk ((prbsDetect_train h).trans (if_pos hp))
  case prbsFirst => exact fun h hp => next_of_runs hr hk ((prbsDetect_train h).trans (if_neg (Bool.eq_false_iff.mp hp)))
  case prbsLater => exact fun h => ⟨_, rfl, next_of_runs hr hk (prbsDetect_later h)⟩
  case prbsOther => exact fun h2 h3 h4 h5 => next_of_runs hr hk (prbsDetect_other h2 h3 h4 h5)
  case lockOther => exact fun h => next_of_runs hr hk (blockLock_other rx h)
  case lock => exact fun h => next_of_runs hr hk (blockLock_lock rx h)
  case deskewOther => exact fun h => next_of_runs hr hk (deskewDone_other r1 r2 rx h)
  case deskewLate => exact fun h ho => next_of_runs hr hk (deskewDone_late r1 r2 rx h (State.overdue_eq_true.mpr ho))
  case deskewFails =>
    exact fun h ho hd => next_of_runs hr hk
      ((deskewDone_inTime r1 r2 rx h (State.overdue_eq_false.mpr ho)).trans (if_neg (Bool.eq_false_iff.mp hd)))
  case deskew =>
    exact fun h ho hd => ⟨_, rfl, next_of_runs hr hk
      ((deskewDone_inTime r1 r2 rx h (State.overdue_eq_false.mpr ho)).trans (if_pos hd))⟩
  case lockTimeout => exact next_of_runs hr hk (timeout_eq s k 3 (s.port k).cfg.lockTo rx)
  case deskewTimeout => exact next_of_runs hr hk (timeout_eq s k 4 8 rx)
  case capTimeout => exact next_of_runs hr hk (timeout_eq s k 5 (s.port k).cfg.capTo rx)
  case capOther => exact fun h => next_of_runs hr hk (capabilityAccept_other rx h)
  case capLate => exact fun h ho => next_of_runs hr hk (capabilityAccept_late rx h (State.overdue_eq_true.mpr ho))
  case badCrc => exact fun hc => next_of_runs hr hk (capabilityAccept_badCrc rx h (State.overdue_eq_false.mpr ho) hc)
  case differs =>
    exact fun ha hb hab => next_of_runs hr hk (capabilityAccept_differs rx h (State.overdue_eq_false.mpr ho) ha hb hab)
  case accept =>
    intro ha hab
    subst hab
    exact ⟨_, _, _, _, rfl, rfl, rfl, rfl,
      next_of_runs hr hk (capabilityAccept_equal rx h (State.overdue_eq_false.mpr ho) ha)⟩
  case notOk =>
    intro h hst
    rw [execPortActive_runs hr hk, portActive_notOk h, State.endsNight_of_inactive (State.portActive_of_lst hst)]
  case late =>
    intro h ho
    have hk4 : k < 4 := lt_of_lt_of_le hk s.portCount_le
    rw [execPortActive_runs hr hk, portActive_late h (State.overdue_eq_true.mpr ho),
      State.endsNight_of_inactive (s.bringupFail_inactive hk4)]
  case active =>
    intro h ho
    refine ⟨_, _, _, _, _, rfl, rfl, rfl, rfl, rfl, ?_⟩
    rw [execPortActive_runs hr hk, portActive_inTime h (State.overdue_eq_false.mpr ho)]
    rfl
  case enterOff => exact fun h => next_of_runs hr hk ((dormantEnter_eq s k).trans (if_pos h))
  case enterAgain =>
    intro h
    rw [← hlst] at h
    refine next_of_runs hr hk ?_
    rw [dormantEnter_eq, h]
    rfl
  case enterEarly =>
    intro h1 h5
    have h0 : s.lst k ≠ 0 := by omega
    have h6 : s.lst k ≠ 6 := by omega
    have h7 : s.lst k ≠ 7 := by omega
    exact next_of_runs hr hk ((dormantEnter_eq s k).trans ((if_neg h0).trans ((if_neg h7).trans (if_neg h6))))
  case enterActive =>
    intro h
    rw [← hlst] at h
    refine next_of_runs hr hk ?_
    rw [dormantEnter_eq, h]
    rfl
  case clear => exact next_of_runs hr hk rfl
  case wakeOther => exact fun h => next_of_runs hr hk (if_neg h)
  case wakeHeld => exact fun h hd => next_of_runs hr hk ((wakeDetect_dormant h).trans (if_pos hd))
  case wake => exact fun h hd => next_of_runs hr hk ((wakeDetect_dormant h).trans (if_neg (Bool.eq_false_iff.mp hd)))
  case wakeHead => exact fun h hd hh hp => ⟨_, rfl, State.wakeAll_head hh h hd hp⟩
  case relockNone => exact fun h => next_of_runs hr hk (wakeRelock_none h)
  case relock =>
    intro h hp hd
    exact ⟨_, _, Nat.lt_succ_iff.mp (Nat.mod_lt _ (Nat.succ_pos _)), rfl, next_of_runs hr hk (wakeRelock_waking h hp hd)⟩

end Sys2Proof.Machine
end

section
/-! Trail cycles and markers, chunks, empty slots, the epoch and the roster (R25, R87, R107 - R118, R355). -/

namespace Sys2Proof.Machine

theorem ite_decide_and {α : Type} (p : Prop) [Decidable p] (b : Bool) (x y : α) :
    (if (decide p && b) = true then x else y) = if p ∧ b = true then x else y :=
  if_congr (by simp) rfl rfl

/-! ### Cycles -/

theorem execTrailCycleStart_head {s t : State} {k : Nat} (hr : s.runs = true) (hk : k < s.portCount) (hh : s.isHead = true)
    (h : s.headCycle k = t) : exec (.trailCycleStart k) s = .next t :=
  next_of_runs hr hk ((if_pos hh).trans h)

theorem execTrailCycleStart_tile {s t : State} {k : Nat} (hr : s.runs = true) (hk : k < s.portCount) (ht : s.isTile = true)
    (h : s.tileCycle k = t) : exec (.trailCycleStart k) s = .next t :=
  next_of_runs hr hk ((if_neg (Bool.eq_false_iff.mp (State.isHead_of_isTile ht))).trans h)

theorem State.nextCycle_core {s : State} {k : Nat} (h : (s.port k).cycleAt = 0 ∨ s.core ≤ (s.port k).cycleAt + 16896) :
    (s.nextCycle k).core = if (s.port k).cycleAt = 0 then s.core else (s.port k).cycleAt + 16896 := by
  have hcore : (s.nextCycle k).core = s.core + (s.cycleEnd k - s.core) := rfl
  rw [hcore, State.cycleEnd, trailCycle]
  split <;> omega

/-- A port's new cycle: TRL0 counts it, the others take its number (R281). -/
theorem State.nextCycle_port {s : State} {k : Nat} (hk : k < s.trail.ports.length) :
    ((s.nextCycle k).port k).cycle = (if k = 0 then (s.port 0).cycle + 1 else (s.port 0).cycle) ∧
    ((s.nextCycle k).port k).cycleAt = (s.nextCycle k).core ∧ ((s.nextCycle k).port k).slotAt = 1 := by
  have hport : (s.nextCycle k).port k = { s.port k with
      cycle := if k = 0 then (s.port k).cycle + 1 else (s.port 0).cycle, cycleAt := (s.nextCycle k).core, slotAt := 1 } :=
    State.port_setPort_same _ hk
  rw [hport]
  refine ⟨?_, rfl, rfl⟩
  by_cases h0 : k = 0
  · subst h0
    rfl
  · exact (if_neg h0).trans (if_neg h0).symm

/-! ### A tile's cycle -/

/-- What a tile's cycle does on every port: one that ends for Dormant stops, and the control stripes go out (R87, R94, R97). -/
def State.tileSends (s : State) (k : Nat) : State :=
  let a := s.advanceTo (s.cycleEnd k)
  let b := if (a.port k).closing.isSome = true then a.closeDown k else a
  let c := b.nextCycle k
  let d := if k = 0 ∧ c.isPair = true then c.emit (.ser c.serFrame) else c
  if d.portActive k = false then d.sendControl k else if d.on (F.TRL_STAT_LINK_CYCLES k) = true then d.sendLink k none else d

/-- The tile has an ID and no current D (R79). -/
def State.lacksD (s : State) : Bool := s.on F.GLB_TILE_ID_VALID && !s.on F.GLB_D_WEST_VALID && !s.on F.GLB_D_EAST_VALID

theorem State.lacksD_eq_false {e : State} (h : e.on F.GLB_TILE_ID_VALID = false ∨ e.on F.GLB_D_WEST_VALID = true ∨
    e.on F.GLB_D_EAST_VALID = true) : e.lacksD = false := by
  rcases h with h | h | h <;> simp [State.lacksD, h]

theorem State.lacksD_of_regs {s t : State} (h : t.regs = s.regs) : t.lacksD = s.lacksD := by
  simp only [State.lacksD, State.on, State.rd_regs h]

theorem foldl_raiseEvent_none (s : State) (l : List Nat) :
    l.foldl (fun s b => if bit 0 b then s.raiseEvent b else s) s = s := by
  have hbit : ∀ b, bit 0 b = false := fun b => by simp [bit]
  induction l with
  | nil => rfl
  | cons b l ih => rw [List.foldl_cons, hbit, if_neg Bool.false_ne_true, ih]


/-- An MBX_ACK that is due becomes the pending one (R79). -/
def State.leaveAck (s : State) : State :=
  { s with trail := { s.trail with
      ackDue := false
      pendAck := if s.trail.ackDue = true then some (retMsg 1 (s.trail.expect.getD 0).toNat []) else s.trail.pendAck } }

theorem State.leaveAck_eq (s : State) :
    (if s.trail.ackDue = true then { s with trail := { s.trail with
        ackDue := false, pendAck := some (retMsg 1 (s.trail.expect.getD 0).toNat []) } } else s) = s.leaveAck := by
  unfold State.leaveAck
  by_cases h : s.trail.ackDue = true
  · rw [if_pos h, if_pos h]
  · rw [if_neg h, if_neg h, ← Bool.eq_false_iff.mpr h]

/-- On any port but the preferred one that is all; there, with no EVENT waiting and no report due, an MBX_ACK that is due is left
pending (R79, R81, R355). -/
theorem State.tileCycle_cases {s e : State} {k : Nat} (he : s.tileSends k = e) :
    (e.pref.getD 0 ≠ k → s.tileCycle k = e) ∧
    (e.pref.getD 0 = k → e.trail.evWait = 0 → e.lacksD = false → s.tileCycle k = { e with trail := { e.trail with
      evSent := 0, evWait := 0, lockAge := 0, ackDue := false
      pendAck := if e.trail.ackDue = true then some (retMsg 1 (e.trail.expect.getD 0).toNat []) else e.trail.pendAck } }) := by
  unfold State.tileCycle
  extract_lets a b c d sent wait _ clean raised _ acked noD
  have hd : d = if k = 0 ∧ c.isPair = true then c.emit (.ser c.serFrame) else c := ite_decide_and _ _ _ _
  have hsent : sent = e := by
    rw [← he, State.tileSends, ← hd]
    cases ha : d.portActive k <;> simp [sent, ha]
  clear_value sent
  subst hsent
  refine ⟨fun h => if_pos (by simpa using h), fun h hw hD => (if_neg (by simp [h])).trans ?_⟩
  have hwait : wait = 0 := hw
  have hraised : raised = clean := by
    simp only [raised, hwait]
    exact foldl_raiseEvent_none clean _
  clear_value raised
  subst hraised
  have hregs : acked.regs = sent.regs := by
    simp only [acked]
    split <;> rfl
  have hnoD : noD = false := (State.lacksD_of_regs hregs).trans hD
  rw [hnoD]
  have hacked : acked = clean.leaveAck := clean.leaveAck_eq
  clear_value acked
  subst hacked
  rfl

/-! ### Chunks -/

theorem chunkDrop_tile {s : State} (k : Nat) (ht : s.isTile = true) : chunkDrop k s = s := if_pos ht

theorem chunkDrop_head {s : State} {k : Nat} {q : QChunk} {r : List QChunk} (ht : s.isTile = false) (hp : (s.port k).pool = q :: r) :
    chunkDrop k s = (let u := (s.advanceTo (q.since + trailCycle + 1)).fillSlots k 1023
      u.dropOld k u.core) := by
  simp only [chunkDrop, ht, hp, Bool.false_eq_true, if_false]

/-- The chunks of a port that have waited over one Trail cycle (R110). -/
def State.oldChunks (s : State) (k now : Nat) : List QChunk := (s.port k).pool.filter (fun q => decide (q.since + trailCycle < now))

theorem State.dropOld_none {s : State} {k now : Nat} (h : s.oldChunks k now = []) : s.dropOld k now = s :=
  if_pos (List.isEmpty_iff.mpr h)

theorem State.dropOld_some {s : State} {k now : Nat} (h : s.oldChunks k now ≠ []) : s.dropOld k now =
    ((s.setPort k { s.port k with
      pool := (s.port k).pool.filter (fun q => decide (now ≤ q.since + trailCycle)) }).incBy (F.GLB_SLOT_PLAN_DROP k)
        (s.oldChunks k now).length).detect E.GLB_PLAN_OVERRUN :=
  if_neg fun he => h (List.isEmpty_iff.mp he)

/-! ### Markers -/

theorem State.takeBlocks_power (s : State) (k : Nat) (rx : List (List Block)) : (s.takeBlocks k rx).power = s.power := by
  unfold State.takeBlocks
  split_ifs
  · rfl
  · rw [State.setPort_power, State.incBy, State.wr_power, State.incBy, State.wr_power]

/-- Counting the blocks of a cycle leaves the role. -/
theorem State.takeCycle_power (s : State) (k : Nat) (rx : List (List Block)) : (s.takeCycle k rx).power = s.power := by
  unfold State.takeCycle
  split_ifs
  · rfl
  · rw [State.judgeBer, State.setPort_power, s.takeBlocks_power]

theorem State.relayMarker_power (s : State) (k : Nat) (b : Bytes) : (s.relayMarker k b).power = s.power := by
  unfold State.relayMarker
  split_ifs <;> rfl

theorem State.isHead_of_power {s t : State} (h : t.power = s.power) : t.isHead = s.isHead := by
  rw [State.isHead, h, State.isHead]

theorem markerMissing_inactive {s : State} {k : Nat} (rx : List (List Block)) (h : s.portActive k = false) :
    markerMissing k rx s = s :=
  if_pos (by rw [h]; rfl)

theorem markerReceive_inactive {s : State} {k : Nat} (b : Bytes) (rx : List (List Block)) (h : s.portActive k = false) :
    markerReceive k b rx s = s :=
  if_pos (by rw [h]; rfl)

theorem markerMissing_active {s : State} {k : Nat} (rx : List (List Block)) (h : s.portActive k = true) :
    markerMissing k rx s = (let u := s.takeCycle k rx
      if s.isHead then u.inc (F.GLB_SLOT_MARKER_MISS k)
      else (u.advanceTo ((u.port k).feed.arr + trailCycle + 17)).missMarker k) := by
  rw [markerMissing, h, if_neg (by decide), ← State.isHead_of_power (s.takeCycle_power k rx)]

/-- A marker slot counts the blocks it brings and is forwarded (R86, R107, R112). -/
def State.countsMarker (s : State) (k : Nat) (b : Bytes) (rx : List (List Block)) : State :=
  (s.takeCycle k (s.withMarker k b rx)).relayMarker k b

theorem State.countsMarker_isHead (s : State) (k : Nat) (b : Bytes) (rx : List (List Block)) :
    (s.countsMarker k b rx).isHead = s.isHead :=
  State.isHead_of_power ((State.relayMarker_power _ k b).trans (s.takeCycle_power k _))

theorem markerReceive_active {s : State} {k : Nat} (b : Bytes) (rx : List (List Block)) (h : s.portActive k = true) :
    markerReceive k b rx s =
      if markerGood b = false then (s.countsMarker k b rx).missMarker k
      else if s.isHead then (s.countsMarker k b rx).headMarker ((b.drop 64).take 188)
      else (s.countsMarker k b rx).goodMarker k b := by
  rw [markerReceive, h, if_neg (by decide), ← s.countsMarker_isHead k b rx]
  exact if_congr (by simp) rfl rfl

/-- A good marker as its feed keeps it (R107). -/
def State.keepsMarker (p : State) (k : Nat) (f : Bytes) : State :=
  p.setPort k { p.port k with feed := { (p.port k).feed with
    headFed := decide (bits (numAt f 2 2) 0 2 ≤ 2), missing := 0, arr := p.core, cycle := BitVec.ofNat 32 (numAt f 4 4)
    active := bit (numAt f 1 1) 0, feeder := numAt f 2 2, fields := f } }

/-- What every good marker does on a tile, from a head or from another tile (R113, R117). -/
def State.refreshesFeed (p : State) (k : Nat) (f : Bytes) : State :=
  (((p.keepsMarker k f).judgeFeed k).feedUpdate).turnaround k

theorem State.goodMarker_tileFed {p : State} {k : Nat} {b : Bytes} (h : 2 < bits (numAt ((b.drop 64).take 188) 2 2) 0 2) :
    p.goodMarker k b = p.refreshesFeed k ((b.drop 64).take 188) :=
  if_pos h

theorem State.goodMarker_headFed {p : State} {k : Nat} {b : Bytes} (h : bits (numAt ((b.drop 64).take 188) 2 2) 0 2 ≤ 2) :
    p.goodMarker k b =
      (let f := (b.drop 64).take 188
       let w := (p.refreshesFeed k f).takeField f
       let x := if w.trail.prefNext = some k then w.takePref k (numAt f 42 1) else w
       let y := if x.pref = some k ∧ x.rd F.CLK_ROOT_STAT_REF = 4 then (x.slewTo k).rootChanged else x
       if y.pref = some k then y.takeMarker k f else y) := by
  have hband : ∀ x : State, (if (decide (x.pref = some k) && decide (x.rd F.CLK_ROOT_STAT_REF = 4)) = true
      then (x.slewTo k).rootChanged else x) = if x.pref = some k ∧ x.rd F.CLK_ROOT_STAT_REF = 4 then (x.slewTo k).rootChanged else x :=
    fun x => if_congr (by simp) rfl rfl
  simp only [← hband]
  exact if_neg (by omega)

/-! ### Empty slots -/

section
variable {s : State} {k i : Nat} (hh : s.isHead = false) (ha : s.portActive k = true)
  (hl : s.on (F.TRL_STAT_LINK_CYCLES k) = false) (h1 : 1 ≤ i) (h2 : i ≤ 1023)
include hh ha hl h1 h2

theorem emptySlotArrive_noId (hv : s.on F.GLB_TILE_ID_VALID = false) : emptySlotArrive k i s = s.leaveEmpty k i := by
  have h1' : i ≠ 0 := by omega
  have h2' : ¬ 1023 < i := by omega
  simp [emptySlotArrive, hh, ha, hl, h1', h2', hv]

theorem emptySlotArrive_rsp (hv : s.on F.GLB_TILE_ID_VALID = true) {w : EchoRspWait}
    (hw : s.trail.rsps.find? (fun w => w.port == k) = some w) : emptySlotArrive k i s = s.insertRsp k i w := by
  have h1' : i ≠ 0 := by omega
  have h2' : ¬ 1023 < i := by omega
  simp [emptySlotArrive, hh, ha, hl, h1', h2', hv, hw]

theorem emptySlotArrive_return (hv : s.on F.GLB_TILE_ID_VALID = true)
    (hw : s.trail.rsps.find? (fun w => w.port == k) = none) : emptySlotArrive k i s =
      if (s.port k).feed.headFed = true ∧ s.maskBit i = true ∧ s.owes k = true then s.insertReturn k i else s.leaveEmpty k i := by
  have h1' : i ≠ 0 := by omega
  have h2' : ¬ 1023 < i := by omega
  simp [emptySlotArrive, hh, ha, hl, h1', h2', hv, hw, and_assoc]

end

/-! ### The epoch and the roster -/

theorem epochAdvance_head {s : State} (ht : s.isTile = false) : epochAdvance s =
    if s.on F.GLB_EPOCH_STAT_PENDING then s.detect E.GLB_MASK_BUSY
    else (let u := s.wr F.GLB_EPOCH_STAT_PENDING 1
      { u with trail := { u.trail with
          epochAt := some ((s.port 0).cycle + BitVec.ofNat 32 (u.rd F.GLB_EPOCH_CFG_LEAD)) } }) := by
  rw [epochAdvance, ht]
  rfl

theorem rosterTimeout_unheard {s : State} {k t : Nat} (h : Map.find (s.port k).heard t = none) : rosterTimeout k t s = s := by
  rw [rosterTimeout, h]

theorem rosterTimeout_heard {s : State} {k t c : Nat} (h : Map.find (s.port k).heard t = some c) (ht : s.isTile = false) :
    rosterTimeout k t s =
      (let u := s.advanceTo (c + 1024 * trailCycle)
       let v := u.wr (F.GLB_ROSTER (16 * k + t / 32)) (clrBit (u.rd (F.GLB_ROSTER (16 * k + t / 32))) (t % 32))
       (v.setPort k { v.port k with heard := Map.del (v.port k).heard t, dTile := Map.del (v.port k).dTile t }).showDmax k) := by
  simp only [rosterTimeout, h, ht, Bool.false_eq_true, if_false]

/-- Settles O45: for each command, the role and the port's state in which it acts. -/
theorem trailCycles : Obligations.TrailCycles := by
  unfold Obligations.TrailCycles
  refine ⟨?headCycle, ?nextCycle, fun s k hr hk ht => ⟨?tileDrop, ?tileCycle⟩, ?headDrop, ?dropOld, ?markers, ?slots, ?epoch,
    ?roster⟩
  case headCycle =>
    intro s k hr hk hh
    refine ⟨_, _, _, _, _, _, _, _, rfl, rfl, rfl, rfl, rfl, rfl, rfl, rfl, execTrailCycleStart_head hr hk hh ?_⟩
    simp only [← ite_decide_and]
    rfl
  case nextCycle => exact fun s k h => ⟨State.nextCycle_core h, State.nextCycle_port⟩
  case tileDrop => exact next_of_runs hr hk (chunkDrop_tile k ht)
  case tileCycle =>
    obtain ⟨hother, hpref⟩ := State.tileCycle_cases (rfl : s.tileSends k = _)
    refine ⟨_, _, _, _, s.tileSends k, rfl, rfl, rfl, rfl, rfl, fun h => ?_, fun h hw hd => ?_⟩
    · exact execTrailCycleStart_tile hr hk ht (hother h)
    · exact execTrailCycleStart_tile hr hk ht (hpref h hw (State.lacksD_eq_false hd))
  case headDrop => exact fun s k q r hr hk ht hp => ⟨_, rfl, next_of_runs hr hk (chunkDrop_head ht hp)⟩
  case dropOld =>
    rintro s k now _ rfl
    exact ⟨State.dropOld_none, State.dropOld_some⟩
  case markers =>
    rintro s _ k b _ rx hr hk rfl rfl
    refine ⟨fun ha => ⟨?_, ?_⟩, fun ha hh => ⟨?_, fun hg => ?_⟩, fun ha hh => ⟨_, rfl, ?_⟩, fun ha hg => ?_, fun ha hh hg => ?good⟩
    · exact next_of_runs hr hk (markerReceive_inactive b rx ha)
    · exact next_of_runs hr hk (markerMissing_inactive rx ha)
    · exact next_of_runs hr hk ((markerMissing_active rx ha).trans (if_pos hh))
    · refine next_of_runs hr hk ?_
      rw [markerReceive_active b rx ha, hg, if_neg (by decide), if_pos hh]
      rfl
    · exact next_of_runs hr hk ((markerMissing_active rx ha).trans (if_neg (Bool.eq_false_iff.mp hh)))
    · exact next_of_runs hr hk ((markerReceive_active b rx ha).trans (if_pos hg))
    case good =>
      have hgood : markerReceive k b rx s = (s.countsMarker k b rx).goodMarker k b := by
        rw [markerReceive_active b rx ha, hg, if_neg (by decide), hh, if_neg Bool.false_ne_true]
      refine ⟨_, _, _, _, _, rfl, rfl, rfl, rfl, rfl, fun h => ?_, fun h => ?_⟩
      · exact next_of_runs hr hk (hgood.trans (State.goodMarker_tileFed h))
      · exact next_of_runs hr hk (hgood.trans (State.goodMarker_headFed h))
  case slots =>
    intro s k i hr hk hh ha hl h1 h2
    refine ⟨_, rfl, fun hv => ?_, fun hv => ⟨fun w hw => ?_, fun hw => ?_⟩⟩
    · exact next_of_runs hr hk (emptySlotArrive_noId hh ha hl h1 h2 hv)
    · exact next_of_runs hr hk (emptySlotArrive_rsp hh ha hl h1 h2 hv hw)
    · exact next_of_runs hr hk (emptySlotArrive_return hh ha hl h1 h2 hv hw)
  case epoch =>
    refine fun s hl => ⟨fun ht => next_of_live hl (if_pos ht), fun ht hp => ?_, fun ht hp => ⟨_, rfl, ?_⟩⟩
    · exact next_of_live hl ((epochAdvance_head ht).trans (if_pos hp))
    · exact next_of_live hl ((epochAdvance_head ht).trans (if_neg (Bool.eq_false_iff.mp hp)))
  case roster =>
    refine fun s k t hr hk => ⟨fun h => next_of_runs hr hk (rosterTimeout_unheard h), fun c hc ht => ⟨_, _, rfl, rfl, ?_⟩⟩
    exact next_of_runs hr hk (rosterTimeout_heard hc ht)

end Sys2Proof.Machine
end

section
/-! Every step keeps the canonical form of the byte stores and a low TEST_MODE strap (R58, R330, R348). -/

namespace Sys2Proof.Machine

theorem State.inv_iff_canonical {s : State} : s.inv = true ↔ Mem Canonical s := by
  simp [State.inv, Mem, Canonical, and_assoc]

/-- A step is an idle cycle or a command, and both keep what writes and resets keep. -/
theorem step_keeps_canonical {s t : State} (hs : Mem Canonical s) (h : step s = .next t) : Mem Canonical t := by
  unfold step at h
  split at h
  case h_1 => exact out_next (idle_keeps s hs) t h
  case h_2 c rest _ =>
    have hrest : Mem Canonical { s with pending := rest } := hs
    exact exec_keeps writesLm_canonical writesSdb_canonical resets_canonical c _ hrest t h

/-- Settles O3: `State.inv` is a property of the stores and the straps that every command keeps. -/
theorem invKept : Obligations.InvKept := by
  unfold Obligations.InvKept
  exact fun s t hs h => State.inv_iff_canonical.mpr (step_keeps_canonical (State.inv_iff_canonical.mp hs) h)

end Sys2Proof.Machine
end

section
/-! Stands and overlays that the device loads and unloads itself (R40, R45, R47, R58, R296). -/

namespace Sys2Proof.Machine

/-- An accepted descriptor answers what its opcode's meaning gives. -/
theorem next_of_accepts {s t : State} {d : Desc} {op : Nat} {role : OpRole} {f : State → State} (h : s.accepts d op role = true)
    (hf : f s = t) : onOp s d op role f = .next t := by
  rw [onOp_of_accepts f h, hf]

theorem State.lmBadIn_of_clean {s : State} (h : s.lmBad = []) (a len : Nat) : s.lmBadIn a len = false := by
  rw [State.lmBadIn, h]
  rfl

theorem State.readsLm_of_clean {s : State} (h : s.lmBad = []) (d : Desc) (op a len : Nat) (f : State) : s.readsLm d op a len f = f := by
  rw [State.readsLm, State.lmBadIn_of_clean h]
  rfl

theorem standLoad_index {s : State} {d : Desc} (hi : 7 < d.num 0 1) : standLoad d s = s.finish d 0x10 stFormat :=
  if_pos (by simp [hi])

section
variable {s : State} {d : Desc} (ho : d.only [(0, 0, 8), (8, 0, 64)] = true) (hi : d.num 0 1 ≤ 7)
include ho hi

theorem standLoad_address (ha : addrOk (d.num 8 8) 4096 64 = false) : standLoad d s = s.finish d 0x10 stAddress := by
  have hi' : ¬ 7 < d.num 0 1 := by omega
  simp [standLoad, ho, hi', ha]

theorem standLoad_inUse (ha : addrOk (d.num 8 8) 4096 64 = true) (hu : s.standInUse (d.num 0 1) = true) :
    standLoad d s = s.finish d 0x10 stStandInUse := by
  have hi' : ¬ 7 < d.num 0 1 := by omega
  simp [standLoad, ho, hi', ha, hu]

theorem standLoad_badHeader (ha : addrOk (d.num 8 8) 4096 64 = true) (hu : s.standInUse (d.num 0 1) = false)
    (hb : s.lmBadIn (d.num 8 8) 64 = true) : standLoad d s = s.lmUncorr.finish d 0x10 stEcc := by
  have hi' : ¬ 7 < d.num 0 1 := by omega
  simp [standLoad, ho, hi', ha, hu, hb]

section
variable (ha : addrOk (d.num 8 8) 4096 64 = true) (hu : s.standInUse (d.num 0 1) = false)
  (hlm : lmOk (d.num 8 8) (numAt (s.lmRead (d.num 8 8) 64) 12 4) = true) (hb : s.lmBad = [])
include ha hu hlm hb

theorem standLoad_rejected (hr : s.readStand (d.num 8 8) = none) :
    standLoad d s = (s.detect E.STP_STAND_REJECT).finish d 0x10 stStandFormat := by
  have hi' : ¬ 7 < d.num 0 1 := by omega
  simp [standLoad, ho, hi', ha, hu, hlm, State.lmBadIn_of_clean hb, State.readsLm_of_clean hb, hr]

theorem standLoad_taken {x : Stand} (hr : s.readStand (d.num 8 8) = some x) :
    standLoad d s = (s.setStand (d.num 0 1) (some x)).finish d 0x10 stOk := by
  have hi' : ¬ 7 < d.num 0 1 := by omega
  simp [standLoad, ho, hi', ha, hu, hlm, State.lmBadIn_of_clean hb, State.readsLm_of_clean hb, hr]

end

end

theorem standUnload_lawful {s : State} {d : Desc} (ho : d.only [(0, 0, 8)] = true) (hi : d.num 0 1 ≤ 7) :
    standUnload d s = if s.standInUse (d.num 0 1) then s.finish d 0x11 stStandInUse
      else (s.setStand (d.num 0 1) none).finish d 0x11 stOk := by
  have hi' : ¬ 7 < d.num 0 1 := by omega
  simp [standUnload, ho, hi']

section
variable {s : State} {d : Desc} (ho : d.only [(0, 0, 8), (1, 0, 1), (8, 0, 64)] = true) (hi : d.num 0 1 ≤ 63)
  (hf : d.flag 1 0 = false)
include ho hi hf

theorem overlayLoad_inUse (hu : s.ovlInUse (d.num 0 1) = true) :
    overlayLoad d s = (s.detect E.STP_OVERLAY_REJECT).finish d 0x12 stOverlayInUse := by
  have hi' : ¬ 63 < d.num 0 1 := by omega
  simp [overlayLoad, ho, hi', hf, hu]

theorem overlayLoad_unread (hu : s.ovlInUse (d.num 0 1) = false) (hr : (s.readOvl (d.num 8 8)).1 ≠ stOk) :
    overlayLoad d s = s.rejectOvl d (s.readOvl (d.num 8 8)).1 := by
  have hi' : ¬ 63 < d.num 0 1 := by omega
  simp [overlayLoad, ho, hi', hf, hu, hr]

theorem overlayLoad_suits (hu : s.ovlInUse (d.num 0 1) = false) (hr : (s.readOvl (d.num 8 8)).1 = stOk)
    (hs : s.ovlSuits (parseOvl (s.readOvl (d.num 8 8)).2) = true) :
    overlayLoad d s = (s.setOvl (d.num 0 1) (some (parseOvl (s.readOvl (d.num 8 8)).2))).finish d 0x12 stOk := by
  have hi' : ¬ 63 < d.num 0 1 := by omega
  simp [overlayLoad, ho, hi', hf, hu, hr, hs]

end

theorem stEcc_ne_stOk : stEcc ≠ stOk := by decide

theorem State.rejectOvl_ecc (s : State) (d : Desc) : s.rejectOvl d stEcc = s.lmUncorr.finish d 0x12 stEcc := rfl

theorem State.rejectOvl_failed {s : State} (d : Desc) {st : Nat} (h : st ≠ stEcc) :
    s.rejectOvl d st = (s.detect E.STP_OVERLAY_REJECT).finish d 0x12 st := by
  rw [State.rejectOvl, if_neg h]

theorem overlayUnload_lawful {s : State} {d : Desc} (ho : d.only [(0, 0, 8), (1, 0, 1)] = true) (hi : d.num 0 1 ≤ 63)
    (hf : d.flag 1 0 = false) : overlayUnload d s =
      if s.ovlInUse (d.num 0 1) then (s.detect E.STP_OVERLAY_REJECT).finish d 0x13 stOverlayInUse
      else (s.setOvl (d.num 0 1) none).finish d 0x13 stOk := by
  have hi' : ¬ 63 < d.num 0 1 := by omega
  simp [overlayUnload, ho, hi', hf]

/-- Settles O27: the checks of each opcode in their order, then what the stores take. -/
theorem standsAndOverlays : Obligations.StandsAndOverlays := by
  unfold Obligations.StandsAndOverlays
  refine ⟨?standLoad, ?standUnload, ?overlayLoad, ?overlayUnload⟩
  case standLoad =>
    refine fun s d hacc ho => ⟨fun hi => next_of_accepts hacc (standLoad_index hi),
      fun hi ha => next_of_accepts hacc (standLoad_address ho hi ha), fun hi ha => ⟨fun hu => ?_, fun hu hb => ?_, fun hu hlm hb => ?_⟩⟩
    · exact next_of_accepts hacc (standLoad_inUse ho hi ha hu)
    · exact next_of_accepts hacc (standLoad_badHeader ho hi ha hu hb)
    · exact ⟨fun hr => next_of_accepts hacc (standLoad_rejected ho hi ha hu hlm hb hr),
        fun x hr => next_of_accepts hacc (standLoad_taken ho hi ha hu hlm hb hr)⟩
  case standUnload => exact fun s d hacc ho hi => next_of_accepts hacc (standUnload_lawful ho hi)
  case overlayLoad =>
    refine fun s d hacc ho hi hf => ⟨fun hu => next_of_accepts hacc (overlayLoad_inUse ho hi hf hu),
      fun hu => ⟨fun b hr => ?_, fun st b hr h0 h5 => ?_, fun b hr hs => ?_⟩⟩
    · refine next_of_accepts hacc ((overlayLoad_unread ho hi hf hu (by rw [hr]; exact stEcc_ne_stOk)).trans ?_)
      rw [hr]
      exact s.rejectOvl_ecc d
    · refine next_of_accepts hacc ((overlayLoad_unread ho hi hf hu (by rw [hr]; exact h0)).trans ?_)
      rw [hr]
      exact State.rejectOvl_failed d h5
    · refine next_of_accepts hacc ((overlayLoad_suits ho hi hf hu (by rw [hr]; rfl) (by rw [hr]; exact hs)).trans ?_)
      rw [hr]
      rfl
  case overlayUnload => exact fun s d hacc ho hi hf => next_of_accepts hacc (overlayUnload_lawful ho hi hf)

end Sys2Proof.Machine
end

section
/-! The shadow bank: the guard its nine opcodes share, and the item each of them edits (R50, R53, R58, R80, R171, R183, R200, R216,
R217, R253, R392). -/

namespace Sys2Proof.Machine

/-! ### The guard -/

/-- Each of the nine SHADOW opcodes has the guard of a shadow edit around its own effect. -/
theorem exec_edit {i : Instr} (s : State) {d : Desc} {op : Nat} {role : OpRole} (h : descriptorOf i = some (d, op, role))
    (hlo : 0x14 ≤ op) (hhi : op ≤ 0x1C) : ∃ f, exec i s = onOp s d op role (onEdit d op f) := by
  cases i with
  | shadowStand | shadowOverlays | shadowLayer | shadowBuffer | shadowTables | shadowGlade | shadowPattern | shadowDimmer
  | shadowRevert => cases h; exact ⟨_, rfl⟩
  | _ => cases h <;> omega

theorem onEdit_locked {s : State} {d : Desc} (op : Nat) (f : State → State) (h : s.roleLocked d = true) :
    onEdit d op f s = s.finish d op stRoleLocked :=
  if_pos h

theorem onEdit_frozen {s : State} {d : Desc} (op : Nat) (f : State → State) (h : s.roleLocked d = false) (hf : s.frozen = true) :
    onEdit d op f s = s := by
  simp [onEdit, h, hf]

theorem onEdit_open {s : State} {d : Desc} (op : Nat) (f : State → State) (h : s.roleLocked d = false) (hf : s.frozen = false) :
    onEdit d op f s = f s := by
  simp [onEdit, h, hf]

/-- Settles O28: the guard's two cases, for each opcode that has it. -/
theorem shadowGuard : Obligations.ShadowGuard := by
  unfold Obligations.ShadowGuard
  intro i s d op role hd hlo hhi hacc
  obtain ⟨f, hf⟩ := exec_edit s hd hlo hhi
  rw [hf]
  exact ⟨fun hl => next_of_accepts hacc (onEdit_locked op f hl), fun hl hz => next_of_accepts hacc (onEdit_frozen op f hl hz)⟩

/-- An accepted shadow edit that nothing holds answers what its opcode makes of the bank. -/
theorem next_of_edit {s t : State} {d : Desc} {op : Nat} {role : OpRole} {f : State → State} (hl : s.roleLocked d = false)
    (hz : s.frozen = false) (hacc : s.accepts d op role = true) (hf : f s = t) : onOp s d op role (onEdit d op f) = .next t :=
  next_of_accepts hacc ((onEdit_open op f hl hz).trans hf)

/-! ### The items -/

theorem shadowStand_lawful {s : State} {d : Desc} (ho : d.only [(0, 0, 8)] = true) (hi : d.num 0 1 ≤ 7) : shadowStand d s =
    (((s.setShadowBank (s.rebuild s.stp.shadow (d.num 0 1) s.stp.shadow.ovl)).touch 1 511 0).afterRebuild s.stp.shadow).finish
      d 0x14 stOk := by
  have hi' : ¬ 7 < d.num 0 1 := by omega
  exact if_neg (by simp [ho, hi'])

theorem shadowOverlays_noStand {s : State} {d : Desc} (ho : d.only [(8, 0, 64)] = true) (hs : s.stp.shadow.stand = none) :
    shadowOverlays d s = (((s.setShadowBank { s.stp.shadow with ovl := BitVec.ofNat 64 (d.num 8 8) }).touch 2 511
      0).afterRebuild s.stp.shadow).finish d 0x15 stOk := by
  simp [shadowOverlays, ho, hs]

theorem shadowLayer_record {s : State} {d : Desc} (ht : d.num 1 1 = 0) (ho : d.only [(0, 0, 8), (1, 0, 8), (16, 0, 256)] = true)
    (hi : d.num 0 1 ≤ 7) (hl : layerOk (d.bytes 16 32) = true) :
    shadowLayer d s = (s.writeLayers (128 + 32 * d.num 0 1) (d.bytes 16 32)).finish d 0x16 stOk := by
  simp [shadowLayer, ht, ho, hi, hl]

theorem shadowBuffer_understory {s : State} {d : Desc} (ht : s.isTile = true) (hk : d.num 0 1 = 2) (hm : d.num 1 1 = 0)
    (hz : d.num 2 2 = 0) (ho : d.only [(0, 0, 8), (1, 0, 8), (2, 0, 9), (3, 7, 1), (8, 0, 64)] = true)
    (hb : d.bitsAt 15 4 4 = 0) : shadowBuffer d s =
      ((((s.setShadowBank { s.stp.shadow with under := s.stp.shadow.under.putFor 511 (underItem d) }).untouch 4 0).touch 4 511
        0).hostEdited).finish d 0x17 stOk := by
  simp [shadowBuffer, ht, State.isHead_of_isTile ht, hk, hm, hz, ho, hb]

/-- The edits of the pointers that SEL names, each an item of its own (R50, R217). -/
theorem shadowTables_first {s : State} {d : Desc} (hh : s.isHead = true) (ht : d.bitsAt 2 0 9 = 511) (hs : d.bitsAt 0 0 4 = 1)
    (ho : d.only [(0, 0, 4), (2, 0, 9), (8, 0, 64), (16, 0, 64), (24, 0, 64), (32, 0, 64)] = true)
    (hp : ptrOk (d.num 8 8) = true) : shadowTables d s =
      ((((s.setShadowBank { s.stp.shadow with ptrs := s.stp.shadow.ptrs.putPtrs 511 1 (d.bytes 0 40) }).untouch 5 0).touch 5 511
        0).hostEdited).finish d 0x18 stOk := by
  have hown : s.ownTile (d.bitsAt 2 0 9) = some 511 := by rw [State.ownTile, if_pos hh, ht]
  have hsel : ∀ k < 4, bit 1 k = (k == 0) := by decide
  simp [shadowTables, hown, hs, ho, List.range_succ, hsel, hp]

theorem shadowGlade_record {s : State} {d : Desc} (ht : d.num 1 1 = 0) (ho : d.only [(0, 0, 8), (1, 0, 8), (16, 0, 256)] = true)
    (hi : d.num 0 1 ≤ 15) (hg : gladeOk (d.bytes 16 32) = true) : shadowGlade d s =
      (((s.setShadowBank { s.stp.shadow with glades := s.stp.shadow.glades.write (32 * d.num 0 1) (d.bytes 16 32) }).touch 6 511
        (d.num 0 1)).hostEdited).finish d 0x19 stOk := by
  simp [shadowGlade, ht, ho, hi, hg]

theorem shadowPattern_region {s : State} {d : Desc} (ht : d.num 1 1 = 1) (ho : d.only [(0, 0, 8), (1, 0, 8), (16, 0, 128)] = true)
    (hi : d.num 0 1 ≤ 7) (hr : regionOk (d.bytes 16 16) = true) : shadowPattern d s =
      (((s.setShadowBank { s.stp.shadow with pats := s.stp.shadow.pats.write (48 * d.num 0 1 + 32) (d.bytes 16 16) }).touch 8 511
        (d.num 0 1)).hostEdited).finish d 0x1A stOk := by
  simp [shadowPattern, ht, ho, hi, hr]

theorem shadowDimmer_neither {s : State} {d : Desc} (hs : d.bitsAt 4 0 2 = 0) : shadowDimmer d s = s.finish d 0x1B stFormat :=
  if_pos (by simp [hs])

section
variable {s : State} {d : Desc} (ho : d.only [(0, 0, 16), (2, 0, 16), (4, 0, 2)] = true) (hk : d.num 2 2 ≠ 0)
include ho hk

theorem shadowDimmer_level (hs : d.bitsAt 4 0 2 = 1) : shadowDimmer d s = (s.putM (d.num 0 2)).hostEdited.finish d 0x1B stOk := by
  simp [shadowDimmer, ho, hk, hs, bit]

theorem shadowDimmer_scale (hs : d.bitsAt 4 0 2 = 2) : shadowDimmer d s = (s.putK (d.num 2 2)).hostEdited.finish d 0x1B stOk := by
  simp [shadowDimmer, ho, hk, hs, bit]

end

theorem shadowRevert_lawful {s : State} {d : Desc} (ho : d.only [] = true) :
    shadowRevert d s = s.revertShadow.finish d 0x1C stOk := by
  simp [shadowRevert, ho]

/-- Settles O29: each opcode's own effect, behind the guard. -/
theorem shadowItems : Obligations.ShadowItems := by
  unfold Obligations.ShadowItems
  refine fun s d hl hz => ⟨?stand, ?overlays, ?layer, ?buffer, ?tables, ?glade, ?pattern, ?dimmer, ?revert⟩
  case stand => exact fun hacc ho hi => next_of_edit hl hz hacc (shadowStand_lawful ho hi)
  case overlays => exact fun hacc ho hs => next_of_edit hl hz hacc (shadowOverlays_noStand ho hs)
  case layer => exact fun hacc ht ho hi hr => next_of_edit hl hz hacc (shadowLayer_record ht ho hi hr)
  case buffer => exact fun hacc ht hk hm h2 ho hb => next_of_edit hl hz hacc (shadowBuffer_understory ht hk hm h2 ho hb)
  case tables => exact fun hacc hh ht hs ho hp => next_of_edit hl hz hacc (shadowTables_first hh ht hs ho hp)
  case glade => exact fun hacc ht ho hi hg => next_of_edit hl hz hacc (shadowGlade_record ht ho hi hg)
  case pattern => exact fun hacc ht ho hi hr => next_of_edit hl hz hacc (shadowPattern_region ht ho hi hr)
  case dimmer =>
    exact fun hacc ho hk => ⟨fun hs => next_of_edit hl hz hacc (shadowDimmer_neither hs),
      fun hs => next_of_edit hl hz hacc (shadowDimmer_level ho hk hs),
      fun hs => next_of_edit hl hz hacc (shadowDimmer_scale ho hk hs)⟩
  case revert => exact fun hacc ho => next_of_edit hl hz hacc (shadowRevert_lawful ho)

end Sys2Proof.Machine
end

section
/-! COMMIT and the opcodes about it: its place in the order, cancelling, exclusion and status (R48, R49, R54, R56 - R58, R80). -/

namespace Sys2Proof.Machine

/-- The commit that a COMMIT descriptor asks for, as it waits for its turn (R49, R57). -/
def queuedCommit (d : Desc) : Commit :=
  { src := if d.mbx then .mailbox else .host, desc := d, asap := d.flag 4 0, loc := d.flag 4 1, target := BitVec.ofNat 32 (d.num 0 4)
    nakAddr := d.num 8 8, nakMax := d.num 16 2, id := 0, phase := 0, sentAt := 0, required := [], acks := [], naks := [], postp := 0,
    frame := 0 }

/-- A target too far ahead of the frame in progress (R48). -/
def State.targetTooFar (s : State) (d : Desc) : Bool :=
  !d.flag 4 0 && later32 (d.num 0 4) s.frameNow.toNat && decide (4096 < diff32 (d.num 0 4) s.frameNow.toNat)

theorem State.targetTooFar_eq_false {s : State} {d : Desc} (h : d.flag 4 0 = true ∨ later32 (d.num 0 4) s.frameNow.toNat = false ∨
    diff32 (d.num 0 4) s.frameNow.toNat ≤ 4096) : s.targetTooFar d = false := by
  rcases h with h | h | h <;> simp [State.targetTooFar, h]

/-- With lawful operands a COMMIT is judged by its sender's role and its target, and then takes its place. -/
theorem commit_lawful {s : State} {d : Desc} (ho : d.only [(0, 0, 32), (4, 0, 2), (8, 0, 64), (16, 0, 16)] = true)
    (hm : d.num 16 2 ≤ 512) (ha : d.num 8 8 % 8 = 0) (hr : d.num 8 8 = 0 ∨ mbxRefuses d (d.num 8 8) (4 * d.num 16 2) = false) :
    commit d s =
      if s.roleLocked d then s.finish d 0x20 stRoleLocked
      else if s.targetTooFar d then s.finish d 0x20 stCommitRange
      else { s.starts d with stp := { s.stp with commits := s.stp.commits ++ [queuedCommit d] } } := by
  have hm' : ¬ 512 < d.num 16 2 := by omega
  have hr' : (d.num 8 8 != 0 && mbxRefuses d (d.num 8 8) (4 * d.num 16 2)) = false := by rcases hr with hr | hr <;> simp [hr]
  simp only [commit, ho, ha, hr', hm', Bool.not_true, Bool.or_self, bne_self_eq_false, decide_false, Bool.false_eq_true, if_false]
  rfl

theorem commitCancel_none {s : State} {d : Desc} (ho : d.only [(0, 0, 16)] = true) (hc : s.stp.commits = []) :
    commitCancel d s = s.finish d 0x21 stTooLate := by
  simp [commitCancel, ho, hc]

/-- COMMIT_CANCEL acts on the wall commit under way that it names, before its decision (R56). -/
theorem commitCancel_first {s : State} {d : Desc} {c : Commit} {rest : List Commit} (ho : d.only [(0, 0, 16)] = true)
    (hc : s.stp.commits = c :: rest) : commitCancel d s =
      if c.loc = false ∧ (c.phase = 1 ∨ c.phase = 2) ∧ c.id.toNat = d.num 0 2
        then (s.abortCommit c stAbortCancel []).finish d 0x21 stOk else s.finish d 0x21 stTooLate := by
  simp [commitCancel, ho, hc, and_assoc]

theorem excludeSet_lawful {s : State} {d : Desc} (ho : d.only [(0, 0, 9), (2, 0, 1)] = true) : excludeSet d s =
    (s.wr (F.STP_EXCL (d.bitsAt 0 0 9 / 32)) (if d.flag 2 0
      then setBit (s.rd (F.STP_EXCL (d.bitsAt 0 0 9 / 32))) (d.bitsAt 0 0 9 % 32)
      else clrBit (s.rd (F.STP_EXCL (d.bitsAt 0 0 9 / 32))) (d.bitsAt 0 0 9 % 32))).finish d 0x22 stOk :=
  if_neg (by simp [ho])

theorem commitStatus_lawful {s : State} {d : Desc} (ho : d.only [] = true) :
    commitStatus d s = s.finish d 0x23 stOk s.commitResult :=
  if_neg (by simp [ho])

theorem State.commitResult_never {s : State} (hc : s.stp.commits = []) (hl : s.stp.lastCommit = none) : s.commitResult = 0 := by
  simp [State.commitResult, hc, hl]

theorem State.commitResult_last {s : State} {id : BitVec 16} {ph po : Nat} {tgt : Word} (hc : s.stp.commits = [])
    (hl : s.stp.lastCommit = some (id, ph, po, tgt)) :
    s.commitResult = id.toNat + 65536 * ph + 2 ^ 19 * (po % 16) + 2 ^ 32 * tgt.toNat := by
  simp [State.commitResult, hc, hl]

/-- Settles O30: each opcode's judgement of lawful operands, in its order. -/
theorem commitOrders : Obligations.CommitOrders := by
  unfold Obligations.CommitOrders
  refine ⟨?commit, ?cancel, ?exclude, ?status⟩
  case commit =>
    refine fun s d hacc ho hm ha hr => ⟨fun hl => ?_, fun hl hf hlat hfar => ?_, fun hl hnear => ⟨queuedCommit d, _, ?_, rfl, ?_⟩⟩
    · exact next_of_accepts hacc ((commit_lawful ho hm ha hr).trans (if_pos hl))
    · refine next_of_accepts hacc ((commit_lawful ho hm ha hr).trans ?_)
      rw [hl, if_neg Bool.false_ne_true]
      exact if_pos (by simp [State.targetTooFar, hf, hlat, hfar])
    · refine next_of_accepts hacc ((commit_lawful ho hm ha hr).trans ?_)
      rw [hl, if_neg Bool.false_ne_true, State.targetTooFar_eq_false hnear]
      rfl
    · exact ⟨rfl, rfl, rfl, rfl, rfl, rfl, rfl, rfl⟩
  case cancel =>
    refine fun s d hacc ho => ⟨fun hc => next_of_accepts hacc (commitCancel_none ho hc), fun c rest hc => ⟨fun hlate => ?_,
      fun hloc hph hid => ?_⟩⟩
    · refine next_of_accepts hacc ((commitCancel_first ho hc).trans (if_neg ?_))
      rintro ⟨hloc, hph, hid⟩
      rcases hlate with h | h | h | h
      · rw [hloc] at h
        cases h
      · omega
      · omega
      · exact h hid
    · exact next_of_accepts hacc ((commitCancel_first ho hc).trans (if_pos ⟨hloc, hph, hid⟩))
  case exclude =>
    rintro s d _ hacc ho rfl
    exact next_of_accepts hacc (excludeSet_lawful ho)
  case status =>
    refine fun s d hacc ho hc => ⟨fun hl => ?_, fun id ph po tgt hl => ?_⟩
    · exact next_of_accepts hacc ((commitStatus_lawful ho).trans (congrArg _ (State.commitResult_never hc hl)))
    · exact next_of_accepts hacc ((commitStatus_lawful ho).trans (congrArg _ (State.commitResult_last hc hl)))

end Sys2Proof.Machine
end

section
/-! The phases of a wall commit on the head that decides it (R48, R49, R51, R52, R55). -/

namespace Sys2Proof.Machine

/-- A command of the engines answers, while they run, what its meaning gives (R316). -/
theorem next_of_onRun {s t : State} {f : State → State} (hr : s.runs = true) (h : f s = t) : onRun s f = .next t := by
  rw [onRun_of_runs f hr, h]

theorem next_of_takes {s t : State} {m : RetMsg} {kind : Nat} {f : State → State} (hm : s.takes m kind = true)
    (h : f (s.arrived m) = t) : onRet m kind f s = .next t := by
  rw [onRet_of_takes f hm, h]

theorem State.setCommit_of_cons {s : State} {c₀ : Commit} {rest : List Commit} (h : s.stp.commits = c₀ :: rest) (c : Commit) :
    s.setCommit c = { s with stp := { s.stp with commits := c :: rest } } := by
  rw [State.setCommit, h]

/-! ### Prepare -/

section
variable {s : State} {c : Commit} {rest : List Commit} (hc : s.stp.commits = c :: rest) (hp : c.phase = 0)
  (hl : s.isLocal c = false) (hz : s.frozen = false)
include hc hp hl hz

theorem commitPrepare_fails (hj : s.judgeOwn s.stp.shadow s.shadowMode ≠ 0) : commitPrepare s =
    s.endCommit c stAbortNak 0 [(511, s.judgeOwn s.stp.shadow s.shadowMode)] := by
  simp [commitPrepare, hc, hp, hl, hz, hj]

/-- With no port Active there is no tile to ask, and the commit awaits its Cutoff (R49, R51). -/
theorem commitPrepare_alone (hj : s.judgeOwn s.stp.shadow s.shadowMode = 0) (ha : s.anyActive = false) : commitPrepare s =
    ({ s with stp := { s.stp with
      commits := { c with id := s.stp.nextId, phase := 2, sentAt := s.core, required := [] } :: rest,
      nextId := s.stp.nextId + 1 } }.wr F.STP_STATE_FROZEN 1) := by
  simp [commitPrepare, State.setCommit, hc, hp, hl, hz, hj, ha]

end

/-! ### The Cutoff -/

/-- The state at the Cutoff of the fixed frame: the exclude list as it then stands is in force (R51, R55). -/
def State.atCutoff (s : State) (f : FixedStart) : State := (s.advance (f.cycle - f.lead - s.core)).takeExcl

/-- The required tiles that a commit still misses an ACK of (R51). -/
def State.missing (s : State) (c : Commit) : List Nat := c.required.filter (fun t => !s.excluded t && !c.acks.contains t)

/-- The cycle from which the ACK window of a commit is over (R51). -/
def State.ackBy (s : State) (c : Commit) : Nat := c.sentAt + s.rd F.STP_CFG_ACK_WIN * 16896

/-- The exclude list that takes effect is all that changes. -/
theorem State.takeExcl_eq (s : State) : ∃ e, s.takeExcl = { s with stp := { s.stp with excl := e } } := by
  unfold State.takeExcl
  extract_lets n
  exact ⟨_, rfl⟩

theorem State.atCutoff_frame (s : State) (f : FixedStart) : (s.atCutoff f).regs = s.regs ∧ (s.atCutoff f).power = s.power ∧
    (s.atCutoff f).pair = s.pair ∧ (s.atCutoff f).stp.commits = s.stp.commits := by
  obtain ⟨e, he⟩ := (s.advance (f.cycle - f.lead - s.core)).takeExcl_eq
  rw [State.atCutoff, he]
  exact ⟨rfl, rfl, rfl, rfl⟩

theorem State.settlePrepare_of_sent {s : State} {c : Commit} {rest : List Commit} (hc : s.stp.commits = c :: rest)
    (hp : c.phase = 2) : s.settlePrepare = s := by
  simp [State.settlePrepare, hc, hp]

theorem State.missing_of_regs {s t : State} (h : t.regs = s.regs) (c : Commit) : t.missing c = s.missing c := by
  simp only [State.missing, State.excluded, State.rd_regs h]

theorem State.ackBy_of_regs {s t : State} (h : t.regs = s.regs) (c : Commit) : t.ackBy c = s.ackBy c := by
  simp only [State.ackBy, State.rd_regs h]

theorem State.authority_of_regs {s t : State} (h : t.regs = s.regs) (hp : t.power = s.power) : t.authority = s.authority := by
  simp only [State.authority, State.isPair, State.side, hp, State.claims, State.on, State.rd_regs h]

/-- On a head that decides, the Cutoff of the fixed frame decides, waits, postpones or aborts a commit under way (R51). -/
theorem cutoff_decides {s u : State} {c : Commit} {rest : List Commit} {f : FixedStart} (hh : s.isHead = true)
    (ha : s.authority = true) (ht : s.pair.takeover = false) (hc : s.stp.commits = c :: rest) (hl : c.loc = false)
    (hp : c.phase = 2) (has : c.asap = true) (hf : s.frames.fixed = some f) (hr : c.required ≠ []) (hu : s.atCutoff f = u) :
    cutoff s =
      if s.missing c = [] then { u with stp := { u.stp with
        commits := { c with phase := 3, frame := f.num } :: rest, fieldId := c.id, fieldState := 1, fieldTarget := f.num } }
      else if f.cycle - f.lead < s.ackBy c then u
      else if c.postp < s.rd F.STP_CFG_POSTPONE then { u with stp := { u.stp with
        commits := { c with postp := c.postp + 1 } :: rest } }
      else u.abortCommit c stAbortTimeout ((s.missing c).map (fun t => (t, 0xFF))) := by
  obtain ⟨hregs, hpower, hpair, hcommits⟩ := s.atCutoff_frame f
  rw [hu] at hregs hpower hpair hcommits
  rw [hc] at hcommits
  have hsettle : (s.advanceTo (f.cycle - f.lead)).takeExcl.settlePrepare = u := by
    rw [← State.settlePrepare_of_sent hcommits hp, ← hu]
    rfl
  have htile : u.isTile = false := State.isTile_of_isHead ((State.isHead_of_power hpower).trans hh)
  have hauth : u.authority = true := (State.authority_of_regs hregs hpower).trans ha
  have htake : u.pair.takeover = false := by rw [hpair, ht]
  rw [← State.missing_of_regs hregs, ← State.ackBy_of_regs hregs, ← State.rd_regs hregs]
  simp only [cutoff, hf, hc, hsettle, hcommits, List.headD_cons, State.setCommit_of_cons hcommits, htile, hauth, htake, hl, hp, has]
  refine (if_neg (by simp)).trans (if_congr List.isEmpty_iff (if_neg (by simp [hr])) (if_congr ?_ rfl rfl))
  rw [Bool.not_eq_true', decide_eq_false_iff_not, Nat.not_le]
  rfl

/-! ### Replies -/

theorem commitReply_required {s : State} {m : RetMsg} {c : Commit} {rest : List Commit} (hc : s.stp.commits = c :: rest)
    (hl : c.loc = false) (hp : c.phase = 1 ∨ c.phase = 2) (hid : c.id = BitVec.ofNat 16 (numAt m.body 2 2))
    (hreq : m.tile ∈ c.required) (hack : m.tile ∉ c.acks) : commitReply m s =
      if numAt m.body 4 1 = 0 then { s with stp := { s.stp with commits := { c with acks := m.tile :: c.acks } :: rest } }
      else if s.stp.excl.getLsbD m.tile then s
      else if !s.authority then s.setCommit { c with naks := c.naks ++ [(m.tile, numAt m.body 4 1)] }
      else s.abortCommit c stAbortNak [(m.tile, numAt m.body 4 1)] := by
  have h0 : c.phase ≠ 0 := by omega
  have h3 : ¬ 3 ≤ c.phase := by omega
  simp only [commitReply, hc, State.setCommit]
  simp [hl, h0, h3, ← hid, hreq, hack]

/-- Settles O31: each phase by the outcome of its judgement. -/
theorem commitPhases : Obligations.CommitPhases := by
  unfold Obligations.CommitPhases
  refine ⟨?prepare, ?cutoff, ?reply⟩
  case prepare =>
    refine fun s c rest hr hh hc hp hl hz => ⟨?_, fun hj ha => next_of_onRun hr (commitPrepare_alone hc hp hl hz hj ha)⟩
    rintro _ rfl hj
    exact next_of_onRun hr (commitPrepare_fails hc hp hl hz hj)
  case cutoff =>
    rintro s c rest f _ hr hh ha ht hc hl hp has hf hreq rfl
    have hcut := cutoff_decides hh ha ht hc hl hp has hf hreq rfl
    refine ⟨_, rfl, fun hm => ?_, fun hm hw => ?_, fun hm hw => ⟨fun hpost => ?_, fun hpost => ?_⟩⟩
    · exact next_of_onRun hr (hcut.trans (if_pos hm))
    · exact next_of_onRun hr (hcut.trans ((if_neg hm).trans (if_pos hw)))
    · exact next_of_onRun hr (hcut.trans ((if_neg hm).trans ((if_neg (Nat.not_lt.mpr hw)).trans (if_pos hpost))))
    · exact next_of_onRun hr (hcut.trans ((if_neg hm).trans ((if_neg (Nat.not_lt.mpr hw)).trans (if_neg (Nat.not_lt.mpr hpost)))))
  case reply =>
    intro s c rest m hm hc hl hp hid hreq hack
    have hrep := commitReply_required hc hl hp hid hreq hack
    refine ⟨fun h0 => next_of_takes hm (hrep.trans (if_pos h0)), fun h0 he => ?_, fun h0 he ha => ?_⟩
    · exact next_of_takes hm (hrep.trans ((if_neg h0).trans (if_pos he)))
    · exact next_of_takes hm (hrep.trans ((if_neg h0).trans ((if_neg (Bool.eq_false_iff.mp he)).trans (if_neg (by simp [ha])))))

end Sys2Proof.Machine
end

section
/-! Local commits, a tile's answer to a prepare, and the end of a retiring bank (R38, R48 - R50, R52, R57, R176). -/

namespace Sys2Proof.Machine

/-! ### Local commits -/

section
variable {s : State} {c : Commit} {rest : List Commit} (hh : s.isHead = true) (hc : s.stp.commits = c :: rest)
  (hp : c.phase = 0) (hl : s.isLocal c = true) (hz : s.frozen = false)
include hh hc hp hl hz

theorem localCommitDecide_tileItems (hloc : c.loc = true) (hd : s.stp.dirty ≠ []) :
    localCommitDecide s = s.endCommit c stCommitRange 0 [] := by
  simp [localCommitDecide, hc, hp, hl, hz, hh, hloc, hd]

/-- Past its range a local commit of a head goes by the head's judgement of its own part (R48, R49). -/
theorem localCommitDecide_judged (hd : c.loc = false ∨ s.stp.dirty = []) (h8 : s.judgeOwn s.stp.shadow s.shadowMode ≠ 8) :
    localCommitDecide s =
      if s.judgeOwn s.stp.shadow s.shadowMode = 0 then { s with stp := { s.stp with
        commits := { c with loc := true, phase := 3, id := BitVec.ofNat 16 (s.rd F.STP_STATE_COMMIT_ID),
                            frame := s.frameFor c } :: rest } }.wr F.STP_STATE_FROZEN 1
      else s.endCommit c stAbortNak 0 [(511, s.judgeOwn s.stp.shadow s.shadowMode)] := by
  have ht := State.isTile_of_isHead hh
  have hd' : (c.loc && s.isHead && !s.stp.dirty.isEmpty) = false := by rcases hd with h | h <;> simp [h]
  have hown : s.ownEntry = 511 := by simp [State.ownEntry, ht]
  rw [localCommitDecide, hc]
  by_cases h0 : s.judgeOwn s.stp.shadow s.shadowMode = 0
  · simp [hl, hp, hz, hd', ht, h0, State.detectIf, State.setCommit_of_cons hc]
  · simp [hl, hp, hz, hd', ht, h0, h8, hown, State.detectIf]

end

/-! ### A tile's answer to a prepare -/

/-- The prepare announces a layer table (R50). -/
def prepNeedsTable (bs : Bytes) : Bool :=
  match parsePrep (bs.length + 1) bs with
  | some l => l.any (fun r => r.item == 3)
  | none => false

/-- The layer table that the tile holds for a commit (R50). -/
def State.tableFor (s : State) (id : BitVec 16) : Option Bytes :=
  match s.stp.layerIn with
  | some (i, t) => if i = id then some t else none
  | none => none

/-- The tile has taken up a prepare to judge it: nothing of it is held or staged any more (R49). -/
def State.prepTaken (s : State) : State := { s with stp := { s.stp with prepIn := none, layerIn := none, staged := none } }

/-- What the tile that has taken up a prepare stages and answers (R49, R52). -/
def State.answersPrep (u : State) (id : BitVec 16) (bs tbl : Bytes) : State :=
  if u.rd F.STP_STATE_COMMIT_ID != u.wallId then u.replyCommit id 9
  else
    let r := u.judgePrep bs tbl
    let u := u.detectIf r.1.full E.CNP_STORE_FULL
    let u := if (r.1.reason : Nat) == 8 then u.lmUncorr else u
    if r.1.reason != 0 then u.replyCommit id r.1.reason
    else
      let u := { u with stp := { u.stp with staged := some ⟨id, r.2, none⟩ } }
      ((u.wr F.STP_STATE_FROZEN 1).showInterest).replyCommit id 0

theorem commitValidate_held {s : State} {id : BitVec 16} {bs : Bytes} (hp : s.stp.prepIn = some (id, bs))
    (hs : s.stp.staged = none) : commitValidate s =
      if s.isHead || s.stp.retiring.isSome || (prepNeedsTable bs && (s.tableFor id).isNone) then s
      else s.prepTaken.answersPrep id bs ((s.tableFor id).getD []) := by
  have hst : (if s.stp.staged.isSome then s.unstage else s) = s := by
    rw [hs]
    rfl
  rw [commitValidate, hst, hp]
  rfl

/-- A tile with no bank retiring takes up the prepare it holds once it has the table that the prepare announces. -/
theorem commitValidate_whole {s : State} {id : BitVec 16} {bs : Bytes} (ht : s.isTile = true)
    (hp : s.stp.prepIn = some (id, bs)) (hs : s.stp.staged = none) (hr : s.stp.retiring = none)
    (hw : prepNeedsTable bs = false ∨ (s.tableFor id).isNone = false) :
    commitValidate s = s.prepTaken.answersPrep id bs ((s.tableFor id).getD []) := by
  refine (commitValidate_held hp hs).trans (if_neg ?_)
  rcases hw with h | h <;> simp [State.isHead_of_isTile ht, hr, h]

theorem prepNeedsTable_malformed {bs : Bytes} (hb : parsePrep (bs.length + 1) bs = none) : prepNeedsTable bs = false := by
  rw [prepNeedsTable, hb]

theorem prepNeedsTable_parsed {bs : Bytes} {l : List PrepRec} (hb : parsePrep (bs.length + 1) bs = some l) :
    prepNeedsTable bs = l.any (fun r => r.item == 3) := by
  rw [prepNeedsTable, hb]

theorem State.tableFor_none {s : State} (id : BitVec 16) (h : s.stp.layerIn = none) : s.tableFor id = none := by
  rw [State.tableFor, h]

theorem State.tableFor_same {s : State} {id : BitVec 16} {t : Bytes} (h : s.stp.layerIn = some (id, t)) :
    s.tableFor id = some t := by
  simp [State.tableFor, h]

theorem commitValidate_table {s : State} {id : BitVec 16} {bs tbl : Bytes} {l : List PrepRec} (ht : s.isTile = true)
    (hp : s.stp.prepIn = some (id, bs)) (hs : s.stp.staged = none) (hr : s.stp.retiring = none)
    (hb : parsePrep (bs.length + 1) bs = some l)
    (hl : (l.any (fun r => r.item == 3) = false ∧ s.stp.layerIn = none ∧ tbl = []) ∨ s.stp.layerIn = some (id, tbl)) :
    commitValidate s = s.prepTaken.answersPrep id bs tbl := by
  rcases hl with ⟨hn, hl, rfl⟩ | hl
  · rw [commitValidate_whole ht hp hs hr (.inl ((prepNeedsTable_parsed hb).trans hn)), State.tableFor_none id hl]
    rfl
  · have h := State.tableFor_same hl
    rw [commitValidate_whole ht hp hs hr (.inr (by rw [h]; rfl)), h]
    rfl

theorem State.answersPrep_otherId {u : State} {id : BitVec 16} {bs tbl : Bytes} (h : u.rd F.STP_STATE_COMMIT_ID ≠ u.wallId) :
    u.answersPrep id bs tbl = u.replyCommit id 9 :=
  if_pos (by simpa using h)

theorem State.answersPrep_fails {u : State} {id : BitVec 16} {bs tbl : Bytes} {why : Nat} {b : Bank}
    (h : u.rd F.STP_STATE_COMMIT_ID = u.wallId) (h0 : why ≠ 0) (h8 : why ≠ 8) (hj : u.judgePrep bs tbl = (⟨why, false⟩, b)) :
    u.answersPrep id bs tbl = u.replyCommit id why := by
  simp [State.answersPrep, h, hj, State.detectIf, h0, h8]

theorem State.answersPrep_passes {u : State} {id : BitVec 16} {bs tbl : Bytes} {b : Bank}
    (h : u.rd F.STP_STATE_COMMIT_ID = u.wallId) (hj : u.judgePrep bs tbl = (⟨0, false⟩, b)) : u.answersPrep id bs tbl =
      ((({ u with stp := { u.stp with staged := some ⟨id, b, none⟩ } } : State).wr F.STP_STATE_FROZEN 1).showInterest).replyCommit
        id 0 := by
  simp [State.answersPrep, h, hj, State.detectIf]

theorem State.judgePrep_malformed {u : State} {bs : Bytes} (tbl : Bytes) (hb : parsePrep (bs.length + 1) bs = none) :
    u.judgePrep bs tbl = (⟨4, false⟩, u.stp.shadow) := by
  rw [State.judgePrep, hb]

/-! ### The retiring bank -/

theorem State.freeLines_stp (s : State) : s.freeLines.stp = s.stp := by
  unfold State.freeLines
  rfl

/-- The shadow bank is a copy of the active one again, frozen where a staged bank waits (R38, R53). -/
theorem State.finishRetire_eq {s u : State} (h : State.freeLines { s with stp := { s.stp with
    shadow := { s.stp.active with rws := [] }, retiring := none } } = u) : s.finishRetire =
      State.showShadow ((u.wr F.STP_STATE_RETIRING 0).wr F.STP_STATE_FROZEN (if s.stp.staged = none then 0 else 1)) := by
  have hst : u.stp.staged = s.stp.staged := by
    rw [← h, State.freeLines_stp]
  have hn : b2n u.stp.staged.isSome = if s.stp.staged = none then 0 else 1 := by
    rw [hst]
    cases s.stp.staged <;> rfl
  rw [State.finishRetire, h, ← hn]

theorem State.retireIfDone_of_none {s : State} (h : s.stp.retiring = none) : s.retireIfDone = s :=
  if_neg (by simp [h])

theorem State.retireIfDone_of_some {s : State} {b : Bank} (h : s.stp.retiring = some b) :
    s.retireIfDone = if s.oldWork then s else s.finishRetire := by
  rw [State.retireIfDone, h]
  cases s.oldWork <;> rfl

/-- Settles O32: the head's judgement, the tile's verdict, and whether earlier work still reads the retiring bank. -/
theorem localCommits : Obligations.LocalCommits := by
  unfold Obligations.LocalCommits
  refine ⟨?decide, ?validate, ?retire, fun s hr hn => next_of_onRun hr (State.retireIfDone_of_none hn)⟩
  case decide =>
    refine fun s c rest hr hh hc hp hl hz => ⟨fun hloc hd => ?_, fun hd => ⟨fun h0 => ?_, ?_⟩⟩
    · exact next_of_onRun hr (localCommitDecide_tileItems hh hc hp hl hz hloc hd)
    · exact next_of_onRun hr ((localCommitDecide_judged hh hc hp hl hz hd (by omega)).trans (if_pos h0))
    · rintro _ rfl h0 h8
      exact next_of_onRun hr ((localCommitDecide_judged hh hc hp hl hz hd h8).trans (if_neg h0))
  case validate =>
    refine fun s id bs hr ht hp hs hret => ⟨s.prepTaken, rfl, fun hb => ?_, fun l tbl hb hl => ?_⟩
    · have hv := commitValidate_whole ht hp hs hret (.inl (prepNeedsTable_malformed hb))
      refine ⟨fun h => next_of_onRun hr (hv.trans (State.answersPrep_otherId h)), fun h => next_of_onRun hr (hv.trans ?_)⟩
      exact State.answersPrep_fails h (by decide) (by decide) (State.judgePrep_malformed _ hb)
    · have hv := commitValidate_table ht hp hs hret hb hl
      refine ⟨fun h => next_of_onRun hr (hv.trans (State.answersPrep_otherId h)), fun h b => ⟨fun hj => ⟨_, rfl, ?_⟩, ?_⟩⟩
      · exact next_of_onRun hr (hv.trans (State.answersPrep_passes h hj))
      · exact fun why h0 h8 hj => next_of_onRun hr (hv.trans (State.answersPrep_fails h h0 h8 hj))
  case retire =>
    refine fun s b hr hb => ⟨fun ho => ?_, fun ho => ⟨_, rfl, ?_⟩⟩
    · exact next_of_onRun hr ((State.retireIfDone_of_some hb).trans (if_pos ho))
    · exact next_of_onRun hr ((State.retireIfDone_of_some hb).trans ((if_neg (Bool.eq_false_iff.mp ho)).trans
        (State.finishRetire_eq rfl)))

end Sys2Proof.Machine
end

section
/-! Bands and passes: judging, composing and abandoning them, a head's preview pass, the dispatch of a due entry and the end of a
host-layer fetch (R43, R44, R143, R178, R180, R181, R185, R193, R213, R231, R315). -/

namespace Sys2Proof.Machine

/-! ### Judging a band -/

section
variable {s : State} {p : Pass} {b : Nat} {pl : Place} (hp : s.toJudge b = some p) (hpl : s.placeOf p.bank = some pl)
include hp hpl

/-- A band without rows needs no judgment; one that is ready, or of the whole grid, is judged now, any other at its deadline. -/
theorem bandJudgment_placed : bandJudgment b s =
    if p.rolling && pl.empty b then s
    else if s.bandReady p b || !p.rolling then s.judgeBand p b
    else (s.advanceTo (p.fs + pl.dl.getD b 0)).judgeBand p b := by
  simp only [bandJudgment, hp, hpl]

theorem bandJudgment_empty (hr : p.rolling = true) (he : pl.empty b = true) : bandJudgment b s = s :=
  (bandJudgment_placed hp hpl).trans (if_pos (by simp [hr, he]))

theorem bandJudgment_now (h : p.rolling = false ∨ (pl.empty b = false ∧ s.bandReady p b = true)) :
    bandJudgment b s = s.judgeBand p b := by
  refine (bandJudgment_placed hp hpl).trans ((if_neg ?_).trans (if_pos ?_)) <;> rcases h with h | ⟨he, hb⟩ <;> simp [*]

theorem bandJudgment_atDeadline (hr : p.rolling = true) (he : pl.empty b = false) (hb : s.bandReady p b = false) :
    bandJudgment b s = (s.advance (p.fs + pl.dl.getD b 0 - s.core)).judgeBand p b :=
  (bandJudgment_placed hp hpl).trans ((if_neg (by simp [he])).trans (if_neg (by simp [hr, hb])))

end

/-! ### What the steps of a composition leave alone -/

/-- Local Memory, with what is known of its codewords, is all in which two states may differ. -/
def State.sameButLm (s t : State) : Prop := t = { s with lm := t.lm, lmBad := t.lmBad }

theorem State.sameButLm_refl (s : State) : s.sameButLm s := rfl

theorem State.sameButLm_trans {s t u : State} (h : s.sameButLm t) (k : t.sameButLm u) : s.sameButLm u := by
  unfold State.sameButLm at *
  rw [k, h]

theorem State.sameButLm_lmWrite {s t : State} (h : s.sameButLm t) (a : Nat) (bs : Bytes) : s.sameButLm (t.lmWrite a bs) :=
  State.sameButLm_trans h rfl

theorem State.sameButLm_foldl {α : Type} {s : State} {f : State → α → State} (hf : ∀ t x, s.sameButLm t → s.sameButLm (f t x))
    (l : List α) : s.sameButLm (l.foldl f s) :=
  List.foldlRecOn (motive := s.sameButLm) l f s.sameButLm_refl fun t ht x _ => hf t x ht

/-- Correcting a lamp writes its emitters' words and nothing else (R208, R230). -/
theorem State.sameButLm_correctLamp {s t : State} (h : s.sameButLm t) (p : Pass) (bk : Bank) (pl : Place) (k v : Nat) :
    s.sameButLm (t.correctLamp p bk pl k v) := by
  refine State.sameButLm_trans h ?_
  unfold State.correctLamp
  extract_lets
  refine State.sameButLm_foldl (fun u e hu => ?_) _
  extract_lets
  split_ifs
  · exact hu
  · exact State.sameButLm_lmWrite hu _ _

theorem State.queueTruth_eq (s : State) (pl : Place) (f : Word) (vals : List (Nat × Nat)) :
    s.queueTruth pl f vals = { s with trail := (s.queueTruth pl f vals).trail } := by
  unfold State.queueTruth
  split
  · rfl
  · split_ifs <;> rfl

/-- The times of the step walk are all in which two states may differ. -/
def State.sameButWalk (s t : State) : Prop := t = { s with stp := { s.stp with walk := t.stp.walk } }

theorem State.sameButWalk_trans {s t u : State} (h : s.sameButWalk t) (k : t.sameButWalk u) : s.sameButWalk u := by
  unfold State.sameButWalk at *
  rw [k, h]

theorem State.sameButWalk_noteBands (s : State) (f : Word) (bs : List Nat) : s.sameButWalk (s.noteBands f bs) := by
  unfold State.noteBands
  split_ifs <;> rfl

theorem State.sameButWalk_unitDone (s : State) (u : Nat) : s.sameButWalk (s.unitDone u) := rfl

/-! ### With no uncorrectable word known -/

theorem State.underEcc_of_clean {s : State} (h : s.lmBad = []) (u : Bytes) (ks : List Nat) : s.underEcc u ks = false := by
  simp [State.underEcc, State.lmBadIn_of_clean h]

theorem State.eccZero_of_clean {s : State} (h : s.lmBad = []) (b : Bank) (pl : Place) (ks : List Nat) : s.eccZero b pl ks = 0 := by
  simp [State.eccZero, State.lampEcc, State.emitEcc, State.lmBadIn_of_clean h]

theorem Map.find_foldl_put {α : Type} (l : List Nat) (m : Map α) (v : α) (c : Nat) :
    Map.find (l.foldl (fun m x => Map.put m x v) m) c = if c ∈ l then some v else Map.find m c := by
  induction l generalizing m with
  | nil => rfl
  | cons x l ih =>
    rw [List.foldl_cons, ih]
    by_cases hx : x = c
    · simp [hx]
    · simp [Map.find_put_ne _ _ hx, Ne.symm hx]

/-! ### Composing a band -/

/-- The lamps of a list with the working values that a judged band gives them (R193). -/
def State.lampVals (u : State) (p : Pass) (j : BandJ) (pl : Place) (ks : List Nat) : List (Nat × Nat) :=
  ks.map (fun k => (k, u.lampOf p.bank pl j k))

/-- Every lamp of a list corrected and its emitters' words written (R208 - R213, R230). -/
def State.corrects (u : State) (p : Pass) (pl : Place) (vals : List (Nat × Nat)) : State :=
  vals.foldl (fun s x => s.correctLamp p p.bank pl x.1 x.2) u

theorem State.sameButLm_corrects (u : State) (p : Pass) (pl : Place) (vals : List (Nat × Nat)) :
    u.sameButLm (u.corrects p pl vals) :=
  State.sameButLm_foldl (fun _ x h => State.sameButLm_correctLamp h p p.bank pl x.1 x.2) vals

/-- The state after the words of a band and its counts, where no entry is bad and no word uncorrectable. -/
def State.bandWritten (u : State) (p : Pass) (pl : Place) (vals : List (Nat × Nat)) : State :=
  ((((u.corrects p pl vals).incBy F.LCR_ENTRY_BAD 0).incBy F.LCR_ECC_ZERO 0).wr F.CNP_PASS_LAST
    (min ((u.corrects p pl vals).core - (u.corrects p pl vals).cnp.since) (2 ^ 24 - 1))).queueTruth pl p.frame vals

/-- The empty bands that a composition carries with it (R168). -/
def emptyAfter (p : Pass) (b : Nat) (pl : Place) : List Nat :=
  if p.rolling then (pl.emptyFrom (b + 1)).filter (fun c => !p.lost.contains c) else []

/-- The bands that a composition marks due: the band with the empty ones that follow it, in Frame mode all 16 (R168, R231). -/
def dueBands (p : Pass) (b : Nat) (pl : Place) : List Nat := if p.rolling then b :: emptyAfter p b pl else List.range 16

theorem mem_dueBands {p : Pass} {b c : Nat} (pl : Place) (hc : c < 16) (h : p.rolling = false ∨ c = b) : c ∈ dueBands p b pl := by
  unfold dueBands
  split_ifs with hr
  · rcases h with h | rfl
    · simp [h] at hr
    · exact List.mem_cons_self
  · exact List.mem_range.mpr hc

/-- What the composer holds once a band is composed and due. -/
def Canopy.bandEnds (x : Canopy) (core : Nat) (p : Pass) (b : Nat) (bj : BandJ) (pl : Place) : Canopy :=
  { x with
    passes := x.passes.map (fun q =>
      if q.frame = p.frame then { q with bands := emptyDone (emptyAfter p b pl) (Map.put q.bands b bj) } else q)
    due := (dueBands p b pl).foldl (fun m c => Map.put m c p.frame) x.due
    queue := x.queue.drop 1, since := core
    work := bj.vals.foldl (fun (m : Map Nat) (y : Nat × Nat) => Map.set m y.1 y.2 0) x.work }

/-- The end of a composition: the band is composed and due, its turn in the queue is over, and its units may report done (R43,
R181, R231). -/
def State.bandEnds (w : State) (p : Pass) (b : Nat) (bj : BandJ) (pl : Place) : State :=
  let t := ({ w with cnp := w.cnp.bandEnds w.core p b bj pl } : State).noteBands p.frame (dueBands p b pl)
  if p.frame = t.frameNow && t.cnp.passes.any (fun q => q.frame == p.frame && q.composed) then (t.unitDone 1).unitDone 2 else t

theorem State.composeBand_clean {s u : State} {p : Pass} {b : Nat} {j : BandJ} {pl : Place} (hpl : s.placeOf p.bank = some pl)
    (hc : s.lmBad = []) (hb : s.badEntries p.bank pl (pl.lampsOf p.rolling b) = 0)
    (hu : s.advance (s.workEnd (pl.lampsOf p.rolling b).length - s.core) = u) :
    ∃ bj, s.composeBand p b j = (u.bandWritten p pl (u.lampVals p j pl (pl.lampsOf p.rolling b))).bandEnds p b bj pl := by
  have hc' : u.lmBad = [] := by
    rw [← hu]
    exact hc
  have hz := State.eccZero_of_clean hc' p.bank pl (pl.lampsOf p.rolling b)
  have hund : u.underBad p.bank (pl.lampsOf p.rolling b) = false := State.underEcc_of_clean hc' _ _
  unfold State.composeBand
  extract_lets bk
  rw [hpl]
  dsimp -zeta only
  extract_lets ks u' vals taps bad nz und corrected entries eccs shown told bj more ps due cnp ended
  have hu' : u' = u := hu
  have hbad : bad = 0 := hb
  have hnz : nz = 0 := by rw [← hz, ← hu']
  have hclean : und = false := by rw [← hund, ← hu']
  have hentries : entries = corrected.incBy F.LCR_ENTRY_BAD 0 := by
    simp only [entries, hbad]
    rfl
  have heccs : eccs = entries := by
    simp only [eccs, hnz, hclean]
    rfl
  have htold : told = u.bandWritten p pl (u.lampVals p j pl (pl.lampsOf p.rolling b)) := by
    simp only [told, shown, heccs, hentries, hnz, ← hu']
    rfl
  refine ⟨bj, ?_⟩
  rw [← htold]
  rfl

theorem State.sameButLm_cnp {s t : State} (h : s.sameButLm t) : t.cnp = s.cnp := by rw [h]
theorem State.sameButLm_core {s t : State} (h : s.sameButLm t) : t.core = s.core := by rw [h]
theorem State.sameButLm_stp {s t : State} (h : s.sameButLm t) : t.stp = s.stp := by rw [h]
theorem State.sameButLm_regs {s t : State} (h : s.sameButLm t) : t.regs = s.regs := by rw [h]

section
variable (u : State) (p : Pass) (pl : Place) (vals : List (Nat × Nat))

theorem State.bandWritten_lm : (u.bandWritten p pl vals).lm = (u.corrects p pl vals).lm := by
  rw [State.bandWritten, State.queueTruth_eq]
  rfl

theorem State.bandWritten_cnp : (u.bandWritten p pl vals).cnp = u.cnp := by
  rw [State.bandWritten, State.queueTruth_eq, ← State.sameButLm_cnp (u.sameButLm_corrects p pl vals)]
  rfl

theorem State.bandWritten_stp : (u.bandWritten p pl vals).stp = u.stp := by
  rw [State.bandWritten, State.queueTruth_eq, ← State.sameButLm_stp (u.sameButLm_corrects p pl vals)]
  rfl

theorem State.bandWritten_passLast :
    (u.bandWritten p pl vals).rd F.CNP_PASS_LAST = min (u.core - u.cnp.since) (2 ^ 24 - 1) := by
  have hc := u.sameButLm_corrects p pl vals
  have h : (u.bandWritten p pl vals).rd F.CNP_PASS_LAST =
      min ((u.corrects p pl vals).core - (u.corrects p pl vals).cnp.since) (2 ^ 24 - 1) % 2 ^ F.CNP_PASS_LAST.len := by
    rw [State.bandWritten, State.queueTruth_eq]
    exact State.rd_wr_same _ _ _
  have hl : 2 ^ F.CNP_PASS_LAST.len = 16777216 := by decide
  rw [h, hl, State.sameButLm_cnp hc, State.sameButLm_core hc]
  omega

end

section
variable (w : State) (p : Pass) (b : Nat) (bj : BandJ) (pl : Place)

theorem State.bandEnds_eq : ({ w with cnp := w.cnp.bandEnds w.core p b bj pl } : State).sameButWalk (w.bandEnds p b bj pl) := by
  unfold State.bandEnds
  extract_lets t
  have h : ({ w with cnp := w.cnp.bandEnds w.core p b bj pl } : State).sameButWalk t := State.sameButWalk_noteBands _ _ _
  split_ifs
  · exact State.sameButWalk_trans h rfl
  · exact h

end

/-! ### The composition at the front of the queue -/

section
variable {s : State} {p : Pass} {b : Nat} {j : BandJ} (h : s.composing b = some (p, j))
include h

theorem bandComposed_rolling (hr : p.rolling = true) : bandComposed b s = (s.composeBand p b j).endPasses := by
  simp [bandComposed, h, hr]

end

theorem passComplete_grid {s : State} {p : Pass} {j : BandJ} (h : s.composing 0 = some (p, j)) (ht : s.isTile = true)
    (hr : p.rolling = false) : passComplete s = (s.composeBand p 0 j).endPasses := by
  simp [passComplete, State.passDone, h, ht, hr]

/-- What is known of a composition where no entry is bad and no word uncorrectable. -/
theorem State.composeBand_of_clean {s u : State} {p : Pass} {b : Nat} {j : BandJ} {pl : Place} (hpl : s.placeOf p.bank = some pl)
    (hc : s.lmBad = []) (hb : s.badEntries p.bank pl (pl.lampsOf p.rolling b) = 0)
    (hu : s.advance (s.workEnd (pl.lampsOf p.rolling b).length - s.core) = u) :
    (s.composeBand p b j).lm = (u.corrects p pl (u.lampVals p j pl (pl.lampsOf p.rolling b))).lm ∧
    (∀ c, c < 16 → (p.rolling = false ∨ c = b) → Map.find (s.composeBand p b j).cnp.due c = some p.frame) ∧
    (s.composeBand p b j).cnp.queue = s.cnp.queue.drop 1 ∧
    (s.composeBand p b j).rd F.CNP_PASS_LAST = min (u.core - s.cnp.since) (2 ^ 24 - 1) ∧
    (s.composeBand p b j).stp = { s.stp with walk := (s.composeBand p b j).stp.walk } := by
  obtain ⟨bj, ht⟩ := State.composeBand_clean (j := j) hpl hc hb hu
  have hcnp : u.cnp = s.cnp := by rw [← hu]; rfl
  have hstp : u.stp = s.stp := by rw [← hu]; rfl
  rw [ht]
  generalize u.lampVals p j pl (pl.lampsOf p.rolling b) = vals
  have he := State.bandEnds_eq (u.bandWritten p pl vals) p b bj pl
  unfold State.sameButWalk at he
  have hlast := u.bandWritten_passLast p pl vals
  rw [he]
  refine ⟨u.bandWritten_lm p pl vals, fun c hc hcb => ?_, ?_, ?_, ?_⟩
  · exact (Map.find_foldl_put _ _ _ _).trans (if_pos (mem_dueBands pl hc hcb))
  · exact congrArg (fun x : Canopy => x.queue.drop 1) ((u.bandWritten_cnp p pl vals).trans hcnp)
  · rw [← hcnp]
    exact hlast
  · rw [← hstp, ← u.bandWritten_stp p pl vals]

/-! ### A band not done in time -/

theorem bandAbandon_late {s : State} {p : Pass} {b : Nat} {pl : Place} (hp : s.cnp.passes = [p]) (hr : p.rolling = true)
    (hl : p.lost.contains b = false) (hb : Map.find p.bands b = none) (hpl : s.placeOf p.bank = some pl)
    (hf : s.frameNow = p.frame + 1) {u : State} (hu : u = s.advance (s.frames.start + pl.dl.getD b 0 - s.core)) :
    bandAbandon b s = (({ u with cnp := { s.cnp with
        passes := [{ p with lost := b :: p.lost }]
        due := if Map.find s.cnp.due b = some p.frame then Map.del s.cnp.due b else s.cnp.due
        since := if s.cnp.queue.head? = some (p.frame, b) then u.core else s.cnp.since
        queue := s.cnp.queue.filter (· != (p.frame, b)) } } : State).detect E.CNP_COMPOSE_LATE).endPasses := by
  subst hu
  have hl' : b ∉ p.lost := by simpa using hl
  have hps : s.cnp.passes.map (fun q => if q.frame = p.frame then { q with lost := b :: q.lost } else q) =
      [{ p with lost := b :: p.lost }] := by simp [hp]
  unfold bandAbandon
  split
  case _ h => simp [hp, hr, hl', hb] at h
  case _ q h =>
    rw [hp] at h
    obtain rfl : q = p := List.mem_singleton.mp (List.mem_of_find?_eq_some h)
    rw [← hps]
    simp only [hpl, if_pos hf]
    rfl

/-! ### A head's preview pass -/

theorem State.sameButLm_lines {s : State} (l : List Nat) (a : Nat → Nat) (bs : Nat → Bytes) :
    s.sameButLm (l.foldl (fun t q => t.lmWrite (a q) (bs q)) s) :=
  State.sameButLm_foldl (fun _ q h => State.sameButLm_lmWrite h (a q) (bs q)) l

theorem State.decimated_regs {s t : State} (h : t.regs = s.regs) : t.decimated = s.decimated := by
  funext b o i
  simp only [State.decimated, State.rd_regs h]

/-- The preview of a frame is in the ring, and unit 1 reports done (R143). -/
def State.previewSent (w : State) (v : Preview) : State :=
  (State.retireIfDone { w with
    cnp := { w.cnp with preview := none }, net := { w.net with pvwDone := some v.frame } }).unitDone 1

/-- With no layer decimated and no uncorrectable word the lines are written, the frame is done and unit 1 reports (R143, R187). -/
theorem State.previewDone_clean {s u w : State} {v : Preview} {o : Bytes} (ho : Map.find s.net.pvw 0 = some o) (hc : s.lmBad = [])
    (hd : (List.range 8).any (s.decimated v.bank o) = false)
    (hu : u = s.advance (s.workEnd (numAt o 2 2 * numAt o 4 2) - s.core))
    (hw : w = (List.range (numAt o 4 2)).foldl (fun t q => t.lmWrite (numAt o 8 8 + v.frame.toNat % 2 * ringFrame (pvwFmt o) +
      q * (ceilDiv (pvwFmt o).lineBytes 64 * 64)) (u.pvwLine v o (u.pvwLines v o) q)) u) :
    s.previewDone v = w.previewSent v := by
  have hregs : w.regs = s.regs := by
    rw [hw, State.sameButLm_regs (State.sameButLm_lines _ _ _), hu]
    rfl
  have hdw : (List.range 8).any (w.decimated v.bank o) = false := by rw [State.decimated_regs hregs, hd]
  have hund (x : Bytes) (ks : List Nat) : u.underEcc x ks = false := by
    refine State.underEcc_of_clean ?_ x ks
    rw [hu]
    exact hc
  unfold State.previewDone
  rw [ho]
  dsimp -zeta only
  extract_lets s₁ f n lines a und s₂ s₃
  have h₁ : s₁ = u := hu.symm
  have h₂ : s₂ = w := by
    rw [hw, ← h₁]
  have hz : und = false := by rw [← hund, ← h₁]
  have h₃ : s₃ = w := by
    simp only [s₃, h₂, hz, State.detectIf, hdw, State.blockEcc, Bool.false_eq_true, if_false]
  exact congrArg (State.previewSent · v) h₃

theorem passComplete_preview {s : State} {v : Preview} (ht : s.isTile = false) (hv : s.cnp.preview = some v) :
    passComplete s = s.previewDone v := by
  simp [passComplete, ht, hv]

/-! ### A due entry of the step table -/

/-- A due entry goes 4 cycles or more after the last one: its unit starts, a hold state skips it, or it waits for its unit (R43,
R44). -/
theorem stepDispatch_due {s u : State} {i due : Nat} {e : Entry} (he : (s.entriesOf s.stp.active)[i]? = some e)
    (ha : s.stp.armed.contains i = true) (hd : s.dueAt i e = some due) (hn : s.earlierDue i due = false)
    (hu : u = s.advance (max due (match s.stp.walk.lastAt with
        | some c => c + 4
        | none => due) - s.core)) :
    stepDispatch i s =
      if u.isTile = true ∧ skipped u.holdState e.unit = true then u.dispatched i e
      else if (u.runUnit e).1 = true then
        State.dispatched { (u.runUnit e).2 with stp := { (u.runUnit e).2.stp with imgBad := false } } i e
      else (u.runUnit e).2.waitsUnit i := by
  have ha' : (!s.stp.armed.contains i || s.earlierDue i due) = false := by rw [ha, hn]; rfl
  rw [hu]
  simp only [stepDispatch, he, hd, ha', Bool.and_eq_true, Bool.false_eq_true, if_false] <;> rfl

/-! ### The end of a host-layer fetch -/

section
variable {s u : State} {k r c sz : Nat} {n : Word} {o : Bytes} (g h : Word) (x : HostData)
  (hf : s.cnp.fetching.find? (fun f => f.1 == k) = some (k, n, r)) (ho : Map.find s.stp.active.bufs (64 + k) = some o)
  (hu : u = { s with cnp := { s.cnp with fetching := s.cnp.fetching.filter (fun f => f.1 != k) } })
  (hsz : sz = numAt o 16 4 * (srcFmt (s.srcCfg k)).height) (hc : c = numAt o 32 8 + n.toNat % 2 * (ceilDiv sz 4096 * 4096))
include hf ho hu hsz hc

/-- A fetch that answers is copied; the copy goes out where both generations match the reference (R185). -/
theorem hostFetchComplete_fetching : hostFetchComplete k g x h s =
    if x.ok = true then
      if g.toNat = numAt o 20 4 ∧ h.toNat = numAt o 20 4 then
        State.startOut { u.lmWrite c (x.bytes.take sz) with
          cnp := { (u.lmWrite c (x.bytes.take sz)).cnp with staged := Map.put u.cnp.staged k n } } k 2 c n
      else ((u.lmWrite c (x.bytes.take sz)).inc F.CNP_GEN_FAIL).detect E.CNP_GEN_MISMATCH
    else (u.inc F.CNP_GEN_FAIL).detect E.CNP_HOST_FETCH := by
  subst hu hc hsz
  unfold hostFetchComplete
  simp only [hf, ho]
  cases x.ok
  · simp [State.fetchFailed]
  · by_cases hg : g.toNat = numAt o 20 4 ∧ h.toNat = numAt o 20 4
    · simp [hg]
    · simp [hg, State.fetchFailed]

end

/-- Settles O33: each command's meaning where its band, pass, entry or fetch is the one in turn. -/
theorem bandPasses : Obligations.BandPasses := by
  unfold Obligations.BandPasses
  refine ⟨?judge, ?compose, ?abandon, ?preview, ?dispatch, ?fetch⟩
  case judge =>
    exact fun s p b pl hr hp hpl => ⟨fun h he => next_of_onRun hr (bandJudgment_empty hp hpl h he),
      fun h => next_of_onRun hr (bandJudgment_now hp hpl h),
      fun h he hb => next_of_onRun hr (bandJudgment_atDeadline hp hpl h he hb)⟩
  case compose =>
    refine fun s p b j pl hr hc hpl => ⟨_, rfl, fun h => next_of_onRun hr (bandComposed_rolling hc h), ?_,
      fun hb he => ⟨_, rfl, State.composeBand_of_clean hpl hb he rfl⟩⟩
    rintro h ht rfl
    exact next_of_onRun hr (passComplete_grid hc ht h)
  case abandon =>
    exact fun s p b pl hr hp h hl hb hpl hf => ⟨_, rfl, next_of_onRun hr (bandAbandon_late hp h hl hb hpl hf rfl)⟩
  case preview =>
    exact fun s v o hr ht hv ho hc hd => ⟨_, _, rfl, rfl,
      next_of_onRun hr ((passComplete_preview ht hv).trans (State.previewDone_clean ho hc hd rfl rfl))⟩
  case dispatch =>
    exact fun s i due e hr he ha hd hn => ⟨_, rfl, next_of_onRun hr (stepDispatch_due he ha hd hn rfl)⟩
  case fetch =>
    refine fun s k r n g h o x hl hh hf ho => ⟨_, _, _, rfl, rfl, rfl, ?_, fun hx => ⟨_, rfl, fun hg h2 => ?_, fun hg => ?_⟩⟩
    all_goals
      have he := hostFetchComplete_fetching g h x hf ho rfl rfl rfl
      have hn {t : State} (ht : hostFetchComplete k g x h s = t) : exec (.hostFetchComplete k g x h) s = .next t :=
        next_of_live hl ((if_pos hh).trans ht)
    · exact fun hx => hn (he.trans (if_neg (by simp [hx])))
    · exact hn (he.trans ((if_pos hx).trans (if_pos ⟨hg, h2⟩)))
    · exact hn (he.trans ((if_pos hx).trans (if_neg hg)))

end Sys2Proof.Machine
end

section
/-! The class-5 messages a head takes (R54, R76, R79, R80, R81, R105, R115, R123, R355). -/

namespace Sys2Proof.Machine

theorem numAt_drop (b : Bytes) (j i n : Nat) : numAt (b.drop j) i n = numAt b (j + i) n := by
  rw [numAt, List.drop_drop, numAt]

/-! ### The shell of a message -/

section
variable {s u : State} {m : RetMsg} {kind : Nat} (f again : State → State) (hl : s.live = true) (hu : s.retSlot m = u)
include hl hu

theorem onRetAgain_passes (h : u.takesRet m = false ∨ m.msg = none) : onRetAgain m kind f again s = .next u := by
  refine next_of_live hl ?_
  dsimp only
  rw [hu]
  rcases h with h | h
  · rw [h]
    rfl
  · rw [h]
    exact ite_self _

/-- What a message in a slot that the head takes does: one of another KIND nothing, a fresh one is noted, a copy heard (R115). -/
theorem onRetAgain_message {good : Bool} {b : Bytes} (ht : u.takesRet m = true) (hm : m.msg = some (good, b)) :
    onRetAgain m kind f again s = .next (
      if good && numAt b 0 1 != kind then u
      else if u.freshRet m then
        if good then f (u.noted m) else ((u.noted m).inc (F.GLB_SLOT_HDR_BAD m.port)).detect E.GLB_HDR_BAD
      else if good then again (u.heard m) else u.heard m) := by
  refine next_of_live hl ?_
  dsimp only
  rw [hu, ht, hm, if_neg (by decide)]
  rfl

end

/-- A LOCK_REPORT becomes its tile's current report (R123). -/
def State.reports (m : RetMsg) (s : State) : State :=
  { s with trail := { s.trail with locks := Map.put s.trail.locks m.tile m.body } }

theorem exec_lockReport (m : RetMsg) : exec (.lockReport m) = onRet m 7 (State.reports m) := rfl

/-- The eight messages of a class-5 slot share one shell; only a broadcast request acts on a copy (R105, R115). -/
theorem exec_retMsg {m : RetMsg} {ok : Bool} {i : Instr} {kind : Nat} (h : (i, kind) ∈ [(.mbxAck m, 1), (.completion m, 2),
      (.regReply m, 3), (.event m ok, 4), (.readData m ok, 5), (.commitReply m, 6), (.lockReport m, 7), (.bcastGap m, 8)]) :
    ∃ f again : State → State, exec i = onRetAgain m kind f again ∧ (kind ≠ 8 → again = fun s => s) := by
  simp only [List.mem_cons, Prod.mk.injEq, List.not_mem_nil, or_false] at h
  rcases h with ⟨rfl, rfl⟩ | ⟨rfl, rfl⟩ | ⟨rfl, rfl⟩ | ⟨rfl, rfl⟩ | ⟨rfl, rfl⟩ | ⟨rfl, rfl⟩ | h | h
  case inr.inr.inr.inr.inr.inr.inr =>
    obtain ⟨rfl, rfl⟩ := h
    exact ⟨_, _, rfl, fun h => absurd rfl h⟩
  case inr.inr.inr.inr.inr.inr.inl =>
    obtain ⟨rfl, rfl⟩ := h
    exact ⟨State.reports m, fun s => s, rfl, fun _ => rfl⟩
  all_goals exact ⟨_, _, rfl, fun _ => rfl⟩

/-! ### Acknowledgements -/

/-- The slots that an acknowledgement retires: those before its SEQ; while a RESYNC waits, all with SEQ 1 (R79). -/
def MbxLink.gone (l : MbxLink) (nxt : Nat) (q : BitVec 16) : Bool := if l.resync.isSome then nxt == 1 else later16 nxt q.toNat

section
variable {u : State} {m : RetMsg} {l : MbxLink} (hl : u.link m.tile = l)
include hl

theorem mbxAck_nothing (h : ∀ x ∈ l.unacked, l.gone (numAt m.body 2 2) x.1 = false) : mbxAck m u = u := by
  have hf : l.unacked.filter (fun x => !l.gone (numAt m.body 2 2) x.1) = l.unacked :=
    List.filter_eq_self.mpr fun x hx => by rw [h x hx]; rfl
  subst hl
  exact if_pos (congrArg List.length hf)

/-- An acknowledgement of all that is out empties the window and completes what waited for it. -/
theorem mbxAck_all (hn : l.unacked ≠ []) (h : ∀ x ∈ l.unacked, l.gone (numAt m.body 2 2) x.1 = true) :
    mbxAck m u = ((((l.writes.filter (fun w => l.gone (numAt m.body 2 2) w.1)).map (·.2) ++ l.resync.toList).foldl
      (fun v d => v.finishIf d 0x000) (u.setLink m.tile { l with
        unacked := [], since := u.core, retx := 0, writes := l.writes.filter (fun w => !l.gone (numAt m.body 2 2) w.1), resync := none
        unreachable := l.unreachable && l.resync.isNone })).pumpLink m.tile) := by
  have hf : l.unacked.filter (fun x => !l.gone (numAt m.body 2 2) x.1) = [] :=
    List.filter_eq_nil_iff.mpr fun x hx => by simp [h x hx]
  subst hl
  unfold mbxAck
  extract_lets t nxt l gone left
  have hleft : left = [] := hf
  have hlen : ¬ left.length = l.unacked.length := by
    rw [hleft]
    exact fun h0 => hn (List.eq_nil_of_length_eq_zero h0.symm)
  rw [if_neg hlen]
  clear_value left
  subst hleft
  rfl

end
/-! ### Completions and replies -/

/-- What a COMPLETION message says of its descriptor (R54, R76). -/
def tileDone (m : RetMsg) : Done :=
  { status := numAt m.body 30 2 % 4096, result := BitVec.ofNat 64 (numAt m.body 16 8), frame := BitVec.ofNat 32 (numAt m.body 12 4)
    time := BitVec.ofNat 32 (numAt m.body 8 4), fromTile := some m.tile }

/-- A completion of the one descriptor that is out at its tile completes it with its own status, result, frame and time (R54,
R76). -/
theorem completion_single {u v : State} {m : RetMsg} {l : MbxLink} {a : Nat} {d : Desc} {op : Nat} (hl : u.link m.tile = l)
    (ho : l.out = [(a, d)]) (ha : numAt m.body 24 2 = (a + 1) % 1024) (hv : v = u.setLink m.tile { l with out := [] })
    (hop : v.opOf d = some op) :
    completion m u = settleDeletes v.hq.deleting { v with hq := { v.hq with
      flights := markDone v.hq.flights d op (v.cqOf d.sq) (tileDone m) } } := by
  have hfind : l.out.find? (fun x => (x.1 + 1) % 1024 == numAt m.body 24 2) = some (a, d) := by simp [ho, ha]
  have hbefore : l.out.takeWhile (fun y => y.1 != a) = [] := by simp [ho]
  subst hl
  unfold completion
  simp only [numAt_drop, Nat.reduceAdd, hfind, hbefore]
  have hv' : u.setLink m.tile { u.link m.tile with
      out := (u.link m.tile).out.filter (fun y => y.1 != a && !(List.filter (fun y => y.2.quiet) []).contains y) } = v := by
    simp [hv, ho]
  rw [hv', List.filter_nil, List.foldl_nil, hop]
  rfl

theorem regReply_single {u : State} {m : RetMsg} {l : MbxLink} {q : BitVec 16} {d : Desc} (hl : u.link m.tile = l)
    (hr : l.regs = [(q, d)]) (hq : q.toNat = numAt m.body 2 2) :
    regReply m u = (u.setLink m.tile { l with regs := [] }).finishIf d (numAt m.body 8 2 % 4096)
      (if (u.setLink m.tile { l with regs := [] }).opOf d = some 0x31 then numAt m.body 4 4 else 0) := by
  have hfind : l.regs.find? (fun x => x.1.toNat == numAt m.body 2 2) = some (q, d) := by simp [hr, hq]
  have he : l.regs.erase (q, d) = [] := by simp [hr]
  subst hl
  unfold regReply
  simp only [hfind, he]

/-! ### Events -/

/-- The completion entry that an EVENT brings (R81). -/
def eventEntry (m : RetMsg) (phase : Bool) : Bytes :=
  cplBytes 0 (BitVec.ofNat 32 (numAt m.body 12 4)) (BitVec.ofNat 32 (numAt m.body 16 4))
    (BitVec.ofNat 64 (numAt m.body 4 4 + 2 ^ 32 * numAt m.body 8 1)) 0 0 0 true (some m.tile) 0 phase

theorem event_dropped {u : State} (m : RetMsg) (ok : Bool)
    (h : u.on F.HQS_EVT_CQ_EN = false ∨ u.cq (u.rd F.HQS_EVT_CQ_CQ) = none) : event m ok u = u.inc F.HQS_EVT_DROP := by
  refine if_pos ?_
  rcases h with h | h <;> simp [h]

section
variable {u : State} {c : Cq} (m : RetMsg) (ok : Bool) (he : u.on F.HQS_EVT_CQ_EN = true)
  (hc : u.cq (u.rd F.HQS_EVT_CQ_CQ) = some c)
include he hc

/-- An event entry is posted, or counted where its queue is full or halted (R81; log entry 172). -/
theorem event_queued : event m ok u =
    if c.full || c.halted then (u.inc F.HQS_EVT_DROP).detect E.HQS_EVT_OVERFLOW
    else if ok then u.postEntry (u.rd F.HQS_EVT_CQ_CQ) c (eventEntry m) else u.haltCq (u.rd F.HQS_EVT_CQ_CQ) c := by
  have hp : u.postsTo (u.rd F.HQS_EVT_CQ_CQ) = if c.full || c.halted then none else some c := by rw [State.postsTo, hc]
  unfold event
  simp only [he, hc, hp]
  cases c.full || c.halted
  · simp only [Bool.not_true, Option.isNone_some, Bool.or_self, Bool.false_eq_true, if_false]
    rfl
  · simp

end

/-! ### Read data -/

section
variable {u : State} {m : RetMsg} {l : MbxLink} {d : Desc} {n : Nat} (hl : u.link m.tile = l)
  (hr : l.reads = [(d, numAt m.body 4 8, n)])
include hl hr

/-- Read data for the one TILE_READ that is out: refused, lost on its way to host memory, its last bytes, or more to come
(R76). -/
theorem readData_single (ok : Bool) : readData m ok u =
    if numAt m.body 12 2 = 0 then (u.setLink m.tile { l with reads := [] }).finishIf d 0x003
    else if ok = false then (u.setLink m.tile { l with reads := [] }).finishIf d 0x004
    else if n ≤ numAt m.body 12 2 then
      ((u.emit (.hostWrite (d.num 16 8 + (numAt m.body 4 8 - d.num 8 8)) ((m.body.drop 16).take (numAt m.body 12 2)))).setLink
        m.tile { l with reads := [] }).finishIf d 0x000
    else
      (u.emit (.hostWrite (d.num 16 8 + (numAt m.body 4 8 - d.num 8 8)) ((m.body.drop 16).take (numAt m.body 12 2)))).setLink
        m.tile { l with reads := [(d, numAt m.body 4 8 + numAt m.body 12 2, n - numAt m.body 12 2)] } := by
  have hfind : l.reads.find? (fun x => x.2.1 == numAt m.body 4 8) = some (d, numAt m.body 4 8, n) := by simp [hr]
  have he : l.reads.erase (d, numAt m.body 4 8, n) = [] := by simp [hr]
  subst hl
  unfold readData
  simp only [hfind, he]
  cases ok <;> rfl

end

/-! ### Broadcast requests -/

/-- A broadcast request noted as served queues what the head still holds of it, where the head has authority (R105). -/
theorem bcastGap_served (m : RetMsg) (s : State) : bcastGap m s =
    match (s.served m).trail.sent.find? (fun x => x.1 == numAt m.body 4 1 && x.2.1 == numAt m.body 2 2) with
    | none => s.served m
    | some x =>
      if !(s.served m).authority then s.served m
      else (s.served m).setPort m.port { (s.served m).port m.port with
        bc := ((List.range x.2.2.length).filter (fun i =>
          decide (numAt m.body 8 4 ≤ i) && decide (i < numAt m.body 8 4 + numAt m.body 12 4))).map
          (fun i => ⟨(s.served m).core, numAt m.body 4 1, numAt m.body 2 2, i, x.2.2.length, x.2.2.getD i []⟩) ++
          ((s.served m).port m.port).bc } := rfl

/-- A fresh good request acts on the head that has noted it (R105, R115). -/
theorem bcastGap_of_takes {s : State} {m : RetMsg} (h : s.takes m 8 = true) :
    exec (.bcastGap m) s = .next (bcastGap m (s.arrived m)) := by
  simp only [State.takes, Bool.and_eq_true, beq_iff_eq] at h
  obtain ⟨⟨⟨⟨hl, ht⟩, hf⟩, hm⟩, hk⟩ := h
  refine (onRetAgain_message _ _ hl rfl ht hm).trans ?_
  simp [hk, hf, State.arrived]

/-- A copy of a request is heard, and served too where it comes by another port than the one served (R105, R355). -/
theorem bcastGap_of_again {s p : State} {m : RetMsg} (hl : s.live = true) (hp : s.retSlot m = p) (h : p.again m = true) :
    exec (.bcastGap m) s = .next (if p.asked m then bcastGap m (p.heard m) else p.heard m) := by
  simp only [State.again, Bool.and_eq_true, Bool.not_eq_true', beq_iff_eq] at h
  obtain ⟨⟨⟨ht, hf⟩, hm⟩, hk⟩ := h
  have ha : (p.heard m).asked m = p.asked m := by
    unfold State.heard
    split_ifs <;> rfl
  refine (onRetAgain_message _ _ hl hp ht hm).trans ?_
  rw [← ha]
  simp only [hk, hf, bne_self_eq_false, Bool.and_false, Bool.false_eq_true, if_false, if_true]
  rfl

section
variable {m : RetMsg}

theorem bcastGap_unknown {s : State}
    (h : (s.served m).trail.sent.find? (fun x => x.1 == numAt m.body 4 1 && x.2.1 == numAt m.body 2 2) = none) :
    bcastGap m s = s.served m := by
  rw [bcastGap_served, h]

theorem bcastGap_sent {s : State} {ps : List Bytes}
    (h : (s.served m).trail.sent.find? (fun x => x.1 == numAt m.body 4 1 && x.2.1 == numAt m.body 2 2) =
      some (numAt m.body 4 1, numAt m.body 2 2, ps)) :
    bcastGap m s = if (s.served m).authority = false then s.served m
      else (s.served m).setPort m.port { (s.served m).port m.port with
        bc := ((List.range ps.length).filter (fun i =>
          decide (numAt m.body 8 4 ≤ i) && decide (i < numAt m.body 8 4 + numAt m.body 12 4))).map
          (fun i => ⟨(s.served m).core, numAt m.body 4 1, numAt m.body 2 2, i, ps.length, ps.getD i []⟩) ++
          ((s.served m).port m.port).bc } := by
  rw [bcastGap_served, h]
  cases (s.served m).authority <;> rfl

end

/-- Settles O41: the shell once for all eight messages, then what each message does on the head that has noted it. -/
theorem tileAnswers : Obligations.TileAnswers := by
  unfold Obligations.TileAnswers
  refine ⟨?shell, ?acts⟩
  case shell =>
    intro s u m ok i kind hi hl hu
    obtain ⟨f, again, he, ha⟩ := exec_retMsg hi
    rw [he]
    refine ⟨onRetAgain_passes f again hl hu, fun good b ht hm => ?_⟩
    rw [onRetAgain_message f again hl hu ht hm]
    refine ⟨fun hg hk => ?_, fun hc hf => ?_, fun hg hf => ?_⟩
    · rw [if_pos (by simp [hg, hk])]
    · rcases hc with hg | ⟨hk, h8⟩
      · rw [if_neg (by simp [hg]), if_neg (by simp [hf]), if_neg (by simp [hg])]
        rfl
      · rw [if_neg (by simp [hk]), if_neg (by simp [hf]), ha h8]
        exact congrArg _ (ite_self _)
    · rw [if_neg (by simp [hg]), if_pos hf, if_neg (by simp [hg])]
  case acts =>
    intro s m u l hu hlk
    subst hu
    refine ⟨?ack, ?completion, ?reg, ?event, ?read, ?lock, ?heard, ?gap⟩
    case ack =>
      exact fun ht => ⟨_, _, _, rfl, fun h => next_of_takes ht (mbxAck_nothing hlk h), fun hn h =>
        ⟨rfl, rfl, next_of_takes ht (mbxAck_all hlk hn h)⟩⟩
    case completion =>
      exact fun a d op ht ho ha => ⟨_, _, rfl, rfl, fun hop => next_of_takes ht (completion_single hlk ho ha rfl hop)⟩
    case reg =>
      exact fun q d ht hr hq => ⟨_, rfl, next_of_takes ht (regReply_single hlk hr hq)⟩
    case event =>
      refine fun ok ht => ⟨fun h => next_of_takes ht (event_dropped m ok h), fun c he hc => ⟨fun h => ?_, ?_, ?_⟩⟩
      · exact next_of_takes ht ((event_queued m ok he hc).trans (if_pos (by simpa using h)))
      · rintro rfl hf hh
        exact next_of_takes ht ((event_queued m false he hc).trans ((if_neg (by simp [hf, hh])).trans (if_neg (by decide))))
      · rintro rfl hf hh
        exact next_of_takes ht ((event_queued m true he hc).trans ((if_neg (by simp [hf, hh])).trans (if_pos rfl)))
    case read =>
      refine fun d n ht hr => ⟨fun h0 ok => ?_, fun h0 => ?_, fun h0 => ⟨_, rfl, fun hn => ?_, fun hn => ?_⟩⟩
      · exact next_of_takes ht ((readData_single hlk hr ok).trans (if_pos h0))
      · exact next_of_takes ht ((readData_single hlk hr false).trans ((if_neg h0).trans (if_pos rfl)))
      · exact next_of_takes ht ((readData_single hlk hr true).trans
          ((if_neg h0).trans ((if_neg (by decide)).trans (if_pos hn))))
      · exact next_of_takes ht ((readData_single hlk hr true).trans
          ((if_neg h0).trans ((if_neg (by decide)).trans (if_neg (Nat.not_le.mpr hn)))))
    case lock =>
      exact fun ht => (congrFun (exec_lockReport m) s).trans (next_of_takes ht rfl)
    case heard =>
      intro p hp hl hg ha
      rw [bcastGap_of_again hl hp hg, ha, if_neg (by decide)]
    case gap =>
      intro p w ps hp hw
      have he : ∃ r : State, w = r.served m ∧ exec (.bcastGap m) s = .next (bcastGap m r) := by
        rcases hw with ⟨ht, hw⟩ | ⟨hl, hg, ha, hw⟩
        · exact ⟨_, hw, bcastGap_of_takes ht⟩
        · exact ⟨_, hw, (bcastGap_of_again hl hp hg).trans (by rw [ha, if_pos rfl])⟩
      obtain ⟨r, rfl, he⟩ := he
      rw [he]
      refine ⟨fun h => by rw [bcastGap_unknown h], fun h => ?_⟩
      rw [bcastGap_sent h]
      exact ⟨fun ha => by rw [if_pos ha], fun ha => ⟨_, rfl, by rw [if_neg (by simp [ha])]⟩⟩

end Sys2Proof.Machine
end

section
/-! The pair's serial link, health report, Patrol and opcodes (R54, R275, R279, R281, R282, R284, R285, R287, R288). -/

namespace Sys2Proof.Machine

/-! ### FB_SER frames -/

/-- A good frame is counted, and locks the link when it is the fourth in a row (R281). -/
def State.serCounted (s : State) : State :=
  let a : State := { s with pair := { s.pair with good := min 4 (s.pair.good + 1) } }
  if a.pair.good = 4 then a.wr F.FBK_STAT_SER_LOCK 1 else a

/-- What a good frame says of the peer is shown, and the frame is the peer's latest (R275, R281, R282). -/
def State.serShown (b : State) (f : Bytes) : State :=
  let c := ((((b.wr F.FBK_SER_RTT (b.serRtt f)).wr F.FBK_PAIR_OFS (b.pairOffset f)).wr
    F.FBK_STAT_PEER_READY (bits (numAt f 3 1) 1 1)).wr F.FBK_PEER_HEALTH_SCORE (numAt f 20 1)).wr
    F.FBK_PEER_HEALTH_CAUSES (numAt f 22 2)
  { c with pair := { c.pair with peer := some (f, c.core) } }

/-- A frame judged: digests and stuck claims, the standby's state, and the peer's claim (R279, R284, R287, R288). -/
def State.serJudged (c : State) (f : Bytes) : State :=
  let d := (c.compareDigest f).judgeStuck (bit (numAt f 3 1) 0)
  let e := if d.rd F.FBK_STAT_STATE = 0 && !d.claims then d.wr F.FBK_STAT_STATE 1 else d
  if bit (numAt f 3 1) 0 then e.peerClaims else e

/-- What a head takes from a frame: timing where it stands by, the commit field there and in an open takeover (R54, R282). -/
def State.serTaken (g : State) (f : Bytes) : State :=
  let h := if g.claims then g else g.copyPeer f
  if g.isHead then
    if !h.claims || h.pair.takeover then
      h.copyField (BitVec.ofNat 16 (numAt f 38 2)) (bits (numAt f 40 1) 0 2) (BitVec.ofNat 32 (numAt f 44 4))
    else h
  else g

section
variable {s : State} {f : Bytes} (hp : s.isPair = true)
include hp

theorem fbSerFrame_bad (hg : serGood f = false) : fbSerFrame f s =
    ({ s.inc F.FBK_SER_ERR with pair := { s.pair with good := 0 } } : State).detect E.FBK_SER_CRC := by
  exact (if_neg (by simp [hp])).trans (if_pos (by simp [hg]))

theorem fbSerFrame_good (hg : serGood f = true) : fbSerFrame f s = ((s.serCounted.serShown f).serJudged f).serTaken f := by
  unfold fbSerFrame
  rw [hp, hg]
  rfl

theorem serLost_locked (hl : s.on F.FBK_STAT_SER_LOCK = true) {r : Nat} (hr : s.pair.peer = some (f, r)) {u : State}
    (hu : u = (s.advance (r + 8 * 16896 - s.core)).wr F.FBK_STAT_SER_LOCK 0) :
    serLost s = ({ u with pair := { u.pair with good := 0 } } : State).detect E.FBK_SER_LOST := by
  unfold serLost
  rw [hr, hu, hp, hl]
  exact if_neg (by decide)

end

/-! ### Health reports and Patrol -/

/-- The watchdog load served and the count of failed tests cleared by a report (R285; log entry 192). -/
def State.reportServed (s : State) : State :=
  { s.wr F.WDG_LOAD (clrBit (s.rd F.WDG_LOAD) 5) with pair := { s.pair with fails := 0 } }

theorem State.reportServed_patrolCq (s : State) : s.reportServed.rd F.FBK_PATROL_CFG_CQ = s.rd F.FBK_PATROL_CFG_CQ :=
  State.rd_wr_ne s _ (by decide)

/-- The entry of a health report goes to its queue: dropped where that takes none, and halting it where the write fails (R285). -/
def State.postsReport (u : State) (ok : Bool) (i : Nat) (e : Bool → Bytes) : State :=
  match u.postsTo i with
  | some c => if ok then u.postEntry i c e else u.haltCq i c
  | none => u

theorem State.postsReport_eq (u : State) (ok : Bool) (i : Nat) (e : Bool → Bytes) : u.postsReport ok i e =
    match u.postsTo i with
    | none => u
    | some c => if ok then u.postEntry i c e else u.haltCq i c := by
  unfold State.postsReport
  cases u.postsTo i <;> rfl

theorem healthReport_enabled {s : State} (ok : Bool) (hp : s.isPair = true) (he : s.on F.FBK_PATROL_CFG_EN = true) :
    healthReport ok s = s.reportServed.postsReport ok (s.rd F.FBK_PATROL_CFG_CQ)
      (cplBytes 0 (BitVec.ofNat 32 s.ns) s.frameNow (BitVec.ofNat 64 s.reportResult) 0 0 0xAF true none 0x000) := by
  rw [← State.reportServed_patrolCq]
  unfold healthReport
  rw [hp, he]
  rfl

theorem patrolTest_off {s : State} (eq unc : Bool)
    (h : s.isPair = false ∨ s.claims = true ∨ s.on F.FBK_CTRL_PATROL = false) : patrolTest eq unc s = s := by
  refine if_pos ?_
  rcases h with h | h | h <;> simp [h]

/-- A test that fails, or that met an uncorrectable word, counts and fires (R275, R285). -/
def State.patrolFails (u : State) : State :=
  ((State.inc { u with pair := { u.pair with fails := u.pair.fails + 1, patrolAt := some u.pair.updates } }
    F.FBK_PATROL_FAILS)).detect E.FBK_PATROL_FAIL

/-- What a Patrol standby's test does: an uncorrectable word counts first, and with equal nets nothing else happens without one
(R285). -/
theorem patrolTest_on {s : State} (eq unc : Bool) (hp : s.isPair = true) (hc : s.claims = false)
    (ho : s.on F.FBK_CTRL_PATROL = true) :
    patrolTest eq unc s = if unc then s.lmUncorr.patrolFails else if eq then s else s.patrolFails := by
  unfold patrolTest
  rw [hp, hc, ho]
  rw [if_neg (by decide)]
  cases unc
  · cases eq <;> simp [State.patrolFails]
  · simp [State.patrolFails]

/-! ### The pair's opcodes -/

section
variable {s : State} {d : Desc} (hd : d.only [] = true)

theorem handover_single (hp : s.isPair = false) : handover d s = s.finish d 0xA0 0xA03 := if_pos (by simp [hp])

include hd

theorem handover_pair (hp : s.isPair = true) : handover d s =
    if s.on F.FBK_CTRL_ARB then s.finish d 0xA0 0xA04
    else if !s.claims then s.finish d 0xA0 0xA02
    else if !s.peerFresh then s.finish d 0xA0 0xA01
    else State.resign { s.starts d with pair := { s.pair with hostBad := true, handover := some d } } := by
  simp only [handover, hp, hd]
  rfl

theorem pairStatus_pair (hp : s.isPair = true) : pairStatus d s = s.finish d 0xA1 0x000 (s.rd F.FBK_HEALTH_SCORE +
    2 ^ 8 * s.rd F.FBK_PEER_HEALTH_SCORE + 2 ^ 16 * s.rd F.FBK_STAT_STATE + 2 ^ 18 * s.rd F.FBK_STAT_SER_LOCK +
    2 ^ 19 * bits (s.rd (F.BLK_STICKY 16)) 4 1) := by
  simp only [pairStatus, hp, hd]
  rfl

theorem digestReset_pair (hm : d.mbx = false) (hp : s.isPair = true) : digestReset d s =
    State.finish { (s.wr F.FBK_DSEQ 0).wr F.FBK_DIGEST 0 with pair := { s.pair with digests := [] } } d 0xA2 0x000 := by
  simp only [digestReset, hm, hp, hd]
  rfl

end

/-- Settles O56: the serial frame in stages, then the report, the tests and the opcodes. -/
theorem pairLink : Obligations.PairLink := by
  unfold Obligations.PairLink
  refine ⟨?frame, ?lost, ?report, ?patrol, ?handover, ?status, ?digest⟩
  case frame =>
    exact fun s f hl hp => ⟨fun hg => ⟨_, rfl, next_of_live hl (fbSerFrame_bad hp hg)⟩,
      fun hg => ⟨_, _, _, _, _, _, _, rfl, rfl, rfl, rfl, rfl, rfl, rfl, next_of_live hl (fbSerFrame_good hp hg)⟩⟩
  case lost =>
    exact fun s f r hl hp hk hr => ⟨_, rfl, next_of_live hl (serLost_locked hp hk hr rfl)⟩
  case report =>
    exact fun s ok hl hp he => ⟨_, _, rfl, rfl,
      next_of_live hl ((healthReport_enabled ok hp he).trans (State.postsReport_eq _ ok _ _))⟩
  case patrol =>
    refine fun s eq unc hl => ⟨fun h => next_of_live hl (patrolTest_off eq unc h),
      fun hp hc ho => ⟨?_, ⟨_, rfl, ?_⟩, ⟨_, _, rfl, rfl, ?_⟩⟩⟩
    · exact next_of_live hl ((patrolTest_on true false hp hc ho).trans ((if_neg (by decide)).trans (if_pos rfl)))
    · exact next_of_live hl ((patrolTest_on false false hp hc ho).trans ((if_neg (by decide)).trans (if_neg (by decide))))
    · exact next_of_live hl ((patrolTest_on eq true hp hc ho).trans (if_pos rfl))
  case handover =>
    refine fun s d ha hd => ⟨fun hp => next_of_accepts ha (handover_single hp), fun hp hb => ?_, fun hp hb hc => ?_,
      fun hp hb hc hf => ?_, fun hp hb hc hf => ⟨_, rfl, ?_⟩⟩
    all_goals refine next_of_accepts ha ((handover_pair hd hp).trans ?_)
    · rw [if_pos hb]
    · rw [if_neg (by simp [hb]), if_pos (by simp [hc])]
    · rw [if_neg (by simp [hb]), if_neg (by simp [hc]), if_pos (by simp [hf])]
    · rw [if_neg (by simp [hb]), if_neg (by simp [hc]), if_neg (by simp [hf])]
  case status =>
    exact fun s d ha hd => ⟨fun hp => next_of_accepts ha (if_pos (by simp [hp])),
      fun hp => next_of_accepts ha (pairStatus_pair hd hp)⟩
  case digest =>
    exact fun s d ha hd => ⟨fun hm => next_of_accepts ha (if_pos hm),
      fun hm hp => next_of_accepts ha ((if_neg (by simp [hm])).trans (if_pos (by simp [hp]))),
      fun hm hp => ⟨_, rfl, next_of_accepts ha (digestReset_pair hd hm hp)⟩⟩

end Sys2Proof.Machine
end

section
/-! Completions in the ring order (R68, R71, R72). -/

namespace Sys2Proof.Machine

/-- What a descriptor that completes now leaves of itself (R71). -/
def State.doneNow (s : State) (st res : Nat) : Done :=
  { status := st, result := BitVec.ofNat 64 res, frame := s.frameNow, time := BitVec.ofNat 32 s.ns, fromTile := none }

/-- With no SQ_DELETE waiting, a descriptor of a submission queue completes in its own fetched entry and nowhere else. -/
theorem State.finish_host {s : State} {d : Desc} (op st res : Nat) (hm : d.mbx = false) (hd : s.hq.deleting = []) :
    s.finish d op st res =
      { s with hq := { s.hq with flights := markDone s.hq.flights d op (s.cqOf d.sq) (s.doneNow st res) } } := by
  rw [State.finish, State.finishAs, hd, hm]
  rfl

/-- Settles O7: the mark goes to the first unfinished entry of the descriptor, and no deletion follows. -/
theorem finishMarksFlight : Obligations.FinishMarksFlight := by
  unfold Obligations.FinishMarksFlight
  intro s d op st res before after f hm hdel hfl hsq hhead hdone hbefore
  rw [State.finish_host op st res hm hdel, hfl, markDone_at d op _ _ f after before hsq hhead hdone hbefore]
  rfl

end Sys2Proof.Machine
end

section
/-! Fault sources with the reactions log and interrupt (R62, R81, R290, R291). -/

namespace Sys2Proof.Machine

/-! ### What the detector of a plain source does -/

/-- A source with no counter of its own and no memory read behind it does what its detector does (R290). -/
theorem faultEvent_plain {s : State} {b i : Nat} (hh : s.blockHere b = true) (hr : (Map.find (reactDefaults b) i).isSome = true)
    (hc : sourceCount (b, i) = none) (hl : lmReadSource (b, i) = false) (hs : sramSource (b, i) = false)
    (hu : (b, i) ≠ E.LMC_UNCORR) : faultEvent b i s = s.detect (b, i) := by
  have hcount : (b, i) ≠ E.THM_THR_DROP ∧ (b, i) ≠ E.BRN_UNDERRUN := by
    refine ⟨fun h => ?_, fun h => ?_⟩ <;> rw [h] at hc <;> exact absurd hc (by decide)
  have hlm : (b, i) ≠ E.CNP_STORE_ECC := fun h => by rw [h] at hl; exact absurd hl (by decide)
  have hsram : (b, i) ≠ E.STP_BANK_ECC ∧ (b, i) ≠ E.CNP_CONV_ECC ∧ (b, i) ≠ E.BRN_SCRIPT_ECC ∧ (b, i) ≠ E.PAT_PAT_ECC := by
    refine ⟨fun h => ?_, fun h => ?_, fun h => ?_, fun h => ?_⟩ <;> rw [h] at hs <;> exact absurd hs (by decide)
  obtain ⟨hdrop, hunder⟩ := hcount
  obtain ⟨hbank, hconv, hscript, hpat⟩ := hsram
  simp [faultEvent, hh, hr, hc, hl, hs, hu, hdrop, hbank, State.noteCanopy, State.canopyBad, hlm, hconv, State.noteScript, hscript,
    State.noteLate, hunder, State.notePattern, hpat]

theorem State.codeOf_of_react {s t : State} (h : t.react = s.react) (b i : Nat) : t.codeOf b i = s.codeOf b i := by
  rw [State.codeOf, h, State.codeOf]

/-! Sending an interrupt leaves the reaction codes and the patches of lamp correction alone. -/

theorem State.sendVector_react_lcr (s : State) (v : Nat) : (s.sendVector v).react = s.react ∧ (s.sendVector v).lcr = s.lcr := by
  unfold State.sendVector
  split_ifs <;> exact ⟨rfl, rfl⟩

theorem State.raiseEvent_react_lcr (s : State) (b : Nat) : (s.raiseEvent b).react = s.react ∧ (s.raiseEvent b).lcr = s.lcr := by
  unfold State.raiseEvent
  split_ifs <;> exact ⟨rfl, rfl⟩

theorem State.notify_react_lcr (s : State) (b : Nat) : (s.notify b).react = s.react ∧ (s.notify b).lcr = s.lcr := by
  unfold State.notify
  split_ifs
  · obtain ⟨hreact, hlcr⟩ := (s.raiseEvent b).sendVector_react_lcr b
    obtain ⟨hreact', hlcr'⟩ := s.raiseEvent_react_lcr b
    exact ⟨hreact.trans hreact', hlcr.trans hlcr'⟩
  · exact s.sendVector_react_lcr b

theorem State.setPend_react_lcr (s : State) (b i : Nat) : (s.setPend b i).react = s.react ∧ (s.setPend b i).lcr = s.lcr := by
  unfold State.setPend
  extract_lets t
  split_ifs
  · exact ⟨rfl, rfl⟩
  · exact t.notify_react_lcr b
  · exact ⟨rfl, rfl⟩

theorem State.codeOf_setPend (s : State) (b i : Nat) : (s.setPend b i).codeOf b i = s.codeOf b i :=
  State.codeOf_of_react (s.setPend_react_lcr b i).1 b i

theorem State.sameReset_of_code {s : State} {b i : Nat} (h : s.codeOf b i ≠ 2) : s.sameReset (b, i) = false := by
  simp [State.sameReset, h]

/-- With reaction log a source sets its sticky bit alone (R290, R291). -/
theorem State.record_log {s : State} {b i : Nat} (hc : s.codeOf b i = 0) : s.record b i = s.stuck b i := by
  have h : (s.stuck b i).codeOf b i = 0 := hc
  simp only [State.stuck] at h ⊢
  simp [State.record, h]

/-- With reaction interrupt it sets its pending bit too. -/
theorem State.record_interrupt {s : State} {b i : Nat} (hc : s.codeOf b i = 1) :
    s.record b i = (s.stuck b i).setPend b i := by
  have h : (s.stuck b i).codeOf b i = 1 := hc
  have hp : ((s.stuck b i).setPend b i).codeOf b i = 1 := (State.codeOf_setPend _ b i).trans h
  simp only [State.stuck] at h hp ⊢
  simp [State.record, h, hp]

/-- Outside every quiesce window a source with one of these reactions is recorded and nothing more (R291, R294). -/
theorem State.detect_records {s : State} {b i : Nat} (hm : s.masked b i = false) (hc : s.codeOf b i = 0 ∨ s.codeOf b i = 1) :
    s.detect (b, i) = s.record b i := by
  have hs : s.sameReset (b, i) = false := State.sameReset_of_code (by omega)
  have hcode : (s.record b i).codeOf b i = s.codeOf b i := by
    rcases hc with hc | hc
    · rw [State.record_log hc]
      rfl
    · rw [State.record_interrupt hc]
      exact State.codeOf_setPend _ b i
  rw [State.detect, hs, hm]
  dsimp only
  rw [hcode]
  rcases hc with hc | hc <;> rw [hc] <;> rfl

/-! ### The pending bit and the interrupt -/

theorem State.stuck_irqPend (s : State) (b i : Nat) : (s.stuck b i).rd (F.BLK_IRQ_PEND b) = s.rd (F.BLK_IRQ_PEND b) :=
  (State.rd_regs rfl _).trans (s.rd_wr_ne _ (by simp only [Fld.key, F.BLK_STICKY, F.BLK_IRQ_PEND]; omega))

theorem State.pended_irqEn (s : State) (b i : Nat) : ((s.stuck b i).pended b i).rd (F.BLK_IRQ_EN b) = s.rd (F.BLK_IRQ_EN b) := by
  have h1 : (F.BLK_IRQ_PEND b).key ≠ (F.BLK_IRQ_EN b).key := by simp only [Fld.key, F.BLK_IRQ_PEND, F.BLK_IRQ_EN]; omega
  have h2 : (F.BLK_STICKY b).key ≠ (F.BLK_IRQ_EN b).key := by simp only [Fld.key, F.BLK_STICKY, F.BLK_IRQ_EN]; omega
  exact (State.rd_regs rfl _).trans ((State.rd_wr_ne _ _ h1).trans ((State.rd_regs rfl _).trans (s.rd_wr_ne _ h2)))

/-- A pending bit that becomes set goes on to the interrupt where it is enabled (R62, R290). -/
theorem State.setPend_stuck (s : State) (b i : Nat) : (s.stuck b i).setPend b i =
    if bit (s.rd (F.BLK_IRQ_PEND b)) i then s.stuck b i
    else if bit (s.rd (F.BLK_IRQ_EN b)) i then ((s.stuck b i).pended b i).notify b else (s.stuck b i).pended b i := by
  rw [← s.stuck_irqPend b i, ← s.pended_irqEn b i]
  rfl

/-! ### The interrupt -/

theorem State.notify_head {s : State} (b : Nat) (hh : s.isHead = true) : s.notify b = s.sendVector b := by
  rw [State.notify, State.isTile_of_isHead hh, if_neg (by decide)]

/-- The vector of an open entry leaves the device, its entry's data to its entry's address (R62). -/
theorem State.sendVector_open {s : State} {v : Nat} (hp : s.power.pcie = true) (ho : bit (s.msixWord (4 * v + 3)) 0 = false) :
    s.sendVector v = { s with
      out := .vector v (s.msixWord (4 * v) + 2 ^ 32 * s.msixWord (4 * v + 1)) (s.msixWord (4 * v + 2)) :: s.out } := by
  simp [State.sendVector, hp, State.vectorOpen, ho, State.vectorOut, State.emit]

/-- A masked vector is kept pending (R62). -/
theorem State.sendVector_masked {s : State} {v : Nat} (hp : s.power.pcie = true) (hm : bit (s.msixWord (4 * v + 3)) 0 = true)
    (hn : v ∉ s.hq.msixPend) : s.sendVector v = { s with hq := { s.hq with msixPend := v :: s.hq.msixPend } } := by
  simp [State.sendVector, hp, State.vectorOpen, hm, hn]

/-- Without a local host a tile's interrupt is an EVENT message alone (R81). -/
theorem State.notify_tile {s : State} (b : Nat) (ht : s.isTile = true) (hp : s.power.pcie = false) :
    s.notify b = s.raiseEvent b := by
  have h : (s.raiseEvent b).power.pcie = false := by
    rw [← hp]
    unfold State.raiseEvent
    split_ifs <;> rfl
  rw [State.notify, if_pos ht, State.sendVector, h, if_neg (by decide)]

/-- Settles O17: the detector by the reaction, then the pending bit, then the interrupt by role. -/
theorem faultRecords : Obligations.FaultRecords := by
  unfold Obligations.FaultRecords
  intro s b i hl hh hr hm hcount hlm hsram hunc
  have hexec : exec (.faultEvent b i) s = .next (s.detect (b, i)) := next_of_live hl (faultEvent_plain hh hr hcount hlm hsram hunc)
  rw [hexec]
  refine ⟨fun hc => by rw [State.detect_records hm (.inl hc), State.record_log hc], fun hc => ?interrupt⟩
  rw [State.detect_records hm (.inr hc), State.record_interrupt hc, State.setPend_stuck]
  refine ⟨fun hp => by rw [if_pos hp], fun hp he => ?_, fun hp he hd hpcie => ?head, fun hp he ht hpcie => ?tile⟩
  · rw [if_neg (by simp [hp]), if_neg (by simp [he])]
  all_goals rw [if_neg (by simp [hp]), if_pos he]
  case head =>
    have hvec : ((s.stuck b i).pended b i).notify b = ((s.stuck b i).pended b i).sendVector b := State.notify_head b hd
    rw [hvec]
    exact ⟨fun ho => congrArg _ (State.sendVector_open hpcie ho), fun hmask hn => congrArg _ (State.sendVector_masked hpcie hmask hn)⟩
  case tile =>
    have hevent : ((s.stuck b i).pended b i).notify b = ((s.stuck b i).pended b i).raiseEvent b := State.notify_tile b ht hpcie
    rw [hevent]
    exact ⟨fun hsent => ⟨_, rfl, congrArg _ (if_neg (ne_true_of_eq_false hsent))⟩, fun hsent => congrArg _ (if_pos hsent)⟩

end Sys2Proof.Machine
end

section
/-! Copies between host memory and Local Memory: LOCAL_WRITE, LOCAL_READ and the BAR4 aperture (R60, R61, R77). -/

namespace Sys2Proof.Machine

theorem leBytes_length (n v : Nat) : (leBytes n v).length = n := by
  induction n generalizing v with
  | zero => rfl
  | succ n ih => rw [leBytes, List.length_cons, ih]

/-! ### LOCAL_WRITE and LOCAL_READ -/

section
variable {s : State} {d : Desc} (ho : d.only [(8, 0, 64), (16, 0, 64), (24, 0, 32)] = true) (hlo : 1 ≤ d.num 24 4)
  (hhi : d.num 24 4 ≤ 16777216)
include ho hlo hhi

/-- With a lawful length the two opcodes refuse exactly the ranges that host-visible functions may not use (R61, R77). -/
theorem copyStatus_lawful : copyStatus d = if lmOk (d.num 8 8) (d.num 24 4) then none else some stAddress := by
  have hlo' : ¬ d.num 24 4 < 1 := by omega
  cases hlm : lmOk (d.num 8 8) (d.num 24 4) <;> simp [copyStatus, ho, hlo', hhi, hlm]

theorem localWrite_address (x : HostData) (hlm : lmOk (d.num 8 8) (d.num 24 4) = false) :
    localWrite d x s = s.finish d 0x35 stAddress := by
  rw [localWrite, copyStatus_lawful ho hlo hhi, hlm]
  rfl

theorem localWrite_reach (x : HostData) (hlm : lmOk (d.num 8 8) (d.num 24 4) = true) : localWrite d x s =
    if x.ok then (s.lmWrite (d.num 8 8) ((List.range (d.num 24 4)).map (byteAt x.bytes))).finish d 0x35 stOk
    else (s.scramble (d.num 8 8) (d.num 24 4)).finish d 0x35 stPcie := by
  rw [localWrite, copyStatus_lawful ho hlo hhi, hlm]
  rfl

theorem localRead_address (ok : Bool) (hlm : lmOk (d.num 8 8) (d.num 24 4) = false) :
    localRead d ok s = s.finish d 0x36 stAddress := by
  rw [localRead, copyStatus_lawful ho hlo hhi, hlm]
  rfl

theorem localRead_reach (ok : Bool) (hlm : lmOk (d.num 8 8) (d.num 24 4) = true) : localRead d ok s =
    if s.lmBadIn (d.num 8 8) (d.num 24 4) then s.lmUncorr.finish d 0x36 stEcc
    else if ok then (s.emit (.hostWrite (d.num 16 8) (s.lmRead (d.num 8 8) (d.num 24 4)))).finish d 0x36 stOk
    else s.finish d 0x36 stPcie := by
  rw [localRead, copyStatus_lawful ho hlo hhi, hlm]
  rfl

end

/-- What the copy from the host leaves in Local Memory: the host's bytes, or free ones where the transfer failed. -/
def State.copyIn (s : State) (a n : Nat) (x : HostData) : State :=
  if x.ok then s.lmWrite a ((List.range n).map (byteAt x.bytes)) else s.scramble a n

theorem State.copyIn_get {s : State} {a n k : Nat} {x : HostData} (hx : x.ok = true) (hk : k < n) :
    Store.get (s.copyIn a n x).lm (a + k) = byteAt x.bytes k := by
  have hlen : k < ((List.range n).map (byteAt x.bytes)).length := by simpa using hk
  rw [State.copyIn, if_pos hx, State.lmWrite_lm, Store.get_write_in _ _ _ _ hlen]
  simp

theorem State.copyIn_get_out {s : State} {a n b : Nat} (x : HostData) (h : b < a ∨ a + n ≤ b) :
    Store.get (s.copyIn a n x).lm b = Store.get s.lm b := by
  unfold State.copyIn
  split_ifs
  · exact Store.get_write_out _ _ _ _ (by simpa using h)
  · exact Store.get_write_out _ _ _ _ (by rw [leBytes_length]; exact h)

theorem State.copyIn_frame (s : State) (a n : Nat) (x : HostData) :
    (s.copyIn a n x).regs = s.regs ∧ (s.copyIn a n x).sdb = s.sdb := by
  unfold State.copyIn
  split_ifs <;> exact ⟨rfl, rfl⟩

/-! ### The BAR4 aperture -/

/-- A write through the aperture touches Local Memory alone. -/
theorem State.bar4Write_frame (s : State) (a : Nat) (bs : Bytes) : (s.bar4Write a bs).regs = s.regs ∧
    (s.bar4Write a bs).sdb = s.sdb ∧ (s.bar4Write a bs).hq = s.hq := by
  induction bs generalizing s a with
  | nil => exact ⟨rfl, rfl, rfl⟩
  | cons v bs ih =>
    rw [State.bar4Write]
    obtain ⟨hregs, hsdb, hhq⟩ := ih (if lmOk a 1 then s.lmWrite a [v] else s) (a + 1)
    rw [hregs, hsdb, hhq]
    split_ifs <;> exact ⟨rfl, rfl, rfl⟩

/-- One byte through the aperture. -/
theorem get_bar4Byte (s : State) (a b : Nat) (v : Byte) : Store.get (if lmOk a 1 then s.lmWrite a [v] else s).lm b =
    if lmOk a 1 = true ∧ b = a then v else Store.get s.lm b := by
  by_cases hok : lmOk a 1 = true
  · by_cases hb : b = a
    · subst hb
      simp [hok, Store.write]
    · simp [hok, Store.write, hb, Store.get_put_ne _ _ (Ne.symm hb)]
  · simp [hok]

/-- A byte outside the bytes written, or out of reach, reads as before (R61). -/
theorem State.bar4Write_get_out (s : State) (a b : Nat) (bs : Bytes) (h : b < a ∨ a + bs.length ≤ b ∨ lmOk b 1 = false) :
    Store.get (s.bar4Write a bs).lm b = Store.get s.lm b := by
  induction bs generalizing s a with
  | nil => rfl
  | cons v bs ih =>
    rw [List.length_cons] at h
    rw [State.bar4Write, ih _ _ (h.imp (by omega) (Or.imp_left (by omega))), get_bar4Byte, if_neg]
    rintro ⟨hok, rfl⟩
    rcases h with h | h | h
    · omega
    · omega
    · rw [h] at hok
      cases hok

/-- A byte written in reach reads as the byte written there. -/
theorem State.bar4Write_get_in (s : State) (a k : Nat) (bs : Bytes) (h : k < bs.length) (hok : lmOk (a + k) 1 = true) :
    Store.get (s.bar4Write a bs).lm (a + k) = bs[k] := by
  induction bs generalizing s a k with
  | nil => simp at h
  | cons v bs ih =>
    rw [State.bar4Write]
    cases k with
    | zero =>
      rw [State.bar4Write_get_out _ _ _ _ (.inl (by omega)), get_bar4Byte, if_pos ⟨hok, rfl⟩]
      rfl
    | succ k =>
      have hk : k < bs.length := by simpa using h
      have ha : a + (k + 1) = a + 1 + k := by omega
      rw [ha] at hok ⊢
      exact ih _ _ _ hk hok

theorem bar4Access_write {s : State} {off : Nat} {bs : Bytes} (len : Nat) (hp : s.power.pcie = true)
    (h : off + bs.length ≤ 2 ^ 28) : bar4Access off (some bs) len s = s.bar4Write (s.aperture + off) bs :=
  if_pos (by rw [hp, decide_eq_true h]; rfl)

/-- Settles O38: the operands' judgement, then byte by byte what the write leaves. -/
theorem localBytes : Obligations.LocalBytes := by
  unfold Obligations.LocalBytes
  refine ⟨?write, ?read, ?bar4Write, ?bar4Read⟩
  case write =>
    rintro s d x _ _ hacc ho rfl rfl hlo hhi
    refine ⟨fun hlm => next_of_accepts hacc (localWrite_address ho hlo hhi x hlm),
      fun hlm => ⟨s.copyIn (d.num 8 8) (d.num 24 4) x, next_of_accepts hacc ?_, fun hx k hk => State.copyIn_get hx hk,
        fun b hb => State.copyIn_get_out x hb, s.copyIn_frame _ _ x⟩⟩
    rw [localWrite_reach ho hlo hhi x hlm, State.copyIn]
    cases x.ok <;> rfl
  case read =>
    rintro s d _ _ hacc ho rfl rfl hlo hhi
    refine ⟨fun hlm ok => next_of_accepts hacc (localRead_address ho hlo hhi ok hlm),
      fun hlm hb ok => next_of_accepts hacc ((localRead_reach ho hlo hhi ok hlm).trans (if_pos hb)), fun hlm hb => ⟨?_, ?_⟩⟩
    all_goals exact next_of_accepts hacc ((localRead_reach ho hlo hhi _ hlm).trans (by rw [hb]; rfl))
  case bar4Write =>
    refine fun s off len bs hl hp h => ⟨_, next_of_live hl (bar4Access_write len hp h),
      fun k hk hok => s.bar4Write_get_in _ _ _ hk hok, fun b hb => s.bar4Write_get_out _ _ _ hb, s.bar4Write_frame _ _⟩
  case bar4Read => exact fun s off len hl => next_of_live hl rfl

end Sys2Proof.Machine
end

section
/-! NOP and queue management (R63, R66, R67, R73, R75, R76). -/

namespace Sys2Proof.Machine

/-! ### The shell of queue management -/

/-- On another queue than SQ 0 queue management is refused (R73). -/
theorem onAdmin_other {s : State} {d : Desc} (op : Nat) (f : State → State) (h : d.sq ≠ 0) :
    onAdmin d op f s = s.finish d op stNotAdmin :=
  if_pos (by simpa using h)

theorem onAdmin_zero {s : State} {d : Desc} (op : Nat) (f : State → State) (h : d.sq = 0) : onAdmin d op f s = f s :=
  if_neg (by simp [h])

/-- Accepted on SQ 0, a queue management opcode has its own effect. -/
theorem next_of_admin {s t : State} {d : Desc} {op : Nat} {f : State → State} (hacc : s.accepts d op .both = true) (hq : d.sq = 0)
    (hf : f s = t) : onOp s d op .both (onAdmin d op f) = .next t :=
  next_of_accepts hacc ((onAdmin_zero op f hq).trans hf)

theorem exec_nop (s : State) (d : Desc) :
    exec (.nop d) s = onOp s d 0x00 .both (fun s => s.finish d 0x00 (if d.only [] then stOk else stFormat)) := rfl

/-! ### SQ_CREATE and CQ_CREATE -/

/-- The submission queue that SQ_CREATE's operands describe (R63). -/
def newSq (d : Desc) : Sq :=
  { base := d.num 0 8, depth := 2 ^ d.num 10 1, cq := d.num 11 1, prio := d.bitsAt 12 0 2, mailbox := d.flag 12 4, burst := d.num 13 1,
    head := 0, tail := 0, halted := false }

/-- A mailbox queue needs the link of its tile (R76, R79). -/
def State.linked (u : State) (d : Desc) (links : Map MbxLink) : State :=
  if d.flag 12 4 = true ∧ Map.find links (d.num 8 2 - 512) = none then u.setLink (d.num 8 2 - 512) .fresh else u

section
variable {s : State} {d : Desc} (ho : d.only [(0, 0, 64), (8, 0, 16), (10, 0, 8), (11, 0, 8), (12, 0, 2), (12, 4, 1), (13, 0, 8)] = true)
include ho

theorem sqCreate_size (h : d.num 10 1 < 4 ∨ 14 < d.num 10 1 ∨ d.num 13 1 < 1 ∨ 64 < d.num 13 1) :
    sqCreate d s = s.finish d 1 stFormat :=
  (if_neg (by simp [ho])).trans (if_pos (by simpa [or_assoc] using h))

variable (hd : 4 ≤ d.num 10 1 ∧ d.num 10 1 ≤ 14) (hb : 1 ≤ d.num 13 1 ∧ d.num 13 1 ≤ 64)
include hd hb

/-- With a lawful depth and burst SQ_CREATE judges the mailbox bit, the base and the indexes, in this order. -/
theorem sqCreate_sized : sqCreate d s =
    if d.flag 12 4 = true ∧ (d.num 8 2 < 512 ∨ s.isTile = true) then s.finish d 1 stFormat
    else if d.num 0 8 % 4096 ≠ 0 then s.finish d 1 stAddress
    else if d.num 8 2 = 0 ∨ 1023 < d.num 8 2 ∨ (s.sq (d.num 8 2)).isSome = true ∨ s.cq (d.num 11 1) = none then s.finish d 1 stQueueId
    else ((s.setSq (d.num 8 2) (newSq d)).linked d s.trail.links).finish d 1 stOk := by
  obtain ⟨hd4, hd14⟩ := hd
  obtain ⟨hb1, hb64⟩ := hb
  have hsize : (decide (d.num 10 1 < 4) || decide (14 < d.num 10 1) || decide (d.num 13 1 < 1) || decide (64 < d.num 13 1)) = false := by
    simp; omega
  simp only [sqCreate, ho, hsize, Bool.not_true, Bool.false_eq_true, if_false, Bool.and_eq_true, Bool.or_eq_true, decide_eq_true_eq,
    bne_iff_ne, Option.isNone_iff_eq_none, or_assoc]
  rfl

end

/-- The completion queue that CQ_CREATE's operands describe (R63, R66, R73). -/
def newCq (d : Desc) : Cq :=
  { base := d.num 0 8, depth := 2 ^ d.num 17 1, headAddr := d.num 8 8, vector := d.num 18 1, irqEn := d.flag 19 0
    coalCount := d.num 20 2, coalTime := d.num 22 2, tail := 0, phase := true, head := 0, halted := false, unsig := 0, unsigAt := 0 }

/-- With a lawful depth and count CQ_CREATE judges the addresses and then the index. -/
theorem cqCreate_sized {s : State} {d : Desc}
    (ho : d.only [(0, 0, 64), (8, 0, 64), (16, 0, 8), (17, 0, 8), (18, 0, 8), (19, 0, 1), (20, 0, 16), (22, 0, 16)] = true)
    (hd : 4 ≤ d.num 17 1 ∧ d.num 17 1 ≤ 14) (hc : 1 ≤ d.num 20 2 ∧ d.num 20 2 ≤ 256) : cqCreate d s =
    if d.num 0 8 % 4096 ≠ 0 ∨ d.num 8 8 % 4 ≠ 0 then s.finish d 3 stAddress
    else if d.num 16 1 = 0 ∨ (s.cq (d.num 16 1)).isSome = true then s.finish d 3 stQueueId
    else (s.setCq (d.num 16 1) (newCq d)).finish d 3 stOk := by
  obtain ⟨hd4, hd14⟩ := hd
  obtain ⟨hc1, hc256⟩ := hc
  have hsize : (decide (d.num 17 1 < 4) || decide (14 < d.num 17 1) || decide (d.num 20 2 < 1) || decide (256 < d.num 20 2)) = false := by
    simp; omega
  simp only [cqCreate, ho, hsize, Bool.not_true, Bool.false_eq_true, if_false, Bool.or_eq_true, decide_eq_true_eq, bne_iff_ne]
  rfl

/-! ### SQ_DELETE and CQ_DELETE -/

theorem sqDelete_refused {s : State} {d : Desc} (ho : d.only [(0, 0, 16)] = true)
    (h : d.num 0 2 = 0 ∨ s.sq (d.num 0 2) = none ∨ s.hq.deleting.any (·.1 == d.num 0 2) = true) :
    sqDelete d s = s.finish d 2 stQueueId :=
  (if_neg (by simp [ho])).trans (if_pos (by
    simp only [Bool.or_eq_true, decide_eq_true_eq, Option.isNone_iff_eq_none, or_assoc]
    exact h))

theorem sqDelete_taken {s : State} {d : Desc} (ho : d.only [(0, 0, 16)] = true) (h0 : d.num 0 2 ≠ 0)
    (hq : (s.sq (d.num 0 2)).isSome = true) (hn : s.hq.deleting.any (·.1 == d.num 0 2) = false) {u v : State}
    (hu : u = s.abortFlights (d.num 0 2) stAbortDelete (fun f => !f.started))
    (hv : v = { u with hq := { u.hq with deleting := u.hq.deleting ++ [(d.num 0 2, d)] } }) :
    sqDelete d s = settleDeletes v.hq.deleting v := by
  subst hu hv
  refine (if_neg (by simp [ho])).trans ((if_neg ?_).trans rfl)
  simp only [Bool.or_eq_true, decide_eq_true_eq, Option.isNone_iff_eq_none, hn, not_or]
  exact ⟨⟨h0, Option.isSome_iff_ne_none.mp hq⟩, Bool.false_ne_true⟩

/-- A deletion waits for the unfinished descriptors of its queue. -/
theorem settleDeletes_waits {s : State} {i : Nat} (d : Desc) (h : s.hq.flights.any (fun f => f.sq == i && f.done.isNone) = true) :
    settleDeletes [(i, d)] s = s :=
  if_pos h

/-- Then the queue is gone and its deletion completes (R75). -/
theorem settleDeletes_done {s : State} {i : Nat} (d : Desc) (h : s.hq.flights.any (fun f => f.sq == i && f.done.isNone) = false) :
    settleDeletes [(i, d)] s = { s with hq := { s.hq with
      flights := markDone s.hq.flights d 2 0 (s.doneNow 0 0), sqs := Map.del s.hq.sqs i, deleting := s.hq.deleting.erase (i, d) } } :=
  if_neg (ne_true_of_eq_false h)

theorem cqDelete_refused {s : State} {d : Desc} (ho : d.only [(16, 0, 8)] = true) (h : d.num 16 1 = 0 ∨ s.cq (d.num 16 1) = none) :
    cqDelete d s = s.finish d 4 stQueueId :=
  (if_neg (by simp [ho])).trans (if_pos (by simpa using h))

theorem cqDelete_existing {s : State} {d : Desc} (ho : d.only [(16, 0, 8)] = true) (h0 : d.num 16 1 ≠ 0)
    (hc : (s.cq (d.num 16 1)).isSome = true) : cqDelete d s =
      if s.hq.sqs.any (fun x => x.2.cq == d.num 16 1) then s.finish d 4 stQueueBusy
      else { s with hq := { s.hq with cqs := Map.del s.hq.cqs (d.num 16 1) } }.finish d 4 stOk :=
  (if_neg (by simp [ho])).trans (if_neg (by simp [h0, Option.isSome_iff_ne_none.mp hc]))

/-! ### QUEUE_QUERY -/

theorem queueQuery_lawful {s : State} {d : Desc} (ho : d.only [(0, 0, 16), (16, 0, 8)] = true) : queueQuery d s =
    if 1023 < d.num 0 2 then s.finish d 5 stQueueId else s.finish d 5 stOk (s.queryResult (d.num 0 2) (d.num 16 1)) :=
  if_neg (by simp [ho])

theorem mul_b2n (n : Nat) (b : Bool) : n * b2n b = if b then n else 0 := by
  cases b
  · exact Nat.mul_zero n
  · exact Nat.mul_one n

/-- What a query of two existing queues answers (R75). -/
theorem State.queryResult_both {s : State} {i j : Nat} {q : Sq} {c : Cq} (hq : s.sq i = some q) (hc : s.cq j = some c) :
    s.queryResult i j = q.head + 2 ^ 14 * q.tail + (if q.halted then 2 ^ 28 else 0) + 2 ^ 29 +
      (2 ^ 32 * c.tail + 2 ^ 46 * c.head + (if c.halted then 2 ^ 60 else 0) + 2 ^ 61) := by
  rw [State.queryResult, hq, hc, ← mul_b2n, ← mul_b2n]

/-- Settles O37: the shell once, then each opcode's judgement of lawful operands, in its order. -/
theorem adminQueues : Obligations.AdminQueues := by
  unfold Obligations.AdminQueues
  refine ⟨?nop, ?notAdmin, ?sqCreate, ?sqDelete, ?settle, ?cqCreate, ?cqDelete, ?query⟩
  case nop => exact fun s d hacc => (exec_nop s d).trans (next_of_accepts hacc rfl)
  case notAdmin =>
    intro s d hq
    refine ⟨?_, ?_, ?_, ?_, ?_⟩ <;> exact fun hacc => next_of_accepts hacc (onAdmin_other _ _ hq)
  case sqCreate =>
    refine fun s d hq hacc ho => ⟨fun h => next_of_admin hacc hq (sqCreate_size ho h), fun hd4 hd14 hb1 hb64 => ?_⟩
    have hsized := sqCreate_sized (s := s) ho ⟨hd4, hd14⟩ ⟨hb1, hb64⟩
    refine ⟨fun hm h => next_of_admin hacc hq (hsized.trans (if_pos ⟨hm, h⟩)), fun hm => ?_⟩
    have hm' : ¬ (d.flag 12 4 = true ∧ (d.num 8 2 < 512 ∨ s.isTile = true)) := by
      rintro ⟨hf, h⟩
      rcases hm with hm | ⟨hm, ht⟩
      · rw [hm] at hf
        cases hf
      · rcases h with h | h
        · omega
        · rw [ht] at h
          cases h
    rw [if_neg hm'] at hsized
    refine ⟨fun ha => next_of_admin hacc hq (hsized.trans (if_pos ha)), fun ha => ?_⟩
    rw [if_neg (not_not.mpr ha)] at hsized
    refine ⟨fun h => next_of_admin hacc hq (hsized.trans (if_pos h)), fun h0 h1023 hs hc => ⟨_, rfl, next_of_admin hacc hq ?_⟩⟩
    refine hsized.trans (if_neg ?_)
    rintro (h | h | h | h)
    · exact h0 h
    · omega
    · rw [hs] at h
      cases h
    · rw [h] at hc
      cases hc
  case sqDelete =>
    exact fun s d hq hacc ho => ⟨fun h => next_of_admin hacc hq (sqDelete_refused ho h), fun h0 hs hn =>
      ⟨_, _, rfl, rfl, next_of_admin hacc hq (sqDelete_taken ho h0 hs hn rfl rfl)⟩⟩
  case settle =>
    refine fun s i d => ⟨_, rfl, settleDeletes_waits d, fun h => ?_⟩
    rw [settleDeletes_done d h]
    exact ⟨rfl, rfl, rfl, rfl, _, rfl, rfl⟩
  case cqCreate =>
    intro s d hq hacc ho hd4 hd14 hc1 hc256
    have hsized := cqCreate_sized (s := s) ho ⟨hd4, hd14⟩ ⟨hc1, hc256⟩
    refine ⟨fun h => next_of_admin hacc hq (hsized.trans (if_pos h)), fun hb hw => ?_⟩
    rw [if_neg (by simp [hb, hw])] at hsized
    refine ⟨fun h => next_of_admin hacc hq (hsized.trans (if_pos h)), fun h0 hn => next_of_admin hacc hq (hsized.trans (if_neg ?_))⟩
    simp [h0, hn]
  case cqDelete =>
    exact fun s d hq hacc ho => ⟨fun h => next_of_admin hacc hq (cqDelete_refused ho h),
      fun h0 hc => next_of_admin hacc hq (cqDelete_existing ho h0 hc)⟩
  case query =>
    refine fun s d hq hacc ho => ⟨fun h => next_of_admin hacc hq ((queueQuery_lawful ho).trans (if_pos h)),
      fun q c h hs hc => next_of_admin hacc hq ((queueQuery_lawful ho).trans ?_)⟩
    rw [if_neg (by omega), State.queryResult_both hs hc]
    rfl

end Sys2Proof.Machine
end

section
/-! Host queues: doorbells, fetches, postings, head words and the admin pair's set-up (R63, R65, R66, R68, R69, R71, R73, R382, R393). -/

namespace Sys2Proof.Machine

/-! ### Doorbells and fetches -/

theorem State.doorbell_of_sq {s : State} {i : Nat} {q : Sq} (w : Word) (hq : s.sq i = some q)
    (h : s.on F.GLB_BOOT_STAT_NOT_READY = false ∨ i = 0) :
    s.doorbell i w = if w.toNat < q.depth then s.setSq i { q with tail := w.toNat } else s.detect E.HQS_DB_RANGE := by
  have hready : (s.on F.GLB_BOOT_STAT_NOT_READY && i != 0) = false := by rcases h with h | h <;> simp [h]
  unfold State.doorbell
  rw [hq]
  simp only [hready, Bool.false_eq_true, if_false]
  by_cases hw : w.toNat < q.depth
  · rw [if_pos hw, if_neg (by omega)]
  · rw [if_neg hw, if_pos (by omega)]

section
variable {s : State} {i : Nat} {q : Sq} (hs : s.serves = true) (hn : s.nextSq = some i) (hq : s.sq i = some q) (x : HostData)
include hs hn hq

/-- A fetch that fails halts the queue that R69 names (R68, R75). -/
theorem descriptorFetch_failed (hx : x.ok = false) : descriptorFetch x s =
    (((s.serveOne i q).setSq i { q with halted := true }).detect E.HQS_FETCH_ERR).fetchLost i q := by
  unfold descriptorFetch
  rw [hs, hn]
  simp only [hq, hx]
  rfl

/-- A descriptor that arrives takes off, and goes on to its tile or to its dispatch (R68, R76). -/
theorem descriptorFetch_arrives (hx : x.ok = true) {op : Nat} {d : Desc} {u : State}
    (hp : parseDesc i false ((q.head + 1) % q.depth) x.bytes = (op, d))
    (hu : u = ((s.serveOne i q).setSq i { q with head := (q.head + 1) % q.depth }).takeOff op d) : descriptorFetch x s =
      if q.mailbox then u.forward (i - 512) op d else (u.dispatchStatus op d).elim u (u.finish d op ·) := by
  unfold descriptorFetch
  rw [hs, hn]
  simp only [hq, hx, hp, ← hu, Bool.not_true, Bool.false_eq_true, if_false]
  cases u.dispatchStatus op d <;> rfl

end

/-! ### Postings -/

theorem completionPost_word_ignored {s : State} {i : Nat} (w : Word) (ok : Bool) (h : i = 0 ∨ s.on F.HQS_CTRL_EN = false) :
    completionPost i (some w) ok s = s.post i ok := by
  have hc : (decide (i = 0) || !s.on F.HQS_CTRL_EN) = true := by rcases h with h | h <;> simp [h]
  simp only [completionPost, hc, if_true]

theorem State.headWord_of_cq {s : State} {i : Nat} {c : Cq} (w : Word) (hc : s.cq i = some c) :
    s.headWord i w = if c.depth ≤ w.toNat then s.detect E.HQS_DB_RANGE else s.setCq i { c with head := w.toNat } := by
  rw [State.headWord, hc]

theorem completionPost_word {s : State} {i : Nat} {c : Cq} (w : Word) (ok : Bool) (hc : s.cq i = some c) (hi : i ≠ 0)
    (he : s.on F.HQS_CTRL_EN = true) : completionPost i (some w) ok s =
      State.post (if c.depth ≤ w.toNat then s.detect E.HQS_DB_RANGE else s.setCq i { c with head := w.toNat }) i ok := by
  rw [← State.headWord_of_cq w hc]
  simp [completionPost, hi, he]

section
variable {s : State} {i : Nat} {c : Cq}

/-- An entry for a queue that is not halted waits for a free place, halts the queue where its write fails, or is posted (R66,
R75). -/
theorem State.postOrWait_running (ok : Bool) (e : Bool → Bytes) (gone : State → State) (hh : c.halted = false) :
    s.postOrWait i c ok e gone = if c.full = true then s.detect E.HQS_CQ_FULL
      else if ok = false then State.detect (s.setCq i { c with halted := true }) E.HQS_CQ_WRITE_ERR
      else (gone s).postEntry i c e := by
  rw [State.postOrWait, hh]
  cases ok <;> rfl

variable (ok : Bool) (hc : s.cq i = some c) (hh : c.halted = false)
include hc hh

/-- An event entry that waits is posted first (R140; log entry 180). -/
theorem State.post_event {e : Nat × Bytes} (he : s.hq.events.find? (·.1 == i) = some e) : s.post i ok =
    if c.full = true then s.detect E.HQS_CQ_FULL
    else if ok = false then State.detect (s.setCq i { c with halted := true }) E.HQS_CQ_WRITE_ERR
    else State.postEntry { s with hq := { s.hq with events := s.hq.events.erase e } } i c (withPhase e.2) := by
  unfold State.post
  rw [hc]
  simp only [he]
  exact State.postOrWait_running ok _ _ hh

/-- Else the next finished flight is, unless it is QUIET and OK (R67, R68). -/
theorem State.post_flight {f : Flight} {r : Done} (he : s.hq.events.find? (·.1 == i) = none)
    (hf : postable i s.hq.flights [] = some f) (hr : f.done = some r) : s.post i ok =
      if f.flags.getLsbD 1 = true ∧ r.status = 0 then (s.digest f r.status).landed f
      else if c.full = true then s.detect E.HQS_CQ_FULL
      else if ok = false then State.detect (s.setCq i { c with halted := true }) E.HQS_CQ_WRITE_ERR
      else ((s.digest f r.status).landed f).postEntry i c (f.entry r) := by
  unfold State.post
  rw [hc]
  simp only [he, hf, hr, Bool.and_eq_true, decide_eq_true_eq, State.postOrWait_running ok _ _ hh]

end

/-- A completion queue after an entry has been posted: the tail moves on, PHASE flips at the wrap, and the count of unsignalled
entries starts again where the vector goes out (R63, R66, R73). -/
def Cq.posted (c : Cq) (core : Nat) : Cq :=
  { c with tail := (c.tail + 1) % c.depth, phase := if (c.tail + 1) % c.depth = 0 then !c.phase else c.phase
           unsig := if c.irqEn = true ∧ c.coalCount ≤ c.unsig + 1 then 0 else c.unsig + 1
           unsigAt := if c.unsig = 0 then core else c.unsigAt }

theorem State.postEntry_eq (s : State) (i : Nat) (c : Cq) (e : Bool → Bytes) : s.postEntry i c e =
    if c.irqEn = true ∧ c.coalCount ≤ c.unsig + 1
    then ((s.emit (.hostWrite (c.base + 32 * c.tail) (e c.phase))).setCq i (c.posted s.core)).sendVector c.vector
    else (s.emit (.hostWrite (c.base + 32 * c.tail) (e c.phase))).setCq i (c.posted s.core) := by
  unfold State.postEntry Cq.posted
  simp only [Bool.and_eq_true, decide_eq_true_eq, State.emit_core]
  by_cases hv : c.irqEn = true ∧ c.coalCount ≤ c.unsig + 1
  · simp only [if_pos hv]
  · simp only [if_neg hv]

/-! ### Head words -/

theorem headWordRead_reads {s : State} {i : Nat} {c : Cq} (w : Word) (hc : s.cq i = some c) :
    headWordRead i w s = if s.readsHead i c then s.headWord i w else s := by
  rw [headWordRead, hc]

theorem State.readsHead_polled {s : State} {i : Nat} {c : Cq} (hi : i ≠ 0) (he : s.on F.HQS_CTRL_EN = true)
    (h : 8 * c.free < c.depth ∨ s.postWaits i c = true) : s.readsHead i c = true := by
  simp [State.readsHead, hi, he, h]

theorem acqHeadWrite_eq {s : State} {c : Cq} (w : Word) (hc : s.cq 0 = some c) : acqHeadWrite w s =
    if c.depth ≤ w.toNat then s.detect E.HQS_DB_RANGE else (s.wr F.HQS_ACQ_HEAD w.toNat).setCq 0 { c with head := w.toNat } := by
  have hc' : (s.wr F.HQS_ACQ_HEAD w.toNat).cq 0 = some c := hc
  rw [acqHeadWrite, hc]
  dsimp only
  split_ifs with h
  · rfl
  · rw [State.headWord_of_cq w hc', if_neg h]

/-- CTIME after the first unsignalled entry the vector is sent (R73). -/
theorem coalesceTimer_due {s : State} {i : Nat} {c : Cq} (hc : s.cq i = some c) (he : c.irqEn = true) (ht : 0 < c.coalTime)
    (hu : 0 < c.unsig) : coalesceTimer i s =
      ((s.advance (c.unsigAt + 16 * c.coalTime - s.core)).setCq i { c with unsig := 0 }).sendVector c.vector := by
  rw [coalesceTimer, hc]
  exact if_pos (by simp [he, ht, hu])

/-! ### The admin pair's set-up -/

theorem bits_low (v n : Nat) : bits v 0 n = v % 2 ^ n := by rw [bits, pow_zero, Nat.div_one]

/-- The admin completion queue takes its vector at any time (R63). -/
def State.setAcqVector (s : State) (c : Cq) (v : Nat) : State :=
  (s.wr F.HQS_ACQ_CFG_VECTOR v).setCq 0 { c with vector := v }

theorem State.setAcqVector_enabled (s : State) (c : Cq) (v : Nat) : (s.setAcqVector c v).on F.HQS_CTRL_EN = s.on F.HQS_CTRL_EN :=
  congrArg (· != 0) ((State.rd_regs rfl _).trans (s.rd_wr_ne v (by decide)))

theorem adminQueueSetup_vector {s : State} {c : Cq} (v : Word) (hc : s.cq 0 = some c) : adminQueueSetup 0x30058 v s =
    if 4 ≤ v.toNat % 16 ∧ v.toNat % 16 ≤ 14 ∧ s.on F.HQS_CTRL_EN = false
    then ((s.setAcqVector c (v.toNat / 256 % 256)).wr F.HQS_ACQ_CFG_DEPTH_LOG2 (v.toNat % 16)).syncAcq
    else s.setAcqVector c (v.toNat / 256 % 256) := by
  have hc' : (s.wr F.HQS_ACQ_CFG_VECTOR (bits v.toNat 8 8)).cq 0 = some c := hc
  have hvec : (s.wr F.HQS_ACQ_CFG_VECTOR (bits v.toNat 8 8)).setCq 0 { c with vector := bits v.toNat 8 8 } =
    s.setAcqVector c (v.toNat / 256 % 256) := rfl
  simp only [adminQueueSetup, hc', hvec, State.setAcqVector_enabled, bits_low]
  simp [and_assoc]

section
variable {s : State} (v : Word) (he : s.on F.HQS_CTRL_EN = false)
include he

theorem adminQueueSetup_lo {off : Nat} (ho : off ∈ [0x30040, 0x30050, 0x30060]) : adminQueueSetup off v s = s.holdLo off v :=
  (if_neg (by simp [he])).trans (if_pos (by simpa [or_assoc] using ho))

theorem adminQueueSetup_asqBase :
    adminQueueSetup 0x30044 v s = (s.writeHi F.HQS_ASQ_BASE_LO F.HQS_ASQ_BASE_HI 4096 v).syncAsq := by
  simp [adminQueueSetup, he]

theorem adminQueueSetup_acqBase :
    adminQueueSetup 0x30054 v s = (s.writeHi F.HQS_ACQ_BASE_LO F.HQS_ACQ_BASE_HI 4096 v).syncAcq := by
  simp [adminQueueSetup, he]

theorem adminQueueSetup_dbBase : adminQueueSetup 0x30064 v s = s.writeHi F.HQS_DB_BASE_LO F.HQS_DB_BASE_HI 4096 v := by
  simp [adminQueueSetup, he]

theorem adminQueueSetup_asqDepth : adminQueueSetup 0x30048 v s =
    if 4 ≤ v.toNat % 16 ∧ v.toNat % 16 ≤ 14 then (s.wr F.HQS_ASQ_CFG_DEPTH_LOG2 (v.toNat % 16)).syncAsq else s := by
  simp [adminQueueSetup, he, bits_low]

end

theorem adminQueueSetup_enabled {s : State} {off : Nat} (v : Word) (he : s.on F.HQS_CTRL_EN = true) (ho : off ≠ 0x30058) :
    adminQueueSetup off v s = s :=
  if_pos (by simp [he, ho])

/-- Settles O36: each queue operation on the queue it names. -/
theorem queueRings : Obligations.QueueRings := by
  unfold Obligations.QueueRings
  refine ⟨?poll, ?doorbell, ?fetch, ?lost, ?post, ?next, ?entry, ?head, ?setup, ?vector⟩
  case poll => exact fun s l hl => next_of_live hl rfl
  case doorbell => exact fun s i w q hq h => State.doorbell_of_sq w hq h
  case fetch =>
    refine fun s i q x hl hs hn hq => ⟨fun hx => next_of_live hl (descriptorFetch_failed hs hn hq x hx), fun hx =>
      ⟨_, _, _, rfl, rfl, ?_⟩⟩
    have harrives := descriptorFetch_arrives hs hn hq x hx rfl rfl
    refine ⟨fun hm => next_of_live hl (harrives.trans (if_pos hm)), fun hm => ?_⟩
    rw [if_neg (ne_true_of_eq_false hm)] at harrives
    exact ⟨fun hst => next_of_live hl (harrives.trans (by rw [hst]; rfl)),
      fun st hst => next_of_live hl (harrives.trans (by rw [hst]; rfl))⟩
  case lost => exact fun s i q => ⟨_, rfl, rfl, rfl, rfl, rfl, rfl⟩
  case post =>
    exact fun s i c w ok hl hc => ⟨fun h => next_of_live hl (if_pos h), fun h => next_of_live hl (if_neg (by simp [h])),
      fun hi he => next_of_live hl (completionPost_word w ok hc hi he), fun h => next_of_live hl (completionPost_word_ignored w ok h)⟩
  case next =>
    exact fun s i c ok hc hh => ⟨fun e he => State.post_event ok hc hh he, fun f r he hf hr => State.post_flight ok hc hh he hf hr⟩
  case entry => exact fun s i c e => ⟨c.posted s.core, rfl, s.postEntry_eq i c e⟩
  case head =>
    refine fun s i c w hl hc => ⟨fun h => ?_, fun hi he h => ?_, ?_, fun he ht hu => ?_, next_of_live hl rfl⟩
    · exact next_of_live hl ((headWordRead_reads w hc).trans (if_neg (by simp [h])))
    · exact next_of_live hl ((headWordRead_reads w hc).trans
        ((if_pos (State.readsHead_polled hi he h)).trans (State.headWord_of_cq w hc)))
    · rintro rfl
      exact next_of_live hl (acqHeadWrite_eq w hc)
    · exact next_of_live hl (coalesceTimer_due hc he ht hu)
  case setup =>
    refine fun s v q c hl he _ hc => ⟨fun off ho => next_of_live hl (adminQueueSetup_lo v he ho),
      next_of_live hl (adminQueueSetup_asqBase v he), next_of_live hl (adminQueueSetup_acqBase v he),
      next_of_live hl (adminQueueSetup_dbBase v he), next_of_live hl (adminQueueSetup_asqDepth v he),
      _, rfl, next_of_live hl ((adminQueueSetup_vector v hc).trans ?_)⟩
    simp only [he, and_true]
    rfl
  case vector =>
    exact fun s v c hl he hc => ⟨next_of_live hl ((adminQueueSetup_vector v hc).trans (if_neg (by simp [he]))),
      fun off ho => next_of_live hl (adminQueueSetup_enabled v he ho)⟩

end Sys2Proof.Machine
end

section
/-! The tile opcodes of a head, MBX_RESYNC and retransmission (R61, R76, R78, R79). -/

namespace Sys2Proof.Machine

/-! ### MBX_RESYNC -/

theorem mbxResync_lawful {s : State} {d : Desc} (ho : d.only [(0, 0, 16)] = true) : mbxResync d s =
    if 511 < d.num 0 2 then s.finish d 0x30 stFormat
    else ((((s.starts d).dropLink (d.num 0 2)).setLink (d.num 0 2) { ((s.starts d).dropLink (d.num 0 2)).link (d.num 0 2) with
      unacked := [(0, resyncPayload)], since := ((s.starts d).dropLink (d.num 0 2)).core
      resync := some d }).queueUni (d.num 0 2) resyncPayload) := by
  simp only [mbxResync, ho, Bool.not_true, Bool.false_or, decide_eq_true_eq]

/-! ### The shell of the tile opcodes -/

section
variable {s : State} {d : Desc} {op : Nat} {f : Nat → MbxLink → State → State}

theorem onTile_id (h : 511 < d.num 0 2) : onTile d op f s = s.finish d op stFormat := if_pos h

theorem onTile_unreachable (h : d.num 0 2 ≤ 511) (hu : (s.link (d.num 0 2)).unreachable = true) :
    onTile d op f s = s.finish d op stUnreachable :=
  (if_neg (Nat.not_lt.mpr h)).trans (if_pos hu)

/-- At a tile that is reachable the opcode starts and has its own effect on the tile's link. -/
theorem onTile_reachable (h : d.num 0 2 ≤ 511) (hu : (s.link (d.num 0 2)).unreachable = false) :
    onTile d op f s = f (d.num 0 2) (s.link (d.num 0 2)) (s.starts d) :=
  (if_neg (Nat.not_lt.mpr h)).trans (if_neg (ne_true_of_eq_false hu))

end

/-! ### TILE_REG_READ and TILE_REG_WRITE -/

theorem tileRegRead_lawful {s : State} {d : Desc} (ho : d.only [(0, 0, 16), (4, 0, 32)] = true) : tileRegRead d s =
    if d.num 4 4 % 4 ≠ 0 then s.finish d 0x31 stAddress
    else onTile d 0x31 (fun t l u => u.askReg d t l (regPayload 3 (d.num 4 4) 0 0)) s := by
  simp only [tileRegRead, ho, Bool.not_true, Bool.false_eq_true, if_false, bne_iff_ne]

theorem tileRegWrite_aligned {s : State} {d : Desc} (ho : d.only [(0, 0, 16), (4, 0, 32), (8, 0, 32), (12, 0, 32)] = true)
    (ha : d.num 4 4 % 4 = 0) : tileRegWrite d s =
      onTile d 0x32 (fun t l u => u.askReg d t l (regPayload 4 (d.num 4 4) (d.num 8 4) (d.num 12 4))) s := by
  simp only [tileRegWrite, ho, ha, Bool.not_true, Bool.false_eq_true, if_false, bne_self_eq_false]

/-! ### TILE_WRITE and TILE_READ -/

section
variable {s : State} {d : Desc} (ho : d.only [(0, 0, 16), (8, 0, 64), (16, 0, 64), (24, 0, 32)] = true)
  (hlo : 1 ≤ d.num 24 4)
include ho hlo

/-- With a lawful length the copies refuse exactly the ranges that host-visible functions may not use (R61, R76). -/
theorem tileCopyStatus_lawful {mx : Nat} (hhi : d.num 24 4 ≤ mx) :
    tileCopyStatus d mx = if lmOk (d.num 8 8) (d.num 24 4) then none else some stAddress := by
  have hlo' : ¬ d.num 24 4 < 1 := by omega
  have hhi' : ¬ mx < d.num 24 4 := by omega
  cases hlm : lmOk (d.num 8 8) (d.num 24 4) <;> simp [tileCopyStatus, ho, hlo', hhi', hlm]

theorem tileWrite_address (hhi : d.num 24 4 ≤ 1048576) (x : HostData) (hlm : lmOk (d.num 8 8) (d.num 24 4) = false) :
    tileWrite d x s = s.finish d 0x33 stAddress := by
  rw [tileWrite, tileCopyStatus_lawful ho hlo hhi, hlm]
  rfl

theorem tileRead_address (hhi : d.num 24 4 ≤ 65536) (hlm : lmOk (d.num 8 8) (d.num 24 4) = false) :
    tileRead d s = s.finish d 0x34 stAddress := by
  rw [tileRead, tileCopyStatus_lawful ho hlo hhi, hlm]
  rfl

variable (hlm : lmOk (d.num 8 8) (d.num 24 4) = true) (ht : d.num 0 2 ≤ 511) (hu : (s.link (d.num 0 2)).unreachable = false)
include hlm ht hu

theorem tileWrite_failed (hhi : d.num 24 4 ≤ 1048576) {x : HostData} (hx : x.ok = false) :
    tileWrite d x s = (s.starts d).finish d 0x33 stPcie := by
  rw [tileWrite, tileCopyStatus_lawful ho hlo hhi, hlm]
  exact (onTile_reachable ht hu).trans (if_pos (by rw [hx]; rfl))

/-- The host's bytes wait on the link in REMOTE_WRITEs, and the descriptor waits for the SEQ of the last (R76, R78, R79). -/
theorem tileWrite_sent (hhi : d.num 24 4 ≤ 1048576) {x : HostData} (hx : x.ok = true) {ps : List Bytes}
    (hps : ps = remotePayloads (d.num 8 8) ((List.range (d.num 24 4)).map (byteAt x.bytes)) (d.num 24 4)) :
    tileWrite d x s = (((s.starts d).setLink (d.num 0 2) { s.link (d.num 0 2) with
      waiting := (s.link (d.num 0 2)).waiting ++ ps
      writes := (s.link (d.num 0 2)).writes ++
        [((s.link (d.num 0 2)).lastSeq + BitVec.ofNat 16 (ps.length - 1), d)] }).pumpLink (d.num 0 2)) := by
  rw [tileWrite, tileCopyStatus_lawful ho hlo hhi, hlm, hps]
  exact (onTile_reachable ht hu).trans (if_neg (by rw [hx]; decide))

/-- The request waits on the link for the tile's bytes (R76, R78). -/
theorem tileRead_sent (hhi : d.num 24 4 ≤ 65536) : tileRead d s =
    (((s.starts d).setLink (d.num 0 2) { s.link (d.num 0 2) with
      reads := (s.link (d.num 0 2)).reads ++ [(d, d.num 8 8, d.num 24 4)] }).linkSend (d.num 0 2)
        (6 :: List.replicate 7 0 ++ leBytes 8 (d.num 8 8) ++ leBytes 4 (d.num 24 4) ++ List.replicate 220 0)) := by
  rw [tileRead, tileCopyStatus_lawful ho hlo hhi, hlm]
  exact onTile_reachable ht hu

end

/-! ### Retransmission -/

theorem mbxRetransmit_nothing {s : State} {t : Nat} (h : (s.link t).unacked = []) : mbxRetransmit t s = s :=
  if_pos (by rw [h]; rfl)

/-- After RETX Trail cycles the slots go out again, until RETRIES of these make the tile unreachable (R79). -/
theorem mbxRetransmit_waiting {s u : State} {t : Nat} (h : (s.link t).unacked ≠ [])
    (hu : u = s.advance ((s.link t).since + s.rd F.HQS_MBX_CFG_RETX * 16896 - s.core)) : mbxRetransmit t s =
      if s.rd F.HQS_MBX_CFG_RETRIES ≤ (s.link t).retx then
        ((u.setLink t { s.link t with unreachable := true }).dropLink t).detect E.HQS_TILE_UNREACHABLE
      else (s.link t).unacked.foldl (fun v q => v.queueUni t q.2)
        (u.setLink t { s.link t with retx := (s.link t).retx + 1, since := u.core }) := by
  subst hu
  exact if_neg (by simpa using h)

/-- Settles O39: the operands' judgement, then the shell, then what each opcode puts on the link. -/
theorem headMailbox : Obligations.HeadMailbox := by
  unfold Obligations.HeadMailbox
  refine ⟨?resync, ?regRead, ?regWrite, ?write, ?read, ?retransmit⟩
  case resync =>
    exact fun s d hacc ho => ⟨fun h => next_of_accepts hacc ((mbxResync_lawful ho).trans (if_pos h)),
      fun h => ⟨_, rfl, next_of_accepts hacc ((mbxResync_lawful ho).trans (if_neg (Nat.not_lt.mpr h)))⟩⟩
  case regRead =>
    refine fun s d l hacc ho => ⟨fun h => next_of_accepts hacc ((tileRegRead_lawful ho).trans (if_pos h)), fun ha ht => ?_, ?_⟩
    · exact next_of_accepts hacc ((tileRegRead_lawful ho).trans ((if_neg (not_not.mpr ha)).trans (onTile_id ht)))
    · rintro ha ht rfl
      have htile := (tileRegRead_lawful (s := s) ho).trans (if_neg (not_not.mpr ha))
      exact ⟨fun hu => next_of_accepts hacc (htile.trans (onTile_unreachable ht hu)),
        fun hu => next_of_accepts hacc (htile.trans (onTile_reachable ht hu))⟩
  case regWrite =>
    rintro s d _ hacc ho ha ht rfl
    exact ⟨fun hu => next_of_accepts hacc ((tileRegWrite_aligned ho ha).trans (onTile_unreachable ht hu)),
      fun hu => next_of_accepts hacc ((tileRegWrite_aligned ho ha).trans (onTile_reachable ht hu))⟩
  case write =>
    rintro s d x _ _ _ hacc ho rfl rfl rfl hlo hhi
    exact ⟨fun hlm => next_of_accepts hacc (tileWrite_address ho hlo hhi x hlm), fun hlm ht hu =>
      ⟨fun hx => next_of_accepts hacc (tileWrite_failed ho hlo hlm ht hu hhi hx),
        fun hx => ⟨_, rfl, next_of_accepts hacc (tileWrite_sent ho hlo hlm ht hu hhi hx rfl)⟩⟩⟩
  case read =>
    rintro s d _ _ _ hacc ho rfl rfl rfl hlo hhi
    exact ⟨fun hlm => next_of_accepts hacc (tileRead_address ho hlo hhi hlm),
      fun hlm ht hu => next_of_accepts hacc (tileRead_sent ho hlo hlm ht hu hhi)⟩
  case retransmit =>
    rintro s t _ hl rfl
    refine ⟨fun h => next_of_live hl (mbxRetransmit_nothing h), fun h => ⟨_, rfl, fun hr => ?_, fun hr => ?_⟩⟩
    · exact next_of_live hl ((mbxRetransmit_waiting h rfl).trans (if_neg (Nat.not_le.mpr hr)))
    · exact next_of_live hl ((mbxRetransmit_waiting h rfl).trans (if_pos hr))

end Sys2Proof.Machine
end

section
/-! The class-3 slots that a tile takes, and its mailbox poll (R78, R79, R80, R112, R386). -/

namespace Sys2Proof.Machine

/-! ### Numbers in bytes -/

theorem leNat_lt (b : Bytes) : leNat b < 256 ^ b.length := by
  induction b with
  | nil => simp [leNat]
  | cons v b ih =>
    have hv := v.isLt
    rw [leNat, List.length_cons, Nat.pow_succ]
    omega

theorem numAt_lt (b : Bytes) (i n : Nat) : numAt b i n < 256 ^ n :=
  lt_of_lt_of_le (leNat_lt _) (Nat.pow_le_pow_right (by decide) (by simp))

/-- A SEQ is a number of 16 bits (R79). -/
theorem seq_toNat (b : Bytes) : (BitVec.ofNat 16 (numAt b 2 2)).toNat = numAt b 2 2 :=
  Nat.mod_eq_of_lt (numAt_lt b 2 2)

/-! ### A slot that arrives -/

section
variable {s p : State} {k i : Nat} {b : Bytes} (hr : s.receives k b 3 = true) (hp : s.pass k i b = p)
include hr hp

/-- A good copy of a class-3 slot goes on, and then reaches its taker (R102, R104, R112). -/
theorem onCopy3_of_receives (f : State → State) : onLive s (onPort k (fun u => u.onCopy k i b [3] f)) = .next (f p) := by
  have hr' := hr
  simp only [State.receives, Bool.and_eq_true, Bool.not_eq_true', decide_eq_true_eq] at hr'
  obtain ⟨⟨⟨⟨⟨⟨⟨hl, hshut⟩, hk⟩, _⟩, _⟩, _⟩, _⟩, _⟩ := hr'
  exact next_of_live hl ((onPort_of_runs _ hk hshut).trans ((onCopy_of_receives i f hr rfl).trans (by rw [hp])))

theorem onClass3_of_receives (kind : Nat) (f : Bytes → State → State) :
    onClass3 k i kind b f s = .next (if p.isTile then p.takeClass3 k kind b f else p) :=
  onCopy3_of_receives hr hp _

theorem execResync_of_receives : execResync k i b s = .next (if p.isTile then p.takeResync k b else p) :=
  onCopy3_of_receives hr hp _

end

/-- The slots that count SEQ share one shell (R79). -/
theorem exec_class3 {k i : Nat} {b : Bytes} {j : Instr}
    (h : j ∈ [Instr.mailbox k i b, .remoteWrite k i b, .regRead k i b, .regWrite k i b, .readReq k i b, .resync k i b]) :
    (∃ kind f, exec j = onClass3 k i kind b f) ∨ exec j = execResync k i b := by
  simp only [List.mem_cons, List.not_mem_nil, or_false] at h
  rcases h with rfl | rfl | rfl | rfl | rfl | rfl
  case inr.inr.inr.inr.inr => exact .inr rfl
  all_goals exact .inl ⟨_, _, rfl⟩

theorem State.isTile_of_forMe {p : State} {b : Bytes} (h : p.forMe b = true) : p.isTile = true := by
  simp only [State.forMe, Bool.and_eq_true] at h
  exact h.1.1

/-! ### What a slot does that is not acted on -/

theorem State.takeClass3_other {p : State} {k kind : Nat} {b : Bytes} (f : Bytes → State → State) (h : p.forMe b = false) :
    p.takeClass3 k kind b f = p :=
  if_pos (by simp [h])

theorem State.takeResync_other {p : State} {k : Nat} {b : Bytes} (h : p.forMe b = false ∨ numAt (slotBody b) 0 1 ≠ 5) :
    p.takeResync k b = p :=
  if_pos (by simpa using h)

/-- Before any RESYNC no slot that counts SEQ is acted on (R79). -/
theorem State.takeClass3_unsynced {p : State} {k kind : Nat} {b : Bytes} (f : Bytes → State → State) (hh : class3Head b = true)
    (he : p.trail.expect = none) : p.takeClass3 k kind b f = p := by
  simp only [State.takeClass3, hh, he, Bool.not_true, Bool.false_eq_true, if_false, ite_self]

/-- The acknowledgement that any slot with a SEQ makes due (R79). -/
def State.owesAck (p : State) : State := { p with trail := { p.trail with ackDue := true } }

/-- A SEQ already taken counts as a duplicate, and a later one than expected is dropped (R79). -/
theorem State.takeClass3_outOfTurn {p : State} {k kind : Nat} {b : Bytes} (f : Bytes → State → State) {e : BitVec 16}
    (hm : p.forMe b = true) (hh : class3Head b = true) (hk : numAt (slotBody b) 0 1 = kind) (he : p.trail.expect = some e)
    (hne : numAt (slotBody b) 2 2 ≠ e.toNat) : p.takeClass3 k kind b f =
      if later16 e.toNat (numAt (slotBody b) 2 2 % 65536) then p.owesAck.dup k else p.owesAck := by
  have hseq : BitVec.ofNat 16 (numAt (slotBody b) 2 2) ≠ e := fun h => hne (by rw [← h, seq_toNat])
  simp only [State.takeClass3, State.owesAck, hm, hh, hk, he, hseq, bne_self_eq_false, Bool.and_false, Bool.not_true,
    Bool.or_self, Bool.false_eq_true, if_false, BitVec.toNat_ofNat, Nat.reducePow]

/-! ### What a slot does that is acted on -/

section
variable {q : Bytes} {u : State}

theorem mailbox_formed (hn : 1 ≤ numAt q 10 1) (hx : numAt q 10 1 ≤ 3) (hi : numAt q 8 2 ≤ 1023) (hz : zeroAt q 11 5 = true)
    (hz' : zeroAt q 208 32 = true) : mailbox q u = (u.ringWrite (q.drop 16) (numAt q 8 2) (numAt q 10 1)).lmWrite u.twin
      (leBytes 4 ((numAt q 8 2 + numAt q 10 1) % 1024)) := by
  have hn' : ¬ numAt q 10 1 < 1 := by omega
  have hx' : ¬ 3 < numAt q 10 1 := by omega
  have hi' : ¬ 1023 < numAt q 8 2 := by omega
  exact if_neg (by simp [hn', hx', hi', hz, hz'])

theorem mailbox_bad (h : numAt q 10 1 < 1 ∨ 3 < numAt q 10 1 ∨ 1023 < numAt q 8 2 ∨ zeroAt q 11 5 = false ∨
    zeroAt q 208 32 = false) : mailbox q u = u.inc F.HQS_MBX_BAD :=
  if_pos (by simpa [or_assoc] using h)

theorem remoteWrite_eq (q : Bytes) (u : State) : remoteWrite q u =
    if 1 ≤ numAt q 16 2 ∧ numAt q 16 2 ≤ 216 ∧ zeroAt q 18 6 = true ∧ lmOk (numAt q 8 8) (numAt q 16 2) = true
    then u.lmWrite (numAt q 8 8) ((q.drop 24).take (numAt q 16 2)) else u.inc F.HQS_MBX_BAD := by
  by_cases h : 1 ≤ numAt q 16 2 ∧ numAt q 16 2 ≤ 216 ∧ zeroAt q 18 6 = true ∧ lmOk (numAt q 8 8) (numAt q 16 2) = true
  · obtain ⟨hlo, hhi, hz, hlm⟩ := h
    have hlo' : ¬ numAt q 16 2 < 1 := by omega
    have hhi' : ¬ 216 < numAt q 16 2 := by omega
    rw [if_pos ⟨hlo, hhi, hz, hlm⟩]
    exact if_neg (by simp [hlo', hhi', hz, hlm])
  · rw [if_neg h]
    simp only [not_and_or, Nat.not_le, Bool.not_eq_true] at h
    exact if_pos (by simpa [or_assoc] using h)

theorem regRead_refused (hz : zeroAt q 12 228 = true) (h : numAt q 8 4 % 4 ≠ 0 ∨ rowsAt (numAt q 8 4) = []) :
    regRead q u = u.pushMsg (regReplyMsg (numAt q 2 2) 0 stAddress) :=
  (if_neg (by simp [hz])).trans (if_pos (by simpa using h))

theorem regRead_answered (hz : zeroAt q 12 228 = true) (ha : numAt q 8 4 % 4 = 0) (hr : rowsAt (numAt q 8 4) ≠ []) : regRead q u =
    (u.regRead (numAt q 8 4)).2.pushMsg (regReplyMsg (numAt q 2 2) (u.regRead (numAt q 8 4)).1 stOk) :=
  (if_neg (by simp [hz])).trans (if_neg (by simp [ha, hr]))

/-- REG_WRITE writes the register; the value of its reply is a free one (R386). -/
theorem regWrite_written (hz : zeroAt q 20 220 = true) (ha : numAt q 8 4 % 4 = 0) (hr : rowsAt (numAt q 8 4) ≠ []) : regWrite q u =
    (u.drawn.regWrite (numAt q 8 4) (numAt q 12 4) (numAt q 16 4) true).pushMsg
      (regReplyMsg (numAt q 2 2) (Config.freeNat u.free) stOk) :=
  (if_neg (by simp [hz])).trans (if_neg (by simp [ha, hr]))

theorem readReq_bad (h : numAt q 16 4 < 1 ∨ 65536 < numAt q 16 4 ∨ zeroAt q 20 220 = false) :
    readReq q u = u.inc F.HQS_MBX_BAD :=
  if_pos (by simpa [or_assoc] using h)

theorem readReq_formed (hlo : 1 ≤ numAt q 16 4) (hhi : numAt q 16 4 ≤ 65536) (hz : zeroAt q 20 220 = true) : readReq q u =
    if lmOk (numAt q 8 8) (numAt q 16 4) then u.sendData (numAt q 8 8) (u.lmRead (numAt q 8 8) (numAt q 16 4)) 293
    else u.pushReply (retMsg 5 0 (leBytes 8 (numAt q 8 8) ++ [0, 0, 0, 0])) := by
  have hlo' : ¬ numAt q 16 4 < 1 := by omega
  have hhi' : ¬ 65536 < numAt q 16 4 := by omega
  refine (if_neg (by simp [hlo', hhi', hz])).trans ?_
  cases lmOk (numAt q 8 8) (numAt q 16 4) <;> rfl

end

/-- RESYNC makes 1 the expected SEQ and empties the mailbox (R78, R79; log entry 173). -/
theorem State.takeResync_formed {p u : State} {k : Nat} {b : Bytes} (hm : p.forMe b = true) (hh : class3Head b = true)
    (hk : numAt (slotBody b) 0 1 = 5) (hz : numAt (slotBody b) 1 3 = 0) (hz' : zeroAt (slotBody b) 4 236 = true)
    (hu : u = p.taken k) : p.takeResync k b = State.lmWrite { u with
      trail := { u.trail with expect := some 1, ackDue := true, mbxHead := 0, mbxPost := 0, mbxFly := [] } } u.twin [0, 0, 0, 0] := by
  subst hu
  simp only [State.takeResync, hm, hh, hk, hz, hz', bne_self_eq_false, Bool.not_true, Bool.or_self, Bool.false_eq_true, if_false]
  rfl

/-- Settles O40: the shell by the slot's SEQ, then what each slot does on the tile that has taken it. -/
theorem tileMailbox : Obligations.TileMailbox := by
  unfold Obligations.TileMailbox
  refine ⟨?slots, ?poll⟩
  case slots =>
    rintro s k i b _ rfl
    refine ⟨?mailbox, ?remoteWrite, ?regRead, ?regWrite, ?readReq, ?sequence, ?others⟩
    case mailbox =>
      refine fun ht => ⟨_, rfl, fun hn hx hi hz hz' => ?_, fun h => ?_⟩
      · exact (onClass3_of_takes mailbox ht).trans (congrArg _ (mailbox_formed hn hx hi hz hz'))
      · exact (onClass3_of_takes mailbox ht).trans (congrArg _ (mailbox_bad h))
    case remoteWrite =>
      exact fun ht => ⟨_, rfl, (onClass3_of_takes remoteWrite ht).trans (congrArg _ (remoteWrite_eq _ _))⟩
    case regRead =>
      refine fun ht hz => ⟨_, rfl, fun h => ?_, fun ha hr => ?_⟩
      · exact (onClass3_of_takes regRead ht).trans (congrArg _ (regRead_refused hz h))
      · exact (onClass3_of_takes regRead ht).trans (congrArg _ (regRead_answered hz ha hr))
    case regWrite =>
      exact fun ht hz ha hr => ⟨_, _, rfl, (onClass3_of_takes regWrite ht).trans (congrArg _ (regWrite_written hz ha hr))⟩
    case readReq =>
      refine fun ht => ⟨_, rfl, fun h => ?_, fun hlo hhi hz => ?_⟩
      · exact (onClass3_of_takes readReq ht).trans (congrArg _ (readReq_bad h))
      · exact (onClass3_of_takes readReq ht).trans (congrArg _ (readReq_formed hlo hhi hz))
    case sequence =>
      intro p hp hr hm hh
      have ht := State.isTile_of_forMe hm
      refine ⟨fun hk hz hz' => ⟨_, rfl, ?_⟩, fun e hk he hne => ?_, fun j hj he hk => ?_⟩
      · refine (execResync_of_receives hr hp).trans ?_
        rw [if_pos ht, State.takeResync_formed hm hh hk hz hz' rfl]
      · refine (onClass3_of_receives hr hp 2 remoteWrite).trans ?_
        rw [if_pos ht, State.takeClass3_outOfTurn remoteWrite hm hh hk he hne]
        rfl
      · rcases exec_class3 hj with ⟨kind, f, hx⟩ | hx
        · rw [hx, onClass3_of_receives hr hp, State.takeClass3_unsynced f hh he, ite_self]
        · rw [hx, execResync_of_receives hr hp, State.takeResync_other (.inr hk), ite_self]
    case others =>
      intro p hp hr hm j hj
      rcases exec_class3 hj with ⟨kind, f, hx⟩ | hx
      · rw [hx, onClass3_of_receives hr hp, State.takeClass3_other f hm, ite_self]
      · rw [hx, execResync_of_receives hr hp, State.takeResync_other (.inl hm), ite_self]
  case poll => exact fun s hl hh hn => next_of_live hl (if_neg (by simp [hh, hn]))

end Sys2Proof.Machine
end

section
/-! The table opcodes, GEOMETRY_CHECK and the Census order (R61, R174, R217 - R221, R236, R243, R244). -/

namespace Sys2Proof.Machine

/-! ### Data from the local host -/

theorem mbxRefuses_host {d : Desc} (h : d.mbx = false) (a len : Nat) : mbxRefuses d a len = false := by
  rw [mbxRefuses, h, Bool.false_and]

theorem State.srcBad_host {d : Desc} (h : d.mbx = false) (s : State) (a n : Nat) : s.srcBad d a n = false := by
  rw [State.srcBad, h, Bool.false_and]

theorem State.srcBytes_ok {d : Desc} (h : d.mbx = false) (s : State) (a n : Nat) (x : HostData) : (s.srcBytes d a n x).ok = x.ok := by
  rw [State.srcBytes, h]
  rfl

/-! ### TABLE_WRITE -/

section
variable {s : State} {d : Desc} (ho : d.only [(0, 0, 8), (8, 0, 64), (16, 0, 64), (24, 0, 32), (28, 0, 32)] = true)
  (ht : d.num 0 1 ≤ 2) (hb : addrOk (d.num 8 8) 4096 1 = true) (ha : d.num 16 8 % 4 = 0) (hm : d.mbx = false) (x y : HostData)
include ho ht hb ha hm

theorem tableWrite_range (hn : s.entryCount (d.num 0 1) < d.num 24 4 + d.num 28 4) :
    tableWrite d x y s = s.finish d 0x70 stTableRange := by
  have ht' : ¬ 2 < d.num 0 1 := by omega
  simp [tableWrite, ho, ht', hb, ha, mbxRefuses_host hm, hn]

variable {a n : Nat} (hat : d.num 8 8 + entrySize (d.num 0 1) * d.num 24 4 = a) (hsz : entrySize (d.num 0 1) * d.num 28 4 = n)
  (hn : d.num 24 4 + d.num 28 4 ≤ s.entryCount (d.num 0 1)) (hlm : lmOk a n = true)
include hat hsz hn hlm

/-- A range of the table in reach: a table in use is refused, an earlier patch is waited for, and then the first read is judged
(R219, R220). -/
theorem tableWrite_inRange : tableWrite d x y s =
    if s.tableInUse a n then s.finish d 0x70 stTableInUse
    else if s.patchWaits a n then s
    else if !x.ok then s.finish d 0x70 stPcie
    else ((List.range (d.num 28 4)).find? (fun i => !entryOkBy (d.num 0 1)
        (((s.srcBytes d (d.num 16 8) n x).bytes.drop (entrySize (d.num 0 1) * i)).take (entrySize (d.num 0 1))))).elim
      (if y.ok then (s.lmWrite a (s.srcBytes d (d.num 16 8) n y).bytes).finish d 0x70 stOk
        else (s.scramble a n).finish d 0x70 stPcie)
      (fun i => s.finish d 0x70 stFormat (d.num 24 4 + i)) := by
  subst hat hsz
  have ht' : ¬ 2 < d.num 0 1 := by omega
  have hn' : ¬ s.entryCount (d.num 0 1) < d.num 24 4 + d.num 28 4 := by omega
  simp only [tableWrite, ho, ht', hb, ha, hm, hn', hlm, mbxRefuses_host hm, State.srcBad_host hm, State.srcBytes_ok hm, decide_false,
    bne_self_eq_false, Bool.not_true, Bool.or_self, Bool.false_and, Bool.false_eq_true, if_false]
  congr 3
  generalize (List.range (d.num 28 4)).find? _ = r
  cases r <;> rfl

end

/-! ### TABLE_VERIFY -/

section
variable {s : State} {d : Desc} (ho : d.only [(0, 0, 8), (8, 0, 64), (24, 0, 32), (28, 0, 32)] = true) (ht : d.num 0 1 ≤ 2)
include ho ht

theorem tableVerify_address (hb : addrOk (d.num 8 8) 4096 1 = false) : tableVerify d s = s.finish d 0x72 stAddress := by
  have ht' : ¬ 2 < d.num 0 1 := by omega
  simp [tableVerify, ho, ht', hb]

theorem tableVerify_range (hb : addrOk (d.num 8 8) 4096 1 = true) (hn : s.entryCount (d.num 0 1) < d.num 24 4 + d.num 28 4) :
    tableVerify d s = s.finish d 0x72 stTableRange := by
  have ht' : ¬ 2 < d.num 0 1 := by omega
  simp [tableVerify, ho, ht', hb, hn]

theorem tableVerify_inRange {a n : Nat} (hat : d.num 8 8 + entrySize (d.num 0 1) * d.num 24 4 = a)
    (hsz : entrySize (d.num 0 1) * d.num 28 4 = n) (hb : addrOk (d.num 8 8) 4096 1 = true)
    (hn : d.num 24 4 + d.num 28 4 ≤ s.entryCount (d.num 0 1)) (hlm : lmOk a n = true) : tableVerify d s =
      if s.lmBadIn a n then s.lmUncorr.finish d 0x72 stEcc else s.finish d 0x72 stOk (crc32c (s.lmRead a n)).toNat := by
  subst hat hsz
  have ht' : ¬ 2 < d.num 0 1 := by omega
  have hn' : ¬ s.entryCount (d.num 0 1) < d.num 24 4 + d.num 28 4 := by omega
  simp [tableVerify, ho, ht', hb, hn', hlm, State.readsLm]

end

/-! ### TABLE_PATCH -/

/-- The records of a patch in its data (R220). -/
def State.patchRecs (s : State) (d : Desc) (x : HostData) : List Bytes :=
  (List.range (d.num 1 1)).map (fun i => ((s.srcBytes d (d.num 16 8) (24 * d.num 1 1) x).bytes.drop (24 * i)).take 24)

/-- The write that a record asks for: its entry's address and its bytes (R220). -/
def recWrite (d : Desc) (r : Bytes) : Nat × Bytes :=
  (patchBase d (recTable (d.num 0 1) r) + entrySize (recTable (d.num 0 1) r) * numAt r 0 3,
    (r.drop 4).take (entrySize (recTable (d.num 0 1) r)))

section
variable {s : State} {d : Desc} {x : HostData} (ht : d.num 0 1 ≤ 3) (hn : d.num 1 1 ≠ 0)
  (ho : d.only ([(0, 0, 8), (1, 0, 8), (8, 0, 64), (16, 0, 64)] ++ if d.num 0 1 = 3 then [(24, 0, 64), (32, 0, 64)] else []) = true)
  (ha : d.num 16 8 % 8 = 0) (hb : d.num 0 1 ≤ 2 → addrOk (d.num 8 8) 4096 1 = true) (hm : d.mbx = false) (hx : x.ok = true)
include ht hn ho ha hb hm hx

/-- With lawful operands and data TABLE_PATCH refuses on its first bad record, and otherwise on a table out of reach. -/
theorem tablePatch_read : tablePatch d x s =
    ((List.range (d.num 1 1)).find? (fun i => (s.recStatus (d.num 0 1) ((s.patchRecs d x).getD i [])).isSome)).elim
      (if (s.patchRecs d x).any (fun r => !addrOk (patchBase d (recTable (d.num 0 1) r)) 4096 1 ||
          !lmOk (recWrite d r).1 (entrySize (recTable (d.num 0 1) r))) then s.finish d 0x71 stAddress
        else { (s.starts d) with lcr := { s.lcr with patches := s.lcr.patches ++ [⟨d, (s.patchRecs d x).map (recWrite d), false⟩] } })
      (fun i => s.finish d 0x71 ((s.recStatus (d.num 0 1) ((s.patchRecs d x).getD i [])).getD stFormat) i) := by
  have ht' : ¬ 3 < d.num 0 1 := by omega
  have hbase : (d.num 0 1 != 3 && !addrOk (d.num 8 8) 4096 1) = false := by
    rcases Nat.lt_or_eq_of_le ht with h | h
    · simp [hb (by omega)]
    · simp [h]
  simp only [tablePatch, ho, ht', hn, ha, hbase, hx, mbxRefuses_host hm, State.srcBad_host hm, State.srcBytes_ok hm, decide_false,
    bne_self_eq_false, Bool.not_true, Bool.or_self, Bool.false_eq_true, if_false]
  unfold State.patchRecs
  generalize (List.range (d.num 1 1)).find? _ = r
  cases r <;> rfl

theorem tablePatch_bad {i st : Nat}
    (hi : (List.range (d.num 1 1)).find? (fun i => (s.recStatus (d.num 0 1) ((s.patchRecs d x).getD i [])).isSome) = some i)
    (hst : s.recStatus (d.num 0 1) ((s.patchRecs d x).getD i []) = some st) : tablePatch d x s = s.finish d 0x71 st i := by
  rw [tablePatch_read ht hn ho ha hb hm hx, hi]
  exact congrArg (fun v : Option Nat => s.finish d 0x71 (v.getD stFormat) i) hst

theorem tablePatch_queued (hgood : ∀ i < d.num 1 1, s.recStatus (d.num 0 1) ((s.patchRecs d x).getD i []) = none)
    (hreach : ∀ r ∈ s.patchRecs d x, addrOk (patchBase d (recTable (d.num 0 1) r)) 4096 1 = true ∧
      lmOk (recWrite d r).1 (entrySize (recTable (d.num 0 1) r)) = true) : tablePatch d x s =
    { (s.starts d) with lcr := { s.lcr with patches := s.lcr.patches ++ [⟨d, (s.patchRecs d x).map (recWrite d), false⟩] } } := by
  have hnone : (List.range (d.num 1 1)).find? (fun i => (s.recStatus (d.num 0 1) ((s.patchRecs d x).getD i [])).isSome) = none :=
    List.find?_eq_none.mpr fun i hi => by
      rw [hgood i (List.mem_range.mp hi)]
      exact Bool.false_ne_true
  have hany : (s.patchRecs d x).any (fun r => !addrOk (patchBase d (recTable (d.num 0 1) r)) 4096 1 ||
      !lmOk (recWrite d r).1 (entrySize (recTable (d.num 0 1) r))) = false :=
    List.any_eq_false.mpr fun r hr => by simp [hreach r hr]
  rw [tablePatch_read ht hn ho ha hb hm hx, hnone, hany]
  rfl

end

/-! ### What a completion leaves of lamp correction's patches -/

theorem State.record_lcr (s : State) (b i : Nat) : (s.record b i).lcr = s.lcr := by
  unfold State.record
  extract_lets t u
  have hu : u.lcr = s.lcr := by
    simp only [u]
    split_ifs
    · rfl
    · exact (t.setPend_react_lcr b i).2
  split_ifs <;> exact hu

theorem State.flag_lcr (s : State) (e : Nat × Nat) : (s.flag e).lcr = s.lcr := by
  unfold State.flag
  split_ifs
  · rfl
  · exact s.record_lcr e.1 e.2

theorem State.driveFbclk_lcr (s : State) : s.driveFbclk.lcr = s.lcr := by
  unfold State.driveFbclk
  extract_lets on
  split_ifs <;> rfl

theorem State.refreshPort_lcr (s : State) (k : Nat) : (s.refreshPort k).lcr = s.lcr := by
  unfold State.refreshPort
  split_ifs <;> rfl

theorem State.takeFbclk_lcr (s : State) : s.takeFbclk.lcr = s.lcr :=
  List.foldlRecOn (motive := fun t : State => t.lcr = s.lcr) _ _ rfl fun t ht j _ => (t.refreshPort_lcr j).trans ht

theorem State.resign_lcr (s : State) : s.resign.lcr = s.lcr := by
  unfold State.resign
  split_ifs
  · extract_lets t _ _ u _ v w
    have hv : v.lcr = s.lcr := State.driveFbclk_lcr _
    rw [State.flag_lcr]
    simp only [w]
    split_ifs
    · exact v.takeFbclk_lcr.trans hv
    · exact hv
  · rfl

theorem State.resignNative_lcr (s : State) : s.resignNative.lcr = s.lcr := by
  unfold State.resignNative
  split_ifs
  · exact s.resign_lcr
  · rfl

/-- A source of a block without block reset leaves the patches alone, whatever its reaction (R291, R293). -/
theorem State.detect_lcr (s : State) {b : Nat} (i : Nat) (hb : resetMask b = none) : (s.detect (b, i)).lcr = s.lcr := by
  unfold State.detect
  split_ifs
  · exact s.record_lcr b i
  · rfl
  · dsimp only
    split
    · exact s.record_lcr b i
    · exact s.record_lcr b i
    · split_ifs
      · exact (State.flag_lcr _ _).trans (s.record_lcr b i)
      · rw [State.blockReset, hb]
        exact s.record_lcr b i
    · exact (State.resignNative_lcr _).trans (s.record_lcr b i)

theorem State.pushReply_lcr (s : State) (m : Bytes) : (s.pushReply m).lcr = s.lcr := by
  unfold State.pushReply State.detectIf
  split_ifs
  · exact s.detect_lcr _ rfl
  · rfl
  · rfl

theorem State.postMbx_lcr (s : State) (f : Flight) (r : Done) : (s.postMbx f r).lcr = s.lcr := by
  unfold State.postMbx
  split_ifs
  · rfl
  · exact State.pushReply_lcr _ _

theorem State.flushMbx_lcr (s : State) (n : Nat) : (s.flushMbx n).lcr = s.lcr := by
  induction n generalizing s with
  | zero => rfl
  | succ n ih =>
    unfold State.flushMbx
    split
    · rfl
    · split
      · rfl
      · exact (ih _).trans (State.postMbx_lcr _ _ _)

theorem settleDeletes_lcr (l : List (Nat × Desc)) (s : State) : (settleDeletes l s).lcr = s.lcr := by
  induction l generalizing s with
  | nil => rfl
  | cons x l ih =>
    unfold settleDeletes
    split_ifs
    · exact ih s
    · exact ih _

theorem State.finishAs_lcr (s : State) (d : Desc) (op st : Nat) (res : BitVec 64) (n : Word) (t : Option Nat) :
    (s.finishAs d op st res n t).lcr = s.lcr := by
  unfold State.finishAs
  extract_lets r
  split_ifs
  · exact State.flushMbx_lcr _ _
  · exact settleDeletes_lcr _ _

/-! ### PATCH_APPLY -/

theorem patchApply_inPass {s : State} (h : s.inGap = false) : patchApply s = s := if_pos (by simp [h])

/-- The records of a patch written, counted and completed with the frame of the pass that reads them (R220). -/
def State.patched (s : State) (f : Word) (p : Patch) : State :=
  let u := p.recs.foldl (fun s r => s.lmWrite r.1 r.2) s
  (u.incBy F.LCR_PATCHES p.recs.length).finishAs p.desc 0x71 stOk 0 f none

/-- Every patch that is ready written and completed. -/
def State.appliesReady (s : State) : State := (s.lcr.patches.filter (·.ready)).foldl (fun t p => t.patched s.nextPass p) s

theorem patchApply_gap {s : State} (h : s.inGap = true) : patchApply s = { s.appliesReady with
    lcr := { s.appliesReady.lcr with patches := s.appliesReady.lcr.patches.filter (fun p => !p.ready) } } :=
  if_neg (by simp [h])

theorem State.patched_lcr (s : State) (f : Word) (p : Patch) : (s.patched f p).lcr = s.lcr := by
  unfold State.patched
  extract_lets u
  have hu : u.lcr = s.lcr :=
    List.foldlRecOn (motive := fun t : State => t.lcr = s.lcr) _ _ rfl fun t ht r _ => ht
  exact (State.finishAs_lcr _ _ _ _ _ _ _).trans hu

/-- Before a pass has run, no patch is ready and nothing is written (R220). -/
theorem patchApply_unready {s : State} (h : s.inGap = true) (hp : ∀ p ∈ s.lcr.patches, p.ready = false) : patchApply s = s := by
  have hnone : s.lcr.patches.filter (·.ready) = [] := List.filter_eq_nil_iff.mpr fun p hm => by simp [hp p hm]
  have hall : s.lcr.patches.filter (fun p => !p.ready) = s.lcr.patches :=
    List.filter_eq_self.mpr fun p hm => by simp [hp p hm]
  have hs : s.appliesReady = s := by rw [State.appliesReady, hnone, List.foldl_nil]
  rw [patchApply_gap h, hs, hall]

theorem patchApply_ready {s : State} {p : Patch} (h : s.inGap = true) (hp : s.lcr.patches = [p]) (hr : p.ready = true) :
    patchApply s = { s.patched s.nextPass p with lcr := { (s.patched s.nextPass p).lcr with patches := [] } } := by
  have hone : s.lcr.patches.filter (·.ready) = [p] := by simp [hp, hr]
  have hrest : (s.patched s.nextPass p).lcr.patches.filter (fun p => !p.ready) = [] := by simp [State.patched_lcr, hp, hr]
  have hs : s.appliesReady = s.patched s.nextPass p := by rw [State.appliesReady, hone, List.foldl_cons, List.foldl_nil]
  rw [patchApply_gap h, hs, hrest]

/-! ### GEOMETRY_CHECK and CENSUS_RUN -/

section
variable {s : State} {d : Desc} (ho : d.only [(8, 0, 64)] = true)
include ho

theorem geometryCheck_address (hlm : lmOk (d.num 8 8) 384 = false) : geometryCheck d s = s.finish d 0x60 stAddress := by
  simp [geometryCheck, ho, hlm]

theorem geometryCheck_placed (hlm : lmOk (d.num 8 8) 384 = true) {p : Place} (hp : s.placeOf s.stp.active = some p) {t : Store}
    {act : List Interest} {g : Nat × Nat} (ht : t = s.stp.active.layers.write 0 (s.lmRead (d.num 8 8) 384))
    (hact : act = validOnes s.activeInterest) (hg : g = geometry t p act (s.roomOf s.stp.active))
    (hb : s.lmBadIn (d.num 8 8) 384 = false) : geometryCheck d s = s.finish d 0x60 stOk (g.1 + 256 * g.2 + 2 ^ 32 *
      ceilDiv (storeNeed (act ++ validOnes (tableInterest t p))) 1024) := by
  subst hg hact ht
  simp [geometryCheck, ho, hlm, hp, State.readsLm, hb]

theorem geometryCheck_unplaced (hlm : lmOk (d.num 8 8) 384 = true) (hp : s.placeOf s.stp.active = none) : geometryCheck d s =
    if s.lmBadIn (d.num 8 8) 384 then s.lmUncorr.finish d 0x60 stEcc else s.finish d 0x60 stOk 2 := by
  simp [geometryCheck, ho, hlm, hp, State.readsLm]

end

theorem censusRun_lawful {s : State} {d : Desc} (ho : d.only [] = true) : censusRun d s =
    if s.rd F.PAT_HOLD_STAT_STATE = 2 then s.finish d 0x80 0x803
    else if s.hasCensus = false then s.finish d 0x80 0x801
    else { (s.starts d) with brn := { s.brn with wanted := s.brn.wanted ++ [d] } } := by
  simp [censusRun, ho]

/-- Settles O52: each opcode's judgement of lawful operands in its order, then what the gap leaves of a patch. -/
theorem tableOpcodes : Obligations.TableOpcodes := by
  unfold Obligations.TableOpcodes
  refine ⟨?write, ?verify, ?patch, ?apply, ?geometry, ?census⟩
  case write =>
    rintro s d x y _ _ _ _ _ _ hacc ho rfl ht rfl rfl rfl rfl rfl hb ha hm
    refine ⟨fun hn => next_of_accepts hacc (tableWrite_range ho ht hb ha hm x y hn), fun hn hlm => ?_⟩
    have hrange := tableWrite_inRange ho ht hb ha hm x y rfl rfl hn hlm
    refine ⟨fun hu => next_of_accepts hacc (hrange.trans (if_pos hu)), fun hu hp => ?_, fun hu hp => ?_⟩
    all_goals rw [if_neg (ne_true_of_eq_false hu)] at hrange
    · exact next_of_accepts hacc (hrange.trans (if_pos hp))
    rw [if_neg (ne_true_of_eq_false hp)] at hrange
    refine ⟨fun hx => next_of_accepts hacc (hrange.trans (if_pos (by simp [hx]))), fun hx _ => ?_⟩
    rw [if_neg (by simp [hx])] at hrange
    refine ⟨fun i hi => next_of_accepts hacc (hrange.trans (by rw [hi]; rfl)), fun hgood => next_of_accepts hacc (hrange.trans ?_)⟩
    rw [List.find?_eq_none.mpr fun i hi => by simp [hgood i (List.mem_range.mp hi)]]
    rfl
  case verify =>
    rintro s d _ _ _ _ _ hacc ho rfl ht rfl rfl rfl rfl
    exact ⟨fun hb => next_of_accepts hacc (tableVerify_address ho ht hb),
      fun hb hn => next_of_accepts hacc (tableVerify_range ho ht hb hn),
      fun hb hn hlm => next_of_accepts hacc (tableVerify_inRange ho ht rfl rfl hb hn hlm)⟩
  case patch =>
    rintro s d x _ _ _ _ hacc hm rfl ht rfl hn ho ha hb hx rfl rfl
    exact ⟨fun i st hi hst => next_of_accepts hacc (tablePatch_bad ht hn ho ha hb hm hx hi hst),
      fun hgood hreach => next_of_accepts hacc (tablePatch_queued ht hn ho ha hb hm hx hgood hreach)⟩
  case apply =>
    exact fun s hr => ⟨fun h => next_of_onRun hr (patchApply_inPass h), fun h hp => next_of_onRun hr (patchApply_unready h hp),
      fun p h hp hready => ⟨_, _, rfl, rfl, next_of_onRun hr (patchApply_ready h hp hready)⟩⟩
  case geometry =>
    exact fun s d hacc ho => ⟨fun hlm => next_of_accepts hacc (geometryCheck_address ho hlm),
      fun p t act g hlm hp ht hact hg hb => next_of_accepts hacc (geometryCheck_placed ho hlm hp ht hact hg hb),
      fun hlm hp => next_of_accepts hacc (geometryCheck_unplaced ho hlm hp)⟩
  case census => exact fun s d hacc ho => next_of_accepts hacc (censusRun_lawful ho)

end Sys2Proof.Machine
end

section
/-! What ends a Trail port's Active state: losses, retraining, SLEEP and CTRL.EN = 0 (R89, R94 - R97). -/

namespace Sys2Proof.Machine

/-! ### What a port that leaves its state shows -/

/-- The flags of STAT that fall when a port leaves its state (R89). -/
def linkFlags (k : Nat) : List Fld :=
  [F.TRL_STAT_BLOCK_LOCK k, F.TRL_STAT_DESKEWED k, F.TRL_STAT_READY_LOCAL k, F.TRL_STAT_READY_PEER k, F.TRL_STAT_ACCEPTED k,
    F.TRL_STAT_LINK_CYCLES k]

/-- They lie in STAT beside the state code (bit 0) and LAST_CAUSE (bit 24). -/
theorem linkFlags_place (k : Nat) :
    ∀ f ∈ linkFlags k, f.off = 0x40080 + 0x10000 * k ∧ 0 < f.lo ∧ f.lo < 32 ∧ f.lo ≠ 24 := by
  simp [linkFlags, F.TRL_STAT_BLOCK_LOCK, F.TRL_STAT_DESKEWED, F.TRL_STAT_READY_LOCAL, F.TRL_STAT_READY_PEER,
    F.TRL_STAT_ACCEPTED, F.TRL_STAT_LINK_CYCLES]

theorem linkFlags_nodup (k : Nat) : ((linkFlags k).map Fld.key).Nodup := by
  simp [linkFlags, Fld.key, F.TRL_STAT_BLOCK_LOCK, F.TRL_STAT_DESKEWED, F.TRL_STAT_READY_LOCAL, F.TRL_STAT_READY_PEER,
    F.TRL_STAT_ACCEPTED, F.TRL_STAT_LINK_CYCLES]

/-- Fields set to 0, one after the other. -/
def State.clear (s : State) (l : List Fld) : State := l.foldl (fun s f => s.wr f 0) s

theorem State.rd_clear_ne {l : List Fld} {f : Fld} (s : State) (h : ∀ g ∈ l, g.key ≠ f.key) : (s.clear l).rd f = s.rd f :=
  List.foldlRecOn (motive := fun t : State => t.rd f = s.rd f) _ _ rfl fun t ht g hg => (State.rd_wr_ne t 0 (h g hg)).trans ht

theorem State.rd_clear_mem {l : List Fld} {f : Fld} (s : State) (hl : (l.map Fld.key).Nodup) (h : f ∈ l) :
    (s.clear l).rd f = 0 := by
  induction l generalizing s with
  | nil => cases h
  | cons g l ih =>
    obtain ⟨hg, hl⟩ := List.nodup_cons.mp hl
    rcases List.mem_cons.mp h with rfl | hf
    · have hrest : ((s.wr f 0).clear l).rd f = (s.wr f 0).rd f :=
        State.rd_clear_ne _ fun g' hg' he => hg (he ▸ List.mem_map_of_mem hg')
      exact hrest.trans ((s.rd_wr_same f 0).trans (Nat.zero_mod _))
    · exact ih (s.wr g 0) hl hf

/-- Stopping in Capability keeps the port's own message in CAP_TX alone (R91). -/
theorem State.rd_keepCap {k : Nat} {f : Fld} (s : State) (h : ∀ n, (F.TRL_CAP_TX k n).key ≠ f.key) :
    (s.keepCap k).rd f = s.rd f := by
  unfold State.keepCap
  split_ifs
  · exact List.foldlRecOn (motive := fun t : State => t.rd f = s.rd f) _ _ rfl
      fun t ht n _ => (State.rd_wr_ne t _ (h n)).trans ht
  · rfl

theorem State.rd_endFeed {f : Fld} (s : State) (k : Nat) (hw : F.GLB_FEED_STAT_W_LIVE.key ≠ f.key)
    (he : F.GLB_FEED_STAT_E_LIVE.key ≠ f.key) : (s.endFeed k).rd f = s.rd f := by
  unfold State.endFeed
  extract_lets p _ fd t
  have ht : t.rd f = s.rd f := rfl
  clear_value t
  split_ifs
  · exact (State.rd_wr_ne t 0 hw).trans ht
  · exact (State.rd_wr_ne t 0 he).trans ht
  · exact ht

/-- A port's own record once it has left its state, before its flags fall. -/
def State.stopPort (s : State) (k : Nat) : State :=
  (s.keepCap k).setPort k
    { (s.keepCap k).port k with readySince := none, closing := none, berRun := 0, sleeping := false }

theorem State.dropPort_eq (s : State) (k c : Nat) :
    s.dropPort k c = (((s.stopPort k).clear (linkFlags k)).enterState k c).endFeed k := rfl

theorem State.rd_stopPort {k : Nat} {f : Fld} (s : State) (h : ∀ n, (F.TRL_CAP_TX k n).key ≠ f.key) :
    (s.stopPort k).rd f = s.rd f :=
  (State.rd_regs (State.setPort_regs _ _ _) f).trans (s.rd_keepCap h)

/-- Past the flags and the state code, a port that leaves its state writes GLB's FEED_STAT alone. -/
theorem State.rd_dropPort {k : Nat} {f : Fld} (s : State) (c : Nat) (hs : (F.TRL_STAT_STATE k).key ≠ f.key)
    (hg : 0x8000 ≤ f.key) : (s.dropPort k c).rd f = ((s.stopPort k).clear (linkFlags k)).rd f := by
  have hw : F.GLB_FEED_STAT_W_LIVE.key ≠ f.key := ne_of_lt (lt_of_lt_of_le (by decide) hg)
  have he : F.GLB_FEED_STAT_E_LIVE.key ≠ f.key := ne_of_lt (lt_of_lt_of_le (by decide) hg)
  rw [State.dropPort_eq, State.rd_endFeed _ k hw he, State.enterState, State.rd_regs (State.setPort_regs _ _ _),
    State.rd_wr_ne _ _ hs]

/-- Leaving a state changes registers and the port alone: whatever those do not reach stays. -/
theorem State.dropPort_outside {β : Type} (g : State → β) (hwr : ∀ s f v, g (State.wr s f v) = g s)
    (hport : ∀ s k p, g (State.setPort s k p) = g s) (s : State) (k c : Nat) : g (s.dropPort k c) = g s := by
  have hkeep : g (s.keepCap k) = g s := by
    unfold State.keepCap
    split_ifs
    · exact List.foldlRecOn (motive := fun t : State => g t = g s) _ _ rfl fun t ht _ _ => (hwr t _ _).trans ht
    · rfl
  have hfeed : ∀ t : State, g (t.endFeed k) = g t := by
    intro t
    unfold State.endFeed
    dsimp only
    split_ifs
    · rw [hwr, hport]
    · rw [hwr, hport]
    · rw [hport]
  rw [State.dropPort, hfeed, State.enterState]
  simp only [hwr, hport, hkeep]

/-! ### Exits and their causes -/

/-- An exit from Active is counted (R95). -/
def State.countExit (s : State) (k : Nat) : State := if s.lst k = 6 then s.inc (F.TRL_RETRAINS k) else s

/-- An exit that takes place: where the port goes, and the cause it records (R95, R97). -/
def State.exits (s : State) (k cause nxt : Nat) : State :=
  let code := if (s.countExit k).on (F.TRL_CTRL_DORMANT k) then 7 else nxt
  let t := ((s.countExit k).dropPort k code).wr (F.TRL_STAT_LAST_CAUSE k) cause
  t.setPort k { t.port k with fast := false, left := some (t.core, cause) }

theorem State.exitActive_again {s : State} {k cause nxt q : Nat} (h : s.leftNow k = some q) (hq : q ≤ cause) :
    s.exitActive k cause nxt = s :=
  if_pos (by simpa [h] using hq)

theorem State.exitActive_lower {s : State} {k cause : Nat} (nxt : Nat) (h : ∀ q, s.leftNow k = some q → cause < q) :
    s.exitActive k cause nxt = s.exits k cause nxt := by
  refine if_neg ?_
  cases hq : s.leftNow k with
  | none => simp
  | some q => simpa using h q hq

theorem State.on_countExit (s : State) (k : Nat) : (s.countExit k).on (F.TRL_CTRL_DORMANT k) = s.on (F.TRL_CTRL_DORMANT k) := by
  have hkey : (F.TRL_RETRAINS k).key ≠ (F.TRL_CTRL_DORMANT k).key := by
    simp only [Fld.key, F.TRL_RETRAINS, F.TRL_CTRL_DORMANT]
    omega
  unfold State.countExit
  split_ifs
  · rw [State.on, State.inc, State.incBy, State.rd_wr_ne _ _ hkey, State.on]
  · rfl

theorem State.rd_countExit (s : State) (k : Nat) : (s.countExit k).rd (F.TRL_RETRAINS k) =
    if s.rd (F.TRL_STAT_STATE k) = 6 then min (s.rd (F.TRL_RETRAINS k) + 1) (2 ^ 32 - 1) else s.rd (F.TRL_RETRAINS k) := by
  rw [State.countExit, State.lst]
  split_ifs
  · have hlen : (F.TRL_RETRAINS k).len = 32 := rfl
    rw [State.inc, State.incBy, State.rd_wr_same, hlen]
    exact Nat.mod_eq_of_lt (by omega)
  · rfl

theorem State.exits_outside {β : Type} (g : State → β) (hwr : ∀ s f v, g (State.wr s f v) = g s)
    (hport : ∀ s k p, g (State.setPort s k p) = g s) (s : State) (k cause nxt : Nat) : g (s.exits k cause nxt) = g s := by
  have hcount : g (s.countExit k) = g s := by
    unfold State.countExit
    split_ifs
    · exact hwr s _ _
    · rfl
  rw [State.exits, hport, hwr, State.dropPort_outside g hwr hport, hcount]

theorem State.rd_exits {k : Nat} {f : Fld} (s : State) (cause nxt : Nat) (h : (F.TRL_STAT_LAST_CAUSE k).key ≠ f.key) :
    (s.exits k cause nxt).rd f =
      ((s.countExit k).dropPort k (if s.on (F.TRL_CTRL_DORMANT k) = true then 7 else nxt)).rd f := by
  rw [State.exits, State.rd_regs (State.setPort_regs _ _ _), State.rd_wr_ne _ _ h, s.on_countExit]

theorem State.exits_code {s : State} {k cause nxt : Nat} (hn : nxt < 8) :
    (s.exits k cause nxt).rd (F.TRL_STAT_STATE k) = if s.on (F.TRL_CTRL_DORMANT k) = true then 7 else nxt := by
  have hkey : (F.TRL_STAT_LAST_CAUSE k).key ≠ (F.TRL_STAT_STATE k).key := by
    simp [Fld.key, F.TRL_STAT_LAST_CAUSE, F.TRL_STAT_STATE]
  rw [s.rd_exits cause nxt hkey]
  refine (State.lst_dropPort _ k _).trans (Nat.mod_eq_of_lt ?_)
  split_ifs <;> omega

theorem State.exits_cause {s : State} {k cause nxt : Nat} (hc : cause < 8) :
    (s.exits k cause nxt).rd (F.TRL_STAT_LAST_CAUSE k) = cause :=
  (State.rd_wr_same _ _ _).trans (Nat.mod_eq_of_lt hc)

theorem State.exits_flag {s : State} {k cause nxt : Nat} {f : Fld} (h : f ∈ linkFlags k) : (s.exits k cause nxt).rd f = 0 := by
  obtain ⟨hoff, hlo, hlt, hcause⟩ := linkFlags_place k f h
  have hne : (F.TRL_STAT_LAST_CAUSE k).key ≠ f.key ∧ (F.TRL_STAT_STATE k).key ≠ f.key ∧ 0x8000 ≤ f.key := by
    simp only [Fld.key, F.TRL_STAT_LAST_CAUSE, F.TRL_STAT_STATE]
    omega
  rw [s.rd_exits cause nxt hne.1, State.rd_dropPort _ _ hne.2.1 hne.2.2]
  exact State.rd_clear_mem _ (linkFlags_nodup k) h

theorem State.exits_flags (s : State) (k cause nxt : Nat) :
    (s.exits k cause nxt).rd (F.TRL_STAT_BLOCK_LOCK k) = 0 ∧ (s.exits k cause nxt).rd (F.TRL_STAT_DESKEWED k) = 0 ∧
    (s.exits k cause nxt).rd (F.TRL_STAT_READY_LOCAL k) = 0 ∧ (s.exits k cause nxt).rd (F.TRL_STAT_READY_PEER k) = 0 ∧
    (s.exits k cause nxt).rd (F.TRL_STAT_ACCEPTED k) = 0 ∧ (s.exits k cause nxt).rd (F.TRL_STAT_LINK_CYCLES k) = 0 := by
  have hflag : ∀ f ∈ linkFlags k, (s.exits k cause nxt).rd f = 0 := fun _ => State.exits_flag
  simpa [linkFlags] using hflag

theorem State.exits_retrains (s : State) (k cause nxt : Nat) : (s.exits k cause nxt).rd (F.TRL_RETRAINS k) =
    if s.rd (F.TRL_STAT_STATE k) = 6 then min (s.rd (F.TRL_RETRAINS k) + 1) (2 ^ 32 - 1) else s.rd (F.TRL_RETRAINS k) := by
  have hcause : (F.TRL_STAT_LAST_CAUSE k).key ≠ (F.TRL_RETRAINS k).key := by
    simp only [Fld.key, F.TRL_STAT_LAST_CAUSE, F.TRL_RETRAINS]
    omega
  have hstate : (F.TRL_STAT_STATE k).key ≠ (F.TRL_RETRAINS k).key := by
    simp only [Fld.key, F.TRL_STAT_STATE, F.TRL_RETRAINS]
    omega
  have hcap : ∀ n, (F.TRL_CAP_TX k n).key ≠ (F.TRL_RETRAINS k).key := by
    intro n
    simp only [Fld.key, F.TRL_CAP_TX, F.TRL_RETRAINS]
    omega
  have hflags : ∀ g ∈ linkFlags k, g.key ≠ (F.TRL_RETRAINS k).key := by
    intro g hg
    obtain ⟨hoff, _, hlt, _⟩ := linkFlags_place k g hg
    simp only [Fld.key, F.TRL_RETRAINS, hoff]
    omega
  have hbig : 0x8000 ≤ (F.TRL_RETRAINS k).key := by
    simp only [Fld.key, F.TRL_RETRAINS]
    omega
  rw [s.rd_exits cause nxt hcause, State.rd_dropPort _ _ hstate hbig, State.rd_clear_ne _ hflags, State.rd_stopPort _ hcap,
    s.rd_countExit]

/-! ### Losses -/

/-- A window of 64 blocks that begins past the last block holds none. -/
theorem laneLost_iff (l : List Bool) : laneLost l = true ↔ ∃ i, 16 ≤ ((l.drop i).take 64).count true := by
  simp only [laneLost, List.any_eq_true, List.mem_range, decide_eq_true_eq]
  refine ⟨fun ⟨i, _, hi⟩ => ⟨i, hi⟩, fun ⟨i, hi⟩ => ⟨i, ?_, hi⟩⟩
  by_contra hlen
  rw [List.drop_eq_nil_of_le (Nat.le_of_not_lt hlen)] at hi
  simp at hi

theorem State.roundLost_iff (s : State) (k : Nat) (l : List (Nat × Block)) :
    s.roundLost k l = true ↔ (∃ x ∈ l, blockMarks x.2 = false) ∨ roundOffs l ≠ (s.port k).offs := by
  simp [State.roundLost]

theorem State.leftNow_congr {s t : State} {k : Nat} (hl : (t.port k).left = (s.port k).left) (hc : t.core = s.core) :
    t.leftNow k = s.leftNow k := by
  rw [State.leftNow, hl, hc, State.leftNow]

/-- The states in which a loss of R95 that also ends Deskew and Capability acts, one that an exit coincides with included (R96). -/
theorem linkEvent_early (s : State) (k cause nxt : Nat) (e : Nat × Nat) : linkEvent k cause nxt true e s =
    if s.lst k = 6 ∨ s.lst k = 4 ∨ s.lst k = 5 ∨ ((s.lst k = 1 ∨ s.lst k = 2) ∧ (s.leftNow k).isSome = true)
      then ((s.exitActive k cause nxt).detect e).feedUpdate else s :=
  if_congr (by simp [or_assoc]) rfl rfl

theorem linkEvent_active (s : State) (k cause nxt : Nat) (e : Nat × Nat) : linkEvent k cause nxt false e s =
    if s.lst k = 6 ∨ ((s.lst k = 1 ∨ s.lst k = 2) ∧ (s.leftNow k).isSome = true)
      then ((s.exitActive k cause nxt).detect e).feedUpdate else s :=
  if_congr (by simp) rfl rfl

/-- A loss that the blocks of a command show, judged in the state they leave. -/
theorem linkEvent_takeBlocks (s : State) (k cause : Nat) (e : Nat × Nat) (rx : List (List Block)) (lost : Bool) :
    (if lost = true then linkEvent k cause 2 true e (s.takeBlocks k rx) else s.takeBlocks k rx) =
      if lost = true ∧ (s.lst k = 6 ∨ s.lst k = 4 ∨ s.lst k = 5 ∨ ((s.lst k = 1 ∨ s.lst k = 2) ∧ (s.leftNow k).isSome = true))
        then (((s.takeBlocks k rx).exitActive k cause 2).detect e).feedUpdate else s.takeBlocks k rx := by
  have hleft : (s.takeBlocks k rx).leftNow k = s.leftNow k :=
    State.leftNow_congr (s.takeBlocks_port k rx Port.left fun _ _ => rfl) (s.takeBlocks_core k rx)
  rw [linkEvent_early, s.takeBlocks_lst, hleft, ite_and]

theorem key_signal (k : Nat) : (F.TRL_STAT_SIGNAL k).key % 0x200000 ≠ 0x1000 := by
  simp only [Fld.key, F.TRL_STAT_SIGNAL]
  omega

theorem signalLoss_eq (s : State) (k : Nat) :
    linkEvent k 1 1 true (E.TRL_SIGNAL_LOSS k) (s.wr (F.TRL_STAT_SIGNAL k) 0) =
      if s.lst k = 6 ∨ s.lst k = 4 ∨ s.lst k = 5 ∨ ((s.lst k = 1 ∨ s.lst k = 2) ∧ (s.leftNow k).isSome = true)
        then (((s.wr (F.TRL_STAT_SIGNAL k) 0).exitActive k 1 1).detect (E.TRL_SIGNAL_LOSS k)).feedUpdate
        else s.wr (F.TRL_STAT_SIGNAL k) 0 := by
  have hleft : (s.wr (F.TRL_STAT_SIGNAL k) 0).leftNow k = s.leftNow k := rfl
  rw [linkEvent_early, s.lst_wr 0 k (key_signal k), hleft]

/-! ### Retraining, CTRL.EN = 0 and SLEEP -/

theorem retrain_none {s : State} {k : Nat} (h : s.lst k = 0 ∨ s.lst k = 7 ∨ s.on (F.TRL_CTRL_DORMANT k) = true) :
    retrain k s = s :=
  if_pos (by simpa [or_assoc] using h)

theorem retrain_some {s : State} {k : Nat} (h0 : s.lst k ≠ 0) (h7 : s.lst k ≠ 7) (hd : s.on (F.TRL_CTRL_DORMANT k) = false) :
    retrain k s = (s.exitActive k 5 2).feedUpdate :=
  if_neg (by simp [h0, h7, hd])

theorem trlDisable_eq {s : State} {k : Nat} (hk : k < s.portCount) : trlDisable k s =
    (let u := ((s.wr (F.TRL_CTRL_EN k) 0).dropPort k 0).wr (F.TRL_STAT_SIGNAL k) 0
     if s.lst k = 6 then u.feedUpdate else u) :=
  if_congr (by simp [State.portActive, State.lst, hk]) rfl rfl

/-- Off and Dormant ports receive no SLEEP stripes. -/
theorem peerSleep_stopped {s : State} {k : Nat} (h : s.lst k = 0 ∨ s.lst k = 7) : peerSleep k s = s :=
  if_pos (by simp [h])

theorem State.lst_of_portActive {s : State} {k : Nat} (h : s.portActive k = true) : s.lst k = 6 := by
  simp only [State.portActive, Bool.and_eq_true, beq_iff_eq] at h
  exact h.2

/-- A tile's other Active port ends with its Trail cycle, and stays asked for by its own CTRL.DORMANT where it was (R97). -/
theorem State.sleep_other (u : State) (j : Nat) : (if (u.isTile && u.portActive j) = true then u.sleep j false else u) =
    if u.isTile = true ∧ u.portActive j = true
      then u.setPort j { u.port j with closing := some ((u.port j).closing == some true) } else u :=
  if_ctx_congr (by simp) (fun h => if_pos (State.lst_of_portActive h.2)) fun _ => rfl

theorem peerSleep_awake {s : State} {k : Nat} (h2 : 2 ≤ s.lst k) (h6 : s.lst k ≤ 6) : peerSleep k s =
    (let u := (s.toDormant k).detect (E.TRL_PEER_SLEEP k)
     State.feedUpdate (if u.isTile = true ∧ u.portActive (1 - k) = true then u.setPort (1 - k)
       { u.port (1 - k) with closing := some ((u.port (1 - k)).closing == some true) } else u)) := by
  have h0 : s.lst k ≠ 0 := by omega
  have h1 : s.lst k ≠ 1 := by omega
  have h7 : s.lst k ≠ 7 := by omega
  exact (if_neg (by simp [h0, h1, h7])).trans (congrArg State.feedUpdate (State.sleep_other _ _))

/-- Settles O43: each event's states, then what an exit shows and counts by the cause of one that coincides with it. -/
theorem linkLeaves : Obligations.LinkLeaves := by
  unfold Obligations.LinkLeaves
  refine ⟨laneLost_iff, State.roundLost_iff, fun s k st hr hk hst => ?events, fun s k cause nxt => ⟨?again, ?exit⟩⟩
  case events =>
    have hlst : s.lst k = st := hst
    subst hlst
    refine ⟨fun rx r1 r2 => ⟨s.takeBlocks k rx, _, rfl, fun _ _ _ => rfl, ?lockLoss, ?deskewLoss⟩, ⟨_, rfl, ?signalLoss⟩,
      ?berShort, ?hiBer, ?retrainNone, ?retrain, ⟨_, rfl, ?disable⟩, ?sleepStopped, fun h2 h6 => ⟨_, rfl, ?sleep⟩⟩
    case lockLoss => exact next_of_runs hr hk (linkEvent_takeBlocks s k 2 _ rx _)
    case deskewLoss => exact next_of_runs hr hk (linkEvent_takeBlocks s k 3 _ rx _)
    case signalLoss => exact next_of_runs hr hk (signalLoss_eq s k)
    case berShort => exact fun h => next_of_runs hr hk (if_neg (Nat.not_le.mpr h))
    case hiBer => exact fun h => next_of_runs hr hk ((if_pos h).trans (linkEvent_active s k 4 2 _))
    case retrainNone => exact fun h => next_of_runs hr hk (retrain_none h)
    case retrain => exact fun h0 h7 hd => next_of_runs hr hk (retrain_some h0 h7 hd)
    case disable => exact next_of_runs hr hk (trlDisable_eq hk)
    case sleepStopped => exact fun h => next_of_runs hr hk (peerSleep_stopped h)
    case sleep => exact next_of_runs hr hk (peerSleep_awake h2 h6)
  case again => exact fun q hq hle => State.exitActive_again hq hle
  case exit =>
    intro hlower _ hn hc
    have hkept : ∀ {β : Type} (g : State → β), (∀ s f v, g (State.wr s f v) = g s) →
        (∀ s k p, g (State.setPort s k p) = g s) → g (s.exits k cause nxt) = g s :=
      fun g hwr hport => State.exits_outside g hwr hport s k cause nxt
    obtain ⟨hlock, hdeskew, hlocal, hpeer, haccepted, _⟩ := s.exits_flags k cause nxt
    exact ⟨s.exits k cause nxt, State.exitActive_lower nxt hlower, State.exits_code hn, State.exits_cause hc,
      hlock, hdeskew, hlocal, hpeer, haccepted, s.exits_retrains k cause nxt,
      hkept State.lm (fun _ _ _ => rfl) fun _ _ _ => rfl, hkept State.sdb (fun _ _ _ => rfl) fun _ _ _ => rfl,
      hkept State.core (fun _ _ _ => rfl) fun _ _ _ => rfl, hkept State.hq (fun _ _ _ => rfl) fun _ _ _ => rfl⟩

end Sys2Proof.Machine
end

section
/-! The slots that a port receives: their shell, then chunks, broadcasts, echoes and previews (R102 - R106, R112, R120, R121,
R144). -/

namespace Sys2Proof.Machine

/-! ### The shell of a slot -/

theorem State.runs_of_receives {s : State} {k cls : Nat} {b : Bytes} (h : s.receives k b cls = true) :
    s.runs = true ∧ k < s.portCount := by
  simp only [State.receives, Bool.and_eq_true, decide_eq_true_eq] at h
  obtain ⟨⟨⟨⟨⟨⟨⟨hl, hshut⟩, hk⟩, _⟩, _⟩, _⟩, _⟩, _⟩ := h
  exact ⟨Bool.and_eq_true_iff.mpr ⟨hl, hshut⟩, hk⟩

/-- A good copy of a class goes on, and then its taker says what it does (R102, R104, R112). -/
theorem next_of_receives {s p t : State} {k n cls : Nat} {b : Bytes} {l : List Nat} {f : State → State}
    (hr : s.receives k b cls = true) (hp : s.pass k n b = p) (hc : l.contains cls = true) (h : f p = t) :
    onLive s (onPort k (fun u => u.onCopy k n b l f)) = .next t := by
  obtain ⟨hruns, hk⟩ := State.runs_of_receives hr
  exact next_of_runs hruns hk (by rw [onCopy_of_receives n f hr hc, hp, h])

section
variable {s : State} {k n : Nat} {b : Bytes} (l : List Nat) (f : State → State)

theorem State.onCopy_ignored (h : s.portActive k = false ∨ slotEmpty b = true) : s.onCopy k n b l f = s :=
  if_pos (by simpa using h)

variable (ha : s.portActive k = true) (he : slotEmpty b = false)
include ha he

theorem State.onCopy_malformed (hf : slotFormed b = false) :
    s.onCopy k n b l f = ((s.pass k n b).inc (F.GLB_SLOT_HDR_BAD k)).detect E.GLB_HDR_BAD :=
  (if_neg (by simp [ha, he])).trans (if_pos (by simp [hf]))

theorem State.onCopy_badCrc (hf : slotFormed b = true) (hc : slotCrcOk b = false) :
    s.onCopy k n b l f = ((s.pass k n b).inc (F.GLB_SLOT_CRC_ERR k)).detect E.GLB_SLOT_CRC :=
  (if_neg (by simp [ha, he])).trans ((if_neg (by simp [hf])).trans (if_pos (by simp [hc])))

end

/-- The commands of the payload slots share one shell (R102, R104). -/
theorem exec_copy {k n : Nat} {b : Bytes} {i : Instr} (h : i ∈ [Instr.chunkReceive k n b, .broadcastSlot k n b, .echoReq k n b,
      .echoRsp k n b, .previewReturn k n b, .mailbox k n b, .remoteWrite k n b, .regRead k n b, .regWrite k n b, .resync k n b,
      .readReq k n b]) :
    ∃ l f, ∀ s, exec i s = onLive s (onPort k (fun u => u.onCopy k n b l f)) := by
  simp only [List.mem_cons, List.not_mem_nil, or_false] at h
  rcases h with rfl | rfl | rfl | rfl | rfl | rfl | rfl | rfl | rfl | rfl | rfl
  all_goals exact ⟨_, _, fun _ => rfl⟩

/-- A head forwards nothing (R112). -/
theorem State.pass_head {s : State} (k n : Nat) (b : Bytes) (h : s.isHead = true) : s.pass k n b = s :=
  if_neg (by simp [State.forwards, State.isTile_of_isHead h])

/-! ### Numbers in a header -/

theorem bits_of_lt {v n : Nat} (h : v < 2 ^ n) : bits v 0 n = v := (bits_low v n).trans (Nat.mod_eq_of_lt h)

theorem bits_above {v lo : Nat} (len : Nat) (h : v < 2 ^ lo) : bits v lo len = 0 := by
  rw [bits, Nat.div_eq_of_lt h, Nat.zero_mod]

/-! ### Chunks -/

/-- One of the interests of a tile names the chunk of a slot (R102, R111). -/
def State.wantsChunk (p : State) (b : Bytes) : Bool :=
  p.interest.any (fun e => e.takes (slotSub b % 16) (numAt b 2 2) (numAt b 4 1))

/-- The chunks held are those of frames that are not over (R104). -/
def State.forgetsChunks (p : State) : State :=
  { p with trail := { p.trail with chunks := p.trail.chunks.filter (fun c => decide (0 ≤ p.frameOf c.1)) } }

/-- A chunk is noted as held (R104). -/
def State.holdsChunk (u : State) (c : Nat × Nat × Nat × Nat) : State :=
  { u with trail := { u.trail with chunks := c :: u.trail.chunks } }

section
variable {p : State} {b : Bytes} (k : Nat) (hline : numAt b 2 2 ≤ 8191)
include hline

theorem State.takeChunk_unwanted (h : p.wantsChunk b = false) : p.takeChunk k b = p := by
  have h13 : bits (numAt b 2 2) 0 13 = numAt b 2 2 := bits_of_lt (by omega)
  refine if_pos ?_
  rw [h13, bits_low]
  exact congrArg not h

/-- A lawful chunk that the tile wants: late where its frame is over, a duplicate where it is held, else stored (R104). -/
theorem State.takeChunk_wanted (hsub : slotSub b ≤ 31) (hlo : 1 ≤ numAt b 5 1) (hhi : numAt b 5 1 ≤ 240)
    (hz : zeroAt b 7 5 = true) (h : p.wantsChunk b = true) :
    p.takeChunk k b =
      let d := p.frameOf (numAt b 6 1)
      let c := (numAt b 6 1, slotSub b % 16, numAt b 2 2, numAt b 4 1)
      let u := p.forgetsChunks
      let v := u.holdsChunk c
      if d < 0 then (u.inc (F.GLB_SLOT_LATE k)).detect E.GLB_TAKE_LATE
      else if u.trail.chunks.contains c then u.inc (F.GLB_SLOT_DUP k)
      else (v.inc (F.GLB_SLOT_TAKEN k)).storeChunk (slotSub b % 16) (numAt b 2 2) (numAt b 4 1)
        (v.frameNow + BitVec.ofInt 32 d) ((slotBody b).take (numAt b 5 1)) := by
  have h13 : bits (numAt b 2 2) 0 13 = numAt b 2 2 := bits_of_lt (by omega)
  have hsub0 : bits (slotSub b) 5 3 = 0 := bits_above 3 (by omega)
  have hline0 : bits (numAt b 2 2) 13 3 = 0 := bits_above 3 (by omega)
  have hlo' : ¬ numAt b 5 1 < 1 := by omega
  have hhi' : ¬ 240 < numAt b 5 1 := by omega
  unfold State.takeChunk
  dsimp only
  rw [h13, bits_low]
  refine (if_neg ?_).trans ((if_neg ?_).trans rfl)
  · exact ne_true_of_eq_false (congrArg not h)
  · simp [hsub0, hline0, hlo', hhi', hz]

end

/-! ### Broadcasts -/

theorem State.dropGap_outside {β : Type} (g : State → β) (hg : ∀ (s : State) t, g { s with trail := t } = g s) (p : State)
    (stream : Nat) (bid : BitVec 16) : g (p.dropGap stream bid) = g p := by
  unfold State.dropGap
  split_ifs
  · exact hg _ _
  · rfl

section
variable {p : State} {b : Bytes} (k : Nat)

theorem State.takeBcast_bad (h : slotSub b < 1 ∨ 5 < slotSub b ∨ numAt b 8 4 ≤ numAt b 4 4) :
    p.takeBcast k b = (p.inc (F.GLB_SLOT_HDR_BAD k)).detect E.GLB_HDR_BAD :=
  if_pos (by simpa [or_assoc] using h)

variable (hlo : 1 ≤ slotSub b) (hhi : slotSub b ≤ 5) (hq : numAt b 4 4 < numAt b 8 4)
  (hbusy : slotSub b ≠ 4 ∨ p.trialBusy = false)
include hlo hhi hq hbusy

/-- The first slot of a stream opens its broadcast (R104). -/
theorem State.takeBcast_first (h : Map.find p.trail.bcasts (slotSub b) = none) : p.takeBcast k b =
    p.holdBcast k (slotSub b) (numAt b 4 4) ⟨BitVec.ofNat 16 (numAt b 2 2), numAt b 8 4, [], p.core, true⟩ (slotBody b) := by
  have hformed : ¬ (slotSub b < 1 ∨ 5 < slotSub b ∨ numAt b 8 4 ≤ numAt b 4 4) := by omega
  refine (if_neg (by simpa [or_assoc] using hformed)).trans ?_
  rw [h]
  exact if_neg (by simpa [imp_iff_not_or] using hbusy)

/-- A slot of the stream's broadcast is held once, a later broadcast takes its place, and one before it is a duplicate (R104). -/
theorem State.takeBcast_next {x : Bcast} (h : Map.find p.trail.bcasts (slotSub b) = some x) : p.takeBcast k b =
    let id := BitVec.ofNat 16 (numAt b 2 2)
    let u := p.dropGap (slotSub b) x.bid
    if x.bid = id then
      if x.opened = false ∨ (Map.find x.slots (numAt b 4 4)).isSome = true then p.inc (F.GLB_SLOT_DUP k)
      else if x.total = numAt b 8 4 then p.holdBcast k (slotSub b) (numAt b 4 4) x (slotBody b)
      else (p.inc (F.GLB_SLOT_HDR_BAD k)).detect E.GLB_HDR_BAD
    else if later16 id.toNat x.bid.toNat then
      u.holdBcast k (slotSub b) (numAt b 4 4) ⟨id, numAt b 8 4, [], u.core, true⟩ (slotBody b)
    else p.inc (F.GLB_SLOT_DUP k) := by
  have hformed : ¬ (slotSub b < 1 ∨ 5 < slotSub b ∨ numAt b 8 4 ≤ numAt b 4 4) := by omega
  have hidle : ¬ (decide (slotSub b = 4) && (p.dropGap (slotSub b) x.bid).trialBusy) = true := by
    rw [State.dropGap_outside State.trialBusy fun _ _ => rfl]
    simpa [imp_iff_not_or] using hbusy
  refine (if_neg (by simpa [or_assoc] using hformed)).trans ?_
  rw [h]
  refine if_ctx_congr eq_comm (fun _ => if_ctx_congr (by simp) (fun _ => rfl) fun _ => ?_) fun _ =>
    if_ctx_congr Iff.rfl (fun _ => ?_) fun _ => rfl
  · by_cases ht : x.total = numAt b 8 4
    · exact (if_neg (by simp [ht])).trans (if_pos ht).symm
    · exact (if_pos (by simpa using ht)).trans (if_neg ht).symm
  · rw [State.dropGap_outside State.core fun _ _ => rfl]
    exact if_neg hidle

end

theorem bcastGapTimer_closed {s : State} {stream : Nat} {x : Bcast} (hx : Map.find s.trail.bcasts stream = some x)
    (ho : x.opened = false) : bcastGapTimer stream s = s := by
  rw [bcastGapTimer, hx]
  exact if_pos (by simp [ho])

/-- Four Trail cycles after the last new slot the tile asks for the first gap of an open broadcast (R105). -/
theorem bcastGapTimer_open {s u : State} {stream : Nat} {x : Bcast} (hh : s.isHead = false)
    (hx : Map.find s.trail.bcasts stream = some x) (ho : x.opened = true) (hu : u = s.advance (x.last + 4 * 16896 - s.core)) :
    bcastGapTimer stream s = (u.setBcast stream { x with last := u.core }).askGap stream x := by
  rw [bcastGapTimer, hx, hu]
  exact if_neg (by simp [hh, ho])

/-! ### Echoes -/

/-- An RSP answers a REQ with its ESEQ, tile and LAUNCH (R120). -/
def rspAnswers (b : Bytes) (r : EchoReq) : Bool :=
  r.eseq == numAt b 4 2 && r.tile == slotTile b && r.launch % 2 ^ 32 == numAt (slotBody b) 0 4

section
variable {p u : State} {k : Nat} {b : Bytes} (hr : bits (numAt b 2 2) 9 7 = 0) (hz : zeroAt b 6 6 = true)
  (hq : zeroAt (slotBody b) 10 230 = true)
include hr hz hq

/-- A REQ for the tile waits to be answered, and brings the port's D where it carries one (R120, R121). -/
theorem State.takeReq_formed {v : State} (hm : p.forMe b = true) (hs : slotSub b = 1)
    (hv0 : bits (numAt (slotBody b) 7 1) 1 7 = 0) (hu : u = p.inc (F.GLB_SLOT_TAKEN k))
    (hv : v = { u with trail := { u.trail with rsps := u.trail.rsps ++
      [⟨k, numAt b 4 2, numAt (slotBody b) 0 4, numAt (slotBody b) 8 2, u.core⟩] } }) :
    p.takeReq k b = if bit (numAt (slotBody b) 7 1) 0 then
      ((v.setPort k { v.port k with feed := { (v.port k).feed with dLast := some (numAt (slotBody b) 4 3, v.core) } }).wr
        (dValid k) 1).lockUpdate else v := by
  subst hv hu
  exact (if_neg (by simp [hs, hm])).trans (if_neg (by simp [hs, hr, hz, hv0, hq]))

variable (hs : slotSub b = 2) (hu : u = (p.inc (F.GLB_SLOT_TAKEN k)).hear k (slotTile b))
include hs hu

/-- An RSP that answers no REQ only keeps its tile on the roster (R120, R355). -/
theorem State.takeRsp_unasked (h : (u.port k).echo.find? (rspAnswers b) = none) : p.takeRsp k b = u := by
  subst hu
  refine (if_neg (by simp [hs, hr, hz, hq])).trans ?_
  dsimp only
  split
  case h_1 => rfl
  case h_2 r hf => exact absurd (hf.symm.trans h) (Option.some_ne_none r)

/-- The D of a tile is half the round trip less the hold (R120). -/
theorem State.takeRsp_answers {v : State} {r : EchoReq} (h : (u.port k).echo.find? (rspAnswers b) = some r)
    (hv : v = u.setPort k { u.port k with echo := (u.port k).echo.erase r })
    (hle : numAt (slotBody b) 4 4 ≤ u.core - r.launch) :
    p.takeRsp k b = (v.setPort k { v.port k with
      dTile := Map.put (v.port k).dTile (slotTile b) ((u.core - r.launch - numAt (slotBody b) 4 4) / 2 % 2 ^ 24) }).showDmax k := by
  subst hv hu
  refine (if_neg (by simp [hs, hr, hz, hq])).trans ?_
  dsimp only
  split
  case h_1 hf => exact absurd (h.symm.trans hf) (Option.some_ne_none r)
  case h_2 r' hf =>
    obtain rfl := Option.some.inj (hf.symm.trans h)
    exact if_neg (Nat.not_lt.mpr hle)

end

/-- A REQ is dropped 256 Trail cycles after its launch (R120). -/
theorem echoTimeout_waiting {s u : State} {k : Nat} {e : BitVec 16} {r : EchoReq}
    (h : (s.port k).echo.find? (fun r => r.eseq == e.toNat) = some r) (hu : u = s.advance (r.launch + 256 * 16896 - s.core)) :
    echoTimeout k e s = u.setPort k { u.port k with echo := (u.port k).echo.erase r } := by
  rw [echoTimeout, h, hu]
  rfl

/-! ### Previews -/

/-- The reserved fields of a preview slot are 0 and its pixel count is lawful (R144). -/
structure PreviewFormed (b : Bytes) : Prop where
  sub : slotSub b = 0
  tile : bits (numAt b 2 2) 9 7 = 0
  header : zeroAt b 7 5 = true
  nonempty : 1 ≤ numAt (slotBody b) 4 1
  fits : numAt (slotBody b) 4 1 ≤ 77
  flags : bits (numAt (slotBody b) 5 1) 2 6 = 0
  body : zeroAt (slotBody b) 6 2 = true
  last : zeroAt (slotBody b) 239 1 = true

section
variable {s : State} {k : Nat} {b : Bytes} (hb : PreviewFormed b)
include hb

theorem PreviewFormed.judged : (slotSub b != 0 || bits (numAt b 2 2) 9 7 != 0 || !zeroAt b 7 5 || numAt (slotBody b) 4 1 < 1 ||
    77 < numAt (slotBody b) 4 1 || bits (numAt (slotBody b) 5 1) 2 6 != 0 || !zeroAt (slotBody b) 6 2 ||
    !zeroAt (slotBody b) 239 1) = false := by
  obtain ⟨hs, ht, hz, hlo, hhi, hf, hz6, hz239⟩ := hb
  have hlo' : ¬ numAt (slotBody b) 4 1 < 1 := by omega
  have hhi' : ¬ 77 < numAt (slotBody b) 4 1 := by omega
  simp [hs, ht, hz, hlo', hhi', hf, hz6, hz239]

theorem State.takePreview_dup (h : s.freshRet ⟨k, 0, b, 0⟩ = false) : s.takePreview k b = s.inc (F.GLB_SLOT_DUP k) :=
  (if_neg (ne_true_of_eq_false hb.judged)).trans (if_pos (by rw [h]; rfl))

variable {u : State} (h : s.freshRet ⟨k, 0, b, 0⟩ = true) (hu : u = (s.takeRet ⟨k, 0, b, 0⟩).inc (F.GLB_SLOT_TAKEN k))
include h hu

theorem State.takePreview_unset (hp : Map.find s.net.pvw 1 = none) : s.takePreview k b = u := by
  have hp' : Map.find ((s.takeRet ⟨k, 0, b, 0⟩).taken k).net.pvw 1 = none := hp
  refine (if_neg (ne_true_of_eq_false hb.judged)).trans ((if_neg (by rw [h]; decide)).trans ?_)
  dsimp only
  rw [hu, hp']
  rfl

/-- A row inside the preview is stored up to the end of its line, in the image of its frame's parity (R144). -/
theorem State.takePreview_stored {o : Bytes} (hp : Map.find s.net.pvw 1 = some o) (he : bit (numAt o 16 1) 0 = true)
    (hrow : numAt (slotBody b) 0 2 < numAt o 4 2) : s.takePreview k b =
      u.lmWrite (numAt o 8 8 + numAt b 6 1 % 2 * truthImage (numAt o 2 2) (numAt o 4 2) +
          3 * (numAt (slotBody b) 0 2 * numAt o 2 2 + numAt (slotBody b) 2 2))
        (((slotBody b).drop 8).take (3 * min (numAt (slotBody b) 4 1) (numAt o 2 2 - numAt (slotBody b) 2 2))) := by
  have hp' : Map.find ((s.takeRet ⟨k, 0, b, 0⟩).taken k).net.pvw 1 = some o := hp
  have hrow' : ¬ numAt o 4 2 ≤ numAt (slotBody b) 0 2 := by omega
  refine (if_neg (ne_true_of_eq_false hb.judged)).trans ((if_neg (by rw [h]; decide)).trans ?_)
  dsimp only
  rw [hu, hp']
  exact if_neg (by simp [he, hrow'])

end

/-- Settles O46: the slot's shell, then what its taker makes of a lawful slot. -/
theorem trailSlots : Obligations.TrailSlots := by
  unfold Obligations.TrailSlots
  refine ⟨?shell, ?chunk, ?broadcast, ?gap, ?echo, ?timeout, ?preview⟩
  case shell =>
    rintro s _ k n b i hi hr hk rfl
    obtain ⟨l, f, hx⟩ := exec_copy hi
    refine ⟨fun h => ?_, fun ha he => ⟨fun hf => ?_, fun hf hc => ?_⟩⟩
    · exact (hx s).trans (next_of_runs hr hk (State.onCopy_ignored l f h))
    · exact (hx s).trans (next_of_runs hr hk (State.onCopy_malformed l f ha he hf))
    · exact (hx s).trans (next_of_runs hr hk (State.onCopy_badCrc l f ha he hf hc))
  case chunk =>
    rintro s p k n _ _ _ _ _ b hr hp ht rfl hsub rfl hline rfl rfl hlo hhi rfl hz
    have hx {t : State} (h : p.takeChunk k b = t) : exec (.chunkReceive k n b) s = .next t :=
      hr.elim (fun hr => next_of_receives hr hp (by decide) ((if_pos ht).trans h))
        fun hr => next_of_receives hr hp (by decide) ((if_pos ht).trans h)
    refine ⟨fun hi => hx (State.takeChunk_unwanted k hline hi), fun hi => ?_⟩
    have hw := State.takeChunk_wanted k hline hsub hlo hhi hz hi
    refine ⟨_, rfl, fun hd => ?_, fun hd hc => ?_, fun hd hc => ⟨_, rfl, ?_⟩⟩
    · exact hx (hw.trans (if_pos hd))
    · exact hx (hw.trans ((if_neg (Int.not_lt.mpr hd)).trans (if_pos hc)))
    · exact hx (hw.trans ((if_neg (Int.not_lt.mpr hd)).trans (if_neg (ne_true_of_eq_false hc))))
  case broadcast =>
    rintro s p k n _ _ _ _ b hr hp ht rfl rfl rfl rfl
    have hx {t : State} (h : p.takeBcast k b = t) : exec (.broadcastSlot k n b) s = .next t :=
      next_of_receives hr hp (by decide) ((if_pos ht).trans h)
    refine ⟨fun h => hx (State.takeBcast_bad k h), fun hlo hhi hq hb => ⟨fun h => ?_, fun x h => ?_⟩⟩
    · exact hx (State.takeBcast_first k hlo hhi hq hb h)
    · have hn := State.takeBcast_next k hlo hhi hq hb h
      refine ⟨fun hi hd => ?_, fun hi ho hf => ?_, fun hi hl => ⟨_, rfl, ?_⟩, fun hi hl => ?_⟩
      · exact hx (hn.trans ((if_pos hi).trans (if_pos hd)))
      · exact hx (hn.trans ((if_pos hi).trans (if_neg (by simp [ho, hf]))))
      · exact hx (hn.trans ((if_neg hi).trans (if_pos hl)))
      · exact hx (hn.trans ((if_neg hi).trans (if_neg (ne_true_of_eq_false hl))))
  case gap =>
    exact fun s stream x hl hh hx => ⟨fun ho => next_of_live hl (bcastGapTimer_closed hx ho),
      fun ho => ⟨_, rfl, next_of_live hl (bcastGapTimer_open hh hx ho rfl)⟩⟩
  case echo =>
    rintro s p k n b _ hr hp rfl hres hz hq
    refine ⟨fun hm hs hv => ⟨_, _, rfl, rfl, ?req⟩, fun hh hs => ⟨_, rfl, fun he => ?unasked, ?answered⟩⟩
    case req =>
      have hx {t : State} (h : p.takeReq k b = t) : exec (.echoReq k n b) s = .next t :=
        next_of_receives hr hp (by decide) ((if_pos (State.isTile_of_forMe hm)).trans h)
      have hreq := State.takeReq_formed (k := k) hres hz hq hm hs hv rfl rfl
      exact ⟨fun h0 => hx (hreq.trans (if_neg (ne_true_of_eq_false h0))), fun h1 => hx (hreq.trans (if_pos h1))⟩
    case unasked =>
      exact next_of_receives hr hp (by decide) ((if_pos hh).trans (State.takeRsp_unasked hres hz hq hs rfl (by rw [he]; rfl)))
    case answered =>
      intro r he h1 h2 h3 hle
      have hf : rspAnswers b r = true := by simp only [rspAnswers, h1, h2, h3, beq_self_eq_true, Bool.and_self]
      refine ⟨_, rfl, next_of_receives hr hp (by decide) ((if_pos hh).trans ?_)⟩
      refine State.takeRsp_answers hres hz hq hs rfl (by rw [he]; exact List.find?_cons_of_pos hf) ?_ hle
      rw [he, List.erase_cons_head]
  case timeout => exact fun s k e r hr hk h => ⟨_, rfl, next_of_runs hr hk (echoTimeout_waiting h rfl)⟩
  case preview =>
    rintro s k n b _ _ hr hh rfl hs ht hz hlo hhi hf hz6 hz239 rfl
    have hb : PreviewFormed b := ⟨hs, ht, hz, hlo, hhi, hf, hz6, hz239⟩
    have hx {t : State} (h : s.takePreview k b = t) : exec (.previewReturn k n b) s = .next t :=
      next_of_receives hr (State.pass_head k n b hh) (by decide) ((if_pos hh).trans h)
    refine ⟨fun h => hx (State.takePreview_dup hb h), fun h => ⟨_, rfl, fun hp => ?_, fun o hp he hrow => ?_⟩⟩
    · exact hx (State.takePreview_unset hb h rfl hp)
    · exact hx (State.takePreview_stored hb h rfl hp he hrow)

end Sys2Proof.Machine
end

section
/-! Received frames on a head, sACN, the links and the references that have ended (R125, R126, R128, R130, R137 - R140, R147, R151,
R152, R186). -/

namespace Sys2Proof.Machine

/-! ### The path of a frame -/

theorem netFrameReceive_overflow {s : State} {f : NetFrame} (hh : s.isTile = false) (hp : f.port ≤ 1)
    (hl : s.on (F.NET_STAT_LINK f.port) = true) (ho : f.overflow = true) :
    netFrameReceive f s = (s.inc (F.NET_RX_OVF f.port)).detect (E.NET_RX_OVF f.port) := by
  have hp' : ¬ 1 < f.port := by omega
  simp [netFrameReceive, hh, hp', hl, ho]

/-- A frame that does not overflow at a head's port with link: it is counted, with its corrected FEC codewords, before it is
judged (R147). -/
structure State.Counts (s : State) (f : NetFrame) (u : State) : Prop where
  head : s.isTile = false
  port : f.port ≤ 1
  link : s.on (F.NET_STAT_LINK f.port) = true
  room : f.overflow = false
  counted : u = (s.inc (F.NET_RX_FRAMES f.port)).incBy (F.NET_FEC_CORR f.port) f.fecCorr

/-- A counted frame without an error, within the MTU in force and no PAUSE, goes on by its tags and its body (R125, R126). -/
structure State.Admits (s : State) (f : NetFrame) (u : State) : Prop extends s.Counts f u where
  goodFcs : f.fcsErr = false
  goodFec : f.fecErr = false
  fits : f.len ≤ u.mtu f.port
  noPause : f.pause = false

section
variable {s u : State} {f : NetFrame}

/-- Nothing before the counts stops the frame. -/
theorem State.Counts.gates (h : s.Counts f u) :
    (s.isTile || decide (1 < f.port) || !s.on (F.NET_STAT_LINK f.port)) = false ∧ f.overflow = false := by
  simp [h.head, h.link, h.room, Nat.not_lt.mpr h.port]

/-- Nothing before its tags and its body stops the frame. -/
theorem State.Admits.gates (h : s.Admits f u) :
    (s.isTile || decide (1 < f.port) || !s.on (F.NET_STAT_LINK f.port)) = false ∧ f.overflow = false ∧ f.fcsErr = false ∧
      f.fecErr = false ∧ (decide (u.mtu f.port < f.len) || f.pause) = false := by
  obtain ⟨hhead, hroom⟩ := h.toCounts.gates
  refine ⟨hhead, hroom, h.goodFcs, h.goodFec, ?_⟩
  simp [Nat.not_lt.mpr h.fits, h.noPause]

theorem netFrameReceive_badFcs (h : s.Counts f u) (hc : f.fcsErr = true) : netFrameReceive f s = u.inc (F.NET_RX_FCS f.port) := by
  simp only [netFrameReceive, h.gates, ← h.counted, hc, Bool.false_eq_true, if_false, if_true]

theorem netFrameReceive_uncorrectable (h : s.Counts f u) (hc : f.fcsErr = false) (he : f.fecErr = true) :
    netFrameReceive f s = (u.inc (F.NET_FEC_UNCORR f.port)).detect (E.NET_FEC_UNCORR f.port) := by
  simp only [netFrameReceive, h.gates, ← h.counted, hc, he, Bool.false_eq_true, if_false, if_true]

theorem netFrameReceive_stopped (h : s.Counts f u) (hc : f.fcsErr = false) (he : f.fecErr = false)
    (hs : u.mtu f.port < f.len ∨ f.pause = true) : netFrameReceive f s = u := by
  have hs' : (decide (u.mtu f.port < f.len) || f.pause) = true := by simpa using hs
  simp only [netFrameReceive, h.gates, ← h.counted, hc, he, hs', Bool.false_eq_true, if_false, if_true]

variable (h : s.Admits f u)
include h

theorem netFrameReceive_doubleTagged (hd : f.doubleTagged = true) : netFrameReceive f s = u.unclaimed f := by
  simp only [netFrameReceive, h.gates, ← h.counted, hd, Bool.false_eq_true, if_false, if_true]

theorem netFrameReceive_other (hb : f.body = .other) : netFrameReceive f s = u.unclaimed f := by
  simp only [netFrameReceive, h.gates, ← h.counted, hb, Bool.false_eq_true, if_false, ite_self]

variable (hd : f.doubleTagged = false)
include hd

theorem netFrameReceive_ptpEth (hb : f.body = .ptpEth) : netFrameReceive f s = u.ptpMessage f false := by
  simp only [netFrameReceive, h.gates, ← h.counted, hd, hb, Bool.false_eq_true, if_false]

theorem netFrameReceive_udp6 {p : BitVec 16} (hb : f.body = .udp6 p) (hp : ptpPort p = true) :
    netFrameReceive f s = u.ptpMessage f false := by
  simp only [netFrameReceive, h.gates, ← h.counted, hd, hb, hp, Bool.false_eq_true, if_false, if_true]

variable {o g c : Bool} {src dst : Word} {dport : BitVec 16} {x : UdpBody} (hb : f.body = .udp4 o g c src dst dport x)
include hb

theorem netFrameReceive_ptp4 (hp : ptpPort dport = true) : netFrameReceive f s = u.ptpMessage f true := by
  simp only [netFrameReceive, h.gates, ← h.counted, hd, hb, hp, Bool.false_eq_true, if_false, if_true]

variable (hp : ptpPort dport = false)
include hp

theorem netFrameReceive_irregular (hi : o = true ∨ g = true ∨ c = false) : netFrameReceive f s = u.unclaimed f := by
  have hi' : (o || g || !c) = true := by simpa [or_assoc] using hi
  simp only [netFrameReceive, h.gates, ← h.counted, hd, hb, hp, hi', Bool.false_eq_true, if_false, if_true]

variable (ho : o = false) (hg : g = false) (hc : c = true)
include ho hg hc

/-- A plain UDP frame goes to the lowest flow entry that matches it (R128). -/
theorem netFrameReceive_flow {i : Nat} {e : Bytes}
    (hf : u.net.flows.find? (fun y => flowMatches y.2 f.port f.vlan src dst dport x) = some (i, e)) :
    netFrameReceive f s = u.flowPacket f i e x := by
  simp only [netFrameReceive, h.gates, ← h.counted, hd, hb, hp, ho, hg, hc, hf, Bool.not_true, Bool.or_self, Bool.false_eq_true,
    if_false]

theorem netFrameReceive_noFlow (hf : u.net.flows.find? (fun y => flowMatches y.2 f.port f.vlan src dst dport x) = none) :
    netFrameReceive f s = u.unclaimed f := by
  simp only [netFrameReceive, h.gates, ← h.counted, hd, hb, hp, ho, hg, hc, hf, Bool.not_true, Bool.or_self, Bool.false_eq_true,
    if_false]

end

theorem ptpPort_iff (p : BitVec 16) : ptpPort p = true ↔ p = 319 ∨ p = 320 := by
  simp [ptpPort]

theorem State.ptpMessage_host (u : State) (f : NetFrame) :
    u.ptpMessage f false = u.toHost f.port 0xFFF 0 f.raw (u.ptpHeader f.port) := rfl

/-- PTP over IPv4 goes to Ranger on the PTP port with CFG.STACK 0 (R151, R152). -/
theorem State.ptpMessage_ip4 (u : State) (f : NetFrame) : u.ptpMessage f true =
    if u.rd F.PTP_CFG_STACK = 0 ∧ u.rd F.PTP_CFG_PTP_PORT = f.port
    then (u.emit (.ptpToRanger f.port (stampNs (u.rxStamp f.port)) (stampFrac (u.rxStamp f.port)) f.raw)).rangerPtp f.port
      (ptpBody f.raw)
    else u.toHost f.port 0xFFF 0 f.raw (u.ptpHeader f.port) := by
  simp only [State.ptpMessage, Bool.true_and, Bool.and_eq_true, decide_eq_true_eq]

theorem State.unclaimed_eq (s : State) (f : NetFrame) : s.unclaimed f =
    if numAt f.raw 0 6 = s.rd (F.NET_MAC_LO f.port) + 2 ^ 32 * s.rd (F.NET_MAC_HI f.port) ∨ numAt f.raw 0 6 = 0xFFFFFFFFFFFF ∨
      (numAt f.raw 0 6 % 2 = 1 ∧ s.on (F.NET_HOST_CFG_MCAST f.port) = true)
    then s.toHost f.port 0xFFF 0 f.raw else s.inc (F.NET_NOFLOW f.port) := by
  simp [State.unclaimed, bit, or_assoc]

theorem rowOk_iff (f : Fmt) (v : VideoRow) : rowOk f v = true ↔ v.line < f.height ∧
    v.offset + v.bytes.length ≤ f.lineBytes ∧ v.offset % f.group.2 = 0 ∧ v.bytes.length % f.group.2 = 0 := by
  simp [rowOk, and_assoc]

theorem State.toHost_none {s : State} (p flow tag : Nat) (raw pre : Bytes) (h : s.net.rx = []) :
    s.toHost p flow tag raw pre = (s.inc (F.NET_HOST_DROP p)).detect (E.NET_HOST_DROP p) := by
  rw [State.toHost, h]

theorem State.toHost_oldest {s : State} (p flow tag : Nat) {raw pre : Bytes} {d : Desc} {r : List Desc} (h : s.net.rx = d :: r)
    (hn : pre.length + raw.length ≤ d.num 8 2) : s.toHost p flow tag raw pre =
      (State.emit { s with net := { s.net with rx := r } } (.hostWrite (d.num 0 8) (pre ++ raw))).finish d 0x43 stOk
        (raw.length % 16384 + 65536 * p + 2 ^ 20 * flow + 2 ^ 32 * tag) := by
  rw [State.toHost, h]
  exact if_neg (Nat.not_lt.mpr hn)

/-! ### sACN -/

theorem State.sacnPacket_conflict {s : State} {i : Nat} {p : SacnPacket} (hc : p.startCode = 0) (hv : p.preview = false)
    (hs : p.syncPkt = false) (h : p.univ.toNat ≠ s.rd (F.NET_SACN_UNIV 0 i) ∨ p.univ = 0) :
    s.sacnPacket i p = s.detect (E.NET_SACN_CONFLICT 0) := by
  have hg : (p.startCode != 0 || p.preview || p.syncPkt) = false := by simp [hc, hv, hs]
  exact (if_neg (ne_true_of_eq_false hg)).trans (if_pos (by simpa using h))

/-- The first source heard of a universe holds it (R138). -/
theorem State.sacnPacket_first {s : State} {i : Nat} {p : SacnPacket} (hc : p.startCode = 0) (hv : p.preview = false)
    (hs : p.syncPkt = false) (hu : p.univ.toNat = s.rd (F.NET_SACN_UNIV 0 i)) (h0 : p.univ ≠ 0)
    (hl : Map.getD s.net.univs i [] = []) (ht : p.terminated = false) :
    s.sacnPacket i p = (s.setUniv i [⟨p.cid, p.prio, p.seq, s.core⟩]).sacnSlots i p.slots := by
  have h0' : ¬ p.univ = 0#16 := h0
  simp [State.sacnPacket, hc, hv, hs, hu, h0', hl, ht, holderOf]

theorem sacnSourceTimeout_unknown {s : State} {i : Nat} {cid : BitVec 128}
    (h : (Map.getD s.net.univs i []).find? (fun x => x.cid == cid) = none) : sacnSourceTimeout i cid s = s := by
  simp only [sacnSourceTimeout, h]

theorem sacnSourceTimeout_silent {s : State} {i : Nat} {cid : BitVec 128} {x : SacnSrc}
    (h : (Map.getD s.net.univs i []).find? (fun x => x.cid == cid) = some x) : sacnSourceTimeout i cid s =
      (s.advance (x.last + 2500000 * 103125 / 64 - s.core)).setUniv i
        ((Map.getD s.net.univs i []).filter (fun y => y.cid != cid)) := by
  simp only [sacnSourceTimeout, h, State.advanceTo, usCycles]

theorem sacnCommit_due {s : State} (hh : s.isHead = true) (ha : s.authority = true) (he : s.on (F.NET_SACN_CFG_AUTO 0) = true)
    (hd : s.net.sacnDirty = true) (hc : s.stp.commits = []) (hx : s.stp.hostEdit = false) : sacnCommit s =
      { (s.raiseCommit (ownCommit .sacn)).inc (F.NET_SACN_COMMITS 0) with
        net := { ((s.raiseCommit (ownCommit .sacn)).inc (F.NET_SACN_COMMITS 0)).net with sacnDirty := false } } :=
  if_pos (by simp [hh, ha, he, hd, hc, hx])

theorem sacnHeldWrite_frozen {s : State} (h : s.frozen = true) : sacnHeldWrite s = s := if_pos h

theorem sacnHeldWrite_one {s : State} {e v : Nat} {m : Bytes} (h : s.frozen = false) (hs : s.net.sacnHeld = [(e, v)])
    (hm : Map.find s.net.smap e = some m) :
    sacnHeldWrite s = { s.sacnWrite m v with net := { (s.sacnWrite m v).net with sacnHeld := [] } } := by
  simp [sacnHeldWrite, h, hs, hm]

theorem sacnCueCommit_none {s : State} (hc : s.net.cue = []) (hh : s.net.cueHeld = none) : sacnCueCommit s = s := by
  simp only [sacnCueCommit, hc, hh]

theorem State.cueActs {s : State} (hh : s.isTile = false) (ha : s.authority = true) (hr : s.power.ranger = .running)
    (hf : s.frozen = false) : (s.isTile || !s.authority || s.power.ranger != .running || s.frozen) = false := by
  simp [hh, ha, hr, hf]

section
variable {s : State} {v : Nat} {l : List Nat} (hv : s.net.cue = v :: l ∨ (s.net.cue = [] ∧ l = [] ∧ s.net.cueHeld = some v))
  (hh : s.isTile = false) (ha : s.authority = true) (hr : s.power.ranger = .running) (hf : s.frozen = false)
include hv hh ha hr hf

theorem sacnCueCommit_held (hx : s.stp.hostEdit = true) : sacnCueCommit s =
    State.detectIf { s with net := { s.net with cue := l, cueHeld := some v } } (!s.net.cue.isEmpty) (E.NET_CUE_HELD 0) := by
  have hg := State.cueActs hh ha hr hf
  rcases hv with hq | ⟨hq, rfl, hc⟩
  · simp only [sacnCueCommit, hq, hg, hx, Bool.false_eq_true, if_false, if_true]
    rfl
  · simp only [sacnCueCommit, hq, hc, hg, hx, Bool.false_eq_true, if_false, if_true]
    rfl

theorem sacnCueCommit_unset (hx : s.stp.hostEdit = false) (hm : Map.find s.net.cues v = none) :
    sacnCueCommit s = { s with net := { s.net with cue := l, cueHeld := none } } := by
  have hg := State.cueActs hh ha hr hf
  rcases hv with hq | ⟨hq, rfl, hc⟩
  · simp only [sacnCueCommit, hq, hg, hx, hm, Bool.false_eq_true, if_false]
    rfl
  · simp only [sacnCueCommit, hq, hc, hg, hx, hm, Bool.false_eq_true, if_false]
    rfl

/-- A cue's overlay set goes into a shadow bank without a Stand, whose layer table it leaves alone, and is committed (R140). -/
theorem sacnCueCommit_carried {set : BitVec 64} (hx : s.stp.hostEdit = false) (hm : Map.find s.net.cues v = some set)
    (hs : s.stp.shadow.stand = none) {w : State} (hw : w = { s with net := { s.net with cue := l, cueHeld := none } }) :
    sacnCueCommit s = ((((w.setShadowBank { s.stp.shadow with ovl := set }).touch 2 511 0).showShadow).raiseCommit
      (ownCommit (.cue v))) := by
  have hg := State.cueActs hh ha hr hf
  subst hw
  rcases hv with hq | ⟨hq, rfl, hc⟩
  · simp only [sacnCueCommit, hq, hg, hx, hm, hs, bne_self_eq_false, Bool.false_eq_true, if_false]
    rfl
  · simp only [sacnCueCommit, hq, hc, hg, hx, hm, hs, bne_self_eq_false, Bool.false_eq_true, if_false]
    rfl

end

/-! ### The links -/

theorem netLinkDown_down {s : State} {p : Nat} (h : s.on (F.NET_STAT_LINK p) = false) : netLinkDown p s = s :=
  if_pos (by simp [h])

theorem netLinkDown_up {s : State} {p : Nat} (hh : s.isTile = false) (hp : p ≤ 1) (h : s.on (F.NET_STAT_LINK p) = true) :
    netLinkDown p s = ((((s.wr (F.NET_STAT_LINK p) 0).wr (F.NET_STAT_SPEED p) 0).wr (F.NET_STAT_AN_DONE p) 0).restartLink p).detect
      (E.NET_LINK_DOWN p) :=
  if_neg (by simp [hh, h, Nat.not_lt.mpr hp])

section
variable {s r : State} {p : Nat} {m : Nat × Nat × Nat × Nat}
  (hr : r = if s.on (F.NET_STAT_LINK p) = true then s else s.restartLink p)
  (hm : m = Map.getD r.net.inForce p (0, 1, 0, 9216))
include hr hm

theorem netLinkUp_refused {sp : BitVec 2} (an : Bool) (h : speedOk m sp.toNat = false) : netLinkUp p sp an s = s := by
  subst hm hr
  exact if_pos (by simp [h])

theorem netLinkUp_allowed (hh : s.isTile = false) (hp : p ≤ 1) {sp : BitVec 2} (an : Bool) (h : speedOk m sp.toNat = true) :
    netLinkUp p sp an s = ((r.wr (F.NET_STAT_LINK p) 1).wr (F.NET_STAT_SPEED p) sp.toNat).wr (F.NET_STAT_AN_DONE p)
      (if an = true ∧ m.2.1 = 1 ∧ (m.1 = 1 ∨ m.1 = 2 ∨ m.1 = 4) then 1 else 0) := by
  have hdone : b2n (an && m.2.1 == 1 && (m.1 == 1 || m.1 == 2 || m.1 == 4)) =
      if an = true ∧ m.2.1 = 1 ∧ (m.1 = 1 ∨ m.1 = 2 ∨ m.1 = 4) then 1 else 0 := by
    simp [b2n, and_assoc, or_assoc]
  rw [← hdone]
  subst hm hr
  exact if_neg (by simp [hh, h, Nat.not_lt.mpr hp])

end

section
variable {s u : State} {p : Nat} {v : Word} (hh : s.isTile = false) (hp : p ≤ 1)
  (hu : u = (s.wr (F.NET_CFG_AN p) (bits v.toNat 3 1)).wr (F.NET_CFG_ADV100 p) (bits v.toNat 4 1))
include hh hp hu

theorem netModeWrite_unlisted (h : 5 < v.toNat % 8) : netModeWrite p v s = u := by
  subst hu
  refine (if_neg (by simp [hh, Nat.not_lt.mpr hp])).trans (if_pos ?_)
  rwa [bits_low]

theorem netModeWrite_listed (h : v.toNat % 8 ≤ 5) : netModeWrite p v s =
    (netLinkDown p (u.wr (F.NET_CFG_MODE p) (v.toNat % 8))).restartLink p := by
  subst hu
  refine (if_neg (by simp [hh, Nat.not_lt.mpr hp])).trans ?_
  simp only [bits_low _ 3, Nat.reducePow]
  exact if_neg (Nat.not_lt.mpr h)

end

/-! ### Released references -/

section
variable {s : State}

theorem referenceRelease_none (ok : Bool) (h : s.cnp.refs.find? s.ended = none) : referenceRelease ok s = s := by
  rw [referenceRelease, h]

variable {r : BufRef} (h : s.cnp.refs.find? s.ended = some r)
include h

theorem referenceRelease_waits (ok : Bool) (hc : s.postsTo (s.rd F.CNP_REL_CFG_CQ) = none) :
    referenceRelease ok s = s.detect E.CNP_REL_WAIT := by
  rw [referenceRelease, h]
  simp only [hc]

variable {c : Cq} (hc : s.postsTo (s.rd F.CNP_REL_CFG_CQ) = some c)
include hc

theorem referenceRelease_halts : referenceRelease false s = s.haltCq (s.rd F.CNP_REL_CFG_CQ) c := by
  rw [referenceRelease, h]
  simp only [hc, Bool.not_false, if_true]

theorem referenceRelease_posts {t : State} (ht : t = s.postEntry (s.rd F.CNP_REL_CFG_CQ) c (fun ph => cplBytes 0
    (BitVec.ofNat 32 s.ns) r.lastF (BitVec.ofNat 64 (r.rtag + 2 ^ 32 * r.source)) 0 0 0x17 true none 0 ph)) :
    referenceRelease true s = { t with cnp := { t.cnp with refs := t.cnp.refs.erase r } } := by
  subst ht
  rw [referenceRelease, h]
  simp only [hc, Bool.not_true, Bool.false_eq_true, if_false]

end

/-- Settles O47: a received frame by what stops it, then each event by the state it comes in. -/
theorem netIngest : Obligations.NetIngest := by
  unfold Obligations.NetIngest
  refine ⟨?frame, ?unclaimed, rowOk_iff, ?host, ?packet, ?timeout, ?commit, ?link, ?release⟩
  case frame =>
    intro s f hs hh hp hl
    refine ⟨_, rfl, fun ho => next_of_live hs (netFrameReceive_overflow hh hp hl ho), fun ho hc => ?_, fun ho hc he => ?_,
      fun ho hc he => ⟨fun h => ?_, fun hm hz => ?_⟩⟩
    · exact next_of_live hs (netFrameReceive_badFcs ⟨hh, hp, hl, ho, rfl⟩ hc)
    · exact next_of_live hs (netFrameReceive_uncorrectable ⟨hh, hp, hl, ho, rfl⟩ hc he)
    · exact next_of_live hs (netFrameReceive_stopped ⟨hh, hp, hl, ho, rfl⟩ hc he h)
    have ha : s.Admits f _ := ⟨⟨hh, hp, hl, ho, rfl⟩, hc, he, hm, hz⟩
    refine ⟨fun h => ?_, fun hd h => ?_, fun o g c src dst dport x hb hd => ⟨fun hport => ?_, fun h319 h320 => ?_⟩⟩
    · rcases h with hd | hb
      · exact next_of_live hs (netFrameReceive_doubleTagged ha hd)
      · exact next_of_live hs (netFrameReceive_other ha hb)
    · rcases h with hb | ⟨p, hport, hb⟩
      · exact next_of_live hs (netFrameReceive_ptpEth ha hd hb)
      · exact next_of_live hs (netFrameReceive_udp6 ha hd hb ((ptpPort_iff p).mpr hport))
    · exact next_of_live hs ((netFrameReceive_ptp4 ha hd hb ((ptpPort_iff dport).mpr hport)).trans (State.ptpMessage_ip4 _ f))
    · have hport : ptpPort dport = false := Bool.eq_false_iff.mpr fun h => ((ptpPort_iff dport).mp h).elim h319 h320
      exact ⟨fun hi => next_of_live hs (netFrameReceive_irregular ha hd hb hport hi),
        fun ho hg hc => ⟨fun i e hf => next_of_live hs (netFrameReceive_flow ha hd hb hport ho hg hc hf),
          fun hf => next_of_live hs (netFrameReceive_noFlow ha hd hb hport ho hg hc hf)⟩⟩
  case unclaimed =>
    refine fun s f => ⟨_, _, rfl, rfl, fun h => (s.unclaimed_eq f).trans (if_pos h), fun hown hall hmc => ?_⟩
    refine (s.unclaimed_eq f).trans (if_neg ?_)
    rintro (h | h | ⟨hodd, hon⟩)
    · exact hown h
    · exact hall h
    · rcases hmc with h | h
      · omega
      · exact ne_true_of_eq_false h hon
  case host =>
    exact fun s p flow tag raw pre => ⟨State.toHost_none p flow tag raw pre,
      fun d r h hn => ⟨_, rfl, State.toHost_oldest p flow tag h hn⟩⟩
  case packet =>
    exact fun s i p hc hv hs => ⟨State.sacnPacket_conflict hc hv hs, State.sacnPacket_first hc hv hs⟩
  case timeout =>
    exact fun s i cid hs => ⟨_, rfl, fun h => next_of_live hs (sacnSourceTimeout_unknown h),
      fun x h => next_of_live hs (sacnSourceTimeout_silent h)⟩
  case commit =>
    refine fun s hs => ⟨fun hh ha he hd hc hx => ⟨_, rfl, next_of_live hs (sacnCommit_due hh ha he hd hc hx)⟩,
      fun h => next_of_live hs (sacnHeldWrite_frozen h), fun e v m h hq hm => next_of_live hs (sacnHeldWrite_one h hq hm),
      fun hc hh => next_of_live hs (sacnCueCommit_none hc hh), fun v l hv hh ha hr hf => ⟨_, rfl, fun hx => ?_, fun hx hm => ?_,
      fun set hx hm hst => ?_⟩⟩
    · exact next_of_live hs (sacnCueCommit_held hv hh ha hr hf hx)
    · exact next_of_live hs (sacnCueCommit_unset hv hh ha hr hf hx hm)
    · exact next_of_live hs (sacnCueCommit_carried hv hh ha hr hf hx hm hst rfl)
  case link =>
    exact fun s p v sp an hs hh hp => ⟨fun h => next_of_live hs (netLinkDown_down h),
      fun h => next_of_live hs (netLinkDown_up hh hp h),
      ⟨_, _, rfl, rfl, fun h => next_of_live hs (netLinkUp_refused rfl rfl an h),
        fun h => next_of_live hs (netLinkUp_allowed rfl rfl hh hp an h)⟩,
      ⟨_, rfl, fun h => next_of_live hs (netModeWrite_unlisted hh hp rfl h),
        fun h => next_of_live hs (netModeWrite_listed hh hp rfl h)⟩⟩
  case release =>
    intro s ok hs hh
    have hx {t : State} (h : referenceRelease ok s = t) : exec (.referenceRelease ok) s = .next t :=
      next_of_live hs ((if_pos hh).trans h)
    refine ⟨fun h => hx (referenceRelease_none ok h), fun r h => ⟨fun hc => hx (referenceRelease_waits h ok hc),
      fun c hc => ⟨_, _, rfl, rfl, hx ?_⟩⟩⟩
    cases ok with
    | false => exact (referenceRelease_halts h hc).trans (if_neg Bool.false_ne_true).symm
    | true => exact (referenceRelease_posts h hc rfl).trans (if_pos rfl).symm

end Sys2Proof.Machine
end

section
/-! The opcodes of the flow table, the sources, the host's buffers, sACN and the previews, and the statistics (R127 - R129, R139 -
R141, R145, R187, R243). -/

namespace Sys2Proof.Machine

/-! ### FLOW_SET and FLOW_CLEAR -/

/-- Two legs of a protection group on one path: the same port and destination address (R128). -/
def samePath (e x : Bytes) : Bool := bits (numAt x 16 1) 3 2 == bits (numAt e 16 1) 3 2 && numAt x 0 4 == numAt e 0 4

theorem flowSet_unlawful {s : State} {d : Desc} (hl : flowLawful (d.bytes 16 32) = false) :
    flowSet d s = s.finish d 0x40 stFormat :=
  if_pos (by simp [hl])

section
variable {s : State} {d : Desc} (ho : d.only [(0, 0, 16), (16, 0, 256)] = true) (hi : d.num 0 2 ≤ 4095)
  (hl : flowLawful (d.bytes 16 32) = true)
include ho hi hl

theorem flowSet_conflict (hv : flowValid (d.bytes 16 32) = true)
    (hc : 2 ≤ (otherLegs s.net.flows (d.num 0 2) (d.bytes 16 32)).length ∨
      (otherLegs s.net.flows (d.num 0 2) (d.bytes 16 32)).any (samePath (d.bytes 16 32)) = true) :
    flowSet d s = s.finish d 0x40 0x401 := by
  refine (if_neg (by simp [ho, hl, Nat.not_lt.mpr hi])).trans ?_
  simp only [hv, if_true]
  exact if_pos (by rwa [Bool.or_eq_true, decide_eq_true_eq])

theorem flowSet_stored (hc : flowValid (d.bytes 16 32) = true →
      (otherLegs s.net.flows (d.num 0 2) (d.bytes 16 32)).length < 2 ∧
      (otherLegs s.net.flows (d.num 0 2) (d.bytes 16 32)).any (samePath (d.bytes 16 32)) = false) :
    flowSet d s =
      State.finish { s with net := { s.net with flows := Map.put s.net.flows (d.num 0 2) (d.bytes 16 32) } } d 0x40 stOk := by
  refine (if_neg (by simp [ho, hl, Nat.not_lt.mpr hi])).trans ?_
  cases hv : flowValid (d.bytes 16 32) with
  | false => rfl
  | true =>
    obtain ⟨hlen, hpath⟩ := hc hv
    refine if_neg ?_
    rw [if_pos rfl, Bool.or_eq_true, decide_eq_true_eq, not_or]
    exact ⟨Nat.not_le.mpr hlen, ne_true_of_eq_false hpath⟩

end

theorem flowClear_lawful {s : State} {d : Desc} (ho : d.only [(0, 0, 16)] = true) : flowClear d s =
    if 4095 < d.num 0 2 then s.finish d 0x41 stFormat
    else State.finish { s with net := { s.net with flows := Map.del s.net.flows (d.num 0 2) } } d 0x41 stOk := by
  simp [flowClear, ho]

/-! ### SOURCE_SET -/

/-- Operands of SOURCE_SET in their ranges (R129). -/
structure SourceRanges (d : Desc) : Prop where
  only : d.only [(0, 0, 4), (1, 0, 8), (2, 0, 6), (3, 0, 1), (4, 0, 16), (6, 0, 16), (8, 0, 4), (10, 0, 16)] = true
  kind : d.num 1 1 ≤ 2
  width : 1 ≤ d.num 4 2 ∧ d.num 4 2 ≤ 7680
  height : 1 ≤ d.num 6 2 ∧ d.num 6 2 ≤ 4320
  spread : 8 ≤ d.bitsAt 8 0 4
  window : 1 ≤ d.num 10 2 ∧ d.num 10 2 ≤ 4000
  pairs : d.bitsAt 2 0 4 = 0 → d.num 4 2 % 2 = 0

/-- With operands in range SOURCE_SET judges first the use of the source, then its format. -/
theorem sourceSet_inRange {s : State} {d : Desc} (h : SourceRanges d) : sourceSet d s =
    if s.banks.any (fun b => b.namesSource (d.num 0 1)) then s.finish d 0x42 0x402
    else if !fmtCombo (d.bitsAt 2 0 4) (d.bitsAt 2 4 2) || (d.bitsAt 2 0 4 == 3 && d.num 1 1 != 2) then s.finish d 0x42 0x403
    else ((s.setSource (d.num 0 1) (.fresh (d.bytes 0 12))).showSrc (d.num 0 1) false).finish d 0x42 stOk := by
  obtain ⟨hw1, hw2⟩ := h.width
  obtain ⟨hh1, hh2⟩ := h.height
  obtain ⟨hn1, hn2⟩ := h.window
  have hspread := h.spread
  have hpairs := h.pairs
  refine (if_neg (by simp [h.only, Nat.not_lt.mpr h.kind])).trans (if_neg ?_)
  simp only [Bool.or_eq_true, Bool.and_eq_true, decide_eq_true_eq, beq_iff_eq]
  omega

/-! ### The host's buffers and the statistics -/

section
variable {s : State} {d : Desc} (ho : d.only [(0, 0, 64), (8, 0, 16)] = true)
include ho

theorem rxPost_size (h : d.num 8 2 < 2048 ∨ 9216 < d.num 8 2) : rxPost d s = s.finish d 0x43 stFormat :=
  if_pos (by simpa [ho] using h)

theorem rxPost_sized (hlo : 2048 ≤ d.num 8 2) (hhi : d.num 8 2 ≤ 9216) : rxPost d s =
    if d.num 0 8 % 64 ≠ 0 then s.finish d 0x43 stAddress
    else { s.starts d with net := { s.net with rx := s.net.rx ++ [d] } } := by
  simp [rxPost, ho, Nat.not_lt.mpr hlo, Nat.not_lt.mpr hhi]

end

theorem flowStats_lawful {s : State} {d : Desc} (ok : Bool) (ho : d.only [(0, 0, 16), (8, 0, 64)] = true) (hi : d.num 0 2 ≤ 4095)
    {c : FlowCount} (hc : c = s.flowCount (d.num 0 2)) : flowStats d ok s =
      if ok then (s.emit (.hostWrite (d.num 8 8) ([c.taken, c.dup, c.late, c.fmt, c.frames, c.repeats, c.drops, c.diffNs].flatMap
        (leBytes 8)))).finish d 0x45 stOk
      else s.finish d 0x45 stPcie := by
  subst hc
  refine (if_neg (by simp [ho, Nat.not_lt.mpr hi])).trans ?_
  cases ok <;> rfl

/-- The bytes of CANOPY_STATS: for each layer, how often it was judged ready and how often not (R187). -/
def State.canopyBytes (s : State) : Bytes :=
  (List.range 8).flatMap (fun i => leBytes 4 (Map.getD s.cnp.okCount i 0) ++ leBytes 4 (Map.getD s.cnp.missCount i 0))

/-- The bytes of BRANCH_STATS: for each branch, its read-back mismatches and comparisons (R243). -/
def State.branchBytes (s : State) : Bytes :=
  (List.range 128).flatMap (fun b => leBytes 4 (Map.getD s.brn.bad b 0) ++ leBytes 4 (Map.getD s.brn.compared b 0))

theorem mbxRefuses_iff (d : Desc) (a len : Nat) : mbxRefuses d a len = true ↔ d.mbx = true ∧ lmOk a len = false := by
  simp [mbxRefuses]

theorem mbxRefuses_reach {d : Desc} {a len : Nat} (h : d.mbx = false ∨ lmOk a len = true) : mbxRefuses d a len = false := by
  rcases h with h | h <;> simp [mbxRefuses, h]

section
variable {s : State} {d : Desc} (ok : Bool) (ho : d.only [(8, 0, 64)] = true)
include ho

theorem canopyStats_address (hm : d.mbx = true) (hlm : lmOk (d.num 8 8) 64 = false) :
    canopyStats d ok s = s.finish d 0x61 stAddress :=
  (if_neg (by simp [ho])).trans (if_pos ((mbxRefuses_iff d _ _).mpr ⟨hm, hlm⟩))

theorem canopyStats_reach (h : d.mbx = false ∨ lmOk (d.num 8 8) 64 = true) : canopyStats d ok s =
    if ok = false ∧ d.mbx = false then s.finish d 0x61 stPcie
    else (s.returnTo d (d.num 8 8) s.canopyBytes).finish d 0x61 stOk := by
  simp only [canopyStats, ho, mbxRefuses_reach h, Bool.not_true, Bool.false_eq_true, if_false, Bool.and_eq_true, Bool.not_eq_true']
  rfl

theorem branchStats_address (hm : d.mbx = true) (hlm : lmOk (d.num 8 8) 1024 = false) :
    branchStats d ok s = s.finish d 0x81 stAddress :=
  (if_neg (by simp [ho])).trans (if_pos (by simp [(mbxRefuses_iff d _ _).mpr ⟨hm, hlm⟩]))

theorem branchStats_reach (ha : d.num 8 8 % 8 = 0) (h : d.mbx = false ∨ lmOk (d.num 8 8) 1024 = true) : branchStats d ok s =
    if ok = false ∧ d.mbx = false then s.finish d 0x81 stPcie
    else (s.returnTo d (d.num 8 8) s.branchBytes).finish d 0x81 stOk := by
  simp only [branchStats, ho, ha, mbxRefuses_reach h, bne_self_eq_false, Bool.or_self, Bool.not_true, Bool.false_eq_true, if_false,
    Bool.and_eq_true, Bool.not_eq_true']
  rfl

end

/-! ### sACN -/

theorem sacnMap_format {s : State} {d : Desc} (ht : 3 < d.num 5 1) : sacnMap d s = s.finish d 0x46 stFormat :=
  if_pos (by simp [ht])

section
variable {s : State} {d : Desc} (hi : d.num 0 1 ≤ 63)
  (ho : d.only [(0, 0, 8), (1, 0, 8), (2, 0, 16), (4, 0, 1), (5, 0, 8)] = true)
include hi ho

theorem sacnMap_removes (ht : d.num 5 1 = 0) : sacnMap d s =
    State.finish { s with net := { s.net with smap := Map.del s.net.smap (d.num 0 1) } } d 0x46 stOk := by
  simp [sacnMap, ht, ho, Nat.not_lt.mpr hi]

theorem sacnMap_stores (ht : d.num 5 1 = 1) (hu : d.num 1 1 ≤ 31) (hlo : 1 ≤ d.num 2 2) (hhi : d.num 2 2 ≤ 512) :
    sacnMap d s =
      State.finish { s with net := { s.net with smap := Map.put s.net.smap (d.num 0 1) (d.bytes 1 7) } } d 0x46 stOk := by
  simp [sacnMap, ht, ho, Nat.not_lt.mpr hi, Nat.not_lt.mpr hu, Nat.not_lt.mpr hhi, Nat.one_le_iff_ne_zero.mp hlo]

end

theorem sacnCue_lawful {s : State} {d : Desc} (ho : d.only [(0, 0, 8), (8, 0, 64)] = true) : sacnCue d s =
    if d.num 0 1 = 0 then s.finish d 0x47 stFormat
    else State.finish { s with net := { s.net with
      cues := Map.put s.net.cues (d.num 0 1) (BitVec.ofNat 64 (d.num 8 8)) } } d 0x47 stOk := by
  simp [sacnCue, ho]

/-! ### Previews and transmit flows -/

section
variable {s : State} {d : Desc} {f : Fmt} (hh : s.isHead = true) (ht : d.num 0 1 = 0)
  (ho : d.only [(0, 0, 8), (2, 0, 16), (4, 0, 16), (6, 0, 6), (7, 0, 8), (8, 0, 64), (16, 0, 1)] = true)
  (hf : pvwFmt (d.bytes 0 17) = f) (hw : 1 ≤ d.num 2 2 ∧ d.num 2 2 ≤ 3840) (hv : 1 ≤ d.num 4 2 ∧ d.num 4 2 ≤ 2160)
  (hc : fmtCombo f.sampling f.depth = true) (hs : f.sampling ≠ 3) (hn : d.num 7 1 ≤ 63 ∨ d.num 7 1 = 255)
include hh ht ho hf hw hv hc hs hn

/-- With lawful operands a confidence preview is judged by its ring, then by its flow (R145). -/
theorem previewSet_confidence : previewSet d s =
    if !addrOk (d.num 8 8) 4096 (2 * ringFrame f) then s.finish d 0x48 stAddress
    else if d.num 7 1 != 255 && (Map.find s.net.txflows (d.num 7 1)).isNone then s.finish d 0x48 0x404
    else s.setPvw d := by
  obtain ⟨hw1, hw2⟩ := hw
  obtain ⟨hv1, hv2⟩ := hv
  subst hf
  refine (if_pos (by simp [hh, ht])).trans (if_neg ?_)
  simp only [Bool.or_eq_true, Bool.and_eq_true, decide_eq_true_eq, bne_iff_ne, ho, hc, Bool.not_true, Bool.false_eq_true, false_or,
    or_false]
  omega

end

theorem previewSet_tile {s : State} {d : Desc} (ht : s.isTile = true) (ho : d.only [(0, 0, 8), (2, 0, 2), (16, 0, 1)] = true)
    (hk : d.num 0 1 = 2) : previewSet d s =
      State.finish { s with net := { s.net with pvwSet := Map.put s.net.pvwSet 2 (d.bytes 0 17) } } d 0x48 stOk := by
  simp [previewSet, State.setPvw, hk, ht, ho]

section
variable {s : State} {d : Desc}
  (ho : d.only [(0, 0, 8), (1, 0, 8), (2, 0, 4), (3, 0, 8), (4, 0, 48), (10, 0, 12), (11, 5, 3), (12, 0, 32), (16, 0, 16),
    (18, 0, 16), (20, 0, 32), (24, 0, 6), (25, 0, 8), (28, 0, 32), (32, 0, 48)] = true)
include ho

theorem txflowSet_format (h : 63 < d.num 0 1 ∨ d.num 1 1 < 1 ∨ 2 < d.num 1 1 ∨ 127 < d.num 3 1) :
    txflowSet d s = s.finish d 0x49 stFormat :=
  if_pos (by simpa [ho, or_assoc] using h)

theorem txflowSet_stored (hi : d.num 0 1 ≤ 63) (hlo : 1 ≤ d.num 1 1) (hhi : d.num 1 1 ≤ 2) (hp : d.num 3 1 ≤ 127) :
    txflowSet d s =
      State.finish { s with net := { s.net with txflows := Map.put s.net.txflows (d.num 0 1) (d.bytes 0 38) } } d 0x49 stOk :=
  if_neg (by simp [ho, Nat.not_lt.mpr hi, Nat.one_le_iff_ne_zero.mp hlo, Nat.not_lt.mpr hhi, Nat.not_lt.mpr hp])

end

/-- Settles O48: each opcode's judgement of lawful operands in its order, then what it stores or writes. -/
theorem netOpcodes : Obligations.NetOpcodes := by
  unfold Obligations.NetOpcodes
  refine ⟨?flowSet, ?flowClear, ?sourceSet, ?rxPost, ?flowStats, ?canopyStats, ?branchStats, ?sacnMap, ?sacnCue, ?confidence,
    ?tilePreview, ?txflow⟩
  case flowSet =>
    rintro s d _ _ hacc ho rfl hi rfl
    refine ⟨fun hl => ?_, fun hl hv => ⟨fun hc => ?_, fun hlen hpath => ?_⟩, fun hl hv => ?_⟩
    · exact next_of_accepts hacc (flowSet_unlawful hl)
    · exact next_of_accepts hacc (flowSet_conflict ho hi hl hv hc)
    · exact next_of_accepts hacc (flowSet_stored ho hi hl fun _ => ⟨hlen, hpath⟩)
    · exact next_of_accepts hacc (flowSet_stored ho hi hl fun h => absurd h (ne_true_of_eq_false hv))
  case flowClear => exact fun s d hacc ho => next_of_accepts hacc (flowClear_lawful ho)
  case sourceSet =>
    rintro s d _ hacc ho rfl hk hw1 hw2 hh1 hh2 hsp hn1 hn2 hpair
    have hjudged := sourceSet_inRange (s := s) ⟨ho, hk, ⟨hw1, hw2⟩, ⟨hh1, hh2⟩, hsp, ⟨hn1, hn2⟩, hpair⟩
    refine ⟨fun hu => next_of_accepts hacc (hjudged.trans (if_pos hu)), fun hu => ?_⟩
    rw [if_neg (ne_true_of_eq_false hu)] at hjudged
    refine ⟨fun h => next_of_accepts hacc (hjudged.trans (if_pos ?_)),
      fun hc h3 => next_of_accepts hacc (hjudged.trans (if_neg ?_))⟩
    · simpa using h
    · simp [hc, h3]
  case rxPost =>
    exact fun s d hacc ho => ⟨fun h => next_of_accepts hacc (rxPost_size ho h),
      fun hlo hhi => next_of_accepts hacc (rxPost_sized ho hlo hhi)⟩
  case flowStats =>
    exact fun s d hacc ho hi => ⟨next_of_accepts hacc (flowStats_lawful false ho hi rfl),
      ⟨_, rfl, next_of_accepts hacc (flowStats_lawful true ho hi rfl)⟩⟩
  case canopyStats =>
    exact fun s d ok hacc ho => ⟨fun hm hlm => next_of_accepts hacc (canopyStats_address ok ho hm hlm),
      fun h => next_of_accepts hacc (canopyStats_reach ok ho h)⟩
  case branchStats =>
    exact fun s d ok hacc ho ha => ⟨fun hm hlm => next_of_accepts hacc (branchStats_address ok ho hm hlm),
      fun h => next_of_accepts hacc (branchStats_reach ok ho ha h)⟩
  case sacnMap =>
    exact fun s d hacc hi => ⟨fun ht ho => next_of_accepts hacc (sacnMap_removes hi ho ht),
      fun ht ho hu hlo hhi => next_of_accepts hacc (sacnMap_stores hi ho ht hu hlo hhi),
      fun ht => next_of_accepts hacc (sacnMap_format ht)⟩
  case sacnCue => exact fun s d hacc ho => next_of_accepts hacc (sacnCue_lawful ho)
  case confidence =>
    intro s d f hacc hh ht ho hf hw1 hw2 hv1 hv2 hc hs hn
    have hjudged := previewSet_confidence hh ht ho hf ⟨hw1, hw2⟩ ⟨hv1, hv2⟩ hc hs hn
    refine ⟨fun ha => next_of_accepts hacc (hjudged.trans (if_pos (by rw [ha]; rfl))), fun ha => ?_⟩
    rw [if_neg (by simp [ha])] at hjudged
    refine ⟨fun h255 hx => next_of_accepts hacc (hjudged.trans (if_pos (by simp [h255, hx]))), fun hx => ?_⟩
    refine next_of_accepts hacc (hjudged.trans ((if_neg ?_).trans ?_))
    · simpa [imp_iff_not_or, Option.isSome_iff_ne_none] using hx
    · rw [State.setPvw, ht]
      rfl
  case tilePreview => exact fun s d hacc ht ho hk => next_of_accepts hacc (previewSet_tile ht ho hk)
  case txflow =>
    exact fun s d hacc ho => ⟨fun h => next_of_accepts hacc (txflowSet_format ho h),
      fun hi hlo hhi hp => next_of_accepts hacc (txflowSet_stored ho hi hlo hhi hp)⟩

end Sys2Proof.Machine
end

section
/-! The sample schedule, FB_START, the converters, silent changes and paced packets (R141 - R143, R158, R259, R260, R262, R264 -
R266, R269, R279). -/

namespace Sys2Proof.Machine

/-! ### The sample schedule -/

section
variable {s : State} (hh : s.isTile = false) (hr : s.on F.AUD_CTRL_RUN = false) {seed num gap ahead : Nat}
  (hseed : seed = 3 * s.rd F.AUD_SEED_TIME + s.rd F.AUD_SEED_REM)
  (hahead : ahead = (seed * 2 ^ 40 + 6 * 2 ^ 72 - s.ptp.toNat * 3) % (3 * 2 ^ 72))
include hh hr hseed hahead

theorem audioRun_rejected (h : ahead < 64 * 62500 * 2 ^ 40 ∨ 3 * 2 ^ 71 < ahead) : audioRun s = s.detect E.AUD_SEED_REJECT := by
  subst hahead hseed
  exact (if_neg (by simp [hh, hr])).trans (if_pos (by rwa [Bool.or_eq_true, decide_eq_true_eq, decide_eq_true_eq]))

/-- A seed far enough ahead starts the schedule at the first block boundary from SEED_NUM (R259). -/
theorem audioRun_starts (hnum : num = s.rd F.AUD_SEED_NUM) (hgap : gap = (64 - num % 64) % 64)
    (hlo : 64 * 62500 * 2 ^ 40 ≤ ahead) (hhi : ahead ≤ 3 * 2 ^ 71) {u : State}
    (hu : u = ((s.wr F.AUD_CTRL_RUN 1).wr F.AUD_STAT_RUNNING 1).wr F.AUD_SMP_NOW num) : audioRun s = { u with aud := { u.aud with
      tgt := (seed + gap * 62500) % thirdWrap, num := BitVec.ofNat 32 (num + gap), playing := false, pos := 0, jump := none
      silent := false, slew := 0, pulse := some s.core } } := by
  subst hu hahead hgap hnum hseed
  refine (if_neg (by simp [hh, hr])).trans (if_neg ?_)
  rw [Bool.or_eq_true, decide_eq_true_eq, decide_eq_true_eq]
  omega

end

/-- The sides that begin at a block boundary put their frames on their pins (R261). -/
def State.emitSides (s : State) (l : List (Nat × AudSide)) : State := l.foldl (fun s x => s.emit (.audioSide x.1 x.2.frame)) s

theorem State.emitSides_regs (l : List (Nat × AudSide)) (s : State) : (s.emitSides l).regs = s.regs := by
  induction l generalizing s with
  | nil => rfl
  | cons x l ih => exact ih (s.emit (.audioSide x.1 x.2.frame))

theorem State.emitSides_power (l : List (Nat × AudSide)) (s : State) : (s.emitSides l).power = s.power := by
  induction l generalizing s with
  | nil => rfl
  | cons x l ih => exact ih (s.emit (.audioSide x.1 x.2.frame))

/-- Whether the device drives FB_START does not turn on what the sides put out. -/
theorem State.emitSides_drives (s : State) (l : List (Nat × AudSide)) :
    ((s.emitSides l).isPair && (s.emitSides l).on F.FBK_STAT_DRIVING) = (s.isPair && s.on F.FBK_STAT_DRIVING) := by
  rw [State.isPair, State.side, State.emitSides_power, State.on, State.rd_regs (s.emitSides_regs l)]
  rfl

/-- The time passes to a block boundary, or jumps to the stepped time (R259). -/
def State.toBoundary (u : State) : State :=
  u.aud.jump.elim
    { (u.advance (u.cyclesTo (u.audTgt * 192))) with aud := { u.aud with silent := false, slew := slewed u.aud.slew } }
    u.audioJump

/-- What a boundary begins, once the time has come to it: the next block, on every side. -/
def State.nextBlock (v : State) : State :=
  let w : State := { v with aud := { v.aud with
    tgt := (v.aud.tgt + blockThirds) % thirdWrap, num := v.aud.num + 64, playing := true, pos := 0
    sides := v.aud.sides.map (fun x => (x.1, { x.2 with restart := false })) } }
  let x := w.wr F.AUD_SMP_NOW v.aud.num.toNat
  x.aud.sides.foldl (fun s x => s.showSide (x.1 / 2) (x.1 % 2)) x

/-- The received block is taken and the routes begin theirs (R263, R265). -/
def State.takesBlock (z : State) (l : List (Nat × List (BitVec 24))) : State :=
  let c := z.aud.captures.foldl (fun s e => s.setAudCh (256 + e.1) { e.2 with
    input := if e.2.valid then s.rxBlock l e.2.src else List.replicate 64 0 }) z
  c.aud.routes.foldl (fun s e => s.beginRoute e.1 e.2) c

theorem audioBlockBoundary_running {s v y : State} (l : List (Nat × List (BitVec 24))) (hh : s.isTile = false)
    (hr : s.on F.AUD_STAT_RUNNING = true) (hv : v = (s.playUpTo 64).toBoundary) (hy : y = v.nextBlock) : audioBlockBoundary l s =
      (if y.isPair && y.on F.FBK_STAT_DRIVING then (y.emitSides (v.aud.sides.filter (fun x => x.2.restart))).emit (.fbStart 16)
        else y.emitSides (v.aud.sides.filter (fun x => x.2.restart))).takesBlock l := by
  rw [← State.emitSides_drives y (v.aud.sides.filter (fun x => x.2.restart))]
  refine (if_neg (by simp [hh, hr])).trans ?_
  extract_lets u _ _ v' now fresh sides _ w x y' e z c
  have hv' : v' = v := by
    change v = u.toBoundary at hv
    simp only [hv, v', State.toBoundary]
    cases u.aud.jump <;> rfl
  clear_value v'
  subst hv'
  have hy' : y' = y := hy.symm
  clear_value y'
  subst hy'
  rfl

/-! ### FB_START and the converters -/

theorem fbStartPulse_other {s : State} (h : s.followsStart = false) : fbStartPulse s = s := if_pos (by simp [h])

theorem fbsLost_other {s : State} (h : s.followsStart = false) : fbsLost s = s := by
  unfold fbsLost
  cases s.aud.pulse with
  | none => rfl
  | some c => exact if_pos (by simp [h])

/-- A pulse locks the standby's boundaries to its edge less FBS_ADJ (R260). -/
theorem fbStartPulse_follows {s u : State} {edge off : Int} (h : s.followsStart = true)
    (he : edge = s.ptp.toNat * 3 / 2 ^ 40 - 3 * sval (s.rd F.AUD_FBS_ADJ) 16)
    (ho : off = (edge - s.aud.tgt + blockThirds / 2) % blockThirds - blockThirds / 2) (hu : u = s.wr F.AUD_STAT_FBS_LOCK 1) :
    fbStartPulse s = { u with aud := { u.aud with
      tgt := ((u.aud.tgt + off) % thirdWrap).toNat, slew := 0, pulse := some s.core } } := by
  subst hu ho he
  exact if_neg (by simp [h])

theorem fbsLost_follows {s u v : State} {c : Nat} (h : s.followsStart = true) (hc : s.aud.pulse = some c)
    (hu : u = s.advance (c + ceilDiv (2 * blockThirds * 103125) (3 * 64000) - s.core)) (hv : v = u.wr F.AUD_STAT_FBS_LOCK 0) :
    fbsLost s = State.detect { v with aud := { v.aud with pulse := none } } E.AUD_FBS_LOST := by
  subst hv
  rw [fbsLost, hc]
  refine (if_neg (by simp [h])).trans ?_
  extract_lets t
  have ht : u = t := hu
  clear_value t
  subst ht
  rfl

section
variable {s u : State} {p : Nat} {rx : Bool} {x : AudSide} (hs : s.slaveSide p (b2n rx) = true) (hu : u = s.playDue)
  (hx : x = u.audSide p (b2n rx))
include hs hu hx

theorem asrcUnlock_locked (hl : (s.audSide p (b2n rx)).locked = true) : asrcUnlock p rx s = State.detect (State.showSide
    (State.setSide (if rx then u.rxSilent p else u) p (b2n rx) { x with locked := false }) p (b2n rx)) E.AUD_ASRC_UNLOCK := by
  subst hx hu
  refine (if_pos (by simp [hs, hl])).trans ?_
  cases rx <;> rfl

/-- Within 2,000 ppm a converter shows its offset, and one that was not locked locks with a 48-sample fade (R262). -/
theorem asrcLock_within {o : BitVec 16} (ho : o.toInt.natAbs ≤ 20000) {v : State}
    (hv : v = u.wr (if rx then F.AUD_PORT_OFS_RX p else F.AUD_PORT_OFS_TX p) o.toNat) : asrcLock p rx o s =
      if x.locked then v else (v.setSide p (b2n rx) { x with locked := true, fade := 48 }).showSide p (b2n rx) := by
  subst hv hx hu
  refine (if_pos (by simp [hs, ho])).trans ?_
  cases rx <;> rfl

end

theorem asrcLock_beyond {s : State} {p : Nat} {rx : Bool} {o : BitVec 16} (ho : 20000 < o.toInt.natAbs) : asrcLock p rx o s = s :=
  if_neg (by simp [Nat.not_le.mpr ho])

/-! ### Silent changes -/

section
variable {s u : State} {ch : Nat} {r : AudRoute} (hr : s.audCh ch = some r) (hw : r.waits = true)
include hr hw

/-- A waiting change applies at its input's first zero crossing (R266). -/
theorem silentChangeApply_crosses {j : Nat} (hp : s.aud.playing = true) (hj : r.crossing s.aud.pos = some j)
    (hu : u = (s.advance (s.cyclesToSample (s.blockNum + j))).playUpTo j) : silentChangeApply ch s =
      (u.audCh ch).elim u (fun q => (u.putCh ch q (q.applyNow u.core)).audSettle) := by
  subst hu
  rw [silentChangeApply, hr]
  refine (if_neg (by simp [hw, hp])).trans ?_
  rw [hj]
  dsimp only
  generalize (State.playUpTo _ j).audCh ch = q
  cases q <;> rfl

/-- A change that has waited ZC_TO applies as a ramp (R266). -/
theorem zcTimeout_ramps (hu : u = s.advance (r.waitFrom + usCycles (1000 * s.rd F.AUD_ZC_TO) - s.core)) {v : State}
    (hv : v = u.playDue) : zcTimeout ch s =
      (v.audCh ch).elim v (fun q => ((v.setAudCh ch q.rampNow).inc F.AUD_ZC_TIMEOUTS).detect E.AUD_ZC_TIMEOUT) := by
  subst hv hu
  rw [zcTimeout, hr]
  refine (if_neg (by simp [hw])).trans ?_
  rw [State.advanceTo]
  dsimp only
  generalize (State.playDue _).audCh ch = q
  cases q <;> rfl

end

/-! ### Paced packets -/

section
variable {s : State} {f : Nat} {o : Bytes} (hf : Map.find s.net.txflows f = some o)
include hf

theorem pacedLaunch_barred (h : s.mayTransmit o = false) : pacedLaunch f s = s := by
  have hd : s.pacedDue f o = none := if_pos (by simp [h])
  rw [pacedLaunch, hf]
  simp only [hd]

/-- A packet of a transmit flow whose launch is the next on each of its ports (R158). -/
theorem pacedLaunch_next {k : Nat × Nat} (hd : s.pacedDue f o = some k) (hh : s.isTile = false)
    (hl : ∀ p ∈ flowPorts o, s.launchesNext p (k.1, k.2, f) = true) : pacedLaunch f s =
      if numAt o 1 1 = 2 then s.audioPkt f o else (s.previewOn f).elim s (fun x => s.videoPkt f o x.1 x.2) := by
  have hall : (s.isTile || !(flowPorts o).all (fun p => s.launchesNext p (k.1, k.2, f))) = false := by
    rw [hh, List.all_eq_true.mpr hl]
    rfl
  rw [pacedLaunch, hf]
  simp only [hd, hall, Bool.false_eq_true, if_false]
  cases s.previewOn f <;> rfl

end

theorem State.mayTransmit_eq_false {s : State} {o : Bytes} (ha : s.authority = false)
    (h : bit (numAt o 2 1) 2 = false ∨ s.pair.overlap = none) : s.mayTransmit o = false := by
  rcases h with h | h <;> simp [State.mayTransmit, ha, h]

theorem State.mayTransmit_eq_true {s : State} {o : Bytes}
    (h : s.authority = true ∨ bit (numAt o 2 1) 2 = true ∧ s.pair.overlap.isSome = true) : s.mayTransmit o = true := by
  rw [State.mayTransmit, Bool.or_eq_true, Bool.and_eq_true]
  exact h

section
variable {s : State} {f : Nat} {o : Bytes} (hm : s.mayTransmit o = true)
include hm

theorem State.pacedDue_audio {v : Nat} (hk : numAt o 1 1 = 2) (hv : Map.find s.aud.txaud f = some v)
    (hr : s.on F.AUD_STAT_RUNNING = true) :
    s.pacedDue f o = some (s.sampleDue ((Map.getD s.aud.nextPkt f 0 + 144) % 2 ^ 32), 1) := by
  simp only [State.pacedDue, hm, hk, hv, hr, Option.isSome_some, Bool.and_self, Bool.not_true, Bool.false_eq_true,
    if_false, if_true]

theorem State.pacedDue_video {p : Bytes} {v : VideoTx} (hk : numAt o 1 1 ≠ 2) (hp : s.previewOn f = some (p, v)) :
    s.pacedDue f o = some (s.videoDue p v, 0) := by
  simp only [State.pacedDue, hm, hk, hp, Option.map_some, Bool.not_true, Bool.false_eq_true, if_false]

end

/-- The next audio packet of a flow: the 48 or 6 samples from its first, 144 samples after it (R264). -/
theorem State.audioPkt_eq {s t u w : State} {f v k n due : Nat} (o : Bytes) {l : List Int} (hv : Map.find s.aud.txaud f = some v)
    (hk : k = if bits v 9 2 = 0 then 48 else 6) (hn : n = Map.getD s.aud.nextPkt f 0) (hd : due = s.sampleDue ((n + 144) % 2 ^ 32))
    (ht : t = s.advanceTo due) (hu : u = if t.aud.playing then t.playUpTo t.samplesDue else t)
    (hl : l = (List.range k).flatMap (fun j => (List.range (v % 256)).map (fun c =>
      u.capturedAt (64 * f + c) ((n + j) % 2 ^ 32) (bit v 8))))
    (hw : w = { u with aud := { u.aud with nextPkt := Map.put u.aud.nextPkt f ((n + k) % 2 ^ 32) } }) :
    s.audioPkt f o = w.sendRtp f o due (sampleCycles k) (n / k % 2 ^ 16) n l [] := by
  subst hw hl hu ht hd hn hk
  rw [State.audioPkt, hv]
  rfl

/-- A packet on a flow's one port, with the flow's addresses there; it is late beyond its slack (R141). -/
theorem State.sendRtp_one {s t u : State} {f p due slack seq ts : Nat} {o b : Bytes} {l : List Int} {late : Bool} {x : RtpOut}
    (hp : flowPorts o = [p]) (ht : t = s.startTx p due (58 + 3 * l.length + b.length)) (hl : late = decide (due + slack < t.core))
    (hx : x = t.rtpOn f p o late seq ts l b) (hu : u = t.emit (.rtp x)) : s.sendRtp f o due slack seq ts l b =
      (if late then (u.inc (F.NET_TX_LATE p)).detect (E.NET_TX_LATE p) else u).tryPlain p := by
  subst hu hx hl ht
  rw [State.sendRtp, hp]
  rfl

/-- Settles O53: the schedule's commands, then the converters, the changes by what their channel is, and the packets. -/
theorem audioSchedule : Obligations.AudioSchedule := by
  unfold Obligations.AudioSchedule
  refine ⟨?run, ?boundary, ?pulse, ?converter, ?crossing, ?ramp, ?paced, ?packet⟩
  case run =>
    exact fun s seed gap num ahead hs hh hr hseed hnum hgap hahead =>
      ⟨fun h => next_of_live hs (audioRun_rejected hh hr hseed hahead h),
        fun hlo hhi => ⟨_, rfl, next_of_live hs (audioRun_starts hh hr hseed hahead hnum hgap hlo hhi rfl)⟩⟩
  case boundary =>
    intro s l hs hh hr
    obtain ⟨v, hv⟩ : ∃ v, v = (s.playUpTo 64).toBoundary := ⟨_, rfl⟩
    obtain ⟨y, hy⟩ : ∃ y, y = v.nextBlock := ⟨_, rfl⟩
    refine ⟨_, v, _, _, y, _, rfl, fun hj => ?_, fun d hj => ?_, rfl, rfl, hy, rfl,
      next_of_live hs (audioBlockBoundary_running l hh hr hv hy)⟩
    · rw [hv, State.toBoundary, hj]
      rfl
    · rw [hv, State.toBoundary, hj]
      rfl
  case pulse =>
    refine fun s hs => ⟨fun h => ⟨?_, ?_⟩, fun edge off h he ho => ⟨_, rfl, ?_⟩, fun c h hc => ⟨_, _, rfl, rfl, ?_⟩⟩
    · exact next_of_live hs (fbStartPulse_other h)
    · exact next_of_live hs (fbsLost_other h)
    · exact next_of_live hs (fbStartPulse_follows h he ho rfl)
    · exact next_of_live hs (fbsLost_follows h hc rfl rfl)
  case converter =>
    exact fun s u p rx x hs hside hu hx => ⟨fun hl => next_of_live hs (asrcUnlock_locked hside hu hx hl),
      fun o ho => ⟨_, rfl, next_of_live hs (asrcLock_within hside hu hx ho rfl)⟩,
      fun o ho => next_of_live hs (asrcLock_beyond ho)⟩
  case crossing =>
    refine fun s ch j r hs hr hw hp hj => ⟨_, rfl, next_of_live hs ((silentChangeApply_crosses hr hw hp hj rfl).trans ?_)⟩
    generalize (State.playUpTo _ j).audCh ch = q
    cases q <;> rfl
  case ramp =>
    refine fun s ch r hs hr hw => ⟨_, State.playDue _, rfl, rfl, next_of_live hs ((zcTimeout_ramps hr hw rfl rfl).trans ?_)⟩
    generalize (State.playDue _).audCh ch = q
    cases q <;> rfl
  case paced =>
    refine fun s f o hs hh hf => ⟨fun ha hov => ?_, fun hm => ⟨fun v k n due ho hv hr hk hn hd hl => ?_,
      fun p v ho hp hl => ⟨_, rfl, ?_⟩⟩⟩
    · exact next_of_live hs (pacedLaunch_barred hf (State.mayTransmit_eq_false ha hov))
    · refine ⟨_, _, _, _, rfl, rfl, rfl, rfl, next_of_live hs ?_⟩
      subst hd hn
      rw [pacedLaunch_next hf (State.pacedDue_audio (State.mayTransmit_eq_true hm) ho hv hr) hh hl, if_pos ho]
      exact State.audioPkt_eq o hv hk rfl rfl rfl rfl rfl rfl
    · refine next_of_live hs ?_
      rw [pacedLaunch_next hf (State.pacedDue_video (State.mayTransmit_eq_true hm) ho hp) hh hl, if_neg ho, hp]
      rfl
  case packet =>
    refine fun s f p due slack seq ts o b l hp => ⟨_, _, _, _, rfl, rfl, rfl, ?_, rfl, State.sendRtp_one hp rfl rfl rfl rfl⟩
    exact ⟨rfl, (apply_ite (numAt o · 4) _ _ _).symm, (apply_ite (numAt o · 6) _ _ _).symm, rfl, rfl, rfl, rfl, rfl, rfl⟩

end Sys2Proof.Machine
end

section
/-! What a source's reaction leaves alone where it starts no block reset: the network and the timestamps, what has left the
device, the quiesce windows, and every register outside its own block's header and the claim (R274, R290 - R294). -/

namespace Sys2Proof.Machine

/-- A state that differs by no more than flags, claims, interrupts and the register fields of a list. -/
structure State.Kept (K : List Nat) (s t : State) : Prop where
  net : t.net = s.net
  core : t.core = s.core
  react : t.react = s.react
  quiesce : t.quiesce = s.quiesce
  out : s.out ⊆ t.out
  rd : ∀ f : Fld, f.key ∉ K → t.rd f = s.rd f

/-- The fields that a block's sources write: sticky bits, pending bits and the count of masked events (R290, R294). -/
def headerKeys (b : Nat) : List Nat := [(F.BLK_STICKY b).key, (F.BLK_IRQ_PEND b).key, (F.BLK_MASKED b).key]

/-- The fields that a resignation writes (R23, R92, R274). -/
def resignKeys : List Nat :=
  headerKeys 16 ++ [F.FBK_STAT_CLAIM_OUT.key, F.FBK_STAT_DRIVING.key, F.FBK_STAT_STATE.key, F.CLK_ROOT_STAT_REF.key,
    F.CLK_ROOT_STAT_LOCK.key, F.CLK_ROOT_STAT_SLEWING.key] ++ (List.range 4).map fun k => (F.TRL_STAT_READY_LOCAL k).key

section
variable {K : List Nat} {s t u : State}

theorem State.Kept.refl (K : List Nat) (s : State) : State.Kept K s s :=
  ⟨rfl, rfl, rfl, rfl, List.Subset.refl _, fun _ _ => rfl⟩

theorem State.Kept.trans (h : State.Kept K s t) (h' : State.Kept K t u) : State.Kept K s u :=
  ⟨h'.net.trans h.net, h'.core.trans h.core, h'.react.trans h.react, h'.quiesce.trans h.quiesce, List.Subset.trans h.out h'.out,
    fun f hf => (h'.rd f hf).trans (h.rd f hf)⟩

theorem State.Kept.mono {L : List Nat} (h : State.Kept K s t) (hk : K ⊆ L) : State.Kept L s t :=
  ⟨h.net, h.core, h.react, h.quiesce, h.out, fun f hf => h.rd f fun hm => hf (hk hm)⟩

/-- Parts of the state that the relation does not speak of may change freely. -/
theorem State.Kept.of_eq (hn : t.net = s.net) (hc : t.core = s.core) (hr : t.react = s.react) (hq : t.quiesce = s.quiesce)
    (ho : t.out = s.out) (hg : t.regs = s.regs) : State.Kept K s t :=
  ⟨hn, hc, hr, hq, by rw [ho]; exact List.Subset.refl _, fun f _ => State.rd_regs hg f⟩

theorem State.Kept.wr {f : Fld} (v : Nat) (h : State.Kept K s t) (hf : f.key ∈ K) : State.Kept K s (t.wr f v) :=
  ⟨h.net, h.core, h.react, h.quiesce, h.out, fun g hg => (t.rd_wr_ne v fun he => hg (he ▸ hf)).trans (h.rd g hg)⟩

theorem State.Kept.codeOf (h : State.Kept K s t) (b i : Nat) : t.codeOf b i = s.codeOf b i := State.codeOf_of_react h.react b i

/-- Where SETTLE stays, so does every quiesce window (R293, R294). -/
theorem State.Kept.masked (h : State.Kept K s t) (hk : F.WDG_CFG_SETTLE.key ∉ K) (b i : Nat) : t.masked b i = s.masked b i := by
  unfold State.masked State.windowEnd
  rw [h.quiesce, h.core, h.rd _ hk]

end

theorem State.kept_emit (K : List Nat) (s : State) (o : Out) : State.Kept K s (s.emit o) :=
  ⟨rfl, rfl, rfl, rfl, List.subset_cons_self _ _, fun _ _ => rfl⟩

section
variable {K : List Nat} (s : State)

theorem State.kept_sendVector (v : Nat) : State.Kept K s (s.sendVector v) := by
  unfold State.sendVector
  split_ifs
  · exact s.kept_emit K _
  all_goals exact .of_eq rfl rfl rfl rfl rfl rfl

theorem State.kept_raiseEvent (b : Nat) : State.Kept K s (s.raiseEvent b) := by
  unfold State.raiseEvent
  split_ifs <;> exact .of_eq rfl rfl rfl rfl rfl rfl

theorem State.kept_notify (b : Nat) : State.Kept K s (s.notify b) := by
  unfold State.notify
  split_ifs
  · exact (s.kept_raiseEvent b).trans (State.kept_sendVector _ b)
  · exact s.kept_sendVector b

theorem State.kept_raise {f : Fld} (i : Nat) (hf : f.key ∈ K) : State.Kept K s (s.raise f i) :=
  ((State.Kept.refl K s).wr _ hf).trans (.of_eq rfl rfl rfl rfl rfl rfl)

theorem State.kept_setPend {b : Nat} (i : Nat) (hb : (F.BLK_IRQ_PEND b).key ∈ K) : State.Kept K s (s.setPend b i) := by
  have hraise := s.kept_raise i hb
  unfold State.setPend
  extract_lets t
  split_ifs
  · exact .refl K s
  · exact hraise.trans (t.kept_notify b)
  · exact hraise

/-- After its sticky bit a recorded source touches its block's pending bits alone. -/
theorem State.record_kept_stuck {b : Nat} (i : Nat) (hb : (F.BLK_IRQ_PEND b).key ∈ K) :
    State.Kept K (s.stuck b i) (s.record b i) := by
  unfold State.record
  extract_lets t u
  have hu : State.Kept K t u := by
    simp only [u]
    split_ifs
    · exact .refl K t
    · exact t.kept_setPend i hb
  split_ifs
  · exact hu.trans (.of_eq rfl rfl rfl rfl rfl rfl)
  · exact hu

theorem State.kept_record (b i : Nat) : State.Kept (headerKeys b) s (s.record b i) :=
  (s.kept_raise i (by simp [headerKeys])).trans (s.record_kept_stuck i (by simp [headerKeys]))

theorem State.kept_flag (e : Nat × Nat) : State.Kept (headerKeys e.1) s (s.flag e) := by
  unfold State.flag
  split_ifs
  · exact (State.Kept.refl _ s).wr _ (by simp [headerKeys])
  · exact s.kept_record e.1 e.2

theorem State.kept_driveFbclk : State.Kept K s s.driveFbclk := by
  unfold State.driveFbclk
  extract_lets on
  split_ifs
  · exact .refl K s
  · refine .trans ?_ (State.kept_emit K _ _)
    exact .of_eq rfl rfl rfl rfl rfl rfl

theorem State.kept_refreshPort {k : Nat} (hk : (F.TRL_STAT_READY_LOCAL k).key ∈ K) : State.Kept K s (s.refreshPort k) := by
  unfold State.refreshPort
  split_ifs
  · exact ((State.Kept.refl K s).wr _ hk).trans (.of_eq rfl rfl rfl rfl rfl rfl)
  · exact .refl K s

end

theorem readyLocal_mem_resignKeys {k : Nat} (hk : k < 4) : (F.TRL_STAT_READY_LOCAL k).key ∈ resignKeys :=
  List.mem_append_right _ (List.mem_map.mpr ⟨k, List.mem_range.mpr hk, rfl⟩)

theorem State.kept_refreshReady (s : State) : State.Kept resignKeys s s.refreshReady :=
  List.foldlRecOn (motive := State.Kept resignKeys s) _ _ (.refl _ s) fun t ht _ hk =>
    ht.trans (t.kept_refreshPort (readyLocal_mem_resignKeys (lt_of_lt_of_le (List.mem_range.mp hk) s.portCount_le)))

theorem State.kept_takeFbclk (s : State) : State.Kept resignKeys s s.takeFbclk := by
  unfold State.takeFbclk
  extract_lets t
  have ht : State.Kept resignKeys s t := (((State.Kept.refl _ s).wr 1 (by decide)).wr 1 (by decide)).wr 0 (by decide)
  refine .trans ?_ (State.kept_refreshReady _)
  exact ht.trans (.of_eq rfl rfl rfl rfl rfl rfl)

theorem State.kept_resign (s : State) : State.Kept resignKeys s s.resign := by
  unfold State.resign
  split_ifs
  · extract_lets t _ _ u _ v w
    have ht : State.Kept resignKeys s t := (((State.Kept.refl _ s).wr 0 (by decide)).wr 0 (by decide)).wr 3 (by decide)
    have hu : State.Kept resignKeys s u := by
      refine .trans ?_ (State.kept_driveFbclk _)
      exact ht.trans (.of_eq rfl rfl rfl rfl rfl rfl)
    have hv : State.Kept resignKeys s v := hu.trans (.of_eq rfl rfl rfl rfl rfl rfl)
    have hw : State.Kept resignKeys s w := by
      simp only [w]
      split_ifs
      · exact hv.trans v.kept_takeFbclk
      · exact hv
    exact hw.trans ((w.kept_flag E.FBK_RESIGNED).mono (by decide))
  · exact .refl _ s

theorem State.kept_resignNative (s : State) : State.Kept resignKeys s s.resignNative := by
  unfold State.resignNative
  split_ifs
  · exact s.kept_resign
  · exact .refl _ s

/-- A source whose reaction is no block reset writes its own block's header, and as reaction 3 gives up the claim (R291, R292). -/
theorem State.kept_detect (s : State) {b i : Nat} (hc : s.codeOf b i ≠ 2) :
    State.Kept (headerKeys b ++ resignKeys) s (s.detect (b, i)) := by
  have hrec : State.Kept (headerKeys b ++ resignKeys) s (s.record b i) := (s.kept_record b i).mono (List.subset_append_left _ _)
  unfold State.detect
  rw [State.sameReset_of_code hc, if_neg Bool.false_ne_true]
  split_ifs
  · exact (State.Kept.refl _ s).wr _ (by simp [headerKeys])
  · dsimp only
    split
    · exact hrec
    · exact hrec
    · next h => exact absurd ((hrec.codeOf b i).symm.trans h) hc
    · exact hrec.trans ((State.kept_resignNative _).mono (List.subset_append_right _ _))

/-! ### The sticky bit of a recorded source -/

theorem bit_setBit_mod {v i n : Nat} (hi : i < n) : bit (setBit v i % 2 ^ n) i = true := by
  have hbit : bit (setBit v i) i = true := by
    unfold setBit
    split_ifs with h
    · exact h
    · simp only [bit, beq_iff_eq] at h ⊢
      rw [Nat.add_div_right _ (Nat.two_pow_pos i)]
      omega
  simp only [bit, beq_iff_eq] at hbit ⊢
  simpa [← Nat.toNat_testBit, Nat.testBit_mod_two_pow, hi] using hbit

theorem State.sticky_record (s : State) {b i : Nat} (hi : i < 32) : (s.record b i).sticky (b, i) = true := by
  have hne : (F.BLK_STICKY b).key ∉ [(F.BLK_IRQ_PEND b).key] := by
    simp only [List.mem_singleton, Fld.key, F.BLK_STICKY, F.BLK_IRQ_PEND]
    omega
  have hset : (s.stuck b i).rd (F.BLK_STICKY b) = setBit (s.rd (F.BLK_STICKY b)) i % 2 ^ 32 :=
    (State.rd_regs rfl _).trans (s.rd_wr_same _ _)
  rw [State.sticky, (s.record_kept_stuck i (List.mem_singleton.mpr rfl)).rd _ hne, hset]
  exact bit_setBit_mod hi

end Sys2Proof.Machine
end

section
/-! Frames that leave with a timestamp, and the full timestamp store (R158, R162, R163). -/

namespace Sys2Proof.Machine

/-! ### Sources of the PTP block -/

/-- The reset of the PTP block has nothing in this state to lose: it opens its window (R293). -/
theorem State.blockReset_ptp (s : State) : s.blockReset 10 =
    { s with quiesce := s.quiesce ++ [⟨10, 2 ^ 10 + 2 ^ 1 + 2 ^ 15, s.core⟩], limitFrom := some s.core } := by
  have hm : resetMask 10 = some (2 ^ 10 + 2 ^ 1 + 2 ^ 15) := by decide
  rw [State.blockReset, hm]
  simp [State.resetEffect]

/-- A source of the PTP block outside every window is recorded, and its reaction then touches the watchdog's and the pair's
flags, or opens a window (R291 - R293, R295). -/
theorem State.detect_ptp {s : State} {i : Nat} (hm : s.masked 10 i = false) :
    ∃ u, State.Kept (headerKeys 21 ++ resignKeys) (s.record 10 i) u ∧ (s.detect (10, i)).net = u.net ∧
      (s.detect (10, i)).out = u.out ∧ (s.detect (10, i)).regs = u.regs := by
  have hrec := State.Kept.refl (headerKeys 21 ++ resignKeys) (s.record 10 i)
  unfold State.detect
  simp only [hm, Bool.false_eq_true, if_false]
  split
  · exact ⟨_, hrec, rfl, rfl, rfl⟩
  · split
    · exact ⟨_, hrec, rfl, rfl, rfl⟩
    · exact ⟨_, hrec, rfl, rfl, rfl⟩
    · split
      · exact ⟨_, (State.kept_flag _ E.WDG_RESET_LIMIT).mono (List.subset_append_left _ _), rfl, rfl, rfl⟩
      · rw [State.blockReset_ptp]
        exact ⟨_, hrec, rfl, rfl, rfl⟩
    · exact ⟨_, (State.kept_resignNative _).mono (List.subset_append_right _ _), rfl, rfl, rfl⟩

/-! ### The full store -/

/-- The counter of timestamps that a port's full store drops (R163). -/
def tsqDrop (p : Nat) : Fld := if p = 0 then F.PTP_TSQ_DROP0 else F.PTP_TSQ_DROP1

theorem State.tsStore_net {s t : State} (h : t.net = s.net) (p : Nat) : t.tsStore p = s.tsStore p := by
  rw [State.tsStore, h, State.tsStore]

/-- A full store keeps its entries, counts the new one and sets TSQ_OVF (R163). -/
theorem State.addStamp_full {s t : State} {p : Nat} (x : Int) (timed late : Bool) (id req : Nat)
    (hfull : (s.tsStore p).length = 64) (hm : s.masked E.PTP_TSQ_OVF.1 E.PTP_TSQ_OVF.2 = false)
    (ht : s.addStamp p x timed late id req = t) : t.net = s.net ∧ s.out ⊆ t.out ∧
      t.rd (tsqDrop p) = min (s.rd (tsqDrop p) + 1) (2 ^ 32 - 1) ∧ t.sticky E.PTP_TSQ_OVF = true := by
  have hkey : (tsqDrop p).key ∉ headerKeys 10 ∧ (tsqDrop p).key ∉ headerKeys 21 ++ resignKeys ∧
      F.WDG_CFG_SETTLE.key ≠ (tsqDrop p).key ∧ (tsqDrop p).len = 32 := by
    unfold tsqDrop
    split_ifs <;> decide
  obtain ⟨hhead, hrest, hsettle, hlen⟩ := hkey
  have hinc : State.Kept [(tsqDrop p).key] s (s.inc (tsqDrop p)) := (State.Kept.refl _ s).wr _ (List.mem_singleton.mpr rfl)
  have hcount : (s.inc (tsqDrop p)).rd (tsqDrop p) = min (s.rd (tsqDrop p) + 1) (2 ^ 32 - 1) := by
    rw [State.inc, State.incBy, State.rd_wr_same, hlen]
    omega
  have hrec := (s.inc (tsqDrop p)).kept_record 10 5
  obtain ⟨u, hu, hnet, hout, hregs⟩ := State.detect_ptp (i := 5) ((hinc.masked (by simpa using hsettle) 10 5).trans hm)
  have hstore : s.addStamp p x timed late id req = (s.inc (tsqDrop p)).detect (10, 5) := if_pos hfull.ge
  subst ht
  rw [hstore]
  refine ⟨hnet.trans (hu.net.trans (hrec.net.trans hinc.net)), ?_, ?_, ?_⟩
  · exact hout ▸ List.Subset.trans hinc.out (List.Subset.trans hrec.out hu.out)
  · exact (State.rd_regs hregs _).trans ((hu.rd _ hrest).trans ((hrec.rd _ hhead).trans hcount))
  · exact (congrArg (bit · 5) ((State.rd_regs hregs _).trans (hu.rd (F.BLK_STICKY 10) (by decide)))).trans
      (State.sticky_record _ (by decide))

/-- The fields that a late frame's source may write: TX_LATE, its block's header, and the claim's (R159, R292). -/
def lateKeys (p : Nat) : List Nat := (F.NET_TX_LATE p).key :: (headerKeys (8 + p) ++ resignKeys)

/-- A late frame is counted and fires its source, which here calls for no block reset (R159). -/
theorem State.kept_txLate (s : State) {p : Nat} (hc : s.codeOf (E.NET_TX_LATE p).1 (E.NET_TX_LATE p).2 ≠ 2) :
    State.Kept (lateKeys p) s ((s.inc (F.NET_TX_LATE p)).detect (E.NET_TX_LATE p)) :=
  ((State.Kept.refl _ s).wr _ List.mem_cons_self).trans
    ((State.kept_detect (s.inc (F.NET_TX_LATE p)) (b := 8 + p) (i := 12) hc).mono (List.subset_cons_self _ _))

theorem settle_drop_notMem_lateKeys {p : Nat} (hp : p ≤ 1) :
    F.WDG_CFG_SETTLE.key ∉ lateKeys p ∧ (tsqDrop p).key ∉ lateKeys p := by
  interval_cases p <;> decide

/-- A frame that asks for a timestamp of a full store is sent all the same (R163). -/
theorem State.sendFrame_full {s t : State} {p : Nat} {d : Desc} {bs : Bytes} {balls : Int} {late : Bool} (hp : p ≤ 1)
    (hfull : (s.tsStore p).length = 64) (hts : d.flag 11 1 = true)
    (hc : late = true → s.codeOf (E.NET_TX_LATE p).1 (E.NET_TX_LATE p).2 ≠ 2)
    (hm : s.masked E.PTP_TSQ_OVF.1 E.PTP_TSQ_OVF.2 = false) (ht : s.sendFrame p d bs balls late = t) :
    Out.frame p (stampNs balls) (if d.flag 11 2 then
        oneStep bs (d.num 18 2) (timeDiff balls (if d.flag 11 0 then d.num 12 4 else 0)) else bs) ∈ t.out ∧
      t.tsStore p = s.tsStore p ∧ t.rd (tsqDrop p) = min (s.rd (tsqDrop p) + 1) (2 ^ 32 - 1) ∧
      t.sticky E.PTP_TSQ_OVF = true := by
  unfold State.sendFrame at ht
  extract_lets timed req f v w at ht
  rw [if_pos hts] at ht
  have hv : State.Kept (lateKeys p) s v := s.kept_emit _ _
  have hw : State.Kept (lateKeys p) v w := by
    simp only [w]
    split_ifs with hl
    · exact v.kept_txLate (hc hl)
    · exact .refl _ v
  have hsw := hv.trans hw
  obtain ⟨hsettle, hdrop⟩ := settle_drop_notMem_lateKeys hp
  have hstore : w.tsStore p = s.tsStore p := State.tsStore_net hsw.net p
  obtain ⟨hnet, hout, hcount, hstick⟩ := State.addStamp_full _ _ _ _ _ (hstore ▸ hfull) ((hsw.masked hsettle _ _).trans hm) ht
  exact ⟨hout (hw.out List.mem_cons_self), (State.tsStore_net hnet p).trans hstore, by rw [hcount, hsw.rd _ hdrop], hstick⟩

end Sys2Proof.Machine
end

section
/-! TX_SEND and the launches on NET0 and NET1 (R158 - R163). -/

namespace Sys2Proof.Machine

/-! ### TX_SEND -/

/-- A lawful TX_SEND without ONE_STEP: reserved bits clear, and an ID of the host's where it asks for a timestamp (R158, R162). -/
structure PlainTxSend (d : Desc) : Prop where
  only : d.only [(0, 0, 64), (8, 0, 16), (10, 0, 2), (11, 0, 3), (12, 0, 32), (16, 0, 16)] = true
  twoStep : d.flag 11 2 = false
  hostId : d.flag 11 1 = false ∨ d.flag 17 7 = false

/-- What a TX_SEND queues on its ports. -/
def txOf (d : Desc) (x : HostData) : TimedTx := ⟨d, BitVec.ofNat 32 (d.num 12 4), (List.range (d.num 8 2)).map (byteAt x.bytes)⟩

/-- A timed queue that a descriptor needs is full (R158). -/
def State.queueFull (s : State) (d : Desc) : Bool := (sendPorts d).any fun p => decide (128 ≤ (s.timedQ p).length)

section
variable {s : State} {d : Desc} {x : HostData} (h : PlainTxSend d)
include h

theorem txSend_lawful : txSend d x s =
    if d.flag 11 0 && s.queueFull d then s
    else if !x.ok then s.finish d 0x44 stPcie
    else if (sendPorts d).isEmpty then s.finish d 0x44 stOk
    else if !d.flag 11 0 then
      (sendPorts d).foldl (fun s p => s.tryPlain p)
        ((sendPorts d).foldl (fun s p => s.setPlainQ p (s.plainQ p ++ [txOf d x])) (s.starts d))
    else if reached32 (d.num 12 4) s.ns then
      ((sendPorts d).foldl (fun s p => State.sendFrame (s.startTx p s.core (txOf d x).bytes.length) p d (txOf d x).bytes
        (State.ballTime (s.startTx p s.core (txOf d x).bytes.length) p) true) s).finish d 0x44 stOk
    else (sendPorts d).foldl (fun s p => s.setTimedQ p (queueTimed (s.timedQ p) (txOf d x))) (s.starts d) := by
  refine if_neg ?_
  rcases h.hostId with hid | hid <;> simp [h.only, h.twoStep, hid]

theorem txSend_unread (hu : d.flag 11 0 = false) (hx : x.ok = false) : txSend d x s = s.finish d 0x44 stPcie := by
  rw [txSend_lawful h, if_neg (by simp [hu]), if_pos (by simp [hx])]

theorem txSend_waits (ht : d.flag 11 0 = true) (hf : s.queueFull d = true) : txSend d x s = s := by
  rw [txSend_lawful h, if_pos (by simp [ht, hf])]

variable (hx : x.ok = true) (hp : sendPorts d ≠ [])
include hx hp

/-- An untimed frame joins the frames that wait on its ports, and each port is tried. -/
theorem txSend_plain (hu : d.flag 11 0 = false) : txSend d x s =
    (sendPorts d).foldl (fun s p => s.tryPlain p)
      ((sendPorts d).foldl (fun s p => s.setPlainQ p (s.plainQ p ++ [txOf d x])) (s.starts d)) := by
  rw [txSend_lawful h, if_neg (by simp [hu]), if_neg (by simp [hx]), if_neg (by simp [hp]), if_pos (by simp [hu])]

variable (ht : d.flag 11 0 = true) (hf : s.queueFull d = false)
include ht hf

/-- A timed frame whose time has passed leaves now, late (R158). -/
theorem txSend_late (hr : reached32 (d.num 12 4) s.ns = true) : txSend d x s =
    ((sendPorts d).foldl (fun s p => State.sendFrame (s.startTx p s.core (txOf d x).bytes.length) p d (txOf d x).bytes
      (State.ballTime (s.startTx p s.core (txOf d x).bytes.length) p) true) s).finish d 0x44 stOk := by
  rw [txSend_lawful h, if_neg (by simp [hf]), if_neg (by simp [hx]), if_neg (by simp [hp]), if_neg (by simp [ht]), if_pos hr]

/-- A timed frame ahead of its time joins its ports' queues (R158). -/
theorem txSend_queued (hr : reached32 (d.num 12 4) s.ns = false) : txSend d x s =
    (sendPorts d).foldl (fun s p => s.setTimedQ p (queueTimed (s.timedQ p) (txOf d x))) (s.starts d) := by
  rw [txSend_lawful h, if_neg (by simp [hf]), if_neg (by simp [hx]), if_neg (by simp [hp]), if_neg (by simp [ht]),
    if_neg (by simp [hr])]

end

/-! ### Untimed frames -/

/-- The launch of a port comes before an untimed frame would be off it (R158). -/
def State.launchInTheWay (s : State) (p : Nat) (x : TimedTx) : Bool :=
  (s.pendingOn p).any fun k => decide (k.1 < max s.core (s.busy p) + s.wireCycles p x.bytes.length)

section
variable {s : State} {p : Nat} {x : TimedTx} {r : List TimedTx} (hq : s.plainQ p = x :: r)
include hq

theorem State.sendPlain_waits (n : Nat) (h : s.launchInTheWay p x = true) : s.sendPlain p (n + 1) = s := by
  rw [State.sendPlain, hq]
  exact if_pos h

theorem State.sendPlain_sends (n : Nat) (h : s.launchInTheWay p x = false) {u v : State}
    (hu : u = (s.startTx p s.core x.bytes.length).setPlainQ p r) (hv : v = u.sendFrame p x.desc x.bytes (u.ballTime p) false) :
    s.sendPlain p (n + 1) = (if (v.plainQ (1 - p)).any (fun y => y.desc == x.desc) then v
      else v.finish x.desc 0x44 stOk).sendPlain p n := by
  subst hv hu
  rw [State.sendPlain, hq]
  exact if_neg (ne_true_of_eq_false h)

end

@[simp] theorem State.plainQ_setPlainQ (s : State) (p : Nat) (l : List TimedTx) : (s.setPlainQ p l).plainQ p = l := by
  unfold State.plainQ State.setPlainQ
  split_ifs <;> rfl

/-- Frames that wait untimed are no launches. -/
theorem State.pendingOn_setPlainQ (s : State) (p q : Nat) (l : List TimedTx) : (s.setPlainQ p l).pendingOn q = s.pendingOn q := by
  unfold State.setPlainQ
  split_ifs <;> rfl

theorem State.pendingOn_starts (s : State) (d : Desc) (q : Nat) : (s.starts d).pendingOn q = s.pendingOn q := rfl

/-- An untimed frame for one port, where nothing waits or is due there, leaves at once. -/
theorem txSend_alone {s u v : State} {d : Desc} {x : HostData} {p : Nat} (h : PlainTxSend d) (hu : d.flag 11 0 = false)
    (hx : x.ok = true) (hp : sendPorts d = [p]) (hq : s.plainQ p = []) (hn : s.pendingOn p = [])
    (hut : u = (((s.starts d).setPlainQ p [txOf d x]).startTx p s.core (txOf d x).bytes.length).setPlainQ p [])
    (hv : v = u.sendFrame p d (txOf d x).bytes (u.ballTime p) false) :
    txSend d x s = if (v.plainQ (1 - p)).any (fun z => z.desc == d) then v else v.finish d 0x44 stOk := by
  have hq' : (s.starts d).plainQ p = [] := hq
  have hfree : ((s.starts d).setPlainQ p [txOf d x]).launchInTheWay p (txOf d x) = false := by
    rw [State.launchInTheWay, State.pendingOn_setPlainQ, State.pendingOn_starts, hn]
    rfl
  have hcore : ((s.starts d).setPlainQ p [txOf d x]).core = s.core := by
    unfold State.setPlainQ
    split_ifs <;> rfl
  rw [txSend_plain h hx (by simp [hp]) hu, hp]
  simp only [List.foldl_cons, List.foldl_nil, hq', List.nil_append, State.tryPlain, State.plainQ_setPlainQ, List.length_singleton]
  exact State.sendPlain_sends (State.plainQ_setPlainQ _ _ _) 0 hfree (by rw [hut, hcore]) hv

/-! ### Timed frames -/

section
variable {s : State} {p : Nat} {x : TimedTx} {r : List TimedTx} (hq : s.timedQ p = x :: r)
include hq

theorem timedLaunch_waits (h : s.launchesNext p (s.timedDue x, 2, 0) = false) : timedLaunch p s = s := by
  rw [timedLaunch, hq]
  exact if_pos (by simp [h])

/-- The first frame of a port's timed queue, next on its port, leaves late where it is more than a cycle behind (R158, R159). -/
theorem timedLaunch_next (hh : s.isTile = false) (hp : p ≤ 1) (h : s.launchesNext p (s.timedDue x, 2, 0) = true) {u v : State}
    {late : Bool} (hu : u = (s.startTx p (s.timedDue x) x.bytes.length).setTimedQ p r)
    (hl : late = decide ((u.addend : Int) < timeDiff u.now24 x.launch.toNat * 2 ^ 16))
    (hv : v = u.sendFrame p x.desc x.bytes (if late then u.ballTime p else u.now24) late) :
    timedLaunch p s = (if (v.timedQ (1 - p)).any (fun y => y.desc == x.desc) then v
      else v.finish x.desc 0x44 stOk).tryPlain p := by
  subst hv hl hu
  rw [timedLaunch, hq]
  exact if_neg (by simp [hh, hp, h])

end

/-- Settles O50: the store's own lemma, then the two commands by what they send. -/
theorem timestampStoreFull : Obligations.TimestampStoreFull := by
  unfold Obligations.TimestampStoreFull
  refine ⟨?store, ?plain, ?timed⟩
  case store =>
    intro s p d bs balls late hp hfull hts hc hm
    exact ⟨_, _, rfl, fun hone => if_neg (ne_true_of_eq_false hone), State.sendFrame_full hp hfull hts hc hm rfl⟩
  case plain =>
    intro s d x p hacc ho hu hone hid hx hp hq hn
    exact ⟨_, _, _, _, rfl, rfl, rfl, rfl, next_of_accepts hacc (txSend_alone ⟨ho, hone, .inr hid⟩ hu hx hp hq hn rfl rfl)⟩
  case timed =>
    intro s p x r hl hh hp hq hnext
    exact ⟨_, _, _, _, rfl, rfl, next_of_live hl (timedLaunch_next hq hh hp hnext rfl rfl rfl)⟩

end Sys2Proof.Machine
end

section
/-! Network time: the counter's reading, setting and steps, the servo, and the timestamps the host fetches (R148 - R156,
R158 - R164). -/

namespace Sys2Proof.Machine

/-! ### The counter -/

/-- The counter set to a number of nanoseconds shows it, as far as 32 bits go (R148, R149). -/
theorem ofNat_ns (v : Nat) : BitVec.ofNat 32 ((BitVec.ofNat 72 (v * 2 ^ 40)).toNat / 2 ^ 40) = BitVec.ofNat 32 v := by
  apply BitVec.eq_of_toNat_eq
  simp only [BitVec.toNat_ofNat]
  omega

theorem timeSet_refused {s : State} (hh : s.isHead = true) (hr : s.on F.CLK_FRM_CTRL_RUN = true) :
    timeSet s = s.detect E.PTP_SET_REJECT := if_pos (by rw [hh, hr]; rfl)

theorem timeSet_taken {s : State} (h : s.isTile = true ∨ s.on F.CLK_FRM_CTRL_RUN = false) :
    timeSet s = State.noteStep { s.advance 1 with ptp := BitVec.ofNat 72 (s.rd F.PTP_SET_NS * 2 ^ 40) } := by
  refine if_neg ?_
  rcases h with h | h
  · simp [State.isHead_of_isTile h]
  · simp [h]

theorem State.audioStep_stopped {s : State} (h : s.on F.AUD_STAT_RUNNING = false) (x : Int) : s.audioStep x = s :=
  if_pos (by rw [h]; rfl)

/-- A step by whole nanoseconds (R155). -/
theorem State.stepCounter_ns (s : State) (n : Int) : s.stepCounter (n * 256) =
    ((State.noteStep { s.advance 1 with ptp := (s.advance 1).ptp + BitVec.ofInt 72 (n * 2 ^ 40) }).audioStep (n * 256)).detect
      E.PTP_STEPPED := by
  have hunits : n * 256 * 2 ^ 32 = n * 2 ^ 40 := by ring
  rw [State.stepCounter, hunits]

section
variable {s : State} {d : Desc} (ho : d.only [(0, 0, 32)] = true)
include ho

theorem timeStep_range (h : d.num 0 4 = 0) : timeStep d s = s.finish d 0x51 0x503 := by
  rw [timeStep, if_neg (by simp [ho]), if_pos h]

theorem timeStep_steps (h : d.num 0 4 ≠ 0) :
    timeStep d s = (s.stepCounter (sval (d.num 0 4) 32 * 256)).finish d 0x51 stOk := by
  rw [timeStep, if_neg (by simp [ho]), if_neg h]

end

theorem timeRead_answers {s : State} {d : Desc} (ho : d.only [] = true) : timeRead d s =
    s.finish d 0x52 stOk (s.ns + 2 ^ 32 * s.frac + 2 ^ 56 * s.rd F.PTP_STATE_SERVO) := if_neg (by simp [ho])

/-! ### Offsets -/

section
variable {s : State} {k : Nat} (o : Nat) {m : Nat}

/-- Only the feeder that SERVO_CFG.FEED names feeds the servo (R153). -/
theorem State.feedServo_other (h : s.rd F.PTP_SERVO_CFG_FEED ≠ k) : s.feedServo k o m = (0x501, s) := if_pos (by simp [h])

variable (hf : s.rd F.PTP_SERVO_CFG_FEED = k)
include hf

theorem State.feedServo_stale (hm : s.stale m = true) : s.feedServo k o m = (0x502, s.detect E.PTP_OFS_STALE) := by
  rw [State.feedServo, if_neg (by simp [hf]), if_pos hm]

theorem State.feedServo_fresh (hm : s.stale m = false) : s.feedServo k o m =
    (stOk, (if k = 0 then s.wr F.WDG_LOAD (clrBit (s.rd F.WDG_LOAD) 0) else s).acceptOffset o) := by
  rw [State.feedServo, if_neg (by simp [hf]), if_neg (by simp [hm])]

end

theorem servoFeed_lawful {s : State} {d : Desc} (ho : d.only [(0, 0, 32), (4, 0, 32)] = true) : servoFeed d s =
    (s.feedServo 1 (d.num 0 4) (d.num 4 4)).2.finish d 0x50 (s.feedServo 1 (d.num 0 4) (d.num 4 4)).1 := if_neg (by simp [ho])

section
variable {s : State} (o m : Word) (hl : s.live = true)
include hl

/-- With PTP run by the host's own stack Ranger feeds nothing (R152). -/
theorem exec_rangerOffsetFeed_stack (h : s.on F.PTP_CFG_STACK = true) : exec (.rangerOffsetFeed o m) s = .next s :=
  next_of_live hl (if_neg (by simp [h]))

theorem exec_rangerOffsetFeed_feeds (hh : s.isHead = true) (hr : s.power.ranger = .running) (h : s.on F.PTP_CFG_STACK = false) :
    exec (.rangerOffsetFeed o m) s = .next (s.feedServo 0 o.toNat m.toNat).2 :=
  next_of_live hl (if_pos (by simp [hh, hr, h]))

end

/-- An accepted offset is shown, and the servo is fed now (R153, R156, R165). -/
def State.fed (s : State) (o : Nat) : State :=
  { (s.wr F.PTP_LAST_OFS o).wr F.PTP_STATE_SERVO 1 with servo := { s.servo with fedAt := some s.core } }

theorem State.rd_fed {f : Fld} (s : State) (o : Nat) (h1 : F.PTP_LAST_OFS.key ≠ f.key) (h2 : F.PTP_STATE_SERVO.key ≠ f.key) :
    (s.fed o).rd f = s.rd f :=
  (State.rd_regs rfl f).trans ((State.rd_wr_ne _ 1 h2).trans (s.rd_wr_ne o h1))

/-- An accepted offset updates the servo, or beyond STEP_NS steps the counter or is clamped (R153 - R155). -/
theorem State.acceptOffset_eq (s : State) (o : Nat) {top : Int} (ht : top = s.rd F.PTP_STEP_NS * 256) : s.acceptOffset o =
    if -top ≤ sval o 32 && sval o 32 ≤ top then (s.fed o).servoUpdate (sval o 32)
    else if s.rd F.PTP_SERVO_CFG_AUTO_STEP = 2 || (s.rd F.PTP_SERVO_CFG_AUTO_STEP = 1 && !s.on F.CLK_FRM_CTRL_RUN) then
      (s.fed o).stepCounter (-(sval o 32))
    else ((s.fed o).detect E.PTP_OFS_CLAMP).servoUpdate (clampI (sval o 32) (-top) top) := by
  have hstep : (s.fed o).rd F.PTP_STEP_NS = s.rd F.PTP_STEP_NS := s.rd_fed o (by decide) (by decide)
  have hauto : (s.fed o).rd F.PTP_SERVO_CFG_AUTO_STEP = s.rd F.PTP_SERVO_CFG_AUTO_STEP := s.rd_fed o (by decide) (by decide)
  have hrun : (s.fed o).rd F.CLK_FRM_CTRL_RUN = s.rd F.CLK_FRM_CTRL_RUN := s.rd_fed o (by decide) (by decide)
  rw [ht, ← hstep, ← hauto, State.on, ← hrun]
  rfl

section
variable {s : State} {o : Nat}

theorem State.acceptOffset_inside (hlo : -(s.rd F.PTP_STEP_NS * 256 : Int) ≤ sval o 32)
    (hhi : sval o 32 ≤ (s.rd F.PTP_STEP_NS * 256 : Int)) : s.acceptOffset o = (s.fed o).servoUpdate (sval o 32) := by
  rw [s.acceptOffset_eq o rfl, if_pos (by simp [hlo, hhi])]

variable (hb : (s.rd F.PTP_STEP_NS * 256 : Int) < sval o 32)
include hb

theorem State.acceptOffset_steps (ha : s.rd F.PTP_SERVO_CFG_AUTO_STEP = 2) :
    s.acceptOffset o = (s.fed o).stepCounter (-(sval o 32)) := by
  rw [s.acceptOffset_eq o rfl, if_neg (by simp [hb]), if_pos (by simp [ha])]

theorem State.acceptOffset_clamped (ha : s.rd F.PTP_SERVO_CFG_AUTO_STEP = 0) :
    s.acceptOffset o = ((s.fed o).detect E.PTP_OFS_CLAMP).servoUpdate (s.rd F.PTP_STEP_NS * 256) := by
  have hclamp : clampI (sval o 32) (-(s.rd F.PTP_STEP_NS * 256 : Int)) (s.rd F.PTP_STEP_NS * 256) = s.rd F.PTP_STEP_NS * 256 := by
    rw [clampI, if_neg (by omega), if_pos hb]
  rw [s.acceptOffset_eq o rfl, if_neg (by simp [hb]), if_neg (by simp [ha]), hclamp]

end

/-- Long without an offset the servo holds over from its integral part (R156). -/
theorem servoHoldover_fed {s : State} {c : Nat} (hh : s.isTile = false) (hs : s.rd F.PTP_STATE_SERVO = 1)
    (hf : s.servo.fedAt = some c) : servoHoldover s =
      (((s.advance (c + ceilDiv (8 * s.syncNs * 2 ^ 40) s.addend - s.core)).setRate s.servo.i s.servo.i).wr
        F.PTP_STATE_SERVO 2).detect E.PTP_HOLDOVER := by
  have hrate : ∀ n, (s.advanceTo n).setRate (s.advanceTo n).servo.i (s.advanceTo n).servo.i =
      (s.advance (n - s.core)).setRate s.servo.i s.servo.i := fun _ => rfl
  rw [servoHoldover, hf, ← hrate]
  exact if_neg (by simp [hh, hs])

/-! ### TS_FETCH -/

/-- A lawful TS_FETCH hands over the host's oldest entries and keeps Ranger's and the rest (R162). -/
theorem tsFetch_lawful {s : State} {d : Desc} (ok : Bool) {out : List Bytes}
    (ho : d.only [(0, 0, 8), (8, 0, 64), (16, 0, 16)] = true) (hp : d.num 0 1 ≤ 1)
    (hlo : 1 ≤ d.num 16 2) (hhi : d.num 16 2 ≤ 64)
    (hout : out = ((s.tsStore (d.num 0 1)).filter hostStamp).take (d.num 16 2)) : tsFetch d ok s =
      if d.num 8 8 % 16 != 0 then s.finish d 0x53 stAddress
      else if !ok then s.finish d 0x53 stPcie
      else ((if out.isEmpty then s else s.emit (.hostWrite (d.num 8 8) out.flatten)).setTs (d.num 0 1)
        ((s.tsStore (d.num 0 1)).filter (fun e => !hostStamp e) ++
          ((s.tsStore (d.num 0 1)).filter hostStamp).drop (d.num 16 2))).finish d 0x53 stOk out.length := by
  subst hout
  refine if_neg ?_
  simp only [ho, Bool.not_true, Bool.false_or, Bool.or_eq_true, decide_eq_true_eq]
  omega

/-- Settles O49: the counter, then the servo from its feed to its holdover, then the frames by how they are queued and launch, and
the stamps. -/
theorem networkTime : Obligations.NetworkTime := by
  unfold Obligations.NetworkTime
  refine ⟨?counter, ?step, ?read, ?hostFeed, ?rangerFeed, ?offset, ?update, ?holdover, ?send, ?queue, ?plain, ?timed, ?fetch⟩
  case counter =>
    refine fun s hl => ⟨onLive_of_live _ hl, fun hh hr => next_of_live hl (timeSet_refused hh hr),
      fun h => ⟨_, next_of_live hl (timeSet_taken h), rfl, rfl, rfl, rfl, rfl, ?_⟩⟩
    exact congrArg (fun t => some (t, s.core + 1)) (ofNat_ns _)
  case step =>
    intro s d hacc ho
    refine ⟨fun h0 => next_of_accepts hacc (timeStep_range ho h0), fun h0 => ⟨_, _, rfl, rfl, fun ha => ?_, ?_⟩⟩
    · refine State.audioStep_stopped ?_ _
      exact ha
    · exact next_of_accepts hacc ((timeStep_steps ho h0).trans (congrArg (State.finish · d 0x51 stOk) (s.stepCounter_ns _)))
  case read => exact fun s d hacc ho => next_of_accepts hacc (timeRead_answers ho)
  case hostFeed =>
    rintro s d _ _ hacc ho rfl rfl
    have hfeed := next_of_accepts hacc (servoFeed_lawful (s := s) ho)
    refine ⟨fun hf => ?_, fun hf hm => ?_, fun hf hm => ?_⟩
    · exact hfeed.trans (by rw [State.feedServo_other _ hf])
    · exact hfeed.trans (by rw [State.feedServo_stale _ hf hm])
    · exact hfeed.trans (by rw [State.feedServo_fresh _ hf hm]; rfl)
  case rangerFeed =>
    intro s o m hl hh hr
    have hfeed := exec_rangerOffsetFeed_feeds o m hl hh hr
    refine ⟨fun h => ?_, fun hk hf => ⟨fun hm => ?_, fun hm => ?_⟩⟩
    · by_cases hk : s.on F.PTP_CFG_STACK = true
      · exact exec_rangerOffsetFeed_stack o m hl hk
      · rw [hfeed (Bool.not_eq_true _ ▸ hk), State.feedServo_other _ (h.resolve_left hk)]
    · rw [hfeed hk, State.feedServo_stale _ hf hm]
    · rw [hfeed hk, State.feedServo_fresh _ hf hm, if_pos rfl]
  case offset =>
    exact fun s o => ⟨s.fed o, rfl, State.acceptOffset_inside, State.acceptOffset_steps, State.acceptOffset_clamped⟩
  case update =>
    rintro s th lim i yn y rfl rfl rfl rfl
    rfl
  case holdover => exact fun s c hl hh hs hf => next_of_live hl (servoHoldover_fed hh hs hf)
  case send =>
    rintro s d x _ hacc ho hone hid rfl
    have h : PlainTxSend d := ⟨ho, hone, hid⟩
    refine ⟨fun hu hx => next_of_accepts hacc (txSend_unread h hu hx), fun ht hf => next_of_accepts hacc (txSend_waits h ht hf),
      fun hx hp => ⟨fun hu => ?_, fun ht hf => ⟨fun hr => ?_, fun hr => ?_⟩⟩⟩
    · exact next_of_accepts hacc (txSend_plain h hx hp hu)
    · exact next_of_accepts hacc (txSend_late h hx hp ht hf hr)
    · exact next_of_accepts hacc (txSend_queued h hx hp ht hf hr)
  case queue => exact fun s p => ⟨rfl, rfl⟩
  case plain =>
    exact fun s p n x r hq => ⟨State.sendPlain_waits hq n, fun h => ⟨_, _, rfl, rfl, State.sendPlain_sends hq n h rfl rfl⟩⟩
  case timed =>
    exact fun s p x r hl hh hp hq => ⟨fun h => next_of_live hl (timedLaunch_waits hq h),
      fun h => ⟨_, _, _, rfl, rfl, rfl, next_of_live hl (timedLaunch_next hq hh hp h rfl rfl rfl)⟩⟩
  case fetch =>
    rintro s d _ _ out hacc ho rfl hp rfl hlo hhi hout
    have hfetch := fun ok => tsFetch_lawful (s := s) ok ho hp hlo hhi hout
    refine ⟨fun ha ok => ?_, fun ha => ⟨?_, ?_⟩⟩
    · exact next_of_accepts hacc ((hfetch ok).trans (if_pos (by simp [ha])))
    · exact next_of_accepts hacc ((hfetch false).trans (by rw [if_neg (by simp [ha])]; rfl))
    · refine next_of_accepts hacc ((hfetch true).trans ?_)
      rw [if_neg (by simp [ha])]
      simp only [List.isEmpty_iff]
      rfl

end Sys2Proof.Machine
end

section
/-! Glades: the verdict on a pass, the substitution it asks for, and the release of a latch (R201, R203, R204, R206, R207). -/

namespace Sys2Proof.Machine

/-! ### The verdict -/

theorem gladeVerdict_armed {s : State} {p : Pass} {pl : Place} {i : Nat}
    (hp : s.cnp.passes.find? (fun p => bit p.armed i && !bit p.verdicts i) = some p) (hpl : s.placeOf p.bank = some pl) :
    gladeVerdict i s = if p.signed pl (p.bank.glade i) then s.verdict p pl i else s := by
  simp only [gladeVerdict, hp, hpl]

@[simp] theorem State.latchedFor_wr (s : State) (f : Fld) (v : Nat) (p : Pass) : (s.wr f v).latchedFor p = s.latchedFor p := rfl

/-- A Glade's signature and the frame it is of are shown (R207). -/
def State.showsSign (s : State) (p : Pass) (pl : Place) (i : Nat) : State :=
  (s.wr (F.CNP_GLADE_SIG i) (p.sign pl (p.bank.glade i)).toNat).wr F.CNP_GLADE_FRAME p.frame.toNat

/-- A mismatch of a Glade is noted and counted, and its source fires (R203). -/
def State.notesMismatch (s : State) (i : Nat) : State :=
  ((s.raise F.CNP_GLADE_STICKY i).inc (F.CNP_GLADE_MISS i)).detect E.CNP_GLADE_MISMATCH

/-- A pass in which a Glade has its verdict. -/
def Pass.withVerdict (p : Pass) (i : Nat) : Pass := { p with verdicts := setBit p.verdicts i }

section
variable (s : State) {p : Pass} {pl : Place} {i : Nat}

/-- A match of a Glade that is not latched asks for nothing, whatever its REACT (R203, R204). -/
theorem State.verdict_match (h : (p.sign pl (p.bank.glade i)).toNat = numAt (p.bank.gladeTile i) 0 4)
    (hl : bit (s.latchedFor p) i = false) : s.verdict p pl i = ((s.showsSign p pl i).setPass (p.withVerdict i)).endPasses := by
  simp [State.verdict, h, hl, State.showsSign, Pass.withVerdict]

variable (h : (p.sign pl (p.bank.glade i)).toNat ≠ numAt (p.bank.gladeTile i) 0 4)
include h

theorem State.verdict_logs (hr : bits (numAt (p.bank.glade i) 0 1) 2 2 = 0) :
    s.verdict p pl i = (((s.showsSign p pl i).notesMismatch i).setPass (p.withVerdict i)).endPasses := by
  simp [State.verdict, h, hr, State.detectIf, State.showsSign, State.notesMismatch, Pass.withVerdict]

theorem State.verdict_alerts (hr : bits (numAt (p.bank.glade i) 0 1) 2 2 = 1) :
    s.verdict p pl i = ((((s.showsSign p pl i).notesMismatch i).detect E.CNP_GLADE_ALERT).setPass (p.withVerdict i)).endPasses := by
  simp [State.verdict, h, hr, State.detectIf, State.showsSign, State.notesMismatch, Pass.withVerdict]

theorem State.verdict_substitutes (hr : bits (numAt (p.bank.glade i) 0 1) 2 2 = 2)
    (hl : bit (numAt (p.bank.glade i) 0 1) 4 = false) :
    s.verdict p pl i = ((((s.showsSign p pl i).notesMismatch i).detect E.CNP_GLADE_ALERT).setPass
      { p.withVerdict i with subst := setBit p.subst i }).endPasses := by
  simp [State.verdict, h, hr, hl, State.detectIf, State.showsSign, State.notesMismatch, Pass.withVerdict]

/-- In a pass of the active bank the latch holds for the bank and for the pass (R204). -/
theorem State.verdict_latches (hr : bits (numAt (p.bank.glade i) 0 1) 2 2 = 2)
    (hl : bit (numAt (p.bank.glade i) 0 1) 4 = true) (ho : p.old = false) {w : State}
    (hw : w = ((s.showsSign p pl i).notesMismatch i).detect E.CNP_GLADE_ALERT) :
    s.verdict p pl i = (({ w with cnp := { w.cnp with latched := setBit w.cnp.latched i } } : State).setPass
      { p.withVerdict i with subst := setBit p.subst i, latched := setBit p.latched i }).endPasses := by
  subst hw
  simp [State.verdict, h, hr, hl, ho, State.detectIf, State.showsSign, State.notesMismatch, Pass.withVerdict]

end

/-! ### The substitution -/

theorem State.clean_lmWrite {s : State} (h : s.lmBad = []) (a : Nat) (bs : Bytes) : (s.lmWrite a bs).lmBad = [] := by
  simp [h]

/-- Correcting a lamp makes no codeword uncorrectable (R296). -/
theorem State.clean_correctLamp {s : State} (h : s.lmBad = []) (p : Pass) (bk : Bank) (pl : Place) (k v : Nat) :
    (s.correctLamp p bk pl k v).lmBad = [] := by
  unfold State.correctLamp
  extract_lets
  refine List.foldlRecOn (motive := fun t : State => t.lmBad = []) _ _ h fun t ht e _ => ?_
  extract_lets
  split_ifs
  · exact ht
  · exact State.clean_lmWrite ht _ _

/-- The lamps that a Glade substitutes in a pass: those of the tile that no lower-numbered substituting Glade holds and whose band
is not lost (R203, R206). -/
def Pass.substLamps (p : Pass) (pl : Place) (i : Nat) : List Nat :=
  (gladeLamps pl (p.bank.glade i)).filter (fun k =>
    !(List.range i).any (fun j => (bit p.subst j || bit p.subd j) && gladeHolds (p.bank.glade j) (pl.at k).1 (pl.at k).2) &&
    !(p.rolling && p.lost.contains (pl.bandOf (k / pl.u))))

/-- The substitute of a Glade is written at one lamp (R203). -/
def State.substLamp (s : State) (p : Pass) (pl : Place) (i k : Nat) : State :=
  let v := s.substValue p.bank i k
  let r := s.correctLamp p p.bank pl k v
  { r with cnp := { r.cnp with work := Map.set r.cnp.work k v 0 } }

theorem State.sameButLm_net {s t : State} (h : s.sameButLm t) : t.net = s.net := by rw [h]

theorem State.substLamp_net (s : State) (p : Pass) (pl : Place) (i k : Nat) : (s.substLamp p pl i k).net = s.net := by
  have h := State.sameButLm_net (State.sameButLm_correctLamp s.sameButLm_refl p p.bank pl k (s.substValue p.bank i k))
  exact h

theorem State.substBad_of_clean {s : State} (h : s.lmBad = []) (bk : Bank) (i k : Nat) : s.substBad bk i k = false := by
  simp [State.substBad, State.lmBadIn_of_clean h]

theorem State.queueTruth_off {s : State} (h : Map.find s.net.pvw 2 = none) (pl : Place) (f : Word) (vals : List (Nat × Nat)) :
    s.queueTruth pl f vals = s := by
  simp only [State.queueTruth, h]

/-- Over the lamps of a substitution the memory stays without uncorrectable words, and the previews stay as they are. -/
theorem State.foldl_substLamp_keeps {s : State} (hc : s.lmBad = []) (p : Pass) (pl : Place) (i : Nat) (ks : List Nat) :
    (ks.foldl (State.substLamp · p pl i ·) s).lmBad = [] ∧ (ks.foldl (State.substLamp · p pl i ·) s).net = s.net :=
  List.foldlRecOn (motive := fun t : State => t.lmBad = [] ∧ t.net = s.net) ks _ ⟨hc, rfl⟩ fun t ⟨ht, hn⟩ k _ =>
    ⟨State.clean_correctLamp ht p p.bank pl k _, (t.substLamp_net p pl i k).trans hn⟩

theorem substitutionDone_clean {s t : State} {p : Pass} {pl : Place} {i : Nat}
    (hp : s.cnp.passes.find? (fun p => bit p.subst i) = some p) (hc : s.lmBad = []) (hpl : s.placeOf p.bank = some pl)
    (hpvw : Map.find s.net.pvw 2 = none) (ht : t = (p.substLamps pl i).foldl (State.substLamp · p pl i ·) s) :
    substitutionDone i s = (t.setPass { p with subst := clrBit p.subst i, subd := setBit p.subd i }).endPasses := by
  obtain ⟨hbad, hnet⟩ := State.foldl_substLamp_keeps hc p pl i (p.substLamps pl i)
  rw [← ht] at hbad hnet
  have hecc : (p.substLamps pl i).any (t.substBad p.bank i) = false := by
    simp [State.substBad_of_clean hbad]
  unfold substitutionDone
  rw [hp]
  dsimp -zeta only
  extract_lets bk
  rw [hpl]
  dsimp -zeta only
  extract_lets above lost ks written noted told
  have h₁ : written = t := ht.symm
  have h₂ : noted = t := by
    rw [← h₁] at hecc ⊢
    exact if_neg (Bool.eq_false_iff.mp hecc)
  have h₃ : told = t := by
    simp only [told, h₂]
    exact State.queueTruth_off (hnet ▸ hpvw) _ _ _
  rw [h₃]

/-! ### The release -/

theorem gladeRelease_head {s : State} (h : s.isHead = true) (v : Word) : gladeRelease v s = s := if_pos h

theorem gladeRelease_tile {s : State} (h : s.isHead = false) (v : Word) : gladeRelease v s = { s with cnp := { s.cnp with
    latched := andNot s.cnp.latched (v.toNat % 65536)
    passes := s.cnp.passes.map (fun p => { p with latched := andNot p.latched (v.toNat % 65536) }) } } :=
  if_neg (Bool.eq_false_iff.mp h)

/-- Settles O34: the verdict by the signature, REACT and LATCH, the substitution lamp by lamp, the release by role. -/
theorem gladeVerdicts : Obligations.GladeVerdicts := by
  unfold Obligations.GladeVerdicts
  refine ⟨?verdict, ?substitution, ?release⟩
  case verdict =>
    rintro s p pl i _ hr hp hpl rfl
    have hv := gladeVerdict_armed hp hpl
    refine ⟨fun h => next_of_onRun hr (hv.trans (if_neg (Bool.eq_false_iff.mp h))),
      fun h => ⟨s.showsSign p pl i, _, _, p.withVerdict i, rfl, rfl, rfl, rfl, ?_⟩⟩
    have hn {t : State} (ht : s.verdict p pl i = t) : exec (.gladeVerdict i) s = .next t :=
      next_of_onRun hr (hv.trans ((if_pos h).trans ht))
    exact ⟨fun hm hl => hn (s.verdict_match hm hl), fun hm => ⟨fun h0 => hn (s.verdict_logs hm h0),
      fun h1 => hn (s.verdict_alerts hm h1), fun h2 hl => hn (s.verdict_substitutes hm h2 hl),
      fun h2 hl ho => hn (s.verdict_latches hm h2 hl ho rfl)⟩⟩
  case substitution =>
    exact fun s p pl i hr hp hc hpl hpvw => ⟨_, _, rfl, rfl, next_of_onRun hr (substitutionDone_clean hp hc hpl hpvw rfl)⟩
  case release =>
    exact fun s v hl => ⟨fun h => next_of_live hl (gladeRelease_head h v), fun h => next_of_live hl (gladeRelease_tile h v)⟩

end Sys2Proof.Machine
end

section
/-! The lamp correction's arithmetic: a clamped rounded sum for each emitter, then the gain (R210). -/

namespace Sys2Proof.Machine

theorem clampI_eq_max_min {lo hi : Int} (h : lo ≤ hi) (v : Int) : clampI v lo hi = max lo (min v hi) := by
  unfold clampI
  split_ifs with hlo hhi
  · rw [min_eq_left (hlo.le.trans h), max_eq_left hlo.le]
  · rw [min_eq_right hhi.le, max_eq_right h]
  · rw [min_eq_left (not_lt.mp hhi), max_eq_right (not_lt.mp hlo)]

theorem lampBad_of_lt {lamp : Bytes} (h : leNat lamp < 2 ^ 145) : lampBad lamp = false := by
  rw [lampBad, bits_above 15 h]; rfl

/-- The coefficient A[e][c] of a Lamp Table entry (R208). -/
def lampCoef (lamp : Bytes) (e c : Nat) : Int := sval (bits (leNat lamp) (12 * (3 * e + c)) 12) 12

/-- The sum of R210, before its rounding and its clamp. -/
def corrSum (lamp : Bytes) (w0 w1 w2 : Int) (e : Nat) : Int :=
  lampCoef lamp e 0 * w0 + lampCoef lamp e 1 * w1 + lampCoef lamp e 2 * w2

theorem corrD_eq (lamp : Bytes) (w0 w1 w2 : Int) (e : Nat) :
    corrD lamp [w0, w1, w2] e = max 0 (min ((corrSum lamp w0 w1 w2 e + 512) / 1024) 0xFFFFF) := by
  have hsum : (List.range 3).foldl (fun (a : Int) c => a + lampCoef lamp e c * [w0, w1, w2].getD c 0) 0 =
      corrSum lamp w0 w1 w2 e := by
    simp [corrSum, List.range_succ]
  rw [← hsum]
  exact clampI_eq_max_min (by decide) _

theorem corrD_of_neg {lamp : Bytes} {w0 w1 w2 : Int} {e : Nat} (h : corrSum lamp w0 w1 w2 e < 0) :
    corrD lamp [w0, w1, w2] e = 0 := by
  have hfloor : (corrSum lamp w0 w1 w2 e + 512) / 1024 ≤ 0 := by omega
  rw [corrD_eq, max_eq_left ((min_le_left _ _).trans hfloor)]

theorem corrG_eq (lamp emit : Bytes) (w : List Int) (e : Nat) :
    corrG lamp emit w e = min ((corrD lamp w e * (leNat emit % 2 ^ 14 : Nat) + 65536) / 131072) 65535 := by
  rw [corrG, bits_low]

/-- Unit gain, 8,192 = 131,072 / 16: a shift of 4 that rounds half up. -/
theorem corrG_of_unit_gain {emit : Bytes} (h : leNat emit % 2 ^ 14 = 8192) (lamp : Bytes) (w : List Int) (e : Nat) :
    corrG lamp emit w e = min ((corrD lamp w e + 8) / 16) 65535 := by
  have hshift (d : Int) : (d * 8192 + 65536) / 131072 = (d + 8) / 16 := by omega
  rw [corrG_eq, h]
  exact congrArg (min · 65535) (hshift _)

/-- Settles O51: the clamped sum, the gain, and their cases of a negative sum and of unit gain. -/
theorem correctionArithmetic : Obligations.CorrectionArithmetic := by
  unfold Obligations.CorrectionArithmetic
  rintro lamp emit w0 w1 w2 e sum d - - - hsum rfl
  obtain rfl : sum = corrSum lamp w0 w1 w2 e := hsum
  rw [← corrD_eq]
  exact ⟨rfl, corrG_eq lamp emit _ e, corrD_of_neg, fun h => corrG_of_unit_gain h lamp _ e, lampBad_of_lt⟩

end Sys2Proof.Machine
end

section
/-! The Lamp Status Map: one entry of a byte, the write of an entry, and the reads that reach none (R230, R238, R239). -/

namespace Sys2Proof.Machine

/-! ### The entries of a byte -/

/-- A byte's value with its 2-bit entry `i` made `st`. -/
def withEntry (v i st : Nat) : Nat := v - bits v (2 * i) 2 * 2 ^ (2 * i) + st * 2 ^ (2 * i)

theorem withEntry_lt {v i st : Nat} (hv : v < 256) (hi : i < 4) (hst : st < 4) : withEntry v i st < 256 := by
  interval_cases i <;> simp only [withEntry, bits] <;> omega

theorem bits_withEntry_same (v : Nat) {i st : Nat} (hi : i < 4) (hst : st < 4) : bits (withEntry v i st) (2 * i) 2 = st := by
  interval_cases i <;> simp only [withEntry, bits] <;> omega

theorem bits_withEntry_ne (v : Nat) {i j st : Nat} (hi : i < 4) (hj : j < 4) (hst : st < 4) (hne : j ≠ i) :
    bits (withEntry v i st) (2 * j) 2 = bits v (2 * j) 2 := by
  interval_cases i <;> interval_cases j <;> simp only [withEntry, bits] <;> omega

/-! ### The write of an entry -/

/-- In a canonical Local Memory, a read of one byte gives its value. -/
theorem State.leNat_lmRead_one {s : State} (h : Store.wf s.lm = true) (a : Nat) :
    leNat (s.lmRead a 1) = (Store.get s.lm a).toNat := by
  have hr : s.lmRead a 1 = [Store.get s.lm a] :=
    List.ext_getElem (by simp [State.lmRead]) fun k hk hk' => by
      obtain rfl : k = 0 := by simpa using hk'
      exact Store.range_get h a 1 0 (by decide)
  rw [hr]
  simp [leNat]

/-- A status that changes to a fault is counted and reported, which writes no memory. -/
theorem State.writeStatus_lm {s : State} (h : Store.wf s.lm = true) (k st : Nat) :
    (s.writeStatus k st).lm = Store.put s.lm (s.stp.active.ptr 2 + k / 4)
      (BitVec.ofNat 8 (withEntry (Store.get s.lm (s.stp.active.ptr 2 + k / 4)).toNat (k % 4) st)) := by
  rw [← State.leNat_lmRead_one h]
  exact keep_ite (Q := fun lm _ _ => lm = _) (State.detect_keeps _ _ (State.inc_keeps _ _ rfl)) rfl

theorem State.writeStatus_get_other {s : State} (h : Store.wf s.lm = true) (k st : Nat) {a : Nat}
    (ha : a ≠ s.stp.active.ptr 2 + k / 4) : Store.get (s.writeStatus k st).lm a = Store.get s.lm a := by
  rw [State.writeStatus_lm h, Store.get_put_ne _ _ ha.symm]

theorem State.writeStatus_get_same {s : State} (h : Store.wf s.lm = true) (k : Nat) {st : Nat} (hst : st < 4) :
    (Store.get (s.writeStatus k st).lm (s.stp.active.ptr 2 + k / 4)).toNat =
      withEntry (Store.get s.lm (s.stp.active.ptr 2 + k / 4)).toNat (k % 4) st := by
  rw [State.writeStatus_lm h, Store.get_put_same, BitVec.toNat_ofNat]
  exact Nat.mod_eq_of_lt (withEntry_lt (BitVec.isLt _) (Nat.mod_lt _ (by decide)) hst)

/-- Another emitter's entry is in another byte, or is another entry of the same byte. -/
theorem State.writeStatus_entry_other {s : State} (h : Store.wf s.lm = true) {j k st : Nat} (hst : st < 4) (hj : j ≠ k) :
    bits (Store.get (s.writeStatus k st).lm (s.stp.active.ptr 2 + j / 4)).toNat (2 * (j % 4)) 2 =
      bits (Store.get s.lm (s.stp.active.ptr 2 + j / 4)).toNat (2 * (j % 4)) 2 := by
  by_cases hq : j / 4 = k / 4
  · rw [hq, State.writeStatus_get_same h k hst]
    exact bits_withEntry_ne _ (Nat.mod_lt _ (by decide)) (Nat.mod_lt _ (by decide)) hst (by omega)
  · rw [State.writeStatus_get_other h k st (by omega)]

/-! ### The map's extent, and reads that reach no entry -/

theorem statusExtent_mem_tableRanges (b : Bank) (p : Place) :
    (b.ptr 2, ((p.u * p.v * p.emit + 3) / 4 + 63) / 64 * 64) ∈ tableRanges b p :=
  List.mem_append_left _ (.tail _ (.tail _ (.head _)))

/-- A segment of another primitive than CENSUS reads nothing. -/
theorem State.censusReads_other (s : State) (pl : Place) (r : Run) (b : Nat) {x : Seg} (xs : List Seg) (bri : List Bool)
    (h : pOp x.prim ≠ 5) : s.censusReads pl r b (x :: xs) bri = s.censusReads pl r b xs bri :=
  if_neg (by simp [h])

/-- A read whose Return Map entries name no emitter writes nothing. -/
theorem State.censusRead_none (s : State) (pl : Place) (r : Run) (b : Nat) {x : Seg} (bri : List Bool)
    (h : ∀ c < pN x.prim, mapNone (s.retEntry b x.row c) = true) : s.censusRead pl r b x bri = s :=
  List.foldlRecOn (motive := (· = s)) (List.range (pN x.prim)) _ rfl fun t ht c hc => by
    subst ht
    exact if_pos (h c (List.mem_range.mp hc))

/-- Settles O60: the entry's byte and every other byte after a write, then the extent and the reads that reach none. -/
theorem statusMap : Obligations.StatusMap := by
  unfold Obligations.StatusMap
  refine ⟨fun s k st h hst => ⟨_, rfl, ?entry, fun j hj => State.writeStatus_entry_other h hst hj,
    fun a ha => State.writeStatus_get_other h k st ha⟩, statusExtent_mem_tableRanges, fun s pl r b x xs bri => ⟨rfl,
    s.censusReads_other pl r b xs bri, s.censusRead_none pl r b bri⟩⟩
  case entry =>
    rw [State.writeStatus_get_same h k hst]
    exact bits_withEntry_same _ (Nat.mod_lt _ (by decide)) hst

end Sys2Proof.Machine
end

section
/-! The end of a script run (R228, R235, R238, R243). -/

namespace Sys2Proof.Machine

theorem scriptRunEnd_none {s : State} {g : Nat} (pads bri : List (Nat × List Bool)) (h : Map.find s.brn.runs g = none) :
    scriptRunEnd g pads bri s = s := by
  simp only [scriptRunEnd, h]

theorem scriptRunEnd_cut {s : State} {g : Nat} (pads bri : List (Nat × List Bool)) {r : Run} {c : Nat}
    (h : Map.find s.brn.runs g = some r) (hc : r.cut = some c) : scriptRunEnd g pads bri s = s := by
  simp only [scriptRunEnd, h, hc, Option.isSome_some, if_true]

/-- A group's branches at the frame's end: their spans are compared, and with no run left a Census frame is complete. -/
def State.frameEnds (s : State) (g : Nat) : State :=
  let v := (branchesOf g).foldl State.compareSpan s
  if v.brn.runs = [] then v.censusDone else v

/-- A run that no reset cut closes at its end; where its sub-frame is the last, its group's frame ends. -/
theorem scriptRunEnd_runs {s : State} {g : Nat} (pads bri : List (Nat × List Bool)) {r : Run} {u : State}
    (h : Map.find s.brn.runs g = some r) (hc : r.cut = none)
    (hu : (s.advance (r.start + 8 * (s.playRun g r (2 ^ 40)).2 - s.core)).closeRun g r (2 ^ 40) pads bri = u) :
    scriptRunEnd g pads bri s = if r.sub + 1 ≠ u.refresh then u else u.frameEnds g := by
  subst hu
  simp only [scriptRunEnd, h, hc, Option.isSome_none, Bool.false_eq_true, if_false, State.advanceTo, State.lastSub, beq_iff_eq,
    List.isEmpty_iff, ne_eq, ite_not, State.frameEnds]

/-- Settles O35: a group without a run, one whose run a reset cut, and one whose run ends. -/
theorem scriptRunEnds : Obligations.ScriptRunEnds := by
  unfold Obligations.ScriptRunEnds
  intro s g pads bri hr
  refine ⟨fun h => ?none, fun r c h hc => ?cut, fun r h hc => ?ends⟩
  case none => exact next_of_onRun hr (scriptRunEnd_none pads bri h)
  case cut => exact next_of_onRun hr (scriptRunEnd_cut pads bri h hc)
  case ends => exact ⟨_, _, _, rfl, rfl, rfl, next_of_onRun hr (scriptRunEnd_runs pads bri h hc rfl)⟩

end Sys2Proof.Machine
end

section
/-! Every command answers, but for a release into factory test; and what PORn, a supply reset and PERST# leave (R290, R300, R301,
R346 - R348). -/

namespace Sys2Proof.Machine

/-! ### Every step answers -/

/-- Whatever the state, a command that samples no straps answers a next state: its shell is one of `onLive`, `onRun`, `onOp`, or
its meaning is total. -/
theorem exec_answers_of_samples_nothing {i : Instr} (h : samplesStraps i = false) (s : State) : ∃ t, exec i s = .next t := by
  cases i
  case pornRelease => cases h
  case supplyResetRelease => cases h
  all_goals exact ⟨_, rfl⟩

/-- With TEST_MODE low a release answers; with it high it is refused (R348). -/
theorem execPornRelease_answers (b : StrapBalls) (s : State) :
    (∃ t, execPornRelease b s = .next t) ∨ (execPornRelease b s = .refused .testMode ∧ b.test = true) := by
  unfold execPornRelease
  split_ifs with ht
  · exact .inr ⟨rfl, ht⟩
  · exact .inl ⟨_, rfl⟩
  · exact .inl ⟨_, rfl⟩

theorem execSupplyResetRelease_answers (kept : Bool) (b : StrapBalls) (s : State) :
    (∃ t, execSupplyResetRelease kept b s = .next t) ∨ (execSupplyResetRelease kept b s = .refused .testMode ∧ b.test = true) := by
  unfold execSupplyResetRelease
  by_cases ht : b.test = true
  · exact .inr ⟨if_pos ht, ht⟩
  · rw [if_neg ht]
    split_ifs <;> exact .inl ⟨_, rfl⟩

theorem exec_answers (i : Instr) (s : State) : (∃ t, exec i s = .next t) ∨
    (exec i s = .refused .testMode ∧ ∃ b : StrapBalls, b.test = true ∧ (i = .pornRelease b ∨ ∃ k, i = .supplyResetRelease k b)) := by
  cases hi : samplesStraps i
  case false => exact .inl (exec_answers_of_samples_nothing hi s)
  case true =>
    cases i with
    | pornRelease b => exact (execPornRelease_answers b s).imp id fun ⟨hx, ht⟩ => ⟨hx, b, ht, .inl rfl⟩
    | supplyResetRelease k b => exact (execSupplyResetRelease_answers k b s).imp id fun ⟨hx, ht⟩ => ⟨hx, b, ht, .inr ⟨k, rfl⟩⟩
    | _ => cases hi

/-- Settles O4: an idle cycle answers, and a command by whether it samples the straps. -/
theorem everyStepAnswers : Obligations.EveryStepAnswers := by
  unfold Obligations.EveryStepAnswers
  intro s
  cases hp : s.pending with
  | nil => exact .inl ⟨_, step_of_empty hp⟩
  | cons c rest =>
    have hstep : step s = exec c { s with pending := rest } := by rw [step, hp]
    rw [hstep]
    refine (exec_answers c _).imp id ?_
    rintro ⟨hx, b, ht, hc⟩
    refine ⟨hx, b, rest, ht, ?_⟩
    rcases hc with rfl | ⟨k, rfl⟩
    · exact .inl rfl
    · exact .inr ⟨k, rfl⟩

/-! ### Resets -/

/-- Settles O2: nothing is listed in either store, and the strap balls are low. -/
theorem invAtReset : Obligations.InvAtReset := by
  unfold Obligations.InvAtReset State.inv
  have hlm : Store.wf State.reset.lm = true := rfl
  have hsdb : Store.wf State.reset.sdb = true := rfl
  have htest : State.reset.power.straps.test = false := rfl
  rw [hlm, hsdb, htest]
  rfl

/-- A device held in reset keeps the Seedbank, the fuses and the shutdown flag, and nothing else (R347). -/
theorem State.heldIn_wiped (s : State) (ph : PowerPhase) (last : Nat) : (s.heldIn ph last).wipedFrom s :=
  ⟨rfl, rfl, rfl, rfl, rfl, rfl, rfl, rfl, rfl, rfl, rfl, rfl, rfl, rfl, rfl, rfl, rfl⟩

/-- A monitored rail below its reset level holds the device, unless PORn does (R300). -/
theorem execSupplyReset_holds {s : State} {rail : Nat} (hm : s.monitored rail = true) (hp : s.power.phase ≠ .porn) :
    execSupplyReset rail s = .next (s.heldIn .supply (1 + 16 * rail)) := by
  simp [execSupplyReset, hm, hp]

/-- Settles O8: both resets hold the device in the wiped state; PERST# by its definition. -/
theorem resetWipes : Obligations.ResetWipes := by
  unfold Obligations.ResetWipes
  refine ⟨fun s => ⟨_, rfl, s.heldIn_wiped _ _, rfl, rfl⟩, fun s rail hm hp => ?_, fun s => rfl⟩
  exact ⟨_, execSupplyReset_holds hm hp, s.heldIn_wiped _ _, rfl, rfl⟩

end Sys2Proof.Machine
end

section
/-! Reaction 3, masked events, quiesce windows, and writes to BLK_REACT (R291 - R295, R306). -/

namespace Sys2Proof.Machine

/-! ### Recording by reaction -/

theorem State.codeOf_stuck_setPend (s : State) (b i : Nat) : ((s.stuck b i).setPend b i).codeOf b i = s.codeOf b i :=
  (State.codeOf_setPend _ b i).trans (State.codeOf_of_react rfl b i)

/-- With any reaction but log and resign a source sets its sticky bit and its pending bit (R290, R291). -/
theorem State.record_pends {s : State} {b i : Nat} (h0 : s.codeOf b i ≠ 0) (h3 : s.codeOf b i ≠ 3) :
    s.record b i = (s.stuck b i).setPend b i := by
  have h := State.codeOf_of_react (s := s) (t := s.stuck b i) rfl b i
  have hp := s.codeOf_stuck_setPend b i
  simp only [State.stuck] at h hp ⊢
  simp [State.record, h, hp, h0, h3]

/-- A source with reaction 3 is noted for cause BLOCK_RESIGN (R275, R292). -/
def State.notesResigner (u : State) (b i : Nat) : State :=
  if u.pair.resigners.contains (b, i) then u else { u with pair := { u.pair with resigners := (b, i) :: u.pair.resigners } }

theorem State.notesResigner_react (u : State) (b i : Nat) : (u.notesResigner b i).react = u.react := by
  unfold State.notesResigner
  split_ifs <;> rfl

/-- With reaction 3 a source pends as with reaction 1, and is noted (R292). -/
theorem State.record_resign {s : State} {b i : Nat} (hc : s.codeOf b i = 3) :
    s.record b i = ((s.stuck b i).setPend b i).notesResigner b i := by
  have h := (State.codeOf_of_react (s := s) (t := s.stuck b i) rfl b i).trans hc
  have hp := (s.codeOf_stuck_setPend b i).trans hc
  simp only [State.stuck] at h hp ⊢
  rw [State.notesResigner]
  cases hm : List.contains ((s.raise (F.BLK_STICKY b) i).setPend b i).pair.resigners (b, i) <;>
    simp only [State.record, h, hp, hm, OfNat.ofNat_ne_zero, if_false, if_true, decide_true, Bool.not_false,
      Bool.not_true, Bool.and_true, Bool.and_false, Bool.false_eq_true]

/-- Outside every quiesce window a source with reaction 3 is recorded and resigns the device in native mode (R292). -/
theorem State.detect_resign {s : State} {b i : Nat} (hm : s.masked b i = false) (hc : s.codeOf b i = 3) :
    s.detect (b, i) = (((s.stuck b i).setPend b i).notesResigner b i).resignNative := by
  have hs : s.sameReset (b, i) = false := State.sameReset_of_code (by omega)
  have hcode : (((s.stuck b i).setPend b i).notesResigner b i).codeOf b i = 3 :=
    (State.codeOf_of_react (State.notesResigner_react _ b i) b i).trans ((s.codeOf_stuck_setPend b i).trans hc)
  rw [State.detect, hs, hm]
  dsimp only
  rw [State.record_resign hc, hcode]
  rfl

theorem State.resignNative_native {s : State} (hp : s.isPair = true) (ha : s.on F.FBK_CTRL_ARB = false) :
    s.resignNative = s.resign := by
  rw [State.resignNative, State.native, hp, ha]
  rfl

theorem State.resignNative_other {s : State} (h : s.isPair = false ∨ s.on F.FBK_CTRL_ARB = true) : s.resignNative = s := by
  rw [State.resignNative, State.native]
  rcases h with h | h <;> simp [h]

/-- Cause BLOCK_RESIGN stands, without points, as soon as a source is noted (R275). -/
theorem State.healthCauses_notesResigner (u : State) (b i : Nat) : (u.notesResigner b i).healthCauses[3]? = some (true, 0) := by
  have hne : (u.notesResigner b i).pair.resigners.isEmpty = false := by
    unfold State.notesResigner
    split_ifs with h
    · cases hr : u.pair.resigners with
      | nil => rw [hr] at h; cases h
      | cons x l => rfl
    · rfl
  simp [State.healthCauses, hne]

/-- Settles O59: the recording by the reaction, then who resigns. -/
theorem resignReaction : Obligations.ResignReaction := by
  unfold Obligations.ResignReaction
  refine ⟨fun s b i hm => ⟨_, ((s.stuck b i).setPend b i).notesResigner b i, rfl, rfl, fun hc => ?_, fun hc => ⟨fun hp ha => ?_, fun h => ?_⟩,
    State.healthCauses_notesResigner _ b i⟩, fun s b i hl hh hr hcount hlm hsram hunc => ?_⟩
  · rw [State.detect_records hm (.inr hc), State.record_interrupt hc]
  · rw [State.detect_resign hm hc, State.resignNative_native hp ha]
  · rw [State.detect_resign hm hc, State.resignNative_other h]
  · exact next_of_live hl (faultEvent_plain hh hr hcount hlm hsram hunc)

/-! ### Inside a quiesce window -/

/-- A masked source only counts (R294). -/
theorem State.detect_masked {s : State} {b i : Nat} (hm : s.masked b i = true) (hs : s.sameReset (b, i) = false) :
    s.detect (b, i) = s.wr (F.BLK_MASKED b) (min (s.rd (F.BLK_MASKED b) + 1) (2 ^ 32 - 1)) := by
  rw [State.detect, hs, hm]
  rfl

/-- A second source that calls for the same reset in its CK_SYS cycle is recorded (R306). -/
theorem State.detect_sameReset {s : State} {b i : Nat} (hs : s.sameReset (b, i) = true) :
    s.detect (b, i) = (s.stuck b i).setPend b i := by
  have hc : s.codeOf b i = 2 := by
    simp only [State.sameReset, Bool.and_eq_true, beq_iff_eq] at hs
    exact hs.1
  rw [State.detect, hs]
  exact (if_pos rfl).trans (State.record_pends (b := b) (i := i) (by omega) (by omega))

theorem State.masked_of_never {b i : Nat} (h : neverMasked b i = true) (s : State) : s.masked b i = false := by
  rw [State.masked, h]
  rfl

/-! ### What a block reset leaves of the windows -/

/-- The quiesce windows and the time from which R295's limit runs. -/
def State.windows (s : State) : List Window × Option Nat := (s.quiesce, s.limitFrom)

theorem State.windows_wr (s : State) (f : Fld) (v : Nat) : (s.wr f v).windows = s.windows := rfl

theorem State.windows_setPort (s : State) (k : Nat) (p : Port) : (s.setPort k p).windows = s.windows := rfl

theorem State.windows_enterState (s : State) (k code : Nat) : (s.enterState k code).windows = s.windows := rfl

theorem State.windows_sendVector (s : State) (v : Nat) : (s.sendVector v).windows = s.windows := by
  unfold State.sendVector
  split_ifs <;> rfl

theorem State.windows_raiseEvent (s : State) (b : Nat) : (s.raiseEvent b).windows = s.windows := by
  unfold State.raiseEvent
  split_ifs <;> rfl

theorem State.windows_notify (s : State) (b : Nat) : (s.notify b).windows = s.windows := by
  unfold State.notify
  split_ifs
  · rw [State.windows_sendVector, State.windows_raiseEvent]
  · exact s.windows_sendVector b

theorem State.windows_setPend (s : State) (b i : Nat) : (s.setPend b i).windows = s.windows := by
  unfold State.setPend
  extract_lets t
  split_ifs
  · rfl
  · exact t.windows_notify b
  · rfl

theorem State.windows_record (s : State) (b i : Nat) : (s.record b i).windows = s.windows := by
  unfold State.record
  extract_lets t u
  have hu : u.windows = s.windows := by
    simp only [u]
    split_ifs
    · rfl
    · exact t.windows_setPend b i
  split_ifs
  · exact hu
  · exact hu

theorem State.windows_flag (s : State) (e : Nat × Nat) : (s.flag e).windows = s.windows := by
  unfold State.flag
  split_ifs
  · rfl
  · exact s.windows_record e.1 e.2

theorem State.windows_endFeed (s : State) (k : Nat) : (s.endFeed k).windows = s.windows := by
  unfold State.endFeed
  extract_lets p f t
  split_ifs <;> rfl

theorem State.windows_keepCap (s : State) (k : Nat) : (s.keepCap k).windows = s.windows := by
  unfold State.keepCap
  split_ifs
  · exact List.foldlRecOn (motive := fun t : State => t.windows = s.windows) _ _ rfl fun t ht n _ => ht
  · rfl

theorem State.windows_dropPort (s : State) (k code : Nat) : (s.dropPort k code).windows = s.windows := by
  simp only [State.dropPort, State.windows_endFeed, State.windows_enterState, State.windows_wr, State.windows_setPort,
    State.windows_keepCap]

theorem State.windows_cutSource (s : State) (p : Nat) (x : Nat × Source) : (s.cutSource p x).windows = s.windows := by
  unfold State.cutSource
  cases x.2.cur with
  | none => rfl
  | some o =>
    dsimp only
    split_ifs
    · exact State.windows_flag _ _
    · exact State.windows_flag _ _
    · rfl
    · rfl
    · rfl

theorem State.windows_resetNet (s : State) (p : Nat) : (s.resetNet p).windows = s.windows := by
  unfold State.resetNet
  exact List.foldlRecOn (motive := fun t : State => t.windows = s.windows) _ _ rfl fun t ht x _ => (t.windows_cutSource p x).trans ht

theorem State.windows_abandonPass (s : State) : s.abandonPass.windows = s.windows := by
  unfold State.abandonPass
  split
  · rfl
  · exact State.windows_flag _ _

theorem State.windows_cutByReset (s : State) : s.cutByReset.windows = s.windows := by
  unfold State.cutByReset
  exact List.foldlRecOn (motive := fun t : State => t.windows = s.windows) _ _ rfl fun t ht x _ =>
    (State.windows_flag _ E.BRN_SCRIPT_OVERRUN).trans ht

theorem State.windows_resetAudio (s : State) : s.resetAudio.windows = s.windows := by
  unfold State.resetAudio
  exact List.foldlRecOn (motive := fun t : State => t.windows = s.windows) _ _ rfl fun t ht x _ => ht

/-- The effect of a block's reset opens no other window and starts no limit (R293). -/
theorem State.windows_resetEffect (s : State) (b : Nat) : (s.resetEffect b).windows = s.windows := by
  unfold State.resetEffect
  split_ifs
  · exact s.windows_dropPort _ _
  · rfl
  · exact s.windows_resetNet _
  · exact s.windows_abandonPass
  · exact s.windows_cutByReset
  · exact s.windows_resetAudio
  · rfl

/-- A block that has a reset opens its window now, and the limit runs from now (R293, R295). -/
theorem State.blockReset_opens {s : State} {b m : Nat} (h : resetMask b = some m) :
    (s.blockReset b).quiesce = s.quiesce ++ [Window.mk b m s.core] ∧ (s.blockReset b).limitFrom = some s.core := by
  rw [State.blockReset, h]
  have hw := State.windows_resetEffect { s with quiesce := s.quiesce ++ [Window.mk b m s.core], limitFrom := some s.core } b
  exact Prod.ext_iff.mp hw

theorem State.blockReset_none {s : State} {b : Nat} (h : resetMask b = none) : s.blockReset b = s := by
  rw [State.blockReset, h]

/-- The dependents of each block that has a reset (R293). -/
def resetDependents : List (Nat × List Nat) :=
  [(4, [0, 3]), (5, [0, 3]), (6, [0, 3]), (7, [0, 3]), (8, [10, 15]), (9, [10, 15]), (10, [1, 15]), (11, [12, 13]), (12, [13]),
    (14, [12]), (13, []), (15, []), (3, [])]

/-- The mask of a block's window covers the block and its dependents (R293). -/
theorem resetMask_covers {b : Nat} {deps : List Nat} (h : (b, deps) ∈ resetDependents) :
    ∃ m, resetMask b = some m ∧ ∀ k < 23, bit m k = (k == b || deps.contains k) := by
  have hall : ∀ x ∈ resetDependents, ∀ m ∈ resetMask x.1, ∀ k < 23, bit m k = (k == x.1 || x.2.contains k) := by decide
  have hsome : ∀ x ∈ resetDependents, (resetMask x.1).isSome = true := by decide
  obtain ⟨m, hm⟩ := Option.isSome_iff_exists.mp (hsome _ h)
  exact ⟨m, hm, hall _ h m hm⟩

theorem execBlockReset_live {s : State} {b : Nat} (hl : s.live = true) :
    exec (.blockReset b) s = .next (if s.blockHere b then s.blockReset b else s) :=
  next_of_live hl rfl

/-! ### The end of a window and of the limit -/

theorem dropWindow_first {w : Window} {before after : List Window} (h : ∀ x ∈ before, x.block ≠ w.block) :
    dropWindow w.block (before ++ w :: after) = before ++ after := by
  induction before with
  | nil => exact if_pos rfl
  | cons x l ih =>
    exact (if_neg (h x (by simp))).trans (congrArg _ (ih fun y hy => h y (by simp [hy])))

theorem find_window_first {w : Window} {before after : List Window} (h : ∀ x ∈ before, x.block ≠ w.block) :
    (before ++ w :: after).find? (fun x => x.block == w.block) = some w := by
  rw [List.find?_append, List.find?_eq_none.mpr (fun x hx => by simpa using h x hx)]
  simp

theorem quiesceEnd_first {s : State} {w : Window} {before after : List Window} (hq : s.quiesce = before ++ w :: after)
    (h : ∀ x ∈ before, x.block ≠ w.block) : quiesceEnd w.block s =
      { s.advance (w.start + 65536 + usCycles (s.rd F.WDG_CFG_SETTLE) - s.core) with quiesce := before ++ after } := by
  rw [quiesceEnd, hq, find_window_first h]
  dsimp only
  rw [dropWindow_first h]
  rfl

theorem resetLimitEnd_at {s : State} {c : Nat} (h : s.limitFrom = some c) :
    resetLimitEnd s = { s.advance (c + 16 * 1007080 - s.core) with limitFrom := none } := by
  rw [resetLimitEnd, h]
  rfl

/-- Settles O18: the detector in a window, then each command that opens or ends one. -/
theorem maskedEvents : Obligations.MaskedEvents := by
  unfold Obligations.MaskedEvents
  refine ⟨⟨fun s b i hl hh hr hm hcount hlm hsram hunc => ?_, fun s i => ?never⟩, ?reset, ?ends, ?limit, ?other⟩
  · have hexec : exec (.faultEvent b i) s = .next (s.detect (b, i)) := next_of_live hl (faultEvent_plain hh hr hcount hlm hsram hunc)
    exact ⟨fun hs => by rw [hexec, State.detect_masked hm hs], fun hs => by rw [hexec, State.detect_sameReset hs]⟩
  case never =>
    refine ⟨fun hi => State.masked_of_never ?_ s, State.masked_of_never rfl s, State.masked_of_never rfl s,
      State.masked_of_never rfl s, State.masked_of_never rfl s⟩
    revert i
    decide
  case reset =>
    intro b deps s hb hl hh
    obtain ⟨m, hm, hcover⟩ := resetMask_covers hb
    obtain ⟨hq, hlim⟩ := State.blockReset_opens (s := s) hm
    exact ⟨_, m, (execBlockReset_live hl).trans (congrArg _ (if_pos hh)), hq, hlim, hcover⟩
  case ends => exact fun s w before after hl hq h => next_of_live hl (quiesceEnd_first hq h)
  case limit => exact fun s c hl h => next_of_live hl (resetLimitEnd_at h)
  case other =>
    intro s b hl hb
    have hnone : ∀ x ∈ [0, 1, 2, 16, 17, 18, 19, 20, 21, 22], resetMask x = none := by decide
    rw [execBlockReset_live hl, State.blockReset_none (hnone b hb), ite_self]

/-! ### Writes to BLK_REACT -/

/-- The word's bit 31, WE, as the model reads it (R291). -/
theorem bit_toNat (v : Word) (i : Nat) : bit v.toNat i = v.getLsbD i := by
  rw [bit, BitVec.getLsbD, Nat.testBit_eq_decide_div_mod_eq]
  exact (Bool.beq_eq_decide_eq _ _)

/-- What a write to BLK_REACT leaves: SRC, and CODE for SRC where it may be stored (R291). -/
theorem reactWrite_full (b : Nat) (v : Word) (s : State) : reactWrite b v.toNat true s =
    if v.getLsbD 31 && reactStorable b (v.toNat % 32) (v.toNat / 256 % 4) then
      (s.wr (F.BLK_REACT_SRC b) (v.toNat % 32)).setCode b (v.toNat % 32) (v.toNat / 256 % 4)
    else s.wr (F.BLK_REACT_SRC b) (v.toNat % 32) := by
  rw [reactWrite, bits_low, bit_toNat, Bool.true_and]
  rfl

theorem State.setCode_regs (s : State) (b i code : Nat) : (s.setCode b i code).regs = s.regs := by
  unfold State.setCode
  split <;> rfl

theorem State.codeOf_setCode_same {b i : Nat} (s : State) (code : Nat) (h : (Map.find (reactDefaults b) i).isSome = true) :
    (s.setCode b i code).codeOf b i = code := by
  obtain ⟨d, hd⟩ := Option.isSome_iff_exists.mp h
  simp only [State.setCode, State.codeOf, hd, Map.getD_set_same]

theorem State.codeOf_setCode_ne {b i c j : Nat} (s : State) (code : Nat) (h : (c, j) ≠ (b, i)) (hi : i < 32) (hj : j < 32) :
    (s.setCode b i code).codeOf c j = s.codeOf c j := by
  have hkey : 32 * b + i ≠ 32 * c + j := fun he => h (Prod.ext (by simp only; omega) (by simp only; omega))
  unfold State.setCode
  cases Map.find (reactDefaults b) i with
  | none => rfl
  | some d =>
    unfold State.codeOf
    cases Map.find (reactDefaults c) j with
    | none => rfl
    | some e => exact Map.getD_set_ne _ _ _ _ hkey

theorem State.codeOf_reserved {b i : Nat} (s : State) (h : (Map.find (reactDefaults b) i).isNone = true) : s.codeOf b i = 0 := by
  rw [State.codeOf, Option.isNone_iff_eq_none.mp h]

/-- The blocks without a reset (R293). -/
theorem resetMask_isNone_iff (b : Nat) :
    (resetMask b).isNone = true ↔ b ∉ [3, 4, 5, 6, 7, 8, 9, 10, 11, 12, 13, 14, 15] := by
  by_cases hb : b < 16
  · have h : ∀ x < 16, (resetMask x).isNone = true ↔ x ∉ [3, 4, 5, 6, 7, 8, 9, 10, 11, 12, 13, 14, 15] := by decide
    exact h b hb
  · have h : resetMask b = none := by
      unfold resetMask
      rw [if_neg (by simp; omega), if_neg (by simp; omega)]
      repeat rw [if_neg (by omega)]
    rw [h]
    simp
    omega

theorem neverMasked_iff (b i : Nat) :
    neverMasked b i = true ↔ b ∈ [17, 18, 21] ∨ (b = 1 ∧ i = 2) ∨ (b = 16 ∧ i ∈ [0, 1, 5, 6]) := by
  simp only [neverMasked, Bool.or_eq_true, Bool.and_eq_true, beq_iff_eq, List.contains_iff_mem, List.mem_cons, List.not_mem_nil,
    or_false, or_assoc]

/-- Which codes may not be stored for a source that has a reaction (R291). -/
theorem reactStorable_eq_false_iff {b i : Nat} (code : Nat) (h : (Map.find (reactDefaults b) i).isSome = true) :
    reactStorable b i code = false ↔
      (code = 2 ∧ b ∉ [3, 4, 5, 6, 7, 8, 9, 10, 11, 12, 13, 14, 15]) ∨
      (code = 0 ∧ (b ∈ [17, 18, 21] ∨ (b = 1 ∧ i = 2) ∨ (b = 16 ∧ i ∈ [0, 1, 5, 6]))) ∨
      (b, i) = E.WDG_EXPIRED ∨ (b, i) = E.THM_SHUTDOWN := by
  rw [← resetMask_isNone_iff, ← neverMasked_iff]
  simp only [reactStorable, h, Bool.true_and, Bool.and_eq_false_iff, Bool.not_eq_false', Bool.and_eq_true, beq_iff_eq,
    bne_eq_false_iff_eq, or_assoc]

/-- Settles O19: SRC by the field's own write, the codes by whether CODE may be stored. -/
theorem reactionWrites : Obligations.ReactionWrites := by
  unfold Obligations.ReactionWrites
  intro s b v hl hh
  have hexec : exec (.blkReactWrite b v) s = .next (reactWrite b v.toNat true s) := next_of_live hl (if_pos hh)
  refine ⟨_, hexec, ?src, fun c j hne hj hi => ?others, fun hn => State.codeOf_reserved _ hn, fun hsome => ?same⟩
  all_goals rw [reactWrite_full]
  case src =>
    have hsrc : (s.wr (F.BLK_REACT_SRC b) (v.toNat % 32)).rd (F.BLK_REACT_SRC b) = v.toNat % 32 :=
      (s.rd_wr_same _ _).trans (Nat.mod_mod _ _)
    split_ifs
    · rw [State.rd_regs (State.setCode_regs _ _ _ _), hsrc]
    · exact hsrc
  case others =>
    split_ifs
    · exact State.codeOf_setCode_ne _ _ hne hi hj
    · rfl
  case same =>
    have hstore := reactStorable_eq_false_iff (v.toNat / 256 % 4) hsome
    cases hwe : v.getLsbD 31 with
    | false => rw [Bool.false_and, if_neg Bool.false_ne_true, if_pos (.inl rfl)]; rfl
    | true =>
      cases hst : reactStorable b (v.toNat % 32) (v.toNat / 256 % 4) with
      | false => rw [Bool.true_and, if_neg Bool.false_ne_true, if_pos (.inr (hstore.mp hst))]; rfl
      | true =>
        have hno := mt hstore.mpr (by simp [hst])
        rw [Bool.true_and, if_pos rfl, State.codeOf_setCode_same _ _ hsome, if_neg]
        exact fun h => h.elim (fun h => absurd h (by decide)) hno

end Sys2Proof.Machine
end

section
/-! Supply, watchdog, load and memory supervision, and the diagnostics opcodes (R296, R297, R299, R302 - R305, R307). -/

namespace Sys2Proof.Machine

/-! ### Memory and supplies -/

/-- The bad words known once a background read has found the word at an address well (R296). -/
def State.readWell (s : State) (a : Nat) : State := { s with lmBad := s.lmBad.filter (fun w => w != a / 8) }

section
variable {s : State} (a : Nat) (hp : s.rd F.LMC_SCRUB_PERIOD ≠ 0)
include hp

theorem lmcScrub_clean : lmcScrub a .clean s = s.readWell a := if_neg hp

theorem lmcScrub_corr1 : lmcScrub a .corr1 s = ((s.readWell a).inc F.LMC_ECC_CORR1).countCorr := if_neg hp

theorem lmcScrub_corr2 : lmcScrub a .corr2 s = ((s.readWell a).inc F.LMC_ECC_CORR2).countCorr := if_neg hp

theorem lmcScrub_uncorr {v : State} (hv : v = { s.readWell a with lmBad := a / 8 :: (s.readWell a).lmBad }) :
    lmcScrub a .uncorr s = ((v.inc F.LMC_ECC_UNCORR).detect E.LMC_UNCORR).countUncorr := by
  subst hv
  exact if_neg hp

end

theorem supplyDip_monitored {s u : State} {rail : Nat} (hm : s.monitored rail = true)
    (hu : u = { s with power := { s.power with dips := setBit s.power.dips rail } }) : supplyDip rail s =
      (((u.wr F.SUP_STAT_BELOW_WARN (setBit (s.rd F.SUP_STAT_BELOW_WARN) rail)).wr F.SUP_STAT_SDB_SUSPENDED 1).inc
        F.SUP_DIPS).detect E.SUP_DIP_WARN := by
  subst hu
  exact if_pos hm

/-! ### The watchdog -/

theorem wdgKick_running {s : State} (hr : s.power.ranger = .running) : wdgKick s =
    { s with care := { s.care with kickAt := s.core, counting := true, preDone := false }
             pair := { s.pair with wdgBad := false } } :=
  if_pos (decide_eq_true hr)

theorem preExpire_counting {s : State} {n : Nat} (hc : s.care.counting = true) (hp : s.care.preDone = false)
    (hn : s.care.kickAt + s.rd F.WDG_CFG_TIMEOUT * (100708 * 16) / 2 - s.core = n) : preExpire s =
    ({ s.advance n with care := { s.care with preDone := true } } : State).detect E.WDG_PRE_EXPIRE := by
  rw [preExpire, if_pos (by rw [hc, hp]; rfl), State.advanceTo, State.wdgTimeout, msCycles, hn]
  rfl

theorem expired_stopped {s : State} (h : s.care.counting = false) : expired s = s := if_pos (by rw [h]; rfl)

/-- Outside a trial an expiry fires EXPIRED, resigns a native pair and leads to the watchdog's restart (R302, R304). -/
theorem expired_counting {s u : State} (hc : s.care.counting = true) (ht : s.on F.SDB_STAT_TRIAL = false)
    (hu : u = (s.advance (s.care.kickAt + s.rd F.WDG_CFG_TIMEOUT * (100708 * 16) - s.core)).detect E.WDG_EXPIRED) :
    expired s = (({ u with pair := { u.pair with wdgBad := true } } : State).resignNative).wdgRestart := by
  rw [expired, if_neg (by rw [hc]; decide), State.onTrial, ht, watchdogExpires, State.advanceTo, State.wdgTimeout, msCycles, ← hu]
  rfl

/-- With fewer recent restarts than LOOP_MAX the watchdog restarts Ranger (R304). -/
theorem State.wdgRestart_restarts {v w : State} (h : v.recent < v.rd F.WDG_CFG_LOOP_MAX)
    (hw : w = { v with care := { v.care with restarts := v.core :: v.care.restarts } }) :
    v.wdgRestart = (w.wr F.WDG_STAT_RECENT (min w.recent 15)).coldRestart := by
  subst hw
  exact if_neg (Nat.not_le.mpr h)

/-! ### Ranger's load -/

theorem busy_waits {s u : State} {c : Nat} (h : s.workWaits c = true) (hu : u = { s with care := { s.care with
      lateCommit := if c = 2 then s.waitCommit else s.care.lateCommit
      lateMbx := if c = 3 then s.waitMbx else s.care.lateMbx
      lateCue := if c = 4 then s.net.cue.head? else s.care.lateCue } }) :
    busy c s = ((u.wr F.WDG_LOAD (setBit (s.rd F.WDG_LOAD) (c - 1))).inc F.WDG_BUSY_COUNT).detect E.WDG_BUSY := by
  subst hu
  exact if_pos h

/-- The classes of hardware work remember no item (R305). -/
theorem busy_hardware {s : State} {c : Nat} (h : c ∈ [1, 5, 6]) :
    busy c s = ((s.wr F.WDG_LOAD (setBit (s.rd F.WDG_LOAD) (c - 1))).inc F.WDG_BUSY_COUNT).detect E.WDG_BUSY := by
  simp only [List.mem_cons, List.not_mem_nil, or_false] at h
  rcases h with rfl | rfl | rfl <;> exact busy_waits (u := s) rfl rfl

theorem busy_idle {s : State} {c : Nat} (h : s.workWaits c = false) : busy c s = s := if_neg (by rw [h]; decide)

/-! ### FAULT_SNAPSHOT and RANGER_RESTART -/

/-- The records of the 23 blocks (R307). -/
def State.snapshot (s : State) : Bytes := (List.range 23).flatMap s.snapRecord

section
variable {s : State} {d : Desc} (ho : d.only [(8, 0, 64)] = true)
include ho

theorem faultSnapshot_address (ok : Bool) (h : d.num 8 8 % 64 ≠ 0 ∨ (d.mbx = true ∧ lmOk (d.num 8 8) 368 = false)) :
    faultSnapshot d ok s = s.finish d 0xF0 0x003 := by
  have hbad : (d.num 8 8 % 64 != 0 || mbxRefuses d (d.num 8 8) 368) = true := by
    rcases h with h | h
    · simp [h]
    · simp [(mbxRefuses_iff d _ _).mpr h]
  exact (if_neg (by simp [ho])).trans (if_pos hbad)

theorem faultSnapshot_reach (ok : Bool) (ha : d.num 8 8 % 64 = 0) (h : d.mbx = false ∨ lmOk (d.num 8 8) 368 = true) :
    faultSnapshot d ok s = if ok = false ∧ d.mbx = false then s.finish d 0xF0 0x004
      else (s.returnTo d (d.num 8 8) s.snapshot).finish d 0xF0 0x000 := by
  simp only [faultSnapshot, ho, ha, mbxRefuses_reach h, bne_self_eq_false, Bool.or_self, Bool.not_true, Bool.false_eq_true, if_false,
    Bool.and_eq_true, Bool.not_eq_true']
  rfl

end

theorem State.returnTo_host {d : Desc} (h : d.mbx = false) (s : State) (a : Nat) (b : Bytes) :
    s.returnTo d a b = { s with out := .hostWrite a b :: s.out } := by
  rw [State.returnTo, h]
  rfl

theorem State.returnTo_mbx {d : Desc} (h : d.mbx = true) (s : State) (a : Nat) (b : Bytes) : s.returnTo d a b = s.lmWrite a b :=
  if_pos h

theorem rangerRestart_restarts {s : State} {d : Desc} (ho : d.only [] = true) : rangerRestart d s =
    { (s.starts d).coldRestart with care := { (s.starts d).coldRestart.care with restartDesc := some d } } :=
  if_neg (by rw [ho]; decide)

/-- Settles O20: each event and each opcode by what it does on the state its hypotheses name. -/
theorem supervision : Obligations.Supervision := by
  unfold Obligations.Supervision
  refine ⟨⟨?scrub, ?stopped, ?dip, ?kick, ?half, ?busy, ?expiry⟩, ?snapshot, ?restart⟩
  case scrub =>
    exact fun s a hl hp => ⟨_, _, rfl, rfl, next_of_live hl (lmcScrub_clean a hp), next_of_live hl (lmcScrub_corr1 a hp),
      next_of_live hl (lmcScrub_corr2 a hp), next_of_live hl (lmcScrub_uncorr a hp rfl)⟩
  case stopped => exact fun s hl h => next_of_live hl (expired_stopped h)
  case dip => exact fun s rail hl hm => ⟨_, rfl, next_of_live hl (supplyDip_monitored hm rfl)⟩
  case kick => exact fun s hl hr => next_of_live hl (wdgKick_running hr)
  case half => exact fun s hl hc hp => next_of_live hl (preExpire_counting hc hp rfl)
  case busy =>
    exact fun s c hl => ⟨fun h => next_of_live hl (busy_hardware h), fun h => ⟨_, rfl, next_of_live hl (busy_waits h rfl)⟩,
      fun h => next_of_live hl (busy_idle h)⟩
  case expiry =>
    exact fun s hl ht hc => ⟨_, _, rfl, rfl, fun h => ⟨_, rfl,
      next_of_live hl ((expired_counting hc ht rfl).trans (State.wdgRestart_restarts h rfl))⟩⟩
  case snapshot =>
    refine fun s d ha ho => ⟨s.snapshot, rfl, fun h ok => next_of_accepts ha (faultSnapshot_address ho ok (.inl h)),
      fun h hm => ⟨?_, ?_⟩, fun h hm ok => ⟨fun hlm => next_of_accepts ha (faultSnapshot_address ho ok (.inr ⟨hm, hlm⟩)), fun hlm => ?_⟩⟩
    · exact next_of_accepts ha ((faultSnapshot_reach ho false h (.inl hm)).trans (if_pos ⟨rfl, hm⟩))
    · exact next_of_accepts ha ((faultSnapshot_reach ho true h (.inl hm)).trans
        ((if_neg (by simp)).trans (by rw [State.returnTo_host hm])))
    · exact next_of_accepts ha ((faultSnapshot_reach ho ok h (.inr hlm)).trans
        ((if_neg (by simp [hm])).trans (by rw [State.returnTo_mbx hm])))
  case restart => exact fun s d ha ho => ⟨_, _, rfl, rfl, next_of_accepts ha (rangerRestart_restarts ho)⟩

end Sys2Proof.Machine
end

section
/-! The boot engine's choices, Ranger's start and the end of a supply dip (R299, R303, R338, R339, R349, R351). -/

namespace Sys2Proof.Machine

/-! ### The boot engine -/

theorem State.bootRec_of_record {s : State} {k : Nat} {r : BootRec} (h : s.record? = some (k, r)) : s.bootRec = r := by
  rw [State.bootRec, h]

section
variable {s : State} (hr : s.power.ranger = .starting) (hl : s.seed.loaded = false) (hc : s.care.shut = false)
  (hv : s.on F.GLB_BOOT_STAT_RECOVERY = false)
include hr hl hc hv

/-- At its first start a device that boots from elsewhere than the Seedbank enters recovery (R351). -/
theorem bootLoad_recovers (hn : s.on F.GLB_BOOT_STAT_NOT_READY = true) (hs : s.bootSrc ≠ 0) : bootLoad s = s.recover := by
  simp [bootLoad, hr, hl, hc, hv, hn, hs]

/-- The active slot of a record without trial is loaded where it passes every check (R338, R339). -/
theorem bootLoad_boots {k : Nat} {r : BootRec} (hs : s.bootSrc = 0) (hrec : s.record? = some (k, r)) (ht : r.trial = false)
    (hb : (s.showRecord r).bootable r.active = true) : bootLoad s = (s.showRecord r).boots r.active false := by
  have hload : (s.showRecord r).loadSlot r.active false = (s.showRecord r).boots r.active false := if_pos hb
  simp [bootLoad, hr, hl, hc, hv, hs, hrec, State.detectIf, State.bootRec_of_record hrec, ht, hload]

end

/-! ### Ranger's start -/

/-- The firmware loaded from a slot runs: Ranger's state, and what it shows of itself (R303, R349). -/
def State.runsFirmware (s : State) (h : Bytes) : State :=
  let u : State := { s with power := { s.power with ranger := .running }, seed := { s.seed with loaded := false } }
  ((((u.wr F.GLB_BOOT_STAT_NOT_READY 0).wr F.WDG_STAT_RUNNING 1).wr F.WDG_STAT_HALTED 0).wr (F.TRL_COMPAT 0) (imgCompat h)).wr
    (F.TRL_FW_VERSION 0) (imgVersion h)

/-- A field that no start of Ranger shows keeps its value. -/
theorem State.runsFirmware_rd_ne (s : State) (h : Bytes) {f : Fld} (hn : F.GLB_BOOT_STAT_NOT_READY.key ≠ f.key)
    (hr : F.WDG_STAT_RUNNING.key ≠ f.key) (hh : F.WDG_STAT_HALTED.key ≠ f.key) (hc : (F.TRL_COMPAT 0).key ≠ f.key)
    (hv : (F.TRL_FW_VERSION 0).key ≠ f.key) : (s.runsFirmware h).rd f = s.rd f := by
  rw [State.runsFirmware, State.rd_wr_ne _ _ hv, State.rd_wr_ne _ _ hc, State.rd_wr_ne _ _ hh, State.rd_wr_ne _ _ hr,
    State.rd_wr_ne _ _ hn]
  exact State.rd_regs rfl f

theorem State.runsFirmware_shows (s : State) (h : Bytes) : (s.runsFirmware h).rd F.GLB_BOOT_STAT_NOT_READY = 0 ∧
    (s.runsFirmware h).rd F.WDG_STAT_RUNNING = 1 ∧ (s.runsFirmware h).rd F.WDG_STAT_HALTED = 0 ∧
    (s.runsFirmware h).rd (F.TRL_FW_VERSION 0) = imgVersion h % 2 ^ 32 := by
  refine ⟨?_, ?_, ?_, State.rd_wr_same _ _ _⟩ <;> rw [State.runsFirmware]
  · rw [State.rd_wr_ne _ _ (by decide), State.rd_wr_ne _ _ (by decide), State.rd_wr_ne _ _ (by decide),
      State.rd_wr_ne _ _ (by decide), State.rd_wr_same]
    rfl
  · rw [State.rd_wr_ne _ _ (by decide), State.rd_wr_ne _ _ (by decide), State.rd_wr_ne _ _ (by decide), State.rd_wr_same]
    rfl
  · rw [State.rd_wr_ne _ _ (by decide), State.rd_wr_ne _ _ (by decide), State.rd_wr_same]
    rfl

/-- With no trial, no waiting descriptor and no recovery source nothing else happens (R303). -/
theorem rangerRunning_plain {s : State} (hr : s.power.ranger = .starting) (hl : s.seed.loaded = true)
    (hs : s.seed.source = none) (hd : s.care.restartDesc = none) (hg : s.seed.going = none)
    (ht : s.on F.SDB_STAT_TRIAL = false) : rangerRunning s = s.runsFirmware (s.slotBlock s.seed.booted 0) := by
  have hstart : (s.power.ranger != .starting || !s.seed.loaded) = false := by rw [hr, hl]; rfl
  rw [rangerRunning, hstart, if_neg Bool.false_ne_true]
  generalize s.slotBlock s.seed.booted 0 = h
  have htrial : (s.runsFirmware h).onTrial = false := by
    rw [State.onTrial, State.on,
      s.runsFirmware_rd_ne h (by decide) (by decide) (by decide) (by decide) (by decide), ← State.on, ht]
  have hsource : (s.runsFirmware h).seed.source = none := hs
  have hdesc : (s.runsFirmware h).care.restartDesc = none := hd
  have hgoing : (s.runsFirmware h).seed.going = none := hg
  unfold State.runsFirmware at *
  simp only [hsource, hdesc, hgoing, htrial, Bool.false_eq_true, if_false]

/-! ### The end of a dip -/

theorem dipRecovery_idle {s u : State} (hw : s.seed.waiting = []) (hb : s.trail.bcasts = [])
    (hu : u = { s with power := { s.power with dips := 0 }, seed := { s.seed with waiting := [] } }) :
    dipRecovery s = (u.wr F.SUP_STAT_BELOW_WARN 0).wr F.SUP_STAT_SDB_SUSPENDED 0 := by
  subst hu
  simp only [dipRecovery, State.wr_seed, State.wr_trail, hw, List.foldl_nil, hb, Map.find]
  rfl

/-- Settles O23: the boot engine by the boot source, Ranger's start by what it shows, and the end of a dip. -/
theorem bootAndRun : Obligations.BootAndRun := by
  unfold Obligations.BootAndRun
  refine ⟨fun s hl hr hld hc hv => ⟨fun hn hs => ?_, fun k r hs hrec ht hb => ?_⟩, fun s hl hr hld hs hd hg ht => ?run,
    fun s hl hw hb => ⟨_, rfl, next_of_live hl (dipRecovery_idle hw hb rfl)⟩⟩
  · exact next_of_live hl (bootLoad_recovers hr hld hc hv hn hs)
  · exact next_of_live hl (bootLoad_boots hr hld hc hv hs hrec ht hb)
  case run =>
    obtain ⟨hready, hrunning, hhalted, hversion⟩ := s.runsFirmware_shows (s.slotBlock s.seed.booted 0)
    refine ⟨_, next_of_live hl (rangerRunning_plain hr hld hs hd hg ht), rfl, rfl, ?_, ?_, ?_, hversion, rfl, rfl, rfl, rfl, rfl⟩
    · rw [State.on, hready]; rfl
    · rw [State.on, hrunning]; rfl
    · rw [State.on, hhalted]; rfl

end Sys2Proof.Machine
end

section
/-! Firmware images: writing one, activating, confirming and reverting it, and the Seedbank's other services (R330, R333 - R337,
R340 - R342, R344, R378). -/

namespace Sys2Proof.Machine

/-! ### IMAGE_WRITE -/

/-- Block 0 of an image, from the bytes a descriptor brings (R334). -/
def headBlock (bs : Bytes) : Bytes := (List.range 65536).map (byteAt bs)

section
variable {s : State} {bs : Bytes} {u : State} (hu : u = s.emptySlot s.target)
include hu

theorem State.writeBlock_rejected {b : Bytes} {st : Nat} (h : u.headStatus b = some st) :
    s.writeBlock 0 b = (some st, u.imageReject) := by
  simp only [State.writeBlock, if_true, ← hu, h]

theorem State.writeBlock_stored {b : Bytes} (h : u.headStatus b = none) : s.writeBlock 0 b =
    (none, ({ u with sdb := Store.write u.sdb (0x1800000 * s.target) b } : State).setSlot s.target 1) := by
  simp only [State.writeBlock, if_true, ← hu, h, slotBase, slotSize, Nat.mul_zero, Nat.add_zero]

section
variable {d : Desc} (hk : d.num 8 4 = 0) (hn : d.num 12 4 = 1)
include hk hn

/-- A head block that fails a check of R333 ends the descriptor with that check's status. -/
theorem doImageWrite_rejected {st : Nat} (h : u.headStatus (headBlock bs) = some st) :
    doImageWrite d bs s = u.imageReject.finish d 0xB0 st 0 := by
  have hw : s.writeBlocks bs 0 1 = (some (st, 0), u.imageReject) := by
    have hb := State.writeBlock_rejected hu h
    rw [headBlock] at hb
    rw [State.writeBlocks, sdbBlock, hb]
  rw [doImageWrite, hk, hn, hw]

/-- One that passes is stored, and its slot is WRITING. -/
theorem doImageWrite_stored (h : u.headStatus (headBlock bs) = none) : doImageWrite d bs s =
    (({ u with sdb := Store.write u.sdb (0x1800000 * s.target) (headBlock bs) } : State).setSlot s.target 1).finish d 0xB0 0x000 := by
  have hw : s.writeBlocks bs 0 1 =
      (none, ({ u with sdb := Store.write u.sdb (0x1800000 * s.target) (headBlock bs) } : State).setSlot s.target 1) := by
    have hb := State.writeBlock_stored hu h
    rw [headBlock] at hb ⊢
    rw [State.writeBlocks, sdbBlock, hb]
    rfl
  rw [doImageWrite, hk, hn, hw]
  rfl

end
end

/-- The judgement of a lawful IMAGE_WRITE of block 0, in its order (R334, R342). -/
theorem imageWrite_head {s : State} {d : Desc} (src : HostData) (ho : d.only [(0, 0, 64), (8, 0, 32), (12, 0, 32)] = true)
    (hk : d.num 8 4 = 0) (hn : d.num 12 4 = 1) (ha : d.num 0 8 % 64 = 0) (hm : mbxRefuses d (d.num 0 8) 65536 = false) :
    imageWrite d src s = if s.trialBusy then s.finish d 0xB0 0xB09
      else if s.srcBad d (d.num 0 8) 65536 then s.lmUncorr.finish d 0xB0 0x005
      else if !(s.srcBytes d (d.num 0 8) 65536 src).ok then s.finish d 0xB0 0x004
      else if s.on F.SUP_STAT_SDB_SUSPENDED then s.holdWrite 0xB0 d (s.srcBytes d (d.num 0 8) 65536 src).bytes
      else doImageWrite d (s.srcBytes d (d.num 0 8) 65536 src).bytes s := by
  have hlen : sdbBlock * d.num 12 4 = 65536 := by rw [hn]; rfl
  have hfirst : decide (383 < d.num 8 4) = false := decide_eq_false (by omega)
  have hlast : decide (384 < d.num 8 4 + d.num 12 4) = false := decide_eq_false (by omega)
  have haddr : (d.num 0 8 % 64 != 0) = false := by rw [ha]; rfl
  simp only [imageWrite, hlen, ho, hfirst, hlast, haddr, hm, Bool.not_true, Bool.or_self, Bool.false_eq_true, if_false]
  rfl

theorem State.trialBusy_iff (s : State) : s.trialBusy = true ↔ s.on F.SDB_STAT_TRIAL = true ∨ s.seed.going.isSome = true := by
  rw [State.trialBusy, State.onTrial, Bool.or_eq_true]

/-! ### IMAGE_ACTIVATE -/

section
variable {s : State} {d : Desc} (ho : d.only [(0, 0, 1), (4, 0, 32)] = true) (hw : d.num 4 4 = 0)
include ho hw

/-- The judgement of a lawful IMAGE_ACTIVATE on a head, with no Seedbank write waiting or suspended (R335, R342). -/
theorem imageActivate_head (hwait : s.seed.waiting = []) (hh : s.isHead = true) (hs : s.on F.SUP_STAT_SDB_SUSPENDED = false) :
    imageActivate d s = if s.seed.going.isSome then s.finish d 0xB1 0xB0B else doImageActivate d s := by
  have hwin : windowOk (d.num 4 4) = true := by rw [hw]; rfl
  simp only [imageActivate, ho, hwin, hwait, State.isTile_of_isHead hh, State.sdbHeld, hs, List.isEmpty_nil, Bool.not_true,
    Bool.or_self, Bool.false_and, Bool.or_false, Bool.false_or, Bool.false_eq_true, if_false]
  rfl

end

section
variable {s : State} {d : Desc} (hn : s.on F.GLB_BOOT_STAT_NOT_READY = false)
include hn

theorem doImageActivate_incomplete (h : s.slotState s.target ≠ 2) : doImageActivate d s = s.finish d 0xB1 0xB07 := by
  rw [doImageActivate, hn, if_neg Bool.false_ne_true]
  exact if_pos (by simpa using h)

theorem doImageActivate_complete (h : s.slotState s.target = 2) : doImageActivate d s = s.activateTrial d := by
  rw [doImageActivate, hn, if_neg Bool.false_ne_true]
  exact if_neg (by simp [h])

end

theorem State.activateTrial_invalid {s : State} (d : Desc) {st : Nat} (h : s.imageStatus s.target = some st) :
    s.activateTrial d = (s.setSlot s.target 5).imageReject.finish d 0xB1 st := by
  unfold State.activateTrial
  simp only [h]

section
variable {s : State} {d : Desc} (h : s.imageStatus s.target = none)
include h

/-- A warm activation writes the record on trial with CFG.WINDOW, and restarts Ranger (R335, R338). -/
theorem State.activateTrial_warm (hw : d.num 4 4 = 0) (hmin : imgCompatMin (s.slotBlock s.target 0) ≤ s.rd (F.TRL_COMPAT 0))
    (hmax : s.rd (F.TRL_COMPAT 0) ≤ imgCompat (s.slotBlock s.target 0)) {u : State}
    (hu : u = (s.starts d).writeRecord { s.bootRec with
      active := s.seed.booted, trial := true, tried := false, cold := false, window := s.rd F.SDB_CFG_WINDOW }) :
    s.activateTrial d = ({ u with seed := { u.seed with going := some d, report := none } } : State).coldRestart := by
  have hwarm : (decide (imgCompatMin (s.slotBlock s.target 0) ≤ s.compat) && decide (s.compat ≤ imgCompat (s.slotBlock s.target 0))) =
      true := by rw [State.compat, decide_eq_true hmin, decide_eq_true hmax]; rfl
  unfold State.activateTrial
  simp only [h, hwarm, hw, Bool.not_true, Bool.false_and, Bool.false_eq_true, if_false, if_true, ← hu]

theorem State.activateTrial_incompatible (hc : s.rd (F.TRL_COMPAT 0) < imgCompatMin (s.slotBlock s.target 0) ∨
    imgCompat (s.slotBlock s.target 0) < s.rd (F.TRL_COMPAT 0)) (hcold : d.flag 0 0 = false) :
    s.activateTrial d = s.finish d 0xB1 0xB08 := by
  have hwarm : (decide (imgCompatMin (s.slotBlock s.target 0) ≤ s.compat) && decide (s.compat ≤ imgCompat (s.slotBlock s.target 0))) =
      false := by
    rw [State.compat, Bool.and_eq_false_iff, decide_eq_false_iff_not, decide_eq_false_iff_not, Nat.not_le, Nat.not_le]
    exact hc
  unfold State.activateTrial
  simp only [h, hwarm, hcold, Bool.not_false, Bool.and_self, if_true]
  rfl

end

/-! ### IMAGE_CONFIRM and IMAGE_REVERT -/

section
variable {s : State} {d : Desc} (ho : d.only [] = true) (hs : s.on F.SUP_STAT_SDB_SUSPENDED = false)
include ho hs

theorem imageConfirm_free : imageConfirm d s = doImageConfirm d s := by
  simp only [imageConfirm, ho, State.sdbHeld, hs, Bool.not_true, Bool.false_and, Bool.false_eq_true, if_false]

theorem imageRevert_free : imageRevert d s = doImageRevert d s := by
  simp only [imageRevert, ho, State.sdbHeld, hs, Bool.not_true, Bool.false_and, Bool.false_eq_true, if_false]

end

theorem doImageConfirm_none {s : State} (d : Desc) (h : s.on F.SDB_STAT_TRIAL = false) :
    doImageConfirm d s = s.finish d 0xB2 0xB0A := if_pos (by rw [State.onTrial, h]; rfl)

/-- On a trial the trial slot becomes the active one, and the window ends (R337). -/
theorem doImageConfirm_trial {s u v : State} (d : Desc) (h : s.on F.SDB_STAT_TRIAL = true)
    (hu : u = ((s.writeRecord { s.bootRec with
      active := 1 - s.bootRec.active, trial := false, tried := false, cold := false, setCur := 1 - s.bootRec.setCur }).setSlot
        s.bootRec.active 2).setSlot (1 - s.bootRec.active) 3)
    (hv : v = { u with seed := { u.seed with deadline := none } }) :
    doImageConfirm d s = (v.raiseCounter (imgSec (v.slotBlock (1 - s.bootRec.active) 0))).finish d 0xB2 0x000 := by
  simp only [doImageConfirm, State.onTrial, h, Bool.not_true, Bool.false_eq_true, if_false, ← hu, ← hv]
  rfl

theorem doImageRevert_none {s : State} (d : Desc) (h : s.on F.SDB_STAT_TRIAL = false) :
    doImageRevert d s = s.finish d 0xB3 0xB0A := if_neg (by rw [State.onTrial, h]; decide)

theorem doImageRevert_trial {s : State} (d : Desc) (h : s.on F.SDB_STAT_TRIAL = true) :
    doImageRevert d s = (s.fallBack 3).coldRestart.finish d 0xB3 0x000 := if_pos h

/-- Settles O24: each opcode's judgement of lawful operands in its order, then what it does to the slots. -/
theorem imageWrites : Obligations.ImageWrites := by
  unfold Obligations.ImageWrites
  refine ⟨fun s d src ha ho hk hn hal hm => ⟨fun hb => ?busy, fun ht hg hs hbad hok => ?write⟩,
    fun s d ha ho hw hn hwait hh hs => ⟨fun hg => ?going, fun hg => ⟨fun hst => ?incomplete, fun st hst hbad => ?invalid⟩⟩,
    fun s d ha ho hs => ⟨fun ht => ?_, fun ht => ⟨_, _, rfl, rfl, ?_⟩⟩, fun s d ha ho hs => ⟨fun ht => ?_, fun ht => ?_⟩⟩
  case busy => exact next_of_accepts ha ((imageWrite_head src ho hk hn hal hm).trans (if_pos (s.trialBusy_iff.mpr hb)))
  case write =>
    have hfree : s.trialBusy = false := by rw [State.trialBusy, State.onTrial, ht, hg]; rfl
    have hdo : imageWrite d src s = doImageWrite d (s.srcBytes d (d.num 0 8) 65536 src).bytes s := by
      rw [imageWrite_head src ho hk hn hal hm, hfree, hbad, hok, hs]
      rfl
    exact ⟨headBlock (s.srcBytes d (d.num 0 8) 65536 src).bytes, _, headBlock.eq_1 _, rfl, fun st h => next_of_accepts ha (hdo.trans (doImageWrite_rejected rfl hk hn h)),
      fun h => next_of_accepts ha (hdo.trans (doImageWrite_stored rfl hk hn h))⟩
  case going => exact next_of_accepts ha ((imageActivate_head ho hw hwait hh hs).trans (if_pos hg))
  case incomplete =>
    exact next_of_accepts ha ((imageActivate_head ho hw hwait hh hs).trans
      ((if_neg (by simp [hg])).trans (doImageActivate_incomplete hn hst)))
  case invalid =>
    exact next_of_accepts ha ((imageActivate_head ho hw hwait hh hs).trans
      ((if_neg (by simp [hg])).trans ((doImageActivate_complete hn hst).trans (State.activateTrial_invalid d hbad))))
  · exact next_of_accepts ha ((imageConfirm_free ho hs).trans (doImageConfirm_none d ht))
  · exact next_of_accepts ha ((imageConfirm_free ho hs).trans (doImageConfirm_trial d ht rfl rfl))
  · exact next_of_accepts ha ((imageRevert_free ho hs).trans (doImageRevert_none d ht))
  · exact next_of_accepts ha ((imageRevert_free ho hs).trans (doImageRevert_trial d ht))

/-- Settles O25: the judgement of lawful operands, then the slot's COMPAT range. -/
theorem activationBegins : Obligations.ActivationBegins := by
  unfold Obligations.ActivationBegins
  intro s d ha ho hw hn hwait hg hh hs hst hstatus
  have htrial : imageActivate d s = s.activateTrial d :=
    (imageActivate_head ho hw hwait hh hs).trans ((if_neg (by simp [hg])).trans (doImageActivate_complete hn hst))
  exact ⟨fun hmin hmax => ⟨_, rfl, next_of_accepts ha (htrial.trans (State.activateTrial_warm hstatus hw hmin hmax rfl))⟩,
    fun hc hcold => next_of_accepts ha (htrial.trans (State.activateTrial_incompatible hstatus hc hcold))⟩

/-! ### The other services -/

theorem migrationReport_writes {s : State} {d : Desc} {r : Bytes} (ho : d.only [(8, 0, 64), (16, 0, 32)] = true)
    (ha : d.num 8 8 % 8 = 0) (hr : r = s.seed.report.getD []) (hl : r.length ≤ d.num 16 4)
    (hm : mbxRefuses d (d.num 8 8) r.length = false) :
    migrationReport d true s = (s.returnTo d (d.num 8 8) r).finish d 0xB4 0x000 r.length := by
  have hroom : decide (d.num 16 4 < r.length) = false := decide_eq_false (Nat.not_lt.mpr hl)
  simp only [migrationReport, ← hr, ho, ha, hroom, hm, bne_self_eq_false, Bool.or_self, Bool.not_true, Bool.false_and,
    Bool.false_eq_true, if_false]
  rfl

theorem imageBroadcast_starts {s : State} {d : Desc} {src : HostData} (ho : d.only [(0, 0, 64), (8, 0, 32)] = true)
    (ha : d.num 8 4 % 65536 = 0) (h0 : 0 < d.num 8 4) (hn : d.num 8 4 ≤ 0x1800000) (hok : src.ok = true) :
    imageBroadcast d src s = (s.starts d).broadcastFor 4 ((List.range (d.num 8 4)).map (byteAt src.bytes)) d 0xB5 := by
  have hzero : decide (d.num 8 4 = 0) = false := decide_eq_false (by omega)
  have hroom : decide (slotSize < d.num 8 4) = false := decide_eq_false (Nat.not_lt.mpr hn)
  simp only [imageBroadcast, ho, ha, hzero, hroom, hok, bne_self_eq_false, Bool.or_self, Bool.not_true, Bool.false_eq_true, if_false]

theorem sdbQuery_answers {s : State} {d : Desc} (ho : d.only [] = true) : sdbQuery d s = s.finish d 0xB6 0x000
    (s.seed.slotA + 8 * s.seed.slotB + 64 * s.rd F.SDB_STAT_ACTIVE + 128 * s.rd F.SDB_STAT_TRIAL) :=
  if_neg (by rw [ho]; decide)

theorem trialWindowExpiry_none {s : State} (h : s.seed.deadline = none) : trialWindowExpiry s = s := by
  rw [trialWindowExpiry, h]

/-- With no IMAGE_CONFIRM fetched or waiting the end of the window falls back (R336). -/
theorem trialWindowExpiry_falls {s : State} {c : Nat} (h : s.seed.deadline = some c) (hf : s.hq.flights = [])
    (hw : s.seed.waiting = []) : trialWindowExpiry s = ((s.advance (c - s.core)).fallBack 1).coldRestart := by
  rw [trialWindowExpiry, h]
  refine if_neg ?_
  rw [State.advanceTo, State.advance_hq, State.advance_seed, hf, hw]
  decide

section
variable {s : State} (a : Nat) (hr : s.power.ranger = .running)
include hr

theorem seedbankScrub_clean : seedbankScrub a .clean s = s := if_neg (by rw [State.rangerUp, hr]; decide)

theorem seedbankScrub_corr1 : seedbankScrub a .corr1 s = s.countCorr := if_neg (by rw [State.rangerUp, hr]; decide)

theorem seedbankScrub_corr2 : seedbankScrub a .corr2 s = s.countCorr := if_neg (by rw [State.rangerUp, hr]; decide)

theorem seedbankScrub_uncorr : seedbankScrub a .uncorr s =
    if a < 2 * 0x1800000 then (s.countUncorr.setSlot (a / 0x1800000) 5).detect E.SDB_SCRUB_UNCORR else s.countUncorr :=
  if_neg (by rw [State.rangerUp, hr]; decide)

end

/-- Settles O26: the opcodes by their judgement, the window by its deadline, the scrub by what was read. -/
theorem seedbankService : Obligations.SeedbankService := by
  unfold Obligations.SeedbankService
  refine ⟨?report, ?broadcast, ?query, ?none, ?expiry, ?scrub, fun s i => rfl⟩
  case report => exact fun s d ha ho hal r hr hl hm => next_of_accepts ha (migrationReport_writes ho hal hr hl hm)
  case broadcast => exact fun s d src ha ho hal h0 hn hok => next_of_accepts ha (imageBroadcast_starts ho hal h0 hn hok)
  case query => exact fun s d ha ho => next_of_accepts ha (sdbQuery_answers ho)
  case none => exact fun s hl h => next_of_live hl (trialWindowExpiry_none h)
  case expiry => exact fun s c hl h hf hw => next_of_live hl (trialWindowExpiry_falls h hf hw)
  case scrub =>
    exact fun s a hl hr => ⟨next_of_live hl (seedbankScrub_clean a hr), next_of_live hl (seedbankScrub_corr1 a hr),
      next_of_live hl (seedbankScrub_corr2 a hr),
      fun h => next_of_live hl ((seedbankScrub_uncorr a hr).trans (if_pos h)),
      fun h => next_of_live hl ((seedbankScrub_uncorr a hr).trans (if_neg (Nat.not_lt.mpr h)))⟩

end Sys2Proof.Machine
end

section
/-! Temperature: the warning, the throttle level and the shutdown (R314 - R316, R320). -/

namespace Sys2Proof.Machine

theorem State.on_eq_false {s : State} {f : Fld} (h : s.rd f = 0) : s.on f = false := by rw [State.on, h]; rfl

theorem State.on_eq_true {s : State} {f : Fld} (h : s.rd f ≠ 0) : s.on f = true := bne_iff_ne.mpr h

theorem State.warnAt_cold {s : State} (t : Int) (h : s.rd F.THM_STAT_WARN = 0) :
    s.warnAt t = if 460 ≤ t then (s.wr F.THM_STAT_WARN 1).detect E.THM_WARN else s := by
  rw [State.warnAt, State.on_eq_false h, if_neg Bool.false_ne_true]

theorem State.warnAt_warm {s : State} (t : Int) (h : s.rd F.THM_STAT_WARN ≠ 0) :
    s.warnAt t = if t < 448 then s.wr F.THM_STAT_WARN 0 else s := by
  rw [State.warnAt, State.on_eq_true h, if_pos rfl]

/-- The level moves up at its own threshold and down below the one of the level in force (R314). -/
theorem State.levelAt_eq {s : State} (t : Int) {n : Nat} (h : s.rd F.THM_STAT_LEVEL = n) : s.levelAt t =
    if n < 4 ∧ 476 + 8 * ((n : Int) + 1) ≤ t then (s.notePace.wr F.THM_STAT_LEVEL (n + 1)).detect E.THM_THROTTLE
    else if 0 < n ∧ t < 464 + 8 * (n : Int) then s.notePace.wr F.THM_STAT_LEVEL (n - 1) else s := by
  simp only [State.levelAt, h, levelEnter, levelLeave, Bool.and_eq_true, decide_eq_true_eq, Nat.cast_add, Nat.cast_one]

/-- A sample is judged in this order: WARN, the level, then the run of samples at 130 degrees and above (R314 - R316). -/
theorem thermalSample_judges {s u v : State} {l m : List SensorReading} (hm : m = s.trimmed l)
    (hu : u = ((s.showSample m).warnAt (tmaxOf m).1).levelAt (tmaxOf m).1)
    (hv : v = { u with care := { u.care with hotRun := if 520 ≤ (tmaxOf m).1 then u.care.hotRun + 1 else 0 } }) :
    thermalSample l s = if 2 ≤ v.care.hotRun ∧ u.on F.THM_STAT_SHUTDOWN = false then v.shutdown else v := by
  have hon : v.on F.THM_STAT_SHUTDOWN = u.on F.THM_STAT_SHUTDOWN := by rw [hv]; rfl
  rw [thermalSample, ← hm, ← hu, ← hv, ← hon]
  simp only [Bool.and_eq_true, decide_eq_true_eq, Bool.not_eq_true']

/-- Settles O21: the sample's stages, then what the warning and the level do at a temperature. -/
theorem thermalState : Obligations.ThermalState := by
  unfold Obligations.ThermalState
  exact ⟨fun s l hl => ⟨_, _, _, rfl, rfl, rfl, next_of_live hl (thermalSample_judges rfl rfl rfl)⟩,
    fun s t => ⟨State.warnAt_cold t, State.warnAt_warm t⟩, fun s t n h _ => State.levelAt_eq t h, fun s hl => next_of_live hl rfl⟩

end Sys2Proof.Machine
end

section
/-! Trim sets and repair sets, and the trim opcodes (R321, R324 - R328, R390). -/

namespace Sys2Proof.Machine

/-! ### APPLY and the change -/

theorem trimApply_busy {s : State} (h : s.trm.going.isSome = true) : trimApply s = s.detect E.TRM_STAGE_BUSY := if_pos h

theorem trimApply_unlawful {s : State} (hg : s.trm.going = none) (h : repairsOk (repairRecs s.staged) = false) :
    trimApply s = s.detect E.TRM_TRIM_REJECT := by
  rw [trimApply, if_neg (by rw [hg]; exact Bool.false_ne_true), if_pos (by rw [h]; rfl)]

theorem trimApply_lawful {s : State} (hg : s.trm.going = none) (h : repairsOk (repairRecs s.staged) = true) : trimApply s =
    { s.wr F.TRM_STAT_PENDING 1 with trm := { s.trm with going := some (s.on F.TRM_APPLY_WHEN, none), armed := false } } := by
  rw [trimApply, hg, h]
  rfl

theorem trimChange_none {s : State} (h : s.trm.going = none) : trimChange s = s := by rw [trimChange, h]

theorem trimChange_latch {s : State} {o : Option Desc} (h : s.trm.going = some (true, o)) :
    trimChange s = { s with trm := { s.trm with armed := true } } := by rw [trimChange, h]

/-- On a head a change with WHEN 0 comes into force at once: no branch is skipped there (R326, R327). -/
theorem trimChange_now {s : State} {o : Option Desc} (hh : s.isHead = true) (h : s.trm.going = some (false, o)) :
    trimChange s = s.trimNow o := by
  have hskip : s.skipChanged = s := if_pos (by rw [hh]; rfl)
  rw [trimChange, h]
  dsimp only
  rw [hskip]

/-! ### TRIM_SAVE -/

section
variable {s : State} {d : Desc} (ho : d.only [(8, 0, 64), (16, 0, 32)] = true)
include ho

theorem trimSave_address (ok : Bool) (h : d.num 8 8 % 64 ≠ 0 ∨ d.num 16 4 < s.trimImage.length ∨
    (d.mbx = true ∧ lmOk (d.num 8 8) s.trimImage.length = false)) : trimSave d ok s = s.finish d 0xC0 0x003 := by
  have hbad : (d.num 8 8 % 64 != 0 || decide (d.num 16 4 < s.trimImage.length) ||
      mbxRefuses d (d.num 8 8) s.trimImage.length) = true := by
    rcases h with h | h | h
    · simp [h]
    · simp [h]
    · simp [(mbxRefuses_iff d _ _).mpr h]
  exact (if_neg (by simp [ho])).trans (if_pos hbad)

theorem trimSave_reach (ok : Bool) (ha : d.num 8 8 % 64 = 0) (hn : s.trimImage.length ≤ d.num 16 4)
    (h : d.mbx = false ∨ lmOk (d.num 8 8) s.trimImage.length = true) : trimSave d ok s =
      if ok = false ∧ d.mbx = false then s.finish d 0xC0 0x004
      else (s.returnTo d (d.num 8 8) s.trimImage).finish d 0xC0 0x000 s.trimImage.length := by
  have hroom : decide (d.num 16 4 < s.trimImage.length) = false := decide_eq_false (Nat.not_lt.mpr hn)
  simp only [trimSave, ho, ha, hroom, mbxRefuses_reach h, bne_self_eq_false, Bool.or_self, Bool.not_true, Bool.false_eq_true,
    if_false, Bool.and_eq_true, Bool.not_eq_true']
  rfl

end

/-! ### TRIM_RESTORE -/

section
variable {s : State} {d : Desc} (src : HostData) (ho : d.only [(0, 0, 1), (8, 0, 64), (16, 0, 32)] = true)
  (hm : mbxRefuses d (d.num 8 8) (d.num 16 4) = false)
include ho hm

theorem trimRestore_waiting (hg : s.trm.going.isSome = true) : trimRestore d src s = s.finish d 0xC1 0xC04 := by
  simp only [trimRestore, ho, hm, hg, Bool.not_true, Bool.false_eq_true, if_false, if_true]

/-- The judgement of an image whose bytes have been read, in its order (R328). -/
theorem trimRestore_read {b : Bytes} (hg : s.trm.going = none) (hbad : s.srcBad d (d.num 8 8) (d.num 16 4) = false)
    (hb : s.srcBytes d (d.num 8 8) (d.num 16 4) src = ⟨b, true⟩) : trimRestore d src s =
      if numAt b 8 16 ≠ s.fuses.unitId.toNat then s.finish d 0xC1 0xC01
      else if imageOk b = false then s.finish d 0xC1 0xC02
      else ((s.starts d).stageImage b).showTrim.applyTrim (d.flag 0 0) (some d) := by
  simp only [trimRestore, ho, hm, hg, hbad, hb, Option.isSome_none, Bool.not_true, Bool.false_eq_true, if_false, bne_iff_ne,
    Bool.not_eq_true']

end

/-! ### MEM_BIST -/

theorem State.bistBusy_of {s : State} (h : s.stp.stands ≠ [] ∨ s.on F.CLK_FRM_CTRL_RUN = true ∨ s.on F.AUD_CTRL_RUN = true) :
    s.bistBusy = true := by
  rw [State.bistBusy]
  rcases h with h | h | h
  · simp [h]
  · simp [h]
  · simp [h]

/-- What MEM_BIST does once it runs on memories other than Local Memory channels (R325). -/
def State.bistRan (s : State) (d : Desc) (used : List BistResult) (recs : List (BitVec 64)) : State :=
  let u := s.detectIf (used.any (fun r => r.beyond)) E.TRM_BIST_FAIL
  if recs.isEmpty then u else u.returnTo d (d.num 8 8) (recs.flatMap (fun r => leBytes 8 r.toNat))

section
variable {s : State} {d : Desc} (rs : List BistResult) (ho : d.only [(0, 0, 8), (1, 0, 8), (8, 0, 64), (16, 0, 16)] = true)
  (hr : d.num 0 1 ≤ d.num 1 1) (ha : d.num 8 8 % 8 = 0) (hm : mbxRefuses d (d.num 8 8) (8 * d.num 16 2) = false)
include ho hr ha hm

/-- The judgement of lawful operands (R325). -/
theorem memBist_lawful : memBist d rs true s = if s.bistBusy then s.finish d 0xC2 0xC03 else
    let used := rs.take (d.num 1 1 + 1 - d.num 0 1)
    let recs := (used.flatMap (fun r => r.records)).take (d.num 16 2)
    ((if d.num 0 1 < 32 then s.wipe else s).bistRan d used recs).finish d 0xC2 0x000
      (recs.length + 65536 * b2n (used.any (fun r => r.beyond))) := by
  have hrange : decide (d.num 1 1 < d.num 0 1) = false := decide_eq_false (Nat.not_lt.mpr hr)
  simp only [memBist, ho, hrange, ha, hm, bne_self_eq_false, Bool.or_self, Bool.not_true, Bool.false_and, Bool.false_eq_true, if_false]
  rfl

theorem memBist_runs {used : List BistResult} {recs : List (BitVec 64)} (hb : s.bistBusy = false) (hc : 32 ≤ d.num 0 1)
    (hu : used = rs.take (d.num 1 1 + 1 - d.num 0 1)) (hrecs : recs = (used.flatMap (fun r => r.records)).take (d.num 16 2)) :
    memBist d rs true s = (s.bistRan d used recs).finish d 0xC2 0x000
      (recs.length + 65536 * b2n (used.any (fun r => r.beyond))) := by
  rw [memBist_lawful rs ho hr ha hm, hb, if_neg Bool.false_ne_true, ← hu]
  dsimp only
  rw [← hrecs, if_neg (Nat.not_lt.mpr hc)]

end

/-- Settles O22: APPLY and the change by what waits, then each opcode's judgement of lawful operands in its order. -/
theorem trimApplies : Obligations.TrimApplies := by
  unfold Obligations.TrimApplies
  refine ⟨fun s hl => ⟨fun h => ?_, fun hg h => ?_, fun hg h => ?_, fun h => ?_, fun o h => ?_, fun o hh h => ?now⟩,
    ?save, ?restore, ?bist⟩
  · exact next_of_live hl (trimApply_busy h)
  · exact next_of_live hl (trimApply_unlawful hg h)
  · exact next_of_live hl (trimApply_lawful hg h)
  · exact next_of_live hl (trimChange_none h)
  · exact next_of_live hl (trimChange_latch h)
  case now => exact ⟨_, _, _, rfl, rfl, rfl, next_of_live hl ((trimChange_now hh h).trans rfl)⟩
  case save =>
    refine fun s d ha ho => ⟨fun h ok => next_of_accepts ha (trimSave_address ho ok h), fun hal hn => ⟨fun hm => ?_, fun hm hlm ok => ?_⟩⟩
    · exact next_of_accepts ha ((trimSave_reach ho true hal hn (.inl hm)).trans
        ((if_neg (by simp)).trans (by rw [State.returnTo_host hm])))
    · exact next_of_accepts ha ((trimSave_reach ho ok hal hn (.inr hlm)).trans
        ((if_neg (by simp [hm])).trans (by rw [State.returnTo_mbx hm])))
  case restore =>
    refine fun s d src ha ho hm => ⟨fun hg => next_of_accepts ha (trimRestore_waiting src ho hm hg), fun hg hbad b hb => ?_⟩
    have hread := trimRestore_read src ho hm hg hbad hb
    refine ⟨fun hunit => ?_, fun hunit hok => ?_, fun hunit hok => ⟨_, rfl, ?_⟩⟩
    all_goals refine next_of_accepts ha (hread.trans ?_)
    · exact if_pos hunit
    · exact (if_neg (by simp [hunit])).trans (if_pos hok)
    · exact (if_neg (by simp [hunit])).trans (if_neg (by simp [hok]))
  case bist =>
    refine fun s d rs ha ho hr hal hm => ⟨fun h => ?_, fun hst hrun haud hc => ⟨_, _, rfl, rfl, _, _, rfl, rfl, ?_⟩⟩
    · exact next_of_accepts ha ((memBist_lawful rs ho hr hal hm).trans (if_pos (State.bistBusy_of h)))
    · have hb : s.bistBusy = false := by rw [State.bistBusy, hst, hrun, haud]; rfl
      exact next_of_accepts ha (memBist_runs rs ho hr hal hm hb hc rfl rfl)

end Sys2Proof.Machine
end

section
/-! HOLD_SET and the entry of Night (R246 - R249, R255). -/

namespace Sys2Proof.Machine

/-! ### HOLD_SET -/

/-- A HOLD_SET is kept with the moment it was fetched (R246, R255). -/
def State.keepsWant (s : State) (d : Desc) : State :=
  { s.starts d with hold := { s.hold with want := s.hold.want ++ [(d.num 0 1, d, s.fetchedAt d)] } }

theorem State.showPending_keepsWant (s : State) (d : Desc) :
    (s.keepsWant d).showPending = (s.keepsWant d).wr F.PAT_HOLD_STAT_PENDING 1 := by
  have hne : (s.keepsWant d).hold.want.isEmpty = false := by simp [State.keepsWant]
  rw [State.showPending, hne]
  rfl

section
variable {s : State} {d : Desc} (ho : d.only [(0, 0, 8)] = true)
include ho

/-- Rest outside Night waits for a frame start. -/
theorem holdSet_rest (hv : d.num 0 1 = 1) (hs : s.rd F.PAT_HOLD_STAT_STATE ≠ 3) :
    holdSet d s = (s.keepsWant d).wr F.PAT_HOLD_STAT_PENDING 1 := by
  rw [← s.showPending_keepsWant d]
  simp [holdSet, ho, hv, State.holdState, hs, State.keepsWant]

/-- So does Run outside a Night the host asked for. -/
theorem holdSet_run (hv : d.num 0 1 = 0) (hb : s.hold.byHost = false) :
    holdSet d s = (s.keepsWant d).wr F.PAT_HOLD_STAT_PENDING 1 := by
  rw [← s.showPending_keepsWant d]
  simp [holdSet, ho, hv, hb, State.keepsWant]

theorem holdSet_nightByMailbox (hv : d.num 0 1 = 3) (hm : d.mbx = true) : holdSet d s = s.finish d 0x88 0x882 := by
  simp [holdSet, ho, hv, hm]

theorem holdSet_fromNight (hv : d.num 0 1 = 1 ∨ d.num 0 1 = 2) (hs : s.rd F.PAT_HOLD_STAT_STATE = 3) :
    holdSet d s = s.finish d 0x88 0x883 := by
  rcases hv with hv | hv <;> simp [holdSet, ho, hv, State.holdState, hs]

end

/-! ### Night -/

theorem State.freezeOfs_hold (s : State) : s.freezeOfs.hold = s.hold := by
  unfold State.freezeOfs State.settleSlew
  extract_lets
  split_ifs <;> rfl

theorem State.holdover_hold (s : State) : s.holdover.hold = s.hold := s.freezeOfs_hold

/-- The state with Night in force and Root in holdover (R249). -/
def State.nightHeld (s : State) : State := (s.setHold 3 s.frameNow).holdover

/-- What Night drops: requests, runs, passes and armed entries; the pins are high-Z (R249). -/
def State.nightDrops (u : State) (byHost : Bool) : State :=
  { u with
    hold := { u.hold with want := [], byHost := byHost, waking := false }
    brn := { u.brn with runs := [], spans := [], hiz := true }
    cnp := { u.cnp with passes := [], queue := [], due := [], shown := [] }
    stp := { u.stp with armed := [] } }

theorem State.bothDormant_of {s : State} (h0 : s.rd (F.TRL_STAT_STATE 0) = 7) (h1 : s.rd (F.TRL_STAT_STATE 1) = 7) :
    s.bothDormant = true := by
  rw [State.bothDormant, State.lst, State.lst, h0, h1]
  rfl

section
variable {s : State} (ht : s.isTile = true) (h0 : s.rd (F.TRL_STAT_STATE 0) = 7) (h1 : s.rd (F.TRL_STAT_STATE 1) = 7)
include ht h0 h1

/-- A lone HOLD_SET to Night completes with the state before (R249). -/
theorem nightEntry_asked {d : Desc} {c : Nat} (hw : s.hold.want = [(3, d, c)]) : nightEntry s =
    ((s.nightHeld.nightDrops true).retireIfDone.linkCycles.finish d 0x88 0x000 (s.rd F.PAT_HOLD_STAT_STATE)).showPending := by
  have hasked : s.hold.want.filter (fun w => w.1 == 3) = [(3, d, c)] := by rw [hw]; rfl
  have hleft : (s.setHold 3 s.frameNow).holdover.hold.want.filter (fun w => w.1 != 3) = [] := by
    rw [State.holdover_hold, State.setHold, State.wr_hold, State.wr_hold, hw]
    rfl
  rw [nightEntry, hasked, State.isHead_of_isTile ht, State.bothDormant_of h0 h1]
  refine (if_neg (by simp)).trans ?_
  dsimp only
  rw [hleft]
  rfl

/-- With none waiting, AUTO_NIGHT takes the tile to Night and fires NIGHT_AUTO (R249). -/
theorem nightEntry_auto (hw : s.hold.want = []) (ha : s.on F.PAT_HOLD_CFG_AUTO_NIGHT = true)
    (hs : s.rd F.PAT_HOLD_STAT_STATE ≠ 3) : nightEntry s =
      ((s.nightHeld.nightDrops false).detect E.PAT_NIGHT_AUTO).retireIfDone.linkCycles.showPending := by
  have hleft : (s.setHold 3 s.frameNow).holdover.hold.want.filter (fun w => w.1 != 3) = [] := by
    rw [State.holdover_hold, State.setHold, State.wr_hold, State.wr_hold, hw]
    rfl
  have hstate : (s.holdState == 3) = false := beq_false_of_ne hs
  rw [nightEntry, hw, State.isHead_of_isTile ht, State.bothDormant_of h0 h1, hstate, ha]
  refine (if_neg (by decide)).trans ?_
  dsimp only
  rw [hleft]
  rfl

end

/-- Settles O16: HOLD_SET by the state asked for, and Night by who asks for it. -/
theorem holdRequests : Obligations.HoldRequests := by
  unfold Obligations.HoldRequests
  refine ⟨fun s d ha ho => ⟨fun hv hs => ⟨_, rfl, ?rest⟩, fun hv hb => ⟨_, rfl, ?run⟩, fun hv hm => ?mailbox, fun hv hs => ?fromNight⟩,
    fun s hl ht h0 h1 => ⟨s.nightHeld.nightDrops, s.nightHeld, rfl, fun _ => rfl, fun d c hw => ?asked, fun hw ha hs => ?auto⟩⟩
  case rest =>
    have h := holdSet_rest (s := s) ho hv hs
    rw [State.keepsWant, hv] at h
    exact next_of_accepts ha h
  case run =>
    have h := holdSet_run (s := s) ho hv hb
    rw [State.keepsWant, hv] at h
    exact next_of_accepts ha h
  case mailbox => exact next_of_accepts ha (holdSet_nightByMailbox ho hv hm)
  case fromNight => exact next_of_accepts ha (holdSet_fromNight ho hv hs)
  case asked => exact next_of_live hl (nightEntry_asked ht h0 h1 hw)
  case auto => exact next_of_live hl (nightEntry_auto ht h0 h1 hw ha hs)

end Sys2Proof.Machine
end

section
/-! The audio opcodes: ports, streams, routes, captures, transmit flows and groups (R261, R263, R264, R266, R268). -/

namespace Sys2Proof.Machine

/-! ### PORT_SET -/

section
variable {s : State} {d : Desc} {p side : Nat} (ho : d.only [(0, 0, 8), (1, 0, 8), (2, 0, 8), (3, 0, 2)] = true)
  (hp : d.num 0 1 = p) (hp' : p ≤ 15) (hs : d.num 1 1 = side) (hs' : side ≤ 1) (hf : d.bitsAt 2 2 3 ≤ 5) (hr : d.bitsAt 2 0 2 ≠ 3)
include ho hp hp' hs hs' hf hr

/-- Lawful operands of PORT_SET pass its first check (R261). -/
theorem portSet_lawful : (!d.only [(0, 0, 8), (1, 0, 8), (2, 0, 8), (3, 0, 2)] || decide (15 < d.num 0 1) || decide (1 < d.num 1 1) ||
    decide (5 < d.bitsAt 2 2 3) || decide (d.bitsAt 2 0 2 = 3)) = false := by
  rw [ho, hp, hs, decide_eq_false (Nat.not_lt.mpr hp'), decide_eq_false (Nat.not_lt.mpr hs'), decide_eq_false (Nat.not_lt.mpr hf),
    decide_eq_false hr]
  rfl

theorem portSet_rate (h0 : d.bitsAt 2 2 3 ≠ 0) (hz : audSlots (d.bitsAt 2 2 3) (d.bitsAt 2 0 2) = 0) :
    portSet d s = s.finish d 0x90 0x901 := by
  unfold portSet
  refine (if_neg (ne_true_of_eq_false (portSet_lawful ho hp hp' hs hs' hf hr))).trans (if_pos ?_)
  rw [hz, bne_iff_ne.mpr h0]
  rfl

/-- A side takes a setting that its rate carries, and its channels' pending changes apply at once (R261). -/
theorem portSet_takes (hc : d.bitsAt 2 2 3 = 0 ∨ audSlots (d.bitsAt 2 2 3) (d.bitsAt 2 0 2) ≠ 0) {u v w : State} (hu : u = s.playDue)
    (hv : v = (((u.setSide p side { cfg := d.num 2 2, restart := d.bitsAt 2 2 3 != 0, locked := false, fade := 0 }).showSide p
      side).wr (if side = 0 then F.AUD_PORT_OFS_TX p else F.AUD_PORT_OFS_RX p) 0))
    (hw : w = if d.bitsAt 2 2 3 = 0 then v.emit (.audioSide (2 * p + side) none) else v) :
    portSet d s = State.finish (State.audSettle
      (if side = 0 then (w.aud.routes.filter (fun e => e.1 / 16 == p)).foldl (fun s e => s.applyAll e.1) w
        else (w.aud.captures.filter (fun e => e.2.src / 16 == p)).foldl (fun s e => s.applyAll (256 + e.1)) w)) d 0x90 0x000 := by
  have hcarried : ¬ (d.bitsAt 2 2 3 != 0 && decide (audSlots (d.bitsAt 2 2 3) (d.bitsAt 2 0 2) = 0)) = true := by
    rcases hc with hc | hc <;> simp [hc]
  unfold portSet
  refine (if_neg (ne_true_of_eq_false (portSet_lawful ho hp hp' hs hs' hf hr))).trans ((if_neg hcarried).trans ?_)
  dsimp only
  rw [hp, hs, State.setOfs, ← hu, ← hv, ← hw]
  rfl

end

/-! ### STREAM_SET and TXAUD_SET -/

/-- A stream's stored format differs from the one of a setting (R263). -/
def State.reformats (s : State) (n v : Nat) : Bool :=
  match Map.find s.aud.streams n with
  | some o => o % 65536 != v % 65536
  | none => false

theorem State.reformats_stored {s : State} {n v o : Nat} (h : Map.find s.aud.streams n = some o) :
    s.reformats n v = (o % 65536 != v % 65536) := by
  rw [State.reformats, h]

theorem State.reformats_same {s : State} {n v : Nat} (h : ∀ o, Map.find s.aud.streams n = some o → o % 65536 = v % 65536) :
    s.reformats n v = false := by
  rw [State.reformats]
  cases hm : Map.find s.aud.streams n with
  | none => rfl
  | some o => exact bne_eq_false_iff_eq.mpr (h o hm)

/-- The judgement of a lawful STREAM_SET (R263). -/
theorem streamSet_lawful {s : State} {d : Desc} {n v : Nat} (ho : d.only [(0, 0, 8), (1, 0, 8), (2, 0, 3), (3, 0, 1)] = true)
    (hf : audFormatOk (d.num 1 1) (d.bitsAt 2 1 2) = true) (hn : d.num 0 1 = n) (hv : d.num 1 3 = v) :
    streamSet d s = if s.reformats n v && s.streamUsed n then s.finish d 0x91 0x902
      else { s with aud := { s.aud with streams := Map.put s.aud.streams n v } }.finish d 0x91 0x000 := by
  unfold streamSet
  rw [ho, hf, hn, hv]
  rfl

section
variable {s : State} {d : Desc} {f : Nat} (ho : d.only [(0, 0, 8), (1, 0, 8), (2, 0, 3)] = true) (hf : d.num 0 1 = f) (hf' : f ≤ 63)
  (hok : audFormatOk (d.num 1 1) (d.bitsAt 2 1 2) = true)
include ho hf hf' hok

/-- The judgement of a lawful TXAUD_SET (R264). -/
theorem txaudSet_lawful : txaudSet d s = if !s.audioFlow f then s.finish d 0x94 0x904 else
    { s with aud := { s.aud with
      txaud := Map.put s.aud.txaud f (d.num 1 2)
      nextPkt := Map.put s.aud.nextPkt f (ceilDiv s.blockNum (packetSamples (d.num 1 2)) * packetSamples (d.num 1 2)) } }.finish d
        0x94 0x000 := by
  have hrange : decide (63 < f) = false := decide_eq_false (Nat.not_lt.mpr hf')
  unfold txaudSet
  dsimp only
  rw [ho, hok, hf, hrange]
  rfl

end

/-! ### ROUTE_SET and CAPTURE_SET -/

section
variable {s : State} {d : Desc}
  (ho : d.only [(0, 0, 8), (1, 0, 8), (2, 0, 8), (3, 0, 6), (4, 0, 6), (4, 7, 1), (6, 0, 16), (8, 0, 4)] = true)
  (hp : d.num 0 1 ≤ 15)
include ho hp

/-- The judgement of a lawful ROUTE_SET (R263, R266). -/
theorem routeSet_lawful : routeSet d s = if (s.audSide (d.num 0 1) 0).slots ≤ d.num 1 1 then s.finish d 0x92 0x002
    else s.channelSet d (16 * d.num 0 1 + d.num 1 1) (64 * d.num 2 1 + d.bitsAt 3 0 6) (d.bitsAt 4 0 6) := by
  have hport : decide (15 < d.num 0 1) = false := decide_eq_false (Nat.not_lt.mpr hp)
  unfold routeSet
  simp only [ho, hport, Bool.not_true, Bool.or_self, Bool.false_or, decide_eq_true_eq]
  rfl

end

/-- The judgement of a lawful CAPTURE_SET (R264, R266). -/
theorem captureSet_lawful {s : State} {d : Desc}
    (ho : d.only [(0, 0, 8), (1, 0, 8), (2, 0, 8), (3, 0, 6), (4, 7, 1), (6, 0, 16), (8, 0, 4)] = true) (hp : d.num 0 1 ≤ 15)
    (hf : d.num 2 1 ≤ 63) (hs : d.num 1 1 < (s.audSide (d.num 0 1) 1).slots) :
    captureSet d s = if !s.audioFlow (d.num 2 1) then s.finish d 0x93 0x904
      else s.channelSet d (256 + 64 * d.num 2 1 + d.bitsAt 3 0 6) (16 * d.num 0 1 + d.num 1 1) 0 := by
  have hport : decide (15 < d.num 0 1) = false := decide_eq_false (Nat.not_lt.mpr hp)
  have hflow : decide (63 < d.num 2 1) = false := decide_eq_false (Nat.not_lt.mpr hf)
  have hslot : decide ((s.audSide (d.num 0 1) 1).slots ≤ d.num 1 1) = false := decide_eq_false (Nat.not_le.mpr hs)
  unfold captureSet
  simp only [ho, hport, hflow, hslot, Bool.not_true, Bool.or_self, Bool.false_eq_true, if_false]

/-! ### A channel's change -/

/-- Nothing plays between blocks (R259). -/
theorem State.playDue_idle {s : State} (h : s.aud.playing = false) : s.playDue = s := by
  rw [State.playDue, h]
  exact if_neg Bool.false_ne_true

/-- A channel that keeps its source keeps its ring (R265). -/
theorem State.putCh_kept (s : State) (ch : Nat) {old new : AudRoute} (hs : new.src = old.src) (hv : new.valid = old.valid) :
    s.putCh ch old new = s.setAudCh ch new := by
  rw [State.putCh, hs, hv, bne_self_eq_false, bne_self_eq_false, Bool.or_self, Bool.and_false]
  exact if_neg Bool.false_ne_true

section
variable {s : State} {ch : Nat} {d : Desc} {r : AudRoute} (hp : s.aud.playing = false) (hr : s.audCh ch = some r)
include hp hr

/-- A change that changes nothing completes at once (R266). -/
theorem State.newChange_same {g : Option Nat} {m : Option Bool} (hc : r.change = none) (hg : g = some r.gain) (hm : m = some r.mute) :
    s.newChange ch d (some (r.valid, r.src, r.group)) g m = (s.setAudCh ch { r with change := none }).finish d (chOp ch) 0x000 := by
  unfold State.newChange
  simp only [State.playDue_idle hp, hr, Option.getD_some, hc, hg, hm, if_true, Option.isNone_none, Bool.and_self, decide_true]
  rfl

/-- A new gain waits from now on (R266). -/
theorem State.newChange_gain {x : Nat} (hc : r.change = none) (hx : x ≠ r.gain) : s.newChange ch d none (some x) none =
    (s.starts d).setAudCh ch { r with change := some ⟨none, some x, none, s.core, d, 0, false⟩ } := by
  unfold State.newChange
  have hne : ¬ some x = some r.gain := fun h => hx (Option.some.inj h)
  simp only [State.playDue_idle hp, hr, Option.getD_some, hc, hne, reduceCtorEq, if_false, Option.isNone_some, Bool.and_false,
    Bool.false_and, Bool.false_eq_true]
  exact State.putCh_kept _ ch rfl rfl

/-- A new gain takes the place of a pending change, which completes with SUPERSEDED, and keeps its start time (R266). -/
theorem State.newChange_supersedes {x : Nat} {c : AudChange} (hc : r.change = some c) (hst : c.stage ≠ 2) (hx : x ≠ r.gain) :
    s.newChange ch d none (some x) none =
      State.setAudCh (State.starts ((s.setAudCh ch { r with change := none }).finish c.desc (chOp ch) 0x903) d) ch { r with
        change := some ⟨none, some x, none, c.since, d, b2n (c.stage == 1), c.stage == 1⟩ } := by
  have hne : ¬ some x = some r.gain := fun h => hx (Option.some.inj h)
  have hstage : (if c.stage = 1 ∨ c.stage = 2 then c.stage else 0) = b2n (c.stage == 1) := by
    by_cases h : c.stage = 1 <;> simp [h, hst, b2n]
  have hhalf : ¬ b2n (c.stage == 1) = 2 := by cases c.stage == 1 <;> decide
  have hone : (b2n (c.stage == 1) == 1) = (c.stage == 1) := by cases c.stage == 1 <;> rfl
  unfold State.newChange
  simp only [State.playDue_idle hp, hr, Option.getD_some, hc, hne, reduceCtorEq, if_false, Option.isNone_some, Bool.and_false,
    Bool.false_and, Bool.false_eq_true, Bool.or_eq_true, decide_eq_true_eq, hstage, hhalf, hone]
  exact State.putCh_kept _ ch rfl rfl

end

/-! ### GROUP_SET -/

section
variable {s : State} {d : Desc} {g x : Nat} (ho : d.only [(0, 0, 8), (4, 0, 32)] = true) (hg : d.num 0 1 = g) (hg' : g ≤ 63)
  (hx : d.num 4 4 = x) (hx' : x ≤ 48000) (hq : s.aud.regroup = [])
include ho hg hg' hx hx' hq

theorem groupSet_same (h : Map.getD s.aud.groups g 0 = x) : groupSet d s = s.finish d 0x95 0x000 := by
  have hgroup : decide (63 < g) = false := decide_eq_false (Nat.not_lt.mpr hg')
  have hdelay : decide (48000 < x) = false := decide_eq_false (Nat.not_lt.mpr hx')
  unfold groupSet
  simp only [ho, hg, hx, hgroup, hdelay, hq, h, List.any_nil, Bool.not_true, Bool.not_false, Bool.or_self, Bool.false_eq_true, if_false,
    decide_true, Bool.and_self, if_true]
  rfl

/-- Another delay mutes the group's valid channels, and the change waits for them (R263). -/
theorem groupSet_mutes (h : Map.getD s.aud.groups g 0 ≠ x) (hp : s.aud.playing = false) {u : State} (hu : u = s.starts d) :
    groupSet d s = State.moveGroups { u with aud := { u.aud with
      routes := s.aud.routes.map (fun e => if e.2.valid ∧ e.2.group = g then
        (e.1, if e.2.gstage = 4 then { e.2 with gstage := 3 }
          else if e.2.gstage = 0 || e.2.gstage = 5 then { e.2 with gstage := 1, gsince := s.core } else e.2) else e)
      regroup := [(g, x, d, false)] } } := by
  have hgroup : decide (63 < g) = false := decide_eq_false (Nat.not_lt.mpr hg')
  have hdelay : decide (48000 < x) = false := decide_eq_false (Nat.not_lt.mpr hx')
  have hold : u.aud.regroup = [] := by rw [hu]; exact hq
  unfold groupSet
  simp only [ho, hg, hx, hgroup, hdelay, h, Bool.not_true, Bool.or_self, Bool.false_eq_true, if_false, decide_false, Bool.false_and,
    State.playDue_idle hp, ← hu, hold, List.filter_nil, List.foldl_nil, List.nil_append]
  subst hu
  rfl

end

/-- Settles O54: each opcode's judgement of lawful operands in its order, and a channel's change by what is pending there. -/
theorem audioOpcodes : Obligations.AudioOpcodes := by
  unfold Obligations.AudioOpcodes
  refine ⟨?port, ?stream, ?txaud, ?route, ?capture, ?change, ?group⟩
  case port =>
    exact fun s d p side u v w ha ho hp hp' hs hs' hf hr hu hv hw =>
      ⟨fun h0 hz => next_of_accepts ha (portSet_rate ho hp hp' hs hs' hf hr h0 hz),
        fun hc => next_of_accepts ha (portSet_takes ho hp hp' hs hs' hf hr hc hu hv hw)⟩
  case stream =>
    refine fun s d n v ha ho hf hn hv => ⟨fun o hm hne hused => ?_, fun h => ?_⟩
    all_goals refine next_of_accepts ha ((streamSet_lawful ho hf hn hv).trans ?_)
    · exact if_pos (by rw [State.reformats_stored hm, bne_iff_ne.mpr hne, hused]; rfl)
    · refine if_neg ?_
      rcases h with h | h
      · rw [h, Bool.and_false]; exact Bool.false_ne_true
      · rw [State.reformats_same h, Bool.false_and]; exact Bool.false_ne_true
  case txaud =>
    refine fun s d f k ha ho hf hf' hok hk => ⟨fun h => ?_, fun h => ?_⟩
    all_goals refine next_of_accepts ha ((txaudSet_lawful ho hf hf' hok).trans ?_)
    · exact if_pos (by rw [h]; rfl)
    · subst hk
      exact if_neg (by rw [h]; decide)
  case route =>
    refine fun s d ha ho hp ch hch => ⟨fun h => ?_, fun h => ?_⟩
    all_goals refine next_of_accepts ha ((routeSet_lawful ho hp).trans ?_)
    · exact if_pos h
    · subst hch
      exact if_neg (Nat.not_le.mpr h)
  case capture =>
    refine fun s d ha ho hp hf hs => ⟨fun h => ?_, fun h => ?_⟩
    all_goals refine next_of_accepts ha ((captureSet_lawful ho hp hf hs).trans ?_)
    · exact if_pos (by rw [h]; rfl)
    · exact if_neg (by rw [h]; decide)
  case change =>
    exact fun s ch d r g m hp hr => ⟨State.newChange_same hp hr, fun x => State.newChange_gain hp hr,
      fun x c => State.newChange_supersedes hp hr⟩
  case group =>
    exact fun s d g x ha ho hg hg' hx hx' hq => ⟨fun h => next_of_accepts ha (groupSet_same ho hg hg' hx hx' hq h),
      fun h hp => ⟨_, rfl, next_of_accepts ha (groupSet_mutes ho hg hg' hx hx' hq h hp rfl)⟩⟩

end Sys2Proof.Machine
end

section
/-! Claims, resignations, the health score and the arbiter of a pair (R272 - R276, R278 - R280, R287). -/

namespace Sys2Proof.Machine

/-! ### Claiming and resigning -/

section
variable {s : State} (hp : s.isPair = false)
include hp

theorem claim_single : claim s = s := if_pos (by rw [hp]; rfl)

theorem healthUpdate_single : healthUpdate s = s := if_pos (by rw [hp]; rfl)

theorem arbSelect_single : arbSelect s = s := if_pos (by rw [hp]; rfl)

theorem arbDeselect_single : arbDeselect s = s := if_pos (by rw [hp]; rfl)

theorem fbActInRise_single : fbActInRise s = s := if_pos (by rw [hp]; rfl)

end

section
variable {s : State} (hl : s.live = true)
include hl

theorem execResign_single (hp : s.isPair = false) : exec .resign s = .next s :=
  next_of_live hl (if_neg (by rw [hp]; exact Bool.false_ne_true))

theorem execResign_pair (hp : s.isPair = true) : exec .resign s = .next (if s.mustResign then s.resign else s) :=
  next_of_live hl (by rw [hp, Bool.true_and])

end

section
variable {s : State} (hp : s.isPair = true)
include hp

/-- A device that holds the claim begins to drive (R272). -/
theorem claim_held (hc : s.claims = true) : claim s = (s.actQuiet.wr F.FBK_STAT_DRIVING 1).driveFbclk := by
  rw [claim, hp, hc]
  rfl

/-- Without it, the device takes the claim where it may (R273). -/
theorem claim_free (hc : s.claims = false) : claim s = if s.mayClaim then s.actQuiet.takeClaim else s := by
  rw [claim, hp, hc]
  rfl

end

theorem State.mayClaim_iff (s : State) : s.mayClaim = true ↔ s.isPair = true ∧ s.on F.FBK_CTRL_CLAIM_EN = true ∧
    ((s.on F.FBK_CTRL_ARB = true ∧ s.on F.FBK_STAT_ARB_IN = true) ∨ (s.on F.FBK_CTRL_ARB = false ∧ s.pairReady = true)) := by
  rw [State.mayClaim, Bool.and_eq_true, Bool.and_eq_true, and_assoc]
  cases s.on F.FBK_CTRL_ARB <;> simp

/-- In arbiter mode the flag of a shutdown and the arbiter resign the device (R274, R278). -/
theorem State.mustResign_arbiter {s : State} (ha : s.on F.FBK_CTRL_ARB = true) :
    s.mustResign = true ↔ s.power.shutFlag = true ∨ s.on F.FBK_STAT_ARB_IN = false := by
  rw [State.mustResign, if_pos ha, Bool.or_eq_true, Bool.not_eq_true']

/-- Elsewhere a forced cause, and the score held for DWELL updates, resign it (R274, R276). -/
theorem State.mustResign_native {s : State} (ha : s.on F.FBK_CTRL_ARB = false) : s.mustResign = true ↔
    s.forced = true ∨ (0 < s.pair.dwell ∧ s.rd F.FBK_HEALTH_CFG_DWELL ≤ s.pair.dwell) := by
  rw [State.mustResign, if_neg (by simp [ha]), Bool.or_eq_true, State.scoreResigns, Bool.and_eq_true, decide_eq_true_eq,
    decide_eq_true_eq, and_comm]

theorem State.resign_unclaimed {s : State} (h : s.claims = false) : s.resign = s := if_neg (by rw [h]; exact Bool.false_ne_true)

/-- A resignation ends the claim and the interlocked drivers, and opens the overlap window (R274, R279). -/
theorem State.resign_claimed {s u v : State} (h : s.claims = true)
    (hu : u = ((s.wr F.FBK_STAT_CLAIM_OUT 0).wr F.FBK_STAT_DRIVING 0).wr F.FBK_STAT_STATE 3)
    (hv : v = { (State.noteHiz { u with pair := { u.pair with claimAt := none, overlap := some u.core, takeover := false } }).driveFbclk with
      aud := { u.aud with pulse := some u.core } }) :
    s.resign = (if v.isHead && v.power.fbclk then v.takeFbclk else v).flag E.FBK_RESIGNED := by
  subst hu hv
  exact if_pos h

theorem overlapTimeout_open {s u : State} {c : Nat} (h : s.pair.overlap = some c)
    (hu : u = (s.advance (c + 190 * 16896 - s.core)).wr F.FBK_STAT_STATE 1) :
    overlapTimeout s = { u with pair := { u.pair with overlap := none } } := by
  rw [overlapTimeout, h, hu]
  rfl

/-! ### The health score -/

theorem scoreOf_le (l : List (Bool × Nat)) : scoreOf l ≤ 255 := min_le_left _ _

theorem State.showHealth_score (s : State) : s.showHealth.rd F.FBK_HEALTH_SCORE = scoreOf s.healthCauses := by
  have hlt : scoreOf s.healthCauses < 2 ^ F.FBK_HEALTH_SCORE.len := Nat.lt_of_le_of_lt (scoreOf_le _) (by decide)
  rw [State.showHealth, State.rd_wr_ne _ _ (by decide), State.rd_wr_same, Nat.mod_eq_of_lt hlt]

/-- An update of the score counts itself, forgets old corrected errors, shows the score and judges it (R275, R276). -/
theorem healthUpdate_pair {s u v w : State} (hp : s.isPair = true)
    (hu : u = s.advance ((s.pair.updates + 1) * 100708 * 16 - s.core))
    (hv : v = State.showHealth { u with pair := { u.pair with
      updates := u.pair.updates + 1
      corr := u.pair.corr.filter (fun x => decide (u.pair.updates + 1 ≤ x.1 + 1000)) } })
    (hw : w = { v with pair := { v.pair with dwell := if v.scoreWorse then v.pair.dwell + 1 else 0 } }) :
    healthUpdate s = if w.scoreResigns then w.resignNative else w := by
  rw [healthUpdate, hp, State.advanceTo, sysCycle, ← hu]
  refine (if_neg (by decide)).trans ?_
  extract_lets _ _ _ _ _ shown _ judged
  have hshown : shown = v := by rw [hv]
  have hjudged : judged = w := by rw [hw, ← hshown]
  rw [hjudged]

/-! ### The arbiter -/

section
variable {s u : State} (hp : s.isPair = true)
include hp

theorem arbSelect_pair (hu : u = (s.wr F.FBK_STAT_ARB_IN 1).advance 64) : arbSelect s =
    if u.on F.FBK_CTRL_ARB && !u.claims && u.mayClaim && u.pair.actLow.isSome then u.actQuiet.takeClaim else u := by
  rw [arbSelect, hp, hu]
  rfl

theorem arbDeselect_pair (hu : u = (s.wr F.FBK_STAT_ARB_IN 0).advance 64) : arbDeselect s =
    if u.on F.FBK_CTRL_ARB then u.resign else u := by
  rw [arbDeselect, hp, hu]
  rfl

end

/-! ### A rise of FB_ACT_IN -/

/-- The device's own claim is not older than 64 cycles (R273). -/
def State.races (s : State) : Bool :=
  s.claims && s.native && (match s.pair.claimAt with
    | some c => decide (s.core ≤ c + 64)
    | none => false)

theorem State.races_recent {s : State} {c : Nat} (hc : s.claims = true) (hn : s.native = true) (ha : s.pair.claimAt = some c)
    (h : s.core ≤ c + 64) : s.races = true := by
  rw [State.races, hc, hn, ha]
  exact decide_eq_true h

theorem State.races_not {s : State} (h : s.claims = false ∨ s.native = false ∨ s.pair.claimAt = none ∨
    ∀ c, s.pair.claimAt = some c → c + 64 < s.core) : s.races = false := by
  rw [State.races]
  rcases h with h | h | h | h
  · rw [h]; rfl
  · rw [h, Bool.and_false]; rfl
  · rw [h, Bool.and_false]
  · cases hc : s.pair.claimAt with
    | none => rw [Bool.and_false]
    | some c =>
      dsimp only
      rw [decide_eq_false (Nat.not_le.mpr (h c hc)), Bool.and_false]

/-- Every interlocked driver stops (R272). -/
def State.actRisen (s : State) : State :=
  let u := (s.wr F.FBK_STAT_CLAIM_IN 1).wr F.FBK_STAT_DRIVING 0
  { u.noteHiz.driveFbclk with pair := { u.pair with actLow := none } }

theorem State.driveFbclk_straps (s : State) : s.driveFbclk.power.straps = s.power.straps := by
  unfold State.driveFbclk
  extract_lets on
  split_ifs <;> rfl

theorem State.actRisen_side (s : State) : s.actRisen.side = s.side := (State.role_of_straps (State.driveFbclk_straps _)).2.2.1

/-- Side B withdraws its claim (R273). -/
def State.withdraws (v : State) : State :=
  let w := (v.wr F.FBK_STAT_CLAIM_OUT 0).wr F.FBK_STAT_STATE 1
  ({ w with pair := { w.pair with claimAt := none, takeover := false } } : State).detect E.FBK_CLAIM_RACE

theorem fbActInRise_pair {s : State} (hp : s.isPair = true) :
    fbActInRise s = if s.races && decide (s.side = 2) then s.actRisen.withdraws else s.actRisen := by
  rw [← s.actRisen_side, fbActInRise, hp]
  rfl

/-! ### The takeover's decision -/

/-- A wall commit that is still undecided is aborted with ABORT_FAILOVER (R280). -/
def State.decidesFailover (v : State) (x : Commit) : State :=
  if !x.loc && (x.phase = 1 || x.phase = 2) then v.abortCommit x stAbortFailover [] else v

section
variable {s u v : State} {c : Nat} (hc : s.pair.claimAt = some c) (hh : s.isHead = true) (ht : s.pair.takeover = true)
  (ha : s.claims = true) (hu : u = s.advance (c + 2 * 16896 + s.dringMax - s.core))
  (hv : v = { u with pair := { u.pair with takeover := false } })
include hc hh ht ha hu hv

theorem takeoverDecision_none (h : s.stp.commits = []) : takeoverDecision s = v := by
  have hcommits : u.stp.commits = [] := by rw [hu]; exact h
  rw [takeoverDecision, hc]
  refine (if_neg (by simp [hh, ht, ha])).trans ?_
  rw [State.advanceTo, trailCycle, ← hu]
  dsimp only
  rw [← hv, hcommits]

theorem takeoverDecision_commit {x : Commit} {r : List Commit} (h : s.stp.commits = x :: r) :
    takeoverDecision s = v.decidesFailover x := by
  have hcommits : u.stp.commits = x :: r := by rw [hu]; exact h
  rw [takeoverDecision, hc]
  refine (if_neg (by simp [hh, ht, ha])).trans ?_
  rw [State.advanceTo, trailCycle, ← hu]
  dsimp only
  rw [← hv, hcommits]
  rfl

end

/-- Settles O55: each command by the state of the claim, then the causes, the score and the arbiter. -/
theorem pairClaims : Obligations.PairClaims := by
  unfold Obligations.PairClaims
  refine ⟨fun s hl => ⟨fun hp => ?single, fun hp hc => ?held, fun hp hc => ?free, fun hp => execResign_pair hl hp⟩,
    State.mayClaim_iff, fun s => ⟨State.mustResign_arbiter, State.mustResign_native⟩,
    fun s => ⟨State.resign_unclaimed, fun hc => ⟨_, _, rfl, rfl, State.resign_claimed hc rfl rfl⟩⟩,
    fun s c hl h => ⟨_, rfl, next_of_live hl (overlapTimeout_open h rfl)⟩,
    fun s hl hp => ⟨_, _, _, rfl, rfl, rfl, next_of_live hl (healthUpdate_pair hp rfl rfl rfl)⟩,
    fun s => ⟨s.showHealth_score, scoreOf_le _⟩, fun s hl hp => ⟨_, _, rfl, rfl, ?select, ?deselect⟩,
    fun s hl hp => ⟨_, s.actRisen, _, rfl, rfl, rfl, fun c hc hn ha hr hs => ?race, fun h => ?norace⟩,
    fun s c hl hc hh ht ha => ⟨_, _, rfl, rfl, fun h => ?none, fun x r h => ?commit⟩⟩
  case single =>
    exact ⟨next_of_live hl (claim_single hp), execResign_single hl hp, next_of_live hl (healthUpdate_single hp),
      next_of_live hl (arbSelect_single hp), next_of_live hl (arbDeselect_single hp), next_of_live hl (fbActInRise_single hp)⟩
  case held => exact next_of_live hl (claim_held hp hc)
  case free => exact next_of_live hl (claim_free hp hc)
  case select => exact next_of_live hl (arbSelect_pair hp rfl)
  case deselect => exact next_of_live hl (arbDeselect_pair hp rfl)
  case race =>
    exact next_of_live hl ((fbActInRise_pair hp).trans (if_pos (by rw [State.races_recent hc hn ha hr, hs]; rfl)))
  case norace =>
    have hno : (s.races && decide (s.side = 2)) = false := by
      rcases h with h | h | h | h | h
      · rw [State.races_not (.inl h), Bool.false_and]
      · rw [State.races_not (.inr (.inl h)), Bool.false_and]
      · rw [State.races_not (.inr (.inr (.inl h))), Bool.false_and]
      · rw [State.races_not (.inr (.inr (.inr h))), Bool.false_and]
      · rw [h, Bool.and_eq_false_iff]
        exact .inr rfl
    exact next_of_live hl ((fbActInRise_pair hp).trans (if_neg (by rw [hno]; exact Bool.false_ne_true)))
  case none => exact next_of_live hl (takeoverDecision_none hc hh ht ha rfl rfl h)
  case commit => exact next_of_live hl (takeoverDecision_commit hc hh ht ha rfl rfl h)

end Sys2Proof.Machine
end
